-- ==== Sys2Proof/Word.lean ====
section
/-!
DEFINITION. The words of the model: bytes, status codes, digests, and the types of coordinates.
-/
namespace Sys2Proof

/-- A byte. -/
abbrev Byte := BitVec 8

/-- A 16-bit status code (R18). -/
abbrev Status := BitVec 16

/-- A 64-bit register word. -/
abbrev Word := BitVec 64

/-- A 256-bit SM3 digest. -/
abbrev Digest := BitVec 256

/-- A virtual column, 0 to 63 (R12). -/
abbrev Vx := Fin 64

/-- A virtual row, 0 to 39 (R12). -/
abbrev Vy := Fin 40

/-- A pasture number P0 to P15 (R33). -/
abbrev PasId := Fin 16

/-- A function: 0 is PF0, n is VFn (R376). -/
abbrev FnId := Fin 16

/-- A link port of R323: 0 to 17 for FL0 to FL17, 18 for SL0, 19 for SL1. -/
abbrev PortId := Fin 20

/-- A stack: 0 to 3 for N0 to N3, 4 to 7 for S0 to S3 (R25). -/
abbrev StackId := Fin 8

/-- The four directions of the data network, numbered as the DIR field of R204. -/
inductive Dir where
  | north | east | south | west
deriving DecidableEq, Repr, Inhabited

/-- The two halves of the die (R20). -/
inductive Half where
  | west | east
deriving DecidableEq, Repr, Inhabited

end Sys2Proof
end

