-- ==== Sys2Proof/Syntax.lean ====
section
/-!
DEFINITION. The commands of the block and the operands they carry: one constructor of Instr for each row of
spec/opcode_table.json. The table gives no row bits or fields; the operands are the model's (assumption 1): which tile,
pasture, port or ring the step happens at, and what comes from outside the package with it.
-/
namespace Sys2Proof

/-- Who sends control-network requests and may be blocked (R276, R277, R284, R286): a tile, a host function, or the shepherd. -/
inductive Sender where
  | tile (vx : Vx) (vy : Vy)
  | fn (f : FnId)
  | shepherd
deriving DecidableEq, Repr

/-- What the input stage measures (R501): input voltage in mV, current in 10 mA, power in W. -/
structure InputReading where
  vin : BitVec 16
  iin : BitVec 16
  pin : BitVec 16
deriving DecidableEq, Repr

/-- Where a function's register lies: BAR0, BAR2 (PF0 only), or configuration space, of which the model has the number of
enabled virtual functions (R376, R377). -/
inductive RegSpace where
  | bar0 | bar2 | config
deriving DecidableEq, Repr

/-- A fabric packet (R344); `e2e` is its E2E_CRC, `dateline` whether it travels in the lane after a dateline (R351), which R344 gives no
field. -/
structure FabPacket where
  ptype   : Byte
  cls     : BitVec 2
  chan    : BitVec 4
  last    : Bool
  drove   : Bool
  hops    : Byte
  dstChip : BitVec 16
  srcChip : BitVec 16
  flock   : BitVec 16
  srcRank : BitVec 12
  win     : BitVec 6
  drv     : Byte
  oseq    : BitVec 16
  xfer    : BitVec 32
  offset  : BitVec 32
  count   : BitVec 32
  status  : Status
  e2e     : BitVec 32
  dateline : Bool
  data    : List Byte
deriving DecidableEq, Repr

/-- The identity record of a package (R332). -/
structure PeerRecord where
  vmin        : Byte
  vmax        : Byte
  chipId      : BitVec 16
  port        : Byte
  kind        : Byte
  stepping    : Byte
  serial      : Word
  flockDigest : Digest
deriving DecidableEq, Repr

/-- A link-management flit's meaning (R334): the identity record, none where its CRC fails; the width messages; a retrain request; a type
code of none of these. -/
inductive MgmtFlit where
  | identity (r : Option PeerRecord)
  | degrade (lanes : Byte)
  | proposal (lanes : Byte)
  | acceptance (lanes : Byte)
  | retrainRequest
  | unknown
deriving DecidableEq, Repr

/-- What a link flit carries, by FTYPE (R324). -/
inductive FlitPayload where
  | idle
  | fabric (p : FabPacket)
  | mgmt (m : MgmtFlit)
  | reserved
deriving DecidableEq, Repr

/-- A link flit (R324): its sequence number, acknowledgment, NAK bit, credit field and payload. -/
structure LinkFlit where
  seq     : BitVec 10
  ack     : BitVec 10
  nak     : Bool
  credit  : BitVec 25
  payload : FlitPayload
deriving DecidableEq, Repr

/-- How a flit was received (R325, R327): the symbols received in error, by their numbers, of the codeword that begins within it, if one
does; whether an uncorrectable buffer word dropped it (R435); the lane of its packet (R351), before a dateline or after it. -/
structure FlitReception where
  errors    : List Nat
  bufferOk  : Bool
  dateline  : Bool
deriving DecidableEq, Repr

/-- How the host's memory and the stacks answer while inputs or outputs are copied (R393, R433), and whether the host's reads
were slower than the pasture's share (R394). -/
structure IoOutcome where
  dmaOk   : Bool
  stackOk : Bool
  slow    : Bool
deriving DecidableEq, Repr

/-- Where a datagram of the field network comes from and goes to (R470): IPv6 addresses and UDP ports. `solicits` is the target of a neighbour
solicitation, which is no UDP datagram. -/
structure MgtEnds where
  addr     : BitVec 128
  port     : BitVec 16
  dstAddr  : BitVec 128
  dstPort  : BitVec 16
  solicits : Option (BitVec 128)
deriving DecidableEq, Repr

/-- One segment of the tile firmware image with the CRC-32C that follows it (R418). -/
structure FwSegment where
  data : List Byte
  crc  : BitVec 32
deriving DecidableEq, Repr

/-- What a signed command meets outside the package: the read of its request buffer (R376), and the flash write that it asks for (R449). -/
structure CommandOutcome where
  dmaOk   : Bool
  flashOk : Bool
deriving DecidableEq, Repr

/-- One shepherd image as the ROM finds it (R407, R449): IMAGE_SVN of its header, the firmware and microcode it carries (R416), and the root
key and the signature that come with it. -/
structure ImageVerdict where
  svn        : BitVec 7
  shepherdFw : List Byte
  tileFw     : List Byte
  stackCode  : List Byte
  linkCode   : List Byte
  key        : List Byte
  signature  : List Byte
deriving DecidableEq, Repr

/-- What step 2 of bring-up finds (R404, R407): the fuses, the shepherd's flash interface (R412) and the images. -/
structure ShepherdVerdict where
  fusesOk : Bool
  flashOk : Bool
  slotA   : ImageVerdict
  slotB   : ImageVerdict
  host    : ImageVerdict
deriving DecidableEq, Repr

/-- What step 4a finds (R404, R417): stack training, the firmware region and its fallback. -/
structure StackVerdict where
  trained    : Bool
  regionOk   : Bool
  fallbackOk : Bool
deriving DecidableEq, Repr

/-- Whether each of the two attempts to power a wave exceeded its current limit (R409). -/
structure WaveVerdict where
  firstTripped  : Bool
  secondTripped : Bool
deriving DecidableEq, Repr

/-- A unit that failed its start-up test (R411, R413): a tile by physical coordinate, or a link port. -/
structure BistFailure where
  isPort       : Bool
  px           : Byte
  py           : Byte
  inconclusive : Bool
  test         : BitVec 16
deriving DecidableEq, Repr

/-- A segment that a tile did not receive as it is stored: what arrived in its attempts, in order. A later attempt arrives as
stored (R420). -/
structure FetchUpset where
  vx       : Vx
  vy       : Vy
  segment  : Fin 16
  received : List FwSegment
deriving DecidableEq, Repr

/-- What goes wrong in the fetches of step 9, in its first pass and in its repeat (R420, R421). -/
structure FirmwareVerdict where
  first  : List FetchUpset
  again  : List FetchUpset
deriving DecidableEq, Repr, Inhabited

/-- What a warm compute reset finds on the way (R424). -/
structure WarmOutcome where
  firmware : FirmwareVerdict
deriving DecidableEq, Repr

/-- The self-tests of R438. -/
inductive SelfTestKind where
  | tileBist | sextant | stackScrub | eyeScan | slotCheck
deriving DecidableEq, Repr

/-- What a self-test finds (R438, R441): failing tiles by virtual coordinate; whether the trim or the slot check is good. -/
structure SelfTestVerdict where
  failing : List (Vx × Vy)
  ok      : Bool
deriving DecidableEq, Repr

/-- The objects the shepherd persists (R476, R480). -/
inductive PersistItem where
  | nodeCount | bootOverride | assetTag | alertMask
deriving DecidableEq, Repr

/-- What a check of the field pair finds (R482). -/
inductive LineFault where
  | none | shorted | opened | reversed | nodeConflict
deriving DecidableEq, Repr

/-- The commands: one constructor for each row of spec/opcode_table.json. -/
inductive Instr where
  /-- BEAT_COMPLETE (R43): A tile completes beat n once its units are done, its neighbours' tokens are held, its pace gate is open and no unit holds; it sends its output tokens and issues that beat's scheduled accesses. -/
  | beatComplete (vx : Vx) (vy : Vy)
  /-- ITEM_ARRIVAL (R46): An awaited item (stack data, retry data or a waypoint count) reaches a holding tile, which completes the held beat so that the pasture resumes. -/
  | itemArrival (vx : Vx) (vy : Vy)
  /-- PACE_GATE_OPEN (R55): A tile's pace gate opens 1/P after the tile completed a beat. -/
  | paceGateOpen (vx : Vx) (vy : Vy)
  /-- STALL_WATCHDOG (R49): No tile of a running pasture has completed a beat for STALL_LIMIT µs, so the pasture stops with ST_SEQ_STALL_TIMEOUT. -/
  | stallWatchdog (p : PasId)
  /-- WATCH_START (R67): The log reaches 0 mod 4,096; the watch begins, with stack refresh and scrub and link calibration in its beats. -/
  | watchStart (p : PasId)
  /-- LATE_REFRESH (R70): During a stall, 3.5 µs pass since the last watch or the last late refresh, so the stack ports refresh and scrub outside a watch. -/
  | lateRefresh (p : PasId)
  /-- SCRUB_VISIT (R125): A tile's scrubber visits one line per bank every 64 beats and writes back corrected data. -/
  | scrubVisit (vx : Vx) (vy : Vy)
  /-- SEXTANT_REPORT (R50): Every 1 µs each sextant reports its replica period and junction temperature; thermal throttling is applied or released from these readings. -/
  | sextantReport (n : Fin 64) (period : BitVec 16) (temp : BitVec 16)
  /-- HELM_UPDATE (R52): Every 5 µs the helm steers each core rail by up to 10 mV toward the highest target and applies the power cap. -/
  | helmUpdate (h : Half) (m : InputReading)
  /-- FLOOR_BREACH (R53): A running pasture stays below its grade floor for 10 µs; FLOOR_BREACH is set, the event is raised and ALERT_N is asserted. -/
  | floorBreach (p : PasId) (rate : BitVec 12)
  /-- DESC_LOAD (R190): A LOAD copies a two-phase descriptor and its operand records into the unit's shadow configuration after its structure checks. -/
  | descLoad (vx : Vx) (vy : Vy)
  /-- MATMUL (R156): GO MATMUL starts the matrix unit on the shadow configuration, with its accesses at the architected beats. -/
  | matmul (vx : Vx) (vy : Vy)
  /-- CONV (R160): GO CONV starts a weight-stationary convolution whose A addresses are generated from an input window. -/
  | conv (vx : Vx) (vy : Vy)
  /-- VECOP_ADD (R170): VECOP ADD computes a + b lane-wise. -/
  | vecopAdd (vx : Vx) (vy : Vy)
  /-- VECOP_SUB (R170): VECOP SUB computes a − b lane-wise. -/
  | vecopSub (vx : Vx) (vy : Vy)
  /-- VECOP_MUL (R170): VECOP MUL computes a × b lane-wise. -/
  | vecopMul (vx : Vx) (vy : Vy)
  /-- VECOP_FMA (R170): VECOP FMA computes a × b + c with one rounding. -/
  | vecopFma (vx : Vx) (vy : Vy)
  /-- VECOP_MIN (R170): VECOP MIN takes the exact lane-wise minimum. -/
  | vecopMin (vx : Vx) (vy : Vy)
  /-- VECOP_MAX (R170): VECOP MAX takes the exact lane-wise maximum. -/
  | vecopMax (vx : Vx) (vy : Vy)
  /-- VECOP_ABS (R170): VECOP ABS takes the magnitude of each lane. -/
  | vecopAbs (vx : Vx) (vy : Vy)
  /-- VECOP_NEG (R170): VECOP NEG negates each lane. -/
  | vecopNeg (vx : Vx) (vy : Vy)
  /-- VECOP_CVT (R170): VECOP CVT copies a vector with conversion to the lane type. -/
  | vecopCvt (vx : Vx) (vy : Vy)
  /-- VECOP_PAIRROT (R170): VECOP PAIRROT rotates lane pairs by c and s. -/
  | vecopPairrot (vx : Vx) (vy : Vy)
  /-- VECOP_RSUM (R173): VECOP RSUM sums each row by a pairwise tree. -/
  | vecopRsum (vx : Vx) (vy : Vy)
  /-- VECOP_RSSQ (R173): VECOP RSSQ sums the squares of each row. -/
  | vecopRssq (vx : Vx) (vy : Vy)
  /-- VECOP_RMAX (R170): VECOP RMAX takes the exact maximum of each row. -/
  | vecopRmax (vx : Vx) (vy : Vy)
  /-- VECOP_RARGMAX (R170): VECOP RARGMAX gives the index of the first maximal element of each row as a u32. -/
  | vecopRargmax (vx : Vx) (vy : Vy)
  /-- VECOP_EXP2 (R174): VECOP EXP2 computes 2^u on the special-function pipe. -/
  | vecopExp2 (vx : Vx) (vy : Vy)
  /-- VECOP_LOG2 (R174): VECOP LOG2 computes log2(u) on the special-function pipe. -/
  | vecopLog2 (vx : Vx) (vy : Vy)
  /-- VECOP_RCP (R174): VECOP RCP computes 1/u on the special-function pipe. -/
  | vecopRcp (vx : Vx) (vy : Vy)
  /-- VECOP_RSQRT (R174): VECOP RSQRT computes 1/√u on the special-function pipe. -/
  | vecopRsqrt (vx : Vx) (vy : Vy)
  /-- VECOP_TANH (R174): VECOP TANH computes tanh(u) on the special-function pipe. -/
  | vecopTanh (vx : Vx) (vy : Vy)
  /-- VECOP_SIGMOID (R174): VECOP SIGMOID computes the sigmoid of u on the special-function pipe. -/
  | vecopSigmoid (vx : Vx) (vy : Vy)
  /-- QUANT (R176): GO QUANT with DIR = 0 quantises FP32 or BF16 to a scaled activation format under the scale rule. -/
  | quant (vx : Vx) (vy : Vy)
  /-- QUANT_DEQUANTISE (R177): GO QUANT with DIR = 1 converts a narrow or LONG operand to the lane type, with strays replacing their channels. -/
  | quantDequantise (vx : Vx) (vy : Vy)
  /-- TOPK (R178): GO TOPK selects the K largest elements of each row, with their values and indices. -/
  | topk (vx : Vx) (vy : Vy)
  /-- MOVE (R204): GO MOVE outputs one chunk per beat toward a neighbour, from scratchpad or forwarded from a RECV. -/
  | move (vx : Vx) (vy : Vy)
  /-- RECV (R204): GO RECV latches one chunk per beat from a neighbour and stores it when STORE is 1. -/
  | recv (vx : Vx) (vy : Vy)
  /-- COPY (R206): GO COPY copies rows from a source record to a destination record. -/
  | copy (vx : Vx) (vy : Vy)
  /-- TALLY_CLEAR (R130): GO COPY with TALLY_CLEAR clears the tally bits of its destination lines, arming them. -/
  | tallyClear (vx : Vx) (vy : Vy)
  /-- GATHER (R205): GO GATHER copies rows whose source dimension is indirect. -/
  | gather (vx : Vx) (vy : Vy)
  /-- SCATTER (R206): GO SCATTER copies rows whose destination dimension is indirect. -/
  | scatter (vx : Vx) (vy : Vy)
  /-- STKRD (R207): GO STKRD issues one stack read burst per beat, each landing at g + i + LAT. -/
  | stkrd (vx : Vx) (vy : Vy)
  /-- STKWR (R207): GO STKWR writes one landing line per beat to the stack as bursts. -/
  | stkwr (vx : Vx) (vy : Vy)
  /-- WINOPEN (R356): WINOPEN checks a window, then opens it or rearms it. -/
  | winopen (vx : Vx) (vy : Vy)
  /-- WINCLOSE (R361): WINCLOSE closes a window and discards its trackers and queued requests. -/
  | winclose (vx : Vx) (vy : Vy)
  /-- WAIT (R210): WAIT holds its beat and sends a wait to the bellwether until the window's ARRIVALS reaches THRESH. -/
  | wait (vx : Vx) (vy : Vy)
  /-- FOLD (R211): FOLD contributes a value to a fold and holds its beat when HOLD is 1. -/
  | fold (vx : Vx) (vy : Vy)
  /-- FLAG_SET (R212): FLAG with ACT set sets a pasture flag. -/
  | flagSet (vx : Vx) (vy : Vy)
  /-- FLAG_CLEAR (R212): FLAG with ACT clear clears a pasture flag. -/
  | flagClear (vx : Vx) (vy : Vy)
  /-- FLAG_HOLD_SET (R292): FLAG holds its beat until the flag is set. -/
  | flagHoldSet (vx : Vx) (vy : Vy)
  /-- FLAG_HOLD_CLEAR (R292): FLAG holds its beat until the flag is clear. -/
  | flagHoldClear (vx : Vx) (vy : Vy)
  /-- LOOP (R216): LOOP latches its count and either pushes a loop-stack entry or skips the body. -/
  | loop (vx : Vx) (vy : Vy)
  /-- ENDLOOP (R217): ENDLOOP decrements REMAINING and either returns to the body or pops the entry. -/
  | endloop (vx : Vx) (vy : Vy)
  /-- CTRSET (R213): CTRSET sets a counter. -/
  | ctrset (vx : Vx) (vy : Vy)
  /-- CTRADD (R213): CTRADD adds to a counter modulo 2^24 with an optional wrap. -/
  | ctradd (vx : Vx) (vy : Vy)
  /-- CMPSET (R213): CMPSET sets a condition bit from a counter comparison. -/
  | cmpset (vx : Vx) (vy : Vy)
  /-- NOPB (R219): NOPB spends n beats by setting ρ = b + n. -/
  | nopb (vx : Vx) (vy : Vy)
  /-- OVERLAY (R220): OVERLAY copies descriptor slots from scratchpad into the descriptor store. -/
  | overlay (vx : Vx) (vy : Vy)
  /-- HALT (R221): HALT ends the tile's part of the run; after its units finish, the range-watch addition is made and a halt notice is sent. -/
  | halt (vx : Vx) (vy : Vy)
  /-- STACK_REREAD (R260): The port's single reread of a failed burst completes, delivering the data late or stopping the pasture. -/
  | stackReread (vx : Vx) (vy : Vy)
  /-- GROUP_CLEAR_DONE (R250): A group's zeroing completes; a pasture waiting on the clear may begin to beat. -/
  | groupClearDone (st : StackId) (g : Fin 8)
  /-- UNOWNED_GROUP_MAINT (R258): Every 3.0 µs a group that no beating pasture owns is refreshed and scrubbed on the port's own timer. -/
  | unownedGroupMaint (st : StackId) (g : Fin 8)
  /-- STACK_TEMP_REPORT (R490): Every 10 µs each stack reports its temperature; the helm acts on the hottest reading. -/
  | stackTempReport (st : StackId) (temp : BitVec 16)
  /-- STACK_HOT_REFRESH (R490): Above 95 °C, each port of the hot stack refreshes its groups every 1.5 µs. -/
  | stackHotRefresh (st : StackId)
  /-- XFER_LINK_TIMEOUT (R267): The service link is down or the store unreachable for 10 ms, so the transfer completes with ST_STACK_XFER_LINK. -/
  | xferLinkTimeout (link : Fin 2)
  /-- MSG_REQUEST_ARRIVE (R279): An active-message request reaches a tile and is queued, bounced as FULL or refused with a NAK. -/
  | msgRequestArrive (i : Nat)
  /-- REGISTER_ACCESS (R278): A register-access request is served by the network interface, which replies with data or status. -/
  | registerAccess (i : Nat)
  /-- HANDLER_DISPATCH (R280): The service engine takes the oldest request of the next non-empty channel and begins its handler. -/
  | handlerDispatch (vx : Vx) (vy : Vy)
  /-- HANDLER_END (R281): The END action ends the handler and the request is replied to. -/
  | handlerEnd (vx : Vx) (vy : Vy)
  /-- HANDLER_WRITE (R281): The WRITE action writes payload bytes to the service region, line by line. -/
  | handlerWrite (vx : Vx) (vy : Vy)
  /-- HANDLER_ADD (R281): The ADD action adds an i32 from the payload to a u32 in the service region. -/
  | handlerAdd (vx : Vx) (vy : Vy)
  /-- HANDLER_BUMP (R281): The BUMP action adds 1 to a u32 with saturation. -/
  | handlerBump (vx : Vx) (vy : Vy)
  /-- HANDLER_FLAGSET (R281): The FLAGSET action sets a pasture flag. -/
  | handlerFlagset (vx : Vx) (vy : Vy)
  /-- HANDLER_FLAGCLR (R281): The FLAGCLR action clears a pasture flag. -/
  | handlerFlagclr (vx : Vx) (vy : Vy)
  /-- HANDLER_REPLY (R281): The REPLY action replies with N bytes read from the service region. -/
  | handlerReply (vx : Vx) (vy : Vy)
  /-- HANDLER_SEND (R284): The SEND action sends the payload as a request to another tile, using a reply slot. -/
  | handlerSend (vx : Vx) (vy : Vy)
  /-- REPLY_ARRIVE (R284): A reply reaches its sender and frees the reply slot. -/
  | replyArrive (i : Nat)
  /-- NAK_ARRIVE (R279): A negative acknowledgment reaches the sender, frees its slot, ends any blocked state and is counted. -/
  | nakArrive (i : Nat)
  /-- FULL_BOUNCE (R279): A request bounced as FULL reaches its sender, which keeps it and is blocked. -/
  | fullBounce (i : Nat)
  /-- SPACE_SIGNAL (R279): The destination reserves a freed entry and signals space, and the sender resends its bounced request. -/
  | spaceSignal (i : Nat)
  /-- SEND_WATCHDOG (R286): A send stays blocked for SEND_WD µs, so ST_CNW_SEND_BLOCKED is raised. -/
  | sendWatchdog (who : Sender)
  /-- CANCEL (R286): A write of 1 to CANCEL drops the blocked request, frees its slot and fails the SEND. -/
  | cancel (vx : Vx) (vy : Vy)
  /-- CHANNEL_CLOSE (R287): Clearing an OPEN bit closes a channel and NAKs its queued requests. -/
  | channelClose (vx : Vx) (vy : Vy) (openMask : Byte)
  /-- FLIT_CHECK_FAIL (R275): A control-network flit fails its check bits on a router link and is resent; a third failed resend stops every running pasture. -/
  | flitCheckFail (vx : Vx) (vy : Vy) (d : Dir) (resend : Fin 4)
  /-- FOLD_CONTRIBUTION (R290): A fold contribution reaches the bellwether and is combined into its generation. -/
  | foldContribution (i : Nat)
  /-- FOLD_RESULT (R290): A member receives a fold result, releases a held FOLD, writes RES_CTR and writes RES_ADDR. -/
  | foldResult (i : Nat)
  /-- FLAG_CHANGE (R291): The bellwether applies a flag change, starting sends, swaps, notifications and releases tied to the flag. -/
  | flagChange (i : Nat)
  /-- FLAG_WAIT_ARRIVE (R292): A flag wait reaches the bellwether, which releases it at once if the flag already has the awaited value. -/
  | flagWaitArrive (i : Nat)
  /-- FLAG_RELEASE (R292): A flag release reaches a waiting tile and ends its hold. -/
  | flagRelease (i : Nat)
  /-- HALT_NOTICE (R295): A halt notice reaches the bellwether; after the last one it relays the halt to the host interface. -/
  | haltNotice (i : Nat)
  /-- WAIT_ARRIVE (R370): A waypoint wait reaches the bellwether and is released at once if the threshold is met. -/
  | waitArrive (i : Nat)
  /-- WAIT_RELEASE (R370): A waypoint release reaches a waiting tile and ends its hold. -/
  | waitRelease (i : Nat)
  /-- DOORBELL (R383): A host write of a new tail to HIF_SQ_DB_r makes ring entries visible for fetch. -/
  | doorbell (fn : FnId) (ring : Fin 16) (tail : Byte)
  /-- RUN (R388): A RUN entry is decided by the admission checks and is accepted with a deadline or refused. -/
  | run (fn : FnId) (ring : Fin 16)
  /-- ABORT (R395): An ABORT entry removes or stops its target run, or reports that there is nothing to abort. -/
  | abort (fn : FnId) (ring : Fin 16)
  /-- LOAD_PROGRAM (R300): A LOAD entry with KIND 0 decrypts and checks a program binary, then places it or refuses it. -/
  | loadProgram (fn : FnId) (ring : Fin 16) (dmaOk : Bool)
  /-- LOAD_WEIGHTS (R300): A LOAD entry with KIND 1 decrypts and checks a weight package, then places it or refuses it. -/
  | loadWeights (fn : FnId) (ring : Fin 16) (dmaOk : Bool)
  /-- LOAD_COMPLETE (R300): The loader's writes end and the pasture beats again with its log at 0. -/
  | loadComplete (p : PasId)
  /-- XFER (R266): An XFER entry posts a context-transfer request for spill or restore. -/
  | xfer (fn : FnId) (ring : Fin 16)
  /-- MSG (R386): A MSG entry sends a host active message or register access to a tile. -/
  | msg (fn : FnId) (ring : Fin 16)
  /-- CANCEL_MSG (R385): A CANCEL entry cancels a blocked host MSG. -/
  | cancelMsg (fn : FnId) (ring : Fin 16)
  /-- ATTEST (R461): A security request returns a signed attestation report. -/
  | attest (fn : FnId) (ring : Fin 16)
  /-- CERTS (R451): A security request returns the certificate chain. -/
  | certs (fn : FnId) (ring : Fin 16)
  /-- CHAIN_SIGN (R466): A security request returns a signed chain record of the current head or of the periodic record. -/
  | chainSign (fn : FnId) (ring : Fin 16)
  /-- OWNER_TAKE (R453): A signed OWNER command with OP 0 takes ownership of an unowned package. -/
  | ownerTake (fn : FnId) (ring : Fin 16) (env : CommandOutcome)
  /-- OWNER_CHANGE (R453): A signed OWNER command with OP 1 changes the owner. -/
  | ownerChange (fn : FnId) (ring : Fin 16) (env : CommandOutcome)
  /-- OWNER_RELEASE (R453): A signed OWNER command with OP 2 releases ownership, empties the signer list and relocks JTAG. -/
  | ownerRelease (fn : FnId) (ring : Fin 16) (env : CommandOutcome)
  /-- SIGNERS (R454): A signed SIGNERS command replaces the signer list. -/
  | signers (fn : FnId) (ring : Fin 16) (env : CommandOutcome)
  /-- UNLOCK (R459): A signed UNLOCK command opens JTAG to SCOPE 1 or 2. -/
  | unlock (fn : FnId) (ring : Fin 16) (dmaOk : Bool)
  /-- RELOCK (R459): RELOCK locks JTAG, clears UNLOCK_DIGEST and draws a new challenge. -/
  | relock (fn : FnId) (ring : Fin 16)
  /-- SVN_COMMIT (R450): SVN_COMMIT blows fuse bits until FW_SVN equals the running IMAGE_SVN. -/
  | svnCommit (fn : FnId) (ring : Fin 16) (flashOk : Bool)
  /-- RUN_INGRESS (R391): After the run ahead completes, the host interface fetches IN_LIST and writes and digests the inputs. -/
  | runIngress (p : PasId) (env : IoOutcome)
  /-- RUN_START (R71): At the first beat aligned to the watch phase, every tile starts at TSQ_ENTRY and the per-run state is cleared. -/
  | runStart (p : PasId)
  /-- RUN_COMPLETION (R392): With the completion recorded, outputs are copied, the stamp is written and the completion entry is posted. -/
  | runCompletion (p : PasId) (env : IoOutcome)
  /-- COMPLETION_WRITE (R387): A completion held while the ring was full is written once there is room. -/
  | completionWrite (fn : FnId)
  /-- DEADLINE_EXPIRY (R394): A run's deadline passes before delivery, so ST_HOST_BREACH is raised on the breach vector. -/
  | deadlineExpiry (p : PasId) (k : Fin 64)
  /-- VECTOR_FIRE (R397): TIME_US after its first pending cause, an interrupt vector fires. -/
  | vectorFire (fn : FnId) (v : Fin 64)
  /-- PERIODIC_RECORD_SIGN (R466): Within 10 ms of a stamp with SIGN_DUE, the shepherd signs and holds a periodic chain record. -/
  | periodicRecordSign (p : PasId)
  /-- PASTURE_START (R378): A write of ENABLE = 1 to HIF_PAS_GEOM_n is checked as a start request and makes the pasture beat. -/
  | pastureStart (p : PasId) (col0 : Byte) (width : Byte)
  /-- PASTURE_STOP (R379): A write of ENABLE = 0 stops the pasture's beats and unloads it, unless it is busy. -/
  | pastureStop (p : PasId)
  /-- PASTURE_RESET (R399): RESET in HIF_PAS_CTL, or FLR of a VF, resets one pasture. -/
  | pastureReset (fn : FnId) (p : PasId)
  /-- WARM_COMPUTE_RESET (R424): GO in HIF_COMPUTE_RESET runs the phases of a warm compute reset. -/
  | warmComputeReset (w : WarmOutcome)
  /-- TILE_QUARANTINE (R423): GO in HIF_QUARANTINE isolates a tile and stops its pasture. -/
  | tileQuarantine (vx : Vx) (vy : Vy)
  /-- QOS_WRITE (R401): A write to HIF_PAS_QOS_n changes weights unless it would lower a busy pasture's PCIe share. -/
  | qosWrite (p : PasId) (value : BitVec 32)
  /-- FLR_VF (R399): A function-level reset of VFn clears its rings and discards Pn's runs with a pasture reset. -/
  | flrVf (fn : FnId)
  /-- FLR_PF0 (R399): A function-level reset of PF0 causes a warm compute reset and clears all functions. -/
  | flrPf0 (w : WarmOutcome)
  /-- PERST_N (R399): PERST_N causes a warm compute reset and restores configuration space to defaults. -/
  | perstN (w : WarmOutcome)
  /-- HOT_RESET (R399): A PCIe hot reset acts as PERST_N. -/
  | hotReset (w : WarmOutcome)
  /-- PCIE_LINK_DOWN (R399): The PCIe link going down acts as PERST_N. -/
  | pcieLinkDown (w : WarmOutcome)
  /-- OWNERSHIP_WRITE (R249): A write to STK_OWN_s changes group owners explicitly, or is refused. -/
  | ownershipWrite (fn : FnId) (st : StackId) (value : Word)
  /-- AUTO_ENABLE (R249): A write of AUTO from 0 to 1 reapplies automatic ownership at once, or is refused. -/
  | autoEnable
  /-- GROUP_XFER_WRITE (R265): A write that sets or clears a group's XFER bit reserves or releases the group for transfers. -/
  | groupXferWrite (fn : FnId) (st : StackId) (g : Fin 8) (on : Bool)
  /-- PACE_LIMIT_WRITE (R56): A write to PACE_LIMIT changes the requested limit, which comes into force under the helm's limits. -/
  | paceLimitWrite (fn : FnId) (p : PasId) (value : BitVec 12)
  /-- HOST_FLAG_SET (R291): A host write to CNW_FLAG_SET_n sets flags. -/
  | hostFlagSet (fn : FnId) (p : PasId) (n : Fin 4) (value : Word)
  /-- HOST_FLAG_CLR (R291): A host write to CNW_FLAG_CLR_n clears flags. -/
  | hostFlagClr (fn : FnId) (p : PasId) (n : Fin 4) (value : Word)
  /-- TILE_WINDOW_ACCESS (R382): An access to a tile window in PF0 BAR0 becomes a register-access request to the tile. -/
  | tileWindowAccess (vx : Vx) (vy : Vy) (offset : BitVec 12) (write : Option Word)
  /-- REGISTER_WRITE (R14): A write to a register without behaviour of its own updates it under its access code. -/
  | registerWrite (fn : FnId) (space : RegSpace) (offset : BitVec 26) (value : Word)
  /-- LINK_RETRAIN (R337): RETRAIN, a far-end request or a link rule starts a fast retrain, then a full training if that fails. -/
  | linkRetrain (n : PortId)
  /-- PLAN_COMMIT (R335): COMMIT checks the plan shadow and replaces the plan, with every trained port comparing again. -/
  | planCommit
  /-- LPORT_WRITE (R338): A write to LNK_LPORT_m sets a logical port's roles, or is ignored. -/
  | lportWrite (m : Fin 16) (value : BitVec 18)
  /-- FLOCK_START (R343): START in FAB_PAS_FLOCK starts the pasture's flock membership after its checks. -/
  | flockStart (fn : FnId) (p : PasId)
  /-- FLOCK_STOP (R343): STOP in FAB_PAS_FLOCK ends the membership, unless runs are outstanding. -/
  | flockStop (fn : FnId) (p : PasId)
  /-- RANK_SWAP (R342): RANK_SWAP, or the trigger flag, exchanges the rank-table copies. -/
  | rankSwap (fn : FnId) (p : PasId)
  /-- ROUTE_SWAP (R349): SWAP in FAB_ROUTE_CTL, or the trigger flag, exchanges the routing-table copies after its check. -/
  | routeSwap
  /-- ORD_RESERVATION_WRITE (R353): A write to FAB_PAS_ORD_k sets ordered reservations unless they would exceed 75 % of the role. -/
  | ordReservationWrite (fn : FnId) (p : PasId) (k : Fin 3) (value : Word)
  /-- LINK_DETECT (R329): Training step DETECT looks for far-end signal, rechecking every 10 ms. -/
  | linkDetect (n : PortId) (signal : Byte)
  /-- LINK_LANES (R329): Training step LANES corrects each lane's polarity and order. -/
  | linkLanes (n : PortId) (failed : Byte) (polInv : Byte) (reversed : Bool)
  /-- LINK_EQUALISE (R329): Training step EQUALISE adapts each lane. -/
  | linkEqualise (n : PortId) (failed : Byte)
  /-- LINK_WIDTH (R330): Training step WIDTH chooses the widest healthy group of lanes and checks it. -/
  | linkWidth (n : PortId) (checkOk : Bool)
  /-- LINK_IDENTIFY (R332): Training step IDENTIFY exchanges identity records. -/
  | linkIdentify (n : PortId) (record : Option (List Byte))
  /-- LINK_COMPARE (R336): Training step COMPARE matches the peer with the plan and sets the port's state and role. -/
  | linkCompare (n : PortId)
  /-- LINK_FLIT_RECEIVE (R327): A link flit is received, checked by FEC and CRC, accepted or NAKed, and its ACK and credits are applied. -/
  | linkFlitReceive (n : PortId) (raw : List Byte) (r : FlitReception)
  /-- LINK_NAK (R327): A received NAK makes the transmitter replay from ACK onward. -/
  | linkNak (n : PortId) (ack : BitVec 10)
  /-- ACK_TIMEOUT (R327): No acknowledgment progress for 1 µs causes a replay; 8 such replays raise ST_LNK_REPLAY_LIMIT and retrain. -/
  | ackTimeout (n : PortId)
  /-- LANE_LOST (R331): A lane loses lock or signal, causing a fast degrade, a retrain or DOWN. -/
  | laneLost (n : PortId) (lane : Fin 8) (bothDirections : Bool)
  /-- DEGRADE (R331): A DEGRADE management flit makes both ends switch to the named lane group. -/
  | degrade (n : PortId) (lanes : Byte)
  /-- WIDTH_PROPOSAL (R334): A width proposal flit asks for a soft degrade or re-widen at the next opportunity. -/
  | widthProposal (n : PortId) (lanes : Byte)
  /-- WIDTH_ACCEPT (R334): A width acceptance flit makes both ends switch at the next codeword boundary. -/
  | widthAccept (n : PortId) (lanes : Byte)
  /-- RETRAIN_REQUEST (R337): A retrain-request management flit from the far end starts a link retrain. -/
  | retrainRequest (n : PortId)
  /-- LANE_HEALTH_WINDOW (R331): At the end of each 1 ms window, each lane's corrected symbols are compared with LANE_THRESH. -/
  | laneHealthWindow (n : PortId)
  /-- CALIBRATION_OPPORTUNITY (R334): In a calibration-pasture watch or every 3.0 µs, the receiver measures eye margins and may propose a width change. -/
  | calibrationOpportunity (n : PortId) (clean : Byte)
  /-- PLAN_WAIT_EXPIRY (R336): PLAN_WAIT ends and unmatched required or optional entries are decided. -/
  | planWaitExpiry
  /-- PACKET_FORWARD (R347): A link engine looks up and forwards, delivers or drops a fabric packet. -/
  | packetForward (n : PortId) (lane : Fin 5)
  /-- DATA (R360): A DATA packet at the destination is checked and landed in its window, or NAKed. -/
  | data (i : Nat)
  /-- LANDING_NOTICE (R357): After an acknowledged landing write, a notice reaches the bellwether and increments the tracker. -/
  | landingNotice (i : Nat)
  /-- CREDIT_REQ (R358): A CREDIT_REQ joins the window's grant queue or is NAKed. -/
  | creditReq (i : Nat)
  /-- CREDIT_GRANT (R365): A CREDIT_GRANT reaches the sender, which starts sending data or adds to its balance. -/
  | creditGrant (i : Nat)
  /-- CREDIT_RETURN (R368): A CREDIT_RETURN returns unused grants to the window pool. -/
  | creditReturn (i : Nat)
  /-- NAK (R365): A fabric NAK ends a send with its status, except ST_FAB_WIN_BUSY, after which the request is repeated. -/
  | nak (i : Nat)
  /-- DONE (R365): A DONE packet completes the send, setting STATUS to ST_OK and DONE_FLAG. -/
  | done (i : Nat)
  /-- DATA_ACK (R365): A DATA_ACK releases end-to-end window space at the sender. -/
  | dataAck (i : Nat)
  /-- SVC_DATA (R355): An SVC_DATA packet carries 192 bytes of a context-transfer page. -/
  | svcData (link : Fin 2) (pkt : FabPacket) (stackOk : Bool)
  /-- SVC_ACK (R355): An SVC_ACK acknowledges a page of a context transfer. -/
  | svcAck (link : Fin 2) (pkt : FabPacket)
  /-- CREDIT_REQ_REPEAT (R365): CREDIT_US passes without a grant, so the CREDIT_REQ is sent again. -/
  | creditReqRepeat (p : PasId) (n : Byte)
  /-- SEND_SOURCE_DONE (R364): The last source byte of a send is read and the engine clears the send's flag. -/
  | sendSourceDone (p : PasId) (n : Byte)
  /-- DONE_TIMEOUT (R365): No DONE arrives within DONE_US of the last packet, so the send fails. -/
  | doneTimeout (p : PasId) (n : Byte)
  /-- TRACKER_ABANDON (R362): A tracker idle for TRACK_IDLE_US is abandoned and its units return to POOL. -/
  | trackerAbandon (p : PasId) (win : BitVec 6) (rank : BitVec 12) (xfer : BitVec 32)
  /-- DROVE_TIMEOUT (R368): DROVE_US expires; an ordered drove send fails, or a bulk drove send goes ahead. -/
  | droveTimeout (p : PasId) (n : Byte)
  /-- ORD_DRAIN_EXPIRY (R349): ORD_DRAIN after a route swap ends, and held ordered packets follow the new copy. -/
  | ordDrainExpiry
  /-- ORD_HOLD_EXPIRY (R350): Packets held ORD_HOLD_US on a lost role are dropped as ROUTE_LOST. -/
  | ordHoldExpiry (n : PortId)
  /-- WPT_LATE (R371): A WAIT hold reaches BOUND_NS, so the late event is raised and FAB_WPT_LATE is filled. -/
  | wptLate (p : PasId) (vx : Vx) (vy : Vy)
  /-- WPT_TIMEOUT (R371): A WAIT hold reaches TIMEOUT_US; the pasture stops and the run fails. -/
  | wptTimeout (p : PasId) (vx : Vx) (vy : Vy)
  /-- POWER_GOOD (R486): The input rises through 38 V; power good starts a cold bring-up with the rails coming up. -/
  | powerGood (bootMode : BitVec 2) (nodeId : BitVec 5)
  /-- POWER_LOSS (R486): The input falls through 36 V; power good is withdrawn and the package goes off. -/
  | powerLoss
  /-- INPUT_REVERSED (R487): A reversed input is blocked and latched for report at the next bring-up. -/
  | inputReversed
  /-- INPUT_HIGH (R487): The input between 60 V and 62 V raises an event. -/
  | inputHigh
  /-- INPUT_OVERVOLTAGE (R487): The input above 62 V opens the eFuse within 5 µs. -/
  | inputOvervoltage
  /-- INPUT_LOW (R487): The input between 36 V and 41 V raises an event. -/
  | inputLow
  /-- INPUT_OVERCURRENT (R487): Current above 95 % of the trip level for 100 µs raises an event. -/
  | inputOvercurrent
  /-- EFUSE_TRIP (R487): Current above the trip level for 1 ms, or above 200 A for 2 µs, opens the eFuse. -/
  | efuseTrip
  /-- RAIL_OUT_OF_REGULATION (R487): A rail out of regulation for 10 µs switches every rail off. -/
  | railOutOfRegulation
  /-- EFUSE_RETRY (R487): An open eFuse retries once per second, and stays open after 3 trips. -/
  | efuseRetry
  /-- THERMTRIP (R491): A junction at 125 °C or a stack at 110 °C asserts THERMTRIP_N and switches off all rails except the service rail. -/
  | thermtrip
  /-- BOOT_SHEPHERD_VERIFY (R407): Bring-up step 2 reads the fuses and verifies a firmware slot, or falls back to the host-stepped path. -/
  | bootShepherdVerify (v : ShepherdVerdict)
  /-- BOOT_HIF_START (R406): Bring-up step 3 starts the host interface and the management port, with configuration requests receiving CRS. -/
  | bootHifStart
  /-- BOOT_STACK_TRAIN (R417): Bring-up step 4a trains the stacks and stages the tile firmware image. -/
  | bootStackTrain (v : StackVerdict)
  /-- BOOT_STACK_CLEAR (R404): Bring-up step 4b writes every group with zeros. -/
  | bootStackClear (ok : Bool)
  /-- BOOT_WAVE (R408): Bring-up step 5 powers one wave of four columns, 1 ms after the previous wave. -/
  | bootWave (wave : Fin 17) (v : WaveVerdict)
  /-- BOOT_BIST (R411): Bring-up step 6 runs tile logic and memory BIST. -/
  | bootBist (failures : List BistFailure)
  /-- BOOT_DEFECT_MAP (R411): Bring-up step 7 forms the effective defect map and records new failures. -/
  | bootDefectMap
  /-- BOOT_COLUMN_MAP (R414): Bring-up step 8 builds the column map and the charts, and chooses the presented grid. -/
  | bootColumnMap
  /-- BOOT_TILE_FW (R420): Bring-up step 9 has every mapped tile fetch and check its firmware; completion sets READY. -/
  | bootTileFw (v : FirmwareVerdict)
  /-- BOOT_STEP_REQUEST_2 (R422): A host-stepped request starts step 2 from slot A, slot B or a host image. -/
  | bootStepRequest2 (arg : Byte) (v : ShepherdVerdict)
  /-- BOOT_STEP_REQUEST_4 (R422): A host-stepped request starts steps 4a and 4b. -/
  | bootStepRequest4 (arg : Byte) (v : StackVerdict) (clearOk : Bool)
  /-- BOOT_STEP_REQUEST_5 (R422): A host-stepped request powers wave ARG. -/
  | bootStepRequest5 (arg : Byte) (v : WaveVerdict)
  /-- BOOT_STEP_REQUEST_6 (R422): A host-stepped request starts BIST. -/
  | bootStepRequest6 (arg : Byte) (failures : List BistFailure)
  /-- BOOT_STEP_REQUEST_7 (R422): A host-stepped request forms the defect map. -/
  | bootStepRequest7 (arg : Byte)
  /-- BOOT_STEP_REQUEST_8 (R422): A host-stepped request builds the column map. -/
  | bootStepRequest8 (arg : Byte)
  /-- BOOT_STEP_REQUEST_9 (R422): A host-stepped request starts the tile firmware fetch. -/
  | bootStepRequest9 (arg : Byte) (v : FirmwareVerdict)
  /-- SHEPHERD_WATCHDOG (R435): Unserviced for 100 ms, the watchdog restarts the shepherd firmware. -/
  | shepherdWatchdog
  /-- RING_CRC_FAIL (R435): A perimeter-ring flit fails its CRC and is resent; a third failed resend stops every running pasture and clears READY. -/
  | ringCrcFail (resend : Fin 4)
  /-- PARK_HALF (R30): A park request switches off a half's core rail, unless an enabled pasture uses the half. -/
  | parkHalf (h : Half)
  /-- UNPARK_HALF (R410): An unpark request powers a half in waves, then runs BIST and the firmware fetch. -/
  | unparkHalf (h : Half)
  /-- UNPARK_DONE (R410): Step 9 completes for the unparked half, which stops counting as parked. -/
  | unparkDone (h : Half) (failures : List BistFailure) (v : FirmwareVerdict)
  /-- SELFTEST_TILE_BIST (R438): A KIND 1 request runs tile logic BIST on a pasture. -/
  | selftestTileBist (p : PasId) (nowait : Bool)
  /-- SELFTEST_SEXTANT (R438): A KIND 2 request recalibrates the sextants and the pace-gate trim of a half. -/
  | selftestSextant (h : Half) (nowait : Bool)
  /-- SELFTEST_STACK_SCRUB (R438): A KIND 3 request runs a full stack scrub pass in watches. -/
  | selftestStackScrub (st : StackId)
  /-- SELFTEST_EYE_SCAN (R438): A KIND 4 request runs a link eye scan. -/
  | selftestEyeScan (n : PortId)
  /-- SELFTEST_SLOT_CHECK (R438): A KIND 5 request read-checks both shepherd slots. -/
  | selftestSlotCheck
  /-- SELFTEST_START (R439): A deferred self-test starts once every needed pasture is idle. -/
  | selftestStart (kind : SelfTestKind) (target : Byte)
  /-- SELFTEST_DEFER_TIMEOUT (R439): A deferral not ended within 1,000 ms completes with ST_BOOT_SELFTEST_BUSY. -/
  | selftestDeferTimeout (kind : SelfTestKind) (target : Byte)
  /-- SELFTEST_DONE (R441): A self-test ends, with a failing tile quarantined and the request completed. -/
  | selftestDone (kind : SelfTestKind) (target : Byte) (v : SelfTestVerdict)
  /-- MGT_DATAGRAM (R473): A management request arrives on the field network and is queued or dropped. -/
  | mgtDatagram (source : MgtEnds) (multicast : Bool) (bytes : List Byte)
  /-- MBX_GO (R484): GO in MGT_MBX_CTL queues the mailbox request, or sets OVERRUN. -/
  | mbxGo
  /-- READ (R475): A management READ returns an object's value. -/
  | read
  /-- WRITE (R476): A management WRITE sets an object after its checks and is journalled. -/
  | write
  /-- IDENTIFY (R472): A management IDENTIFY returns the package's identity bytes. -/
  | identify
  /-- ALERT_CLEAR (R443): Writing 1 to an ALERT cause bit clears it, unless its condition persists. -/
  | alertClear (value : BitVec 32)
  /-- PERSIST_WRITE (R477): Within 50 ms of an RWP write, the shepherd writes the value to flash. -/
  | persistWrite (item : PersistItem) (ok : Bool)
  /-- LINE_CHECK (R482): Every 100 ms, and at a loss of PLCA beacons, the field pair is checked for faults. -/
  | lineCheck (fault : LineFault)
  /-- LINE_RECOVER (R483): A line fault absent for 1 s returns the line state to good and the port resumes. -/
  | lineRecover
  /-- NODE_CONFLICT_RETRY (R482): After 1 s without transmitting on a node-ID conflict, the port retries. -/
  | nodeConflictRetry
  /-- POWER_CAP_REACHED (R54): The measured input power reaches the grade's power cap, and within 2 µs the helm lowers the pace limits in force of every running pasture toward the floor. -/
  | powerCapReached (m : InputReading)
  /-- STACK_WRITE_RETRY (R260): A stack write that met a command or write-data parity error is retried once, and a failed retry stops the pasture with ST_STACK_WRITE_FAIL. -/
  | stackWriteRetry (vx : Vx) (vy : Vy) (ok : Bool)
deriving DecidableEq, Repr

end Sys2Proof
end

