-- ==== Sys2Proof/Machine/Bits.lean ====
section
/-!
DEFINITION. Bit fields, sign extension, byte order and the counters of R17.
-/
namespace Sys2Proof

/-- Field [hi:lo] of a word, as a number (R11). -/
def field {w : Nat} (x : BitVec w) (hi lo : Nat) : Nat := (x.toNat / 2 ^ lo) % 2 ^ (hi + 1 - lo)

/-- Bit i of a word. -/
def bitAt {w : Nat} (x : BitVec w) (i : Nat) : Bool := x.getLsbD i

/-- Field [hi:lo] of a word, as a signed number. -/
def sfield {w : Nat} (x : BitVec w) (hi lo : Nat) : Int :=
  let n := field x hi lo
  if n ≥ 2 ^ (hi - lo) then (n : Int) - 2 ^ (hi + 1 - lo) else n

/-- The two's-complement value of the low `w` bits of a number. -/
def signedOf (w : Nat) (n : Nat) : Int :=
  let m := n % 2 ^ w
  if m ≥ 2 ^ (w - 1) then (m : Int) - 2 ^ w else m

/-- Place a value at bit `lo` of a word being built. -/
def place {w : Nat} (v : BitVec w) (lo : Nat) : BitVec 64 := (v.setWidth 64) <<< lo

/-- A Bool as bit `lo` of a word being built. -/
def placeBit (b : Bool) (lo : Nat) : BitVec 64 := if b then (1 : BitVec 64) <<< lo else 0

/-- A saturating counter's sum (R17). -/
def satAdd {w : Nat} (x : BitVec w) (n : Nat) : BitVec w := BitVec.ofNat w (min (x.toNat + n) (2 ^ w - 1))

/-- A saturating counter's increment (R17). -/
def satInc {w : Nat} (x : BitVec w) : BitVec w := satAdd x 1

/-- A wrapping counter's sum (R17). -/
def wrapAdd {w : Nat} (x : BitVec w) (n : Nat) : BitVec w := x + BitVec.ofNat w n

/-- The low `n` bytes of a number, least significant first (R11). -/
def bytesOf : Nat → Nat → List Byte
  | 0, _ => []
  | n + 1, x => BitVec.ofNat 8 x :: bytesOf n (x / 256)

/-- A number from bytes, least significant first (R11). -/
def ofBytes : List Byte → Nat
  | [] => 0
  | b :: bs => b.toNat + 256 * ofBytes bs

/-- `n` bytes of a list from offset `o`, zero beyond its end. -/
def slice (bs : List Byte) (o n : Nat) : List Byte :=
  let s := (bs.drop o).take n
  s ++ List.replicate (n - s.length) 0

/-- The little-endian number in `n` bytes at offset `o`. -/
def leAt (bs : List Byte) (o n : Nat) : Nat := ofBytes (slice bs o n)

/-- The byte at offset `o`, zero beyond the end. -/
def byteAt (bs : List Byte) (o : Nat) : Byte := bs.getD o 0

/-- The number of quotients rounded up. -/
def ceilDiv (a b : Nat) : Nat := (a + b - 1) / b

/-- The key of a virtual tile in the tile map. -/
def tileKey (vx : Nat) (vy : Nat) : Nat := vy * 64 + vx

/-- Overwrite part of a byte list at an offset. -/
def overwrite (bs : List Byte) (o : Nat) (new : List Byte) : List Byte :=
  bs.take o ++ new ++ bs.drop (o + new.length)

/-- The list with the element at an index replaced. -/
def setAt {α : Type} (l : List α) (i : Nat) (v : α) : List α := l.set i v

/-- The list without the element at an index. -/
def dropAt {α : Type} (l : List α) (i : Nat) : List α := l.eraseIdx i

/-- The parts of a list of the length `n`, in order. -/
def chunksOf (fuel n : Nat) (bs : List Byte) : List (List Byte) :=
  match fuel with
  | 0 => []
  | f + 1 => if bs.isEmpty then [] else bs.take n :: chunksOf f n (bs.drop n)

/-- The opposite direction. -/
def Dir.opposite : Dir → Dir
  | .north => .south
  | .south => .north
  | .east => .west
  | .west => .east

/-- A direction's number: the DIR and FROM fields of R204. -/
def Dir.num : Dir → Nat
  | .north => 0
  | .east => 1
  | .south => 2
  | .west => 3

/-- The direction with a number. -/
def Dir.ofNum (n : Nat) : Dir :=
  match n % 4 with
  | 0 => .north
  | 1 => .east
  | 2 => .south
  | _ => .west

end Sys2Proof
end

