-- ==== Sys2Proof/Machine/Formats.lean ====
section
/-!
DEFINITION. Number formats: format codes, element encodings, exact dyadic values, FP32 and BF16, the scale rule and rounding to
every format (R75 to R103).
-/
namespace Sys2Proof.Machine

/-! ## Dyadic numbers -/

/-- The exact value m × 2^e. -/
structure Dyad where
  m : Int := 0
  e : Int := 0
deriving DecidableEq, Repr, Inhabited

/-- 2^k as a natural number; 1 below 0. -/
def pow2 (k : Int) : Nat := 2 ^ k.toNat

/-- The numerator of a dyadic at the exponent e (e at most its own). -/
def Dyad.at_ (x : Dyad) (e : Int) : Int := x.m * pow2 (x.e - e)

/-- The exact sum. -/
def Dyad.add (x y : Dyad) : Dyad :=
  let e := min x.e y.e
  ⟨x.at_ e + y.at_ e, e⟩

/-- The exact negation. -/
def Dyad.neg (x : Dyad) : Dyad := ⟨-x.m, x.e⟩

/-- The exact difference. -/
def Dyad.sub (x y : Dyad) : Dyad := x.add y.neg

/-- The exact product. -/
def Dyad.mul (x y : Dyad) : Dyad := ⟨x.m * y.m, x.e + y.e⟩

/-- The magnitude. -/
def Dyad.abs (x : Dyad) : Dyad := ⟨x.m.natAbs, x.e⟩

/-- Whether x < y. -/
def Dyad.lt (x y : Dyad) : Bool :=
  let e := min x.e y.e
  decide (x.at_ e < y.at_ e)

/-- Whether x ≤ y. -/
def Dyad.le (x y : Dyad) : Bool := !y.lt x

/-- Whether the value is 0. -/
def Dyad.isZero (x : Dyad) : Bool := x.m = 0

/-- floor(log2 |x|) of a value other than 0. -/
def Dyad.log2 (x : Dyad) : Int := (x.m.natAbs.log2 : Int) + x.e

/-- n / 2^k to the nearest integer, ties to even. -/
def shiftRound (n k : Nat) : Nat :=
  let q := n / 2 ^ k
  let r := n % 2 ^ k
  if 2 * r > 2 ^ k || (2 * r = 2 ^ k && q % 2 = 1) then q + 1 else q

/-! ## Binary floating point: FP32 and BF16 -/

/-- A finite value's magnitude rounded to `p` significant bits, smallest exponent `q0` of the last place, ties to even: the
numerator and exponent of the result. -/
def roundMag (p : Nat) (q0 : Int) (x : Dyad) : Nat × Int :=
  let n := x.m.natAbs
  if n = 0 then (0, q0)
  else
    let q := max q0 (x.log2 - ((p : Int) - 1))
    if x.e ≥ q then (n * pow2 (x.e - q), q) else (shiftRound n (q - x.e).toNat, q)

/-- The bits of a magnitude k × 2^q of a binary32 value (q at least −149, k at most 2^24). -/
def f32Bits (k : Nat) (q : Int) : Nat :=
  if k = 0 then 0
  else if k < 2 ^ 23 then k
  else if k = 2 ^ 24 then ((q + 150).toNat + 1) * 2 ^ 23
  else (q + 150).toNat * 2 ^ 23 + (k - 2 ^ 23)

/-- The largest finite binary32 value. -/
def f32Max : Dyad := ⟨2 ^ 24 - 1, 104⟩

/-- Round to binary32 by R89 and R96: to nearest, ties to even, subnormals kept; a magnitude above the largest finite value
saturates (the Bool). Zero is positive (R78). -/
def roundF32 (x : Dyad) : BitVec 32 × Bool :=
  let s : Nat := if x.m < 0 then 2 ^ 31 else 0
  if f32Max.lt x.abs then (BitVec.ofNat 32 (s + 0x7F7FFFFF), true)
  else
    let (k, q) := roundMag 24 (-149) x
    let b := f32Bits k q
    (BitVec.ofNat 32 (if b = 0 then 0 else s + b), false)

/-- The largest finite BF16 value. -/
def bf16Max : Dyad := ⟨255, 120⟩

/-- Round to BF16 by R89; the result's bits are the upper 16 bits of a binary32 value. -/
def roundBF16 (x : Dyad) : BitVec 16 × Bool :=
  let s : Nat := if x.m < 0 then 2 ^ 15 else 0
  if bf16Max.lt x.abs then (BitVec.ofNat 16 (s + 0x7F7F), true)
  else
    let (k, q) := roundMag 8 (-133) x
    let b := if k = 0 then 0 else if k < 2 ^ 7 then k
      else if k = 2 ^ 8 then ((q + 134).toNat + 1) * 2 ^ 7 else (q + 134).toNat * 2 ^ 7 + (k - 2 ^ 7)
    (BitVec.ofNat 16 (if b = 0 then 0 else s + b), false)

/-- What a binary32 code stands for. -/
inductive FpVal where
  | fin (x : Dyad)
  | inf (neg : Bool)
  | nan
deriving DecidableEq, Repr, Inhabited

/-- The value of a binary32 code. -/
def f32Val (b : BitVec 32) : FpVal :=
  let s := bitAt b 31
  let e := field b 30 23
  let m := field b 22 0
  if e = 255 then (if m = 0 then .inf s else .nan)
  else
    let k : Int := if e = 0 then m else m + 2 ^ 23
    .fin ⟨if s then -k else k, (if e = 0 then 1 else e : Nat) - 150⟩

/-- The value of a BF16 code: it is widened exactly. -/
def bf16Val (b : BitVec 16) : FpVal := f32Val (b ++ (0 : BitVec 16))

/-- The value of a finite binary32 code; 0 for the others. -/
def f32Dyad (b : BitVec 32) : Dyad := match f32Val b with | .fin x => x | _ => {}

/-- A source value of the vector unit under R167: NaN reads as zero and infinity as the largest finite value of its format;
the Bool says whether a replacement happened. -/
def FpVal.source (mx : Dyad) : FpVal → Dyad × Bool
  | .fin x => (x, false)
  | .inf neg => (if neg then mx.neg else mx, true)
  | .nan => ({}, true)

/-! ## Format codes (R75) -/

/-- Whether a code is one of R75's table. -/
def fmtValid (f : Nat) : Bool := f ≤ 0x12 && !(f = 0x07 || f = 0x0D || f = 0x0E || f = 0x0F)

/-- A scaled format: 0x00 to 0x0C without 0x07. -/
def fmtScaled (f : Nat) : Bool := fmtValid f && decide (f ≤ 0x0C)

/-- Element bits of a format; LT's elements share bytes (R84). -/
def fmtBits (f : Nat) : Nat :=
  match f with
  | 0x00 | 0x01 | 0x02 => 4
  | 0x03 => 3
  | 0x04 | 0x05 => 2
  | 0x06 => 1
  | 0x08 | 0x09 => 6
  | 0x0A | 0x0B | 0x0C => 8
  | 0x10 => 16
  | 0x11 => 32
  | 0x12 => 96
  | _ => 8

/-- Whether dimension 0 is packed below 8 bits (R84): the stride of dimension 0 is ignored. -/
def fmtPacked (f : Nat) : Bool := fmtBits f < 8

/-- Elements per block (R75); 1 where there is no side data. -/
def fmtBlock (f : Nat) : Nat := if f = 0x02 then 64 else if fmtScaled f then 32 else 1

/-- Bytes of a side entry (R85). -/
def fmtSide (f : Nat) : Nat := if f = 0x02 then 3 else if fmtScaled f then 1 else 0

/-- The grid exponent q of R95. -/
def fmtQ (f : Nat) : Nat :=
  match f with
  | 0x00 => 1
  | 0x02 => 3
  | 0x08 => 3
  | 0x09 => 4
  | 0x0A => 9
  | 0x0B => 16
  | 0x0C => 6
  | _ => 0

/-- Where element i of a row lies (R84): the first byte from the row's start, the first bit in it, and the bytes it touches. -/
def elemPlace (f i : Nat) : Nat × Nat × Nat :=
  if f = 0x05 then (i / 32 * 7 + i % 32 / 5, 0, 1)
  else
    let b := i * fmtBits f
    (b / 8, b % 8, (b % 8 + fmtBits f + 7) / 8)

/-! ## Element values (R76 to R80) -/

/-- A floating-point element with e exponent bits, m mantissa bits and a bias, as a multiple of 2^−q with
q = bias − 1 + m. -/
def floatElem (eb mb : Nat) (c : Nat) : Int :=
  let mant := c % 2 ^ mb
  let ex := c / 2 ^ mb % 2 ^ eb
  let v : Nat := if ex = 0 then mant else (2 ^ mb + mant) * 2 ^ (ex - 1)
  if c / 2 ^ (mb + eb) % 2 = 1 then -(v : Int) else v

/-- An element's value as a multiple of 2^−q without a nudge (q = 1 for E2M1), and whether its code is non-finite (R76 to R80).
A NaN code reads as zero and an E5M2 infinity as ±57,344. LI2 codes are 0, 1, −2, −1; LT codes are trits; LB is 0 for +1. -/
def elemVal (f c : Nat) : Int × Bool :=
  match f with
  | 0x00 | 0x02 => (floatElem 2 1 c, false)
  | 0x01 => (signedOf 4 c, false)
  | 0x03 => (signedOf 3 c, false)
  | 0x04 => (signedOf 2 c, false)
  | 0x05 => (if c = 1 then 1 else if c = 2 then -1 else 0, false)
  | 0x06 => (if c = 0 then 1 else -1, false)
  | 0x08 => (floatElem 2 3 c, false)
  | 0x09 => (floatElem 3 2 c, false)
  | 0x0A => if c % 128 = 127 then (0, true) else (floatElem 4 3 c, false)
  | 0x0B =>
    if c % 128 = 0x7C then (if c ≥ 128 then -(57344 * 2 ^ 16) else 57344 * 2 ^ 16, true)
    else if c % 128 > 0x7C then (0, true) else (floatElem 5 2 c, false)
  | 0x0C => (signedOf 8 c, false)
  | _ => (0, false)

/-- The grid of elemVal: LF4's elements lie on 2^−1 before their nudge. -/
def elemQ (f : Nat) : Nat := if f = 0x02 then 1 else fmtQ f

/-- The nudge multiplier of R82 in quarters. -/
def nudgeQuarters (n : Nat) : Nat := 4 + n % 4

/-- An operand element on its format's grid 2^−fmtQ (R95), an LF4 element times its nudge. -/
def gridVal (f c nudge : Nat) : Int :=
  let v := (elemVal f c).1
  if f = 0x02 then v * nudgeQuarters nudge else v

/-- The trit of element j of an LT byte (R84), and whether the byte is above 242 (R80). -/
def tritOf (b j : Nat) : Nat := if b > 242 then 0 else b / 3 ^ j % 3

/-! ## The scale rule and narrowing (R86 to R89) -/

/-- M and e_max of R86: the largest magnitude, and its exponent. -/
def fmtMax (f : Nat) : Dyad × Int :=
  match f with
  | 0x00 => (⟨6, 0⟩, 2)
  | 0x01 => (⟨7, 0⟩, 2)
  | 0x02 => (⟨21, -1⟩, 3)
  | 0x08 => (⟨15, -1⟩, 2)
  | 0x09 => (⟨28, 0⟩, 4)
  | 0x0A => (⟨448, 0⟩, 8)
  | 0x0B => (⟨57344, 0⟩, 15)
  | 0x0C => (⟨127, -6⟩, 0)
  | _ => (⟨1, 0⟩, 0)

/-- The block exponent of R87 for a format, an amax and a rule. -/
def blockExp (f : Nat) (amax : Dyad) (rule1 : Bool) : Int :=
  if amax.isZero then -127
  else
    let (mx, emax) := fmtMax f
    let ea := amax.log2
    let mMax : Dyad := ⟨mx.m, mx.e - emax⟩
    let ma : Dyad := ⟨amax.m, amax.e - ea⟩
    let s := ea - emax
    let s := if !rule1 && mMax.lt ma then s + 1 else s
    max (-127) (min 127 s)

/-- The nudge of an LF4 group (R88): the smallest multiplier with gmax ≤ 6 × n × 2^s, and 0b11 if none qualifies. -/
def groupNudge (gmax : Dyad) (s : Int) : Nat :=
  let ok (n : Nat) : Bool := gmax.le ⟨6 * (4 + n : Nat), s - 2⟩
  if ok 0 then 0 else if ok 1 then 1 else if ok 2 then 2 else 3

/-- The largest magnitude code of a scaled format that the device writes (R79, R86). -/
def maxCode (f : Nat) : Nat :=
  match f with
  | 0x00 | 0x02 | 0x01 => 7
  | 0x08 | 0x09 => 31
  | 0x0A => 0x7E
  | 0x0B => 0x7B
  | 0x0C => 127
  | _ => 0

/-- The code with a sign: float formats set their sign bit, integers are negated; zero is positive (R78, R79). -/
def signedCode (f c : Nat) (neg : Bool) : Nat :=
  if !neg || c = 0 then c
  else
    match f with
    | 0x00 | 0x02 => c + 8
    | 0x01 => 16 - c
    | 0x08 | 0x09 => c + 32
    | 0x0A | 0x0B => c + 128
    | _ => 256 - c

/-- Among the magnitude codes 0 to `n`, the one nearest to a target, a tie going to the even code. `dist c` is the distance to
the target on a common grid. -/
def nearestCode (dist : Nat → Nat) : Nat → Nat
  | 0 => 0
  | n + 1 =>
    let best := nearestCode dist n
    if dist (n + 1) < dist best || (dist (n + 1) = dist best && (n + 1) % 2 = 0) then n + 1 else best

/-- An element's code (R89): x over nudge × 2^s, rounded to the nearest code, saturating above the format's largest magnitude. -/
def narrow (f : Nat) (x : Dyad) (s : Int) (nudge : Nat) : Nat × Bool :=
  let n4 : Nat := if f = 0x02 then nudgeQuarters nudge else 4
  let q := elemQ f
  let top : Dyad := ⟨(elemVal f (maxCode f)).1 * n4, s - 2 - q⟩
  if top.lt x.abs then (signedCode f (maxCode f) (decide (x.m < 0)), true)
  else
    let t := x.abs
    let e := min t.e (s - 2 - q)
    let tn := (t.at_ e).toNat
    let dist (c : Nat) : Nat :=
      let v := ((⟨(elemVal f c).1 * n4, s - 2 - q⟩ : Dyad).at_ e).toNat
      if tn ≤ v then v - tn else tn - v
    (signedCode f (nearestCode dist (maxCode f)) (decide (x.m < 0)), false)

/-! ## Block values (R94, R95, R101) -/

/-- The E8M0 scale code's exponent, if it is not NaN (R81). -/
def scaleExp (c : Nat) : Option Int := if c = 255 then none else some ((c : Int) - 127)

/-! ## The long accumulator (R98 to R103) -/

/-- The largest long accumulator value. -/
def longMax : Int := 2 ^ 95 - 1

/-- Clamp an exact sum to ±(2^95 − 1) (R103). -/
def longClamp (x : Int) : Int × Bool :=
  if x > longMax then (longMax, true) else if x < -longMax then (-longMax, true) else (x, false)

end Sys2Proof.Machine
end

