-- ==== Sys2Proof/Machine/Crypto.lean ====
section
/-!
DEFINITION. The algorithms that chapter 17 names by their standards and does not give: the SM3 digest, the SM4 cipher with its GCM mode and
the key wrap of RFC 3394, the SM2 curve, its key-derivation function and its signature check. All of it is PRESUMED from the standards
(assumption 6). Numbers are big-endian here, as the standards and R446 have them.
-/
namespace Sys2Proof.Machine

/-- The big-endian number in a byte string. -/
def ofBytesBe (bs : List Byte) : Nat := bs.foldl (fun n b => n * 256 + b.toNat) 0

/-- A number in n bytes, big-endian. -/
def bytesBe (n x : Nat) : List Byte := (bytesOf n x).reverse

/-- Rotate a 32-bit number left. -/
def rotl32 (x n : Nat) : Nat := (x <<< n ||| x >>> (32 - n)) % 2 ^ 32

/-! ## SM3 -/

/-- The padded message: a one bit, zeros, and the length in bits, in whole blocks of 64 bytes. -/
def sm3Padded (bs : List Byte) : List Byte :=
  bs ++ [0x80] ++ List.replicate ((119 - bs.length % 64) % 64) 0 ++ bytesBe 8 (8 * bs.length)

/-- The permutation P1 of the message expansion. -/
def sm3P1 (x : Nat) : Nat := x ^^^ rotl32 x 15 ^^^ rotl32 x 23

/-- The next word of the expansion; the words so far come newest first. -/
def sm3Next (w : List Nat) : Nat :=
  sm3P1 (w.getD 15 0 ^^^ w.getD 8 0 ^^^ rotl32 (w.getD 2 0) 15) ^^^ rotl32 (w.getD 12 0) 7 ^^^ w.getD 5 0

/-- A block's 68 words. -/
def sm3Words (block : List Byte) : List Nat :=
  ((List.range 52).foldl (fun w _ => sm3Next w :: w) ((List.range 16).map fun i => ofBytesBe (slice block (4 * i) 4)).reverse).reverse

/-- The eight words of the chaining value. -/
structure Sm3Vec where
  a : Nat
  b : Nat
  c : Nat
  d : Nat
  e : Nat
  f : Nat
  g : Nat
  h : Nat
deriving DecidableEq, Repr

/-- The initial value. -/
def sm3Init : Sm3Vec :=
  ⟨0x7380166F, 0x4914B2B9, 0x172442D7, 0xDA8A0600, 0xA96F30BC, 0x163138AA, 0xE38DEE4D, 0xB0FB0E4E⟩

/-- A round of the compression, with the words W_j and W'_j. -/
def sm3Round (v : Sm3Vec) (j w w' : Nat) : Sm3Vec :=
  let t := if j < 16 then 0x79CC4519 else 0x7A879D8A
  let ss1 := rotl32 ((rotl32 v.a 12 + v.e + rotl32 t (j % 32)) % 2 ^ 32) 7
  let ff := if j < 16 then v.a ^^^ v.b ^^^ v.c else (v.a &&& v.b) ||| (v.a &&& v.c) ||| (v.b &&& v.c)
  let gg := if j < 16 then v.e ^^^ v.f ^^^ v.g else (v.e &&& v.f) ||| ((2 ^ 32 - 1 - v.e) &&& v.g)
  let tt1 := (ff + v.d + (ss1 ^^^ rotl32 v.a 12) + w') % 2 ^ 32
  let tt2 := (gg + v.h + ss1 + w) % 2 ^ 32
  ⟨tt1, v.a, rotl32 v.b 9, v.c, tt2 ^^^ rotl32 tt2 9 ^^^ rotl32 tt2 17, v.e, rotl32 v.f 19, v.g⟩

/-- The compression of one block. -/
def sm3Block (v : Sm3Vec) (block : List Byte) : Sm3Vec :=
  let w := sm3Words block
  let r := (List.range 64).foldl (fun v j => sm3Round v j (w.getD j 0) (w.getD j 0 ^^^ w.getD (j + 4) 0)) v
  ⟨v.a ^^^ r.a, v.b ^^^ r.b, v.c ^^^ r.c, v.d ^^^ r.d, v.e ^^^ r.e, v.f ^^^ r.f, v.g ^^^ r.g, v.h ^^^ r.h⟩

/-- The digest's 32 bytes. -/
def sm3Bytes (bs : List Byte) : List Byte :=
  let m := sm3Padded bs
  let v := (chunksOf (m.length / 64) 64 m).foldl sm3Block sm3Init
  [v.a, v.b, v.c, v.d, v.e, v.f, v.g, v.h].flatMap (bytesBe 4)

/-- The SM3 digest. -/
def sm3 (bs : List Byte) : Digest := BitVec.ofNat 256 (ofBytes (sm3Bytes bs))

/-! ## SM4 -/

/-- The S-box, 32 entries a row, entry 0 lowest. -/
def sm4Box : List Nat :=
  [0x99068649261344aac304be2a769a672b052cfb28c214b616b73de1ccfee990d6,
   0xa63f8f75fa94df8095e808c9a91cb3e462accfed430b54337a98ef91f450429c,
   0x359d56704b0febf88bda6471b2816b68a84f85e6193c5983ba1773f3fca70747,
   0x9ec8c4a0e702364c5227d39f574600d4877821013b7c2225a2d158635e0e241e,
   0xe3b18cf5303293ad551a349ba45daee0a11561f9cef2f7a3b538c740d28abfea,
   0x515b6c6d726aff032f8efdde4537dbd56f4e530dab2329c060ca66822ee2f61d,
   0xb0b4e5b812d0742dbd7bcda58831c10ad85a101f415cd9117fbcddbb92af1b8d,
   0x4839cbd73e5fee79204ddc3aec7df01884c66ec509f1b9657e77960c4a976989]

/-- The S-box of a byte. -/
def sm4Sub (x : Nat) : Nat := (sm4Box.getD (x / 32) 0 >>> (8 * (x % 32))) % 256

/-- The S-box on each byte of a word. -/
def sm4Tau (x : Nat) : Nat :=
  sm4Sub (x >>> 24) <<< 24 ||| sm4Sub ((x >>> 16) % 256) <<< 16 ||| sm4Sub ((x >>> 8) % 256) <<< 8 ||| sm4Sub (x % 256)

/-- The round transformation, and that of the key schedule. -/
def sm4T (x : Nat) : Nat :=
  let b := sm4Tau x
  b ^^^ rotl32 b 2 ^^^ rotl32 b 10 ^^^ rotl32 b 18 ^^^ rotl32 b 24
/-- The transformation of the key schedule. -/
def sm4TKey (x : Nat) : Nat :=
  let b := sm4Tau x
  b ^^^ rotl32 b 13 ^^^ rotl32 b 23

/-- The constant of round i of the key schedule. -/
def sm4Ck (i : Nat) : Nat := ofBytesBe ((List.range 4).map fun j => BitVec.ofNat 8 ((4 * i + j) * 7))

/-- A step of the cipher's shift register: four words, newest first. -/
def sm4Step (t : Nat → Nat) (w : List Nat) (k : Nat) : List Nat :=
  match w with
  | [d, c, b, a] => [a ^^^ t (b ^^^ c ^^^ d ^^^ k), d, c, b]
  | _ => w

/-- A block's four words, newest first. -/
def sm4Load (bs : List Byte) : List Nat := ((List.range 4).map fun i => ofBytesBe (slice bs (4 * i) 4)).reverse

/-- The 32 round keys of a key. -/
def sm4Keys (key : List Byte) : List Nat :=
  let start := (List.zipWith (· ^^^ ·) (sm4Load key) [0xB27022DC, 0x677D9197, 0x56AA3350, 0xA3B1BAC6])
  ((List.range 32).foldl (fun (w : List Nat × List Nat) i =>
    let n := sm4Step sm4TKey w.1 (sm4Ck i)
    (n, n.headD 0 :: w.2)) (start, [])).2.reverse

/-- The cipher under a list of round keys: the schedule encrypts, its reverse decrypts. -/
def sm4Run (ks : List Nat) (block : List Byte) : List Byte :=
  (ks.foldl (sm4Step sm4T) (sm4Load block)).flatMap (bytesBe 4)

/-- The words as a byte string, exclusive or. -/
def xorBytes (a b : List Byte) : List Byte := List.zipWith (· ^^^ ·) a b

/-! ## GCM and key wrap -/

/-- Multiply two elements of GCM's field, most significant bit first. -/
def gcmMul (x h : Nat) : Nat :=
  ((List.range 128).foldl (fun (zv : Nat × Nat) i =>
    (if x.testBit (127 - i) then zv.1 ^^^ zv.2 else zv.1, if zv.2 % 2 = 1 then zv.2 / 2 ^^^ 0xE1 <<< 120 else zv.2 / 2)) (0, h)).1

/-- A byte string as field elements, its last one padded with zeros. -/
def gcmBlocks (bs : List Byte) : List Nat := (chunksOf (ceilDiv bs.length 16) 16 bs).map fun c => ofBytesBe (slice c 0 16)

/-- GHASH of the additional data and the ciphertext. -/
def gcmHash (h : Nat) (aad ct : List Byte) : Nat :=
  (gcmBlocks aad ++ gcmBlocks ct ++ [8 * aad.length * 2 ^ 64 + 8 * ct.length]).foldl (fun y x => gcmMul (y ^^^ x) h) 0

/-- SM4-GCM with a 12-byte IV: the plaintext, or none where the tag fails. -/
def gcmOpen (key iv aad ct tag : List Byte) : Option (List Byte) :=
  let ks := sm4Keys key
  let pad (i : Nat) : List Byte := sm4Run ks (iv ++ bytesBe 4 i)
  let h := ofBytesBe (sm4Run ks (List.replicate 16 0))
  if bytesBe 16 (gcmHash h aad ct) = xorBytes (pad 1) tag then
    some (((List.range (ceilDiv ct.length 16)).flatMap fun i => xorBytes ((ct.drop (16 * i)).take 16) (pad (i + 2))))
  else none

/-- The key unwrap of RFC 3394 for a 16-byte key, with SM4 as the block cipher; none where its integrity check fails. -/
def keyUnwrap (kek wrapped : List Byte) : Option (List Byte) :=
  let ks := (sm4Keys kek).reverse
  let r := (List.range 12).foldl (fun (s : List Byte × List Byte × List Byte) i =>
    let b := sm4Run ks (xorBytes s.1 (bytesBe 8 (12 - i)) ++ s.2.2)
    (b.take 8, b.drop 8, s.2.1)) (slice wrapped 0 8, slice wrapped 8 8, slice wrapped 16 8)
  if r.1 = List.replicate 8 0xA6 then some (r.2.1 ++ r.2.2) else none

/-! ## SM2 -/

/-- The field's prime. -/
def sm2P : Nat := 0xFFFFFFFEFFFFFFFFFFFFFFFFFFFFFFFFFFFFFFFF00000000FFFFFFFFFFFFFFFF
/-- The curve's coefficient a. -/
def sm2A : Nat := sm2P - 3
/-- The curve's coefficient b. -/
def sm2B : Nat := 0x28E9FA9E9D9F5E344D5A9E4BCF6509A7F39789F515AB8F92DDBCBD414D940E93
/-- The order of the base point. -/
def sm2N : Nat := 0xFFFFFFFEFFFFFFFFFFFFFFFFFFFFFFFF7203DF6B21C6052B53BBF40939D54123
/-- The base point. -/
def sm2G : Nat × Nat :=
  (0x32C4AE2C1F1981195F9904466A39C9948FE30BBFF2660BE1715A4589334C74C7,
   0xBC3736A2F4F6779C59BDCEE36B692153D0A9877CC62A474002DF32E52139F0A0)

/-- A point in Jacobian coordinates; z is 0 at infinity. -/
structure JPoint where
  x : Nat
  y : Nat
  z : Nat
deriving DecidableEq, Repr

/-- A product in the field. -/
def mulP (a b : Nat) : Nat := a * b % sm2P
/-- A difference in the field. -/
def subP (a b : Nat) : Nat := (a + (sm2P - b % sm2P)) % sm2P

/-- Twice a point. -/
def JPoint.double (q : JPoint) : JPoint :=
  let zz := mulP q.z q.z
  let m := mulP 3 (mulP (subP q.x zz) (q.x + zz))
  let yy := mulP q.y q.y
  let s := mulP 4 (mulP q.x yy)
  let x := subP (mulP m m) (2 * s)
  ⟨x, subP (mulP m (subP s x)) (mulP 8 (mulP yy yy)), mulP 2 (mulP q.y q.z)⟩

/-- The sum of two points. -/
def JPoint.add (q r : JPoint) : JPoint :=
  let z1 := mulP q.z q.z
  let z2 := mulP r.z r.z
  let u1 := mulP q.x z2
  let u2 := mulP r.x z1
  let s1 := mulP q.y (mulP r.z z2)
  let s2 := mulP r.y (mulP q.z z1)
  let h := subP u2 u1
  let d := subP s2 s1
  let hh := mulP h h
  let hhh := mulP h hh
  let v := mulP u1 hh
  let x := subP (subP (mulP d d) hhh) (2 * v)
  if q.z = 0 then r
  else if r.z = 0 then q
  else if h = 0 then (if d = 0 then q.double else ⟨1, 1, 0⟩)
  else ⟨x, subP (mulP d (subP v x)) (mulP s1 hhh), mulP h (mulP q.z r.z)⟩

/-- A power in the field. -/
def powP (a e : Nat) : Nat :=
  (List.range 256).foldl (fun r i => let q := mulP r r; if e.testBit (255 - i) then mulP q a else q) 1

/-- The affine coordinates of a point; none at infinity. -/
def JPoint.affine (q : JPoint) : Option (Nat × Nat) :=
  if q.z = 0 then none
  else
    let i := powP q.z (sm2P - 2)
    let ii := mulP i i
    some (mulP q.x ii, mulP q.y (mulP i ii))

/-- A multiple of a point. -/
def sm2Mul (k : Nat) (q : Nat × Nat) : JPoint :=
  (List.range 256).foldl (fun r i => let d := r.double; if k.testBit (255 - i) then d.add ⟨q.1, q.2, 1⟩ else d) ⟨1, 1, 0⟩

/-- A point lies on the curve. -/
def onCurve (q : Nat × Nat) : Bool :=
  decide (q.1 < sm2P) && decide (q.2 < sm2P) && mulP q.2 q.2 = (q.1 * q.1 * q.1 + sm2A * q.1 + sm2B) % sm2P

/-- A point's 64 bytes, and the point in 64 bytes (R446). -/
def pointBytes (q : Nat × Nat) : List Byte := bytesBe 32 q.1 ++ bytesBe 32 q.2
/-- The point in 64 bytes. -/
def pointOf (bs : List Byte) : Nat × Nat := (ofBytesBe (slice bs 0 32), ofBytesBe (slice bs 32 32))

/-- n bits of the key-derivation function, n a multiple of 8. -/
def sm2Kdf (z : List Byte) (n : Nat) : List Byte :=
  ((List.range (ceilDiv n 256)).flatMap fun i => sm3Bytes (z ++ bytesBe 4 (i + 1))).take (n / 8)

/-- A power modulo the order. -/
def powN (a e : Nat) : Nat :=
  (List.range 256).foldl (fun r i => let q := r * r % sm2N; if e.testBit (255 - i) then q * a % sm2N else q) 1

/-- The default distinguishing identifier of the standard. -/
def sm2Id : List Byte := [0x31, 0x32, 0x33, 0x34, 0x35, 0x36, 0x37, 0x38, 0x31, 0x32, 0x33, 0x34, 0x35, 0x36, 0x37, 0x38]

/-- The number a signature is over: the digest of the signer's identity and the message. -/
def sm2Hash (key msg : List Byte) : Nat :=
  let za := sm3Bytes ([0x00, 0x80] ++ sm2Id ++ bytesBe 32 sm2A ++ bytesBe 32 sm2B ++ pointBytes sm2G ++ slice key 0 64)
  ofBytesBe (sm3Bytes (za ++ msg))

/-- The public key of a private key. -/
def sm2Public (d : Nat) : List Byte := pointBytes ((sm2Mul d sm2G).affine.getD (0, 0))

/-- The signature of a message under a private key, with the random number of the standard's procedure: r, then s (R446). -/
def sm2Sign (d nonce : Nat) (msg : List Byte) : List Byte :=
  let k := 1 + nonce % (sm2N - 1)
  let r := (sm2Hash (sm2Public d) msg + (((sm2Mul k sm2G).affine.getD (0, 0)).1)) % sm2N
  let s := powN (1 + d) (sm2N - 2) * (k + (sm2N - r * d % sm2N)) % sm2N
  bytesBe 32 r ++ bytesBe 32 s

/-- A signature of 64 bytes over a message verifies under a public key of 64 bytes (R446). -/
def sm2Verify (key msg sig : List Byte) : Bool :=
  let r := ofBytesBe (slice sig 0 32)
  let s := ofBytesBe (slice sig 32 32)
  let q := pointOf key
  let t := (r + s) % sm2N
  decide (0 < r) && decide (r < sm2N) && decide (0 < s) && decide (s < sm2N) && decide (t ≠ 0) && onCurve q
    && match ((sm2Mul s sm2G).add (sm2Mul t q)).affine with
      | some (x, _) => decide ((sm2Hash key msg + x) % sm2N = r)
      | none => false

end Sys2Proof.Machine
end

