-- ==== Sys2Proof/Config.lean ====
section
/-!
DEFINITION. What the spec leaves to a package or to a free choice. Every constant here is opaque: no proof can see a value.
-/
namespace Sys2Proof.Config

/-- A free value: the n-th value drawn by the model where the spec leaves a result open.
State.fresh counts the draws (assumption 4). -/
opaque free : Nat → Nat

/-- The chart's stack read latency STK_LAT (R242) from a stack to an edge tile (vx, vy), in beats. The spec gives no values. -/
opaque stkLat : Nat → Nat → Nat → BitVec 16

/-- The chart's ring transit LNK_LAT (R242) from a link port to an edge tile (vx, vy), in beats. -/
opaque lnkLat : Nat → Nat → Nat → BitVec 16

/-- The chart's ring transit HIF_LAT (R242) from the host interface to an edge tile (vx, vy), in beats. -/
opaque hifLat : Nat → Nat → BitVec 16

/-- The largest STK_LAT that any package sharing a grade chart can have (R239), by
grade chart, stack and edge tile. -/
opaque gradeStkLat : Nat → Nat → Nat → Nat → BitVec 16

/-- The largest LNK_LAT that any package sharing a grade chart can have (R239). -/
opaque gradeLnkLat : Nat → Nat → Nat → Nat → BitVec 16

/-- The largest HIF_LAT that any package sharing a grade chart can have (R239). -/
opaque gradeHifLat : Nat → Nat → Nat → BitVec 16

/-- The random number with which the shepherd signs a message (R446): SM2 draws a fresh one for each signature (assumption 6). -/
opaque nonce : List Byte → Nat

/-- The private keys of the Daharen root CA and product CA, with which the certificates of R448 are signed. -/
opaque caKey : Fin 2 → Nat

/-- What the certificates of R448 hold beside what the spec gives: their serial numbers, the attributes of their subjects' names and their
times of validity, in DER: the root CA's, the product CA's and the device's. The model uses the first 20, 512 and 64 bytes. -/
opaque certNumber : Fin 3 → List Byte
opaque certName : Fin 3 → List Byte
opaque certValidity : Fin 3 → List Byte

/-- What the fetches of step 9 meet where a register write starts them, by draw (R420, R424). -/
opaque fetches : Nat → FirmwareVerdict

/-- The board's JTAG port: the edges of TCK in the package's life, by picosecond, with TRST_N, TMS and TDI at each (R458). -/
opaque jtagPins : Nat → Option (Bool × Bool × Bool)

/-- The JTAG port's own values that the spec does not give (R458): the code that IDCODE shifts out, the length of the instruction register
beyond its two bits, and what an instruction code stands for, as a number. -/
opaque jtagIdcode : BitVec 32
opaque jtagIrExtra : Nat
opaque jtagInstr : List Bool → Nat

/-- What the JTAG port's chains capture, by instruction and picosecond (R458, R459). -/
opaque jtagCapture : Nat → Nat → List Bool

/-- Daharen's vendor ID (R376, R480), which the spec does not give. -/
opaque vendorId : BitVec 16

/-- The shepherd firmware version string (R480), which the spec does not give. -/
opaque firmwareVersion : List Byte

/-- What sextant n predicts of its replica's beat period at a voltage, from its last report and the voltage of that report (R51
names the prediction and gives no law): sextant, period in ps, present voltage and the voltage asked about, in mV. -/
opaque predict : Nat → BitVec 16 → Nat → Nat → Nat

/-- The sum of a non-finite accumulator and a block value m × 2^e (R96 gives none): the accumulator's bits, m and e. -/
opaque nonfiniteAdd : BitVec 32 → Int → Int → BitVec 32

/-- The sum of an accumulator and an FP32 C that are not both finite (R154 gives none): their bits. -/
opaque nonfiniteC : BitVec 32 → BitVec 32 → BitVec 32

/-- What a column beyond N computes (R142 says that it computes and not what): the register's bits, the entry and the column. -/
opaque beyondN : BitVec 96 → Nat → Nat → BitVec 96

/-- The code of an element that is widened to its class's cells (R140 gives it in G2 alone): class, format and code. -/
opaque widened : Nat → Nat → Nat → Nat

/-- The special-function pipe's result (R174, R168): any function whose values lie within the bounds; the model uses a value
only where it does. Arguments: the function and u. -/
opaque sfu : Nat → BitVec 32 → BitVec 32

/-- A vector-unit input that the spec does not state: a lane beyond a row's end that a pair or a stray slot names, a channel that
two stray slots name, or u where SCALE is not finite. The argument is a code the operation has at that place. -/
opaque missingLane : BitVec 32 → BitVec 32

/-- Bytes of a stack page that R267 leaves undefined after a failed restore, and of accumulators and element registers that R440 loses, by draw and
offset. -/
opaque undefinedByte : Nat → Nat → Byte

/-- What a particle or noise may do to the package's memories while time passes: flip bits of a stack burst's cells (data, metadata), of its next
read alone, or of its read data on the way (R259, R260); a write of a port that its one retry makes good (R260); a token's data or parity
bits on a data-network link (R229), one or two bits of a scratchpad word (R123), or bits of a descriptor-store word, a routing
entry or a rank entry that their parity finds (R184, R435); or the CRC of an entry of the field defect record, or bytes of the firmware
region (R413, R419); or a word of a port's replay buffer, beyond what its code corrects (R435). A read of the device from host memory may meet a
poisoned or failed completion (R376): of a ring entry, which is then fetched again, or of the next request buffer of ATTEST or CHAIN_SIGN. -/
inductive Disturbance where
  | burst (key : Nat) (data : List Byte) (mark : Word) (parity : Bool)
  | burstRead (key : Nat) (data : List Byte) (mark : Word)
  | writeRetry (stack : Nat)
  | token (tile key : Nat) (data : List Byte) (parity : BitVec 32)
  | spad (tile word : Nat) (double : Bool)
  | store (tile key : Nat)
  | route (chip : Nat)
  | rank (pas rank : Nat)
  | defect (index : Nat) (crc : BitVec 32)
  | firmware (copy segment : Nat) (data : List Byte)
  | replay (port index : Nat)
  | entryRead (fn : Nat)
  | bufferRead (fn : Nat)
deriving DecidableEq, Repr

/-- The disturbance of each picosecond of the package's life, if there is one (assumption 9). -/
opaque disturb : Nat → Option Disturbance

end Sys2Proof.Config
end

