-- ==== Sys2Proof/Machine/SMap.lean ====
section
/-!
DEFINITION. Sparse maps from natural numbers: sorted lists of key and value pairs, with a default for an unlisted key.
A byte memory is kept in canonical form: keys strictly rising, no entry equal to what an unlisted key reads as.
-/
namespace Sys2Proof

/-- A sparse map: pairs of key and value, keys strictly rising in every map the model builds. -/
abbrev SMap (α : Type) := List (Nat × α)

/-- The value at a key; `d` where the key is not listed. -/
def smapGet {α : Type} (d : α) : SMap α → Nat → α
  | [], _ => d
  | (k, v) :: m, i => if i = k then v else if i < k then d else smapGet d m i

/-- The value at a key, if the key is listed. -/
def smapFind {α : Type} : SMap α → Nat → Option α
  | [], _ => none
  | (k, v) :: m, i => if i = k then some v else if i < k then none else smapFind m i

/-- List a key with a value, in place of a former value. -/
def smapPut {α : Type} : SMap α → Nat → α → SMap α
  | [], i, v => [(i, v)]
  | (k, w) :: m, i, v =>
    if i < k then (i, v) :: (k, w) :: m
    else if i = k then (i, v) :: m
    else (k, w) :: smapPut m i v

/-- Unlist a key. -/
def smapDrop {α : Type} : SMap α → Nat → SMap α
  | [], _ => []
  | (k, w) :: m, i =>
    if i < k then (k, w) :: m
    else if i = k then m
    else (k, w) :: smapDrop m i

/-- Set a key's value in a map whose unlisted keys read as `d`, keeping the canonical form. -/
def smapSet {α : Type} [DecidableEq α] (d : α) (m : SMap α) (i : Nat) (v : α) : SMap α :=
  if v = d then smapDrop m i else smapPut m i v

/-- Every key of the map is above `i`. -/
def smapAbove {α : Type} (i : Nat) (m : SMap α) : Bool := m.all fun kv => decide (i < kv.1)

/-- The canonical form: keys strictly rising, and no value equal to the default. -/
def smapWf {α : Type} [DecidableEq α] (d : α) : SMap α → Bool
  | [] => true
  | (k, v) :: m => decide (v ≠ d) && smapAbove k m && smapWf d m

/-- A byte memory: what an unlisted address reads as is 0 (assumption 7). -/
abbrev Memory := SMap Byte

/-- The canonical form of a byte memory. -/
def Memory.wf (m : Memory) : Bool := smapWf 0 m

/-- Keep only the keys that satisfy `p`. -/
def smapKeep {α : Type} (p : Nat → Bool) (m : SMap α) : SMap α := m.filter fun kv => p kv.1

/-- Apply a function to every listed value. -/
def smapMap {α β : Type} (f : Nat → α → β) (m : SMap α) : SMap β := m.map fun kv => (kv.1, f kv.1 kv.2)

end Sys2Proof
end

