-- ==== Sys2Proof/Machine/State.lean ====
section
/-!
DEFINITION. The state of one Letofel package as plain data, its faults and refusals, and the state of an unpowered package
(State.reset). Every structure's fields carry the reset values of the spec as their defaults; assumption rows name the others.
-/
namespace Sys2Proof.Machine

/-! ## Build facts -/

/-- The grades of R3. -/
inductive Grade where
  | ltf64x | ltf64 | ltf56
deriving DecidableEq, Repr, Inhabited

/-- The steppings of R6. -/
inductive Stepping where
  | a1 | b0
deriving DecidableEq, Repr, Inhabited

/-- What manufacture fixes in one package: grade and stepping (R3, R6), the serial number (R332), the fused defect map
(R411; tile key 68·py + px, port number), the identity seed (R447), and the digest of the fuse image (R461); and which link
reference clocks its board provides (R495). The values at reset stand for one package (assumption 5); statements hold for every value. -/
structure Facts where
  grade        : Grade := .ltf64x
  stepping     : Stepping := .b0
  serial       : Word := 0
  fusedTiles   : List Nat := []
  fusedPorts   : List Nat := []
  seed         : Digest := 0
  rootKeyHash  : Digest := 0
  fuses        : List Byte := []
  peRefclk     : Bool := true
  lrefWest     : Bool := true
  lrefEast     : Bool := true
deriving DecidableEq, Repr, Inhabited

/-! ## The control network -/

/-- A control-network request (R276): a message (KIND 0b00) or a register access (KIND 0b11). -/
structure Request where
  reg     : Bool := false
  src     : Sender := .fn 0
  vx      : Nat := 0
  vy      : Nat := 0
  chan    : BitVec 3 := 0
  handler : BitVec 4 := 0
  slot    : BitVec 6 := 0
  payload : List Byte := []
deriving DecidableEq, Repr

/-- What travels in the control network and on the ring beside it: requests, replies, NAKs, FULL bounces, space signals,
fold contributions and results, flag changes, waits and releases, halt notices and landing notices (R271, R279, R290 to R292,
R295, R357, R370). -/
inductive Packet where
  | request (r : Request)
  | reply (tile : Nat) (dst : Sender) (chan : BitVec 3) (slot : BitVec 6) (status : Status) (payload : List Byte)
  | nak (tile : Nat) (dst : Sender) (chan : BitVec 3) (slot : BitVec 6) (status : Status)
  | full (dst : Sender) (r : Request)
  | space (dst : Sender) (r : Request)
  | foldIn (pas : Nat) (fold : Nat) (tile : Nat) (gen : Bool) (op : BitVec 3) (value : BitVec 32)
  | foldOut (pas : Nat) (fold : Nat) (tile : Nat) (gen : Bool) (value : BitVec 32)
  | flag (pas : Nat) (flag : Nat) (on : Bool) (tile : Option Nat)
  | flagWait (pas : Nat) (tile : Nat) (flag : Nat) (wantSet : Bool)
  | flagRelease (pas : Nat) (tile : Nat) (flag : Nat)
  | halt (pas : Nat) (tile : Nat) (beat : Nat)
  | winWait (pas : Nat) (tile : Nat) (win : Nat) (wpt : Nat) (thresh : BitVec 32) (since : Nat)
  | winRelease (pas : Nat) (tile : Nat) (win : Nat)
  | landed (pas : Nat) (win : Nat) (rank : Nat) (xfer : BitVec 32) (bytes : Nat) (lastCount : Option Nat)
deriving DecidableEq, Repr

/-- A packet on its way, and the time at which it is injected: none while its pasture's limit is 0 (R275). -/
structure Sent where
  ready : Option Nat := some 0
  pkt   : Packet
deriving DecidableEq, Repr

/-! ## Tiles -/

/-- Why a unit of a tile holds its beat (R46): a WAIT, a FOLD, a FLAG, or data that has not arrived. -/
inductive Hold where
  | wait (win : Nat)
  | fold (fold : Nat) (gen : Bool) (toCtr : Option Nat)
  | foldFull (fold : Nat)
  | flag (flag : Nat) (wantSet : Bool)
  | data
deriving DecidableEq, Repr

/-- A shadow configuration (R190, R191): the LOAD's words, the records read so far, those still to read one per beat, the
LOAD's slot and beat and its number of records. -/
structure Shadow where
  opcode   : Byte := 0
  words    : List Word := []
  recs     : SMap (BitVec 256) := []
  todo     : List Nat := []
  slot     : Nat := 0
  loadBeat : Nat := 0
  nRec     : Nat := 0
deriving DecidableEq, Repr

/-- A descriptor in progress: its slot, GO beat, words, records, latched counters (R191) and the lines it has read. -/
structure Job where
  opcode : Byte := 0
  slot   : Nat := 0
  go     : Nat := 0
  words  : List Word := []
  recs   : SMap (BitVec 256) := []
  ctrs   : List (BitVec 24) := []
  cap    : SMap (List Byte) := []
  capIdx : SMap (List Byte) := []
deriving DecidableEq, Repr

/-- A chunk on a data-network link (R229): its bytes, and the token's even-parity bits, one for each 32 data bits. -/
structure Chunk where
  bytes  : List Byte := []
  parity : BitVec 32 := 0
deriving DecidableEq, Repr

/-- How far read data of a stack burst has come (R59, R260). -/
inductive Arrival where
  | ready | late | reread (failsAgain : Bool) (corrected : Bool)
deriving DecidableEq, Repr

/-- A read burst on its way to a landing line (R207): the beat it is due, its line's tile address, its bytes, how far it has
come, its stack and pasture-relative address, and the slot of its STKRD. -/
structure Landing where
  due     : Nat := 0
  addr    : Int := 0
  mode    : Nat := 0
  data    : List Byte := []
  arrival : Arrival := .ready
  stack   : Nat := 0
  saddr   : Nat := 0
  slot    : Nat := 0
deriving DecidableEq, Repr

/-- An overlay copy in progress (R220). -/
structure Overlay where
  go      : Nat := 0
  dstSlot : Nat := 0
  count   : Nat := 0
  src     : Nat := 0
deriving DecidableEq, Repr

/-- An entry of the loop stack (R216). -/
structure LoopEntry where
  body      : BitVec 8 := 0
  endSlot   : BitVec 8 := 0
  remaining : BitVec 24 := 0
deriving DecidableEq, Repr

/-- The latest scratchpad fault of a tile: its beat and time, its place in R503's order, its port, and its address (R431, R503). -/
structure SpadLast where
  beat : Nat := 0
  time : Nat := 0
  rank : Nat := 0
  port : Nat := 0
  addr : Int := 0
deriving DecidableEq, Repr

/-- A tile's own contributions to a fold that have not completed (R290): the generation, where the result goes, and how many of its bytes
are written (R119). -/
structure FoldPending where
  fold    : Nat := 0
  gen     : Bool := false
  resAddr : BitVec 16 := 0xFFFF
  wrote   : Nat := 0
deriving DecidableEq, Repr

/-- The handler a service engine runs (R280): its request, its next action, how many bytes the action has written or read so
far and those read, and the reply slots its SENDs took. -/
structure HandlerRun where
  req    : Request := {}
  action : Nat := 0
  pos    : Nat := 0
  got    : List Byte := []
  sent   : List (BitVec 6) := []
deriving DecidableEq, Repr

/-- A receive channel (R279): its queue, the senders whose requests it bounced, in order, and those it reserved an entry for. -/
structure Channel where
  queue    : List Request := []
  bounced  : List Request := []
  reserved : List Request := []
deriving DecidableEq, Repr

/-- A request its sender keeps after a FULL (R279, R286): the slot, the request and the time of the bounce. -/
structure Blocked where
  req    : Request := {}
  since  : Nat := 0
  raised : Bool := false
deriving DecidableEq, Repr

/-- Range-watch counts of one tag (R106). -/
structure RwCount where
  nonfinite : Nat := 0
  accSat    : Nat := 0
  scaleOut  : Nat := 0
  satElem   : Nat := 0
deriving DecidableEq, Repr

/-- An error register of the form STATUS, slot, a unit's own bits and BEAT (R163, R182, R223, R244). -/
structure ErrReg where
  status : Status := 0
  slot   : BitVec 8 := 0
  aux    : BitVec 8 := 0
  beat   : BitVec 32 := 0
deriving DecidableEq, Repr

/-- A write-protect range SPD_WP_n (R134). -/
structure WpRange where
  enable : Bool := false
  limit  : BitVec 15 := 0
  base   : BitVec 15 := 0
deriving DecidableEq, Repr

/-- One virtual tile. The defaults are its state after a cold reset. -/
structure Tile where
  /-- The beat in progress: every lower beat is completed (R43). -/
  beat      : Nat := 0
  /-- Whether the pace gate is open, and the time the tile last completed a beat (R55). -/
  gateOpen  : Bool := true
  doneTime  : Nat := 0
  /-- The units that hold the beat (R46), and the time its last hold ended. -/
  holds     : List Hold := []
  holdEnd   : Option Nat := none
  /-- The sequencer: issue pointer, reference beat, previous issue beat, the run's first beat, RUNNING, HALT issued (R188, R192, R221). -/
  ip        : BitVec 8 := 0
  rho       : Nat := 0
  prevIssue : Option Nat := none
  first     : Nat := 0
  running   : Bool := false
  halting   : Bool := false
  /-- The run that the host interface has started and that the tile has not begun: its entry point and first beat (R71, R391). -/
  starts    : Option (Nat × Nat) := none
  cond      : List Bool := [false, false, false, false]
  ctrs      : List (BitVec 24) := [0, 0, 0, 0, 0, 0, 0, 0]
  /-- The counters as the beat in progress began: what a latch of this beat sees (R191, R213). -/
  ctrsPrev  : List (BitVec 24) := [0, 0, 0, 0, 0, 0, 0, 0]
  loops     : List LoopEntry := []
  indOor    : BitVec 16 := 0
  issued    : BitVec 32 := 0
  tsqErr    : ErrReg := {}
  entry     : SMap (BitVec 8) := []
  /-- The descriptor store: word key 16·slot + word; the keys whose parity fails (R184, R185). -/
  store     : SMap Word := []
  badParity : List Nat := []
  overlays  : List Overlay := []
  /-- Shadow configurations by unit: 0 matrix, 1 vector, 2 mover, 3 stack, 4 to 7 MOVE, 8 to 11 RECV by direction (R191). -/
  shadows   : SMap Shadow := []
  /-- Counters and data that early reads keep for a GO (R191): by unit, for a stack GO also by its beat. -/
  early     : SMap (List (BitVec 24)) := []
  earlyData : SMap (List Byte) := []
  mxJobs    : List Job := []
  vxJobs    : List Job := []
  mvJobs    : List Job := []
  moveJobs  : SMap Job := []
  recvJobs  : SMap Job := []
  stkJobs   : List Job := []
  landings  : List Landing := []
  /-- Bursts that broke the spacing of R255 against one accepted with a later command beat: that beat, their stack and address. -/
  busyAt    : List (Nat × Nat × Int) := []
  /-- Accumulator columns, 96 bits, key (array·256 + entry)·64 + column (R152). -/
  acc       : SMap (BitVec 96) := []
  /-- The active and shadow registers of the cells (R137), main cells in their low four bits, key (array·72 + row)·64 + column. -/
  cellActive : SMap Byte := []
  cellShadow : SMap Byte := []
  streamBeats : BitVec 32 := 0
  passes    : BitVec 16 := 0
  mxErr     : ErrReg := {}
  ltv       : BitVec 2 := 1
  vecBeats  : BitVec 32 := 0
  vxErr     : ErrReg := {}
  /-- The data network: chunks waiting at each port by latch beat (key 4·beat + direction), and the chunk each RECV latched last. -/
  inbox     : SMap Chunk := []
  latched   : SMap (Nat × List Byte) := []
  seamE     : Bool := false
  seamW     : Bool := false
  westReach : BitVec 2 := 0
  eastReach : BitVec 2 := 0
  orphan    : BitVec 16 := 0
  empty     : BitVec 16 := 0
  chunksOut : BitVec 32 := 0
  dnwErr    : ErrReg := {}
  /-- The scratchpad: bytes by physical key (entry·32 + bank)·64 + byte; tally bits by line; upset words (R109, R123, R130). -/
  spad      : SMap Byte := []
  tally     : SMap Bool := []
  upset1    : List Nat := []
  upset2    : List Nat := []
  salt      : BitVec 5 := 0
  wp        : List WpRange := [{}, {}, {}, {}]
  ceCount   : BitVec 32 := 0
  tallyMiss : BitVec 16 := 0
  svcWaitMax : BitVec 16 := 0
  /-- The beats since which side accesses wait, by who waits and line, and each side port's last access: by bank, its beat and its time
  (R119). -/
  svcWait   : SMap Nat := []
  sideUse   : SMap (Nat × Nat) := []
  spdStatus : Status := 0
  spdBank   : BitVec 5 := 0
  spdPort   : BitVec 2 := 0
  spdAddr   : BitVec 21 := 0
  /-- The beat of the fault recorded last, which R431 has recorded and SPD_ERR_ADDR has no field for. -/
  spdLast   : Option SpadLast := none
  /-- The scrubber: visits made of each bank, and the 64-beat period of its last one (R125). -/
  scrubPos  : SMap Nat := []
  scrubWin  : SMap Nat := []
  /-- Range-watch counts not yet added to the pasture's table (R107). -/
  rw        : SMap RwCount := []
  /-- The service engine and network interface (R272 to R297). -/
  fwRunning : Bool := false
  /-- The instruction memory: the firmware image that the tile's loader has checked (R416, R420). -/
  firmware  : List Byte := []
  chans     : SMap Channel := []
  lastChan  : BitVec 3 := 7
  handler   : Option HandlerRun := none
  slots     : List (BitVec 6 × Request) := []
  blocked   : List Blocked := []
  openMask  : Byte := 0xFF
  foldMask  : Word := 0
  handlers  : SMap (BitVec 32) := []
  received  : SMap (BitVec 24) := []
  dispatched : SMap (BitVec 24) := []
  nakSent   : SMap (BitVec 16) := []
  sent      : SMap (BitVec 24) := []
  nakRecv   : SMap (BitVec 16) := []
  blockedPs : SMap Nat := []
  wdEvents  : BitVec 16 := 0
  cancelled : BitVec 16 := 0
  cnwStatus : Status := 0
  /-- The beat of the status, which R431 records and CNW_ERR has no field for. -/
  cnwBeat   : Nat := 0
  cnwChan   : BitVec 3 := 0
  cnwHandler : BitVec 4 := 0
  flitResends : BitVec 16 := 0
  linkOut   : List Dir := []
  foldGen   : SMap Bool := []
  foldPend  : List FoldPending := []
  quarantined : Bool := false
deriving DecidableEq, Repr

/-! ## Programs and runs -/

/-- An entry record of a loaded program (R304). -/
structure EntryRec where
  entry     : BitVec 4 := 0
  phase     : Nat := 0
  declBeats : Nat := 0
  inBytes   : Nat := 0
  outBytes  : Nat := 0
  wptNs     : Nat := 0
deriving DecidableEq, Repr

/-- A waypoint record (R305). -/
structure WptRec where
  wpt       : Byte := 0
  boundNs   : Nat := 0
  timeoutUs : Nat := 0
deriving DecidableEq, Repr

/-- A region record (R306), with its base after placement. -/
structure Region where
  region : Nat := 0
  kind   : Nat := 0
  protect : Bool := false
  zero   : Bool := false
  hash   : Nat := 0
  vxLo   : Nat := 0
  vyLo   : Nat := 0
  vxHi   : Nat := 0
  vyHi   : Nat := 0
  base   : Nat := 0
  size   : Nat := 0
deriving DecidableEq, Repr

/-- A loaded program binary: what later steps need of it (R303 to R306). -/
structure Program where
  ltv     : BitVec 2 := 0
  exact   : Bool := false
  digest  : Digest := 0
  weights : Digest := 0
  entries : List EntryRec := []
  wpts    : List WptRec := []
  regions : List Region := []
  /-- The store words of the tile sections, for the rewrite of R186: by tile key, every word of their DESC segments by its store key. -/
  images  : SMap (SMap Word) := []
deriving DecidableEq, Repr

/-- Where the completion of a submission entry goes (R387): function, ring, tag, and the ring's head after the entry. -/
structure EntryId where
  fn     : FnId := 0
  ring   : Fin 16 := 0
  tag    : BitVec 32 := 0
  sqHead : Byte := 0
deriving DecidableEq, Repr

/-- An accepted load whose writes have not ended (R300): where its completion goes, and the binary with its placement list. -/
structure LoadJob where
  id      : EntryId := {}
  weights : Bool := false
  plain   : List Byte := []
  place   : List (Nat × Nat × Nat) := []
deriving DecidableEq, Repr

/-- The stages of an admitted run (R391 to R393); `held`: its completion entry waits for room in the ring. -/
inductive RunStage where
  | queued | ingressed | running | recorded | held
deriving DecidableEq, Repr

/-- An element of an I/O list (R385). -/
structure IoElem where
  haddr : Nat := 0
  len   : Nat := 0
  kind  : Nat := 0
  vx    : Nat := 0
  vy    : Nat := 0
  daddr : Nat := 0
deriving DecidableEq, Repr

/-- An admitted run (R388): its identity, entry, deadline, lists, stage, digests and the breach events recorded since admission (R394). -/
structure Run where
  runId     : Word := 0
  id        : EntryId := {}
  entry     : EntryRec := {}
  deadline  : Nat := 0
  inN       : Nat := 0
  outN      : Nat := 0
  inList    : Nat := 0
  outList   : Nat := 0
  stampAddr : Nat := 0
  stage     : RunStage := .queued
  inputs    : List Byte := []
  first     : Nat := 0
  haltRelay : Nat := 0
  haltMax   : Option Nat := none
  events    : List Status := []
  breached  : Bool := false
  failedSends : BitVec 16 := 0
  debugSeen : Bool := false
deriving DecidableEq, Repr

/-! ## Windows and sends -/

/-- A window (R356): its registers FAB_WIN_n, its geometry, its allowed ranks, its grant queue (rank, transfer, units) and the
ranks whose transfers completed since it was opened or rearmed (R371). -/
structure Window where
  state     : BitVec 2 := 0
  landing   : Bool := false
  opener    : Nat := 0
  base      : Nat := 0
  size      : Nat := 0
  list      : Bool := false
  rankLo    : Nat := 0
  rankHi    : Nat := 0
  ranks     : List Nat := []
  pool      : BitVec 20 := 0
  held      : BitVec 20 := 0
  doneUnits : BitVec 20 := 0
  arrivals  : BitVec 32 := 0
  queue     : List (BitVec 12 × BitVec 32 × Nat × BitVec 16) := []
  doneRanks : List (BitVec 12) := []
deriving DecidableEq, Repr

/-- A tracker (R357): window, source rank and transfer, the units granted, DATA packets landed, bytes landed and acknowledged,
the COUNT of its LAST packet, the sender's chip, and the time of its last packet. -/
structure Tracker where
  win     : Nat := 0
  rank    : BitVec 12 := 0
  xfer    : BitVec 32 := 0
  units   : Nat := 0
  landed  : Nat := 0
  bytes   : Nat := 0
  acked   : Nat := 0
  accepted : Nat := 0
  count   : Option Nat := none
  chip    : BitVec 16 := 0
  time    : Nat := 0
  broken  : Bool := false
deriving DecidableEq, Repr

/-- How far a send has come (R364 to R368). -/
inductive SendStage where
  | waitCredit | sending | waitDone
deriving DecidableEq, Repr

/-- A send in progress: its entry, stage, transfer tag, bytes sent and acknowledged, timers, and the state of a drove's members
(granted, done, failed, pruned ranks). -/
structure Sending where
  entry    : Nat := 0
  words    : BitVec 256 := 0
  stage    : SendStage := .waitCredit
  xfer     : BitVec 32 := 0
  sentBytes : Nat := 0
  acks     : SMap Nat := []
  srcDone  : Bool := false
  start    : Nat := 0
  reqTime  : Nat := 0
  lastTime : Nat := 0
  drove    : Bool := false
  granted  : List (BitVec 12) := []
  done     : List (BitVec 12) := []
  failed   : List (BitVec 12) := []
  pruned   : List (BitVec 12) := []
deriving DecidableEq, Repr

/-- A record of the drove completion log (R369). -/
structure DroveRecord where
  entry     : Byte := 0
  status    : Status := 0
  delivered : Word := 0
  pruned    : Word := 0
  failed    : Word := 0
deriving DecidableEq, Repr

/-- A WAIT known to the bellwether (R370, R371). -/
structure WinWaiter where
  tile   : Nat := 0
  win    : Nat := 0
  wpt    : Nat := 0
  thresh : BitVec 32 := 0
  since  : Nat := 0
  late   : Bool := false
deriving DecidableEq, Repr

/-- The provenance chain of a pasture (R464 to R466). -/
structure Chain where
  valid     : Bool := false
  head      : Digest := 0
  nextSeq   : Word := 0
  loadCount : BitVec 32 := 0
  signDue   : Option (Word × Digest × Nat) := none
  periodic  : Option (List Byte) := none
deriving DecidableEq, Repr

/-! ## Pastures -/

/-- One pasture. The defaults are its registers and state after a cold reset. -/
structure Pasture where
  /-- HIF_PAS_GEOM_n and HIF_PAS_QOS_n (R402). -/
  geomStatus : Status := 0
  enable    : Bool := false
  width     : Byte := 0
  col0      : Byte := 0
  ringW     : Byte := 16
  cnwW      : Byte := 16
  svcW      : Byte := 16
  pcieW     : Byte := 16
  /-- Whether the pasture beats (R66), waits for clears (R250) or is in test (R440). -/
  beating   : Bool := false
  awaitClear : Bool := false
  inTest    : Bool := false
  /-- HIF_PAS_STAT and HIF_PAS_ADM (R402); the time of the stop, and whether the host did not ask for it (R444). -/
  stopped   : Bool := false
  stopTime  : Nat := 0
  /-- The beat whose fault at a tile stopped the pasture, and the tiles whose faults of that beat are recorded (R433). -/
  stopBeat  : Option Nat := none
  /-- The pasture stopped on an error or a fault (R442). -/
  faultStop : Bool := false
  faulted   : List Nat := []
  unplanned : Bool := false
  rejects   : BitVec 16 := 0
  marginNs  : BitVec 32 := 2000
  wptDegrade : BitVec 4 := 2
  /-- The beat registers (R73) and the helm's limits of R54, R489 and R490. -/
  stallLimit : BitVec 16 := 1000
  paceInForce : BitVec 12 := 1800
  target    : BitVec 12 := 1600
  paceLimit : BitVec 12 := 1800
  capLimit  : Option (BitVec 12) := none
  heatLimit : Option (BitVec 12) := none
  stackLimit : Option (BitVec 12) := none
  stallEvents : BitVec 32 := 0
  rate      : BitVec 12 := 0
  floorBreach : Bool := false
  stallPs   : Nat := 0
  log       : Word := 0
  /-- Times for the stall watchdog, RATE and late refresh, in ps: the last completed beat; time held by WAIT only since then, and
  since when it runs; the window of RATE with its first log value and stalled time; the last watch and its number; the last late refresh. -/
  lastBeatTime : Nat := 0
  waitTime  : Nat := 0
  waitSince : Option Nat := none
  rateTime  : Nat := 0
  rateLog   : Nat := 0
  rateStall : Nat := 0
  lastWatch : Nat := 0
  watchSeen : Nat := 0
  lastLate  : Nat := 0
  /-- SPD_PAS_CTL, DNW_PAS_CTL, STK_PAS_CTL (R134, R244, R269). -/
  spdCeThresh : BitVec 16 := 64
  tallyMode : BitVec 2 := 0
  strict    : Bool := true
  stkCeThresh : BitVec 16 := 256
  /-- The range-watch table (R108). -/
  rwt       : SMap RwCount := []
  /-- Counts that tiles ahead of the log have flushed in a run whose first beat the log has still to reach (R66, R107). -/
  rwAhead   : SMap RwCount := []
  /-- CNW_PAS_CFG, CNW_FOLD_MAP_n, flags, notification, CNW_PAS_STAT (R297). -/
  bwVx      : BitVec 6 := 0
  bwVy      : BitVec 6 := 39
  sendWd    : BitVec 16 := 100
  reqRate   : BitVec 16 := 1024
  ffRate    : BitVec 16 := 4096
  /-- When the pasture's next REQ and FF flits may be injected (R275). -/
  reqNext   : Nat := 0
  ffNext    : Nat := 0
  foldMap   : SMap Byte := []
  flags     : BitVec 256 := 0
  notify    : BitVec 256 := 0
  lastFlag  : Byte := 0
  flagWaiters : List (Nat × Nat × Bool) := []
  haltCount : Nat := 0
  /-- The load state (R320) and what is loaded. -/
  loadStatus : Status := 0
  program   : Option Program := none
  weights   : Option (Digest × List Region) := none
  loaded    : Bool := false
  hasWeights : Bool := false
  progExact : Bool := false
  progLtv   : BitVec 2 := 0
  progEntries : BitVec 5 := 0
  loading   : Option LoadJob := none
  /-- A run has failed or was aborted: the loader rewrites the store before the next one (R186). -/
  storeDue  : Bool := false
  /-- Admitted runs in order; the run under way is the first (R383). -/
  runs      : List Run := []
  /-- HIF_PAS_ANCHOR as a tile quarantine left it, until the next reset (R402). -/
  qAnchor   : Option Nat := none
  /-- FAB_PAS_FLOCK, FAB_PAS_CFG, FAB_PAS_TBL, FAB_PAS_ORD_k (R374). -/
  started   : Bool := false
  flockSize : BitVec 13 := 0
  selfRank  : BitVec 12 := 0
  flockId   : BitVec 16 := 0
  flockStatus : Status := 0
  creditUs  : BitVec 16 := 50
  doneUs    : BitVec 16 := 200
  e2eWin    : BitVec 12 := 16
  trackIdleUs : BitVec 16 := 1000
  rankActive : Bool := false
  rankTrigEn : Bool := false
  rankTrigFlag : Byte := 0
  droveUs   : BitVec 32 := 50
  ordRes    : SMap Byte := []
  /-- When the pasture's next ordered packet may go on a role, by its pace (R353). -/
  ordNext   : SMap Nat := []
  rank0     : SMap (BitVec 32) := []
  rank1     : SMap (BitVec 32) := []
  badRanks  : List Nat := []
  fence     : SMap Word := []
  sends     : SMap (BitVec 256) := []
  windows   : SMap Window := []
  trackers  : List Tracker := []
  winWaiters : List WinWaiter := []
  sending   : List Sending := []
  nextXfer  : BitVec 32 := 0
  droveLog  : List DroveRecord := []
  /-- Grants of acquire-only sends not yet used by a prepaid one, by entry: transfer tag and units. -/
  grantTags : SMap (List (BitVec 32 × Nat)) := []
  nextOseq  : SMap (BitVec 16) := []
  sendOseq  : SMap (BitVec 16) := []
  /-- FAB_WPT_LATE and FAB_PAS_STAT (R374). -/
  lateWpt   : Byte := 0
  lateWin   : BitVec 6 := 0
  lateRank  : BitVec 12 := 0
  lateMissing : BitVec 12 := 0
  sendFails : BitVec 16 := 0
  lateEvents : BitVec 16 := 0
  abandoned : BitVec 16 := 0
  drovePruned : BitVec 16 := 0
  fabNakSent : BitVec 16 := 0
  cplLost   : BitVec 16 := 0
  e2eFail   : BitVec 16 := 0
  orderBreaks : BitVec 16 := 0
  /-- The provenance chain (R464). -/
  chain     : Chain := {}
deriving DecidableEq, Repr

/-! ## Functions of the host interface -/

/-- A completion entry (R387). -/
structure Completion where
  opcode   : Byte := 0
  kind     : Byte := 0
  pasture  : Byte := 0
  ring     : BitVec 4 := 0
  tag      : BitVec 32 := 0
  status   : Status := 0
  cause    : Status := 0
  sqHead   : Byte := 0
  failedSends : BitVec 16 := 0
  runId    : Word := 0
  deadline : Word := 0
  beats    : Word := 0
  totals   : BitVec 128 := 0
  /-- Reply bytes 24 to 31 of a MSG in place of DONE_TIME. -/
  doneTime : Option Word := none
  /-- The run's stamp written or not is not part of the entry; the vector the entry signals is (R396). -/
  vector   : Nat := 0
deriving DecidableEq, Repr

/-- The state of an interrupt vector (R397): pending causes, the time of the first, how often it fired, HIF_VEC_MOD_v and the
MSI-X table entry of R381, masked until the host enables it (R406; assumption 73). -/
structure Vec where
  pending : Nat := 0
  since   : Nat := 0
  fired   : Nat := 0
  timeUs  : BitVec 16 := 0
  count   : BitVec 16 := 1
  addr    : Word := 0
  data    : BitVec 32 := 0
  masked  : Bool := true
  pba     : Bool := false
deriving DecidableEq, Repr

/-- An entry of the event log (R398). -/
structure Event where
  status  : Status := 0
  pasture : Byte := 0xFF
  detail  : BitVec 32 := 0
  time    : Word := 0
deriving DecidableEq, Repr

/-- A host MSG that has not completed (R386): where its completion goes, its request and its pasture. -/
structure HostMsg where
  id      : EntryId := {}
  pas     : Nat := 0
  slot    : BitVec 6 := 0
  req     : Request := {}
  blocked : Option Nat := none
  raised  : Bool := false
deriving DecidableEq, Repr

/-- One function's rings, vectors and event log (R402). The defaults are the values after a cold reset or FLR. -/
structure Fn where
  enabled  : Bool := false
  /-- The submission ring served last (R383). -/
  lastRing : BitVec 4 := 15
  sqBase   : SMap Word := []
  sqHead   : SMap Byte := []
  sqTail   : SMap Byte := []
  sqTime   : SMap Nat := []
  cqBase   : Word := 0
  cqPhase  : Bool := true
  cqLog2   : BitVec 4 := 8
  cqHead   : BitVec 16 := 0
  cqUsed   : Nat := 0
  cqTail   : BitVec 16 := 0
  held     : List Completion := []
  vecs     : SMap Vec := []
  events   : SMap Event := []
  evtHead  : BitVec 6 := 0
  evtCount : Nat := 0
  evtLost  : Byte := 0
  msgs     : List HostMsg := []
  /-- AER has recorded a poisoned or failed completion to a read of the device (R376). -/
  aer      : Bool := false
  /-- The next read of a request buffer by ATTEST or CHAIN_SIGN meets a failed completion (R376). -/
  bufferFails : Bool := false
deriving DecidableEq, Repr

/-! ## Stacks -/

/-- The ownership byte of a group in STK_OWN_s (R269). -/
structure GroupOwn where
  valid    : Bool := false
  xfer     : Bool := false
  clearing : Bool := false
  pas      : BitVec 4 := 0
deriving DecidableEq, Repr

/-- An upset burst (R259, R260): the bits in which its cells differ from what was written, by byte of the data and in the 64 metadata
bits; those in which its next read alone differs from its cells; and whether that read meets a read-data parity error. -/
structure BurstUpset where
  data     : List Byte := []
  mark     : Word := 0
  onceData : List Byte := []
  onceMark : Word := 0
  parity   : Bool := false
deriving DecidableEq, Repr

/-- A burst command accepted by a port (R255, R256): its log beat, place, tile, whether it wrote, the bytes before
and after, and whether a racing write's bytes stand in place of its own. -/
structure BurstCmd where
  beat  : Nat := 0
  group : Nat := 0
  off   : Nat := 0
  tile  : Nat := 0
  pas   : Nat := 0
  write : Bool := false
  old   : List Byte := []
  data  : List Byte := []
  lost  : Bool := false
deriving DecidableEq, Repr

/-- One stack and its port: registers of R269, temperatures of R490, scrub position and self-maintenance timers of its groups. -/
structure Stack where
  own       : List GroupOwn := [{}, {}, {}, {}, {}, {}, {}, {}]
  ceCount   : BitVec 32 := 0
  retries   : BitVec 16 := 0
  lateRefresh : BitVec 16 := 0
  scrubCorr : BitVec 16 := 0
  errStatus : Status := 0
  errPas    : BitVec 4 := 0
  errAddr   : BitVec 39 := 0
  /-- The beat of the status, which R431 records and STK_ERR has no field for. -/
  errBeat   : Nat := 0
  scrubPos  : SMap Nat := []
  maintTime : SMap Nat := []
  hotTime   : Nat := 0
  temp      : BitVec 16 := 0
  hot       : Bool := false
  overtemp  : Bool := false
deriving DecidableEq, Repr

/-- A context transfer (R266, R267): the request, pages completed, bytes of the page under way that have come, and whether the page under
way has been put on its link. -/
structure Transfer where
  id        : EntryId := {}
  pas       : Nat := 0
  restore   : Bool := false
  link      : Fin 2 := 0
  pages     : Nat := 0
  saddr     : Nat := 0
  storeId   : BitVec 16 := 0
  storeAddr : Word := 0
  done      : Nat := 0
  got       : List Byte := []
  sent      : Bool := false
  time      : Nat := 0
deriving DecidableEq, Repr

/-! ## Folds -/

/-- A package fold (R297), with the two generations' partial results (R290). -/
structure Fold where
  valid    : Bool := false
  owner    : BitVec 4 := 0
  notify   : Bool := false
  gen      : Bool := false
  members  : BitVec 12 := 0
  arrived  : BitVec 12 := 0
  result   : BitVec 32 := 0
  op       : Option (BitVec 3) := none
  acc      : BitVec 32 := 0
  nextCount : BitVec 12 := 0
  nextOp   : Option (BitVec 3) := none
  nextAcc  : BitVec 32 := 0
deriving DecidableEq, Repr

/-! ## Links -/

/-- The states of a port (R339). -/
inductive PortState where
  | off | training | mgmtOnly | active | degraded | unrouted | down | retraining
deriving DecidableEq, Repr, Inhabited

/-- The training steps of R329. -/
inductive TrainStep where
  | detect | lanes | equalise | width | identify | compare | trained
deriving DecidableEq, Repr, Inhabited

/-- One link port: its registers (R339), its training, its replay buffer (R327), its lanes' health (R331) and its per-hop
buffers and credits (R351). -/
structure Port where
  laneThresh : BitVec 20 := 200000
  calPas    : BitVec 4 := 0
  calAuto   : Bool := true
  disable   : Bool := false
  retrain   : Bool := false
  state     : PortState := .training
  width     : BitVec 4 := 0
  role      : BitVec 5 := 0x1F
  version   : Byte := 0
  lanes     : Byte := 0
  lastStatus : Status := 0
  polInv    : Byte := 0
  reversed  : Bool := false
  peerChip  : BitVec 16 := 0xFFFF
  peerPort  : Byte := 0xFF
  peerKind  : Byte := 0xFF
  peerVmin  : Byte := 0
  peerVmax  : Byte := 0
  peerStep  : Byte := 0
  digestMatch : Bool := false
  peerSerial : Word := 0
  peerDigest : Digest := 0
  fecCorr   : BitVec 32 := 0
  fecUncorr : BitVec 16 := 0
  crcFail   : BitVec 16 := 0
  replays   : BitVec 16 := 0
  degrades  : BitVec 16 := 0
  trainFails : BitVec 16 := 0
  unroutedDrops : BitVec 16 := 0
  step      : TrainStep := .detect
  fast      : Bool := false
  healthy   : Byte := 0
  /-- The lanes whose equalisation is saved, and the role the port held when its retrain began (R337). -/
  eqGood    : Byte := 0
  lastRole  : BitVec 5 := 0x1F
  stepTime  : Nat := 0
  txSeq     : BitVec 10 := 0
  rxSeq     : BitVec 10 := 0
  replayBuf : List (BitVec 10 × FlitPayload) := []
  /-- The flits of the replay buffer sent before the members of a logical port last changed (R348). -/
  sentBefore : Nat := 0
  /-- The flits to go on the lanes, those last put on them and when, and the NAK that the next one carries (R324, R327). -/
  outBuf    : List (BitVec 10 × FlitPayload) := []
  onLanes   : List LinkFlit := []
  flitTime  : Nat := 0
  nakDue    : Bool := false
  nakSent   : Bool := false
  /-- The flits received since training, and the place before which a dropped codeword drops them (R325). -/
  rxFlits   : Nat := 0
  badUntil  : Nat := 0
  noProgress : Nat := 0
  progressTime : Nat := 0
  rxLanes   : SMap (List FabPacket) := []
  txQueue   : List (Nat × FabPacket) := []
  txMgmt    : List MgmtFlit := []
  credits   : SMap Nat := []
  freed     : SMap Nat := []
  /-- The pasture whose turn it is on a service link, and the flits left of it (R400). -/
  turnPas   : BitVec 4 := 15
  turnLeft  : Nat := 0
  /-- The identity record this end sent last (R332). -/
  sentRecord : Option PeerRecord := none
  laneCorr  : SMap Nat := []
  laneBad   : SMap Nat := []
  winTime   : Nat := 0
  failing   : Byte := 0
  cleanSince : SMap Nat := []
  proposal  : Option Byte := none
  peerProposal : Option Byte := none
  calTime   : Nat := 0
  /-- FAB_PORT_n (R374). -/
  dateline  : Bool := false
  ordOk     : Bool := true
  hopsDrops : BitVec 16 := 0
  noRoute   : BitVec 16 := 0
  routeLost : BitVec 16 := 0
deriving DecidableEq, Repr

/-- The committed plan (R335): the header's fields and the 20 entries (USE, REQUIRED, PEER_CHIP, PEER_PORT, PLAN_WIDTH). -/
structure PlanEntry where
  use      : Nat := 0
  required : Bool := false
  peerChip : BitVec 16 := 0
  peerPort : Byte := 0
  width    : Nat := 0
deriving DecidableEq, Repr

/-- A committed plan (R335). -/
structure Plan where
  selfChip : BitVec 16 := 0
  strict   : Bool := false
  digest   : Digest := 0
  waitMs   : Nat := 0
  entries  : List PlanEntry := []
deriving DecidableEq, Repr

/-- The links' package state: the plan shadow and plan, LNK_PLAN_STAT and the logical ports (R335, R339). -/
structure Links where
  shadow     : SMap Byte := []
  plan       : Option Plan := none
  planTime   : Nat := 0
  /-- PLAN_WAIT has ended for this plan (R336). -/
  waited     : Bool := false
  planStatus : Status := 0
  planState  : BitVec 2 := 0
  rolesHeld  : BitVec 20 := 0
  /-- The REQUIRED roles lost and not held again (R442, R443). -/
  rolesLost  : BitVec 20 := 0
  lports     : SMap (BitVec 18) := []
deriving DecidableEq, Repr

/-! ## Fabric transport of the package -/

/-- A drove entry FAB_DROVE_d and its member list (R367, R374). -/
structure Drove where
  valid    : Bool := false
  isLocal  : Bool := false
  localPas : BitVec 4 := 0
  nMem     : BitVec 7 := 0
  fwd      : BitVec 18 := 0
  members  : SMap (BitVec 16) := []
deriving DecidableEq, Repr

/-- Why an engine holds a packet: the drain after a route swap (R349), a changed member of a logical port (R348), a role that carries
nothing (R350), or the pace of its pasture's reservation on a role (R353). -/
inductive HoldReason where
  | drain | member | lost (role : Nat) | pace (role : Nat)
deriving DecidableEq, Repr

/-- A packet held at an engine (R348 to R350), and since when. -/
structure HeldPacket where
  since : Nat := 0
  why   : HoldReason := .drain
  pkt   : FabPacket
deriving DecidableEq, Repr

/-- The package's fabric state: the routing tables, FAB_ROUTE_CTL, droves, packets delivered here and held packets (R346 to R350, R367). -/
structure Fabric where
  route0     : SMap (BitVec 32) := []
  route1     : SMap (BitVec 32) := []
  badRoutes  : List Nat := []
  routeActive : Bool := false
  routeTrigEn : Bool := false
  routeTrigPas : BitVec 4 := 0
  routeTrigFlag : Byte := 0
  ordHoldUs  : BitVec 17 := 200
  ordDrain   : BitVec 16 := 5
  routeStatus : Status := 0
  swapTime   : Nat := 0
  draining   : Bool := false
  droves     : SMap Drove := []
  inq        : List FabPacket := []
  held       : List HeldPacket := []
  /-- The role each ordered flow through a logical port took last (R348), by source, destination and channel. -/
  ordMember  : SMap Nat := []
  badPkt     : Nat := 0
deriving DecidableEq, Repr

/-! ## Bring-up, halves, power, reliability, security, management -/

/-- The states of a half (R74). -/
inductive HalfState where
  | parked | live | poweringUp | poweringDown
deriving DecidableEq, Repr, Inhabited

/-- One half: PWR_HELM_n (R74) and the enabled ring stub (R28). -/
structure HalfReg where
  state  : HalfState := .parked
  target : BitVec 12 := 0
  vcore  : BitVec 16 := 0
  stub   : Option Nat := none
  /-- The time of the helm's last update of the rail (R52). -/
  helmTime : Option Nat := none
deriving DecidableEq, Repr

/-- A field defect record entry (R413). -/
structure Defect where
  kind  : Byte := 0
  px    : Byte := 0
  py    : Byte := 0
  cause : Byte := 0
  boot  : BitVec 32 := 0
  test  : BitVec 16 := 0
  crc   : BitVec 32 := 0
deriving DecidableEq, Repr

/-- Bring-up: the boot registers (R427 to R429), the steps done, the maps and the flash records (R404 to R421). -/
structure Boot where
  lastStatus : Status := 0
  step       : Byte := 0
  state      : BitVec 2 := 0
  mode       : BitVec 2 := 0
  slot       : BitVec 2 := 3
  belowGrade : Bool := false
  mgmtOnly   : Bool := false
  ready      : Bool := false
  downSince  : Option Nat := none
  elapsedMs  : BitVec 20 := 0
  ctlArg     : Byte := 0
  ctlStep    : Byte := 0
  imgAddr    : Word := 0
  imgLen     : BitVec 32 := 0
  retired    : BitVec 68 := 0
  newDefects : BitVec 16 := 0
  /-- Steps completed since power good: 2, 3, 4 (4a), 14 (4b), 5, 6, 7, 8, 9; waves done. -/
  done       : List Nat := []
  waves      : Nat := 0
  crs        : Bool := false
  bootMode   : BitVec 2 := 0
  nodeId     : BitVec 5 := 0
  failed     : List BistFailure := []
  waveBad    : List Nat := []
  badTiles   : List Nat := []
  badPorts   : List Nat := []
  gridW      : Nat := 0
  colMap     : SMap Nat := []
  everReady  : Bool := false
  /-- Flash: the field defect record, the cold-boot count, and events to report at the next bring-up (R413, R487, R491). -/
  fdr        : List Defect := []
  bootCount  : BitVec 32 := 0
  report     : List Status := []
  ringFailed : Bool := false
  /-- The physical columns whose tiles are powered (R228, R408, R410). -/
  powered    : BitVec 68 := 0
  /-- The tile firmware image of the shepherd image in use (R416), and the firmware region: its copies of the image, and whether it is
  the fallback in stack S0 (R417 to R419). -/
  tileFw     : List Byte := []
  region     : List (List FwSegment) := []
  regionS0   : Bool := false
deriving DecidableEq, Repr

/-- A self-test request (R438, R439), deferred or running since a time, with its number among the requests; a stack scrub keeps the
scrub positions of its groups at its start. -/
structure SelfTest where
  kind     : SelfTestKind := .tileBist
  target   : Byte := 0
  running  : Bool := false
  since    : Nat := 0
  seq      : Nat := 0
  marks    : List Nat := []
deriving DecidableEq, Repr

/-- Reliability (R434 to R444): ALERT causes and mask, RING_RESENDS, unavailable time, the self-tests under way, how many were
requested, and by KIND the number and the results of the last request (R480). -/
structure Reliability where
  alert     : BitVec 10 := 0
  alertMask : BitVec 10 := 0
  ringResends : BitVec 32 := 0
  unavailNs : Nat := 0
  tests     : List SelfTest := []
  testSeq   : Nat := 0
  testLast  : SMap Nat := []
  testState : SMap Byte := []
  testStatus : SMap Status := []
  testTime  : SMap Word := []
  /-- The time at which a restart of the shepherd ends (R435). -/
  restartEnd : Nat := 0
deriving DecidableEq, Repr

/-- The states of an IEEE 1149.1 test access port. -/
inductive TapState where
  | reset | idle | selectDr | captureDr | shiftDr | exit1Dr | pauseDr | exit2Dr | updateDr
  | selectIr | captureIr | shiftIr | exit1Ir | pauseIr | exit2Ir | updateIr
deriving DecidableEq, Repr

/-- The instructions of the JTAG port (R458, R459); `debug` stands for debug access to the shepherd and the tiles, `other` for the rest. -/
inductive JtagInstr where
  | bypass | idcode | sample | extest | intest | debug | other
deriving DecidableEq, Repr

/-- The JTAG port (R458): its controller, its instruction, the instruction and data registers' shift stages, the boundary cells' latches,
and TDO. -/
structure Jtag where
  tap       : TapState := .reset
  instr     : JtagInstr := .idcode
  irShift   : List Bool := []
  drShift   : List Bool := []
  boundary  : List Bool := []
  tdo       : Option Bool := none
deriving DecidableEq, Repr

/-- Security (R447 to R459): FW_SVN, what the running image measures as (R449, R461), ownership, signers, the debug unlock and the JTAG
port. -/
structure Security where
  fwSvn     : BitVec 7 := 0
  imageSvn  : BitVec 7 := 0
  imageDigest  : Digest := 0
  tileFwDigest : Digest := 0
  stackDigest  : Digest := 0
  linkDigest   : Digest := 0
  owner     : Option (List Byte) := none
  ownerSeq  : Word := 0
  signers   : List (List Byte) := []
  challenge : Digest := 0
  scope     : BitVec 2 := 0
  unlockDigest : Digest := 0
  port      : Jtag := {}
deriving DecidableEq, Repr

/-- A management request in the queue (R473): its transport, the address and port its response goes to, arrival time and bytes; whether it came
over a faulty segment, and counts nothing (R483); whether a reset of the mailbox discards its response (R484). -/
structure MgtReq where
  mailbox : Bool := false
  source  : BitVec 128 × BitVec 16 := (0, 0)
  uncounted : Bool := false
  discard : Bool := false
  time    : Nat := 0
  bytes   : List Byte := []
deriving DecidableEq, Repr

/-- A journal entry (R481). -/
structure Journal where
  index : BitVec 16 := 0
  sub   : Byte := 0
  mailbox : Bool := false
  type  : Byte := 0
  time  : Word := 0
  old   : Word := 0
  new   : Word := 0
deriving DecidableEq, Repr

/-- Management (R469 to R484). -/
structure Mgt where
  queue     : List MgtReq := []
  response  : Option ((BitVec 128 × BitVec 16) × List Byte) := none
  /-- The neighbour advertisement sent last (R470): to whom, and the MAC address. -/
  advert    : Option (BitVec 128 × List Byte) := none
  viol      : SMap (BitVec 32) := []
  dropped   : BitVec 32 := 0
  journal   : List Journal := []
  journalCount : BitVec 32 := 0
  go        : Bool := false
  overrun   : Bool := false
  mbxDone   : Bool := false
  busy      : Bool := false
  reqBuf    : SMap Byte := []
  rspBuf    : SMap Byte := []
  nodeCount : Byte := 8
  bootOverride : Byte := 0
  assetTag  : List Byte := []
  parkW     : Byte := 0
  parkE     : Byte := 0
  /-- Flash copies of the RWP objects, and the times of writes not yet persisted (R477). -/
  flNodeCount : Byte := 8
  flOverride : Byte := 0
  flAssetTag : List Byte := []
  flAlertMask : BitVec 10 := 0
  dirty     : List (PersistItem × Nat) := []
  line      : Byte := 0
  shorts    : BitVec 16 := 0
  opens     : BitVec 16 := 0
  reverses  : BitVec 16 := 0
  /-- Since when the line fault has been absent (R483). -/
  lineGone  : Option Nat := none
  conflict  : Option Nat := none
deriving DecidableEq, Repr

/-- The input stage, rails, thermal and input registers (R486 to R491, R501), and the sextants (R50). `overV`: the eFuse is open
on overvoltage; `lossTime`: when the input fell through 36 V. -/
structure Power where
  good      : Bool := false
  eFuseOpen : Bool := false
  overV     : Bool := false
  trips     : Nat := 0
  stayOpen  : Bool := false
  tripTime  : Nat := 0
  lossTime  : Option Nat := none
  latch     : Bool := false
  rails     : Bool := false
  serviceRail : Bool := false
  thermtrip : Bool := false
  vin       : BitVec 16 := 0
  iin       : BitVec 16 := 0
  pin       : BitVec 16 := 0
  sxtTemp   : SMap (BitVec 16) := []
  sxtPeriod : SMap (BitVec 16) := []
  throttleW : Bool := false
  throttleE : Bool := false
  capAtFloor : Bool := false
  reversed  : BitVec 16 := 0
  eFuseTrips : BitVec 16 := 0
  uvEvents  : BitVec 16 := 0
  thermtrips : BitVec 16 := 0
deriving DecidableEq, Repr

/-! ## The package -/

/-- The package, its queue of waiting commands, the time in ps, and the count of free values drawn. -/
structure State where
  pending : List Instr := []
  now     : Nat := 0
  /-- The time of the last cold reset: HIF_TIME counts from it. -/
  epoch   : Nat := 0
  fresh   : Nat := 0
  facts   : Facts := {}
  tiles   : SMap Tile := []
  pas     : SMap Pasture := []
  fns     : SMap Fn := []
  stks    : SMap Stack := []
  folds   : SMap Fold := []
  ports   : SMap Port := []
  net     : List Sent := []
  links   : Links := {}
  fabric  : Fabric := {}
  west    : HalfReg := {}
  east    : HalfReg := {}
  boot    : Boot := {}
  rel     : Reliability := {}
  sec     : Security := {}
  mgt     : Mgt := {}
  power   : Power := {}
  /-- AUTO of STK_OWN_CTL, the stacks' bytes by key group·2^33 + offset, upset bursts by the same key, the ports' accepted commands and the transfers. -/
  ownAuto : Bool := true
  stackMem : SMap Byte := []
  bursts  : SMap BurstUpset := []
  cmds    : List BurstCmd := []
  xfers   : List Transfer := []
  /-- HIF_QUARANTINE's tile, HIF_TILE_ACC, the last data a tile window returned, the count of accepted runs (R388). -/
  quarVx  : BitVec 6 := 0
  quarVy  : BitVec 6 := 0
  tileAcc : Status := 0
  tileData : Word := 0
  runCount : BitVec 60 := 0
  /-- The host's memory as the device's DMA finds it; it lies outside the package. -/
  hostMem : SMap Byte := []
deriving DecidableEq, Repr

/-- Why the machine stops with a fault. The spec's own faults stop a pasture and are state; this type holds the model's only one. -/
inductive Fault where
  /-- Raised by no meaning for a well-formed command: a meaning that gets operands that break WellFormed stops with it. Safe: the model stops. -/
  | illFormed
deriving DecidableEq, Repr

/-- Why a command is refused. -/
inductive Refusal where
  /-- The command has no meaning yet; raised by exec's arms only. Safe: the model stops. -/
  | notModelled (mnemonic : String)
deriving DecidableEq, Repr

/-- The package right after reset: a good part of grade LTF-64X, without 48 V. Power good starts its cold bring-up (R404, R486). -/
def State.reset : State := {}

end Sys2Proof.Machine
end

