-- ==== Sys2Proof/Machine/Flits.lean ====
section
/-!
DEFINITION. The flits of control-network messages (R276): two header flits and up to four of payload.
-/
namespace Sys2Proof.Machine

/-- The coordinates of a sender or receiver in a header flit: a station that is no tile has none, and the fields are 0 (assumption 119). -/
def Sender.coords : Sender → Nat × Nat
  | .tile vx vy => (vx, vy)
  | .fn _ | .shepherd => (0, 0)

/-- Header flit 0. -/
def headFlit (kind vx vy : Nat) (chan : BitVec 3) (handler : BitVec 4) (len : Nat) (slot : BitVec 6) : Word :=
  place (BitVec.ofNat 2 kind) 62 ||| place (BitVec.ofNat 6 vx) 56 ||| place (BitVec.ofNat 6 vy) 50 ||| place chan 47 ||| place handler 43
    ||| place (BitVec.ofNat 6 len) 37 ||| place slot 31

/-- Header flit 1. -/
def sourceFlit (src : Sender) (status : Status) : Word :=
  let kind : Nat := match src with
    | .tile _ _ => 0
    | .fn _ => 1
    | .shepherd => 2
  let fn : Nat := match src with
    | .fn f => f.val
    | .tile _ _ | .shepherd => 0
  place (BitVec.ofNat 4 kind) 60 ||| place (BitVec.ofNat 6 (Sender.coords src).1) 54 ||| place (BitVec.ofNat 6 (Sender.coords src).2) 48
    ||| place (BitVec.ofNat 4 fn) 44 ||| place status 28

/-- The payload flits: byte i in flit 2 + i / 8, the last padded with zeros. -/
def payloadFlits (bs : List Byte) : List Word :=
  (List.range (ceilDiv bs.length 8)).map fun i => BitVec.ofNat 64 (leAt bs (8 * i) 8)

/-- The flits of a request: KIND 0b00, or 0b11 for a register access. -/
def Request.flits (r : Request) : List Word :=
  [headFlit (if r.reg then 3 else 0) r.vx r.vy r.chan r.handler r.payload.length r.slot, sourceFlit r.src 0] ++ payloadFlits r.payload

/-- The flits of a reply or a NAK of tile (vx, vy). -/
def answerFlits (nak : Bool) (vx : Vx) (vy : Vy) (dst : Sender) (chan : BitVec 3) (slot : BitVec 6) (status : Status)
    (payload : List Byte) : List Word :=
  [headFlit (if nak then 2 else 1) (Sender.coords dst).1 (Sender.coords dst).2 chan 0 payload.length slot,
    sourceFlit (.tile vx vy) status] ++ payloadFlits payload

/-- The source of a message by its header flit 1; none for a reserved SRC_KIND or a row beyond the grid. -/
def senderOf (w : Word) : Option Sender :=
  match field w 63 60 with
  | 0 => if h : field w 53 48 < 40 then some (.tile ⟨field w 59 54, Nat.mod_lt _ (by decide)⟩ ⟨field w 53 48, h⟩) else none
  | 1 => some (.fn ⟨field w 47 44, Nat.mod_lt _ (by decide)⟩)
  | 2 => some .shepherd
  | _ => none

/-- The request that flits carry; none where they are no request. -/
def Request.ofFlits (ws : List Word) : Option Request :=
  match ws with
  | h :: w :: rest =>
    if field h 63 62 = 1 || field h 63 62 = 2 then none
    else (senderOf w).map fun src =>
      { reg := decide (field h 63 62 = 3), src := src, vx := field h 61 56, vy := field h 55 50, chan := BitVec.ofNat 3 (field h 49 47),
        handler := BitVec.ofNat 4 (field h 46 43), slot := BitVec.ofNat 6 (field h 36 31),
        payload := (rest.flatMap fun x => bytesOf 8 x.toNat).take (field h 42 37) }
  | _ => none

end Sys2Proof.Machine
end

