-- ==== Sys2Proof/Machine/Status.lean ====
section
/-!
DEFINITION. The status codes (R18, R135, R164, R183, R224, R245, R270, R298, R321, R340, R375, R403, R430, R445, R468,
R485, R502), each under its own name.
-/
namespace Sys2Proof.St

/-- ST_OK (R18). -/
def OK : Status := 0x0000#16

/-- ST_HOST_BIN_FORMAT. -/
def HOST_BIN_FORMAT : Status := 0x0101#16

/-- ST_HOST_BIN_DIGEST. -/
def HOST_BIN_DIGEST : Status := 0x0102#16

/-- ST_HOST_BIN_SIGNATURE. -/
def HOST_BIN_SIGNATURE : Status := 0x0103#16

/-- ST_HOST_GRID. -/
def HOST_GRID : Status := 0x0104#16

/-- ST_HOST_GEOMETRY. -/
def HOST_GEOMETRY : Status := 0x0105#16

/-- ST_HOST_CHART. -/
def HOST_CHART : Status := 0x0106#16

/-- ST_HOST_LTV_UNSUPPORTED. -/
def HOST_LTV_UNSUPPORTED : Status := 0x0107#16

/-- ST_HOST_WEIGHTS. -/
def HOST_WEIGHTS : Status := 0x0108#16

/-- ST_HOST_SECTION. -/
def HOST_SECTION : Status := 0x0109#16

/-- ST_HOST_ALLOC. -/
def HOST_ALLOC : Status := 0x010A#16

/-- ST_HOST_RELOC. -/
def HOST_RELOC : Status := 0x010B#16

/-- ST_HOST_DESC. -/
def HOST_DESC : Status := 0x010C#16

/-- ST_HOST_CHART_LATENCY. -/
def HOST_CHART_LATENCY : Status := 0x010D#16

/-- ST_HOST_HANDLER. -/
def HOST_HANDLER : Status := 0x010E#16

/-- ST_HOST_ENTRY. -/
def HOST_ENTRY : Status := 0x010F#16

/-- ST_HOST_FOLDS. -/
def HOST_FOLDS : Status := 0x0110#16

/-- ST_HOST_PASTURE_BUSY. -/
def HOST_PASTURE_BUSY : Status := 0x0111#16

/-- ST_HOST_LOAD_ABORTED. -/
def HOST_LOAD_ABORTED : Status := 0x0112#16

/-- ST_HOST_BEATS_EXCEEDED. -/
def HOST_BEATS_EXCEEDED : Status := 0x0113#16

/-- ST_HOST_ENTRY_FORMAT. -/
def HOST_ENTRY_FORMAT : Status := 0x0120#16

/-- ST_HOST_NOT_PERMITTED. -/
def HOST_NOT_PERMITTED : Status := 0x0121#16

/-- ST_HOST_DMA. -/
def HOST_DMA : Status := 0x0122#16

/-- ST_HOST_ADM_LIMIT. -/
def HOST_ADM_LIMIT : Status := 0x0130#16

/-- ST_HOST_NOT_LOADED. -/
def HOST_NOT_LOADED : Status := 0x0131#16

/-- ST_HOST_NO_ENTRY. -/
def HOST_NO_ENTRY : Status := 0x0132#16

/-- ST_HOST_QUEUE_FULL. -/
def HOST_QUEUE_FULL : Status := 0x0133#16

/-- ST_HOST_PASTURE_STOPPED. -/
def HOST_PASTURE_STOPPED : Status := 0x0134#16

/-- ST_HOST_NOT_ENABLED. -/
def HOST_NOT_ENABLED : Status := 0x0135#16

/-- ST_HOST_IO_RANGE. -/
def HOST_IO_RANGE : Status := 0x0136#16

/-- ST_HOST_RUN_FAILED. -/
def HOST_RUN_FAILED : Status := 0x0140#16

/-- ST_HOST_BREACH. -/
def HOST_BREACH : Status := 0x0141#16

/-- ST_HOST_ABORTED. -/
def HOST_ABORTED : Status := 0x0142#16

/-- ST_HOST_NOTHING_TO_ABORT. -/
def HOST_NOTHING_TO_ABORT : Status := 0x0143#16

/-- ST_HOST_NO_SUCH_RUN. -/
def HOST_NO_SUCH_RUN : Status := 0x0144#16

/-- ST_HOST_BREACH_STALL. -/
def HOST_BREACH_STALL : Status := 0x0145#16

/-- ST_HOST_BREACH_HOST. -/
def HOST_BREACH_HOST : Status := 0x0146#16

/-- ST_HOST_BREACH_AHEAD. -/
def HOST_BREACH_AHEAD : Status := 0x0147#16

/-- ST_HOST_RESET. -/
def HOST_RESET : Status := 0x0148#16

/-- ST_HOST_QUARANTINE. -/
def HOST_QUARANTINE : Status := 0x0149#16

/-- ST_HOST_NOTHING_TO_CANCEL. -/
def HOST_NOTHING_TO_CANCEL : Status := 0x014A#16

/-- ST_HOST_GEOM_INVALID. -/
def HOST_GEOM_INVALID : Status := 0x0150#16

/-- ST_HOST_GEOM_OVERLAP. -/
def HOST_GEOM_OVERLAP : Status := 0x0151#16

/-- ST_HOST_QOS_BUSY. -/
def HOST_QOS_BUSY : Status := 0x0152#16

/-- ST_SEQ_OPCODE. -/
def SEQ_OPCODE : Status := 0x0201#16

/-- ST_SEQ_CONFIG. -/
def SEQ_CONFIG : Status := 0x0202#16

/-- ST_SEQ_ISSUE_ORDER. -/
def SEQ_ISSUE_ORDER : Status := 0x0203#16

/-- ST_SEQ_DESC_PARITY. -/
def SEQ_DESC_PARITY : Status := 0x0204#16

/-- ST_SEQ_LOAD_INCOMPLETE. -/
def SEQ_LOAD_INCOMPLETE : Status := 0x0205#16

/-- ST_SEQ_LOAD_OVERLAP. -/
def SEQ_LOAD_OVERLAP : Status := 0x0206#16

/-- ST_SEQ_UNIT_ABSENT. -/
def SEQ_UNIT_ABSENT : Status := 0x0207#16

/-- ST_SEQ_UNIT_BUSY. -/
def SEQ_UNIT_BUSY : Status := 0x0208#16

/-- ST_SEQ_LOOP_DEPTH. -/
def SEQ_LOOP_DEPTH : Status := 0x0210#16

/-- ST_SEQ_LOOP_EMPTY. -/
def SEQ_LOOP_EMPTY : Status := 0x0211#16

/-- ST_SEQ_LOOP_MATCH. -/
def SEQ_LOOP_MATCH : Status := 0x0212#16

/-- ST_SEQ_OVERLAY_PENDING. -/
def SEQ_OVERLAY_PENDING : Status := 0x0220#16

/-- ST_SEQ_INDEX_RANGE. -/
def SEQ_INDEX_RANGE : Status := 0x0230#16

/-- ST_SEQ_LANDING_ADDR. -/
def SEQ_LANDING_ADDR : Status := 0x0231#16

/-- ST_SEQ_STALL_TIMEOUT. -/
def SEQ_STALL_TIMEOUT : Status := 0x0240#16

/-- ST_SPD_BANK_COLLISION. -/
def SPD_BANK_COLLISION : Status := 0x0301#16

/-- ST_SPD_WRITE_PROTECT. -/
def SPD_WRITE_PROTECT : Status := 0x0302#16

/-- ST_SPD_ECC_UNCORR. -/
def SPD_ECC_UNCORR : Status := 0x0303#16

/-- ST_SPD_TALLY_MISS. -/
def SPD_TALLY_MISS : Status := 0x0304#16

/-- ST_SPD_PORT_RANGE. -/
def SPD_PORT_RANGE : Status := 0x0305#16

/-- ST_SPD_ADDR_RANGE. -/
def SPD_ADDR_RANGE : Status := 0x0307#16

/-- ST_SPD_HASH_MODE. -/
def SPD_HASH_MODE : Status := 0x0308#16

/-- ST_SPD_ECC_CE_THRESH. -/
def SPD_ECC_CE_THRESH : Status := 0x0310#16

/-- ST_MXU_BUSY. -/
def MXU_BUSY : Status := 0x0401#16

/-- ST_MXU_ACC_RANGE. -/
def MXU_ACC_RANGE : Status := 0x0402#16

/-- ST_MXU_ACC_CONFLICT. -/
def MXU_ACC_CONFLICT : Status := 0x0403#16

/-- ST_MXU_FORMAT_PAIR. -/
def MXU_FORMAT_PAIR : Status := 0x0410#16

/-- ST_MXU_BLOCK_ALIGN. -/
def MXU_BLOCK_ALIGN : Status := 0x0411#16

/-- ST_MXU_STRAY_MAP. -/
def MXU_STRAY_MAP : Status := 0x0412#16

/-- ST_MXU_STRAY_MODE. -/
def MXU_STRAY_MODE : Status := 0x0413#16

/-- ST_MXU_TRANSPOSE_SCALE. -/
def MXU_TRANSPOSE_SCALE : Status := 0x0414#16

/-- ST_MXU_CONFIG. -/
def MXU_CONFIG : Status := 0x0415#16

/-- ST_VXU_BUSY. -/
def VXU_BUSY : Status := 0x0501#16

/-- ST_VXU_FORMAT. -/
def VXU_FORMAT : Status := 0x0510#16

/-- ST_VXU_CONFIG. -/
def VXU_CONFIG : Status := 0x0515#16

/-- ST_DNW_ORPHAN. -/
def DNW_ORPHAN : Status := 0x0601#16

/-- ST_DNW_EMPTY. -/
def DNW_EMPTY : Status := 0x0602#16

/-- ST_DNW_CHUNK_SIZE. -/
def DNW_CHUNK_SIZE : Status := 0x0603#16

/-- ST_DNW_LINK_PARITY. -/
def DNW_LINK_PARITY : Status := 0x0604#16

/-- ST_DNW_PORT_DISABLED. -/
def DNW_PORT_DISABLED : Status := 0x0610#16

/-- ST_CNW_READER_RESET. -/
def CNW_READER_RESET : Status := 0x0701#16

/-- ST_CNW_CHANNEL_CLOSED. -/
def CNW_CHANNEL_CLOSED : Status := 0x0702#16

/-- ST_CNW_NOT_PERMITTED. -/
def CNW_NOT_PERMITTED : Status := 0x0703#16

/-- ST_CNW_NO_TILE. -/
def CNW_NO_TILE : Status := 0x0704#16

/-- ST_CNW_NO_REPLY_SLOT. -/
def CNW_NO_REPLY_SLOT : Status := 0x0705#16

/-- ST_CNW_HANDLER_EMPTY. -/
def CNW_HANDLER_EMPTY : Status := 0x0706#16

/-- ST_CNW_SEND_CANCELLED. -/
def CNW_SEND_CANCELLED : Status := 0x0707#16

/-- ST_CNW_ACTION_ALIGN. -/
def CNW_ACTION_ALIGN : Status := 0x0708#16

/-- ST_CNW_NO_REGISTER. -/
def CNW_NO_REGISTER : Status := 0x0709#16

/-- ST_CNW_ACTION_INVALID. -/
def CNW_ACTION_INVALID : Status := 0x070A#16

/-- ST_CNW_SEND_BLOCKED. -/
def CNW_SEND_BLOCKED : Status := 0x0710#16

/-- ST_CNW_FOLD_MAP. -/
def CNW_FOLD_MAP : Status := 0x0720#16

/-- ST_CNW_FOLD_MEMBER. -/
def CNW_FOLD_MEMBER : Status := 0x0721#16

/-- ST_CNW_FOLD_OP. -/
def CNW_FOLD_OP : Status := 0x0722#16

/-- ST_CNW_FOLD_RESULT. -/
def CNW_FOLD_RESULT : Status := 0x0723#16

/-- ST_CNW_NO_BELLWETHER. -/
def CNW_NO_BELLWETHER : Status := 0x0730#16

/-- ST_CNW_LINK_FAIL. -/
def CNW_LINK_FAIL : Status := 0x0740#16

/-- ST_CNW_RING_FAIL. -/
def CNW_RING_FAIL : Status := 0x0741#16

/-- ST_STACK_WINDOW. -/
def STACK_WINDOW : Status := 0x0801#16

/-- ST_STACK_BANK_BUSY. -/
def STACK_BANK_BUSY : Status := 0x0802#16

/-- ST_STACK_ECC_UNCORR. -/
def STACK_ECC_UNCORR : Status := 0x0803#16

/-- ST_STACK_WRITE_FAIL. -/
def STACK_WRITE_FAIL : Status := 0x0804#16

/-- ST_STACK_GROUP_XFER. -/
def STACK_GROUP_XFER : Status := 0x0805#16

/-- ST_STACK_ECC_CE_THRESH. -/
def STACK_ECC_CE_THRESH : Status := 0x0810#16

/-- ST_STACK_SCRUB_UNCORR. -/
def STACK_SCRUB_UNCORR : Status := 0x0811#16

/-- ST_STACK_OWN_BUSY. -/
def STACK_OWN_BUSY : Status := 0x0812#16

/-- ST_STACK_WATCH_CONFLICT. -/
def STACK_WATCH_CONFLICT : Status := 0x0820#16

/-- ST_STACK_XFER_LINK. -/
def STACK_XFER_LINK : Status := 0x0830#16

/-- ST_STACK_XFER_CRC. -/
def STACK_XFER_CRC : Status := 0x0831#16

/-- ST_STACK_XFER_ABORTED. -/
def STACK_XFER_ABORTED : Status := 0x0832#16

/-- ST_STACK_XFER_RANGE. -/
def STACK_XFER_RANGE : Status := 0x0833#16

/-- ST_LNK_TRAIN_FAIL. -/
def LNK_TRAIN_FAIL : Status := 0x0901#16

/-- ST_LNK_WIDTH_DEGRADED. -/
def LNK_WIDTH_DEGRADED : Status := 0x0902#16

/-- ST_LNK_DOWN. -/
def LNK_DOWN : Status := 0x0903#16

/-- ST_LNK_REPLAY_LIMIT. -/
def LNK_REPLAY_LIMIT : Status := 0x0904#16

/-- ST_LNK_BUFFER_UNCORR. -/
def LNK_BUFFER_UNCORR : Status := 0x0905#16

/-- ST_LNK_SWAPPED. -/
def LNK_SWAPPED : Status := 0x0910#16

/-- ST_LNK_PEER_MISMATCH. -/
def LNK_PEER_MISMATCH : Status := 0x0911#16

/-- ST_LNK_VERSION. -/
def LNK_VERSION : Status := 0x0912#16

/-- ST_LNK_EXTRA. -/
def LNK_EXTRA : Status := 0x0913#16

/-- ST_LNK_MISSING_REQUIRED. -/
def LNK_MISSING_REQUIRED : Status := 0x0914#16

/-- ST_LNK_MISSING_OPTIONAL. -/
def LNK_MISSING_OPTIONAL : Status := 0x0915#16

/-- ST_LNK_NARROW. -/
def LNK_NARROW : Status := 0x0916#16

/-- ST_LNK_FLOCK_DIGEST. -/
def LNK_FLOCK_DIGEST : Status := 0x0917#16

/-- ST_LNK_PLAN_FORMAT. -/
def LNK_PLAN_FORMAT : Status := 0x0920#16

/-- ST_LNK_PLAN_SERIAL. -/
def LNK_PLAN_SERIAL : Status := 0x0921#16

/-- ST_LNK_PLAN_PORT. -/
def LNK_PLAN_PORT : Status := 0x0922#16

/-- ST_LNK_PLAN_BUSY. -/
def LNK_PLAN_BUSY : Status := 0x0923#16

/-- ST_LNK_LPORT_BUSY. -/
def LNK_LPORT_BUSY : Status := 0x0924#16

/-- ST_FAB_CREDIT_OVERRUN. -/
def FAB_CREDIT_OVERRUN : Status := 0x0A01#16

/-- ST_FAB_HOP_OVERRUN. -/
def FAB_HOP_OVERRUN : Status := 0x0A02#16

/-- ST_FAB_NO_ROUTE. -/
def FAB_NO_ROUTE : Status := 0x0A03#16

/-- ST_FAB_HOPS_EXPIRED. -/
def FAB_HOPS_EXPIRED : Status := 0x0A04#16

/-- ST_FAB_ROUTE_LOST. -/
def FAB_ROUTE_LOST : Status := 0x0A05#16

/-- ST_FAB_ORDER_BREAK. -/
def FAB_ORDER_BREAK : Status := 0x0A06#16

/-- ST_FAB_E2E_CRC. -/
def FAB_E2E_CRC : Status := 0x0A07#16

/-- ST_FAB_TABLE_PARITY. -/
def FAB_TABLE_PARITY : Status := 0x0A08#16

/-- ST_FAB_WIN_CLOSED. -/
def FAB_WIN_CLOSED : Status := 0x0A10#16

/-- ST_FAB_TARGET_RESETTING. -/
def FAB_TARGET_RESETTING : Status := 0x0A11#16

/-- ST_FAB_WIN_RANK. -/
def FAB_WIN_RANK : Status := 0x0A12#16

/-- ST_FAB_WIN_BOUNDS. -/
def FAB_WIN_BOUNDS : Status := 0x0A13#16

/-- ST_FAB_WIN_XFER. -/
def FAB_WIN_XFER : Status := 0x0A14#16

/-- ST_FAB_NO_PASTURE. -/
def FAB_NO_PASTURE : Status := 0x0A15#16

/-- ST_FAB_WIN_BUSY. -/
def FAB_WIN_BUSY : Status := 0x0A16#16

/-- ST_FAB_FENCED. -/
def FAB_FENCED : Status := 0x0A17#16

/-- ST_FAB_WIN_REOPEN. -/
def FAB_WIN_REOPEN : Status := 0x0A18#16

/-- ST_FAB_WIN_RANGE. -/
def FAB_WIN_RANGE : Status := 0x0A19#16

/-- ST_FAB_WIN_NOT_OPEN. -/
def FAB_WIN_NOT_OPEN : Status := 0x0A1A#16

/-- ST_FAB_WPT_LATE. -/
def FAB_WPT_LATE : Status := 0x0A20#16

/-- ST_FAB_WPT_TIMEOUT. -/
def FAB_WPT_TIMEOUT : Status := 0x0A21#16

/-- ST_FAB_WPT_UNDECLARED. -/
def FAB_WPT_UNDECLARED : Status := 0x0A22#16

/-- ST_FAB_DROVE_CREDIT. -/
def FAB_DROVE_CREDIT : Status := 0x0A30#16

/-- ST_FAB_DROVE_PARTIAL. -/
def FAB_DROVE_PARTIAL : Status := 0x0A31#16

/-- ST_FAB_SEND_FAIL. -/
def FAB_SEND_FAIL : Status := 0x0A38#16

/-- ST_FAB_DONE_TIMEOUT. -/
def FAB_DONE_TIMEOUT : Status := 0x0A39#16

/-- ST_FAB_FLOCK_START. -/
def FAB_FLOCK_START : Status := 0x0A40#16

/-- ST_FAB_FLOCK_BUSY. -/
def FAB_FLOCK_BUSY : Status := 0x0A41#16

/-- ST_FAB_NO_FLOCK. -/
def FAB_NO_FLOCK : Status := 0x0A42#16

/-- ST_FAB_ROUTE_LPORT. -/
def FAB_ROUTE_LPORT : Status := 0x0A43#16

/-- ST_FAB_ORD_OVERCOMMIT. -/
def FAB_ORD_OVERCOMMIT : Status := 0x0A44#16

/-- ST_BOOT_FUSE. -/
def BOOT_FUSE : Status := 0x0B02#16

/-- ST_BOOT_SLOT_BAD. -/
def BOOT_SLOT_BAD : Status := 0x0B03#16

/-- ST_BOOT_FLASH_INVALID. -/
def BOOT_FLASH_INVALID : Status := 0x0B04#16

/-- ST_BOOT_STACK_TRAIN. -/
def BOOT_STACK_TRAIN : Status := 0x0B10#16

/-- ST_BOOT_FW_REGION. -/
def BOOT_FW_REGION : Status := 0x0B11#16

/-- ST_BOOT_WAVE. -/
def BOOT_WAVE : Status := 0x0B20#16

/-- ST_BOOT_BIST_NEW. -/
def BOOT_BIST_NEW : Status := 0x0B30#16

/-- ST_BOOT_FDR_FULL. -/
def BOOT_FDR_FULL : Status := 0x0B31#16

/-- ST_BOOT_BELOW_GRADE. -/
def BOOT_BELOW_GRADE : Status := 0x0B40#16

/-- ST_BOOT_MGMT_ONLY. -/
def BOOT_MGMT_ONLY : Status := 0x0B41#16

/-- ST_BOOT_PORT_FAILED. -/
def BOOT_PORT_FAILED : Status := 0x0B42#16

/-- ST_BOOT_TILE_FW. -/
def BOOT_TILE_FW : Status := 0x0B50#16

/-- ST_BOOT_STEP_ORDER. -/
def BOOT_STEP_ORDER : Status := 0x0B60#16

/-- ST_BOOT_SELFTEST_BUSY. -/
def BOOT_SELFTEST_BUSY : Status := 0x0B70#16

/-- ST_BOOT_SELFTEST_FAIL. -/
def BOOT_SELFTEST_FAIL : Status := 0x0B71#16

/-- ST_BOOT_SHEPHERD_RESTART. -/
def BOOT_SHEPHERD_RESTART : Status := 0x0B72#16

/-- ST_SEC_ENVELOPE. -/
def SEC_ENVELOPE : Status := 0x0C01#16

/-- ST_SEC_RECIPIENT. -/
def SEC_RECIPIENT : Status := 0x0C02#16

/-- ST_SEC_UNWRAP. -/
def SEC_UNWRAP : Status := 0x0C03#16

/-- ST_SEC_DECRYPT. -/
def SEC_DECRYPT : Status := 0x0C04#16

/-- ST_SEC_CMD_FORMAT. -/
def SEC_CMD_FORMAT : Status := 0x0C10#16

/-- ST_SEC_CMD_SIGNATURE. -/
def SEC_CMD_SIGNATURE : Status := 0x0C11#16

/-- ST_SEC_CMD_SEQ. -/
def SEC_CMD_SEQ : Status := 0x0C12#16

/-- ST_SEC_NOT_OWNED. -/
def SEC_NOT_OWNED : Status := 0x0C13#16

/-- ST_SEC_OWNED. -/
def SEC_OWNED : Status := 0x0C14#16

/-- ST_SEC_CHALLENGE. -/
def SEC_CHALLENGE : Status := 0x0C15#16

/-- ST_SEC_NO_RECORD. -/
def SEC_NO_RECORD : Status := 0x0C16#16

/-- ST_SEC_COMMIT_SOURCE. -/
def SEC_COMMIT_SOURCE : Status := 0x0C21#16

/-- ST_SEC_FLASH. -/
def SEC_FLASH : Status := 0x0C31#16

/-- ST_MGT_UNKNOWN. -/
def MGT_UNKNOWN : Status := 0x0D01#16

/-- ST_MGT_READ_ONLY. -/
def MGT_READ_ONLY : Status := 0x0D02#16

/-- ST_MGT_RANGE. -/
def MGT_RANGE : Status := 0x0D03#16

/-- ST_MGT_TYPE. -/
def MGT_TYPE : Status := 0x0D04#16

/-- ST_MGT_FORMAT. -/
def MGT_FORMAT : Status := 0x0D05#16

/-- ST_MGT_PERSIST_FAIL. -/
def MGT_PERSIST_FAIL : Status := 0x0D10#16

/-- ST_MGT_LINE_SHORT. -/
def MGT_LINE_SHORT : Status := 0x0D20#16

/-- ST_MGT_LINE_OPEN. -/
def MGT_LINE_OPEN : Status := 0x0D21#16

/-- ST_MGT_LINE_REVERSED. -/
def MGT_LINE_REVERSED : Status := 0x0D22#16

/-- ST_MGT_NODE_CONFLICT. -/
def MGT_NODE_CONFLICT : Status := 0x0D23#16

/-- ST_PWR_HALF_IN_USE. -/
def PWR_HALF_IN_USE : Status := 0x0E10#16

/-- ST_PWR_HALF_PARKED. -/
def PWR_HALF_PARKED : Status := 0x0E11#16

/-- ST_PWR_FLOOR_BREACH. -/
def PWR_FLOOR_BREACH : Status := 0x0E20#16

/-- ST_PWR_CAP_AT_FLOOR. -/
def PWR_CAP_AT_FLOOR : Status := 0x0E21#16

/-- ST_PWR_THERMAL_THROTTLE. -/
def PWR_THERMAL_THROTTLE : Status := 0x0E30#16

/-- ST_PWR_STACK_HOT. -/
def PWR_STACK_HOT : Status := 0x0E31#16

/-- ST_PWR_STACK_OVERTEMP. -/
def PWR_STACK_OVERTEMP : Status := 0x0E32#16

/-- ST_PWR_THERMTRIP. -/
def PWR_THERMTRIP : Status := 0x0E33#16

/-- ST_PWR_INPUT_REVERSED. -/
def PWR_INPUT_REVERSED : Status := 0x0E40#16

/-- ST_PWR_INPUT_OVERCURRENT. -/
def PWR_INPUT_OVERCURRENT : Status := 0x0E41#16

/-- ST_PWR_EFUSE_TRIP. -/
def PWR_EFUSE_TRIP : Status := 0x0E42#16

/-- ST_PWR_INPUT_LOW. -/
def PWR_INPUT_LOW : Status := 0x0E43#16

/-- ST_PWR_INPUT_HIGH. -/
def PWR_INPUT_HIGH : Status := 0x0E44#16

end Sys2Proof.St
end

