-- ==== Sys2Proof/Machine/Ops.lean ====
section
/-!
DEFINITION. The named operations every command is written over: access to the parts of the state, geometry, free values, host
memory, event log, vectors, completions, stamps, and the stop of a pasture.
-/
namespace Sys2Proof.Machine

/-- The outcome of a command. -/
abbrev Out := Host.Outcome State Fault Refusal

/-- A nanosecond in the model's unit of time, the picosecond (assumption 3). -/
def nsT : Nat := 1000
/-- A microsecond. -/
def usT : Nat := 1000000
/-- A millisecond. -/
def msT : Nat := 1000000000

/-! ## Parts of the state -/

/-- The virtual tile with a key. -/
def State.tile (s : State) (k : Nat) : Tile := smapGet {} s.tiles k
/-- Replace a tile. -/
def State.putTile (s : State) (k : Nat) (t : Tile) : State := { s with tiles := smapPut s.tiles k t }
/-- Change a tile. -/
def State.modTile (s : State) (k : Nat) (f : Tile → Tile) : State := s.putTile k (f (s.tile k))

/-- Pasture p. -/
def State.pasture (s : State) (p : Nat) : Pasture := smapGet {} s.pas p
/-- Replace a pasture. -/
def State.putPas (s : State) (p : Nat) (x : Pasture) : State := { s with pas := smapPut s.pas p x }
/-- Change a pasture. -/
def State.modPas (s : State) (p : Nat) (f : Pasture → Pasture) : State := s.putPas p (f (s.pasture p))

/-- Function n: PF0 or VFn. -/
def State.func (s : State) (n : Nat) : Fn := smapGet {} s.fns n
/-- Replace a function. -/
def State.putFn (s : State) (n : Nat) (x : Fn) : State := { s with fns := smapPut s.fns n x }
/-- Change a function. -/
def State.modFn (s : State) (n : Nat) (f : Fn → Fn) : State := s.putFn n (f (s.func n))

/-- Stack k: N0 to N3, then S0 to S3. -/
def State.stack (s : State) (k : Nat) : Stack := smapGet {} s.stks k
/-- Replace a stack. -/
def State.putStack (s : State) (k : Nat) (x : Stack) : State := { s with stks := smapPut s.stks k x }
/-- Change a stack. -/
def State.modStack (s : State) (k : Nat) (f : Stack → Stack) : State := s.putStack k (f (s.stack k))

/-- Package fold f. -/
def State.foldAt (s : State) (k : Nat) : Fold := smapGet {} s.folds k
/-- Replace a fold. -/
def State.putFold (s : State) (k : Nat) (x : Fold) : State := { s with folds := smapPut s.folds k x }

/-- Whether a link port exists in the grade (R26): LTF-56 fuses off FL7, FL8, FL16 and FL17. -/
def Grade.hasPort (g : Grade) (n : Nat) : Bool :=
  match g with
  | .ltf56 => !(n = 7 || n = 8 || n = 16 || n = 17)
  | .ltf64x | .ltf64 => true

/-- Link port n. -/
def State.port (s : State) (k : Nat) : Port :=
  smapGet (if s.facts.grade.hasPort k then {} else { state := .off, disable := true }) s.ports k
/-- Replace a port. -/
def State.putPort (s : State) (k : Nat) (x : Port) : State := { s with ports := smapPut s.ports k x }
/-- Change a port. -/
def State.modPort (s : State) (k : Nat) (f : Port → Port) : State := s.putPort k (f (s.port k))

/-- Draw the next free value (assumption 4). -/
def State.draw (s : State) : Nat × State := (Config.free s.fresh, { s with fresh := s.fresh + 1 })

/-! ## Grades and geometry -/

/-- The beat floor of a grade in Mbeat/s (R3). -/
def Grade.floor : Grade → Nat
  | .ltf64x => 1500
  | .ltf64 | .ltf56 => 1300

/-- The power cap of a grade in W (R3). -/
def Grade.cap : Grade → Nat
  | .ltf64x => 4000
  | .ltf64 => 3400
  | .ltf56 => 3000

/-- The STEPPING code of R332. -/
def Stepping.code : Stepping → Nat
  | .a1 => 1
  | .b0 => 2

/-- The presented grid's column count: 64, 56, or 0 in management-only mode. -/
def State.gridW (s : State) : Nat := s.boot.gridW

/-- The virtual column of a tile key. -/
def keyVx (k : Nat) : Nat := k % 64
/-- The virtual row of a tile key. -/
def keyVy (k : Nat) : Nat := k / 64

/-- Whether a virtual column lies in the west half (R23). -/
def State.isWest (s : State) (vx : Nat) : Bool := vx < s.gridW / 2

/-- The half of a virtual column (R23). -/
def State.halfOf (s : State) (vx : Nat) : Half := if s.isWest vx then .west else .east

/-- A half's register. -/
def State.half (s : State) : Half → HalfReg
  | .west => s.west
  | .east => s.east

/-- Replace a half's register. -/
def State.putHalf (s : State) (h : Half) (x : HalfReg) : State :=
  match h with
  | .west => { s with west := x }
  | .east => { s with east := x }

/-- A half that is not live counts as parked (R63). -/
def State.parked (s : State) (h : Half) : Bool := decide ((s.half h).state ≠ .live)

/-- Whether pasture p is enabled and holds virtual column vx. -/
def State.holdsCol (s : State) (p vx : Nat) : Bool :=
  let x := s.pasture p
  x.enable && x.col0.toNat ≤ vx && vx < x.col0.toNat + x.width.toNat

/-- The pasture that holds a virtual column. -/
def State.pasOf (s : State) (vx : Nat) : Option Nat := (List.range 16).find? (s.holdsCol · vx)

/-- The columns of pasture p. -/
def State.cols (s : State) (p : Nat) : List Nat :=
  (List.range (s.pasture p).width.toNat).map (· + (s.pasture p).col0.toNat)

/-- The keys of pasture p's tiles, row by row. -/
def State.tilesOf (s : State) (p : Nat) : List Nat :=
  (List.range 40).flatMap fun vy => (s.cols p).map fun vx => tileKey vx vy

/-- Whether pasture p has a column in a half. -/
def State.usesHalf (s : State) (p : Nat) (h : Half) : Bool := (s.cols p).any fun vx => decide (s.halfOf vx = h)

/-- The key of pasture p's bellwether (R294): the tile CNW_PAS_CFG names, or tile (vx₀, 39) while it names none of the pasture
(assumption 44). -/
def State.bellwether (s : State) (p : Nat) : Nat :=
  let x := s.pasture p
  if s.holdsCol p x.bwVx.toNat && decide (x.bwVy.toNat < 40) then tileKey x.bwVx.toNat x.bwVy.toNat else tileKey x.col0.toNat 39

/-- Whether a tile is an edge tile (R24). -/
def State.isEdge (s : State) (vx vy : Nat) : Bool := vy = 0 || vy = 39 || vx = 0 || vx + 1 = s.gridW

/-! ## Injection into the control network (R275) -/

/-- Inject n flits of class REQ or FF of pasture p: the time they go, none where the limit is 0, and the pasture with its next time noted.
How many flits an FF packet has the spec does not say; the model takes one (assumption 119). -/
def State.inject (s : State) (p : Nat) (ff : Bool) (n : Nat) : Option Nat × State :=
  let x := s.pasture p
  let rate := (if ff then x.ffRate else x.reqRate).toNat
  let at_ := max s.now (if ff then x.ffNext else x.reqNext)
  let next := at_ + n * usT / rate
  if rate = 0 then (none, s)
  else (some at_, s.modPas p fun x => if ff then { x with ffNext := next } else { x with reqNext := next })

/-- The pasture whose limit a packet is under, whether it is of class FF, and its flits: those that a tile injects (R275). -/
def State.limitOf (s : State) : Packet → Option (Nat × Bool × Nat)
  | .request r => match r.src with
    | .tile vx _ => (s.pasOf vx.val).map fun p => (p, false, r.flits.length)
    | .fn _ | .shepherd => none
  | .foldIn p _ _ _ _ _ | .foldOut p _ _ _ _ | .flag p _ _ (some _) | .flagWait p _ _ _ | .flagRelease p _ _ | .halt p _ _
  | .winWait p _ _ _ _ _ | .winRelease p _ _ => some (p, true, 1)
  | .reply _ _ _ _ _ _ | .nak _ _ _ _ _ | .full _ _ | .space _ _ | .flag _ _ _ none | .landed _ _ _ _ _ _ => none

/-- Send a packet at a time. -/
def State.sendAt (s : State) (ready : Option Nat) (p : Packet) : State := { s with net := s.net ++ [{ ready := ready, pkt := p }] }

/-- Send a packet: now, or where its pasture's limit holds it back, when that lets it go. -/
def State.send (s : State) (p : Packet) : State :=
  match s.limitOf p with
  | none => s.sendAt (some s.now) p
  | some (q, ff, n) => (s.inject q ff n).2.sendAt (s.inject q ff n).1 p

/-- Packets that waited while their pasture's limit was 0 are injected once it is not. -/
def State.injectWaiting (s : State) : State :=
  if s.net.all fun e => e.ready.isSome then s
  else s.net.foldl (fun s e => if e.ready.isNone then s.send e.pkt else { s with net := s.net ++ [e] }) { s with net := [] }

/-- A tile's neighbour in a direction, or none where it is absent (R43): off the grid, outside the pasture, or across a
parked half seam. The Bool says whether the hop crosses the half seam. -/
def State.neighbour (s : State) (k : Nat) (d : Dir) : Option (Nat × Bool) :=
  let vx := keyVx k
  let vy := keyVy k
  let seam := s.gridW / 2
  match d with
  | .north => if vy = 0 then none else some (tileKey vx (vy - 1), false)
  | .south => if vy ≥ 39 then none else some (tileKey vx (vy + 1), false)
  | .east =>
    if vx + 1 ≥ s.gridW || s.pasOf (vx + 1) ≠ s.pasOf vx then none
    else if vx + 1 = seam then (if s.parked .east then none else some (tileKey (vx + 1) vy, true))
    else some (tileKey (vx + 1) vy, false)
  | .west =>
    if vx = 0 || s.pasOf (vx - 1) ≠ s.pasOf vx then none
    else if vx = seam then (if s.parked .west then none else some (tileKey (vx - 1) vy, true))
    else some (tileKey (vx - 1) vy, false)

/-- The log of pasture p (R65): the beat in progress at its bellwether. -/
def State.logOf (s : State) (p : Nat) : Nat := (s.tile (s.bellwether p)).beat

/-- Whether a log value lies in a watch (R67). -/
def inWatch (log : Nat) : Bool := log % 4096 < 64

/-- Whether pasture p has a run that was started and whose completion is not recorded. -/
def Pasture.running (x : Pasture) : Bool := x.runs.any fun r => decide (r.stage = .running)

/-- A run has reached its first beat. -/
def State.started (s : State) (p : Nat) (r : Run) : Bool := decide (r.stage = .running) && decide (r.first ≤ s.logOf p)

/-- Whether pasture p has a run between its first beat and its recorded completion. -/
def State.begun (s : State) (p : Nat) : Bool := (s.pasture p).runs.any (s.started p)

/-! ## Pace, tokens and holds (R43, R46, R55, R66, R73) -/

/-- The pace gate's limit in Mbeat/s: the limit in force during a run, the grade floor between runs (R55, R66). -/
def State.paceOf (s : State) (p : Nat) : Nat :=
  if s.begun p then (s.pasture p).paceInForce.toNat else s.facts.grade.floor

/-- The gate period 1/P of a pasture. -/
def State.gatePeriod (s : State) (p : Nat) : Nat := usT / max 1 (s.paceOf p)

/-- A landing due at the beat in progress whose data has not come (R46, R59). -/
def Tile.lateDue (t : Tile) : Bool := t.landings.any fun l => decide (l.due = t.beat) && decide (l.arrival ≠ .ready)

/-- The units that hold a tile's beat, late data included. -/
def Tile.holding (t : Tile) : List Hold := t.holds ++ (if t.lateDue then [.data] else [])

/-- The four directions. -/
def allDirs : List Dir := [.north, .east, .south, .west]

/-- The tile holds the output tokens it needs of its neighbours. -/
def State.tokensHeld (s : State) (k : Nat) : Bool :=
  let b := (s.tile k).beat
  allDirs.all fun d => match s.neighbour k d with
    | none => true
    | some (nk, seam) => if seam then decide (b ≤ (s.tile nk).beat + 1) else decide (b ≤ (s.tile nk).beat)

/-- The bellwether is stopped by a hold or a stall wave (STALLED of R73): its pace gate is open, and something else holds its beat. -/
def State.stalled (s : State) (p : Nat) : Bool :=
  let k := s.bellwether p
  (s.pasture p).beating && (s.tile k).gateOpen && (!(s.tile k).holding.isEmpty || !s.tokensHeld k)

/-- The time for which the bellwether has been stopped in its beat in progress: since its gate opened (R73). -/
def State.stallNow (s : State) (p : Nat) : Nat :=
  if s.stalled p then s.now - ((s.tile (s.bellwether p)).doneTime + s.gatePeriod p) else 0

/-- A column of the pasture lies in a parked half (R63). -/
def State.pasParked (s : State) (p : Nat) : Bool := (s.cols p).any fun vx => s.parked (s.halfOf vx)

/-- A stop of the bellwether in its beat in progress ends with the beats: its time so far counts in STALL_NS (R73). -/
def State.endStall (s : State) (p : Nat) : State := s.modPas p fun x => { x with stallPs := x.stallPs + s.stallNow p }

/-- A hold of a WAIT. -/
def Hold.isWait : Hold → Bool
  | .wait _ => true
  | .fold _ _ _ | .foldFull _ | .flag _ _ | .data => false

/-- Every holding unit of pasture p is a WAIT, and there is one (R49). -/
def State.onlyWaits (s : State) (p : Nat) : Bool :=
  let hs := (s.tilesOf p).flatMap fun k => (s.tile k).holding
  !hs.isEmpty && hs.all Hold.isWait

/-- Keep account of the time in which only WAITs hold. -/
def State.noteHolds (s : State) (p : Nat) : State :=
  let on := s.onlyWaits p
  s.modPas p fun x =>
    match x.waitSince with
    | some t0 => { x with waitTime := x.waitTime + (s.now - t0), waitSince := if on then some s.now else none }
    | none => { x with waitSince := if on then some s.now else none }

/-- The same by a tile of the pasture. -/
def State.noteHoldsAt (s : State) (k : Nat) : State :=
  match s.pasOf (keyVx k) with
  | some p => s.noteHolds p
  | none => s

/-! ## Byte memories -/

/-- `n` bytes of a byte memory from an address. -/
def memRead (m : SMap Byte) (a : Nat) : Nat → List Byte
  | 0 => []
  | n + 1 => smapGet 0 m a :: memRead m (a + 1) n

/-- Write bytes into a byte memory, keeping its canonical form. -/
def memWrite (m : SMap Byte) (a : Nat) : List Byte → SMap Byte
  | [] => m
  | b :: bs => memWrite (smapSet 0 m a b) (a + 1) bs

/-- Read host memory as the device's DMA does; addresses are 64 bits. -/
def State.readHost (s : State) (a n : Nat) : List Byte := memRead s.hostMem (a % 2 ^ 64) n

/-- Write host memory. -/
def State.writeHost (s : State) (a : Nat) (bs : List Byte) : State :=
  { s with hostMem := memWrite s.hostMem (a % 2 ^ 64) bs }

/-- The bytes of a digest. -/
def digestBytes (d : Digest) : List Byte := bytesOf 32 d.toNat

/-- The digest in 32 bytes. -/
def digestOf (bs : List Byte) : Digest := BitVec.ofNat 256 (ofBytes (bs.take 32))

/-! ## Time -/

/-- The time since cold reset in ns. -/
def State.timeNs (s : State) : Nat := (s.now - s.epoch) / nsT

/-- HIF_TIME (R402): ns since cold reset in steps of 10 ns, 64 bits. -/
def State.hifTime (s : State) : Word := BitVec.ofNat 64 (s.timeNs / 10 * 10)

/-! ## Vectors, events and alerts -/

/-- The function that pasture p's events go to (R377, R396). -/
def State.boundFn (s : State) (p : Nat) : Nat := if p ≠ 0 && (s.func p).enabled then p else 0

/-- Whether function n answers: PF0 always, a VF while it is enabled (R377). -/
def State.fnOn (s : State) (n : Nat) : Bool := n = 0 || (s.func n).enabled

/-- Fire a vector whose causes reach COUNT (R397). A masked vector keeps its causes and sets its pending bit. -/
def Vec.settle (v : Vec) (due : Bool) : Vec :=
  if v.pending = 0 then v
  else if due || v.count.toNat ≤ v.pending then
    if v.masked then { v with pba := true } else { v with pending := 0, fired := v.fired + 1, pba := false }
  else v

/-- One more cause of a vector (R396, R397). -/
def Vec.cause (v : Vec) (now : Nat) : Vec :=
  ({ v with pending := v.pending + 1, since := if v.pending = 0 then now else v.since }).settle false

/-- Signal a vector of a function. -/
def State.signal (s : State) (fn v : Nat) : State :=
  s.modFn fn fun f => { f with vecs := smapPut f.vecs v ((smapGet {} f.vecs v).cause s.now) }

/-- Append an event to a function's log and signal its error vector (R396, R398). The log is a ring of 64 entries; an entry
written over another counts in EVT_LOST (assumption 12). -/
def State.event (s : State) (fn : Nat) (st : Status) (pasture : Nat) (detail : Nat) : State :=
  (s.modFn fn fun f =>
    { f with
      events := smapPut f.events f.evtHead.toNat
        { status := st, pasture := BitVec.ofNat 8 pasture, detail := BitVec.ofNat 32 detail, time := s.hifTime }
      evtHead := f.evtHead + 1
      evtCount := min 64 (f.evtCount + 1)
      evtLost := if f.evtCount ≥ 64 then satInc f.evtLost else f.evtLost }).signal fn 17

/-- An event of pasture p on its error vector. -/
def State.pasEvent (s : State) (p : Nat) (st : Status) (detail : Nat) : State := s.event (s.boundFn p) st p detail

/-- A package event on PF0's error vector (R398: PASTURE 0xFF). -/
def State.pkgEvent (s : State) (st : Status) (detail : Nat) : State := s.event 0 st 0xFF detail

/-- A read of the device's DMA met a poisoned or failed completion: AER of the function records it (R376, R393). -/
def State.noteDma (s : State) (fn : Nat) : State := s.modFn fn fun f => { f with aer := true }

/-- Set an ALERT cause bit (R442). -/
def State.alert (s : State) (bit : Nat) : State :=
  { s with rel := { s.rel with alert := s.rel.alert ||| BitVec.ofNat 10 (2 ^ bit) } }

/-- Note a possible breach cause (R394) in every run of pasture p that is not delivered. -/
def State.noteCause (s : State) (p : Nat) (st : Status) : State :=
  s.modPas p fun x => { x with runs := x.runs.map fun r => { r with events := r.events ++ [st] } }

/-- Note a breach cause in the runs of every pasture. -/
def State.noteCauseAll (s : State) (st : Status) : State :=
  (List.range 16).foldl (fun s p => s.noteCause p st) s

/-! ## Completions -/

/-- The entries of a completion ring (R387). -/
def Fn.cqSize (f : Fn) : Nat := 2 ^ f.cqLog2.toNat

/-- Whether the completion ring takes an entry: it is enabled, and fewer than 2^SIZE_LOG2 entries wait for the host (assumption
13). -/
def Fn.cqRoom (f : Fn) : Bool := bitAt f.cqBase 0 && decide (f.cqUsed < f.cqSize)

/-- The 64 bytes of a completion entry (R387). -/
def Completion.bytes (c : Completion) (phase : Bool) (now : Word) : List Byte :=
  [c.opcode, c.kind, c.pasture, (c.ring.setWidth 8) ||| (if phase then 0x80 else 0)]
    ++ bytesOf 4 c.tag.toNat ++ bytesOf 2 c.status.toNat ++ bytesOf 2 c.cause.toNat
    ++ [c.sqHead, 0] ++ bytesOf 2 c.failedSends.toNat ++ bytesOf 8 c.runId.toNat ++ bytesOf 8 c.deadline.toNat
    ++ bytesOf 8 c.beats.toNat ++ bytesOf 16 c.totals.toNat ++ bytesOf 8 (c.doneTime.getD now).toNat

/-- Write a completion entry into the ring: TAIL moves on, PHASE changes at the end of a pass, and the entry's vector is
signalled (R387, R392, R396). -/
def State.writeCompletion (s : State) (fn : Nat) (c : Completion) : State :=
  let f := s.func fn
  let at_ := (f.cqBase.toNat / 4096) * 4096 + f.cqTail.toNat * 64
  let last := f.cqTail.toNat + 1 ≥ f.cqSize
  let s := s.writeHost at_ (c.bytes f.cqPhase s.hifTime)
  (s.modFn fn fun f =>
    { f with cqUsed := f.cqUsed + 1, cqTail := if last then 0 else f.cqTail + 1, cqPhase := if last then !f.cqPhase else f.cqPhase }).signal fn c.vector

/-- Post a completion: it is written, or held while the ring is full or another is held (R387). -/
def State.complete (s : State) (fn : Nat) (c : Completion) : State :=
  let f := s.func fn
  if f.held.isEmpty && f.cqRoom then s.writeCompletion fn c
  else s.modFn fn fun f => { f with held := f.held ++ [c] }

/-- A final completion of an entry with an opcode, without a run's fields. -/
def EntryId.completion (e : EntryId) (opcode pasture : Nat) (st : Status) : Completion :=
  { opcode := BitVec.ofNat 8 opcode, pasture := BitVec.ofNat 8 pasture, ring := BitVec.ofNat 4 e.ring.val,
    tag := e.tag, status := st, sqHead := e.sqHead, vector := e.ring.val }

/-- Post the final completion of an entry. -/
def State.finish (s : State) (e : EntryId) (opcode pasture : Nat) (st : Status) : State :=
  s.complete e.fn.val (e.completion opcode pasture st)

/-! ## Stamps -/

/-- The four totals of the range-watch table over all tags (R107, R387), each saturating at 32 bits. -/
def Pasture.rwTotals (x : Pasture) : BitVec 128 :=
  let tot (f : RwCount → Nat) : Nat := min (2 ^ 32 - 1) (x.rwt.foldl (fun n kv => n + f kv.2) 0)
  BitVec.ofNat 128 (tot (·.satElem) + 2 ^ 32 * tot (·.scaleOut) + 2 ^ 64 * tot (·.accSat) + 2 ^ 96 * tot (·.nonfinite))

/-- CHIP_ID of the committed plan, or 0xFFFF (R462). -/
def State.chipId (s : State) : BitVec 16 :=
  match s.links.plan with
  | some p => p.selfChip
  | none => 0xFFFF

/-- The shepherd restarts (R435). -/
def State.restarting (s : State) : Bool := decide (s.now < s.rel.restartEnd)

/-- The identity private key (R448): d = (KDF(seed ‖ "LTF-ID", 256) mod (n − 1)) + 1. -/
def Facts.identityKey (f : Facts) : Nat :=
  ofBytesBe (sm2Kdf (bytesBe 32 f.seed.toNat ++ [0x4C, 0x54, 0x46, 0x2D, 0x49, 0x44]) 256) % (sm2N - 1) + 1

/-- The SM3 digest of the identity public key (R455). -/
def Facts.identity (f : Facts) : Digest := sm3 (sm2Public f.identityKey)

/-- The digest of what a pasture has loaded as program, or zero. -/
def Pasture.progDigest (x : Pasture) : Digest := match x.program with | some g => g.digest | none => 0
/-- The digest of the pasture's weight package, or zero. -/
def Pasture.weightDigest (x : Pasture) : Digest := match x.weights with | some w => w.1 | none => 0

/-- Write a run's stamp to STAMP_ADDR and extend the pasture's chain with it (R462 to R464, R466). -/
def State.writeStamp (s : State) (p : Nat) (r : Run) (valid : Bool) (beats : Nat) (outDigest : Digest) : State :=
  let x := s.pasture p
  let due := x.chain.nextSeq.toNat % 1024 = 1023
  let debug := r.debugSeen || (s.sec.scope = 2 && (r.stage = .recorded || s.started p r))
  let marks : Byte := (if valid then 1 else 0) ||| (if due then 2 else 0) ||| (if debug then 4 else 0)
  let body := bytesOf 8 r.runId.toNat ++ bytesOf 8 x.chain.nextSeq.toNat ++ bytesOf 8 beats ++ bytesOf 2 s.chipId.toNat
    ++ [BitVec.ofNat 8 p, BitVec.ofNat 8 s.facts.stepping.code]
    ++ [if x.progExact then 1 else 0, x.progLtv.setWidth 8, r.entry.entry.setWidth 8, marks]
    ++ digestBytes x.progDigest ++ digestBytes x.weightDigest ++ digestBytes (sm3 r.inputs) ++ digestBytes outDigest
  let head := sm3 (digestBytes x.chain.head ++ body)
  let s := s.writeHost r.stampAddr (body ++ digestBytes head)
  s.modPas p fun x =>
    { x with chain := { x.chain with
        head := head, nextSeq := x.chain.nextSeq + 1,
        signDue := if due then some (x.chain.nextSeq, head, s.now) else x.chain.signDue } }

/-- The final completion of a run (R387). -/
def Run.completion (r : Run) (p : Nat) (x : Pasture) (st cause : Status) (beats : Nat) : Completion :=
  { r.id.completion 1 p st with
    cause := cause, failedSends := r.failedSends, runId := r.runId, deadline := BitVec.ofNat 64 r.deadline,
    beats := BitVec.ofNat 64 beats, totals := x.rwTotals,
    vector := if st = St.HOST_BREACH then 18 else r.id.ring.val }

/-- A run fails (R393): its stamp is written invalid, and its completion is FAILED with a cause. The BEATS that no halt
gives are free values (assumption 14). -/
def State.failRun (s : State) (p : Nat) (r : Run) (cause : Status) : State :=
  let (n, s) := s.draw
  let stampBeats := match r.haltMax with | some h => h - r.first | none => n
  let s := s.writeStamp p r false stampBeats 0
  let (n, s) := s.draw
  (s.modPas p fun x => { x with storeDue := true }).complete r.id.fn.val (r.completion p (s.pasture p) St.HOST_RUN_FAILED cause n)

/-- Every run of a pasture whose completion is not recorded fails: a running one with `cause`, the others with `queued`. -/
def State.failRuns (s : State) (p : Nat) (cause queued : Status) : State :=
  let runs := (s.pasture p).runs
  let s := runs.foldl (fun s r =>
    match r.stage with
    | .recorded | .held => s
    | .running => s.failRun p r cause
    | .queued | .ingressed => s.failRun p r queued) s
  s.modPas p fun x => { x with runs := x.runs.filter fun r => decide (r.stage = .recorded) || decide (r.stage = .held) }

/-! ## Stopping a pasture -/

/-- A fault stops a pasture (R431, R432, R433): no further beat, STOPPED, ALERT cause 0, the run under way fails with the
fault's status and the runs behind it with ST_HOST_PASTURE_STOPPED. A pasture that has stopped keeps its first cause. -/
def State.stopPasture (s : State) (p : Nat) (cause : Status) : State :=
  if (s.pasture p).stopped then s
  else
    (((s.endStall p).modPas p fun x => { x with stopped := true, beating := false, stopTime := s.now, unplanned := true, faultStop := true }).alert 0).failRuns p cause St.HOST_PASTURE_STOPPED

/-- The running pastures of R49, R53 and R54: every pasture that beats, with a run under way or idle (assumption 18: the spec does
not say which of the two it means). -/
def State.runningPas (s : State) : List Nat := (List.range 16).filter fun p => (s.pasture p).beating

/-- A fault that stops every running pasture (R432). -/
def State.stopAll (s : State) (cause : Status) : State :=
  s.runningPas.foldl (fun s p => s.stopPasture p cause) s

/-- A tile's fault at its beat in progress stops the tile's pasture; the beat is kept for the faults that other tiles detect in
it (R433). -/
def State.stopTile (s : State) (k : Nat) (cause : Status) : State :=
  match s.pasOf (keyVx k) with
  | some p =>
    if (s.pasture p).stopped then s
    else (s.stopPasture p cause).modPas p fun x => { x with stopBeat := some (s.tile k).beat, faulted := [k] }
  | none => s

/-- The tile's pasture beats and is not stopped. -/
def State.live (s : State) (k : Nat) : Bool :=
  match s.pasOf (keyVx k) with
  | some p => (s.pasture p).beating && !(s.pasture p).stopped
  | none => false

/-- The tile still looks for its own faults of the beat in which another tile's fault stopped the pasture (R433). -/
def State.detects (s : State) (k : Nat) : Bool :=
  match s.pasOf (keyVx k) with
  | some p => decide ((s.pasture p).stopBeat = some (s.tile k).beat) && !(s.pasture p).faulted.contains k
  | none => false

/-- The tile does its beat in progress, or looks only for its faults. -/
def State.inBeat (s : State) (k : Nat) : Bool := s.live k || s.detects k

/-- The state in which a tile of a pasture just stopped looks for its own faults. -/
def State.revived (s : State) (k : Nat) : State :=
  match s.pasOf (keyVx k) with
  | some p => s.modPas p fun x => { x with stopped := false, beating := true }
  | none => s

/-- What a fault found after the stop leaves (R433): the tile's and the stacks' error registers and counters, nothing else. -/
def State.keepFaults (s found : State) (k : Nat) : State :=
  if found.live k || decide ((found.tile k).beat ≠ (s.tile k).beat) then s
  else
    let s := { s.putTile k (found.tile k) with stks := found.stks, fresh := found.fresh }
    match s.pasOf (keyVx k) with
    | some p => s.modPas p fun x => { x with faulted := x.faulted ++ [k] }
    | none => s

/-- A tile's work in its beat: all of it while its pasture runs, its faults alone in the beat that stopped the pasture. -/
def State.whileLive (s : State) (k : Nat) (f : State → Out) : Out :=
  if s.live k then f s
  else
    match f (s.revived k) with
    | .next found => .next (s.keepFaults found k)
    | .fault e => .fault e
    | .refused r => .refused r

/-- A command whose condition does not hold changes nothing (assumption 2). -/
def nothing (s : State) : Out := .next s

end Sys2Proof.Machine
end

