-- ==== Sys2Proof/Machine/Scratchpad.lean ====
section
/-!
DEFINITION. The tile scratchpad: bank hashing, scheduled accesses and their checks, ECC, write protection and tally bits (R109 to
R117, R123 to R135, R503).
-/
namespace Sys2Proof.Machine

/-! ## Where a byte lies -/

/-- The bank of a line (R112), by hash mode and SALT. Mode 3 is refused at GO and has no access. -/
def bankOf (addr mode salt : Nat) : Nat :=
  let l0 := addr / 64 % 32
  let t := addr / 2048 % 1024
  match mode with
  | 0 => l0
  | 1 => l0 ^^^ (t % 32) ^^^ (t / 32)
  | _ =>
    let p := t * (2 * (salt % 16) + 1) % 1024
    let f := p % 32
    l0 ^^^ (if salt ≥ 16 then f ^^^ (p / 32) else f)

/-- The physical line of a tile byte address: entry t of its bank (R110). -/
def physLine (addr mode salt : Nat) : Nat := (addr / 2048 % 1024) * 32 + bankOf addr mode salt

/-- The key of a byte in Tile.spad. -/
def physByte (addr mode salt : Nat) : Nat := physLine addr mode salt * 64 + addr % 64

/-- A byte of a tile's scratchpad. -/
def Tile.byte (t : Tile) (mode addr : Nat) : Byte := smapGet 0 t.spad (physByte addr mode t.salt.toNat)

/-- `n` bytes from a byte address, in the hash mode of the operand; an address outside the scratchpad supplies zero. -/
def Tile.bytes (t : Tile) (mode : Nat) (addr : Int) : Nat → List Byte
  | 0 => []
  | n + 1 =>
    (if addr < 0 || addr ≥ 0x200000 then 0 else t.byte mode addr.toNat) :: t.bytes mode (addr + 1) n

/-- Write a byte. -/
def Tile.setByte (t : Tile) (mode addr : Nat) (b : Byte) : Tile :=
  { t with spad := smapSet 0 t.spad (physByte addr mode t.salt.toNat) b }

/-- Set or clear the tally bit of a line (R130). -/
def Tile.setTally (t : Tile) (mode addr : Nat) (on : Bool) : Tile :=
  { t with tally := smapSet false t.tally (physLine addr mode t.salt.toNat) on }

/-- Write the bytes of one line and set its tally bit; the words written hold fresh check bits. -/
def Tile.writeLine (t : Tile) (mode addr : Nat) (data : List (Nat × Byte)) : Tile :=
  let ph := physLine addr mode t.salt.toNat
  let t := data.foldl (fun t ob => t.setByte mode (addr / 64 * 64 + ob.1) ob.2) t
  let hit (w : Nat) : Bool := w / 8 = ph && data.any fun ob => decide (ob.1 / 8 = w % 8)
  { t.setTally mode addr true with
    upset1 := t.upset1.filter fun w => !hit w
    upset2 := t.upset2.filter fun w => !hit w }

/-- The writes of bytes from a byte address: each line's address, and the bytes by their places in it; no bytes write no line. -/
def lineWrites (addr : Nat) (bs : List Byte) : List (Nat × List (Nat × Byte)) :=
  let lines := (List.range (if bs.isEmpty then 0 else (addr % 64 + bs.length + 63) / 64)).map (· + addr / 64)
  lines.map fun l => (l * 64,
    ((List.range 64).filter fun o => decide (addr ≤ l * 64 + o) && decide (l * 64 + o < addr + bs.length)).map fun o =>
      (o, bs.getD (l * 64 + o - addr) 0))

/-! ## ECC words (R123, R124) -/

/-- The words of a line an access checks: all of them on a read, the partly written ones on a write. -/
def checkedWords (write : Bool) (data : List (Nat × Byte)) : List Nat :=
  (List.range 8).filter fun w =>
    if write then
      let n := (data.filter fun ob => decide (ob.1 / 8 = w)).length
      decide (0 < n) && decide (n < 8)
    else true

/-- How many of the checked words hold a single-bit error. -/
def Tile.singleErrors (t : Tile) (ph : Nat) (ws : List Nat) : Nat :=
  (ws.filter fun w => t.upset1.contains (ph * 8 + w)).length

/-- Whether a checked word holds a double-bit error. -/
def Tile.doubleError (t : Tile) (ph : Nat) (ws : List Nat) : Bool := ws.any fun w => t.upset2.contains (ph * 8 + w)

/-! ## Scheduled accesses -/

/-- One scheduled access of a beat: a line's byte address, its hash mode, whether it reads, writes or clears a tally bit,
whether it is tally-checked, and the bytes written by their places in the line. -/
structure Access where
  addr  : Int := 0
  mode  : Nat := 0
  write : Bool := false
  clear : Bool := false
  check : Bool := false
  data  : List (Nat × Byte) := []
deriving DecidableEq, Repr, Inhabited

/-- Outside the tile's addresses (R111). -/
def Access.outside (a : Access) : Bool := decide (a.addr < 0) || decide (a.addr ≥ 0x200000)

/-- The access's bank. -/
def Access.bank (a : Access) (salt : Nat) : Nat := bankOf a.addr.toNat a.mode salt

/-- The access's physical line. -/
def Access.phys (a : Access) (salt : Nat) : Nat := physLine a.addr.toNat a.mode salt

/-- The line number compared with write-protect ranges: before hashing (R127). -/
def Access.line (a : Access) : Nat := a.addr.toNat / 64

/-- Whether a line lies in an enabled write-protect range (R127). -/
def Tile.protectedLine (t : Tile) (line : Nat) : Bool :=
  t.wp.any fun r => r.enable && decide (r.base.toNat ≤ line) && decide (line ≤ r.limit.toNat)

/-- A scratchpad fault: status, bank and address. -/
structure SpadFault where
  status : Status := 0
  bank   : Nat := 0
  addr   : Int := 0
deriving DecidableEq, Repr, Inhabited

/-- The access with the lowest address, as generated: one below 0 comes before the others (assumption 29). -/
def lowest : List Access → Option Access
  | [] => none
  | a :: as =>
    match lowest as with
    | none => some a
    | some b => if b.addr < a.addr then some b else some a

/-- The accesses that share a bank with an access later in the list (R115). -/
def collisions (salt : Nat) : List Access → List (Access × Access)
  | [] => []
  | a :: as => ((as.filter fun b => decide (b.bank salt = a.bank salt)).map fun b => (a, b)) ++ collisions salt as

/-- The collision whose lower address is the lowest. -/
def lowestCollision : List (Access × Access) → Option Access
  | [] => none
  | (a, b) :: ps =>
    let c := if b.addr < a.addr then b else a
    match lowestCollision ps with
    | none => some c
    | some d => if d.addr < c.addr then some d else some c

/-- A tally miss: a checked read of a line whose tally bit is 0 (R131). -/
def Tile.misses (t : Tile) (a : Access) : Bool :=
  a.check && !a.write && !a.clear && !(smapGet false t.tally (a.phys t.salt.toNat))

/-- The fault of a beat's scheduled accesses, in the order of R503; `mode` is TALLY_MODE. -/
def Tile.spadFault (t : Tile) (mode : BitVec 2) (accs : List Access) : Option SpadFault :=
  let salt := t.salt.toNat
  let mk (st : Status) (a : Access) : SpadFault := ⟨st, a.bank salt, a.addr⟩
  match lowest (accs.filter Access.outside) with
  | some a => some ⟨St.SPD_ADDR_RANGE, 0, a.addr⟩
  | none =>
  match lowestCollision (collisions salt accs) with
  | some a => some (mk St.SPD_BANK_COLLISION a)
  | none =>
  match lowest (accs.filter fun a => (a.write || a.clear) && t.protectedLine a.line) with
  | some a => some (mk St.SPD_WRITE_PROTECT a)
  | none =>
  match lowest (accs.filter fun a => !a.clear && t.doubleError (a.phys salt) (checkedWords a.write a.data)) with
  | some a => some (mk St.SPD_ECC_UNCORR a)
  | none =>
  match lowest (if mode = 2 then accs.filter t.misses else []) with
  | some a => some (mk St.SPD_TALLY_MISS a)
  | none => none

/-- The corrected words of a beat's accesses. -/
def Tile.corrections (t : Tile) (accs : List Access) : Nat :=
  accs.foldl (fun n a => if a.clear then n else n + t.singleErrors (a.phys t.salt.toNat) (checkedWords a.write a.data)) 0

/-- Record a fault or refusal in SPD_ERR_ADDR (R134); `port` is 0 main, 1 service, 2 ring, 3 scrubber. ADDR is the first byte of the
line that the access touches (assumption 29). -/
def Tile.spadRecord (t : Tile) (f : SpadFault) (port : Nat) : Tile :=
  { t with spdStatus := f.status, spdBank := BitVec.ofNat 5 f.bank, spdPort := BitVec.ofNat 2 port,
           spdAddr := BitVec.ofInt 21 f.addr }

/-- The place of a scratchpad fault in R503's order. -/
def spadRank (st : Status) : Nat :=
  if st = St.SPD_ADDR_RANGE then 1 else if st = St.SPD_BANK_COLLISION then 2 else if st = St.SPD_WRITE_PROTECT then 3
  else if st = St.SPD_ECC_UNCORR then 4 else 5

/-- A fault recorded before in the same beat period comes before another in R503's order: by status, port and address. -/
def SpadLast.before (l : SpadLast) (now period beat : Nat) (f : SpadFault) (port : Nat) : Bool :=
  decide (l.beat = beat) && decide (now < l.time + period) &&
    (decide (l.rank < spadRank f.status) || (decide (l.rank = spadRank f.status) &&
      (decide (l.port < port) || (decide (l.port = port) && decide (l.addr ≤ f.addr)))))

/-- Record a fault with its beat, unless the tile has reported one of that beat that comes before it (R431, R503). -/
def Tile.spadFaulted (t : Tile) (f : SpadFault) (port now period : Nat) : Tile :=
  if t.spdLast.any fun l => l.before now period t.beat f port then t
  else { t.spadRecord f port with spdLast := some ⟨t.beat, now, spadRank f.status, port, f.addr⟩ }

/-- The beat period of a tile: its pasture's gate period, or that of the grade floor in a tile of no pasture. -/
def State.beatPeriod (s : State) (k : Nat) : Nat :=
  match s.pasOf (keyVx k) with
  | some p => s.gatePeriod p
  | none => usT / max 1 s.facts.grade.floor

/-- A tile's scratchpad fault is recorded. -/
def State.spadFaulted (s : State) (k port : Nat) (f : SpadFault) : State :=
  s.modTile k fun t => t.spadFaulted f port s.now (s.beatPeriod k)

/-- Apply a beat's writes and tally clears. -/
def Tile.applyAccesses (t : Tile) (accs : List Access) : Tile :=
  accs.foldl (fun t a =>
    if a.clear then t.setTally a.mode a.addr.toNat false
    else if a.write then t.writeLine a.mode a.addr.toNat a.data
    else t) t

/-! ## Corrected-error thresholds (R126, R437) -/

/-- Whether a counter going from one value to another passes a multiple of a threshold. -/
def passes (old new thresh : Nat) : Bool := thresh ≠ 0 && decide (old / thresh < new / thresh)

/-- Count corrected words of a tile; passing a multiple of CE_THRESH raises ST_SPD_ECC_CE_THRESH and ALERT cause 3. -/
def State.countCorrected (s : State) (k n : Nat) : State :=
  if n = 0 then s
  else
    let old := (s.tile k).ceCount
    let new := satAdd old n
    let s := s.modTile k fun t => { t with ceCount := new }
    match s.pasOf (keyVx k) with
    | some p =>
      if passes old.toNat new.toNat (s.pasture p).spdCeThresh.toNat then
        (s.pasEvent p St.SPD_ECC_CE_THRESH k).alert 3
      else s
    | none => s

/-! ## The loader's writes through the main port (R300) -/

/-- One line written by the loader: each word it writes in part is checked (R123); a double-bit error stops the pasture, and the line is
not written (R124; assumption 130). -/
def State.mainLine (s : State) (k mode : Nat) (w : Nat × List (Nat × Byte)) : State :=
  let t := s.tile k
  let salt := t.salt.toNat
  let ws := checkedWords true w.2
  if t.doubleError (physLine w.1 mode salt) ws then
    (s.spadFaulted k 0 ⟨St.SPD_ECC_UNCORR, bankOf w.1 mode salt, (w.1 : Int)⟩).stopTile k St.SPD_ECC_UNCORR
  else (s.countCorrected k (t.singleErrors (physLine w.1 mode salt) ws)).modTile k fun t => t.writeLine mode w.1 w.2

/-- Bytes written by the loader, line by line, in the hash mode of their region (R300). -/
def State.mainWrite (s : State) (k mode addr : Nat) (bs : List Byte) : State :=
  (lineWrites addr bs).foldl (fun s w => s.mainLine k mode w) s

end Sys2Proof.Machine
end

