-- ==== Sys2Proof/Machine/Operands.lean ====
section
/-!
DEFINITION. Operand records, address generation, index entries and the accesses of operands (R184, R197 to R201).
-/
namespace Sys2Proof.Machine

/-! ## Records -/

/-- A decoded operand record (R197). A stack record (R201) takes the same form: its base is SBASE, its hash mode 0. -/
structure Rec where
  ctrSel    : Nat := 0
  ctrEn     : Bool := false
  indRec    : Nat := 0x3FF
  oorFault  : Bool := false
  wide      : Bool := false
  indDim    : Nat := 0
  ndim      : Nat := 0
  check     : Bool := false
  hash      : Nat := 0
  fmt       : Nat := 0
  base      : Nat := 0
  size      : List Nat := [0, 0, 0, 0]
  stride    : List Int := [0, 0, 0, 0]
  ctrStride : Int := 0
  reserved  : Bool := false
deriving DecidableEq, Repr, Inhabited

/-- A field of word w of a record. -/
def recField (r : BitVec 256) (w hi lo : Nat) : Nat := field r (64 * w + hi) (64 * w + lo)

/-- A signed field of word w of a record. -/
def recSigned (r : BitVec 256) (w hi lo : Nat) : Int := sfield r (64 * w + hi) (64 * w + lo)

/-- Decode a scratchpad record (R197). An IND_DIM above NDIM names a dimension that is ignored (assumption 20). -/
def decodeRec (r : BitVec 256) : Rec :=
  let nd := recField r 0 30 29
  let ind := recField r 0 32 31
  { ctrSel := recField r 0 48 46, ctrEn := recField r 0 45 45 = 1, indRec := recField r 0 44 35,
    oorFault := recField r 0 34 34 = 1, wide := recField r 0 33 33 = 1, indDim := if ind ≤ nd then ind else 0,
    ndim := nd, check := recField r 0 28 28 = 1, hash := recField r 0 27 26, fmt := recField r 0 25 21,
    base := recField r 0 20 0,
    size := [recField r 1 19 0, recField r 1 61 42, recField r 2 41 22, recField r 3 19 0],
    stride := [recSigned r 1 41 20, recSigned r 2 21 0, recSigned r 2 63 42, recSigned r 3 41 20],
    ctrStride := recSigned r 3 63 42,
    reserved := decide (recField r 0 63 49 ≠ 0) || decide (recField r 1 63 62 ≠ 0) }

/-- Decode a stack record (R201). With PAGED = 1 the indirect dimension's stride is 32 KiB and its STRIDE is ignored; so is that of a
dimension that is not used. Base and the other strides are multiples of 64, and SIZE0 is. -/
def decodeStkRec (r : BitVec 256) : Rec :=
  let nd := recField r 0 40 39
  let ind := recField r 0 42 41
  let ind := if ind ≤ nd then ind else 0
  let paged := recField r 0 55 55 = 1
  let s1 : Int := if paged && ind = 1 then 32768 else recSigned r 2 31 0
  let s2 : Int := if paged && ind = 2 then 32768 else recSigned r 2 63 32
  { ctrSel := recField r 1 51 49, ctrEn := recField r 1 48 48 = 1, indRec := recField r 0 54 45,
    oorFault := recField r 0 44 44 = 1, wide := recField r 0 43 43 = 1, indDim := ind, ndim := nd,
    base := recField r 0 38 0, size := [recField r 1 15 0, recField r 1 31 16, recField r 1 47 32, 1],
    stride := [1, s1, s2, 0], ctrStride := recSigned r 3 31 0,
    reserved := decide (recField r 0 63 56 ≠ 0) || decide (recField r 1 63 52 ≠ 0) || decide (recField r 3 63 32 ≠ 0)
      || decide (nd = 3) || decide (recField r 0 42 41 = 3)
      || decide (recField r 0 38 0 % 64 ≠ 0) || decide (recField r 1 15 0 % 64 ≠ 0)
      || (1 ≤ nd && decide (s1 % 64 ≠ 0)) || (2 ≤ nd && decide (s2 % 64 ≠ 0))
      || decide (recSigned r 3 31 0 % 64 ≠ 0) }

/-- SIZE of dimension d. -/
def Rec.sz (r : Rec) (d : Nat) : Nat := r.size.getD d 0
/-- STRIDE of dimension d. -/
def Rec.st (r : Rec) (d : Nat) : Int := r.stride.getD d 0

/-- Every used dimension has a size above 0, and no reserved field is set (R196, R197). -/
def Rec.wellFormed (r : Rec) : Bool :=
  !r.reserved && (List.range (r.ndim + 1)).all fun d => decide (r.sz d ≠ 0)

/-- How often dimension d ≥ 1 iterates: an indirect dimension follows its index record's dimension 0 (R198). -/
def Rec.count (r : Rec) (idx : Option Rec) (d : Nat) : Nat :=
  if d > r.ndim then 1
  else if d = r.indDim then (match idx with | some x => x.sz 0 | none => r.sz d)
  else r.sz d

/-- The number of rows: the product of the outer dimensions. -/
def Rec.rows (r : Rec) (idx : Option Rec) : Nat := r.count idx 1 * r.count idx 2 * r.count idx 3

/-- The outer coordinates of row i, dimension 1 innermost (R198). -/
def Rec.coord (r : Rec) (idx : Option Rec) (i : Nat) : List Nat :=
  let c1 := r.count idx 1
  let c2 := r.count idx 2
  [i % c1, i / c1 % c2, i / c1 / c2]

/-- The counter term plus the base. -/
def Rec.origin (r : Rec) (ctrs : List (BitVec 24)) : Int :=
  r.base + (if r.ctrEn then ((ctrs.getD r.ctrSel 0).toNat : Int) * r.ctrStride else 0)

/-- The address of element 0 of the row at outer coordinates (R198); none where the index entry is out of range (R199). -/
def Rec.rowAddr (r : Rec) (ctrs : List (BitVec 24)) (co : List Nat) (entry : Option Nat) : Option Int :=
  (List.range 3).foldl (fun acc i =>
    match acc with
    | none => none
    | some a =>
      let d := i + 1
      if d > r.ndim then some a
      else if d = r.indDim then
        match entry with
        | some v => if v ≥ r.sz d then none else some (a + v * r.st d)
        | none => none
      else some (a + (co.getD i 0 : Nat) * r.st d)) (some (r.origin ctrs))

/-- The address of row i of a record without indirection. -/
def Rec.row (r : Rec) (ctrs : List (BitVec 24)) (i : Nat) : Int :=
  ((({ r with indDim := 0 } : Rec).rowAddr ctrs (r.coord none i) none)).getD 0

/-- The address of the index entry of a row (R198): index dimension 0 follows the operand's indirect dimension j, and index
dimension m follows operand dimension j + m. -/
def indexAddr (r idx : Rec) (ctrs : List (BitVec 24)) (co : List Nat) : Int :=
  let j := r.indDim
  (List.range 3).foldl (fun (a : Int) i =>
    let m := i + 1
    if m ≤ idx.ndim && j + m ≤ 3 then a + (co.getD (j + m - 1) 0 : Nat) * idx.st m else a)
    (idx.origin ctrs + (co.getD (j - 1) 0 : Nat) * idx.st 0)

/-- The bytes of an index entry. -/
def Rec.entryBytes (r : Rec) : Nat := if r.wide then 4 else 2

/-- An index record fits its operand (R196, R198): it has no indirection of its own, its dimensions m ≥ 1 have the sizes of
their partners, and BASE, the strides it uses and CTR_STRIDE are multiples of the entry width. -/
def indexOk (r idx : Rec) : Bool :=
  let w : Int := r.entryBytes
  idx.indDim = 0 && idx.wellFormed
    && (List.range 3).all (fun i =>
        let m := i + 1
        if m ≤ idx.ndim then decide (idx.sz m = (if r.indDim + m ≤ r.ndim then r.sz (r.indDim + m) else 1)) else true)
    && decide ((idx.base : Int) % w = 0) && decide (idx.ctrStride % w = 0)
    && (List.range (idx.ndim + 1)).all fun d => decide (idx.st d % w = 0)

/-! ## Lines -/

/-- The first byte touched in each line of a run of `n` bytes. -/
def spanLines (a : Int) (n : Nat) : List Int :=
  if n = 0 then []
  else
    let first := a / 64
    let cnt := ((a + (n - 1 : Nat)) / 64 - first).toNat + 1
    (List.range cnt).map fun (i : Nat) => if i = 0 then a else (first + (i : Int)) * 64

/-- Keep one address per line. -/
def dedupLines : List Int → List Int
  | [] => []
  | a :: as => a :: (dedupLines as).filter fun b => decide (b / 64 ≠ a / 64)

/-- The reads of some addresses' lines by one operand. -/
def Rec.readLines (r : Rec) (as : List Int) : List Access :=
  (dedupLines as).map fun a => { addr := a, mode := r.hash, check := r.check }

/-! ## Elements -/

/-- Where element i of a row lies: byte address, first bit, bytes (R84, R198). -/
def Rec.elemAt (r : Rec) (f : Nat) (row : Int) (i : Nat) : Int × Nat × Nat :=
  let (b, bit, n) := elemPlace f i
  if fmtPacked f then (row + b, bit, n) else (row + (i : Nat) * r.st 0, 0, fmtBits f / 8)

/-- The first addresses of the lines of elements lo to hi − 1 of a row. -/
def Rec.elemLines (r : Rec) (f : Nat) (row : Int) (lo hi : Nat) : List Int :=
  if hi ≤ lo then []
  else if fmtPacked f then
    let (a, _, _) := r.elemAt f row lo
    let (b, _, n) := r.elemAt f row (hi - 1)
    spanLines a ((b - a).toNat + n)
  else (List.range (hi - lo)).flatMap fun i =>
    let (a, _, n) := r.elemAt f row (lo + i)
    spanLines a n

/-- A reader of bytes: an operand's scratchpad, or the lines a job has captured. -/
abbrev Reader := Int → Nat → List Byte

/-- The code of element i of a row; an LT element is its trit, 3 where its byte is above 242. -/
def elemFrom (rd : Reader) (r : Rec) (f : Nat) (row : Int) (i : Nat) : Nat :=
  let (a, bit, n) := r.elemAt f row i
  let v := ofBytes (rd a n)
  if f = 0x05 then (if v > 242 then 3 else tritOf v (i % 32 % 5)) else v / 2 ^ bit % 2 ^ fmtBits f

/-- The bytes of the side entry of block b of a side row, packed (R85). -/
def sideFrom (rd : Reader) (f : Nat) (row : Int) (b : Nat) : List Byte :=
  rd (row + (b * fmtSide f : Nat)) (fmtSide f)

/-- The reader of an operand of a tile. -/
def Tile.reader (t : Tile) (r : Rec) : Reader := fun a n => t.bytes r.hash a n

/-- The lines of side entries lo to hi − 1. -/
def sideLines (f : Nat) (row : Int) (lo hi : Nat) : List Int :=
  spanLines (row + (lo * fmtSide f : Nat)) ((hi - lo) * fmtSide f)

/-- The writes of bytes at addresses, one access per line with byte enables (R169). -/
def writeAccesses (mode : Nat) (bytes : List (Int × Byte)) : List Access :=
  (dedupLines (bytes.map (·.1))).map fun a =>
    { addr := a, mode := mode, write := true,
      data := (bytes.filter fun ab => decide (ab.1 / 64 = a / 64)).map fun ab => ((ab.1 % 64).toNat, ab.2) }

/-- Bytes with consecutive addresses. -/
def addressed (a : Int) (bs : List Byte) : List (Int × Byte) :=
  (List.range bs.length).map fun i => (a + (i : Nat), bs.getD i 0)

/-- An index entry as the scratchpad holds it. -/
def Tile.indexEntry (t : Tile) (r idx : Rec) (a : Int) : Nat := ofBytes (t.bytes idx.hash a r.entryBytes)

/-! ## The descriptor store (R184, R185) -/

/-- A word of the store. -/
def Tile.word (t : Tile) (slot w : Nat) : Word := smapGet 0 t.store (slot % 256 * 16 + w)

/-- Operand record q of slot s by its index 4s + q. -/
def Tile.rawRec (t : Tile) (i : Nat) : BitVec 256 :=
  let b := i / 4 * 16 + i % 4 * 4
  let g (w : Nat) : Nat := (smapGet 0 t.store (b + w)).toNat
  BitVec.ofNat 256 (g 0 + 2 ^ 64 * g 1 + 2 ^ 128 * g 2 + 2 ^ 192 * g 3)

/-- Whether a word of a record fails parity. -/
def Tile.recBad (t : Tile) (i : Nat) : Bool := (List.range 4).any fun w => t.badParity.contains (i / 4 * 16 + i % 4 * 4 + w)

/-- Whether a word of a slot fails parity. -/
def Tile.slotBad (t : Tile) (slot : Nat) : Bool := (List.range 16).any fun w => t.badParity.contains (slot % 256 * 16 + w)

/-- Write a slot: fresh parity (R185). -/
def Tile.writeSlot (t : Tile) (slot : Nat) (ws : List Word) : Tile :=
  { t with
    store := (List.range 16).foldl (fun m w => smapSet 0 m (slot % 256 * 16 + w) (ws.getD w 0)) t.store
    badParity := t.badParity.filter fun k => decide (k / 16 ≠ slot % 256) }

/-- Write listed words into the store: fresh parity (R185, R186). -/
def Tile.writeStore (t : Tile) (img : SMap Word) : Tile :=
  { t with
    store := img.foldl (fun m kv => smapSet 0 m kv.1 kv.2) t.store
    badParity := t.badParity.filter fun k => (smapFind img k).isNone }

/-! ## Range-watch counts of a tile (R106, R107) -/

/-- Add events to a tag's counts. -/
def Tile.rwAdd (t : Tile) (tag : Nat) (c : RwCount) : Tile :=
  let o : RwCount := smapGet {} t.rw tag
  let n : RwCount := ⟨o.nonfinite + c.nonfinite, o.accSat + c.accSat, o.scaleOut + c.scaleOut, o.satElem + c.satElem⟩
  if c = {} then t else { t with rw := smapPut t.rw tag n }

end Sys2Proof.Machine
end

