-- ==== Sys2Proof/Machine/Sequencer.lean ====
section
/-!
DEFINITION. The tile sequencer: descriptors, structure checks, issue, LOAD, and the immediate descriptors that act on the
sequencer's own state (R184 to R224, R504).
-/
namespace Sys2Proof.Machine

/-! ## Descriptors -/

/-- The 16 words of a slot. -/
def Tile.slotWords (t : Tile) (slot : Nat) : List Word := (List.range 16).map fun w => t.word slot w

/-- A field of word w of a descriptor. -/
def dField (ws : List Word) (w hi lo : Nat) : Nat := field (ws.getD w 0) hi lo
/-- A signed field of word w. -/
def dSigned (ws : List Word) (w hi lo : Nat) : Int := sfield (ws.getD w 0) hi lo
/-- A bit of word w. -/
def dBit (ws : List Word) (w i : Nat) : Bool := bitAt (ws.getD w 0) i

/-- OPCODE (R194). -/
def opOf (ws : List Word) : Nat := dField ws 0 63 56
/-- ACTION. -/
def actionOf (ws : List Word) : Nat := dField ws 0 55 54
/-- DELTA. -/
def deltaOf (ws : List Word) : Nat := dField ws 0 47 32

/-- The two-phase opcodes (R189, R195). -/
def twoPhase (op : Nat) : Bool := [0x01, 0x02, 0x03, 0x04, 0x05, 0x08, 0x09, 0x0C, 0x0D, 0x0E, 0x10, 0x11].contains op
/-- The immediate opcodes (R189, R195). -/
def immediateOp (op : Nat) : Bool :=
  [0x14, 0x15, 0x18, 0x19, 0x1A, 0x20, 0x21, 0x22, 0x23, 0x24, 0x25, 0x26, 0x27].contains op
/-- An opcode of R195's table. -/
def opValid (op : Nat) : Bool := twoPhase op || immediateOp op

/-- Whether a descriptor is a LOAD. -/
def isLoad (ws : List Word) : Bool := twoPhase (opOf ws) && actionOf ws = 1
/-- Whether a descriptor is a GO. -/
def isGo (ws : List Word) : Bool := twoPhase (opOf ws) && actionOf ws = 2

/-- The shadow configuration an opcode and DIR name (R191): 0 matrix, 1 vector, 2 mover, 3 stack, 4 to 7 MOVE, 8 to 11 RECV. -/
def shadowUnit (ws : List Word) : Nat :=
  match opOf ws with
  | 0x01 | 0x02 => 0
  | 0x03 | 0x04 | 0x05 => 1
  | 0x08 => 4 + dField ws 1 63 62
  | 0x09 => 8 + dField ws 1 63 62
  | 0x10 | 0x11 => 3
  | _ => 2

/-- Whether a descriptor's action is performed (R214). -/
def Tile.acts (t : Tile) (ws : List Word) : Bool :=
  !dBit ws 0 53 || ((t.cond.getD (dField ws 0 51 50) false) != dBit ws 0 52)

/-! ## The records a descriptor references -/

/-- "No record" (R184). -/
def noRec : Nat := 0x3FF

/-- The record fields of an opcode in order, by word and low bit. -/
def recFields (op : Nat) : List (Nat × Nat) :=
  match op with
  | 0x01 | 0x02 => [(4, 54), (4, 44), (4, 34), (4, 24), (4, 14), (4, 4), (5, 54), (5, 44), (5, 34)]
  | 0x03 | 0x04 | 0x05 => [(3, 54), (3, 44), (3, 34), (3, 24), (3, 14), (3, 4), (4, 54)]
  | 0x08 | 0x09 => [(2, 54)]
  | 0x0C | 0x0D | 0x0E | 0x10 | 0x11 => [(2, 54), (2, 44)]
  | _ => []

/-- The record index in a field; the field's 10 bits start at the low bit given. -/
def recIndex (ws : List Word) (p : Nat × Nat) : Nat := dField ws p.1 (p.2 + 9) p.2

/-- Whether a field names a stack record. -/
def stkField (op : Nat) (p : Nat × Nat) : Bool := (op = 0x10 || op = 0x11) && decide (p = (2, 54))

/-- Decode a record by its field. -/
def decodeField (op : Nat) (p : Nat × Nat) (r : BitVec 256) : Rec := if stkField op p then decodeStkRec r else decodeRec r

/-- The records a LOAD reads, each once: those its fields name, then the index records of indirect ones (R190). -/
def Tile.loadRecs (t : Tile) (ws : List Word) : List Nat :=
  let op := opOf ws
  let named := (recFields op).filter fun p => decide (recIndex ws p ≠ noRec)
  let idx := named.filterMap fun p =>
    let r := decodeField op p (t.rawRec (recIndex ws p))
    if r.indDim ≠ 0 && r.indRec ≠ noRec then some r.indRec else none
  (named.map (recIndex ws) ++ idx).eraseDups

/-! ## Structure checks (R196) -/

/-- The mask of some bit ranges. -/
def maskOf (rs : List (Nat × Nat)) : Nat := rs.foldl (fun m r => m ||| ((2 ^ (r.1 + 1 - r.2) - 1) * 2 ^ r.2)) 0

/-- The bits of word w that a descriptor of an opcode defines (R202 to R220); all others are reserved. -/
def definedBits (op w : Nat) : Nat :=
  match op, w with
  | 0x01, 1 | 0x02, 1 => maskOf [(63, 1)]
  | 0x01, 2 | 0x02, 2 => maskOf [(63, 0)]
  | 0x01, 3 | 0x02, 3 => maskOf [(63, 22)]
  | 0x01, 4 | 0x02, 4 => maskOf [(63, 4)]
  | 0x01, 5 | 0x02, 5 => maskOf [(63, 34)]
  | 0x02, 6 => maskOf [(63, 0)]
  | 0x02, 7 => maskOf [(63, 32)]
  | 0x03, 1 | 0x04, 1 | 0x05, 1 => maskOf [(63, 8)]
  | 0x03, 2 | 0x04, 2 | 0x05, 2 => maskOf [(63, 0)]
  | 0x03, 3 | 0x04, 3 | 0x05, 3 => maskOf [(63, 4)]
  | 0x03, 4 | 0x04, 4 | 0x05, 4 => maskOf [(63, 54)]
  | 0x08, 1 => maskOf [(63, 59), (57, 42)]
  | 0x09, 1 => maskOf [(63, 62), (58, 42)]
  | 0x08, 2 | 0x09, 2 => maskOf [(63, 54)]
  | 0x0C, 1 => maskOf [(63, 63)]
  | 0x0C, 2 | 0x0D, 2 | 0x0E, 2 => maskOf [(63, 44)]
  | 0x10, 1 => maskOf [(63, 34)]
  | 0x11, 1 => maskOf [(63, 61), (49, 34)]
  | 0x10, 2 | 0x11, 2 => maskOf [(63, 44)]
  | 0x14, 1 => maskOf [(63, 32)]
  | 0x14, 2 => maskOf [(63, 44), (38, 0)]
  | 0x14, 3 => maskOf [(63, 0)]
  | 0x14, 4 => maskOf [(63, 44)]
  | 0x15, 1 => maskOf [(63, 58)]
  | 0x18, 1 => maskOf [(63, 50), (31, 0)]
  | 0x19, 1 => maskOf [(63, 46), (31, 0)]
  | 0x19, 2 => maskOf [(63, 48)]
  | 0x1A, 1 => maskOf [(63, 54)]
  | 0x20, 1 => maskOf [(63, 60), (55, 48), (23, 0)]
  | 0x22, 1 => maskOf [(63, 61), (23, 0)]
  | 0x23, 1 => maskOf [(63, 57), (47, 0)]
  | 0x24, 1 => maskOf [(63, 52), (23, 0)]
  | 0x25, 1 => maskOf [(63, 60), (23, 0)]
  | 0x26, 1 => maskOf [(63, 47), (20, 0)]
  | _, 0 => maskOf [(63, 50), (47, 32)]
  | _, _ => 0

/-- Every reserved bit of the words is 0. -/
def reservedClear (op : Nat) (ws : List Word) (words : List Nat) : Bool :=
  words.all fun w => decide ((ws.getD w 0).toNat &&& (2 ^ 64 - 1 - definedBits op w) = 0)

/-- The fields that must name a record, by opcode and fields (R202, R203, R204, R205, R207). -/
def requiredRecs (ws : List Word) : List (Nat × Nat) :=
  match opOf ws with
  | 0x01 | 0x02 =>
    [(4, 54), (4, 44), (4, 14), (4, 4)]
      ++ (if dField ws 2 44 40 = 0x1F then [] else [(5, 34)])
      ++ (if dField ws 1 45 42 > 0 then [(4, 34), (4, 24), (5, 54)] else [])
      ++ (if dField ws 2 46 45 ≥ 2 then [(5, 44)] else [])
  | 0x03 => [(3, 54), (3, 24)]
  | 0x04 =>
    if dBit ws 1 54 then
      [(3, 54), (3, 24)] ++ (if fmtScaled (dField ws 1 53 49) then [(3, 44)] else [])
        ++ (if dField ws 1 42 39 > 0 then [(3, 34), (4, 54)] else [])
    else [(3, 54), (3, 24), (3, 14)] ++ (if dField ws 1 42 39 > 0 then [(3, 4), (4, 54)] else [])
  | 0x05 => [(3, 54), (3, 24), (3, 14)] ++ (if dBit ws 1 32 then [(3, 44)] else [])
  | 0x08 => if dField ws 1 61 59 = 0 then [(2, 54)] else []
  | 0x09 => if dBit ws 1 58 then [(2, 54)] else []
  | 0x0C => if dBit ws 1 63 then [(2, 44)] else [(2, 54), (2, 44)]
  | 0x0D | 0x0E | 0x10 | 0x11 => [(2, 54), (2, 44)]
  | _ => []

/-- The fields that must hold "no record" (R203, R204, R205). -/
def forbiddenRecs (ws : List Word) : List (Nat × Nat) :=
  match opOf ws with
  | 0x03 => [(3, 14), (3, 4), (4, 54)]
  | 0x04 =>
    if dBit ws 1 54 then
      [(3, 14), (3, 4)] ++ (if dField ws 1 53 49 = 0x12 then [(3, 44)] else [])
        ++ (if dField ws 1 42 39 = 0 then [(3, 34), (4, 54)] else [])
    else [(3, 44), (3, 34)] ++ (if dField ws 1 42 39 = 0 then [(3, 4), (4, 54)] else [])
  | 0x05 => [(3, 34), (3, 4), (4, 54)] ++ (if dBit ws 1 32 then [] else [(3, 44)])
  | 0x08 => if dField ws 1 61 59 = 0 then [] else [(2, 54)]
  | 0x09 => if dBit ws 1 58 then [] else [(2, 54)]
  | 0x0C => if dBit ws 1 63 then [(2, 54)] else []
  | _ => []

/-- Whether a field's record may be indirect (R198), and whether it must be (R205). -/
def indirectRule (op : Nat) (p : Nat × Nat) : Bool × Bool :=
  if op = 0x0D && p = (2, 54) then (true, true)
  else if op = 0x0E && p = (2, 44) then (true, true)
  else if stkField op p then (true, false)
  else (false, false)

/-- The check of a record that field p of a LOAD names (R196, R198, R204, R207). `idx` is its index record where it has one: none where
what that record holds is not known. -/
def recordOk (ws : List Word) (p : Nat × Nat) (raw : BitVec 256) (idx : Option (BitVec 256)) : Bool :=
  let op := opOf ws
  let r := decodeField op p raw
  let (may, must) := indirectRule op p
  r.wellFormed && (may || r.indDim = 0) && (!must || r.indDim ≠ 0)
    && (r.indDim = 0 || (r.indRec ≠ noRec && idx.all fun x => indexOk r (decodeRec x)))
    && (match op with
        | 0x08 | 0x09 => decide (r.sz 0 ≤ 128)
        | 0x10 | 0x11 =>
          let fits (x : Option Rec) : Bool := decide (r.sz 0 / 64 * r.rows x = dField ws 1 49 34)
          (stkField op p || r.sz 0 % 64 = 0) && (if r.indDim = 0 then fits none else idx.all fun x => fits (some (decodeRec x)))
        | _ => true)

/-- The fields of a LOAD that name a record. -/
def namedFields (ws : List Word) : List (Nat × Nat) := (recFields (opOf ws)).filter fun p => decide (recIndex ws p ≠ noRec)

/-- The checks of the records a LOAD references (R196, R198, R204, R207). -/
def Tile.recordsOk (t : Tile) (ws : List Word) : Bool :=
  (namedFields ws).all fun p =>
    let raw := t.rawRec (recIndex ws p)
    recordOk ws p raw (some (t.rawRec (decodeField (opOf ws) p raw).indRec))

/-- The checks of the descriptor's own fields beyond reserved bits and records. -/
def fieldsOk (ws : List Word) : Bool :=
  match opOf ws with
  | 0x08 =>
    let sel := dField ws 1 61 59
    (sel = 0 || sel ≥ 4) && decide (dField ws 1 57 42 ≠ 0) && !(sel ≥ 4 && sel - 4 = dField ws 1 63 62)
  | 0x09 => decide (dField ws 1 57 42 ≠ 0)
  | 0x10 | 0x11 => decide (dField ws 1 49 34 ≠ 0)
  | 0x14 => !dBit ws 1 56 || (1 ≤ dField ws 3 63 60 && dField ws 3 63 60 ≤ 5)
  | 0x19 => !dBit ws 1 49 || dBit ws 1 54
  | 0x20 | 0x21 => !dBit ws 0 53
  | 0x24 => decide (dField ws 1 61 59 ≠ 7)
  | 0x26 => 1 ≤ dField ws 1 55 47 && dField ws 1 55 47 ≤ 256 && dField ws 1 20 0 % 128 = 0
  | _ => true

/-- The structure checks of R196 that the descriptor's own words decide. -/
def wordsOk (ws : List Word) : Bool :=
  let op := opOf ws
  if twoPhase op && actionOf ws = 2 then reservedClear op ws [0]
  else
    decide (actionOf ws = if twoPhase op then 1 else 2) && reservedClear op ws (List.range 16) && fieldsOk ws
      && (requiredRecs ws).all (fun p => decide (recIndex ws p ≠ noRec))
      && (forbiddenRecs ws).all (fun p => decide (recIndex ws p = noRec))

/-- The structure checks of R196 that do not depend on the tile's place: a LOAD's also cover the records it references. -/
def Tile.structureOk (t : Tile) (ws : List Word) : Bool := wordsOk ws && (!isLoad ws || t.recordsOk ws)

/-! ## Issue -/

/-- The overlay write of a slot is still to come at beat b (R220). -/
def Tile.overlayPending (t : Tile) (slot b : Nat) : Bool :=
  t.overlays.any fun o => (List.range o.count).any fun i => decide ((o.dstSlot + i) % 256 = slot) && decide (o.go + 1 + i ≥ b)

/-- The beat at which the descriptor at the issue pointer issues (R192): ρ + Δ, or p + 1 where that is not later than p. -/
def Tile.dueBeat (t : Tile) : Nat :=
  let g := t.rho + deltaOf (t.slotWords t.ip.toNat)
  match t.prevIssue with
  | some p => if g ≤ p then p + 1 else g
  | none => g

/-- Whether ρ + Δ is later than the previous issue (R192). -/
def Tile.orderOk (t : Tile) : Bool :=
  match t.prevIssue with
  | some p => decide (p < t.rho + deltaOf (t.slotWords t.ip.toNat))
  | none => true

/-- A descriptor issues in the beat in progress: the tile runs and its beat is due. -/
def State.issueDue (s : State) (k : Nat) : Bool :=
  let t := s.tile k
  s.inBeat k && t.running && !t.halting && decide (t.first ≤ t.beat) && decide (t.dueBeat = t.beat)

/-- Steps 1 to 5 of R504. -/
def State.issueFault (s : State) (k : Nat) (ws : List Word) : Option Status :=
  let t := s.tile k
  let op := opOf ws
  if t.overlayPending t.ip.toNat t.beat then some St.SEQ_OVERLAY_PENDING
  else if t.slotBad t.ip.toNat then some St.SEQ_DESC_PARITY
  else if !opValid op then some St.SEQ_OPCODE
  else if !t.orderOk then some St.SEQ_ISSUE_ORDER
  else if (op = 0x10 || op = 0x11 || op = 0x14 || op = 0x15) && !s.isEdge (keyVx k) (keyVy k) then some St.SEQ_UNIT_ABSENT
  else if !t.structureOk ws then some St.SEQ_CONFIG
  else none

/-- A sequencer fault at the beat in progress: TSQ_ERR, then the pasture stops (R223, R431). -/
def State.seqFault (s : State) (k : Nat) (st : Status) (slot op : Nat) : State :=
  (s.modTile k fun t =>
    { t with tsqErr := ⟨st, BitVec.ofNat 8 slot, BitVec.ofNat 8 op, BitVec.ofNat 32 t.beat⟩ }).stopTile k st

/-- The sequencer's own progress at an issue (R188, R192): a LOAD leaves ρ. -/
def Tile.issued_ (t : Tile) (ws : List Word) : Tile :=
  { t with prevIssue := some t.beat, issued := t.issued + 1, ip := t.ip + 1, rho := if isLoad ws then t.rho else t.beat }

/-- Issue the descriptor at the issue pointer, if it is due and matches; `act` gives the effect of a descriptor that passes
steps 1 to 5 of R504, on the state before the sequencer moves on. -/
def State.issueDesc (s : State) (k : Nat) (isMine : List Word → Bool) (act : State → List Word → Out) : Out :=
  let t := s.tile k
  let ws := t.slotWords t.ip.toNat
  if s.issueDue k && isMine ws then
    s.whileLive k fun s =>
      match s.issueFault k ws with
      | some st => .next (s.seqFault k st t.ip.toNat (opOf ws))
      | none => act s ws
  else nothing s

/-- A fault raised by a descriptor after step 5. -/
def State.descFault (s : State) (k : Nat) (ws : List Word) (st : Status) : State :=
  s.seqFault k st (s.tile k).ip.toNat (opOf ws)

/-- The sequencer moves on after an issue; `f` is the descriptor's own change of the tile. -/
def State.issueTile (s : State) (k : Nat) (ws : List Word) (f : Tile → Tile) : State :=
  s.modTile k fun t => f (t.issued_ ws)

/-- An immediate descriptor: its change of the tile is made only where it acts (R214). -/
def State.issueImmediate (s : State) (k op : Nat) (f : List Word → Tile → Tile) : Out :=
  s.issueDesc k (fun ws => decide (opOf ws = op)) fun s ws =>
    .next (s.issueTile k ws fun t => if t.acts ws then f ws t else t)

/-! ## LOAD (R190, R193) -/

/-- A LOAD in a slot takes its unit's shadow configuration. -/
def Tile.loadShadow (t : Tile) (slot : Nat) (ws : List Word) : Tile :=
  let rs := t.loadRecs ws
  let sh : Shadow := { opcode := BitVec.ofNat 8 (opOf ws), words := ws, todo := rs, slot := slot, loadBeat := t.beat, nRec := rs.length }
  { t with shadows := smapPut t.shadows (shadowUnit ws) sh }

/-- DESC_LOAD (R190): the descriptor goes to its shadow configuration; its records are read one per beat from the next beat. -/
def execDescLoad (vx : Vx) (vy : Vy) (s : State) : Out :=
  let k := tileKey vx vy
  s.issueDesc k isLoad fun s ws =>
    let t := s.tile k
    if t.acts ws && (smapGet {} t.shadows (shadowUnit ws)).todo ≠ [] then .next (s.descFault k ws St.SEQ_LOAD_OVERLAP)
    else .next (s.issueTile k ws fun t' => if t'.acts ws then t'.loadShadow t.ip.toNat ws else t')

/-- One record of each incomplete LOAD is read in a beat after the LOAD's (R190); a pending overlay or a parity error faults
(R185, R220). The Bool list gives the faults with the unit's opcode. -/
def Tile.readRecords (t : Tile) : Tile × List (Status × Nat × Nat) :=
  t.shadows.foldl (fun acc kv =>
    let sh := kv.2
    match sh.todo with
    | [] => acc
    | r :: rest =>
      if sh.loadBeat ≥ t.beat then acc
      else if t.overlayPending (r / 4) (t.beat + 1) then
        (acc.1, acc.2 ++ [(St.SEQ_OVERLAY_PENDING, sh.slot, sh.opcode.toNat)])
      else if t.recBad r then (acc.1, acc.2 ++ [(St.SEQ_DESC_PARITY, r / 4, sh.opcode.toNat)])
      else
        let sh' : Shadow := { sh with recs := smapPut sh.recs r (t.rawRec r), todo := rest }
        ({ acc.1 with shadows := smapPut acc.1.shadows kv.1 sh' }, acc.2)) (t, [])

/-! ## GO (R191, R193, R504) -/

/-- A record of a shadow configuration or job, decoded by its field. -/
def recOf (words : List Word) (recs : SMap (BitVec 256)) (p : Nat × Nat) : Option Rec :=
  let i := recIndex words p
  if i = noRec then none else (smapFind recs i).map (decodeField (opOf words) p)

/-- The index record of a record. -/
def idxOf (recs : SMap (BitVec 256)) (r : Rec) : Option Rec :=
  if r.indDim = 0 then none else (smapFind recs r.indRec).map decodeRec

/-- How many beats before its GO a configuration starts reading (R193). -/
def Shadow.pre (sh : Shadow) : Nat :=
  match sh.opcode.toNat with
  | 0x08 => if dField sh.words 1 61 59 = 0 then 1 else 0
  | 0x10 | 0x11 => match recOf sh.words sh.recs (2, 54) with
    | some r => if r.indDim ≠ 0 then 2 else 0
    | none => 0
  | _ => 0

/-- A GO at beat g may start a configuration (R193). -/
def Shadow.ready (sh : Shadow) (op g : Nat) : Bool :=
  decide (sh.opcode.toNat = op) && sh.todo.isEmpty && decide (sh.loadBeat + sh.nRec + 1 + sh.pre ≤ g)

/-- Step 6 of R504: the configuration a GO starts. -/
def Tile.goShadow (t : Tile) (ws : List Word) : Option Shadow :=
  match smapFind t.shadows (shadowUnit ws) with
  | some sh => if sh.ready (opOf ws) t.beat then some sh else none
  | none => none

/-- A scratchpad record of a configuration names hash mode 3 (R112): the record's BASE. -/
def Shadow.hashFault (sh : Shadow) : Option Nat :=
  let op := sh.opcode.toNat
  let rs := (recFields op).filterMap fun p =>
    if stkField op p then none else recOf sh.words sh.recs p
  let idx := (recFields op).filterMap fun p => match recOf sh.words sh.recs p with
    | some r => idxOf sh.recs r
    | none => none
  ((rs ++ idx).find? fun r => decide (r.hash = 3)).map (·.base)

/-- The key of the counters and data an early read keeps for a GO at beat g of a unit (R191). -/
def earlyKey (unit g : Nat) : Nat := if unit = 3 then 16 + g % 4 else unit

/-- The job a GO starts: counters as latched at its first access beat (R191). -/
def Tile.goJob (t : Tile) (ws : List Word) (sh : Shadow) : Job :=
  { opcode := sh.opcode, slot := t.ip.toNat, go := t.beat, words := sh.words, recs := sh.recs,
    ctrs := if sh.pre = 0 then t.ctrs else smapGet t.ctrs t.early (earlyKey (shadowUnit ws) t.beat) }

/-- A GO of a unit in R504's order: the load check (6), the busy check (7), the hash modes (R112; assumptions 21 and 136), and for an
acting GO the configuration checks (8, 9, 10) and the start. `busy` and `config` give the fault, with the state that records
it; `start` starts the job. -/
def State.issueGo (s : State) (k : Nat) (isMine : List Word → Shadow → Bool) (op : Nat)
    (busy : Tile → Shadow → Option Status) (config : State → Job → Option Status)
    (fault : State → Job → Status → State) (start : Tile → Job → Tile) : Out :=
  s.issueDesc k
    (fun ws => decide (opOf ws = op) && decide (actionOf ws ≠ 1)
      && match smapFind (s.tile k).shadows (shadowUnit ws) with
         | some sh => isMine ws sh
         | none => isMine ws {})
    fun s ws =>
      let t := s.tile k
      match t.goShadow ws with
      | none => .next (s.descFault k ws St.SEQ_LOAD_INCOMPLETE)
      | some sh =>
        let job := t.goJob ws sh
        match busy t sh with
        | some st => .next (fault s job st)
        | none =>
          if !t.acts ws then .next (s.issueTile k ws id)
          else
            match sh.hashFault with
            | some a => .next ((s.spadFaulted k 0 ⟨St.SPD_HASH_MODE, 0, (a : Int)⟩).stopTile k St.SPD_HASH_MODE)
            | none =>
              match config s job with
              | some st => .next (fault s job st)
              | none => .next (s.issueTile k ws fun t => start t job)

/-! ## Counters, comparators and predication (R213) -/

/-- Counter n. -/
def Tile.ctr (t : Tile) (n : Nat) : BitVec 24 := t.ctrs.getD n 0
/-- Set counter n. -/
def Tile.setCtr (t : Tile) (n : Nat) (v : BitVec 24) : Tile := { t with ctrs := t.ctrs.set n v }

/-- CTRSET (R213). -/
def execCtrset (vx : Vx) (vy : Vy) (s : State) : Out :=
  s.issueImmediate (tileKey vx vy) 0x22 fun ws t => t.setCtr (dField ws 1 63 61) (BitVec.ofNat 24 (dField ws 1 23 0))

/-- The sum CTRADD forms: modulo 2^24, then reduced once where WRAP_AT is reached. -/
def ctrSum (c a wrap : BitVec 24) : BitVec 24 :=
  let v := c + a
  if wrap ≠ 0 && wrap ≤ v then v - wrap else v

/-- CTRADD (R213). -/
def execCtradd (vx : Vx) (vy : Vy) (s : State) : Out :=
  s.issueImmediate (tileKey vx vy) 0x23 fun ws t =>
    let c := dField ws 1 63 61
    let a := if dBit ws 1 60 then t.ctr (dField ws 1 59 57) else BitVec.ofNat 24 (dField ws 1 23 0)
    t.setCtr c (ctrSum (t.ctr c) a (BitVec.ofNat 24 (dField ws 1 47 24)))

/-- The relations of REL (R213), unsigned. -/
def relHolds (rel a b : Nat) : Bool :=
  match rel with
  | 0 => decide (a = b)
  | 1 => decide (a ≠ b)
  | 2 => decide (a < b)
  | 3 => decide (a ≤ b)
  | 4 => decide (b < a)
  | 5 => decide (b ≤ a)
  | _ => decide (a &&& b ≠ 0)

/-- CMPSET (R213). -/
def execCmpset (vx : Vx) (vy : Vy) (s : State) : Out :=
  s.issueImmediate (tileKey vx vy) 0x24 fun ws t =>
    let b := if dBit ws 1 55 then (t.ctr (dField ws 1 54 52)).toNat else dField ws 1 23 0
    { t with cond := t.cond.set (dField ws 1 63 62) (relHolds (dField ws 1 61 59) (t.ctr (dField ws 1 58 56)).toNat b) }

/-! ## Loops, NOPB, OVERLAY and HALT -/

/-- The count of a LOOP or NOPB: immediate, or a counter. -/
def Tile.countOf (t : Tile) (ws : List Word) : Nat :=
  if dBit ws 1 63 then (t.ctr (dField ws 1 62 60)).toNat else dField ws 1 23 0

/-- NOPB (R219): ρ = b + n whether or not the predicate holds. -/
def execNopb (vx : Vx) (vy : Vy) (s : State) : Out :=
  let k := tileKey vx vy
  s.issueDesc k (fun ws => decide (opOf ws = 0x25)) fun s ws =>
    .next (s.issueTile k ws fun t => { t with rho := t.beat + t.countOf ws })

/-- The change LOOP makes where it does not fault (R216). -/
def Tile.loopEnter (t : Tile) (ws : List Word) (slot : BitVec 8) : Tile :=
  let n := t.countOf ws
  let e := BitVec.ofNat 8 (dField ws 1 55 48)
  if n = 0 then { t with ip := e + 1 }
  else { t with loops := t.loops ++ [⟨slot + 1, e, BitVec.ofNat 24 n⟩] }

/-- The fault of a LOOP (R216). -/
def Tile.loopFault (t : Tile) (ws : List Word) : Option Status :=
  if t.countOf ws = 0 then
    if opOf (t.slotWords (dField ws 1 55 48)) = 0x21 then none else some St.SEQ_LOOP_MATCH
  else if t.loops.length ≥ 4 then some St.SEQ_LOOP_DEPTH else none

/-- LOOP (R216). -/
def execLoop (vx : Vx) (vy : Vy) (s : State) : Out :=
  let k := tileKey vx vy
  s.issueDesc k (fun ws => decide (opOf ws = 0x20)) fun s ws =>
    let t := s.tile k
    match t.loopFault ws with
    | some st => .next (s.descFault k ws st)
    | none => .next (s.issueTile k ws fun t' => t'.loopEnter ws t.ip)

/-- The top entry of the loop stack. -/
def Tile.loopTop (t : Tile) : Option LoopEntry := t.loops.getLast?

/-- The fault of an ENDLOOP (R217). -/
def Tile.endloopFault (t : Tile) : Option Status :=
  match t.loopTop with
  | none => some St.SEQ_LOOP_EMPTY
  | some e => if e.endSlot = t.ip then none else some St.SEQ_LOOP_MATCH

/-- The change ENDLOOP makes where it does not fault (R217). -/
def Tile.loopNext (t : Tile) : Tile :=
  match t.loopTop with
  | none => t
  | some e =>
    if e.remaining ≤ 1 then { t with loops := t.loops.dropLast }
    else { t with loops := t.loops.dropLast ++ [{ e with remaining := e.remaining - 1 }], ip := e.body }

/-- ENDLOOP (R217). -/
def execEndloop (vx : Vx) (vy : Vy) (s : State) : Out :=
  let k := tileKey vx vy
  s.issueDesc k (fun ws => decide (opOf ws = 0x21)) fun s ws =>
    match (s.tile k).endloopFault with
    | some st => .next (s.descFault k ws st)
    | none => .next (s.issueTile k ws Tile.loopNext)

/-- OVERLAY (R220): its copies are made in the beats that follow. -/
def execOverlay (vx : Vx) (vy : Vy) (s : State) : Out :=
  s.issueImmediate (tileKey vx vy) 0x26 fun ws t =>
    { t with overlays := t.overlays ++
        [{ go := t.beat, dstSlot := dField ws 1 63 56, count := dField ws 1 55 47, src := dField ws 1 20 0 }] }

/-- HALT (R221): the sequencer issues nothing more; the tile has halted after the last beat of its units (BEAT_COMPLETE). -/
def execHalt (vx : Vx) (vy : Vy) (s : State) : Out :=
  s.issueImmediate (tileKey vx vy) 0x27 fun _ t => { t with halting := true }

/-! ## The flow ahead (R188, R193) -/

/-- The store as it will be one and two beats after the beat in progress: an overlay write to a slot that was read ahead replaces
the copy (R220). -/
structure Ahead where
  one : SMap Word := []
  two : SMap Word := []
deriving DecidableEq, Repr, Inhabited

/-- What the issue pointer and ρ become after a descriptor issues at beat g: the part of the flow that early reads follow. -/
def Tile.advanceFlow (t : Tile) (ws : List Word) (g : Nat) : Tile :=
  let t1 := { t with beat := g }
  let t2 := t1.issued_ ws
  match opOf ws with
  | 0x20 => t2.loopEnter ws t.ip
  | 0x21 => if t1.endloopFault.isNone then t2.loopNext else { t2 with halting := true }
  | 0x25 => { t2 with rho := g + t1.countOf ws }
  | 0x27 => if t1.acts ws then { t2 with halting := true } else t2
  | _ => t2

/-- The GO that issues at beat g from the issue pointer, if one does: its words. -/
def Tile.goAt (t : Tile) (g : Nat) : Option (List Word) :=
  let ws := t.slotWords t.ip.toNat
  if !t.halting && opValid (opOf ws) && t.dueBeat = g && t.orderOk && isGo ws then some ws else none

/-- The GO that issues exactly `d` beats after the beat in progress, for d 1 or 2, if the flow leads to one: its words, from the
store as it will be then. -/
def Tile.goAhead (t : Tile) (look : Ahead) (d : Nat) : Option (List Word) :=
  if !t.running || t.halting || t.beat + d < t.first then none
  else
    let t1 := { t with store := look.one }
    if d = 1 then t1.goAt (t.beat + 1)
    else
      let ws := t1.slotWords t.ip.toNat
      let t2 := if opValid (opOf ws) && t1.dueBeat = t.beat + 1 && t1.orderOk then t1.advanceFlow ws (t.beat + 1) else t
      ({ t2 with store := look.two }).goAt (t.beat + 2)

end Sys2Proof.Machine
end

