-- ==== Sys2Proof/Machine/Matrix.lean ====
section
/-!
DEFINITION. The matrix unit: configuration, geometry classes, beat plan, block values, accumulation and readout of MATMUL and
CONV (R94 to R103, R136 to R164).
-/
namespace Sys2Proof.Machine

/-! ## Configuration (R150, R160, R202) -/

/-- The configuration of a MATMUL or CONV. -/
structure MxCfg where
  conv      : Bool := false
  flow      : Nat := 0
  exact     : Bool := false
  transpose : Bool := false
  mask      : Nat := 0
  fmtW      : Nat := 0
  fmtA      : Nat := 0
  strayS    : Nat := 0
  strayFmt  : Bool := false
  k         : Nat := 0
  n         : Nat := 0
  nv        : Nat := 0
  accBase   : Nat := 0
  accIn     : Nat := 0
  outFmt    : Nat := 0
  baseW     : Int := 0
  baseA     : Int := 0
  tag       : Nat := 0
  arrStride : Int := 0
  outStride : Int := 0
deriving DecidableEq, Repr, Inhabited

/-- Read the fields of R202. -/
def mxCfg (ws : List Word) : MxCfg :=
  { conv := decide (opOf ws = 2), flow := dField ws 1 63 62, exact := dBit ws 1 61, transpose := dBit ws 1 60,
    mask := dField ws 1 59 56, fmtW := dField ws 1 55 51, fmtA := dField ws 1 50 46, strayS := dField ws 1 45 42,
    strayFmt := dBit ws 1 41, k := dField ws 1 40 17, n := dField ws 1 16 1, nv := dField ws 2 63 55,
    accBase := dField ws 2 54 47, accIn := dField ws 2 46 45, outFmt := dField ws 2 44 40,
    baseW := dSigned ws 2 39 24, baseA := dSigned ws 2 23 8, tag := dField ws 2 7 0,
    arrStride := dSigned ws 3 63 43, outStride := dSigned ws 3 42 22 }

/-- Output-stationary flow. -/
def MxCfg.os (c : MxCfg) : Bool := c.flow = 2
/-- Input-stationary flow. -/
def MxCfg.is_ (c : MxCfg) : Bool := c.flow = 1

/-- The narrow formats LI2, LT and LB, widened outside G2 (R139). -/
def fmtNarrow (f : Nat) : Bool := f = 4 || f = 5 || f = 6

/-- Element bits after widening. -/
def fmtWidened (f : Nat) : Nat := if f = 8 || f = 9 then 6 else if f = 0x0A || f = 0x0B || f = 0x0C then 8 else 4

/-- The geometry class (R139): 4, 2, 6 or 8. -/
def MxCfg.cls (c : MxCfg) : Nat :=
  let w := max (fmtWidened c.fmtW) (fmtWidened c.fmtA)
  if w = 8 then 8 else if w = 6 then 6
  else if !c.is_ && !c.os && fmtNarrow c.fmtW then 2 else 4

/-- Logical rows per pass. -/
def MxCfg.kp (c : MxCfg) : Nat := match c.cls with | 2 => 128 | 8 => 32 | _ => 64
/-- Logical columns. -/
def MxCfg.cp (c : MxCfg) : Nat := if c.cls = 6 || c.cls = 8 then 32 else 64
/-- The largest stray count (R149). -/
def MxCfg.strayMax (c : MxCfg) : Nat := if c.cls = 2 then 4 else 8
/-- The product-block size (R94). -/
def MxCfg.pb (c : MxCfg) : Nat := if c.fmtW = 2 && c.fmtA = 2 then 64 else 32
/-- The spacing sp (R141). -/
def MxCfg.sp (c : MxCfg) : Nat := if c.exact then 2 else 1
/-- Reduction passes per output tile. -/
def MxCfg.kt (c : MxCfg) : Nat := ceilDiv c.k c.kp
/-- Output tiles. -/
def MxCfg.nt (c : MxCfg) : Nat := ceilDiv c.n c.cp
/-- Passes, or block slots in OS. -/
def MxCfg.passes (c : MxCfg) : Nat := if c.os then c.k / c.pb else c.kt * c.nt
/-- The pass period T, or the block slot's beats B. -/
def MxCfg.period (c : MxCfg) : Nat := if c.os then max 64 (c.pb * c.sp) else max 64 (c.nv * c.sp)
/-- Entries used (R151). -/
def MxCfg.used (c : MxCfg) : Nat := if c.os then c.nv else c.nv * c.nt
/-- Beats per readout entry (R155). -/
def MxCfg.rOut (c : MxCfg) : Nat := if c.outFmt = 0x12 then 2 else 1
/-- Beats per C entry: FP32 in normal mode, LONG in exact mode. -/
def MxCfg.rIn (c : MxCfg) : Nat := if c.exact then 2 else 1

/-- The first streamed entry e0 (R156). -/
def mxE0 (g : Nat) : Nat := g + 65
/-- The last addition U (R156, R157). For OS with K = 0 the r of U is that of C entries (assumption 23). -/
def MxCfg.lastAdd (c : MxCfg) (g : Nat) : Nat :=
  if c.os then
    if c.k = 0 then g + c.used * c.rIn else mxE0 g + (c.passes - 1) * c.period + (c.pb - 1) * c.sp + 200
  else mxE0 g + (c.passes - 1) * c.period + (c.nv - 1) * c.sp + 137
/-- The stream end E (R158). -/
def MxCfg.streamEnd (c : MxCfg) (g : Nat) : Nat :=
  if c.os && c.k = 0 then g + 65 else mxE0 g + c.passes * c.period
/-- The descriptor's last beat. -/
def MxCfg.lastBeat (c : MxCfg) (g : Nat) : Nat :=
  let u := c.lastAdd g
  if c.outFmt = 0x1F then u else u + 1 + c.used * c.rOut

/-! ## Checks at GO (R151, R158 to R160) -/

/-- The busy check (R158, R159): two in progress, or a GO before the predecessor allows it. -/
def Tile.mxBusy (t : Tile) (sh : Shadow) : Option Status :=
  let c := mxCfg sh.words
  match t.mxJobs.getLast? with
  | none => none
  | some j =>
    let d := mxCfg j.words
    let same := c.flow = d.flow && c.cls = d.cls && c.exact = d.exact
    let earliest := if same then d.streamEnd j.go - 65 else d.lastAdd j.go - 49
    if t.mxJobs.length ≥ 2 || t.beat < earliest then some St.MXU_BUSY else none

/-- The arrays in a mask. -/
def MxCfg.arrays (c : MxCfg) : List Nat := (List.range 4).filter fun a => c.mask.testBit a

/-- An operand record of a job. -/
def Job.rec? (j : Job) (p : Nat × Nat) : Option Rec := recOf j.words j.recs p
/-- An operand record of a job, empty where absent. -/
def Job.rec! (j : Job) (p : Nat × Nat) : Rec := (j.rec? p).getD {}

/-- C_IN of a CONV. -/
def convCin (ws : List Word) : Nat := dField ws 6 31 16

/-- The unit's checks at GO in the order of R151's table, after the busy check. -/
def Tile.mxFault (t : Tile) (j : Job) : Option Status :=
  let c := mxCfg j.words
  let fp8 (f : Nat) : Bool := f = 0x0A || f = 0x0B
  let clash : Bool := t.mxJobs.any fun o =>
    let d := mxCfg o.words
    let u := d.lastAdd o.go
    d.outFmt ≠ 0x1F && (c.mask &&& d.mask) ≠ 0 &&
      (List.range d.used).any fun x =>
        u + 1 + x * d.rOut ≥ j.go && c.accBase ≤ d.accBase + x && d.accBase + x < c.accBase + c.used
  let share : Bool := c.outFmt ≠ 0x1F && t.mxJobs.any fun o =>
    let d := mxCfg o.words
    let u := c.lastAdd j.go
    let v := d.lastAdd o.go
    d.outFmt ≠ 0x1F && u + 1 ≤ v + d.used * d.rOut && v + 1 ≤ u + c.used * c.rOut
  let companions : List Rec := [(4, 44), (4, 34), (4, 24), (4, 4), (5, 54), (5, 44)].map j.rec!
  if !fmtScaled c.fmtW || !fmtScaled c.fmtA || companions.any (fun r => !fmtValid r.fmt)
      || (c.exact && (fp8 c.fmtW || fp8 c.fmtA || fmtQ c.fmtW + fmtQ c.fmtA > 12))
      || (c.exact && c.strayS > 0 && c.strayFmt) then some St.MXU_FORMAT_PAIR
  else if c.k % c.pb ≠ 0 || (j.rec! (4, 54)).sz 0 % fmtBlock c.fmtW ≠ 0
      || (j.rec! (4, 14)).sz 0 % fmtBlock c.fmtA ≠ 0 then some St.MXU_BLOCK_ALIGN
  else if c.strayS > 8 || (c.strayS > 0 && (c.os || c.transpose || c.strayS > c.strayMax)) then some St.MXU_STRAY_MODE
  else if c.accBase + c.used > 256 then some St.MXU_ACC_RANGE
  else if clash || share then some St.MXU_ACC_CONFLICT
  else if c.flow = 3 || (c.conv && c.flow ≠ 0) || c.mask = 0 || c.nv = 0 || c.n = 0 || (c.k = 0 && !c.os)
      || (c.os && (c.nv > c.kp || c.n > c.cp))
      || !(c.outFmt = 0x10 || c.outFmt = 0x11 || c.outFmt = 0x12 || c.outFmt = 0x1F)
      || (c.outFmt = 0x12 && !c.exact) || (c.outFmt = 0x10 && c.exact)
      || (c.accIn ≥ 2 && (j.rec! (5, 44)).fmt ≠ (if c.exact then 0x12 else 0x11))
      || (c.conv && (convCin j.words % c.pb ≠ 0 || (c.strayS > 0 && convCin j.words % 64 ≠ 0) || dField j.words 6 15 0 = 0))
    then some St.MXU_CONFIG
  else none

/-- A matrix-unit fault at the beat in progress (R163). -/
def State.mxuFault (s : State) (k slot mask : Nat) (st : Status) : State :=
  (s.modTile k fun t =>
    { t with mxErr := ⟨st, BitVec.ofNat 8 slot, BitVec.ofNat 8 mask, BitVec.ofNat 32 t.beat⟩ }).stopTile k st

/-! ## Operand roles -/

/-- An operand's role in a flow: its element, side and stray records, format, base exponent, and whether it is staged. -/
structure MxRole where
  elem  : Rec := {}
  side  : Rec := {}
  stray : Rec := {}
  fmt   : Nat := 0
  base  : Int := 0
deriving DecidableEq, Repr, Inhabited

/-- The W operand. -/
def Job.roleW (j : Job) : MxRole :=
  let c := mxCfg j.words
  ⟨j.rec! (4, 54), j.rec! (4, 44), j.rec! (4, 24), c.fmtW, c.baseW⟩
/-- The A operand. -/
def Job.roleA (j : Job) : MxRole :=
  let c := mxCfg j.words
  ⟨j.rec! (4, 14), j.rec! (4, 4), j.rec! (5, 54), c.fmtA, c.baseA⟩
/-- The staged operand (R146): A in IS, else W. -/
def Job.staged (j : Job) : MxRole := if (mxCfg j.words).is_ then j.roleA else j.roleW
/-- The streamed operand. -/
def Job.streamed (j : Job) : MxRole := if (mxCfg j.words).is_ then j.roleW else j.roleA

/-- Array a's copy of a per-array record (R150). -/
def shiftRec (r : Rec) (o : Int) (ctrs : List (BitVec 24)) (i : Nat) : Int := r.row ctrs i + o

/-- The address of a row at given outer coordinates. -/
def Rec.rowAt (r : Rec) (ctrs : List (BitVec 24)) (co : List Nat) : Int :=
  ((({ r with indDim := 0 } : Rec).rowAddr ctrs co none)).getD 0

/-- The reduction indices of pass p: first, and one past the last. -/
def MxCfg.span (c : MxCfg) (p : Nat) : Nat × Nat :=
  if c.os then (p * c.pb, p * c.pb + c.pb)
  else
    let lo := p % c.kt * c.kp
    (lo, min c.k (lo + c.kp))

/-- The output columns of pass p: first, and one past the last. -/
def MxCfg.colSpan (c : MxCfg) (p : Nat) : Nat × Nat :=
  if c.os then (0, c.n)
  else
    let lo := p / c.kt * c.cp
    (lo, min c.n (lo + c.cp))

/-- The stray groups a pass touches (R149). -/
def MxCfg.groups (c : MxCfg) (p : Nat) : List Nat :=
  let (lo, hi) := c.span p
  if c.strayS = 0 then [] else (List.range (ceilDiv hi 64 - lo / 64)).map (· + lo / 64)
/-- The groups whose record a pass uses: those that end in it (R148, R153), in G8 only with their indices 32 to 63 (R149), so that a last
group of 32 indices has none there (assumption 22). -/
def MxCfg.endGroups (c : MxCfg) (p : Nat) : List Nat :=
  (c.groups p).filter fun q => decide ((if c.cls = 8 then 64 * q + 64 else min (64 * q + 64) c.k) ≤ (c.span p).2)

/-! ## The convolution window (R160, R161) -/

/-- Where reduction index k of streamed vector v lies in the input: channel, column, row; none for a zero fill. K alone says how many taps there
are, and C_IN = 0 runs (DESIGN CHOICE, assumption 138). -/
def convAt (ws : List Word) (a : Rec) (v k : Nat) : Option (Nat × Nat × Nat) :=
  let f (hi : Nat) : Nat := dField ws 6 hi (hi - 3)
  let kw := f 59 + 1
  let sh := f 55 + 1
  let sw := f 51 + 1
  let dh := f 47 + 1
  let dw := f 43 + 1
  let ow := dField ws 6 15 0
  let pos := dField ws 7 47 32 + v
  let oy := dField ws 7 63 48 + pos / ow
  let ox := pos % ow
  let tap := k / convCin ws
  let y : Int := (oy * sh + tap / kw * dh : Nat) - (f 39 : Int)
  let x : Int := (ox * sw + tap % kw * dw : Nat) - (f 35 : Int)
  if y < 0 || x < 0 || y ≥ (a.sz 2 : Int) || x ≥ (a.sz 1 : Int) then none
  else some (k % convCin ws, x.toNat, y.toNat)

/-! ## Where an operand's parts lie -/

/-- The streamed operand's element k of vector v: its row and dimension-0 index; none for a zero fill. -/
def Job.streamPlace (j : Job) (v k : Nat) : Option (Int × Nat) :=
  let r := j.streamed.elem
  if (mxCfg j.words).conv then
    (convAt j.words r v k).map fun (ch, x, y) => (r.rowAt j.ctrs [x, y, 0], ch)
  else some (r.row j.ctrs v, k)

/-- The streamed operand's side row and block index for element k of vector v. -/
def Job.streamSide (j : Job) (v k : Nat) : Option (Int × Nat) :=
  let ro := j.streamed
  if (mxCfg j.words).conv then
    (convAt j.words ro.elem v k).map fun (ch, x, y) => (ro.side.rowAt j.ctrs [x, y, 0], ch / fmtBlock ro.fmt)
  else some (ro.side.row j.ctrs v, k / fmtBlock ro.fmt)

/-- The streamed operand's stray record of group q for vector v (R91); none for a zero fill. -/
def Job.streamStray (j : Job) (v q : Nat) : Option Int :=
  let ro := j.streamed
  if (mxCfg j.words).conv then
    (convAt j.words ro.elem v (64 * q)).map fun (ch, x, y) => ro.stray.rowAt j.ctrs [x, y, ch / 64]
  else some (ro.stray.rowAt j.ctrs [v, q, 0])

/-- The staged operand's element for reduction index k and output column n: row and dimension-0 index; with TRANSPOSE = 1
dimension 1 is the reduction (R146). -/
def Job.stagePlace (j : Job) (n k : Nat) : Int × Nat :=
  let r := j.staged.elem
  if (mxCfg j.words).transpose then (r.row j.ctrs k, n) else (r.row j.ctrs n, k)

/-- The staged operand's side row and block. -/
def Job.stageSide (j : Job) (n k : Nat) : Int × Nat :=
  let ro := j.staged
  if (mxCfg j.words).transpose then (ro.side.row j.ctrs k, n / fmtBlock ro.fmt)
  else (ro.side.row j.ctrs n, k / fmtBlock ro.fmt)

/-- The staged operand's stray record of group q for column n: dimension 1 counts columns and dimension 2 groups (DESIGN CHOICE, assumption
138). -/
def Job.stageStray (j : Job) (n q : Nat) : Int := j.staged.stray.rowAt j.ctrs [n, q, 0]

/-- The stray map of group q. -/
def Job.mapRow (j : Job) (q : Nat) : Int := (j.rec! (4, 34)).row j.ctrs q

/-! ## Captured lines -/

/-- The parts of the operands a job captures. -/
inductive MxPart where
  | elem | side | stray | map
deriving DecidableEq, Repr, Inhabited

/-- A part's number in capture keys. -/
def MxPart.num : MxPart → Nat
  | .elem => 0
  | .side => 1
  | .stray => 2
  | .map => 3

/-- The key of a captured line. -/
def capKey (prefix_ : Nat) (part : MxPart) (line : Int) : Nat := (prefix_ * 4 + part.num) * 32768 + line.toNat

/-- Read bytes of captured lines. -/
def capReader (m : SMap (List Byte)) (prefix_ : Nat) (part : MxPart) : Reader := fun a n =>
  (List.range n).map fun i =>
    let x := a + (i : Nat)
    ((smapFind m (capKey prefix_ part (x / 64))).getD []).getD (x % 64).toNat 0

/-- The prefix of a streamed vector's captures: pass, vector, array. -/
def streamPrefix (p v a : Nat) : Nat := (p * 512 + v) * 4 + a

/-- Capture the lines of some addresses of an operand. -/
def capture (t : Tile) (r : Rec) (prefix_ : Nat) (part : MxPart) (as : List Int) (m : SMap (List Byte)) : SMap (List Byte) :=
  (dedupLines as).foldl (fun m a =>
    smapPut m (capKey prefix_ part (a / 64)) (t.bytes r.hash (a / 64 * 64) 64)) m

/-! ## The beat plan (R156) -/

/-- The staged lines of pass p in order: elements, side array, stray records and stray map. -/
def Job.stageLines (j : Job) (p : Nat) : List (MxPart × Rec × Int) :=
  let c := mxCfg j.words
  let ro := j.staged
  let (lo, hi) := c.span p
  let (n0, n1) := c.colSpan p
  let cols := (List.range (n1 - n0)).map (· + n0)
  let els := if c.transpose then
      (List.range (hi - lo)).flatMap fun i => ro.elem.elemLines ro.fmt (ro.elem.row j.ctrs (lo + i)) n0 n1
    else cols.flatMap fun n => ro.elem.elemLines ro.fmt (ro.elem.row j.ctrs n) lo hi
  let b := fmtBlock ro.fmt
  let sds := if c.transpose then
      (List.range (hi - lo)).flatMap fun i => sideLines ro.fmt (ro.side.row j.ctrs (lo + i)) (n0 / b) (ceilDiv n1 b)
    else cols.flatMap fun n => sideLines ro.fmt (ro.side.row j.ctrs n) (lo / b) (ceilDiv hi b)
  let sts := (c.endGroups p).flatMap fun q => cols.flatMap fun n => spanLines (j.stageStray n q) (c.strayS + 1)
  let mps := (c.groups p).flatMap fun q => spanLines (j.mapRow q) 8
  (dedupLines els).map (fun a => (.elem, ro.elem, a)) ++ (dedupLines sds).map (fun a => (.side, ro.side, a))
    ++ (dedupLines sts).map (fun a => (.stray, ro.stray, a)) ++ (dedupLines mps).map fun a => (.map, j.rec! (4, 34), a)

/-- The line staged at beat b, with its pass. Lines beyond the pass period are never read (assumption 23). -/
def Job.stageAt (j : Job) (b : Nat) : Option (Nat × MxPart × Rec × Int) :=
  let c := mxCfg j.words
  let p := (b - j.go) / c.period
  if b < j.go || p ≥ c.passes then none
  else ((j.stageLines p)[(b - j.go) % c.period]?).map fun x => (p, x)

/-- The streamed vectors whose lines are read at beat b: pass and vector. In WS, IS and CONV vector j of pass p is read one
beat before it enters; in OS vector i's block is read at s_b − 65 + i. -/
def Job.vectorRead (j : Job) (b : Nat) : Option (Nat × Nat) :=
  let c := mxCfg j.words
  let first := if c.os then j.go else j.go + 64
  let p := (b - first) / c.period
  let r := (b - first) % c.period
  let step := if c.os then 1 else c.sp
  if b < first || p ≥ c.passes || r % step ≠ 0 || r / step ≥ c.nv then none else some (p, r / step)

/-- The lines of array a's vector v in pass p, by part. -/
def Job.vectorLines (j : Job) (p v a : Nat) : List (MxPart × Rec × List Int) :=
  let c := mxCfg j.words
  let ro := j.streamed
  let o : Int := a * c.arrStride
  let (lo, hi) := c.span p
  let ks := (List.range (hi - lo)).map (· + lo)
  let els : List Int := if c.conv then ks.flatMap fun k => match j.streamPlace v k with
      | some (row, i) => ro.elem.elemLines ro.fmt (row + o) i (i + 1)
      | none => []
    else ro.elem.elemLines ro.fmt (ro.elem.row j.ctrs v + o) lo hi
  let sds : List Int := ks.flatMap fun k =>
    if k % 32 ≠ 0 && k ≠ lo then [] else match j.streamSide v k with
      | some (row, b) => sideLines ro.fmt (row + o) b (b + 1)
      | none => []
  let sts : List Int := (c.endGroups p).flatMap fun q => match j.streamStray v q with
      | some row => spanLines (row + o) (c.strayS + 1)
      | none => []
  [(.elem, ro.elem, els), (.side, ro.side, sds), (.stray, ro.stray, sts)]

/-- Output columns of the entry x that lie below N. -/
def MxCfg.entryCols (c : MxCfg) (x : Nat) : Nat := if c.os then c.n else min c.cp (c.n - x / c.nv * c.cp)

/-- The r-th share of a list of lines (R156). -/
def share {α : Type} (ls : List α) (r i : Nat) : List α :=
  let per := ceilDiv ls.length r
  (ls.drop (i * per)).take per

/-- The lines of entry x of C for array a. -/
def Job.cLines (j : Job) (x a : Nat) : List Int :=
  let c := mxCfg j.words
  let r := j.rec! (5, 44)
  dedupLines (r.elemLines r.fmt (r.row j.ctrs x + (a : Int) * c.outStride) 0 (c.entryCols x))

/-- The C entry whose lines are read at beat b, and which share. -/
def Job.cRead (j : Job) (b : Nat) : Option (Nat × Nat) :=
  let c := mxCfg j.words
  if c.accIn < 2 || b < j.go || (b - j.go) / c.rIn ≥ c.used then none else some ((b - j.go) / c.rIn, (b - j.go) % c.rIn)

/-- The entry whose lines are written at beat b, and which share. -/
def Job.outWrite (j : Job) (b : Nat) : Option (Nat × Nat) :=
  let c := mxCfg j.words
  let u := c.lastAdd j.go
  if c.outFmt = 0x1F || b < u + 2 || (b - u - 2) / c.rOut ≥ c.used then none
  else some ((b - u - 2) / c.rOut, (b - u - 2) % c.rOut)

/-- The key of an entry read out and not yet written. -/
def outKey (x a : Nat) : Nat := 2 ^ 80 + x * 4 + a

/-- The bytes of entry x of array a with their addresses. -/
def Job.outBytes (j : Job) (x a : Nat) : List (Int × Byte) :=
  let c := mxCfg j.words
  let r := j.rec! (5, 34)
  let row := r.row j.ctrs x + (a : Int) * c.outStride
  let w := fmtBits c.outFmt / 8
  let bs := (smapFind j.cap (outKey x a)).getD []
  (List.range (c.entryCols x)).flatMap fun i => addressed (row + (i : Nat) * r.st 0) ((bs.drop (i * w)).take w)

/-- The scheduled accesses of a matrix descriptor at beat b. -/
def Job.mxAccesses (j : Job) (b : Nat) : List Access :=
  let c := mxCfg j.words
  let st := match j.stageAt b with
    | some (_, _, r, a) => r.readLines [a]
    | none => []
  let vs := match j.vectorRead b with
    | some (p, v) => c.arrays.flatMap fun a => (j.vectorLines p v a).flatMap fun (_, r, as) => r.readLines as
    | none => []
  let cs := match j.cRead b with
    | some (x, i) => c.arrays.flatMap fun a => (j.rec! (5, 44)).readLines (share (j.cLines x a) c.rIn i)
    | none => []
  let os := match j.outWrite b with
    | some (x, i) => c.arrays.flatMap fun a => share (writeAccesses (j.rec! (5, 34)).hash (j.outBytes x a)) c.rOut i
    | none => []
  st ++ vs ++ cs ++ os

/-! ## Block values (R80 to R95, R101) -/

/-- The channels a stray map names below S, or none where R93 refuses it. -/
def mapChannels (s : Nat) (bs : List Byte) : Option (List Nat) :=
  let ch (i : Nat) : Nat := (bs.getD i 0).toNat % 64
  let valid (i : Nat) : Bool := (bs.getD i 0).toNat ≥ 128
  if (List.range 8).all (fun i => if i < s then valid i && (i = 0 || ch (i - 1) < ch i) else !valid i)
  then some ((List.range s).map ch) else none

/-- A scale's use in a block: its exponent, or none where the block contributes zero; and its NONFINITE and SCALE_OUT counts.
In exact mode the exponent is the offset within the window (R101). -/
def scaleUse (exact : Bool) (base : Int) (code : Nat) : Option Int × RwCount :=
  match scaleExp code with
  | none => (none, { nonfinite := 1 })
  | some e =>
    if !exact then (some e, {})
    else
      let d := e - base
      if d > 31 then (some 31, { scaleOut := 1 })
      else if d < 0 then (none, { scaleOut := 1 })
      else (some d, {})

/-- The value on its grid of a format's element code as elemFrom gives it. -/
def codeVal (f c nudge : Nat) : Int := if f = 0x05 && c = 3 then 0 else gridVal f c nudge

/-- The nudge of element i of an LF4 block's side entry (R82, R85); 0 otherwise. -/
def nudgeOf (f : Nat) (side : List Byte) (i : Nat) : Nat :=
  if f = 0x02 then (byteAt side 1).toNat + 256 * (byteAt side 2).toNat |>.shiftRight (2 * (i % 64 / 8)) |> (· % 4) else 0

/-- An element of a captured operand: its grid value, its scale code. -/
structure MxElem where
  val   : Int := 0
  scale : Nat := 127
  fill  : Bool := false
deriving DecidableEq, Repr, Inhabited

/-- The code of the staged element for column n and index k in pass p. -/
def Job.stageCode (j : Job) (p n k : Nat) : Nat :=
  let ro := j.staged
  let (row, i) := j.stagePlace n k
  elemFrom (capReader j.cap p .elem) ro.elem ro.fmt row i

/-- The staged element for column n and index k in pass p. -/
def Job.stageElem (j : Job) (p n k : Nat) : MxElem :=
  let ro := j.staged
  let (srow, b) := j.stageSide n k
  let sd := sideFrom (capReader j.cap p .side) ro.fmt srow b
  { val := codeVal ro.fmt (j.stageCode p n k) (nudgeOf ro.fmt sd (j.stagePlace n k).2), scale := (byteAt sd 0).toNat }

/-- The streamed element for vector v of array a and index k in pass p. -/
def Job.streamElem (j : Job) (p v a k : Nat) : MxElem :=
  let c := mxCfg j.words
  let ro := j.streamed
  let o : Int := a * c.arrStride
  let pre := streamPrefix p v a
  match j.streamPlace v k, j.streamSide v k with
  | some (row, i), some (srow, b) =>
    let sd := sideFrom (capReader j.capIdx pre .side) ro.fmt (srow + o) b
    let cd := elemFrom (capReader j.capIdx pre .elem) ro.elem ro.fmt (row + o) i
    { val := codeVal ro.fmt cd (nudgeOf ro.fmt sd i), scale := (byteAt sd 0).toNat }
  | _, _ => { fill := true }

/-- The stray channels of group q as captured in pass p. -/
def Job.mapOf (j : Job) (p q : Nat) : List Nat :=
  (mapChannels (mxCfg j.words).strayS (capReader j.cap p .map (j.mapRow q) 8)).getD []

/-- Whether the main products of index k are excluded: its channel is in its group's map (R92). -/
def Job.excluded (j : Job) (p k : Nat) : Bool :=
  (mxCfg j.words).strayS > 0 && (j.mapOf p (k / 64)).contains (k % 64)

/-- The exact value of a block sum in units of 2^−q under two scale uses: a dyadic in normal mode; in exact mode a multiple of
2^−12 (R95, R98, R101). -/
def blockValue (exact : Bool) (q : Nat) (sum : Int) (sw sa : Option Int) : Dyad :=
  match sw, sa with
  | some w, some a => if exact then ⟨sum * pow2 (w + a) * (2 : Int) ^ (12 - q), 0⟩ else ⟨sum, w + a - (q : Int)⟩
  | _, _ => {}

/-- The product block from index k0 in pass p, of column n and vector v of array a. -/
def Job.mainBlock (j : Job) (p n v a k0 : Nat) : Dyad :=
  let c := mxCfg j.words
  let ks := ((List.range c.pb).map (· + k0)).filter fun k => decide (k < c.k) && !j.excluded p k
  let sum := ks.foldl (fun (s : Int) k => s + (j.stageElem p n k).val * (j.streamElem p v a k).val) 0
  let st := j.stageElem p n k0
  let sm := j.streamElem p v a k0
  if sm.fill then {}
  else blockValue c.exact (fmtQ c.fmtW + fmtQ c.fmtA) sum (scaleUse c.exact j.staged.base st.scale).1
    (scaleUse c.exact j.streamed.base sm.scale).1

/-- The stray format of a descriptor (R90). -/
def MxCfg.strayFormat (c : MxCfg) : Nat := if c.strayFmt then 0x0A else 0x0C

/-- The stray record of group q in pass p, of column n and vector v of array a (R91, R94). -/
def Job.strayBlock (j : Job) (p n v a q : Nat) : Dyad :=
  let c := mxCfg j.words
  let f := c.strayFormat
  let x := capReader j.cap p .stray (j.stageStray n q) (c.strayS + 1)
  match j.streamStray v q with
  | none => {}
  | some row =>
    let y := capReader j.capIdx (streamPrefix p v a) .stray (row + (a : Int) * c.arrStride) (c.strayS + 1)
    let sum := (List.range c.strayS).foldl (fun (s : Int) i =>
      s + gridVal f (byteAt x i).toNat 0 * gridVal f (byteAt y i).toNat 0) 0
    blockValue c.exact (2 * fmtQ f) sum (scaleUse c.exact j.staged.base (byteAt x c.strayS).toNat).1
      (scaleUse c.exact j.streamed.base (byteAt y c.strayS).toNat).1

/-- The blocks of one addition in their order (R97, R153): by stray group, main blocks ascending, then the stray record. -/
def Job.blocks (j : Job) (p n v a : Nat) : List Dyad :=
  let c := mxCfg j.words
  let (lo, hi) := c.span p
  let starts := ((List.range ((hi - lo) / c.pb)).map fun i => lo + i * c.pb)
  let gs := (List.range (ceilDiv hi 64 - lo / 64)).map (· + lo / 64)
  gs.flatMap fun q =>
    ((starts.filter fun k => decide (k / 64 = q)).map fun k => j.mainBlock p n v a k)
      ++ (if (c.endGroups p).contains q then [j.strayBlock p n v a q] else [])

/-! ## Accumulators (R96, R103, R152, R154) -/

/-- The key of an accumulator column. -/
def accKey (a e col : Nat) : Nat := (a * 256 + e) * 64 + col

/-- Add a block value to a column: one rounding in normal mode, an integer sum in exact mode; the count of saturations. -/
def accAdd (exact : Bool) (x : BitVec 96) (v : Dyad) : BitVec 96 × Nat :=
  if exact then
    let (y, sat) := longClamp (x.toInt + v.m)
    (BitVec.ofInt 96 y, if sat then 1 else 0)
  else
    match f32Val (x.setWidth 32) with
    | .fin d =>
      let (y, sat) := roundF32 (d.add v)
      (y.setWidth 96, if sat then 1 else 0)
    | _ => ((Config.nonfiniteAdd (x.setWidth 32) v.m v.e).setWidth 96, 0)

/-- Add several blocks in order. -/
def accAddAll (exact : Bool) (x : BitVec 96) (vs : List Dyad) : BitVec 96 × Nat :=
  vs.foldl (fun acc v => let (y, n) := accAdd exact acc.1 v; (y, acc.2 + n)) (x, 0)

/-- A column's output bytes under OUT_FMT with B = Bw + Ba, and its range-watch events (R80, R89, R100, R155): an exact column is
converted to FP32, a normal one keeps its FP32 bits or is narrowed to BF16 with a non-finite value replaced. LONG writes the value as it stands,
−2^95 too, and counts nothing (DESIGN CHOICE, assumption 137). -/
def readColumn (exact : Bool) (outFmt : Nat) (bsum : Int) (x : BitVec 96) : List Byte × RwCount :=
  match outFmt with
  | 0x12 => (bytesOf 12 x.toNat, {})
  | 0x10 =>
    let (d, r) := (f32Val (x.setWidth 32)).source bf16Max
    let (y, s) := roundBF16 d
    (bytesOf 2 y.toNat, { accSat := if s then 1 else 0, nonfinite := if r then 1 else 0 })
  | _ =>
    if exact then
      let (y, s) := roundF32 ⟨x.toInt, bsum - 12⟩
      (bytesOf 4 y.toNat, { accSat := if s then 1 else 0 })
    else (bytesOf 4 (x.setWidth 32).toNat, {})

/-- The sum of some columns' events. -/
def sumCounts (cs : List RwCount) : RwCount :=
  cs.foldl (fun n c => ⟨n.nonfinite + c.nonfinite, n.accSat + c.accSat, n.scaleOut + c.scaleOut, n.satElem + c.satElem⟩) {}

/-- The physical column of a logical one: in G6 and G8 its eastern cell. -/
def MxCfg.physCol (c : MxCfg) (n : Nat) : Nat := if c.cls = 6 || c.cls = 8 then 2 * n + 1 else n
/-- The physical row of a logical row in OS: in G8 its southern cell. -/
def MxCfg.physRow (c : MxCfg) (i : Nat) : Nat := if c.cls = 8 then 2 * i + 1 else i

/-- The additions that fall at beat b: pass, vector, logical column within the pass (R156). -/
def Job.additions (j : Job) (b : Nat) : List (Nat × Nat × Nat) :=
  let c := mxCfg j.words
  let e0 := mxE0 j.go
  if c.os then
    if c.k = 0 then []
    else (List.range c.nv).flatMap fun i => (List.range c.cp).filterMap fun n =>
      let lead := e0 + (c.pb - 1) * c.sp + 74 + c.physRow i + c.physCol n
      if b < lead || (b - lead) % c.period ≠ 0 || (b - lead) / c.period ≥ c.passes then none
      else some ((b - lead) / c.period, i, n)
  else (List.range c.cp).filterMap fun n =>
    let lead := e0 + 74 + c.physCol n
    let p := (b - lead) / c.period
    let r := (b - lead) % c.period
    if b < lead || p ≥ c.passes || r % c.sp ≠ 0 || r / c.sp ≥ c.nv then none else some (p, r / c.sp, n)

/-- The entry of vector v in pass p. -/
def MxCfg.entryOf (c : MxCfg) (p v : Nat) : Nat := c.accBase + (if c.os then v else p / c.kt * c.nv + v)

/-- The first pass of an output tile: ACC_IN = 0 starts the entry at zero there (R154). -/
def MxCfg.firstPass (c : MxCfg) (p : Nat) : Bool := if c.os then p = 0 else p % c.kt = 0

/-- What a column beyond N holds after it computes (R142; assumption 109). -/
def beyondCol (exact : Bool) (x : BitVec 96) (entry col : Nat) : BitVec 96 :=
  if exact then Config.beyondN x entry col else ((Config.beyondN x entry col).setWidth 32).setWidth 96

/-- Perform one addition in every array. A column beyond N computes a value that nothing states, and its saturations are not counted in ACC_SAT
(DESIGN CHOICE, assumption 138); in OS it has no cell of its own. -/
def Tile.mxAdd (t : Tile) (j : Job) (pvn : Nat × Nat × Nat) : Tile :=
  let c := mxCfg j.words
  let (p, v, n) := pvn
  let (n0, n1) := c.colSpan p
  c.arrays.foldl (fun t a =>
    let key := accKey a (c.entryOf p v) n
    let x0 := if c.accIn = 0 && c.firstPass p then 0 else smapGet 0 t.acc key
    let x0 : BitVec 96 := if c.exact then x0 else (x0.setWidth 32).setWidth 96
    if n0 + n < n1 then
      let (y, sat) := accAddAll c.exact x0 (j.blocks p (n0 + n) v a)
      ({ t with acc := smapPut t.acc key y }).rwAdd c.tag { accSat := sat }
    else { t with acc := smapPut t.acc key (if c.os then x0 else beyondCol c.exact x0 (c.entryOf p v) n) }) t

/-- Add an entry of C to a column: one rounding, or an integer sum; where either FP32 is not finite the sum is free (assumption 24). -/
def addC (exact : Bool) (old cv : BitVec 96) : BitVec 96 × Nat :=
  if exact then accAdd true old ⟨cv.toInt, 0⟩
  else
    match f32Val (old.setWidth 32), f32Val (cv.setWidth 32) with
    | .fin _, .fin d => accAdd false old d
    | _, _ => ((Config.nonfiniteC (old.setWidth 32) (cv.setWidth 32)).setWidth 96, 0)

/-- Apply entry x of C (R154, R156), or start it at zero where an OS descriptor with K = 0 has no block (assumption 23). -/
def Tile.mxApplyC (t : Tile) (j : Job) (x : Nat) : Tile :=
  let c := mxCfg j.words
  let r := j.rec! (5, 44)
  c.arrays.foldl (fun t a =>
    (List.range c.cp).foldl (fun t n =>
      let key := accKey a (c.accBase + x) n
      let old := smapGet 0 t.acc key
      if c.accIn = 0 then { t with acc := smapPut t.acc key 0 }
      else if c.entryCols x ≤ n then { t with acc := smapPut t.acc key (beyondCol c.exact old (c.accBase + x) n) }
      else
        let rd := capReader j.capIdx (2 ^ 40 + x * 4 + a) .elem
        let cv : BitVec 96 := BitVec.ofNat 96 (elemFrom rd r r.fmt (r.row j.ctrs x + (a : Int) * c.outStride) n)
        if c.accIn = 2 then { t with acc := smapPut t.acc key cv }
        else
          let (y, sat) := addC c.exact old cv
          ({ t with acc := smapPut t.acc key y }).rwAdd c.tag { accSat := sat }) t) t

/-! ## Element registers (R137, R140, R149) -/

/-- Element bits of a geometry class. -/
def clsBits (cls : Nat) : Nat := if cls = 6 then 6 else if cls = 8 then 8 else 4

/-- The code of an element in the registers of its class: in G2 as an LI2 code; elsewhere as it is stored, widened where it is
narrower (assumption 108). -/
def placedCode (cls f c : Nat) : Nat :=
  if cls = 2 then
    (match f with
    | 4 => c
    | 5 => if c = 1 then 1 else if c = 2 then 3 else 0
    | _ => if c = 0 then 1 else 3)
  else if fmtBits f = clsBits cls then c else Config.widened cls f c % 2 ^ clsBits cls

/-- The placed code of the element for column n and index k of pass p; rows beyond K hold zero (R142). -/
def Job.placed (j : Job) (p n k : Nat) : Nat :=
  if k < ((mxCfg j.words).span p).2 then placedCode (mxCfg j.words).cls j.staged.fmt (j.stageCode p n k) else 0

/-- The stray element in stray row i of column n in pass p: groups of G2 take four rows each; in a pass where no group ends the
rows hold zero. -/
def Job.placedStray (j : Job) (p n i : Nat) : Nat :=
  let c := mxCfg j.words
  let per := if c.cls = 2 then 4 else 8
  match (c.groups p)[i / per]? with
  | some q =>
    if (c.endGroups p).contains q then (byteAt (capReader j.cap p .stray (j.stageStray n q) (c.strayS + 1)) (i % per)).toNat else 0
  | none => 0

/-- What the register of cell (y, x) is loaded with for pass p; none where the pass loads it with nothing. -/
def Job.cellCode (j : Job) (p y x : Nat) : Option Nat :=
  let c := mxCfg j.words
  let (lo, _) := c.span p
  let (n0, n1) := c.colSpan p
  let wide := c.cls = 6 || c.cls = 8
  let n := n0 + (if wide then x / 2 else x)
  if c.os || n1 ≤ n then none
  else if 64 ≤ y then
    (if (y - 64) % (if c.cls = 2 then 4 else 8) < c.strayS && (!wide || x % 2 = 1) then some (j.placedStray p n (y - 64)) else none)
  else match c.cls with
    | 2 => some (j.placed p n (lo + 2 * y) + 4 * j.placed p n (lo + 2 * y + 1))
    | 6 => some (if x % 2 = 0 then j.placed p n (lo + y) % 16 else j.placed p n (lo + y) / 16 % 4)
    | 8 => if y % 2 = 1 then none
      else some (if x % 2 = 0 then j.placed p n (lo + y / 2) % 16 else j.placed p n (lo + y / 2) / 16)
    | _ => some (j.placed p n (lo + y))

/-- The cells with row plus column d. -/
def diagonal (d : Nat) : List (Nat × Nat) :=
  (List.range 72).filterMap fun y => if y ≤ d && d - y < 64 then some (y, d - y) else none

/-- The key of a cell. -/
def cellKey (a y x : Nat) : Nat := (a * 72 + y) * 64 + x

/-- The shadow register of cell (y, x) takes its element of pass p. -/
def Tile.loadCell (t : Tile) (j : Job) (p : Nat) (yx : Nat × Nat) : Tile :=
  match j.cellCode p yx.1 yx.2 with
  | none => t
  | some v => (mxCfg j.words).arrays.foldl (fun t a =>
      { t with cellShadow := smapSet 0 t.cellShadow (cellKey a yx.1 yx.2) (BitVec.ofNat 8 v) }) t

/-- Cell (y, x) exchanges its registers. -/
def Tile.swapCell (t : Tile) (j : Job) (yx : Nat × Nat) : Tile :=
  (mxCfg j.words).arrays.foldl (fun t a =>
    let key := cellKey a yx.1 yx.2
    { t with cellActive := smapSet 0 t.cellActive key (smapGet 0 t.cellShadow key)
             cellShadow := smapSet 0 t.cellShadow key (smapGet 0 t.cellActive key) }) t

/-- The element registers in beat b: a cell's shadow takes its element in the beat before the first streamed vector of the pass
reaches it, and it exchanges its registers in the beat the vector does (R137; assumption 108). -/
def Tile.mxCells (t : Tile) (j : Job) (b : Nat) : Tile :=
  let c := mxCfg j.words
  let e0 := mxE0 j.go
  if c.os || b + 1 < e0 then t
  else
    let q := (b + 1 - e0) / c.period
    ([q - 2, q - 1, q].eraseDups.filter (decide <| · < c.passes)).foldl (fun t p =>
      let e := e0 + p * c.period
      let t := if e ≤ b then (diagonal (b - e)).foldl (fun t yx => t.swapCell j yx) t else t
      (diagonal (b + 1 - e)).foldl (fun t yx => t.loadCell j p yx) t) t

/-! ## Range-watch counts at the reads (R106) -/

/-- The non-finite codes among elements: an LT byte above 242 counts once. `code i` gives an element's raw code. -/
def countCodes (f : Nat) (is_ : List Nat) (code : Nat → Nat) : Nat :=
  if f = 0x05 then ((is_.filter fun i => decide (code i = 3)).map fun i => i / 32 * 7 + i % 32 / 5).eraseDups.length
  else (is_.filter fun i => (elemVal f (code i)).2).length

/-- The counts of a stray record. -/
def strayCounts (exact : Bool) (base : Int) (f s : Nat) (bs : List Byte) : RwCount :=
  let n := countCodes f (List.range s) fun i => (byteAt bs i).toNat
  let u := (scaleUse exact base (byteAt bs s).toNat).2
  { u with nonfinite := u.nonfinite + n }

/-- The counts of a pass's staged operand, taken once all its lines are in. -/
def Job.stageCounts (j : Job) (p : Nat) : RwCount :=
  let c := mxCfg j.words
  let ro := j.staged
  let (lo, hi) := c.span p
  let (n0, n1) := c.colSpan p
  let cols := (List.range (n1 - n0)).map (· + n0)
  let ks := ((List.range (hi - lo)).map (· + lo)).filter fun k => !j.excluded p k
  let code (n k : Nat) : Nat :=
    let (row, i) := j.stagePlace n k
    elemFrom (capReader j.cap p .elem) ro.elem ro.fmt row i
  let nf := if c.transpose then
      ks.foldl (fun s k => s + countCodes ro.fmt cols fun n => code n k) 0
    else cols.foldl (fun s n => s + countCodes ro.fmt ks fun k => code n k) 0
  let sides : List (Int × Nat) := (cols.flatMap fun n => ((List.range (hi - lo)).map (· + lo)).map fun k =>
    j.stageSide n k).eraseDups
  let sc := sides.map fun (row, b) =>
    (scaleUse c.exact ro.base (byteAt (sideFrom (capReader j.cap p .side) ro.fmt row b) 0).toNat).2
  let st := (c.endGroups p).flatMap fun q => cols.map fun n =>
    strayCounts c.exact ro.base c.strayFormat c.strayS (capReader j.cap p .stray (j.stageStray n q) (c.strayS + 1))
  (sc ++ st).foldl (fun s u => { s with nonfinite := s.nonfinite + u.nonfinite, scaleOut := s.scaleOut + u.scaleOut })
    { nonfinite := nf }

/-- The counts of array a's vector v in pass p. -/
def Job.vectorCounts (j : Job) (p v a : Nat) : RwCount :=
  let c := mxCfg j.words
  let ro := j.streamed
  let o : Int := a * c.arrStride
  let pre := streamPrefix p v a
  let (lo, hi) := c.span p
  let ks := ((List.range (hi - lo)).map (· + lo)).filter fun k => !j.excluded p k
  let code (k : Nat) : Nat := match j.streamPlace v k with
    | some (row, i) => elemFrom (capReader j.capIdx pre .elem) ro.elem ro.fmt (row + o) i
    | none => 0
  let nf := countCodes ro.fmt ks code
  let sides : List (Int × Nat) := (((List.range (hi - lo)).map (· + lo)).filterMap fun k => j.streamSide v k).eraseDups
  let sc := sides.map fun (row, b) =>
    (scaleUse c.exact ro.base (byteAt (sideFrom (capReader j.capIdx pre .side) ro.fmt (row + o) b) 0).toNat).2
  let st := (c.endGroups p).filterMap fun q => (j.streamStray v q).map fun row =>
    strayCounts c.exact ro.base c.strayFormat c.strayS (capReader j.capIdx pre .stray (row + o) (c.strayS + 1))
  (sc ++ st).foldl (fun s u => { s with nonfinite := s.nonfinite + u.nonfinite, scaleOut := s.scaleOut + u.scaleOut })
    { nonfinite := nf }

/-! ## A beat of a matrix descriptor -/

/-- Capture what the descriptor reads at beat b. -/
def Job.mxCapture (j : Job) (t : Tile) (b : Nat) : Job :=
  let c := mxCfg j.words
  let j := match j.stageAt b with
    | some (p, part, r, a) => { j with cap := capture t r p part [a] j.cap }
    | none => j
  let j := match j.vectorRead b with
    | some (p, v) => { j with capIdx := c.arrays.foldl (fun m a =>
        (j.vectorLines p v a).foldl (fun m (part, r, as) => capture t r (streamPrefix p v a) part as m) m) j.capIdx }
    | none => j
  match j.cRead b with
  | some (x, i) => { j with capIdx := c.arrays.foldl (fun m a =>
      capture t (j.rec! (5, 44)) (2 ^ 40 + x * 4 + a) .elem (share (j.cLines x a) c.rIn i) m) j.capIdx }
  | none => j

/-- A fault found as lines are staged (R93, R147): a refused stray map of which this beat's line was the last to come, or unequal
scales. -/
def Job.stageFault (j : Job) (b : Nat) : Option Status :=
  let c := mxCfg j.words
  match j.stageAt b with
  | some (p, .map, _, a) =>
    let done := (c.groups p).filter fun q =>
      let ls := (spanLines (j.mapRow q) 8).map (· / 64)
      ls.contains (a / 64) && ls.all fun l => decide (l = a / 64) || (smapFind j.cap (capKey p .map l)).isSome
    if done.any fun q => (mapChannels c.strayS (capReader j.cap p .map (j.mapRow q) 8)).isNone
    then some St.MXU_STRAY_MAP else none
  | some (p, .side, _, _) =>
    if !c.transpose then none
    else
      let ro := j.staged
      let (lo, hi) := c.span p
      let (n0, n1) := c.colSpan p
      let code (n k : Nat) : Option Nat :=
        let (row, bk) := j.stageSide n k
        let a := row + (bk * fmtSide ro.fmt : Nat)
        (smapFind j.cap (capKey p .side (a / 64))).map fun _ => (byteAt (sideFrom (capReader j.cap p .side) ro.fmt row bk) 0).toNat
      let bad := (List.range (ceilDiv (hi - lo) c.pb)).any fun i => (List.range (n1 - n0)).any fun d =>
        let cs := ((List.range c.pb).map fun m => code (n0 + d) (lo + i * c.pb + m)).filterMap id
        match cs with
        | [] => false
        | x :: xs => xs.any fun y => decide (y ≠ x)
      if bad then some St.MXU_TRANSPOSE_SCALE else none
  | _ => none

/-- Entries read out at beat b: their bytes wait for their writes (R155). -/
def Tile.mxReadout (t : Tile) (j : Job) (b : Nat) : Tile × Job :=
  let c := mxCfg j.words
  let u := c.lastAdd j.go
  if c.outFmt = 0x1F || b < u + 1 || (b - u - 1) % c.rOut ≠ 0 || (b - u - 1) / c.rOut ≥ c.used then (t, j)
  else
    let x := (b - u - 1) / c.rOut
    c.arrays.foldl (fun (acc : Tile × Job) a =>
      let cols := (List.range (c.entryCols x)).map fun n =>
        readColumn c.exact c.outFmt (c.baseW + c.baseA) (smapGet 0 acc.1.acc (accKey a (c.accBase + x) n))
      (acc.1.rwAdd c.tag (sumCounts (cols.map (·.2))),
       { acc.2 with cap := smapPut acc.2.cap (outKey x a) (cols.flatMap (·.1)) })) (t, j)

/-- A matrix descriptor's beat b: `pre` is the tile as the beat's reads see it, `t` the tile being built. -/
def Tile.mxBeat (t pre : Tile) (j : Job) (b : Nat) : Tile × Job × Option Status :=
  let c := mxCfg j.words
  let j := j.mxCapture pre b
  let e0 := mxE0 j.go
  let t : Tile := match j.vectorRead b with
    | some (p, v) => c.arrays.foldl (fun (t : Tile) a => t.rwAdd c.tag (j.vectorCounts p v a)) t
    | none => t
  let t : Tile := if b + 1 ≥ e0 && (b + 1 - e0) % c.period = 0 && (b + 1 - e0) / c.period < c.passes then
      t.rwAdd c.tag (j.stageCounts ((b + 1 - e0) / c.period)) else t
  let t : Tile := if b ≥ e0 && (b - e0) / c.period < c.passes then
      let r := (b - e0) % c.period
      let t : Tile := if r = 0 then { t with passes := t.passes + 1 } else t
      if r % c.sp = 0 && r / c.sp < (if c.os then c.pb else c.nv) then { t with streamBeats := t.streamBeats + 1 } else t
    else t
  let t : Tile := if (c.accIn ≥ 2 || (c.accIn = 0 && c.os && c.k = 0)) && b > j.go && (b - j.go) % c.rIn = 0
      && (b - j.go) / c.rIn ≤ c.used then t.mxApplyC j ((b - j.go) / c.rIn - 1) else t
  let t := t.mxCells j b
  let t := (j.additions b).foldl (fun (t : Tile) x => t.mxAdd j x) t
  let (t, j) := t.mxReadout j b
  (t, j, j.stageFault b)

/-- Start a matrix descriptor. -/
def Tile.mxStart (t : Tile) (j : Job) : Tile := { t with mxJobs := t.mxJobs ++ [j] }

/-- MATMUL (R156): a GO of opcode 0x01. -/
def execMatmul (vx : Vx) (vy : Vy) (s : State) : Out :=
  let k := tileKey vx vy
  s.issueGo k (fun _ _ => true) 0x01 Tile.mxBusy (fun s j => (s.tile k).mxFault j)
    (fun s j st => s.mxuFault k j.slot (mxCfg j.words).mask st) Tile.mxStart

/-- CONV (R160): a GO of opcode 0x02. -/
def execConv (vx : Vx) (vy : Vy) (s : State) : Out :=
  let k := tileKey vx vy
  s.issueGo k (fun _ _ => true) 0x02 Tile.mxBusy (fun s j => (s.tile k).mxFault j)
    (fun s j st => s.mxuFault k j.slot (mxCfg j.words).mask st) Tile.mxStart

end Sys2Proof.Machine
end

