-- ==== Sys2Proof/Machine/Codes.lean ====
section
/-!
DEFINITION. The error-detecting and error-correcting codes of the spec: CRC-32 (R324), CRC-32C (R267, R344, R413, R418), the address
CRC-16 and the Reed-Solomon code RS(35,32) of a stack burst (R259).
-/
namespace Sys2Proof.Machine

/-! ## Cyclic redundancy checks -/

/-- One bit of a reflected CRC. -/
def crcBit (poly c : BitVec 32) : BitVec 32 := if c.getLsbD 0 then (c >>> 1) ^^^ poly else c >>> 1

/-- One byte of a reflected CRC. -/
def crcByte (poly c : BitVec 32) (b : Byte) : BitVec 32 := (List.range 8).foldl (fun c _ => crcBit poly c) (c ^^^ b.setWidth 32)

/-- A reflected CRC with initial value and final XOR 0xFFFFFFFF. -/
def crcOver (poly : BitVec 32) (bs : List Byte) : BitVec 32 := ~~~(bs.foldl (crcByte poly) 0xFFFFFFFF)

/-- The CRC-32 of link flits and identity records: polynomial 0x04C11DB7, reflected (R324, R332). -/
def crc32 (bs : List Byte) : BitVec 32 := crcOver 0xEDB88320 bs

/-- CRC-32C. The spec names it and gives no polynomial: PRESUMED, the Castagnoli polynomial 0x1EDC6F41, reflected, with initial value and
final XOR 0xFFFFFFFF (assumption 113). -/
def crc32c (bs : List Byte) : BitVec 32 := crcOver 0x82F63B78 bs

/-- One byte of the CRC-16 with polynomial 0x1021, most significant bit first. -/
def crc16Byte (c : BitVec 16) (b : Byte) : BitVec 16 :=
  (List.range 8).foldl (fun c _ => if c.getLsbD 15 then (c <<< 1) ^^^ 0x1021 else c <<< 1) (c ^^^ (b.setWidth 16 <<< 8))

/-- The CRC-16 of a burst's address: initial value 0xFFFF (R259). -/
def crc16 (bs : List Byte) : BitVec 16 := bs.foldl crc16Byte 0xFFFF

/-! ## The field GF(2^16) (R259) -/

/-- Multiplication by α in GF(2^16) with x^16 + x^12 + x^3 + x + 1. -/
def gfTwice (a : BitVec 16) : BitVec 16 := if a.getLsbD 15 then (a <<< 1) ^^^ 0x100B else a <<< 1

/-- The product in GF(2^16). -/
def gfMul (a b : BitVec 16) : BitVec 16 :=
  (List.range 16).foldr (fun i acc => if b.getLsbD i then gfTwice acc ^^^ a else gfTwice acc) 0

/-- α^n. -/
def gfPow (n : Nat) : BitVec 16 := (List.range n).foldl (fun a _ => gfTwice a) 1

/-! ## RS(35,32) (R259) -/

/-- The 16-bit little-endian words of bytes. -/
def symbolsOf (bs : List Byte) : List (BitVec 16) := (List.range (bs.length / 2)).map fun i => BitVec.ofNat 16 (leAt bs (2 * i) 2)

/-- The bytes of 16-bit words. -/
def symbolBytes (ws : List (BitVec 16)) : List Byte := ws.flatMap fun w => bytesOf 2 w.toNat

/-- The check symbols of data symbols: the remainder by the generator with roots 1, α and α²; the first data symbol is the highest
coefficient (assumption 114). -/
def rsCheck (data : List (BitVec 16)) : List (BitVec 16) :=
  let g1 := gfPow 1 ^^^ gfPow 2 ^^^ gfPow 3
  let g2 := 1 ^^^ gfPow 1 ^^^ gfPow 2
  let r := data.foldl (fun (r : BitVec 16 × BitVec 16 × BitVec 16) d =>
    let f := d ^^^ r.1
    (r.2.1 ^^^ gfMul g2 f, r.2.2 ^^^ gfMul g1 f, gfMul (gfPow 3) f)) (0, 0, 0)
  [r.1, r.2.1, r.2.2]

/-- The syndrome of a codeword at the root α^j: its value there. -/
def rsSyndrome (code : List (BitVec 16)) (j : Nat) : BitVec 16 := code.foldl (fun acc c => gfMul acc (gfPow j) ^^^ c) 0

/-- What the code finds in a codeword of 35 symbols: clean, one symbol corrected, or an error it cannot correct (none). -/
def rsDecode (code : List (BitVec 16)) : Option (List (BitVec 16) × Bool) :=
  let s0 := rsSyndrome code 0
  let s1 := rsSyndrome code 1
  let s2 := rsSyndrome code 2
  if s0 = 0 && s1 = 0 && s2 = 0 then some (code, false)
  else if s0 = 0 then none
  else
    match (List.range 35).find? fun i => decide (s1 = gfMul s0 (gfPow (34 - i))) && decide (s2 = gfMul s1 (gfPow (34 - i))) with
    | some i => some (code.set i (code.getD i 0 ^^^ s0), true)
    | none => none

end Sys2Proof.Machine
end

