-- ==== Sys2Proof/Machine/Mover.lean ====
section
/-!
DEFINITION. The scratchpad mover: COPY, TALLY_CLEAR, GATHER and SCATTER (R130, R199, R200, R205, R206).
-/
namespace Sys2Proof.Machine

/-! ## Configuration -/

/-- A mover job's source record. -/
def Job.mvSrc (j : Job) : Rec := (recOf j.words j.recs (2, 54)).getD {}
/-- A mover job's destination record. -/
def Job.mvDst (j : Job) : Rec := (recOf j.words j.recs (2, 44)).getD {}
/-- The source's index record. -/
def Job.mvSrcIdx (j : Job) : Option Rec := idxOf j.recs j.mvSrc
/-- The destination's index record. -/
def Job.mvDstIdx (j : Job) : Option Rec := idxOf j.recs j.mvDst

/-- A COPY that clears tally bits. -/
def Job.mvTally (j : Job) : Bool := opOf j.words = 0x0C && dBit j.words 1 63
/-- A GATHER. -/
def Job.mvGather (j : Job) : Bool := opOf j.words = 0x0D
/-- A SCATTER. -/
def Job.mvScatter (j : Job) : Bool := opOf j.words = 0x0E

/-- The destination's rows. -/
def Job.mvRows (j : Job) : Nat := j.mvDst.rows j.mvDstIdx
/-- Bytes per row. -/
def Job.mvSize (j : Job) : Nat := j.mvDst.sz 0

/-- The index address of row r of an indirect record. -/
def Rec.entryAddr (x : Rec) (idx : Rec) (ctrs : List (BitVec 24)) (r : Nat) : Int :=
  indexAddr x idx ctrs (x.coord (some idx) r)

/-! ## The beat plan (R206) -/

/-- Whether a SCATTER's place in a line depends on the index entry. -/
def Job.mvLoose (j : Job) : Bool := j.mvScatter && j.mvDst.st j.mvDst.indDim % 64 ≠ 0

/-- The place o of row r in its destination line where the index entry does not matter. -/
def Job.mvOffset (j : Job) (r : Nat) : Nat :=
  ((((j.mvDst.rowAddr j.ctrs (j.mvDst.coord j.mvDstIdx r) (some 0)).getD 0) % 64).toNat)

/-- The beats of row r. -/
def Job.mvRowBeats (j : Job) (r : Nat) : Nat :=
  max 1 (ceilDiv ((if j.mvLoose then 63 else j.mvOffset r) + j.mvSize) 256)

/-- The row and part of beat k, counting rows from `r`. -/
def Job.mvFind (j : Job) : Nat → Nat → Nat → Option (Nat × Nat)
  | 0, _, _ => none
  | f + 1, r, k =>
    if r ≥ j.mvRows then none
    else if k < j.mvRowBeats r then some (r, k)
    else j.mvFind f (r + 1) (k - j.mvRowBeats r)

/-- The row and part of beat k. -/
def Job.mvPlace (j : Job) (k : Nat) : Option (Nat × Nat) := j.mvFind (j.mvRows + 1) 0 k

/-- All beats of the descriptor. -/
def Job.mvBeats (j : Job) : Nat := ((List.range j.mvRows).map j.mvRowBeats).sum

/-- The last source-read beat of the busy rule. -/
def Job.mvLastRead (j : Job) : Nat := j.go + 3 + (j.mvBeats - 1)
/-- The last beat. -/
def Job.mvLast (j : Job) : Nat := j.go + 5 + (j.mvBeats - 1)

/-- The row and part at beat b of a stage `d` beats after the GO. -/
def Job.mvAt (j : Job) (d b : Nat) : Option (Nat × Nat) := if b < j.go + d then none else j.mvPlace (b - j.go - d)

/-! ## Indices (R198, R199) -/

/-- The record that is indirect and its index record. -/
def Job.mvInd (j : Job) : Option (Rec × Rec) :=
  if j.mvGather then j.mvSrcIdx.map fun i => (j.mvSrc, i)
  else if j.mvScatter then j.mvDstIdx.map fun i => (j.mvDst, i)
  else none

/-- The index line read at beat b: each line once for the run of entries it holds. -/
def Job.mvIndexLine (j : Job) (b : Nat) : Option Int :=
  match j.mvInd, j.mvAt 1 b with
  | some (x, i), some (r, 0) =>
    let a := x.entryAddr i j.ctrs r
    if r = 0 || x.entryAddr i j.ctrs (r - 1) / 64 ≠ a / 64 then some a else none
  | _, _ => none

/-- The entry of row r, from the lines read. -/
def Job.mvEntry (j : Job) (r : Nat) : Option Nat :=
  match j.mvInd with
  | some (x, i) =>
    let a := x.entryAddr i j.ctrs r
    let line := (smapFind j.capIdx (a / 64).toNat).getD []
    some (leAt line (a % 64).toNat x.entryBytes)
  | none => none

/-- Whether row r's entry is out of range. -/
def Job.mvOor (j : Job) (r : Nat) : Bool :=
  match j.mvInd, j.mvEntry r with
  | some (x, _), some v => decide (v ≥ x.sz x.indDim)
  | _, _ => false

/-- The destination address of row r, if it has one. -/
def Job.mvDstRow (j : Job) (r : Nat) : Option Int :=
  j.mvDst.rowAddr j.ctrs (j.mvDst.coord j.mvDstIdx r) (j.mvEntry r)

/-- The source address of row r, if it has one. -/
def Job.mvSrcRow (j : Job) (r : Nat) : Option Int :=
  j.mvSrc.rowAddr j.ctrs (j.mvSrc.coord j.mvSrcIdx r) (j.mvEntry r)

/-- The bytes of a row that part p covers: first offset, and length; the destination's lines four at a time. -/
def Job.mvPart (j : Job) (row : Int) (p : Nat) : Nat × Nat :=
  let o := (row % 64).toNat
  let lo := if p = 0 then 0 else min j.mvSize (256 * p - o)
  let hi := min j.mvSize (256 * (p + 1) - o)
  (lo, hi - lo)

/-! ## Accesses -/

/-- The source bytes of a part: address and length; none where the row is out of range or the part is empty. -/
def Job.mvSource (j : Job) (r p : Nat) : Option (Int × Nat) :=
  match j.mvDstRow r, j.mvSrcRow r with
  | some d, some s =>
    let (lo, n) := j.mvPart d p
    if n = 0 then none else some (s + (lo : Nat), n)
  | _, _ => none

/-- The lines TALLY_CLEAR clears in part p of row r. -/
def Job.mvClears (j : Job) (r p : Nat) : List Int :=
  match j.mvDstRow r with
  | some d => let (lo, n) := j.mvPart d p; spanLines (d + (lo : Nat)) n
  | none => []

/-- The bytes written at beat b with their addresses. -/
def Job.mvWrite (j : Job) (b : Nat) : List (Int × Byte) :=
  match j.mvAt 5 b with
  | none => []
  | some (r, p) =>
    match j.mvDstRow r with
    | none => []
    | some d =>
      let (lo, n) := j.mvPart d p
      let bs := (smapFind j.cap (b - j.go - 5)).getD []
      addressed (d + (lo : Nat)) (slice bs 0 n)

/-- The scheduled accesses of a mover descriptor at beat b. -/
def Job.mvAccesses (j : Job) (b : Nat) : List Access :=
  if j.mvTally then
    match j.mvAt 5 b with
    | some (r, p) => (dedupLines (j.mvClears r p)).map fun a => { addr := a, mode := j.mvDst.hash, clear := true }
    | none => []
  else
    let ix := match j.mvInd, j.mvIndexLine b with
      | some (_, i), some a => i.readLines [a]
      | _, _ => []
    let rd := match j.mvAt 3 b with
      | some (r, p) => (match j.mvSource r p with
        | some (a, n) => j.mvSrc.readLines (spanLines a n)
        | none => [])
      | none => []
    ix ++ rd ++ writeAccesses j.mvDst.hash (j.mvWrite b)

/-- The beat's index-range fault under OOR_FAULT = 1: at a GATHER's source access, a SCATTER's destination access. -/
def Job.mvIndexFault (j : Job) (b : Nat) : Bool :=
  match j.mvInd with
  | none => false
  | some (x, _) =>
    x.oorFault && (match j.mvAt (if j.mvGather then 3 else 5) b with
      | some (r, 0) => j.mvOor r
      | _ => false)

/-! ## A beat of a mover descriptor -/

/-- A mover descriptor's beat b on the tile as its reads see it: its captures, and whether IND_OOR counts. -/
def Job.mvBeat (j : Job) (t : Tile) (b : Nat) : Job × Bool :=
  let oor := match j.mvInd, j.mvAt (if j.mvGather then 3 else 5) b with
    | some _, some (r, 0) => j.mvOor r
    | _, _ => false
  let j' := match j.mvInd, j.mvIndexLine b with
    | some (_, i), some a => { j with capIdx := smapPut j.capIdx (a / 64).toNat (t.bytes i.hash (a / 64 * 64) 64) }
    | _, _ => j
  let j' := match j.mvAt 3 b with
    | some (r, p) =>
      if j.mvTally then j' else
        let bs := match j.mvSource r p with
          | some (a, n) => t.bytes j.mvSrc.hash a n
          | none => []
        { j' with cap := smapPut j'.cap (b - j.go - 3) bs }
    | none => j'
  (j', oor)

/-! ## GO -/

/-- The busy check of R206. -/
def Tile.mvBusy (t : Tile) (_ : Shadow) : Option Status :=
  match t.mvJobs.getLast? with
  | none => none
  | some j => if t.mvJobs.length ≥ 2 || t.beat < j.mvLastRead then some St.SEQ_UNIT_BUSY else none

/-- The configuration check of R205. -/
def Job.mvConfig (j : Job) : Option Status :=
  if j.mvTally then none
  else if j.mvSrc.sz 0 = j.mvDst.sz 0 && j.mvSrc.rows j.mvSrcIdx = j.mvRows then none
  else some St.SEQ_CONFIG

/-- Start a mover descriptor. -/
def Tile.mvStart (t : Tile) (j : Job) : Tile := { t with mvJobs := t.mvJobs ++ [j] }

/-- A fault at the GO of a unit whose faults the sequencer records. -/
def State.goFault (s : State) (k : Nat) (j : Job) (st : Status) : State := s.seqFault k st j.slot j.opcode.toNat

/-- A GO of the mover; `mine` picks the shadow configurations of one command. -/
def State.mvGo (s : State) (vx : Vx) (vy : Vy) (op : Nat) (mine : Shadow → Bool) : Out :=
  let k := tileKey vx vy
  s.issueGo k (fun _ sh => mine sh) op Tile.mvBusy (fun _ j => j.mvConfig) (fun s j st => s.goFault k j st) Tile.mvStart

/-- COPY without TALLY_CLEAR (R206); a GO with no COPY loaded is both commands' (it can only fault). -/
def execCopy (vx : Vx) (vy : Vy) (s : State) : Out :=
  s.mvGo vx vy 0x0C fun sh => sh.opcode ≠ 0x0C || !dBit sh.words 1 63
/-- COPY with TALLY_CLEAR (R130). -/
def execTallyClear (vx : Vx) (vy : Vy) (s : State) : Out :=
  s.mvGo vx vy 0x0C fun sh => sh.opcode ≠ 0x0C || dBit sh.words 1 63
/-- GATHER (R205). -/
def execGather (vx : Vx) (vy : Vy) (s : State) : Out := s.mvGo vx vy 0x0D fun _ => true
/-- SCATTER (R206). -/
def execScatter (vx : Vx) (vy : Vy) (s : State) : Out := s.mvGo vx vy 0x0E fun _ => true

end Sys2Proof.Machine
end

