-- ==== Sys2Proof/Machine/DataNet.lean ====
section
/-!
DEFINITION. The scheduled data network: MOVE and RECV, forwarding, orphans and empty receives (R204, R225 to R245).
-/
namespace Sys2Proof.Machine

/-! ## Configuration -/

/-- The DIR of a MOVE or RECV. -/
def moveDir (ws : List Word) : Dir := Dir.ofNum (dField ws 1 63 62)
/-- SRC_SEL. -/
def moveSel (ws : List Word) : Nat := dField ws 1 61 59
/-- STORE. -/
def recvStores (ws : List Word) : Bool := dBit ws 1 58
/-- BEATS. -/
def moveBeats (ws : List Word) : Nat := dField ws 1 57 42

/-- The record of a MOVE or RECV. -/
def Job.mrRec (j : Job) : Option Rec := recOf j.words j.recs (2, 54)
/-- The last chunk beat. -/
def Job.mrLast (j : Job) : Nat := j.go + moveBeats j.words - 1
/-- The chunk of beat b. -/
def Job.mrChunk (j : Job) (b : Nat) : Option Nat :=
  if j.go ≤ b && b - j.go < moveBeats j.words then some (b - j.go) else none

/-- A chunk lies within two lines (R204). -/
def chunkFits (a : Int) (n : Nat) : Bool := (spanLines a n).length ≤ 2

/-- A data-network fault at the beat in progress (R244). -/
def State.dnwRecord (s : State) (k port : Nat) (st : Status) : State :=
  s.modTile k fun t => { t with dnwErr := ⟨st, 0, BitVec.ofNat 8 port, BitVec.ofNat 32 t.beat⟩ }

/-! ## MOVE -/

/-- The chunk a MOVE from scratchpad reads at beat b: the one it outputs at b + 1. -/
def Job.moveRead (j : Job) (b : Nat) : Option (Rec × Int) :=
  match j.mrRec, j.mrChunk (b + 1) with
  | some r, some i => if moveSel j.words = 0 && i ≠ 0 then some (r, r.row j.ctrs i) else none
  | _, _ => none

/-- What a MOVE outputs at beat b: a chunk, none for an invalid token; the Bool says that its RECV had no chunk beat before. -/
def Tile.moveOut (t : Tile) (j : Job) (b : Nat) : Option (List Byte) × Bool :=
  match j.mrChunk b with
  | none => (none, false)
  | some i =>
    if moveSel j.words = 0 then (smapFind j.cap i, false)
    else
      match smapFind t.latched (moveSel j.words - 4) with
      | some (c, bs) => if c + 1 = b then (if bs.isEmpty then none else some bs, false) else (none, true)
      | none => (none, true)

/-- The shadow configuration of the GO that a MOVE's early read serves, where its LOAD is complete. A configuration with hash mode 3
faults at its GO and reads nothing (R112, R503). -/
def Tile.earlyMove (t : Tile) (look : Ahead) : Option (Nat × Shadow) :=
  match t.goAhead look 1 with
  | none => none
  | some ws =>
    if opOf ws ≠ 0x08 then none
    else match smapFind t.shadows (shadowUnit ws) with
      | some sh =>
        if sh.opcode = 0x08 && sh.pre = 1 && sh.hashFault.isNone && sh.todo.isEmpty && sh.loadBeat + sh.nRec < t.beat then some (shadowUnit ws, sh)
        else none
      | none => none

/-- The first chunk an early MOVE reads, with the counters it latches. -/
def Tile.earlyChunk (t : Tile) (look : Ahead) : Option (Nat × Rec × Int) :=
  match t.earlyMove look with
  | none => none
  | some (u, sh) => (recOf sh.words sh.recs (2, 54)).map fun r => (u, r, r.row t.ctrsPrev 0)

/-! ## RECV -/

/-- The key of a chunk in Tile.inbox. -/
def inboxKey (b : Nat) (d : Nat) : Nat := 4 * b + d

/-- The RECV of a direction with a chunk at beat b, and the chunk's number. -/
def Tile.recvAt (t : Tile) (d b : Nat) : Option (Job × Nat) :=
  match smapFind t.recvJobs d with
  | some j => (j.mrChunk b).map fun i => (j, i)
  | none => none

/-- The even-parity bits of a token: bit i covers bytes 4i to 4i + 3, the missing ones of a short chunk as zeros (R229). -/
def tokenParity (bs : List Byte) : BitVec 32 :=
  (List.range 32).foldl (fun (w : BitVec 32) i =>
    let x : Byte := (List.range 4).foldl (fun x j => x ^^^ bs.getD (4 * i + j) 0) 0
    if (List.range 8).foldl (fun n j => n + (x.toNat >>> j) % 2) 0 % 2 = 1 then w ||| (1#32 <<< i) else w) 0

/-- A token's parity holds. -/
def Chunk.parityOk (c : Chunk) : Bool := decide (c.parity = tokenParity c.bytes)

/-- What happens at one port at beat b (R229, R231, R236, R237). -/
inductive PortEvent where
  | quiet
  | parity
  | orphan
  | empty
  | size
  | config
  | latch (bytes : List Byte) (store : Option (Rec × Int))
deriving DecidableEq, Repr

/-- The event at port d. -/
def Tile.portEvent (t : Tile) (d b : Nat) : PortEvent :=
  match smapFind t.inbox (inboxKey b d), t.recvAt d b with
  | none, none => .quiet
  | none, some _ => .empty
  | some c, none => if c.parityOk then .orphan else .parity
  | some c, some (j, i) =>
    if !c.parityOk then .parity
    else if !recvStores j.words then .latch c.bytes none
    else
      match j.mrRec with
      | none => .latch c.bytes none
      | some r =>
        let a := r.row j.ctrs i
        if c.bytes.length ≠ r.sz 0 then .size
        else if !chunkFits a (r.sz 0) then .config
        else .latch c.bytes (some (r, a))

/-- The write of a RECV with STORE = 1. -/
def PortEvent.accesses : PortEvent → List Access
  | .latch bs (some (r, a)) => writeAccesses r.hash (addressed a bs)
  | .latch _ none | .quiet | .parity | .orphan | .empty | .size | .config => []

/-- A token a tile sends at beat b reaches the neighbour in direction d at b + 1, or b + 2 across the half seam (R226). -/
def State.sendToken (s : State) (k : Nat) (d : Dir) (b : Nat) (bs : List Byte) : State :=
  match s.neighbour k d with
  | none => s
  | some (nk, seam) =>
    s.modTile nk fun t =>
      { t with inbox := smapPut t.inbox (inboxKey (b + (if seam then 2 else 1)) d.opposite.num) { bytes := bs, parity := tokenParity bs } }

/-! ## GO -/

/-- The busy check of R204. -/
def Tile.mrBusy (t : Tile) (ws : List Word) (op : Nat) : Option Status :=
  let jobs := if op = 0x08 then t.moveJobs else t.recvJobs
  match smapFind jobs (dField ws 1 63 62) with
  | some j => if t.beat ≤ j.mrLast then some St.SEQ_UNIT_BUSY else none
  | none => none

/-- Steps 8 and 10 of R504: the chunks a record describes equal BEATS, and the port is enabled. -/
def State.mrConfig (s : State) (k : Nat) (j : Job) : Option Status :=
  let bad := match j.mrRec with
    | some r => decide (r.rows none ≠ moveBeats j.words)
    | none => false
  if bad then some St.SEQ_CONFIG
  else if (s.neighbour k (moveDir j.words)).isNone then some St.DNW_PORT_DISABLED
  else none

/-- A fault at the GO of a MOVE or RECV. -/
def State.mrFault (s : State) (k : Nat) (j : Job) (st : Status) : State :=
  if st = St.DNW_PORT_DISABLED then (s.dnwRecord k (moveDir j.words).num st).stopTile k st else s.goFault k j st

/-- Start a MOVE: chunk 0 of a MOVE from scratchpad was read in the beat before. -/
def Tile.moveStart (t : Tile) (j : Job) : Tile :=
  let d := (moveDir j.words).num
  let j := if moveSel j.words = 0 then { j with cap := smapPut [] 0 (smapGet [] t.earlyData (4 + d)) } else j
  { t with moveJobs := smapPut t.moveJobs d j }

/-- Start a RECV. -/
def Tile.recvStart (t : Tile) (j : Job) : Tile :=
  { t with recvJobs := smapPut t.recvJobs (moveDir j.words).num j }

/-- MOVE (R204): a GO starts its direction's configuration. -/
def execMove (vx : Vx) (vy : Vy) (s : State) : Out :=
  let k := tileKey vx vy
  s.issueGo k (fun _ _ => true) 0x08 (fun t sh => t.mrBusy sh.words 0x08) (fun s j => s.mrConfig k j)
    (fun s j st => s.mrFault k j st) Tile.moveStart

/-- RECV (R204). -/
def execRecv (vx : Vx) (vy : Vy) (s : State) : Out :=
  let k := tileKey vx vy
  s.issueGo k (fun _ _ => true) 0x09 (fun t sh => t.mrBusy sh.words 0x09) (fun s j => s.mrConfig k j)
    (fun s j st => s.mrFault k j st) Tile.recvStart

end Sys2Proof.Machine
end

