-- ==== Sys2Proof/Machine/StackPort.lean ====
section
/-!
DEFINITION. Stack descriptors and the stack ports' scheduled side: STKRD, STKWR, ownership windows, burst spacing, reads against
writes, device-level ECC and retries (R207, R208, R247 to R263).
-/
namespace Sys2Proof.Machine

/-! ## Groups and windows (R247, R248, R251) -/

/-- Bytes of a channel group. -/
def State.groupSize (s : State) (gid : Nat) : Nat :=
  (if s.facts.grade = .ltf56 then 6 else 8) * 2 ^ 30 - (if gid = 7 || gid = 39 then 2 ^ 24 else 0)

/-- The ownership of group g of stack st, by number 8·st + g. -/
def State.groupOwn (s : State) (gid : Nat) : GroupOwn := (s.stack (gid / 8)).own.getD (gid % 8) {}

/-- Replace a group's ownership byte. -/
def State.putOwn (s : State) (gid : Nat) (o : GroupOwn) : State :=
  s.modStack (gid / 8) fun x => { x with own := x.own.set (gid % 8) o }

/-- The groups a pasture owns in slot order (R251). -/
def State.ownedGroups (s : State) (p : Nat) : List Nat :=
  (List.range 64).filter fun g => (s.groupOwn g).valid && decide ((s.groupOwn g).pas.toNat = p)

/-- The key of a byte of a group in State.stackMem. -/
def stackKey (gid off : Nat) : Nat := gid * 2 ^ 33 + off

/-- A pasture-relative address: its group and offset, if it is in a slot the pasture owns and inside the group. -/
def State.stackPlace (s : State) (p : Nat) (a : Int) : Option (Nat × Nat) :=
  if a < 0 || a ≥ 2 ^ 39 then none
  else
    match (s.ownedGroups p)[a.toNat / 2 ^ 33]? with
    | some gid => if a.toNat % 2 ^ 33 < s.groupSize gid then some (gid, a.toNat % 2 ^ 33) else none
    | none => none

/-- Record a fault, event or refusal in STK_ERR (R269), with the beat of its pasture (R431; assumption 135). -/
def State.stkRecord (s : State) (st p : Nat) (a : Int) (c : Status) : State :=
  s.modStack st fun x => { x with errStatus := c, errPas := BitVec.ofNat 4 p, errAddr := BitVec.ofInt 39 a, errBeat := s.logOf p }

/-- The pseudo-channel of a group offset (R253). -/
def pseudoChannel (off : Nat) : Nat := off / 64 % 8
/-- The bank of a group offset. -/
def bankOfOffset (off : Nat) : Nat := off / 512 % 16

/-! ## Corrected errors (R260, R262, R437) -/

/-- A symbol corrected at a port: CE_COUNT, and the threshold event of each pasture that owns a group of the port. -/
def State.stkCorrected (s : State) (st : Nat) : State :=
  let old := (s.stack st).ceCount
  let new := satInc old
  let s := s.modStack st fun x => { x with ceCount := new }
  (List.range 16).foldl (fun s p =>
    if (s.ownedGroups p).any (fun g => decide (g / 8 = st)) && passes old.toNat new.toNat (s.pasture p).stkCeThresh.toNat
    then (s.pasEvent p St.STACK_ECC_CE_THRESH st).alert 3 else s) s

/-! ## The code of a burst (R259, R260) -/

/-- The physical address of a burst: stack, channel, pseudo-channel, bank, row and column; how the address check packs it is the
model's (assumption 114). -/
def burstPlace (gid off : Nat) : List Byte :=
  let p := pseudoChannel off
  [BitVec.ofNat 8 (gid / 8), BitVec.ofNat 8 (gid % 8 * 4 + p / 2), BitVec.ofNat 8 (p % 2), BitVec.ofNat 8 (bankOfOffset off)]
    ++ bytesOf 3 (off / 2 ^ 13)

/-- The metadata written with a burst: three check symbols, and above them the address check. -/
def burstMark (gid off : Nat) (data : List Byte) : Word :=
  let c := rsCheck (symbolsOf data)
  place (c.getD 0 0) 0 ||| place (c.getD 1 0) 16 ||| place (c.getD 2 0) 32 ||| place (crc16 (burstPlace gid off)) 48

/-- What the device-level code finds in a burst's cells: its data and whether a symbol was corrected, or an error it cannot correct. -/
def decodeBurst (gid off : Nat) (cells : List Byte) (mark : Word) : Option (List Byte × Bool) :=
  match rsDecode (symbolsOf cells ++ (List.range 3).map fun i => BitVec.ofNat 16 (field mark (16 * i + 15) (16 * i))) with
  | none => none
  | some (code, fixed) =>
    if field mark 63 48 = (crc16 (burstPlace gid off)).toNat then some (symbolBytes (code.take 32), fixed) else none

/-- An upset burst as the port reads it, where the data was written at its place; `first` tells its next read from its reread. -/
def BurstUpset.decode (u : BurstUpset) (first : Bool) (gid off : Nat) (data : List Byte) : Option (List Byte × Bool) :=
  let once (i : Nat) : Byte := if first then u.onceData.getD i 0 else 0
  decodeBurst gid off ((List.range 64).map fun i => data.getD i 0 ^^^ u.data.getD i 0 ^^^ once i)
    (burstMark gid off data ^^^ u.mark ^^^ (if first then u.onceMark else 0))

/-- What a read of a burst gives: its data, whether a symbol was corrected, whether the port reread it, and whether that failed. -/
structure PortRead where
  data      : List Byte := []
  corrected : Bool := false
  reread    : Bool := false
  failed    : Bool := false
deriving DecidableEq, Repr

/-- A read of a burst in which `data` was written (R260): with an error not corrected, a failed address check or a parity error, it is
reread once. -/
def State.portRead (s : State) (gid off : Nat) (data : List Byte) : PortRead :=
  match smapFind s.bursts (stackKey gid off) with
  | none => { data := data }
  | some u =>
    match (if u.parity then none else u.decode true gid off data) with
    | some (d, c) => { data := d, corrected := c }
    | none => match u.decode false gid off data with
      | some (d, c) => { data := d, corrected := c, reread := true }
      | none => { data := data, reread := true, failed := true }

/-- A port after a read: what upset that read alone is over, and RETRIES counts a reread. -/
def State.countRead (s : State) (gid off : Nat) (r : PortRead) : State :=
  let s := match smapFind s.bursts (stackKey gid off) with
    | some u => { s with bursts := smapPut s.bursts (stackKey gid off) { u with parity := false, onceData := [], onceMark := 0 } }
    | none => s
  if r.reread then s.modStack (gid / 8) fun x => { x with retries := satInc x.retries } else s

/-- Read a burst's bytes outside a descriptor, its reread included: counted in CE_COUNT and RETRIES; none where it fails (R260). -/
def State.fetchBurst (s : State) (gid off : Nat) : State × Option (List Byte) :=
  let r := s.portRead gid off (memRead s.stackMem (stackKey gid off) 64)
  let s := s.countRead gid off r
  if r.failed then (s, none) else (if r.corrected then s.stkCorrected (gid / 8) else s, some r.data)

/-- Read bytes of a pasture's stack addresses by bursts; none from the first that fails on. -/
def State.stackFetch (s : State) (q a n : Nat) : State × Option (List Byte) :=
  let r := (List.range ((n + 63) / 64)).foldl (fun (acc : State × Option (List Byte)) i =>
    match acc.2 with
    | none => acc
    | some got =>
      match s.stackPlace q ((a + 64 * i : Nat) : Int) with
      | none => (acc.1, some (got ++ List.replicate 64 0))
      | some (g, off) =>
        let (s, bs) := acc.1.fetchBurst g off
        (s, bs.map (got ++ ·))) (s, some [])
  (r.1, r.2.map (·.take n))

/-! ## Descriptors (R201, R207) -/

/-- PORT of a stack descriptor. -/
def stkPort (ws : List Word) : Nat := dField ws 1 63 61
/-- LAT. -/
def stkLatOf (ws : List Word) : Nat := dField ws 1 60 50
/-- LEN. -/
def stkLen (ws : List Word) : Nat := dField ws 1 49 34

/-- The stack record of a job. -/
def Job.stkRec (j : Job) : Rec := (recOf j.words j.recs (2, 54)).getD {}
/-- The scratchpad record of a job. -/
def Job.spdRec (j : Job) : Rec := (recOf j.words j.recs (2, 44)).getD {}
/-- The index record of a job's stack record. -/
def Job.stkIdx (j : Job) : Option Rec := idxOf j.recs j.stkRec

/-- The run of burst i, and its place in it. -/
def Job.stkRun (j : Job) (i : Nat) : Nat × Nat := (i / (j.stkRec.sz 0 / 64), i % (j.stkRec.sz 0 / 64))

/-- The key of an index line that a GO at a job's beat read early or reads itself. -/
def stkLineKey (go : Nat) (line : Int) : Nat := 64 + (go % 4) * 2 ^ 22 + line.toNat

/-- The index entry's address for burst i, where it starts a run whose line is not the last one read (R199). -/
def Job.stkIndexLine (j : Job) (i : Nat) : Option Int :=
  match j.stkIdx with
  | none => none
  | some x =>
    let (r, m) := j.stkRun i
    let a := j.stkRec.entryAddr x j.ctrs r
    if m ≠ 0 || i ≥ stkLen j.words then none
    else if r = 0 || j.stkRec.entryAddr x j.ctrs (r - 1) / 64 ≠ a / 64 then some a else none

/-- The index entry of a run, from the lines read. -/
def Job.stkEntry (j : Job) (r : Nat) : Option Nat :=
  j.stkIdx.map fun x =>
    let a := j.stkRec.entryAddr x j.ctrs r
    leAt ((smapFind j.capIdx (stkLineKey j.go (a / 64))).getD []) (a % 64).toNat j.stkRec.entryBytes

/-- The stack address of burst i; none where its entry is out of range. -/
def Job.stkAddr (j : Job) (i : Nat) : Option Int :=
  let (r, m) := j.stkRun i
  (j.stkRec.rowAddr j.ctrs (j.stkRec.coord j.stkIdx r) (j.stkEntry r)).map (· + (64 * m : Nat))

/-- The scratchpad line of burst i: the line that holds its address. -/
def Job.stkLine (j : Job) (i : Nat) : Int :=
  let n := j.spdRec.sz 0 / 64
  (j.spdRec.row j.ctrs (i / n) + (64 * (i % n) : Nat)) / 64 * 64

/-- A line of SPD lies in banks 28 to 31 under mode 0 (R207). -/
def landingLine (a : Int) : Bool := a / 256 % 8 = 7

/-- The burst whose command falls at beat b. -/
def Job.stkBurst (j : Job) (b : Nat) : Option Nat :=
  if j.go ≤ b && b - j.go < stkLen j.words then some (b - j.go) else none

/-- Whether a job writes the stack. -/
def Job.stkWrites (j : Job) : Bool := opOf j.words = 0x11

/-- A GO of the stack unit ahead that reads its index early: a job as it will be, with its counters. -/
def Tile.earlyStk (t : Tile) (look : Ahead) (d : Nat) : Option Job :=
  match t.goAhead look d with
  | none => none
  | some ws =>
    if opOf ws ≠ 0x10 && opOf ws ≠ 0x11 then none
    else match smapFind t.shadows 3 with
      | some sh =>
        let g := t.beat + d
        if sh.opcode.toNat = opOf ws && sh.pre = 2 && sh.hashFault.isNone && sh.todo.isEmpty && sh.loadBeat + sh.nRec < g - 2 then
          some { opcode := sh.opcode, go := g, words := sh.words, recs := sh.recs,
                 ctrs := if d = 2 then t.ctrsPrev else smapGet t.ctrs t.early (earlyKey 3 g) }
        else none
      | none => none

/-- The early index reads of a beat: the job ahead and the entry's address. -/
def Tile.earlyIndex (t : Tile) (look : Ahead) : List (Job × Int) :=
  let at_ (d i : Nat) : List (Job × Int) := match t.earlyStk look d with
    | some j => (match j.stkIndexLine i with | some a => [(j, a)] | none => [])
    | none => []
  at_ 2 0 ++ at_ 1 1

/-- The scheduled accesses of a stack job at beat b: its index line two beats ahead, and a STKWR's line. -/
def Job.stkAccesses (j : Job) (b : Nat) : List Access :=
  let ix := match j.stkIdx with
    | some x => (match j.stkIndexLine (b + 2 - j.go) with | some a => x.readLines [a] | none => [])
    | none => []
  let rd := match j.stkBurst b with
    | some i => if j.stkWrites then j.spdRec.readLines [j.stkLine i] else []
    | none => []
  ix ++ rd

/-- A stack job's index capture at beat b. -/
def Job.stkCapture (j : Job) (t : Tile) (b : Nat) : Job :=
  match j.stkIdx, j.stkIndexLine (b + 2 - j.go) with
  | some x, some a =>
    { j with capIdx := smapPut j.capIdx (stkLineKey j.go (a / 64)) (t.bytes x.hash (a / 64 * 64) 64) }
  | _, _ => j

/-! ## Commands at the port (R68, R252, R255) -/

/-- Whether two bursts of a pasture break the spacing of R255. -/
def burstClash (gid off b : Nat) (c : BurstCmd) : Bool :=
  let d := if b ≤ c.beat then c.beat - b else b - c.beat
  c.group = gid && pseudoChannel c.off = pseudoChannel off
    && (decide (d < 4) || (decide (bankOfOffset c.off = bankOfOffset off) && decide (d < 87)))

/-- The fault of a burst command at beat b: the watch (R68), the window and XFER (R252), the spacing (R255). -/
def State.stkFault (s : State) (p port b : Nat) (a : Int) : Option Status :=
  if inWatch b then some St.STACK_WATCH_CONFLICT
  else
    match s.stackPlace p a with
    | none => some St.STACK_WINDOW
    | some (gid, off) =>
      if gid / 8 ≠ port then some St.STACK_WINDOW
      else if (s.groupOwn gid).xfer then some St.STACK_GROUP_XFER
      else if s.cmds.any fun c => decide (c.pas = p) && decide (c.beat ≤ b) && burstClash gid off b c then some St.STACK_BANK_BUSY
      else none

/-- A burst that breaks the spacing of R255 against one accepted with a later command beat: the tile faults at that beat. -/
def State.laterClash (s : State) (p b gid off : Nat) : Option Nat :=
  ((s.cmds.filter fun c => decide (c.pas = p) && decide (b < c.beat) && burstClash gid off b c).map (·.beat)).min?

/-- Whether a read or write at beat b by tile k is ordered after an accepted write (R256). -/
def ordered (k b port : Nat) (c : BurstCmd) : Bool :=
  if c.tile = k then decide (c.beat < b)
  else decide (c.beat + (Config.stkLat port (keyVx c.tile) (keyVy c.tile)).toNat ≤ b)

/-- The accepted writes to a burst, newest first. -/
def State.writesTo (s : State) (gid off : Nat) : List BurstCmd :=
  s.cmds.filter fun c => c.write && decide (c.group = gid) && decide (c.off = off)

/-- The writes to a burst that R256 does not order before a command. -/
def State.racing (s : State) (k b port gid off : Nat) : List BurstCmd :=
  (s.writesTo gid off).filter fun c => !ordered k b port c

/-- The burst without the writes that race a command: what stood there after the newest write ordered before it, which may be one that
lost to another (R256), or what stood there before them all. -/
def State.settled (s : State) (k b port gid off : Nat) : List Byte :=
  let ws := s.writesTo gid off
  match ws.find? (ordered k b port) with
  | some c => if c.lost then c.old else c.data
  | none => match ws.getLast? with
    | some c => c.old
    | none => memRead s.stackMem (stackKey gid off) 64

/-- Burst commands that no later command meets any more. -/
def State.dropCmds (s : State) (past : BurstCmd → Bool) : State := { s with cmds := s.cmds.filter fun c => !past c }

/-- Accept a burst command; commands too old to bear on another are forgotten. -/
def State.acceptCmd (s : State) (c : BurstCmd) : State :=
  { s with cmds := c :: s.cmds.filter fun o => decide (o.pas ≠ c.pas) || decide (c.beat < o.beat + 2 ^ 16 + 128) }

/-- Read a burst as the scheduled read finds it: the stack's bytes, or where R256 leaves it open those or the old ones, which hold every
write ordered before it. -/
def State.burstData (s : State) (k b port gid off : Nat) : State × List Byte :=
  let now := memRead s.stackMem (stackKey gid off) 64
  if (s.racing k b port gid off).isEmpty then (s, now)
  else
    let old := s.settled k b port gid off
    let (n, s) := s.draw
    (s, if n % 2 = 0 then now else old)

/-- A scheduled read of a burst in which `data` was written: what lands, and its arrival; CE_COUNT counts a correction of the first read,
RETRIES a reread (R260). -/
def State.readUpset (s : State) (st gid off : Nat) (data : List Byte) (late : Bool) : State × List Byte × Arrival :=
  let r := s.portRead gid off data
  let s := s.countRead gid off r
  if r.reread then (s, r.data, .reread r.failed r.corrected)
  else (if r.corrected then s.stkCorrected st else s, r.data, if late then .late else .ready)

/-- Perform a write burst: fresh check bits, unless the racing write whose bytes stand there keeps them (R256). -/
def State.burstWrite (s : State) (k b p port gid off : Nat) (data : List Byte) : State :=
  let old := memRead s.stackMem (stackKey gid off) 64
  let races := match (s.writesTo gid off).find? fun c => !c.lost with
    | some c => !ordered k b port c
    | none => false
  let keep := races && decide (s.draw.1 % 2 = 1)
  let s := if races then s.draw.2 else s
  let s := if keep then s else
    { s with stackMem := memWrite s.stackMem (stackKey gid off) data, bursts := smapDrop s.bursts (stackKey gid off) }
  s.acceptCmd { beat := b, group := gid, off := off, tile := k, pas := p, write := true, old := old, data := data, lost := keep }

/-- The command of burst i at beat b of a job of tile k in pasture p, after its checks: a write, or a read on its way to its
landing line. A burst whose index entry is out of range makes no command; a read of it lands zeros (R199, R263). Nor does one that breaks
the spacing of R255 against a later command beat: its fault waits for that beat. -/
def State.stkCommand (s : State) (k p : Nat) (j : Job) (i b : Nat) (line : List Byte) : State :=
  let port := stkPort j.words
  let due := b + stkLatOf j.words
  let mk (data : List Byte) (arr : Arrival) (a : Nat) : Landing :=
    { due := due, addr := j.stkLine i, mode := j.spdRec.hash, data := data, arrival := arr, stack := port, saddr := a, slot := j.slot }
  let land (s : State) (l : Landing) : State := s.modTile k fun t => { t with landings := t.landings ++ [l] }
  match j.stkAddr i with
  | none =>
    let s := if (j.stkRun i).2 = 0 then s.modTile k fun t => { t with indOor := satInc t.indOor } else s
    if j.stkWrites then s else land s (mk (List.replicate 64 0) .ready 0)
  | some a =>
    match s.stackPlace p a with
    | none => s
    | some (gid, off) =>
      match s.laterClash p b gid off with
      | some b' => s.modTile k fun t => { t with busyAt := t.busyAt ++ [(b', port, a)] }
      | none =>
      if j.stkWrites then s.burstWrite k b p port gid off line
      else
        let (s, data) := s.burstData k b port gid off
        let late := decide (stkLatOf j.words < (Config.stkLat port (keyVx k) (keyVy k)).toNat)
        let (s, data, arr) := s.readUpset port gid off data late
        let s := s.acceptCmd { beat := b, group := gid, off := off, tile := k, pas := p }
        land s (mk data arr a.toNat)

/-! ## GO -/

/-- The busy check of R208: the previous stack descriptor's command beats are over. -/
def Tile.stkBusy (t : Tile) (_ : Shadow) : Option Status :=
  if t.stkJobs.any fun j => decide (t.beat < j.go + stkLen j.words) then some St.SEQ_UNIT_BUSY else none

/-- Start a stack descriptor with the index lines its early reads took. -/
def Tile.stkStart (t : Tile) (j : Job) : Tile :=
  let mine (k : Nat) : Bool := k ≥ 64 && decide ((k - 64) / 2 ^ 22 = j.go % 4)
  { t with stkJobs := t.stkJobs ++ [{ j with capIdx := smapKeep mine t.earlyData }],
           earlyData := smapKeep (fun k => !mine k) t.earlyData }

/-- A GO of the stack unit. -/
def State.stkGo (s : State) (vx : Vx) (vy : Vy) (op : Nat) : Out :=
  let k := tileKey vx vy
  s.issueGo k (fun _ _ => true) op Tile.stkBusy (fun _ _ => none) (fun s j st => s.goFault k j st) Tile.stkStart

/-- STKRD (R207): from its GO on, one read burst per beat. -/
def execStkrd (vx : Vx) (vy : Vy) (s : State) : Out := s.stkGo vx vy 0x10
/-- STKWR (R207): from its GO on, one write burst per beat. -/
def execStkwr (vx : Vx) (vy : Vy) (s : State) : Out := s.stkGo vx vy 0x11

end Sys2Proof.Machine
end

