-- ==== Sys2Proof/Machine/Vector.lean ====
section
/-!
DEFINITION. The vector unit: lanes and vectors, VECOP with its special functions and reductions, QUANT in both directions, TOPK
(R165 to R183).
-/
namespace Sys2Proof.Machine

/-! ## Configuration (R179, R203) -/

/-- The configuration of a VECOP, QUANT or TOPK. -/
structure VxCfg where
  desc      : Nat := 0
  op        : Nat := 0
  bf16      : Bool := false
  bcastB    : Bool := false
  bcastC    : Bool := false
  dequant   : Bool := false
  fmtIn     : Nat := 0
  fmtOut    : Nat := 0
  rule1     : Bool := false
  strayS    : Nat := 0
  strayE4m3 : Bool := false
  k         : Nat := 0
  idx32     : Bool := false
  indexIn   : Bool := false
  tag       : Nat := 0
  base      : Int := 0
  scale     : BitVec 32 := 0
  idxBase   : Nat := 0
deriving DecidableEq, Repr, Inhabited

/-- Read the fields of R203. -/
def vxCfg (ws : List Word) : VxCfg :=
  { desc := opOf ws, op := dField ws 1 63 58, bf16 := dBit ws 1 57, bcastB := dBit ws 1 56, bcastC := dBit ws 1 55,
    dequant := dBit ws 1 54, fmtIn := dField ws 1 53 49, fmtOut := dField ws 1 48 44, rule1 := dBit ws 1 43,
    strayS := dField ws 1 42 39, strayE4m3 := dBit ws 1 38, k := dField ws 1 37 34, idx32 := dBit ws 1 33,
    indexIn := dBit ws 1 32, tag := dField ws 1 31 24, base := dSigned ws 1 23 8,
    scale := BitVec.ofNat 32 (dField ws 2 63 32), idxBase := dField ws 2 31 0 }

/-- A VECOP. -/
def VxCfg.isOp (c : VxCfg) : Bool := c.desc = 0x03
/-- A QUANT. -/
def VxCfg.isQuant (c : VxCfg) : Bool := c.desc = 0x04
/-- A TOPK. -/
def VxCfg.isTopk (c : VxCfg) : Bool := c.desc = 0x05

/-- The operation codes of R170. -/
def vecopValid (op : Nat) : Bool := (1 ≤ op && op ≤ 0x0A) || (0x10 ≤ op && op ≤ 0x13) || (0x20 ≤ op && op ≤ 0x25)
/-- The reductions. -/
def VxCfg.reduces (c : VxCfg) : Bool := c.isOp && 0x10 ≤ c.op && c.op ≤ 0x13
/-- The special functions. -/
def VxCfg.special (c : VxCfg) : Bool := c.isOp && 0x20 ≤ c.op

/-- Whether an operation uses B (R170, R174). -/
def VxCfg.usesB (c : VxCfg) : Bool :=
  c.isOp && ((1 ≤ c.op && c.op ≤ 6) || c.op = 0x0A || (c.special && c.bcastB))
/-- Whether an operation uses C. -/
def VxCfg.usesC (c : VxCfg) : Bool := c.isOp && (c.op = 4 || c.op = 0x0A)

/-- The latency L of R170 under the tile's LTV (R175). -/
def VxCfg.lat (c : VxCfg) (ltv : BitVec 2) : Nat :=
  if c.isTopk then 10
  else if c.isQuant then (if c.dequant then 3 else 6)
  else if c.special then (if ltv = 1 then 12 else 11)
  else if c.reduces then 9
  else if c.op = 7 || c.op = 8 || c.op = 9 then 2 else 4

/-- Lanes of a vector (R165). -/
def VxCfg.lanes (c : VxCfg) : Nat := if c.bf16 then 128 else 64

/-- The stray format (R90). -/
def VxCfg.strayFormat (c : VxCfg) : Nat := if c.strayE4m3 then 0x0A else 0x0C

/-! ## Vectors along dimension 0 (R166) -/

/-- A power of two. -/
def isPow2 (n : Nat) : Bool := n ≠ 0 && 2 ^ n.log2 = n

/-- Rows per vector: several where the row length is a power of two below the lane count, else one. -/
def segsOf (lanes n : Nat) : Nat := if isPow2 n && n < lanes then lanes / n else 1

/-- The vectors of an operand of `rows` rows of `n` elements. -/
def vectorCount (lanes n rows : Nat) : Nat :=
  if segsOf lanes n > 1 then ceilDiv rows (segsOf lanes n) else rows * ceilDiv n lanes

/-- The parts of vector i in lane order: row, first element, one past the last. -/
def vectorParts (lanes n rows i : Nat) : List (Nat × Nat × Nat) :=
  let sg := segsOf lanes n
  if sg > 1 then ((List.range sg).map (· + i * sg)).filterMap fun r => if r < rows then some (r, 0, n) else none
  else
    let v := ceilDiv n lanes
    let lo := i % v * lanes
    [(i / v, lo, min n (lo + lanes))]

/-- The vector that holds the last element of a row. -/
def lastVector (lanes n r : Nat) : Nat :=
  if segsOf lanes n > 1 then r / segsOf lanes n else r * ceilDiv n lanes + (ceilDiv n lanes - 1)

/-- The A operand of a job. -/
def Job.vxA (j : Job) : Rec := (recOf j.words j.recs (3, 54)).getD {}
/-- The B operand. -/
def Job.vxB (j : Job) : Rec := (recOf j.words j.recs (3, 44)).getD {}
/-- The C operand. -/
def Job.vxC (j : Job) : Rec := (recOf j.words j.recs (3, 34)).getD {}
/-- DST_0. -/
def Job.vxD0 (j : Job) : Rec := (recOf j.words j.recs (3, 24)).getD {}
/-- DST_1. -/
def Job.vxD1 (j : Job) : Rec := (recOf j.words j.recs (3, 14)).getD {}
/-- DST_2. -/
def Job.vxD2 (j : Job) : Rec := (recOf j.words j.recs (3, 4)).getD {}
/-- AUX: the stray map. -/
def Job.vxAux (j : Job) : Rec := (recOf j.words j.recs (4, 54)).getD {}

/-- Elements per row of A. -/
def Job.vxN (j : Job) : Nat := j.vxA.sz 0
/-- Rows of A. -/
def Job.vxRows (j : Job) : Nat := j.vxA.rows none
/-- Vectors of the descriptor. -/
def Job.vxVectors (j : Job) : Nat := vectorCount (vxCfg j.words).lanes j.vxN j.vxRows
/-- The parts of vector i. -/
def Job.vxParts (j : Job) (i : Nat) : List (Nat × Nat × Nat) := vectorParts (vxCfg j.words).lanes j.vxN j.vxRows i

/-- The last read beat (R171, R172). -/
def Job.vxLastRead (j : Job) : Nat := j.go + j.vxVectors
/-- The last beat. -/
def Job.vxLast (j : Job) (ltv : BitVec 2) : Nat := j.vxLastRead + (vxCfg j.words).lat ltv

/-! ## Checks at GO (R170, R172, R176, R178, R180) -/

/-- The busy check of R172. -/
def Tile.vxBusy (t : Tile) (_ : Shadow) : Option Status :=
  match t.vxJobs.getLast? with
  | none => none
  | some j => if t.vxJobs.length ≥ 2 || t.beat < j.vxLastRead then some St.VXU_BUSY else none

/-- A B or C operand matches A (R170). -/
def vxMatches (a x : Rec) (bcast : Bool) : Bool :=
  if bcast then x.sz 0 * x.rows none = a.rows none
  else x.sz 0 = a.sz 0 && x.rows none = a.rows none

/-- FP32 or BF16. -/
def fmtWide (f : Nat) : Bool := f = 0x10 || f = 0x11

/-- The records whose own FMT counts beyond the sources of VECOP and TOPK (R75, R197): side arrays, stray records and maps, the
outputs of TOPK, the u32 results of RARGMAX (assumption 111), and sources that a VECOP names and does not use. -/
def Job.vxFormats (j : Job) : List Rec :=
  let c := vxCfg j.words
  if c.isTopk then [j.vxD0, j.vxD1]
  else if c.isOp then [j.vxB, j.vxC] ++ if c.op = 0x13 then [j.vxD0] else []
  else if c.dequant then [j.vxB, j.vxC, j.vxAux] else [j.vxD1, j.vxD2, j.vxAux]

/-- The unit's own checks at GO: ST_VXU_CONFIG, then ST_VXU_FORMAT (R180). -/
def Job.vxFault (j : Job) : Option Status :=
  let c := vxCfg j.words
  let a := j.vxA
  let hasB := (recOf j.words j.recs (3, 44)).isSome
  let hasC := (recOf j.words j.recs (3, 34)).isSome
  let config : Bool :=
    c.strayS > 8
    || (c.isTopk && (c.k = 0 || c.k > 8 || c.bf16 || a.sz 0 > 64 || (c.indexIn && !vxMatches a j.vxB false)))
    || (!c.isTopk && (c.k ≠ 0 || c.idx32 || c.indexIn))
    || (c.isOp && (!vecopValid c.op
        || (c.usesB && (!hasB || !vxMatches a j.vxB c.bcastB))
        || (c.usesC && (!hasC || !vxMatches a j.vxC c.bcastC))))
  let fmtBad : Bool :=
    (c.isOp && (!fmtWide a.fmt || (c.usesB && !fmtWide j.vxB.fmt) || (c.usesC && !fmtWide j.vxC.fmt)))
    || (c.isTopk && !fmtWide a.fmt)
    || (c.isQuant && !c.dequant &&
        (!fmtWide c.fmtIn || !(c.fmtOut ≤ 2 || (8 ≤ c.fmtOut && c.fmtOut ≤ 0x0C))
          || (c.rule1 && c.fmtOut = 2) || a.sz 0 % fmtBlock c.fmtOut ≠ 0 || j.vxD0.sz 0 % fmtBlock c.fmtOut ≠ 0))
    || (c.isQuant && c.dequant &&
        (!(fmtScaled c.fmtIn || c.fmtIn = 0x12) || !fmtValid c.fmtOut || a.sz 0 % fmtBlock c.fmtIn ≠ 0))
    || j.vxFormats.any fun r => !fmtValid r.fmt
  if config then some St.VXU_CONFIG else if fmtBad then some St.VXU_FORMAT else none

/-- A vector-unit fault at the beat in progress (R182). -/
def State.vxuFault (s : State) (k slot : Nat) (st : Status) : State :=
  (s.modTile k fun t =>
    { t with vxErr := ⟨st, BitVec.ofNat 8 slot, 0, BitVec.ofNat 32 t.beat⟩ }).stopTile k st

/-! ## Reads -/

/-- The place of element r of an operand, counted in its own order with dimension 0 innermost (R171). -/
def Rec.nth (r : Rec) (i : Nat) : Nat × Nat := (i / r.sz 0, i % r.sz 0)

/-- The stray groups of a part: row and group. -/
def partGroups (p : Nat × Nat × Nat) : List (Nat × Nat) :=
  ((List.range (ceilDiv p.2.2 64 - p.2.1 / 64)).map (· + p.2.1 / 64)).map fun q => (p.1, q)

/-- The row of the stray record of row r and group q: records are packed by group, then by row (R91). -/
def Job.strayRow (j : Job) (x : Rec) (r q : Nat) : Int := x.row j.ctrs (q * j.vxRows + r)

/-- The lines an element operand of a format reads for a vector's parts. -/
def partLines (x : Rec) (f : Nat) (ctrs : List (BitVec 24)) (ps : List (Nat × Nat × Nat)) : List Int :=
  ps.flatMap fun p => x.elemLines f (x.row ctrs p.1) p.2.1 p.2.2

/-- The lines a row-broadcast operand reads. -/
def bcastLines (x : Rec) (ctrs : List (BitVec 24)) (ps : List (Nat × Nat × Nat)) : List Int :=
  ps.flatMap fun p =>
    let (row, e) := x.nth p.1
    x.elemLines x.fmt (x.row ctrs row) e (e + 1)

/-- The record of companion indices: its entries have the width IDX_FMT selects (R178). -/
def VxCfg.idxFormat (c : VxCfg) : Nat := if c.idx32 then 0x11 else 0x10

/-- The reads of vector i, each operand's lines once. -/
def Job.vxReads (j : Job) (i : Nat) : List Access :=
  let c := vxCfg j.words
  let ps := j.vxParts i
  let gs := ps.flatMap partGroups
  let a := j.vxA
  let fA := if c.isQuant then c.fmtIn else a.fmt
  let rdA := a.readLines (partLines a fA j.ctrs ps)
  let wide (on bcast : Bool) (x : Rec) : List Access :=
    if !on then [] else x.readLines (if bcast then bcastLines x j.ctrs ps else partLines x x.fmt j.ctrs ps)
  if c.isOp then rdA ++ wide c.usesB c.bcastB j.vxB ++ wide c.usesC c.bcastC j.vxC
  else if c.isTopk then
    rdA ++ (if c.indexIn then j.vxB.readLines (partLines j.vxB c.idxFormat j.ctrs ps) else [])
  else
    let maps := if c.strayS = 0 then [] else
      j.vxAux.readLines (gs.flatMap fun g => spanLines (j.vxAux.row j.ctrs g.2) 8)
    if c.dequant then
      let b := j.vxB
      let side := if c.fmtIn = 0x12 then [] else
        b.readLines (ps.flatMap fun p =>
          sideLines c.fmtIn (b.row j.ctrs p.1) (p.2.1 / fmtBlock c.fmtIn) (ceilDiv p.2.2 (fmtBlock c.fmtIn)))
      let strays := if c.strayS = 0 then [] else
        j.vxC.readLines (gs.flatMap fun g => spanLines (j.strayRow j.vxC g.1 g.2) (c.strayS + 1))
      rdA ++ side ++ strays ++ maps
    else rdA ++ maps

/-! ## Source values -/

/-- An FP32 code's bytes as captured. -/
def f32Bytes (b : BitVec 32) : List Byte := bytesOf 4 b.toNat

/-- The value of a wide element's code in a format. -/
def wideVal (f c : Nat) : FpVal := if f = 0x10 then bf16Val (BitVec.ofNat 16 c) else f32Val (BitVec.ofNat 32 c)

/-- The largest finite value of a wide format. -/
def wideMax (f : Nat) : Dyad := if f = 0x10 then bf16Max else f32Max

/-- Round to the lane type (R89, R167): the FP32 code of the result, and whether it saturates. -/
def VxCfg.round (c : VxCfg) (x : Dyad) : BitVec 32 × Bool :=
  if c.bf16 then
    let (b, s) := roundBF16 x
    (b ++ (0 : BitVec 16), s)
  else roundF32 x

/-- A VECOP or TOPK source element in the lane type, as an FP32 code, whether it was replaced, and whether its narrowing to the
lane type saturated (R89, R165, R167). -/
def VxCfg.sourceVal (c : VxCfg) (f code : Nat) : BitVec 32 × Bool × Bool :=
  let (d, r) := (wideVal f code).source (wideMax f)
  let (y, sat) := c.round d
  (y, r, sat && !r)

/-- The elements of a wide operand for a vector's parts: codes in lane order. -/
def partCodes (rd : Reader) (x : Rec) (f : Nat) (ctrs : List (BitVec 24)) (ps : List (Nat × Nat × Nat)) : List Nat :=
  ps.flatMap fun p => (List.range (p.2.2 - p.2.1)).map fun e => elemFrom rd x f (x.row ctrs p.1) (p.2.1 + e)

/-- One code per part of a row-broadcast operand, and how many lanes it serves. -/
def bcastCodes (rd : Reader) (x : Rec) (ctrs : List (BitVec 24)) (ps : List (Nat × Nat × Nat)) : List (Nat × Nat) :=
  ps.map fun p =>
    let (row, e) := x.nth p.1
    (elemFrom rd x x.fmt (x.row ctrs row) e, p.2.2 - p.2.1)

/-- A source of a VECOP in lane order as FP32 codes, the lanes that saturated in its narrowing, and the replacements counted. Of
PAIRROT's B and C the odd lanes are ignored. -/
def Job.sourceLanes (j : Job) (t : Tile) (x : Rec) (bcast evens : Bool) (i : Nat) : List (BitVec 32) × List Bool × Nat :=
  let c := vxCfg j.words
  let ps := j.vxParts i
  if bcast then
    let vs := (bcastCodes (t.reader x) x j.ctrs ps).map fun cn => (c.sourceVal x.fmt cn.1, cn.2)
    (vs.flatMap fun v => List.replicate v.2 v.1.1, vs.flatMap fun v => List.replicate v.2 v.1.2.2,
      (vs.filter fun v => v.1.2.1).length)
  else
    let vs := (partCodes (t.reader x) x x.fmt j.ctrs ps).map (c.sourceVal x.fmt)
    let cnt := (List.range vs.length).filter fun l => !(evens && l % 2 = 1) && (vs.getD l (0, false, false)).2.1
    (vs.map (·.1), vs.map (·.2.2), cnt.length)

/-! ## Special functions (R174): reference values to 2^−512 -/

/-- Fraction bits of the fixed-point reference. -/
def sfuBits : Nat := 512

/-- The sum of x^(2k+1)/(2k+1) for `n` terms: atanh x in fixed point. -/
def atanhSum (x2 : Nat) : Nat → Nat → Nat → Nat
  | 0, _, _ => 0
  | n + 1, pw, d => pw / d + atanhSum x2 n (pw * x2 / 2 ^ sfuBits) (d + 2)

/-- atanh of a fixed-point fraction. -/
def atanhFix (x : Nat) : Nat := atanhSum (x * x / 2 ^ sfuBits) 180 x 1

/-- ln 2 in fixed point. -/
def ln2Fix : Nat := 2 * atanhFix (2 ^ sfuBits / 3)

/-- The exponential series. -/
def expSum (x : Nat) : Nat → Nat → Nat → Nat
  | 0, _, _ => 0
  | n + 1, term, k => term + expSum x n (term * x / 2 ^ sfuBits / k) (k + 1)

/-- 2^f of a fixed-point fraction f in [0, 1). -/
def exp2Fix (f : Nat) : Nat := let x := f * ln2Fix / 2 ^ sfuBits; expSum x 110 (2 ^ sfuBits) 1

/-- The floor and fraction of a dyadic in fixed point. -/
def floorFrac (x : Dyad) : Int × Nat :=
  let v := if x.e ≥ 0 then x.m * pow2 x.e * (2 : Int) ^ sfuBits
    else if x.e.natAbs ≤ sfuBits then x.m * (2 : Int) ^ (sfuBits - x.e.natAbs)
    else x.m / (2 : Int) ^ (x.e.natAbs - sfuBits)
  (v / (2 : Int) ^ sfuBits, (v % (2 : Int) ^ sfuBits).toNat)

/-- 2^x of a dyadic. -/
def exp2Ref (x : Dyad) : Dyad := let (n, f) := floorFrac x; ⟨exp2Fix f, n - sfuBits⟩

/-- log2 x of a positive dyadic. -/
def log2Ref (x : Dyad) : Dyad :=
  let n := x.log2
  let m := x.m.natAbs * 2 ^ sfuBits / 2 ^ x.m.natAbs.log2
  let one := 2 ^ sfuBits
  let ln := 2 * atanhFix ((m - one) * 2 ^ sfuBits / (m + one))
  ⟨n * (2 : Int) ^ sfuBits + (ln * 2 ^ sfuBits / ln2Fix : Nat), -sfuBits⟩

/-- 1/x of a dyadic other than 0. -/
def rcpRef (x : Dyad) : Dyad :=
  let q : Int := 2 ^ (2 * sfuBits) / x.m.natAbs
  ⟨if x.m < 0 then -q else q, -(2 * sfuBits : Int) - x.e⟩

/-- An integer square root by Newton's steps. -/
def isqrtSteps (n : Nat) : Nat → Nat → Nat
  | 0, x => x
  | f + 1, x => let y := (x + n / x) / 2; if y ≥ x then x else isqrtSteps n f y

/-- The integer square root. -/
def isqrt (n : Nat) : Nat := if n = 0 then 0 else isqrtSteps n (n.log2 + 2) (2 ^ (n.log2 / 2 + 1))

/-- 1/√x of a positive dyadic. -/
def rsqrtRef (x : Dyad) : Dyad :=
  let odd : Bool := x.e % 2 ≠ 0
  let m := if odd then 2 * x.m.natAbs else x.m.natAbs
  let e := if odd then x.e - 1 else x.e
  ⟨isqrt (2 ^ (4 * sfuBits) / m), -(2 * sfuBits : Int) - e / 2⟩

/-- e^x of a dyadic with a magnitude at most 256. -/
def expRef (x : Dyad) : Dyad :=
  let l2e := 2 ^ (2 * sfuBits) / ln2Fix
  exp2Ref ⟨x.m * (l2e : Int), x.e - sfuBits⟩

/-- A quotient of positive dyadics. -/
def Dyad.quot (x y : Dyad) : Dyad := ⟨x.m * (2 : Int) ^ (2 * sfuBits) / y.m, x.e - y.e - 2 * sfuBits⟩

/-- tanh x. -/
def tanhRef (x : Dyad) : Dyad :=
  if x.isZero then {}
  else
    let a := x.abs
    let v : Dyad := if (⟨64, 0⟩ : Dyad).le a then ⟨1, 0⟩
      else
        let e := expRef ⟨a.m, a.e + 1⟩
        (e.sub ⟨1, 0⟩).quot (e.add ⟨1, 0⟩)
    if x.m < 0 then v.neg else v

/-- 1 / (1 + e^−x). -/
def sigmoidRef (x : Dyad) : Dyad :=
  if (⟨160, 0⟩ : Dyad).le x.abs then (if x.m < 0 then {} else ⟨1, 0⟩)
  else
    let e := expRef x
    e.quot (e.add ⟨1, 0⟩)

/-- The exact result of a special function, to 2^−512. -/
def sfuRef (op : Nat) (u : Dyad) : Dyad :=
  match op with
  | 0x20 => exp2Ref u
  | 0x21 => log2Ref u
  | 0x22 => rcpRef u
  | 0x23 => rsqrtRef u
  | 0x24 => tanhRef u
  | _ => sigmoidRef u

/-- The unit in the last place of a value in FP32. -/
def ulpOf (x : Dyad) : Dyad := ⟨1, if x.isZero then -149 else max (-149) (x.log2 - 23)⟩

/-- The error R174 allows around the exact result. -/
def sfuBound (op : Nat) (u y : Dyad) : Dyad :=
  let ulp := ulpOf y
  match op with
  | 0x20 | 0x22 => ulp
  | 0x21 => if (⟨3, -2⟩ : Dyad).le u && u.le ⟨3, -1⟩ then ⟨1, -22⟩ else ⟨2, ulp.e⟩
  | _ => ⟨2, ulp.e⟩

/-- f(u) for a finite u: its FP32 code, and the SAT_ELEM and NONFINITE counts of the special inputs. Within the error R174
allows the value is free: the pipe's own function where that lies within it, else the nearest code. -/
def sfuValue (op : Nat) (u : BitVec 32) : BitVec 32 × RwCount :=
  let x := f32Dyad u
  let top : BitVec 32 := 0x7F7FFFFF
  if op = 0x20 && (⟨128, 0⟩ : Dyad).le x then (top, { satElem := 1 })
  else if op = 0x20 && x.lt ⟨-149, 0⟩ then (0, {})
  else if op = 0x20 && (floorFrac x).2 = 0 then ((roundF32 ⟨1, (floorFrac x).1⟩).1, {})
  else if op = 0x21 && x.isZero then (0xFF7FFFFF, { nonfinite := 1 })
  else if (op = 0x22 || op = 0x23) && x.isZero then (top, { nonfinite := 1 })
  else if (op = 0x21 || op = 0x23) && x.m < 0 then (0, { nonfinite := 1 })
  else
    let y := sfuRef op x
    if f32Max.lt y.abs then ((roundF32 y).1, { satElem := 1 })
    else
      let cand := Config.sfu op u
      match f32Val cand with
      | .fin d => if (d.sub y).abs.le (sfuBound op x y) && cand ≠ 0x80000000 then (cand, {}) else ((roundF32 y).1, {})
      | _ => ((roundF32 y).1, {})

/-- u of R174: two roundings to FP32. A SCALE that is not finite has no stated u (assumption 31). -/
def sfuInput (scale a b : BitVec 32) : BitVec 32 :=
  match f32Val scale with
  | .fin sc => (roundF32 ((f32Dyad (roundF32 ((f32Dyad a).sub (f32Dyad b))).1).mul sc)).1
  | _ => (roundF32 (f32Dyad (Config.missingLane scale))).1

/-! ## Lane-wise operations (R170) -/

/-- A lane's result before rounding for the operations on FP32 codes. -/
def laneValue (op : Nat) (a b c : BitVec 32) : Dyad :=
  let x := f32Dyad a
  let y := f32Dyad b
  let z := f32Dyad c
  match op with
  | 0x01 => x.add y
  | 0x02 => x.sub y
  | 0x03 => x.mul y
  | 0x04 => (x.mul y).add z
  | 0x05 => if y.lt x then y else x
  | 0x06 => if x.lt y then y else x
  | 0x07 => x.abs
  | 0x08 => x.neg
  | _ => x

/-- A lane of PAIRROT: a₀c − a₁s in an even lane, a₀s + a₁c in an odd one. A pair whose odd lane lies beyond the row's end has
no stated a₁ (assumption 31). -/
def pairValue (as bs cs : List (BitVec 32)) (l : Nat) : Dyad :=
  let e := l / 2 * 2
  let a0c := as.getD e 0
  let a0 := f32Dyad a0c
  let a1 := f32Dyad (as.getD (e + 1) (Config.missingLane a0c))
  let c := f32Dyad (bs.getD e 0)
  let s := f32Dyad (cs.getD e 0)
  if l % 2 = 0 then (a0.mul c).sub (a1.mul s) else (a0.mul s).add (a1.mul c)

/-- Whether a source that lane l of an operation takes saturated in its narrowing: `sa`, `sb` and `sc` are those of A, B and C. -/
def VxCfg.laneNarrowed (c : VxCfg) (sa sb sc : List Bool) (l : Nat) : Bool :=
  let e := l / 2 * 2
  if c.isOp && c.op = 0x0A then sa.getD e false || sa.getD (e + 1) false || sb.getD e false || sc.getD e false
  else sa.getD l false || sb.getD l false || sc.getD l false

/-- The results of a lane-wise VECOP: FP32 codes of the lane type, and the counts; `nar` says whose sources saturated on read. An
element that saturates on read or in its result counts once (R106). -/
def VxCfg.laneResults (c : VxCfg) (as bs cs : List (BitVec 32)) (nar : Nat → Bool) : List (BitVec 32) × RwCount :=
  let rs : List (BitVec 32 × RwCount) := (List.range as.length).map fun l =>
    let a := as.getD l 0
    let b := bs.getD l 0
    let once (n : RwCount) : RwCount := if nar l then { n with satElem := 1 } else n
    if c.special then
      let (y, n) := sfuValue c.op (sfuInput c.scale a b)
      if c.bf16 then
        let (z, sat) := c.round (f32Dyad y)
        (z, once { n with satElem := if n.satElem ≠ 0 || sat then 1 else 0 })
      else (y, once n)
    else
      let d := if c.op = 0x0A then pairValue as bs cs l else laneValue c.op a b (cs.getD l 0)
      let (y, sat) := c.round d
      (y, once { satElem := if sat then 1 else 0 })
  (rs.map (·.1), rs.foldl (fun n r =>
    { n with satElem := n.satElem + r.2.satElem, nonfinite := n.nonfinite + r.2.nonfinite }) {})

/-! ## Reductions (R173) -/

/-- One level of the pairwise tree; a lane without a partner passes. -/
def treeLevel : List (BitVec 32 × Bool) → List (BitVec 32 × Bool)
  | x :: y :: xs =>
    let (z, s) := roundF32 ((f32Dyad x.1).add (f32Dyad y.1))
    (z, s || x.2 || y.2) :: treeLevel xs
  | xs => xs

/-- The tree sum of a vector or segment of at most 128 lanes. -/
def treeSum (xs : List (BitVec 32 × Bool)) : BitVec 32 × Bool :=
  ((List.range 7).foldl (fun l _ => treeLevel l) xs).headD (0, false)

/-- The sum of a row from its vectors' lanes, squared first for RSSQ. -/
def rowSum (squares : Bool) (vs : List (List (BitVec 32))) : BitVec 32 × Bool :=
  let prep (xs : List (BitVec 32)) : List (BitVec 32 × Bool) := xs.map fun x =>
    if squares then roundF32 ((f32Dyad x).mul (f32Dyad x)) else (x, false)
  match vs.map fun v => treeSum (prep v) with
  | [] => (0, false)
  | x :: xs => xs.foldl (fun acc y =>
      let (z, s) := roundF32 ((f32Dyad acc.1).add (f32Dyad y.1))
      (z, s || acc.2 || y.2)) x

/-- The index of the first maximal element. -/
def firstMax (xs : List (BitVec 32)) : Nat :=
  (List.range xs.length).foldl (fun b i => if (f32Dyad (xs.getD b 0)).lt (f32Dyad (xs.getD i 0)) then i else b) 0

/-- A row's reduction: its code, and whether a rounding saturated. -/
def VxCfg.reduceRow (c : VxCfg) (vs : List (List (BitVec 32))) : BitVec 32 × Bool :=
  let flat := vs.flatten
  match c.op with
  | 0x12 => (flat.getD (firstMax flat) 0, false)
  | 0x13 => (BitVec.ofNat 32 (firstMax flat), false)
  | _ =>
    let (y, s) := rowSum (c.op = 0x11) vs
    if c.bf16 then let (z, s') := c.round (f32Dyad y); (z, s || s') else (y, s)

/-! ## QUANT (R176, R177) -/

/-- The channels the valid slots below S of a stray map name, by slot; none for a slot that is not valid. -/
def mapSlots (s : Nat) (bs : List Byte) : List (Option Nat) :=
  (List.range s).map fun i => if (byteAt bs i).toNat ≥ 128 then some ((byteAt bs i).toNat % 64) else none

/-- The bytes of packed element codes of whole blocks of a format below 8 bits. -/
def packCodes (f : Nat) (cs : List Nat) : List Byte :=
  let n := cs.foldr (fun c acc => c + acc * 2 ^ fmtBits f) 0
  bytesOf (cs.length * fmtBits f / 8) n

/-- A block quantised: its codes, its side entry, and its saturated elements. `skip l` excludes a stray position; `nar l` says that
lane l saturated in its narrowing to the lane type. An infinity in LF4 takes code 0b111 under the nudge of the finite elements (DESIGN CHOICE,
assumption 137). -/
def quantBlock (f : Nat) (rule1 : Bool) (xs : List (BitVec 32)) (skip nar : Nat → Bool) : List Nat × List Byte × Nat :=
  let fins (ls : List Nat) : List Dyad := ls.filterMap fun l =>
    if skip l then none else match f32Val (xs.getD l 0) with | .fin d => some d.abs | _ => none
  let amaxOf (ds : List Dyad) : Dyad := ds.foldl (fun a d => if a.lt d then d else a) {}
  let all := List.range xs.length
  let s := blockExp f (amaxOf (fins all)) rule1
  let nudge (g : Nat) : Nat := if f = 2 then groupNudge (amaxOf (fins ((List.range 8).map (· + 8 * g)))) s else 0
  let nudges := (List.range 8).map nudge
  let codes : List (Nat × Bool) := all.map fun l =>
    if skip l then (0, false) else match f32Val (xs.getD l 0) with
      | .fin d => let (c, sat) := narrow f d s (nudges.getD (l / 8) 0); (c, sat || nar l)
      | .inf neg => (signedCode f (maxCode f) neg, false)
      | .nan => (0, false)
  let word := (List.range 8).foldl (fun w g => w + nudges.getD g 0 * 4 ^ g) 0
  let side := BitVec.ofInt 8 (s + 127) :: (if f = 2 then bytesOf 2 word else [])
  (codes.map (·.1), side, (codes.filter (·.2)).length)

/-- The 32-bit codes in captured bytes. -/
def capCodes (bs : List Byte) : List (BitVec 32) :=
  (List.range (bs.length / 4)).map fun i => BitVec.ofNat 32 (leAt bs (4 * i) 4)

/-- The value of a narrow or LONG element (R177): LONG with B = BASE, others with their nudge and scale; zero under a NaN
scale. -/
def VxCfg.dequantVal (c : VxCfg) (code : Nat) (side : List Byte) (e : Nat) : Dyad :=
  if c.fmtIn = 0x12 then ⟨(BitVec.ofNat 96 code).toInt, c.base - 12⟩
  else
    let f := c.fmtIn
    let nudge := if f = 2 then (ofBytes (side.drop 1)) / 4 ^ (e % 64 / 8) % 4 else 0
    match scaleExp (byteAt side 0).toNat with
    | none => {}
    | some sc => if f = 0x05 && code = 3 then {} else ⟨gridVal f code nudge, sc - (fmtQ f : Int)⟩

/-- Whether a code of a narrow format is non-finite for the counts of R106. -/
def codeBad (f code : Nat) : Bool := if f = 0x05 then code = 3 else (elemVal f code).2

/-- The dequantised lanes of a part: FP32 codes with saturation, and NONFINITE. -/
def Job.dequantPart (j : Job) (t : Tile) (p : Nat × Nat × Nat) : List (BitVec 32 × Bool) × Nat :=
  let c := vxCfg j.words
  let f := c.fmtIn
  let a := j.vxA
  let es := (List.range (p.2.2 - p.2.1)).map (· + p.2.1)
  let blk := fmtBlock f
  let sideOf (e : Nat) : List Byte :=
    if f = 0x12 then [] else sideFrom (t.reader j.vxB) f (j.vxB.row j.ctrs p.1) (e / blk)
  let code (e : Nat) : Nat := elemFrom (t.reader a) a f (a.row j.ctrs p.1) e
  let slots (q : Nat) : List (Option Nat) :=
    if c.strayS = 0 then [] else mapSlots c.strayS (t.reader j.vxAux (j.vxAux.row j.ctrs q) 8)
  let rec_ (q : Nat) : List Byte := t.reader j.vxC (j.strayRow j.vxC p.1 q) (c.strayS + 1)
  let named (e : Nat) : List Nat :=
    (List.range c.strayS).filter fun i => decide ((slots (e / 64)).getD i none = some (e % 64))
  let stray (q i : Nat) : Dyad :=
    match scaleExp (byteAt (rec_ q) c.strayS).toNat with
    | none => {}
    | some sc => ⟨gridVal c.strayFormat (byteAt (rec_ q) i).toNat 0, sc - (fmtQ c.strayFormat : Int)⟩
  let lane (e : Nat) : BitVec 32 × Bool :=
    match named e with
    | [] => c.round (c.dequantVal (code e) (sideOf e) e)
    | [i] => c.round (stray (e / 64) i)
    | i :: _ => c.round (f32Dyad (Config.missingLane (BitVec.ofNat 32 i)))
  let used := es.filter fun e => (named e).isEmpty
  let nfElem := if f = 0x05
    then ((used.filter fun e => codeBad f (code e)).map fun e => e / 32 * 7 + e % 32 / 5).eraseDups.length
    else if f = 0x12 then 0 else (used.filter fun e => codeBad f (code e)).length
  let nfScale := if f = 0x12 then 0
    else ((es.map (· / blk)).eraseDups.filter fun b => byteAt (sideOf (b * blk)) 0 = 0xFF).length
  let gs := if c.strayS = 0 then [] else (partGroups p).map (·.2)
  let nfStray := gs.foldl (fun n q =>
    n + (if byteAt (rec_ q) c.strayS = 0xFF then 1 else 0)
      + ((List.range c.strayS).filter fun i => codeBad c.strayFormat (byteAt (rec_ q) i).toNat).length) 0
  (es.map lane, nfElem + nfScale + nfStray)

/-! ## Capture at the read beat -/

/-- Capture vector i at its read beat (R171): the sources as FP32 codes in lane order, QUANT's inputs or results, and the
NONFINITE events found. Keys: 8·i + 0 A, 1 B or indices, 2 C, 3 saturation bits, 4 stray maps, 5 to 7 the lanes of A, B and C that
saturated in their narrowing. A QUANT's input is narrowed to the lane type before it is quantised (assumption 110). -/
def Job.vxCapture (j : Job) (t : Tile) (i : Nat) : Job × Nat :=
  let c := vxCfg j.words
  let ps := j.vxParts i
  let keep (cap : SMap (List Byte)) (n : Nat) (cs : List (BitVec 32)) : SMap (List Byte) :=
    smapPut cap (8 * i + n) (cs.flatMap f32Bytes)
  let flags (bs : List Bool) : List Byte := bs.map fun b => if b then 1 else 0
  if c.isOp || c.isTopk then
    let (as, sa, na) := j.sourceLanes t j.vxA false false i
    let (bs, sb, nb) := if c.usesB then j.sourceLanes t j.vxB c.bcastB (c.op = 0x0A) i else ([], [], 0)
    let (cs, sc, nc) := if c.usesC then j.sourceLanes t j.vxC c.bcastC (c.op = 0x0A) i else ([], [], 0)
    let bs := if c.isTopk && c.indexIn then
        (partCodes (t.reader j.vxB) j.vxB c.idxFormat j.ctrs ps).map (BitVec.ofNat 32) else bs
    let cap := keep (keep (keep j.cap 0 as) 1 bs) 2 cs
    let cap := smapPut (smapPut (smapPut cap (8 * i + 5) (flags sa)) (8 * i + 6) (flags sb)) (8 * i + 7) (flags sc)
    ({ j with cap := cap }, na + nb + nc)
  else if c.dequant then
    let rs := ps.map (j.dequantPart t)
    let lanes := rs.flatMap (·.1)
    ({ j with cap := smapPut (keep j.cap 0 (lanes.map (·.1))) (8 * i + 3) (lanes.map fun l => if l.2 then 1 else 0) },
      (rs.map (·.2)).sum)
  else
    let codes := partCodes (t.reader j.vxA) j.vxA c.fmtIn j.ctrs ps
    let xs : List (BitVec 32) := codes.map fun x => match wideVal c.fmtIn x with
      | .fin d => (c.round d).1
      | .inf neg => if neg then 0xFF800000 else 0x7F800000
      | .nan => 0x7FC00000
    let nar := codes.map fun x => match wideVal c.fmtIn x with
      | .fin d => (c.round d).2
      | .inf _ | .nan => false
    let bad := (codes.filter fun x => match wideVal c.fmtIn x with | .fin _ => false | _ => true).length
    let maps := if c.strayS = 0 then [] else
      (ps.flatMap partGroups).flatMap fun g => t.reader j.vxAux (j.vxAux.row j.ctrs g.2) 8
    ({ j with cap := smapPut (smapPut (keep j.cap 0 xs) (8 * i + 4) maps) (8 * i + 5) (flags nar) }, bad)

/-- A captured source. -/
def Job.vxCap (j : Job) (i n : Nat) : List (BitVec 32) := capCodes ((smapFind j.cap (8 * i + n)).getD [])

/-- The lanes of a captured source that saturated in its narrowing: n is 0 for A, 1 for B, 2 for C. -/
def Job.vxNarrowed (j : Job) (i n : Nat) : List Bool := ((smapFind j.cap (8 * i + 5 + n)).getD []).map fun b => decide (b ≠ 0)

/-! ## Results -/

/-- The bytes of results of a lane type at consecutive elements of a row, by its dimension-0 stride. -/
def rowBytes (x : Rec) (ctrs : List (BitVec 24)) (w row lo : Nat) (cs : List Nat) : List (Int × Byte) :=
  (List.range cs.length).flatMap fun i =>
    addressed (x.row ctrs row + (lo + i : Nat) * x.st 0) (bytesOf w (cs.getD i 0))

/-- A lane type's code in its own width. -/
def VxCfg.laneCode (c : VxCfg) (y : BitVec 32) : Nat := if c.bf16 then y.toNat / 2 ^ 16 else y.toNat
/-- Bytes of a lane. -/
def VxCfg.laneBytes (c : VxCfg) : Nat := if c.bf16 then 2 else 4

/-- The bytes a list of lane results writes to DST_0 over a vector's parts. -/
def Job.laneWrites (j : Job) (i : Nat) (ys : List (BitVec 32)) : List (Int × Byte) :=
  let c := vxCfg j.words
  ((j.vxParts i).foldl (fun (acc : Nat × List (Int × Byte)) p =>
    let n := p.2.2 - p.2.1
    (acc.1 + n, acc.2 ++ rowBytes j.vxD0 j.ctrs c.laneBytes p.1 p.2.1
      (((ys.drop acc.1).take n).map c.laneCode))) (0, [])).2

/-- The lanes of a row that vector i captured. -/
def Job.rowLanes (j : Job) (i r : Nat) : List (BitVec 32) :=
  ((j.vxParts i).foldl (fun (acc : Nat × List (BitVec 32)) p =>
    let n := p.2.2 - p.2.1
    (acc.1 + n, if p.1 = r then ((j.vxCap i 0).drop acc.1).take n else acc.2)) (0, [])).2

/-- A lane of a row in vector i saturated in its narrowing. -/
def Job.rowNarrowed (j : Job) (i r : Nat) : Bool :=
  ((j.vxParts i).foldl (fun (acc : Nat × Bool) p =>
    let n := p.2.2 - p.2.1
    (acc.1 + n, acc.2 || (decide (p.1 = r) && (((j.vxNarrowed i 0).drop acc.1).take n).any id))) (0, false)).2

/-- The vectors that hold a row. -/
def Job.rowVectors (j : Job) (r : Nat) : List Nat :=
  let c := vxCfg j.words
  let last := lastVector c.lanes j.vxN r
  let n := if segsOf c.lanes j.vxN > 1 then 1 else ceilDiv j.vxN c.lanes
  (List.range n).map (· + (last + 1 - n))

/-- The reduction groups whose output vector is written at beat b (R171). -/
def Job.groupsAt (j : Job) (ltv : BitVec 2) (b : Nat) : List Nat :=
  let c := vxCfg j.words
  (List.range (ceilDiv j.vxRows 64)).filter fun g =>
    decide (j.go + 1 + lastVector c.lanes j.vxN (min j.vxRows (64 * g + 64) - 1) + c.lat ltv = b)

/-- A reduction's writes of an output vector. -/
def Job.reduceWrites (j : Job) (g : Nat) : List (Int × Byte) × RwCount :=
  let c := vxCfg j.words
  let rs := (List.range (min j.vxRows (64 * g + 64) - 64 * g)).map (· + 64 * g)
  let w := if c.op = 0x13 then 4 else c.laneBytes
  let outs := rs.map fun r => (r, c.reduceRow ((j.rowVectors r).map fun i => j.rowLanes i r))
  (outs.flatMap fun (r, y, _) =>
      let (row, e) := j.vxD0.nth r
      rowBytes j.vxD0 j.ctrs w row e [if c.op = 0x13 then y.toNat else c.laneCode y],
    { satElem := (outs.filter fun o => o.2.2 || (j.rowVectors o.1).any fun i => j.rowNarrowed i o.1).length })

/-- What a quantised vector writes: elements, side entries and stray records, and its saturated elements. -/
structure QuantOut where
  els   : List (Int × Byte) := []
  sides : List (Int × Byte) := []
  recs  : List (Int × Byte) := []
  sat   : Nat := 0
deriving DecidableEq, Repr, Inhabited

/-- What a quantised part writes; `o` is the place of its first lane, `m` that of its first stray map. An invalid slot below S writes a free value
(DESIGN CHOICE, assumption 31). -/
def Job.quantPart (j : Job) (i o m : Nat) (p : Nat × Nat × Nat) : QuantOut :=
  let c := vxCfg j.words
  let f := c.fmtOut
  let blk := fmtBlock f
  let xs := ((j.vxCap i 0).drop o).take (p.2.2 - p.2.1)
  let nar := ((j.vxNarrowed i 0).drop o).take (p.2.2 - p.2.1)
  let maps := (smapFind j.cap (8 * i + 4)).getD []
  let gs := if c.strayS = 0 then [] else (partGroups p).map (·.2)
  let slots (q : Nat) : List (Option Nat) :=
    if c.strayS = 0 then [] else mapSlots c.strayS (slice maps (8 * (m + (q - p.2.1 / 64))) 8)
  let isStray (e : Nat) : Bool := (slots (e / 64)).contains (some (e % 64))
  let blocks := (List.range ((p.2.2 - p.2.1) / blk)).map fun n =>
    (n, quantBlock f c.rule1 ((xs.drop (n * blk)).take blk) (fun l => isStray (p.2.1 + n * blk + l))
      fun l => nar.getD (n * blk + l) false)
  let d0 := j.vxD0
  let row := d0.row j.ctrs p.1
  let els : List (Int × Byte) := blocks.flatMap fun (n, codes, _, _) =>
    if fmtPacked f then addressed (row + ((elemPlace f (p.2.1 + n * blk)).1 : Nat)) (packCodes f codes)
    else rowBytes d0 j.ctrs 1 p.1 (p.2.1 + n * blk) codes
  let sides : List (Int × Byte) := blocks.flatMap fun (n, _, sd, _) =>
    addressed (j.vxD1.row j.ctrs p.1 + ((p.2.1 / blk + n) * fmtSide f : Nat)) sd
  let strays := gs.map fun q =>
    let vals : List (BitVec 32) := (slots q).map fun ch => match ch with
      | some h => if p.2.1 ≤ 64 * q + h && 64 * q + h < p.2.2 then xs.getD (64 * q + h - p.2.1) 0
          else (roundF32 (f32Dyad (Config.missingLane (BitVec.ofNat 32 h)))).1
      | none => (roundF32 (f32Dyad (Config.missingLane 0))).1
    let lane (l : Nat) : Bool := match (slots q).getD l none with
      | some h => decide (p.2.1 ≤ 64 * q + h) && nar.getD (64 * q + h - p.2.1) false
      | none => false
    (q, quantBlock c.strayFormat c.rule1 vals (fun _ => false) lane)
  let recs : List (Int × Byte) := strays.flatMap fun (q, codes, sd, _) =>
    addressed (j.strayRow j.vxD2 p.1 q) (codes.map (BitVec.ofNat 8) ++ sd.take 1)
  ⟨els, sides, recs, (blocks.map (·.2.2.2)).sum + (strays.map (·.2.2.2)).sum⟩

/-- The writes of a quantised vector, one list for each array, so that a line takes one access whatever rows share it (R169). -/
def Job.quantWrites (j : Job) (i : Nat) : List (Rec × List (Int × Byte)) × RwCount :=
  let r := ((j.vxParts i).foldl (fun (acc : Nat × Nat × QuantOut) p =>
    let w := j.quantPart i acc.1 acc.2.1 p
    let q := acc.2.2
    (acc.1 + (p.2.2 - p.2.1), acc.2.1 + (partGroups p).length,
      ⟨q.els ++ w.els, q.sides ++ w.sides, q.recs ++ w.recs, q.sat + w.sat⟩)) (0, 0, {})).2.2
  ((j.vxD0, r.els) :: (j.vxD1, r.sides) :: (if (vxCfg j.words).strayS = 0 then [] else [(j.vxD2, r.recs)]), { satElem := r.sat })

/-! ## TOPK (R178) -/

/-- Insert an element into a descending list: larger values first, equal values by ascending index. -/
def topInsert (x : Dyad × BitVec 32 × Nat) : List (Dyad × BitVec 32 × Nat) → List (Dyad × BitVec 32 × Nat)
  | [] => [x]
  | y :: ys =>
    if y.1.lt x.1 || (!x.1.lt y.1 && x.2.2 < y.2.2) then x :: y :: ys else y :: topInsert x ys

/-- The K outputs of a row: value code, index as written, and whether the index saturated. -/
def VxCfg.topRow (c : VxCfg) (vals idxs : List (BitVec 32)) : List (Nat × Nat × Bool) :=
  let items := (List.range vals.length).map fun e =>
    let v := vals.getD e 0
    (f32Dyad v, v, if c.indexIn then (idxs.getD e 0).toNat else (e + c.idxBase) % 2 ^ 32)
  let sorted := items.foldl (fun l x => topInsert x l) []
  (List.range c.k).map fun n => match sorted[n]? with
    | some (_, v, ix) => if !c.idx32 && ix > 65535 then (v.toNat, 0xFFFF, true) else (v.toNat, ix, false)
    | none => (0xFF7FFFFF, if c.idx32 then 0xFFFFFFFF else 0xFFFF, false)

/-- The writes of a TOPK vector. -/
def Job.topkWrites (j : Job) (i : Nat) : List (Rec × List (Int × Byte)) × RwCount :=
  let c := vxCfg j.words
  let as := j.vxCap i 0
  let bs := j.vxCap i 1
  let r := (j.vxParts i).foldl (fun (acc : Nat × List (Int × Byte) × List (Int × Byte) × Nat) p =>
    let n := p.2.2 - p.2.1
    let outs := c.topRow ((as.drop acc.1).take n) ((bs.drop acc.1).take n)
    (acc.1 + n, acc.2.1 ++ rowBytes j.vxD0 j.ctrs 4 p.1 0 (outs.map (·.1)),
      acc.2.2.1 ++ rowBytes j.vxD1 j.ctrs (if c.idx32 then 4 else 2) p.1 0 (outs.map (·.2.1)),
      acc.2.2.2 + (outs.filter (·.2.2)).length)) (0, [], [], 0)
  ([(j.vxD0, r.2.1), (j.vxD1, r.2.2.1)], { satElem := r.2.2.2 })

/-! ## A beat of a vector descriptor -/

/-- The vector read at beat b. -/
def Job.vxReadAt (j : Job) (b : Nat) : Option Nat :=
  if j.go < b && b - j.go - 1 < j.vxVectors then some (b - j.go - 1) else none

/-- The vector written at beat b where each is written L beats after its read. -/
def Job.vxWriteAt (j : Job) (ltv : BitVec 2) (b : Nat) : Option Nat :=
  let l := (vxCfg j.words).lat ltv
  if j.go + l < b && b - j.go - 1 - l < j.vxVectors then some (b - j.go - 1 - l) else none

/-- What a vector descriptor writes at beat b, by destination, and the counts of the elements written. -/
def Job.vxWrites (j : Job) (ltv : BitVec 2) (b : Nat) : List (Rec × List (Int × Byte)) × RwCount :=
  let c := vxCfg j.words
  if c.reduces then
    let gs := (j.groupsAt ltv b).map j.reduceWrites
    ([(j.vxD0, gs.flatMap (·.1))], { satElem := (gs.map fun g => g.2.satElem).sum })
  else
    match j.vxWriteAt ltv b with
    | none => ([], {})
    | some i =>
      if c.isTopk then j.topkWrites i
      else if c.isQuant && !c.dequant then j.quantWrites i
      else if c.isQuant then
        ([(j.vxD0, j.laneWrites i (j.vxCap i 0))],
          { satElem := (((smapFind j.cap (8 * i + 3)).getD []).filter (· ≠ 0)).length })
      else
        let (ys, n) := c.laneResults (j.vxCap i 0) (j.vxCap i 1) (j.vxCap i 2)
          (c.laneNarrowed (j.vxNarrowed i 0) (j.vxNarrowed i 1) (j.vxNarrowed i 2))
        ([(j.vxD0, j.laneWrites i ys)], n)

/-- The scheduled accesses of a vector descriptor at beat b. -/
def Job.vxAccesses (j : Job) (ltv : BitVec 2) (b : Nat) : List Access :=
  (match j.vxReadAt b with | some i => j.vxReads i | none => [])
    ++ (j.vxWrites ltv b).1.flatMap fun w => writeAccesses w.1.hash w.2

/-- A vector descriptor's beat b: `pre` is the tile as the beat's reads see it. -/
def Tile.vxBeat (t pre : Tile) (j : Job) (b : Nat) : Tile × Job :=
  let c := vxCfg j.words
  let t := t.rwAdd c.tag (j.vxWrites t.ltv b).2
  match j.vxReadAt b with
  | none => (t, j)
  | some i =>
    let (j, n) := j.vxCapture pre i
    (({ t with vecBeats := t.vecBeats + 1 } : Tile).rwAdd c.tag { nonfinite := n }, j)

/-! ## GO -/

/-- Start a vector descriptor. -/
def Tile.vxStart (t : Tile) (j : Job) : Tile := { t with vxJobs := t.vxJobs ++ [j] }

/-- A GO of the vector unit; `mine` picks the shadow configurations of one command. -/
def State.vxGo (s : State) (vx : Vx) (vy : Vy) (op : Nat) (mine : Shadow → Bool) : Out :=
  let k := tileKey vx vy
  s.issueGo k (fun _ sh => mine sh) op Tile.vxBusy (fun _ j => j.vxFault) (fun s j st => s.vxuFault k j.slot st) Tile.vxStart

/-- The shadow's OP is `op`; a GO with no VECOP loaded, or with a reserved OP, is every VECOP's (it can only fault). -/
def mineOp (op : Nat) (sh : Shadow) : Bool :=
  let o := (vxCfg sh.words).op
  sh.opcode ≠ 0x03 || o = op || !vecopValid o

/-- VECOP ADD (R170). -/
def execVecopAdd (vx : Vx) (vy : Vy) (s : State) : Out := s.vxGo vx vy 0x03 (mineOp 0x01)
/-- VECOP SUB (R170). -/
def execVecopSub (vx : Vx) (vy : Vy) (s : State) : Out := s.vxGo vx vy 0x03 (mineOp 0x02)
/-- VECOP MUL (R170). -/
def execVecopMul (vx : Vx) (vy : Vy) (s : State) : Out := s.vxGo vx vy 0x03 (mineOp 0x03)
/-- VECOP FMA (R170). -/
def execVecopFma (vx : Vx) (vy : Vy) (s : State) : Out := s.vxGo vx vy 0x03 (mineOp 0x04)
/-- VECOP MIN (R170). -/
def execVecopMin (vx : Vx) (vy : Vy) (s : State) : Out := s.vxGo vx vy 0x03 (mineOp 0x05)
/-- VECOP MAX (R170). -/
def execVecopMax (vx : Vx) (vy : Vy) (s : State) : Out := s.vxGo vx vy 0x03 (mineOp 0x06)
/-- VECOP ABS (R170). -/
def execVecopAbs (vx : Vx) (vy : Vy) (s : State) : Out := s.vxGo vx vy 0x03 (mineOp 0x07)
/-- VECOP NEG (R170). -/
def execVecopNeg (vx : Vx) (vy : Vy) (s : State) : Out := s.vxGo vx vy 0x03 (mineOp 0x08)
/-- VECOP CVT (R170). -/
def execVecopCvt (vx : Vx) (vy : Vy) (s : State) : Out := s.vxGo vx vy 0x03 (mineOp 0x09)
/-- VECOP PAIRROT (R170). -/
def execVecopPairrot (vx : Vx) (vy : Vy) (s : State) : Out := s.vxGo vx vy 0x03 (mineOp 0x0A)
/-- VECOP RSUM (R173). -/
def execVecopRsum (vx : Vx) (vy : Vy) (s : State) : Out := s.vxGo vx vy 0x03 (mineOp 0x10)
/-- VECOP RSSQ (R173). -/
def execVecopRssq (vx : Vx) (vy : Vy) (s : State) : Out := s.vxGo vx vy 0x03 (mineOp 0x11)
/-- VECOP RMAX (R170). -/
def execVecopRmax (vx : Vx) (vy : Vy) (s : State) : Out := s.vxGo vx vy 0x03 (mineOp 0x12)
/-- VECOP RARGMAX (R170). -/
def execVecopRargmax (vx : Vx) (vy : Vy) (s : State) : Out := s.vxGo vx vy 0x03 (mineOp 0x13)
/-- VECOP EXP2 (R174). -/
def execVecopExp2 (vx : Vx) (vy : Vy) (s : State) : Out := s.vxGo vx vy 0x03 (mineOp 0x20)
/-- VECOP LOG2 (R174). -/
def execVecopLog2 (vx : Vx) (vy : Vy) (s : State) : Out := s.vxGo vx vy 0x03 (mineOp 0x21)
/-- VECOP RCP (R174). -/
def execVecopRcp (vx : Vx) (vy : Vy) (s : State) : Out := s.vxGo vx vy 0x03 (mineOp 0x22)
/-- VECOP RSQRT (R174). -/
def execVecopRsqrt (vx : Vx) (vy : Vy) (s : State) : Out := s.vxGo vx vy 0x03 (mineOp 0x23)
/-- VECOP TANH (R174). -/
def execVecopTanh (vx : Vx) (vy : Vy) (s : State) : Out := s.vxGo vx vy 0x03 (mineOp 0x24)
/-- VECOP SIGMOID (R174). -/
def execVecopSigmoid (vx : Vx) (vy : Vy) (s : State) : Out := s.vxGo vx vy 0x03 (mineOp 0x25)

/-- QUANT with DIR = 0 (R176); a GO with no QUANT loaded is both directions' (it can only fault). -/
def execQuant (vx : Vx) (vy : Vy) (s : State) : Out :=
  s.vxGo vx vy 0x04 fun sh => sh.opcode ≠ 0x04 || !(vxCfg sh.words).dequant
/-- QUANT with DIR = 1 (R177). -/
def execQuantDequantise (vx : Vx) (vy : Vy) (s : State) : Out :=
  s.vxGo vx vy 0x04 fun sh => sh.opcode ≠ 0x04 || (vxCfg sh.words).dequant
/-- TOPK (R178). -/
def execTopk (vx : Vx) (vy : Vy) (s : State) : Out := s.vxGo vx vy 0x05 fun _ => true

end Sys2Proof.Machine
end

