-- ==== Sys2Proof/Machine/Beat.lean ====
section
/-!
DEFINITION. A tile's beat: what must hold before it completes, every access and fault of the beat, its effect, output tokens,
halting, and the arrival of late items (R42 to R49, R55, R115, R221, R229, R433, R503).
-/
namespace Sys2Proof.Machine

/-! ## Pace and stall accounting -/

/-- PACE_GATE_OPEN (R55): 1/P after the tile completed a beat. -/
def execPaceGateOpen (vx : Vx) (vy : Vy) (s : State) : Out :=
  let k := tileKey vx vy
  match s.pasOf vx with
  | none => nothing s
  | some p =>
    if s.inBeat k && !(s.tile k).gateOpen && decide (usT ≤ (s.now - (s.tile k).doneTime) * s.paceOf p) then
      .next (s.modTile k fun t => { t with gateOpen := true })
    else nothing s

/-! ## Completing a beat: the conditions (R43) -/

/-- The tile's conditions for completing its beat but for a descriptor that is still to issue in it. -/
def State.mayComplete (s : State) (k : Nat) : Bool :=
  s.inBeat k && (s.tile k).gateOpen && (s.tile k).holding.isEmpty && s.tokensHeld k

/-! ## The accesses of a beat -/

/-- The overlay copies of beat b: destination slot and source address (R220). -/
def Tile.overlayAt (t : Tile) (b : Nat) : List (Nat × Nat) :=
  t.overlays.filterMap fun o =>
    if o.go < b && b - o.go - 1 < o.count then some ((o.dstSlot + (b - o.go - 1)) % 256, o.src + 128 * (b - o.go - 1)) else none

/-- The events at the four ports. -/
def Tile.portEvents (t : Tile) (b : Nat) : List (Nat × PortEvent) := (List.range 4).map fun d => (d, t.portEvent d b)

/-- The scheduled accesses of a tile's beat b but for those that a GO still to issue makes early. -/
def Tile.jobAccesses (t : Tile) (b : Nat) : List Access :=
  (t.mxJobs.flatMap fun j => j.mxAccesses b)
    ++ (t.vxJobs.flatMap fun j => j.vxAccesses t.ltv b)
    ++ (t.mvJobs.flatMap fun j => j.mvAccesses b)
    ++ (t.stkJobs.flatMap fun j => j.stkAccesses b)
    ++ ((t.moveJobs.filterMap fun dj => dj.2.moveRead b).flatMap fun (r, a) => r.readLines (spanLines a (r.sz 0)))
    ++ ((t.portEvents b).flatMap fun de => de.2.accesses)
    ++ ((t.overlayAt b).flatMap fun o => [({ addr := (o.2 : Int) } : Access), { addr := (o.2 : Int) + 64 }])
    ++ ((t.landings.filter fun l => decide (l.due = b)).flatMap fun l => writeAccesses l.mode (addressed l.addr l.data))

/-- The store after the overlay writes of beat b, from the scratchpad as the beat's reads see it. -/
def Tile.overlaid (t pre : Tile) (b : Nat) : Tile :=
  (pre.overlayAt b).foldl (fun t o =>
    let bs := pre.bytes 0 (o.2 : Int) 128
    t.writeSlot o.1 ((List.range 16).map fun w => BitVec.ofNat 64 (leAt bs (8 * w) 8))) t

/-- The store in the two beats after b: the overlay writes of b, then those of b + 1, which read what b's accesses leave (R220). -/
def Tile.look (t : Tile) (b : Nat) : Ahead :=
  let t1 := t.overlaid t b
  { one := t1.store, two := (t1.overlaid (t.applyAccesses (t.jobAccesses b)) (b + 1)).store }

/-- The chunk reads of a beat: port, record, address; running MOVEs and the one that GO starts in the next beat. -/
def Tile.chunkReads (t : Tile) (b : Nat) : List (Nat × Rec × Int) :=
  (t.moveJobs.filterMap fun dj => (dj.2.moveRead b).map fun ra => (dj.1, ra.1, ra.2))
    ++ (match t.earlyChunk (t.look b) with | some (u, r, a) => [(u, r, a)] | none => [])

/-- Every scheduled access of a tile's beat b (R115). -/
def Tile.accesses (t : Tile) (b : Nat) : List Access :=
  t.jobAccesses b
    ++ ((t.earlyIndex (t.look b)).flatMap fun ja => match ja.1.stkIdx with | some x => x.readLines [ja.2] | none => [])
    ++ (match t.earlyChunk (t.look b) with | some (_, r, a) => r.readLines (spanLines a (r.sz 0)) | none => [])

/-! ## The faults of a beat -/

/-- A fault found at a beat, by the unit that records it. -/
inductive BeatFault where
  | spad (f : SpadFault)
  | mxu (st : Status) (slot mask : Nat)
  | seq (st : Status) (slot op : Nat)
  | dnw (st : Status) (port : Nat)
  | stk (st : Status) (stack : Nat) (addr : Int)
deriving DecidableEq, Repr

/-- The fault's status. -/
def BeatFault.status : BeatFault → Status
  | .spad f => f.status
  | .mxu st _ _ => st
  | .seq st _ _ => st
  | .dnw st _ => st
  | .stk st _ _ => st

/-- The unit records the fault in its error register (R431, R433). -/
def State.recordFault (s : State) (k p : Nat) : BeatFault → State
  | .spad f => s.spadFaulted k 0 f
  | .mxu st slot mask => s.modTile k fun t =>
      { t with mxErr := ⟨st, BitVec.ofNat 8 slot, BitVec.ofNat 8 mask, BitVec.ofNat 32 t.beat⟩ }
  | .seq st slot op => s.modTile k fun t =>
      { t with tsqErr := ⟨st, BitVec.ofNat 8 slot, BitVec.ofNat 8 op, BitVec.ofNat 32 t.beat⟩ }
  | .dnw st port => s.dnwRecord k port st
  | .stk st stack addr => s.stkRecord stack p addr st

/-- The data-network faults and counts of a beat: faults, orphans, empties. -/
def State.portFaults (s : State) (k p b : Nat) : List BeatFault × Nat × Nat :=
  let t := s.tile k
  let strict := (s.pasture p).strict
  let evs := t.portEvents b
  let fs := evs.flatMap fun (d, e) => match e with
    | .parity => [BeatFault.dnw St.DNW_LINK_PARITY d]
    | .orphan => if strict then [BeatFault.dnw St.DNW_ORPHAN d] else []
    | .empty => if strict then [BeatFault.dnw St.DNW_EMPTY d] else []
    | .size => [BeatFault.dnw St.DNW_CHUNK_SIZE d]
    | .config => [BeatFault.seq St.SEQ_CONFIG (match smapFind t.recvJobs d with | some j => j.slot | none => 0) 0x09]
    | .quiet => []
    | .latch _ _ => []
  let dry := t.moveJobs.filter fun dj => (t.moveOut dj.2 b).2
  let orphans := (evs.filter fun de => decide (de.2 = .orphan)).length
  let empties := (evs.filter fun de => decide (de.2 = .empty)).length + dry.length
  (fs ++ (if strict then dry.map fun dj => BeatFault.dnw St.DNW_EMPTY dj.1 else []), orphans, empties)

/-- The stack faults of a beat: landing lines, index range, the port's checks, and spacings that an earlier burst broke (R255). A burst with an
index out of range reports that alone (DESIGN CHOICE, assumption 136). -/
def State.stackFaults (s : State) (k p b : Nat) : List BeatFault :=
  let t := s.tile k
  let lands := (t.landings.filter fun l => decide (l.due = b) && !landingLine l.addr).map fun l =>
    BeatFault.seq St.SEQ_LANDING_ADDR l.slot 0x10
  let jobs := t.stkJobs.flatMap fun j =>
    match j.stkBurst b with
    | none => []
    | some i =>
      (if j.stkWrites && !landingLine (j.stkLine i) then [BeatFault.seq St.SEQ_LANDING_ADDR j.slot 0x11] else [])
        ++ (match j.stkAddr i with
          | none => if j.stkRec.oorFault then [BeatFault.seq St.SEQ_INDEX_RANGE j.slot j.opcode.toNat]
            else if inWatch b then [BeatFault.stk St.STACK_WATCH_CONFLICT (stkPort j.words) 0] else []
          | some a =>
            if (smapFind j.cap i).isSome then [] else
              match s.stkFault p (stkPort j.words) b a with
              | some st => [BeatFault.stk st (stkPort j.words) a]
              | none => [])
  let busy := (t.busyAt.filter fun x => decide (x.1 = b)).map fun x => BeatFault.stk St.STACK_BANK_BUSY x.2.1 x.2.2
  lands ++ jobs ++ busy

/-- Every fault of a tile's beat. -/
def State.beatFaults (s : State) (k p b : Nat) : List BeatFault :=
  let t := s.tile k
  let spad := match t.spadFault (s.pasture p).tallyMode (t.accesses b) with
    | some f => [BeatFault.spad f]
    | none => []
  let chunks := ((t.chunkReads b).filter fun (_, r, a) => !chunkFits a (r.sz 0)).map fun (u, _, _) =>
    BeatFault.seq St.SEQ_CONFIG (match smapFind t.moveJobs u with | some j => j.slot | none => t.ip.toNat) 0x08
  let idx := (t.mvJobs.filter fun j => j.mvIndexFault b).map fun j =>
    BeatFault.seq St.SEQ_INDEX_RANGE j.slot j.opcode.toNat
  let recs := t.readRecords.2.map fun (st, slot, op) => BeatFault.seq st slot op
  let mx := t.mxJobs.filterMap fun j => (j.mxCapture t b).stageFault b |>.map fun st =>
    BeatFault.mxu st j.slot (mxCfg j.words).mask
  spad ++ chunks ++ idx ++ recs ++ mx ++ (s.portFaults k p b).1 ++ s.stackFaults k p b

/-! ## The effect of a beat on the tile -/

/-- The overlay writes of beat b; copies that are made are over. -/
def Tile.applyOverlays (t pre : Tile) (b : Nat) : Tile :=
  let t := t.overlaid pre b
  { t with overlays := t.overlays.filter fun o => decide (b < o.go + o.count) }

/-- The early reads of beat b: counters latched, chunk 0 of a MOVE, index lines of a stack descriptor (R191, R193). -/
def Tile.applyEarly (t pre : Tile) (b : Nat) : Tile :=
  let look := pre.look b
  let t := match pre.earlyChunk look with
    | some (u, r, a) => { t with
        early := smapPut t.early u pre.ctrsPrev
        earlyData := smapPut t.earlyData u (pre.bytes r.hash a (r.sz 0)) }
    | none => t
  let t := match pre.earlyStk look 2 with
    | some j => { t with early := smapPut t.early (earlyKey 3 j.go) pre.ctrsPrev }
    | none => t
  (pre.earlyIndex look).foldl (fun t (ja : Job × Int) =>
    match ja.1.stkIdx with
    | some x => { t with
        earlyData := smapPut t.earlyData (stkLineKey ja.1.go (ja.2 / 64)) (pre.bytes x.hash (ja.2 / 64 * 64) 64) }
    | none => t) t

/-- The matrix unit's beat. -/
def Tile.mxUnit (t pre : Tile) (b : Nat) : Tile :=
  let r := pre.mxJobs.foldl (fun (acc : Tile × List Job) j =>
    let (t, j, _) := acc.1.mxBeat pre j b
    (t, acc.2 ++ [j])) (t, [])
  { r.1 with mxJobs := r.2.filter fun j => decide (b < (mxCfg j.words).lastBeat j.go) }

/-- The vector unit's beat. -/
def Tile.vxUnit (t pre : Tile) (b : Nat) : Tile :=
  let r := pre.vxJobs.foldl (fun (acc : Tile × List Job) j =>
    let (t, j) := acc.1.vxBeat pre j b
    (t, acc.2 ++ [j])) (t, [])
  { r.1 with vxJobs := r.2.filter fun j => decide (b < j.vxLast pre.ltv) }

/-- The mover's beat. -/
def Tile.mvUnit (t pre : Tile) (b : Nat) : Tile :=
  let rs := pre.mvJobs.map fun j => j.mvBeat pre b
  { t with
    mvJobs := (rs.map (·.1)).filter fun j => decide (b < j.mvLast)
    indOor := satAdd t.indOor (rs.filter (·.2)).length }

/-- The data network's beat: chunks read and latched, counts, jobs at their last chunk. -/
def Tile.dnUnit (t pre : Tile) (b : Nat) : Tile :=
  let moves : SMap Job := smapMap (fun _ j =>
    match j.moveRead b with
    | some (r, a) => { j with cap := smapPut j.cap ((b + 1) - j.go) (pre.bytes r.hash a (r.sz 0)) }
    | none => j) pre.moveJobs
  let latched := (pre.portEvents b).foldl (fun (m : SMap (Nat × List Byte)) de =>
    match de.2 with
    | .latch bs _ => smapPut m de.1 (b, bs)
    | .empty => smapPut m de.1 (b, [])
    | .quiet | .parity | .orphan | .size | .config => m) t.latched
  { t with
    moveJobs := moves.filter fun dj => decide (b < dj.2.mrLast)
    recvJobs := pre.recvJobs.filter fun dj => decide (b < dj.2.mrLast)
    latched := latched
    inbox := t.inbox.filter fun kc => decide (4 * b + 4 ≤ kc.1) }

/-- The stack unit's beat on the tile: index captures, landings made, jobs at their last command. -/
def Tile.stkUnit (t pre : Tile) (b : Nat) : Tile :=
  { t with
    stkJobs := (pre.stkJobs.map fun j => j.stkCapture pre b).filter fun j => decide (b + 1 < j.go + stkLen j.words)
    landings := t.landings.filter fun l => decide (l.due ≠ b) }

/-- A tile's whole beat b without faults, but for what leaves the tile. -/
def Tile.beatEffect (pre : Tile) (mode : BitVec 2) (b : Nat) : Tile :=
  let accs := pre.accesses b
  let t := pre.applyAccesses accs
  let misses := if mode = 1 then (accs.filter pre.misses).length else 0
  let t := { t with tallyMiss := satAdd t.tallyMiss misses }
  let t := t.readRecords.1
  let t := t.mxUnit pre b
  let t := t.vxUnit pre b
  let t := t.mvUnit pre b
  let t := t.dnUnit pre b
  let t := t.stkUnit pre b
  (t.applyEarly pre b).applyOverlays pre b

/-- Whether the tile's units have nothing in progress (R221). -/
def Tile.unitsDone (t : Tile) : Bool :=
  t.mxJobs.isEmpty && t.vxJobs.isEmpty && t.mvJobs.isEmpty && t.moveJobs.isEmpty && t.recvJobs.isEmpty
    && t.stkJobs.isEmpty && t.landings.isEmpty && t.overlays.isEmpty

/-! ## The start of a run -/

/-- A tile at the first beat of a run: it starts at TSQ_ENTRY of the entry point, with its per-run state cleared
(R191, R192, R213, R391). -/
def Tile.startRun (t : Tile) (entry first : Nat) : Tile :=
  { t with ip := smapGet 0 t.entry entry, rho := first, prevIssue := none, first := first, running := true, halting := false, starts := none,
           cond := [false, false, false, false], ctrs := List.replicate 8 0, ctrsPrev := List.replicate 8 0, loops := [],
           indOor := 0, orphan := 0, empty := 0, tallyMiss := 0, rw := [], shadows := [], early := [], earlyData := [], overlays := [] }

/-- Change the first run of a pasture. -/
def Pasture.modFirst (x : Pasture) (f : Run → Run) : Pasture :=
  match x.runs with
  | [] => x
  | r :: rest => { x with runs := f r :: rest }

/-! ## What leaves the tile -/

/-- The stack commands of beat b, but for those made already (a command whose data is due in its own beat). -/
def State.stackCommands (s : State) (k p b : Nat) (pre : Tile) : State :=
  pre.stkJobs.foldl (fun s j =>
    match j.stkBurst b with
    | some i => if (smapFind j.cap i).isSome then s
        else s.stkCommand k p j i b (pre.bytes j.spdRec.hash (j.stkLine i) 64)
    | none => s) s

/-- The output tokens of beat b with chunks, and CHUNKS_OUT. -/
def State.sendTokens (s : State) (k b : Nat) (pre : Tile) : State :=
  pre.moveJobs.foldl (fun s (dj : Nat × Job) =>
    match (pre.moveOut dj.2 b).1 with
    | some bs => (s.modTile k fun t => { t with chunksOut := t.chunksOut + 1 }).sendToken k (Dir.ofNum dj.1) b bs
    | none => s) s

/-- Range-watch counts added, each saturating (R107). -/
def rwMerge (m rw : SMap RwCount) : SMap RwCount :=
  let add (a b : Nat) : Nat := min (2 ^ 32 - 1) (a + b)
  rw.foldl (fun m kv =>
    let o : RwCount := smapGet {} m kv.1
    smapPut m kv.1 ⟨add o.nonfinite kv.2.nonfinite, add o.accSat kv.2.accSat, add o.scaleOut kv.2.scaleOut, add o.satElem kv.2.satElem⟩) m

/-- Tile k has begun the run that its pasture's log has still to begin. -/
def State.runsAhead (s : State) (k p : Nat) : Bool := match (s.pasture p).runs with
  | [] => false
  | r :: _ => decide (r.stage = .running) && !s.started p r && (s.tile k).starts.isNone

/-- Add a tile's range-watch counts to its pasture's table (R107); those of a run that the log has still to begin wait for it. -/
def State.rwFlush (s : State) (k p : Nat) : State :=
  let rw := (s.tile k).rw
  (if s.runsAhead k p then s.modPas p fun x => { x with rwAhead := rwMerge x.rwAhead rw }
   else s.modPas p fun x => { x with rwt := rwMerge x.rwt rw }).modTile k fun t => { t with rw := [] }

/-- A tile whose HALT has issued and whose units are done has halted (R221, R295). -/
def State.haltTile (s : State) (k p b : Nat) : State :=
  let t := s.tile k
  if t.halting && t.unitsDone then
    let s := s.modTile k fun t => { t with halting := false, running := false }
    let s := s.rwFlush k p
    s.send (.halt p k b)
  else s

/-- The time at which the last neighbour's token that the beat waited for was sent. -/
def State.tokenTime (s : State) (k : Nat) : Nat :=
  let b := (s.tile k).beat
  (allDirs.filterMap fun d => match s.neighbour k d with
    | none => none
    | some (nk, seam) =>
      let n := s.tile nk
      if (if seam then n.beat + 1 else n.beat) = b then some n.doneTime else none).foldl max 0

/-- The hold of tile k's beat, which ended at time `ended`, stopped a neighbour: that waits for this beat's token alone, with its own
gate open before the hold's end (R44, R73; assumption 19). -/
def State.stopsNeighbour (s : State) (k p ended : Nat) : Bool :=
  let b := (s.tile k).beat
  allDirs.any fun d => match s.neighbour k d with
    | none => false
    | some (nk, seam) =>
      let n := s.tile nk
      decide (b + (if seam then 2 else 1) ≤ n.beat) && n.holding.isEmpty && decide (n.doneTime + s.gatePeriod p < ended)

/-- The first run of pasture p begins when the log is at its first beat (R107, R391): the range-watch table is cleared of the runs
before, and the debug unlock in force is noted. -/
def State.beginRun (s : State) (p : Nat) : State :=
  s.modPas p fun x => match x.runs with
    | [] => x
    | r :: _ =>
      if s.started p r && decide (r.first = s.logOf p) then
        { x.modFirst fun r => { r with debugSeen := decide (s.sec.scope = 2) } with rwt := x.rwAhead, rwAhead := [] }
      else x

/-- A tile begins the run that was started, at its first beat (R391). -/
def Tile.beginAt (t : Tile) : Tile :=
  match t.starts with
  | some (entry, first) => if first = t.beat then t.startRun entry first else t
  | none => t

/-- RATE at the bellwether: beats per µs over the last 10 µs without stalled time (R73). -/
def Pasture.measure (x : Pasture) (now b stall : Nat) : Pasture :=
  let x := { x with stallPs := x.stallPs + stall, rateStall := x.rateStall + stall }
  let el := now - x.rateTime
  if el < 10 * usT then x
  else { x with
    rate := BitVec.ofNat 12 (min 4095 ((b - x.rateLog) * usT / max 1 (el - x.rateStall)))
    rateTime := now, rateLog := b, rateStall := 0 }

/-- The pasture's account of a beat completed by tile k. -/
def State.beatAccount (s : State) (k p b : Nat) (held : Bool) : State :=
  let t := s.tile k
  let until_ := max (t.holdEnd.getD 0) (s.tokenTime k)
  let open_ := t.doneTime + s.gatePeriod p
  let stops := held && s.stopsNeighbour k p (t.holdEnd.getD 0)
  let bell := decide (k = s.bellwether p)
  (s.modPas p fun x =>
    let x := { x with
      lastBeatTime := s.now, waitTime := 0, waitSince := x.waitSince.map fun _ => s.now
      stallEvents := if stops then satInc x.stallEvents else x.stallEvents }
    if bell then ({ x with log := x.log + 1 }).measure s.now (b + 1) (until_ - open_) else x)

/-- Complete beat b of tile k in pasture p: its effect, then beat b + 1 with the gate closed. -/
def State.completeBeat (s : State) (k p b : Nat) : State :=
  let pre := s.tile k
  let mode := (s.pasture p).tallyMode
  let (_, orphans, empties) := s.portFaults k p b
  let s := s.beatAccount k p b pre.holdEnd.isSome
  let s := s.putTile k (pre.beatEffect mode b)
  let s := s.modTile k fun t =>
    { t with orphan := satAdd t.orphan orphans, empty := satAdd t.empty empties }
  let s := s.stackCommands k p b pre
  let s := s.sendTokens k b pre
  let s := s.haltTile k p b
  let s := s.modTile k fun t =>
    ({ t with beat := b + 1, gateOpen := false, doneTime := s.now, ctrsPrev := t.ctrs, holdEnd := none }).beginAt
  let s := s.countCorrected k (pre.corrections (pre.accesses b))
  let s := if k = s.bellwether p then s.beginRun p else s
  s.noteHolds p

/-- The faults of beat b stop the pasture: every unit records its own, and which of them reaches the bellwether first is
free (R433). Nothing else of the beat takes effect but its orphan and empty counts (assumption 32). -/
def State.faultBeat (s : State) (k p b : Nat) (fs : List BeatFault) : State :=
  let (_, orphans, empties) := s.portFaults k p b
  let s := s.modTile k fun t => { t with orphan := satAdd t.orphan orphans, empty := satAdd t.empty empties }
  let s := fs.foldl (fun s f => s.recordFault k p f) s
  let (n, s) := s.draw
  match fs[n % fs.length]? with
  | some f => s.stopTile k f.status
  | none => s

/-- A stack read whose data is due in its command's own beat: the command goes out and the beat then waits for the data. -/
def Tile.selfDue (t : Tile) : Option (Job × Nat) :=
  (t.stkJobs.filterMap fun j => match j.stkBurst t.beat with
    | some i => if !j.stkWrites && stkLatOf j.words = 0 && (smapFind j.cap i).isNone then some (j, i) else none
    | none => none).head?

/-- A run that reaches its declared beats in a tile that has not halted stops its pasture (R316). -/
def State.checkLength (s : State) (k p : Nat) : State :=
  match (s.pasture p).runs.find? fun r => decide (r.stage = .running) with
  | some r =>
    if (s.tile k).running && decide (r.first + r.entry.declBeats ≤ (s.tile k).beat) then s.stopPasture p St.HOST_BEATS_EXCEEDED
    else s
  | none => s

/-- A tile's beat whose conditions hold and whose descriptor, if one is due, has issued. -/
def State.runBeat (s : State) (k p : Nat) : State :=
  let t := s.tile k
  match s.beatFaults k p t.beat with
  | f :: fs => s.faultBeat k p t.beat (f :: fs)
  | [] =>
    match t.selfDue with
    | some (j, i) =>
      let s := s.modTile k fun t => { t with stkJobs := t.stkJobs.map fun o =>
        if o.go = j.go then { o with cap := smapPut o.cap i [] } else o }
      (s.stkCommand k p j i t.beat []).noteHolds p
    | none => (s.completeBeat k p t.beat).checkLength k p

/-- Try to complete a tile's beat. A descriptor that is due and whose opcode no command issues faults here. -/
def State.tryBeat (s : State) (k : Nat) : Out :=
  match s.pasOf (keyVx k) with
  | none => nothing s
  | some p =>
    let t := s.tile k
    let ws := t.slotWords t.ip.toNat
    if !s.mayComplete k then nothing s
    else s.whileLive k fun s =>
      if s.issueDue k then
        (if opValid (opOf ws) then nothing s
         else match s.issueFault k ws with
          | some st => .next (s.seqFault k st t.ip.toNat (opOf ws))
          | none => nothing s)
      else .next (s.runBeat k p)

/-- BEAT_COMPLETE (R43). -/
def execBeatComplete (vx : Vx) (vy : Vy) (s : State) : Out := s.tryBeat (tileKey vx vy)

/-- ITEM_ARRIVAL (R46): the late data of a tile's held beat has come, and the tile completes the beat. -/
def execItemArrival (vx : Vx) (vy : Vy) (s : State) : Out :=
  let k := tileKey vx vy
  let t := s.tile k
  if s.live k && t.landings.any (fun l => decide (l.due = t.beat) && decide (l.arrival = .late)) then
    let s := s.modTile k fun t => { t with
      landings := t.landings.map fun l => if l.due = t.beat && l.arrival = .late then { l with arrival := .ready } else l
      holdEnd := some s.now }
    (s.noteHoldsAt k).tryBeat k
  else nothing s

/-- Deliver a landing that waits for its reread. -/
def deliver (l : Landing) : List Landing → List Landing
  | [] => []
  | o :: os => if o = l then { l with arrival := .ready } :: os else o :: deliver l os

/-- The reread of a landing can complete at beat b: with good data at once, else at the beat the data was due (R260). -/
def Landing.rereadEnds (l : Landing) (b : Nat) : Bool :=
  match l.arrival with
  | .reread false _ => true
  | .reread true _ => decide (l.due = b)
  | .ready | .late => false

/-- STACK_REREAD (R260): the first reread of a tile's failed bursts that can complete does: delivered, with CE_COUNT where it was
corrected, or at the beat the data was due the pasture stops. In a pasture that has stopped a reread that succeeds is counted and its data
discarded, and one that fails is recorded (R433). -/
def execStackReread (vx : Vx) (vy : Vy) (s : State) : Out :=
  let k := tileKey vx vy
  let t := s.tile k
  match t.landings.find? (·.rereadEnds t.beat), s.pasOf vx with
  | some l, some p =>
    if !s.live k then
      match l.arrival, (s.pasture p).stopped with
      | .reread false c, true =>
        .next ((if c then s.stkCorrected l.stack else s).modTile k fun t => { t with landings := t.landings.erase l })
      | .reread true _, true =>
        .next ((s.stkRecord l.stack p l.saddr St.STACK_ECC_UNCORR).modTile k fun t => { t with landings := t.landings.erase l })
      | _, _ => nothing s
    else
      match l.arrival with
      | .reread true _ => .next ((s.stkRecord l.stack p l.saddr St.STACK_ECC_UNCORR).stopTile k St.STACK_ECC_UNCORR)
      | .reread false c =>
        let s := if c then s.stkCorrected l.stack else s
        .next ((s.modTile k fun t => { t with
          landings := deliver l t.landings
          holdEnd := if l.due = t.beat then some s.now else t.holdEnd }).noteHoldsAt k)
      | .ready | .late => nothing s
  | _, _ => nothing s

/-- STALL_WATCHDOG (R49): no tile of a running pasture has completed a beat for STALL_LIMIT µs, time held by WAITs alone left
out. -/
def execStallWatchdog (p : PasId) (s : State) : Out :=
  let x := s.pasture p
  let waits := x.waitTime + (match x.waitSince with | some t0 => s.now - t0 | none => 0)
  if x.beating && !x.stopped && decide (x.stallLimit.toNat * usT + waits ≤ s.now - x.lastBeatTime) then
    .next (s.stopPasture p St.SEQ_STALL_TIMEOUT)
  else nothing s

end Sys2Proof.Machine
end

