-- ==== Sys2Proof/Machine/Chart.lean ====
section
/-!
DEFINITION. The package chart and the grade chart as byte images (R239 to R243).
-/
namespace Sys2Proof.Machine

/-- The grade chart of a package (R239): 0 for LTF-64X's 64 × 40, 1 for LTF-64's, 2 for the 56 × 40 chart. -/
def State.gradeChart (s : State) : Nat :=
  if s.gridW = 56 then 2
  else match s.facts.grade with
    | .ltf64x => 0
    | .ltf64 | .ltf56 => 1

/-- A link port has latencies in a chart: a port that LTF-56 lacks has none in the 56 × 40 grade chart, nor in its own. -/
def State.chartPort (s : State) (graded : Bool) (n : Nat) : Bool :=
  if graded then s.gradeChart ≠ 2 || Grade.hasPort .ltf56 n else s.facts.grade.hasPort n

/-- STK_LAT of a chart. A grade chart's entry is at least the package's (R239). -/
def State.chartStk (s : State) (graded : Bool) (st vx vy : Nat) : Nat :=
  let own := (Config.stkLat st vx vy).toNat
  if graded then max own (Config.gradeStkLat s.gradeChart st vx vy).toNat else own

/-- LNK_LAT of a chart; 0xFFFF where the port is absent (R240). -/
def State.chartLnk (s : State) (graded : Bool) (n vx vy : Nat) : Nat :=
  let own := (Config.lnkLat n vx vy).toNat
  if !s.chartPort graded n then 0xFFFF
  else if graded then max own (Config.gradeLnkLat s.gradeChart n vx vy).toNat else own

/-- HIF_LAT of a chart. -/
def State.chartHif (s : State) (graded : Bool) (vx vy : Nat) : Nat :=
  let own := (Config.hifLat vx vy).toNat
  if graded then max own (Config.gradeHifLat s.gradeChart vx vy).toNat else own

/-- The edge tiles in the order of the edge table (R242). -/
def State.chartEdges (s : State) : List (Nat × Nat) :=
  let w := s.gridW
  let mid := (List.range 38).map (· + 1)
  (List.range w).map (·, 0) ++ (List.range w).map (·, 39) ++ mid.map (0, ·) ++ mid.map (w - 1, ·)

/-- An entry of the map table (R241). -/
def State.mapEntry (s : State) (graded : Bool) (vx : Nat) : List Byte :=
  let w := s.gridW
  let reach := if vx + 1 < w then smapGet (vx + 1) s.boot.colMap (vx + 1) - smapGet vx s.boot.colMap vx else 0
  [if graded then 0xFF else BitVec.ofNat 8 (smapGet vx s.boot.colMap vx), if vx < w / 2 then 0 else 1,
   if graded then 0xFF else BitVec.ofNat 8 reach, if vx + 1 = w / 2 then 1 else 0]

/-- An entry of the edge table (R242). -/
def State.edgeEntry (s : State) (graded : Bool) (e : Nat × Nat) : List Byte :=
  [BitVec.ofNat 8 e.1, BitVec.ofNat 8 e.2]
    ++ (List.range 8).flatMap (fun st => bytesOf 2 (s.chartStk graded st e.1 e.2))
    ++ (List.range 20).flatMap (fun n => bytesOf 2 (s.chartLnk graded n e.1 e.2))
    ++ bytesOf 2 (s.chartHif graded e.1 e.2)

/-- A latency and the rows of a chain from the edge tile; an absent port stays absent (R243). -/
def chainDist (lat h : Nat) : Nat := if h = 0 || lat = 0xFFFF then lat else min 0xFFFF (lat + 2 * h + 1)

/-- An entry of the distance table (R243). -/
def State.distEntry (s : State) (graded : Bool) (vx vy : Nat) : List Byte :=
  (List.range 8).flatMap (fun st =>
    let row := if st < 4 then 0 else 39
    bytesOf 2 (chainDist (s.chartStk graded st vx row) (if st < 4 then vy else 39 - vy)))
  ++ (List.range 20).flatMap (fun n =>
    bytesOf 2 (min (chainDist (s.chartLnk graded n vx 0) vy) (chainDist (s.chartLnk graded n vx 39) (39 - vy))))

/-- A chart's tables; the spec gives their offsets no values, and the model packs them behind the header (assumption 62). -/
def State.chartBody (s : State) (graded : Bool) : List Byte :=
  (List.range s.gridW).flatMap (s.mapEntry graded)
    ++ s.chartEdges.flatMap (s.edgeEntry graded)
    ++ (List.range 40).flatMap (fun vy => (List.range s.gridW).flatMap fun vx => s.distEntry graded vx vy)

/-- DIGEST of a chart (R240). -/
def State.chartDigest (s : State) (graded : Bool) : Digest := sm3 (s.chartBody graded)

/-- A chart's image (R240). -/
def State.chartImage (s : State) (graded : Bool) : List Byte :=
  let w := s.gridW
  let edge := 0x40 + 4 * w
  let dist := edge + 60 * (2 * w + 76)
  bytesOf 4 0x00010000 ++ [BitVec.ofNat 8 w, 40, if graded then 1 else 0, 0]
    ++ bytesOf 4 0x40 ++ bytesOf 4 edge ++ bytesOf 4 dist ++ bytesOf 4 (dist + 56 * 40 * w) ++ bytesOf 2 1800
    ++ List.replicate 6 0 ++ digestBytes (s.chartDigest graded) ++ s.chartBody graded

end Sys2Proof.Machine
end

