-- ==== Sys2Proof/Machine/SidePorts.lean ====
section
/-!
DEFINITION. The side ports of the scratchpad, their views and their waits, and the scrubber (R118 to R122, R124, R125, R503).
-/
namespace Sys2Proof.Machine

/-! ## Views (R121) -/

/-- The tile byte address of a service-view offset (R121). -/
def serviceAddr (o : Nat) : Nat := o / 64 * 2048 + o % 64

/-- The tile byte address of a landing-view offset (R121). -/
def landingAddr (o : Nat) : Nat := o / 256 * 2048 + 0x700 + o % 256

/-- The two views of R121. -/
inductive View where
  | service | landing
deriving DecidableEq, Repr

/-- The size of a view in bytes. -/
def View.size : View → Nat
  | .service => 2 ^ 16
  | .landing => 2 ^ 18

/-- The tile byte address of a view's offset. -/
def View.addr : View → Nat → Nat
  | .service => serviceAddr
  | .landing => landingAddr

/-- The side port of a view in SPD_ERR_ADDR: service 1, ring 2. -/
def View.port : View → Nat
  | .service => 1
  | .landing => 2

/-- The bank whose second port makes an access: 0 for the service port, 28 to 31 for the ring ports (R118). -/
def sideBank (addr : Nat) : Nat := bankOf addr 0 0

/-- The pieces of a range of a view that lie within one line each: offset, and length. -/
def linePieces (fuel o n : Nat) : List (Nat × Nat) :=
  match fuel with
  | 0 => []
  | f + 1 => if n = 0 then [] else
    let m := min n (64 - o % 64)
    (o, m) :: linePieces f (o + m) (n - m)

/-! ## The beat a side access falls in (R119, R120, R503) -/

/-- The fault of the main port in the beat in progress; none in a stall, whose beat periods are the side ports' own (R120). -/
def State.mainFault (s : State) (k : Nat) : Option SpadFault :=
  let t := s.tile k
  match s.pasOf (keyVx k) with
  | none => none
  | some p =>
    if s.live k && t.holding.isEmpty && s.tokensHeld k then t.spadFault (s.pasture p).tallyMode (t.accesses t.beat) else none

/-- A fault found before any access of its beat takes effect (R503). -/
def SpadFault.barsBeat (f : SpadFault) : Bool :=
  decide (f.status = St.SPD_ADDR_RANGE) || decide (f.status = St.SPD_BANK_COLLISION) || decide (f.status = St.SPD_WRITE_PROTECT)

/-- A side access waits in the beat in progress: a scheduled access names the line (R119), the beat is to fault before any of its
accesses takes effect (R503), or a descriptor is still to issue in it, whose accesses are not known yet. In a stall there is no such
beat (R120). -/
def State.lineBusy (s : State) (k addr : Nat) : Bool :=
  let t := s.tile k
  s.live k && t.holding.isEmpty && s.tokensHeld k
    && (s.issueDue k || ((t.accesses t.beat).any fun a => !a.outside && decide (a.phys t.salt.toNat = physLine addr 0 t.salt.toNat))
      || (s.mainFault k).any SpadFault.barsBeat)

/-- The bank's side port has made its one access of the beat in progress, or of the present beat period of a stall (R119, R120), or the
scrubber has visited the bank in it (R125). -/
def State.portUsed (s : State) (k addr : Nat) : Bool :=
  match smapFind (s.tile k).sideUse (sideBank addr) with
  | some (b, at_) => decide (b = (s.tile k).beat) && decide (s.now < at_ + s.beatPeriod k)
  | none => false

/-- Who makes a side access: the service engine, the host interface, a transfer of a send, a packet, or the result of a fold. -/
inductive Waiter where
  | engine | host
  | send (xfer : BitVec 32)
  | packet (rank : BitVec 12) (xfer offset : BitVec 32)
  | fold (f : Nat)
deriving DecidableEq, Repr

/-- The number of a waiter. -/
def Waiter.num : Waiter → Nat
  | .engine => 0
  | .host => 1
  | .send x => 4 * x.toNat + 2
  | .packet r x o => 4 * ((r.toNat * 2 ^ 32 + x.toNat) * 2 ^ 32 + o.toNat) + 3
  | .fold f => 4 * (f + 1)

/-- The key of a waiter's wait for a line. -/
def waitKey (w : Waiter) (addr : Nat) : Nat := w.num * 2 ^ 15 + addr / 64

/-- A side access to a line begins or goes on to wait for it. -/
def Tile.noteWait (t : Tile) (w : Waiter) (addr : Nat) : Tile :=
  { t with svcWait := smapPut t.svcWait (waitKey w addr) (smapGet t.beat t.svcWait (waitKey w addr)) }

/-- The accesses of a waiter to a tile are abandoned. -/
def State.dropWaits (s : State) (k : Nat) (w : Waiter) : State :=
  s.modTile k fun t => { t with svcWait := smapKeep (fun key => decide (key / 2 ^ 15 ≠ w.num)) t.svcWait }

/-- A side access gets its line: the longest wait is kept (R134). -/
def Tile.endWait (t : Tile) (who : Waiter) (addr : Nat) : Tile :=
  let w := t.beat - smapGet t.beat t.svcWait (waitKey who addr)
  { t with svcWait := smapDrop t.svcWait (waitKey who addr)
           svcWaitMax := if t.svcWaitMax.toNat < w then BitVec.ofNat 16 (min 65535 w) else t.svcWaitMax }

/-- The bank's side port makes an access now, to a line it may have waited for. -/
def State.usePort (s : State) (k addr : Nat) (who : Waiter) : State :=
  s.modTile k fun t => { t.endWait who addr with sideUse := smapPut t.sideUse (sideBank addr) (t.beat, s.now) }

/-! ## Accesses (R119 to R122, R124, R128) -/

/-- What a side access answers: the bytes, a refusal, or a double-bit error that stops the pasture (R122, R124, R128). -/
inductive SideResult where
  | ok (data : List Byte)
  | refused (st : Status)
deriving DecidableEq, Repr

/-- A side port or the scrubber meets a double-bit error: the pasture stops, with the main port's error of that beat before it (R124,
R503). -/
def State.sideUncorr (s : State) (k port : Nat) (f : SpadFault) : State :=
  match s.mainFault k with
  | some g =>
    if g.status = St.SPD_TALLY_MISS then (s.spadFaulted k port f).stopTile k f.status
    else (s.spadFaulted k 0 g).stopTile k g.status
  | none => (s.spadFaulted k port f).stopTile k f.status

/-- A side-port access to at most one line of a tile: read `n` bytes, or write bytes; atomic against scheduled accesses
(R119). `port` is 1 service or 2 ring. -/
def State.sideAccess (s : State) (k port addr n : Nat) (write : Option (List Byte)) (who : Waiter) : State × SideResult :=
  let s := s.usePort k addr who
  let t := s.tile k
  let data : List (Nat × Byte) := match write with
    | none => []
    | some bs => (List.range bs.length).map fun i => (addr % 64 + i, bs.getD i 0)
  let a : Access := { addr := addr, mode := 0, write := write.isSome, data := data }
  let ph := a.phys t.salt.toNat
  let ws := checkedWords a.write data
  let bank := a.bank t.salt.toNat
  if a.write && t.protectedLine a.line then
    (s.modTile k fun t => t.spadRecord ⟨St.SPD_WRITE_PROTECT, bank, addr⟩ port, .refused St.SPD_WRITE_PROTECT)
  else if t.doubleError ph ws then
    (s.sideUncorr k port ⟨St.SPD_ECC_UNCORR, bank, addr⟩, .refused St.SPD_ECC_UNCORR)
  else
    let s := s.countCorrected k (t.singleErrors ph ws)
    if a.write then (s.modTile k fun t => t.writeLine 0 addr data, .ok [])
    else (s, .ok (t.bytes 0 addr n))

/-- A range that reaches an offset beyond its view, or a landing range of a tile that is no edge tile (R122). -/
def State.outOfView (s : State) (k : Nat) (v : View) (o : Nat) : Bool :=
  decide (v.size ≤ o) || (decide (v = .landing) && !s.isEdge (keyVx k) (keyVy k))

/-- The refusal of a side access before it reaches the scratchpad: beyond the view, or a landing access to a tile that is no edge tile
(R122), or any to a quarantined tile (R120; its status is the model's, assumption 29). -/
def State.sideRefusal (s : State) (k : Nat) (v : View) (o : Nat) : Option Status :=
  if s.outOfView k v o then some St.SPD_PORT_RANGE
  else if (s.tile k).quarantined then some St.CNW_READER_RESET
  else none

/-- One side access in a view; one refused so changes nothing (R122): SPD_ERR_ADDR too keeps its value (assumption 29). -/
def State.viewAccess (s : State) (k : Nat) (v : View) (o n : Nat) (write : Option (List Byte)) (who : Waiter := .host) :
    State × SideResult :=
  match s.sideRefusal k v o with
  | some st => (s, .refused st)
  | none => s.sideAccess k v.port (v.addr o) n write who

/-- Read a range of a view line by line; the first refusal ends it (R119). -/
def State.sideRead (s : State) (k : Nat) (v : View) (o n : Nat) (who : Waiter := .host) : State × SideResult :=
  (linePieces (n + 1) o n).foldl (fun acc pc =>
    match acc.2 with
    | .refused _ => acc
    | .ok got =>
      match acc.1.viewAccess k v pc.1 pc.2 none who with
      | (s, .ok bs) => (s, .ok (got ++ bs))
      | (s, .refused st) => (s, .refused st)) (s, .ok [])

/-- Write a range of a view line by line; the lines before a refused one stand (R128). -/
def State.sideWrite (s : State) (k : Nat) (v : View) (o : Nat) (bs : List Byte) (who : Waiter := .host) : State × SideResult :=
  (linePieces (bs.length + 1) o bs.length).foldl (fun acc pc =>
    match acc.2 with
    | .refused _ => acc
    | .ok _ => acc.1.viewAccess k v pc.1 0 (some ((bs.drop (pc.1 - o)).take pc.2)) who) (s, .ok [])

/-- The first piece of a range that a write is refused at: out of view, in a quarantined tile, or write-protected (R122, R128). -/
def State.barredPiece (s : State) (k : Nat) (v : View) (o n : Nat) : Option (Nat × Nat) :=
  (linePieces (n + 1) o n).find? fun pc => (s.sideRefusal k v pc.1).isSome || (s.tile k).protectedLine (v.addr pc.1 / 64)

/-- Write a range whole, or, where one of its lines refuses the write, nothing (R290). -/
def State.sideWriteWhole (s : State) (k : Nat) (v : View) (o : Nat) (bs : List Byte) (who : Waiter := .host) : State × SideResult :=
  match s.barredPiece k v o bs.length with
  | some pc => s.viewAccess k v pc.1 0 (some ((bs.drop (pc.1 - o)).take pc.2)) who
  | none => s.sideWrite k v o bs who

/-- The lines of a range of a view, by tile byte address; an offset out of the view has none. -/
def View.lines (v : View) (o n : Nat) : List Nat :=
  ((linePieces (n + 1) o n).filter fun pc => decide (pc.1 < v.size)).map fun pc => v.addr pc.1

/-- A range cannot be accessed in the beat in progress: a line is busy, or its side port has made its access (R119). -/
def State.rangeWaits (s : State) (k : Nat) (v : View) (o n : Nat) : Bool :=
  (v.lines o n).any fun a => s.lineBusy k a || s.portUsed k a

/-- The accesses to a range's busy lines wait. -/
def State.noteRange (s : State) (k : Nat) (v : View) (o n : Nat) (who : Waiter) : State :=
  ((v.lines o n).filter (s.lineBusy k)).foldl (fun s a => s.modTile k fun t => t.noteWait who a) s

/-- The service engine's access of a view to one line, or none while its line is busy or the port's access of the beat is made (R119). -/
def State.waitedAccess (s : State) (k : Nat) (v : View) (o n : Nat) (write : Option (List Byte)) : State × Option SideResult :=
  match s.sideRefusal k v o with
  | some st => (s, some (.refused st))
  | none =>
    if s.lineBusy k (v.addr o) then (s.modTile k fun t => t.noteWait .engine (v.addr o), none)
    else if s.portUsed k (v.addr o) then (s, none)
    else
      let (s, r) := s.sideAccess k v.port (v.addr o) n write .engine
      (s, some r)

/-! ## The scrubber (R125) -/

/-- The bank has a scheduled or a side access in the beat in progress, or may have one of a descriptor still to issue in it. -/
def State.bankBusy (s : State) (k bank : Nat) : Bool :=
  let t := s.tile k
  s.issueDue k || ((t.accesses t.beat).any fun a => !a.outside && decide (a.bank t.salt.toNat = bank))
    || (match smapFind t.sideUse bank with | some (b, _) => decide (b = t.beat) | none => false)

/-- The banks whose line the scrubber visits in the beat in progress: one visit of a bank in each 64 beats, counted from beat 0
(assumption 35), in a beat without an access. -/
def State.scrubBanks (s : State) (k : Nat) : List Nat :=
  let t := s.tile k
  (List.range 32).filter fun b => decide (smapFind t.scrubWin b ≠ some (t.beat / 64)) && !s.bankBusy k b

/-- The words of a bank's line that a scrubber visit reads. -/
def Tile.scrubWords (t : Tile) (bank : Nat) : List Nat :=
  (List.range 8).map fun w => ((smapGet 0 t.scrubPos bank % 1024) * 32 + bank) * 8 + w

/-- A tile after its scrubber's visit of some banks: words with one error are corrected in place, and no tally bit changes
(assumption 35). -/
def Tile.scrubbed (t : Tile) (banks : List Nat) (now : Nat) : Tile :=
  let ws := banks.flatMap t.scrubWords
  { t with
    upset1 := t.upset1.filter fun w => !ws.contains w
    scrubPos := banks.foldl (fun m b => smapPut m b (smapGet 0 m b + 1)) t.scrubPos
    scrubWin := banks.foldl (fun m b => smapPut m b (t.beat / 64)) t.scrubWin
    sideUse := (banks.filter fun b => decide (b = 0) || decide (28 ≤ b)).foldl (fun m b => smapPut m b (t.beat, now)) t.sideUse }

/-- The tile byte address of the line that holds an ECC word, as the scrubber names it. -/
def wordAddr (w : Nat) : Nat := w / 8 / 32 * 2048 + w / 8 % 32 * 64

/-- The word with the lowest address. -/
def lowestWord : List Nat → Option Nat
  | [] => none
  | w :: ws => match lowestWord ws with
    | none => some w
    | some v => if wordAddr v < wordAddr w then some v else some w

/-- SCRUB_VISIT (R125): the tile's scrubber visits the next line of each bank whose visit of these 64 beats is due and writes corrected
words back; a double-bit error stops the pasture, the lowest line's first (R503). In a beat that is to fault before its accesses it reads nothing (R503). -/
def execScrubVisit (vx : Vx) (vy : Vy) (s : State) : Out :=
  let k := tileKey vx vy
  let t := s.tile k
  let banks := s.scrubBanks k
  if !s.live k || banks.isEmpty || (s.mainFault k).any SpadFault.barsBeat then nothing s
  else
    let ws := banks.flatMap t.scrubWords
    let s := (s.modTile k fun t => t.scrubbed banks s.now).countCorrected k (ws.filter fun w => t.upset1.contains w).length
    match lowestWord (ws.filter fun w => t.upset2.contains w) with
    | some w => .next (s.sideUncorr k 3 ⟨St.SPD_ECC_UNCORR, w / 8 % 32, (wordAddr w : Int)⟩)
    | none => .next s

end Sys2Proof.Machine
end

