-- ==== Sys2Proof/Machine/TileRegs.lean ====
section
/-!
DEFINITION. The registers of a tile and their map (R382): the sequencer's (R223), the scratchpad's (R134), the matrix unit's
(R163), the vector unit's (R182), the data network's (R244) and the control network's (R297).
-/
namespace Sys2Proof.Machine

/-! ## Words -/

/-- An error register: STATUS [63:48], slot [47:40], a unit's bits [39:32], BEAT [31:0]. -/
def ErrReg.word (e : ErrReg) : Word :=
  place e.status 48 ||| place e.slot 40 ||| place e.aux 32 ||| place e.beat 0

/-- MXU_ERR: ARRAYS lie at [39:36]. -/
def ErrReg.mxWord (e : ErrReg) : Word :=
  place e.status 48 ||| place e.slot 40 ||| place (e.aux.setWidth 4) 36 ||| place e.beat 0

/-- VXU_ERR: [39:32] are reserved. -/
def ErrReg.vxWord (e : ErrReg) : Word := place e.status 48 ||| place e.slot 40 ||| place e.beat 0

/-- DNW_ERR: PORT lies at [47:46]. -/
def ErrReg.dnWord (e : ErrReg) : Word := place e.status 48 ||| place (e.aux.setWidth 2) 46 ||| place e.beat 0

/-- TSQ_STAT. -/
def Tile.tsqStat (t : Tile) : Word :=
  place t.ip 56 ||| place (BitVec.ofNat 3 t.loops.length) 53
    ||| placeBit (t.cond.getD 3 false) 52 ||| placeBit (t.cond.getD 2 false) 51
    ||| placeBit (t.cond.getD 1 false) 50 ||| placeBit (t.cond.getD 0 false) 49
    ||| placeBit t.running 48 ||| place t.indOor 32 ||| place t.issued 0

/-- TSQ_LOOP_n: level 0 is the outermost. -/
def Tile.loopReg (t : Tile) (n : Nat) : Word :=
  match t.loops[n]? with
  | some e => placeBit true 63 ||| place e.body 48 ||| place e.endSlot 40 ||| place e.remaining 0
  | none => 0

/-- SPD_WP_n. -/
def WpRange.word (w : WpRange) : Word := placeBit w.enable 63 ||| place w.limit 32 ||| place w.base 0

/-- A written SPD_WP_n. -/
def WpRange.ofWord (v : Word) : WpRange :=
  { enable := bitAt v 63, limit := BitVec.ofNat 15 (field v 46 32), base := BitVec.ofNat 15 (field v 14 0) }

/-- DNW_TILE_CFG. -/
def Tile.dnwCfg (t : Tile) : Word :=
  placeBit t.seamE 7 ||| placeBit t.seamW 6 ||| place t.westReach 4 ||| place t.eastReach 0

/-- The time a tile's sends to channel c have been blocked, in ps: the ended intervals and those under way (R286). -/
def Tile.blockedTime (t : Tile) (c now : Nat) : Nat :=
  t.blocked.foldl (fun n b => if b.req.chan.toNat = c then n + (now - b.since) else n) (smapGet 0 t.blockedPs c)

/-- CNW_SEND_STAT_c. -/
def Tile.sendStat (t : Tile) (c now : Nat) : Word :=
  place (smapGet 0 t.sent c) 40 ||| place (smapGet 0 t.nakRecv c) 24
    ||| place (BitVec.ofNat 24 (min (2 ^ 24 - 1) (t.blockedTime c now / usT))) 0

/-- CNW_CHAN_STAT_c. -/
def Tile.chanStat (t : Tile) (c : Nat) : Word :=
  place (smapGet 0 t.received c) 40 ||| place (smapGet 0 t.dispatched c) 16 ||| place (smapGet 0 t.nakSent c) 0

/-- CNW_SVC_STAT. -/
def Tile.svcStat (t : Tile) : Word :=
  place t.wdEvents 48 ||| place t.cancelled 32 ||| place (BitVec.ofNat 4 (8 - t.slots.length)) 28
    ||| placeBit (!t.blocked.isEmpty) 2 ||| placeBit t.handler.isSome 1

/-- CNW_ERR. -/
def Tile.cnwErr (t : Tile) : Word :=
  place t.cnwStatus 48 ||| place t.cnwChan 45 ||| place t.cnwHandler 41 ||| place t.flitResends 16

/-- Action a of handler n, from CNW_HANDLER_n. -/
def Tile.action (t : Tile) (n a : Nat) : BitVec 32 := smapGet 0 t.handlers (4 * n + a)

/-! ## The map (R382) -/

/-- Read the register at an offset of a tile; none where the offset names no register. -/
def State.tileRead (s : State) (k off : Nat) : Option Word :=
  let t := s.tile k
  if off % 8 ≠ 0 then none
  else if off = 0x000 then some t.tsqStat
  else if off = 0x008 then some t.tsqErr.word
  else if 0x010 ≤ off && off < 0x090 then some (place (smapGet 0 t.entry ((off - 0x010) / 8)) 0)
  else if 0x090 ≤ off && off < 0x0D0 then some (place (t.ctr ((off - 0x090) / 8)) 0)
  else if 0x0D0 ≤ off && off < 0x0F0 then some (t.loopReg ((off - 0x0D0) / 8))
  else if off = 0x100 then some (place t.salt 0)
  else if off = 0x108 then some (place t.ceCount 32 ||| place t.tallyMiss 16 ||| place t.svcWaitMax 0)
  else if off = 0x110 then some (place t.spdStatus 48 ||| place t.spdBank 43 ||| place t.spdPort 41 ||| place t.spdAddr 0)
  else if 0x120 ≤ off && off < 0x140 then some (t.wp.getD ((off - 0x120) / 8) {}).word
  else if off = 0x180 then
    some (place t.streamBeats 32 ||| place t.passes 16 ||| place (BitVec.ofNat 2 t.mxJobs.length) 0)
  else if off = 0x188 then some t.mxErr.mxWord
  else if off = 0x1C0 then some (place t.ltv 0)
  else if off = 0x1C8 then some (place t.vecBeats 32 ||| place (BitVec.ofNat 2 t.vxJobs.length) 0)
  else if off = 0x1D0 then some t.vxErr.vxWord
  else if off = 0x200 then some t.dnwCfg
  else if off = 0x208 then some (place t.orphan 48 ||| place t.empty 32 ||| place t.chunksOut 0)
  else if off = 0x210 then some t.dnwErr.dnWord
  else if off = 0x280 then some (place t.openMask 0)
  else if off = 0x288 then some t.foldMask
  else if off = 0x290 then some t.svcStat
  else if off = 0x298 then some t.cnwErr
  else if 0x2C0 ≤ off && off < 0x300 then some (t.chanStat ((off - 0x2C0) / 8))
  else if 0x300 ≤ off && off < 0x340 then some (t.sendStat ((off - 0x300) / 8) s.now)
  else if 0x400 ≤ off && off < 0x500 then
    let n := (off - 0x400) / 8
    some (place (smapGet 0 t.handlers (2 * n + 1)) 32 ||| place (smapGet 0 t.handlers (2 * n)) 0)
  else none

/-- Whether a run of the tile's pasture is under way. -/
def State.inRun (s : State) (k : Nat) : Bool :=
  match s.pasOf (keyVx k) with
  | some p => s.begun p
  | none => false

/-- The tile after a write to a register without behaviour beyond the field it sets (R14); a read-only one keeps its value.
CNW_TILE_CFG and CANCEL of CNW_SVC_STAT act on other state and are written by the control network. -/
def State.tileSet (s : State) (t : Tile) (k off : Nat) (v : Word) : Tile :=
  if 0x010 ≤ off && off < 0x090 then
    if s.inRun k then t else { t with entry := smapPut t.entry ((off - 0x010) / 8) (BitVec.ofNat 8 (field v 7 0)) }
  else if off = 0x100 then { t with salt := BitVec.ofNat 5 (field v 4 0) }
  else if 0x120 ≤ off && off < 0x140 then
    if s.inRun k then t else { t with wp := t.wp.set ((off - 0x120) / 8) (WpRange.ofWord v) }
  else if off = 0x1C0 then
    if s.inRun k then t
    else if field v 1 0 = 1 || (field v 1 0 = 2 && decide (s.facts.stepping = .b0)) then { t with ltv := BitVec.ofNat 2 (field v 1 0) }
    else t
  else if off = 0x200 then
    if s.inRun k then t
    else { t with seamE := bitAt v 7, seamW := bitAt v 6, westReach := BitVec.ofNat 2 (field v 5 4),
                  eastReach := BitVec.ofNat 2 (field v 1 0) }
  else if off = 0x288 then { t with foldMask := v }
  else if 0x400 ≤ off && off < 0x500 then
    let n := (off - 0x400) / 8
    let h := smapSet 0 t.handlers (2 * n) (BitVec.ofNat 32 (field v 31 0))
    { t with handlers := smapSet 0 h (2 * n + 1) (BitVec.ofNat 32 (field v 63 32)) }
  else t

end Sys2Proof.Machine
end

