-- ==== Sys2Proof/Machine/ControlNet.lean ====
section
/-!
DEFINITION. The control network: packets in flight, active messages, receive channels, the service engine's handlers, replies,
bounced and blocked sends, register access (R271 to R287).
-/
namespace Sys2Proof.Machine

/-! ## Packets in flight (R271, R273) -/

/-- A sender as a number: its tile key, or 4096 and up for a perimeter-ring station (a host function, the shepherd). -/
def senderCode : Sender → Nat
  | .tile vx vy => tileKey vx vy
  | .fn f => 4096 + f.val
  | .shepherd => 4112

/-- The class, source and destination of a packet: class 0 REQ, 1 RPL, 2 FF; a window's landing engine is a source of its own. -/
def State.flow (s : State) : Packet → Nat × Nat × Nat
  | .request r => (0, senderCode r.src, tileKey r.vx r.vy)
  | .reply k dst _ _ _ _ => (1, k, senderCode dst)
  | .nak k dst _ _ _ => (1, k, senderCode dst)
  | .full dst r => (1, tileKey r.vx r.vy, senderCode dst)
  | .space dst r => (1, tileKey r.vx r.vy, senderCode dst)
  | .foldIn p _ k _ _ _ => (2, k, s.bellwether p)
  | .foldOut p _ k _ _ => (2, s.bellwether p, k)
  | .flag p _ _ k => (2, k.getD (4096 + s.boundFn p), s.bellwether p)
  | .flagWait p k _ _ => (2, k, s.bellwether p)
  | .flagRelease p k _ => (2, s.bellwether p, k)
  | .halt p k _ => (2, k, s.bellwether p)
  | .winWait p k _ _ _ _ => (2, k, s.bellwether p)
  | .winRelease p k _ => (2, s.bellwether p, k)
  | .landed p win _ _ _ _ => (2, 8192 + win, s.bellwether p)

/-- The router links of a column from row a to row b: the router, and the direction it sends in. -/
def columnLinks (vx a b : Nat) : List (Nat × Dir) :=
  if a ≤ b then (List.range (b - a)).map fun i => (tileKey vx (a + i), .south)
  else (List.range (a - b)).map fun i => (tileKey vx (a - i), .north)

/-- The router links of a row from column a to column b. -/
def rowLinks (vy a b : Nat) : List (Nat × Dir) :=
  if a ≤ b then (List.range (b - a)).map fun i => (tileKey (a + i) vy, .east)
  else (List.range (a - b)).map fun i => (tileKey (a - i) vy, .west)

/-- The router links between a source and a destination (R273): along the source's row, then along the destination's column; a ring station
joins at row 39 of the tile's column. -/
def netLinks (src dst : Nat) : List (Nat × Dir) :=
  if 4096 ≤ src && 4096 ≤ dst then []
  else if 4096 ≤ src then columnLinks (keyVx dst) 39 (keyVy dst)
  else if 4096 ≤ dst then columnLinks (keyVx src) (keyVy src) 39
  else rowLinks (keyVy src) (keyVx src) (keyVx dst) ++ columnLinks (keyVx dst) (keyVy src) (keyVy dst)

/-- The router links out of use (R275). -/
def State.deadLinks (s : State) : List (Nat × Dir) := s.tiles.flatMap fun kt => kt.2.linkOut.map fun d => (kt.1, d)

/-- A packet's path crosses a link out of use: it does not arrive until a warm compute reset (R275). -/
def State.cutOff (s : State) (p : Packet) : Bool :=
  s.deadLinks.any fun l => (netLinks (s.flow p).2.1 (s.flow p).2.2).contains l

/-- The packet at place i of the network if it may arrive: it has been injected, no link of its path is out of use, and none sent before it
has its source, destination and class (R273, R275). The state given back no longer holds it. -/
def State.arrives (s : State) (i : Nat) : Option (Packet × State) :=
  match s.net[i]? with
  | none => none
  | some e =>
    if (s.net.take i).any fun q => decide (s.flow q.pkt = s.flow e.pkt) then none
    else if s.cutOff e.pkt || !e.ready.any (· ≤ s.now) then none
    else some (e.pkt, { s with net := s.net.eraseIdx i })

/-! ## Error records and counters -/

/-- Record a fault or refusal in CNW_ERR (R297), with the tile's beat (R431; assumption 135). -/
def State.cnwRecord (s : State) (k : Nat) (st : Status) (chan : BitVec 3) (h : BitVec 4) : State :=
  s.modTile k fun t => { t with cnwStatus := st, cnwChan := chan, cnwHandler := h, cnwBeat := t.beat }

/-- Count a NAK in NAK_SENT of a channel (R279). -/
def Tile.countSentNak (t : Tile) (c : Nat) : Tile := { t with nakSent := smapPut t.nakSent c (satInc (smapGet 0 t.nakSent c)) }

/-- Answer a request with a NAK; a tile counts it in NAK_SENT of the channel (R279). -/
def State.nakRequest (s : State) (k : Nat) (r : Request) (st : Status) (byTile : Bool) : State :=
  let s := if byTile && !r.reg then s.modTile k fun t => t.countSentNak r.chan.toNat else s
  s.send (.nak k r.src r.chan r.slot st)

/-! ## Channels (R279) -/

/-- A tile's channel c. -/
def Tile.chan (t : Tile) (c : Nat) : Channel := smapGet {} t.chans c
/-- Replace a channel. -/
def Tile.putChan (t : Tile) (c : Nat) (ch : Channel) : Tile := { t with chans := smapPut t.chans c ch }

/-- Whether all 16 entries of a channel are occupied or reserved. -/
def Channel.isFull (ch : Channel) : Bool := decide (16 ≤ ch.queue.length + ch.reserved.length)

/-- Reserve freed entries of channel c for the oldest bounced requests and signal space to their senders. -/
def State.grantSpace (s : State) (k c : Nat) : Nat → State
  | 0 => s
  | n + 1 =>
    let ch := (s.tile k).chan c
    match ch.bounced with
    | [] => s
    | r :: rest =>
      if ch.isFull then s
      else
        ((s.modTile k fun t => t.putChan c { ch with bounced := rest, reserved := ch.reserved ++ [r] }).send
          (.space r.src r)).grantSpace k c n

/-- The same for every bounced request that finds an entry. -/
def State.freeEntries (s : State) (k c : Nat) : State := s.grantSpace k c ((s.tile k).chan c).bounced.length

/-- A tile is beyond the virtual grid. -/
def State.offGrid (s : State) (vx vy : Nat) : Bool := vx ≥ s.gridW || vy ≥ 40

/-- Whether a sender may send a request to its destination (R277). -/
def State.permitted (s : State) (r : Request) : Bool :=
  match r.src with
  | .tile vx _ => !r.reg && (s.pasOf vx.val).isSome && decide (s.pasOf vx.val = s.pasOf r.vx)
  | .fn f => f.val = 0 || (!r.reg && decide (s.pasOf r.vx = some f.val))
  | .shepherd => true

/-- The tile's service engine is stopped for good or until its firmware is fetched (R272). -/
def Tile.engineOff (t : Tile) : Bool := t.quarantined || !t.fwRunning

/-- The NAK a request meets on arrival (R277, R279), and whether the tile itself answers. -/
def State.requestNak (s : State) (r : Request) : Option (Status × Bool) :=
  let t := s.tile (tileKey r.vx r.vy)
  if s.offGrid r.vx r.vy then some (St.CNW_NO_TILE, false)
  else if s.parked (s.halfOf r.vx) then some (St.CNW_READER_RESET, false)
  else if !s.permitted r then some (St.CNW_NOT_PERMITTED, true)
  else if r.reg then none
  else if t.engineOff then some (St.CNW_READER_RESET, true)
  else if !bitAt t.openMask r.chan.toNat then some (St.CNW_CHANNEL_CLOSED, true)
  else none

/-- Queue a request, or bounce it to its sender as FULL. -/
def State.queueRequest (s : State) (k : Nat) (r : Request) : State :=
  let ch := (s.tile k).chan r.chan.toNat
  let queued (ch : Channel) : State := s.modTile k fun t =>
    { t.putChan r.chan.toNat { ch with queue := ch.queue ++ [r] } with
      received := smapPut t.received r.chan.toNat (smapGet 0 t.received r.chan.toNat + 1) }
  if ch.reserved.contains r then queued { ch with reserved := ch.reserved.erase r }
  else if ch.isFull then
    (s.modTile k fun t => t.putChan r.chan.toNat { ch with bounced := ch.bounced ++ [r] }).send (.full r.src r)
  else queued ch

/-- A request that meets a NAK uses no entry: one reserved for it frees. -/
def State.dropReservation (s : State) (k : Nat) (r : Request) : State :=
  let c := r.chan.toNat
  let ch := (s.tile k).chan c
  if ch.reserved.contains r then (s.modTile k fun t => t.putChan c { ch with reserved := ch.reserved.erase r }).freeEntries k c else s

/-- MSG_REQUEST_ARRIVE (R277, R279). -/
def execMsgRequestArrive (i : Nat) (s : State) : Out :=
  match s.arrives i with
  | some (.request r, s') =>
    if r.reg then nothing s
    else
      let k := tileKey r.vx r.vy
      match s'.requestNak r with
      | some (st, byTile) => .next ((s'.dropReservation k r).nakRequest k r st byTile)
      | none => .next (s'.queueRequest k r)
  | _ => nothing s

/-! ## Blocked sends (R286) -/

/-- Withdraw a bounced request at its destination: its reservation is released, or its place among the bounced ones. -/
def State.withdraw (s : State) (r : Request) : State :=
  let k := tileKey r.vx r.vy
  let c := r.chan.toNat
  let ch := (s.tile k).chan c
  (s.modTile k fun t => t.putChan c { ch with bounced := ch.bounced.erase r, reserved := ch.reserved.erase r }).freeEntries k c

/-- End a tile's blocked state for a slot: the time blocked is counted. -/
def Tile.unblock (t : Tile) (slot : BitVec 6) (now : Nat) : Tile :=
  match t.blocked.find? fun b => decide (b.req.slot = slot) with
  | none => t
  | some b =>
    let c := b.req.chan.toNat
    { t with blocked := t.blocked.filter fun b => decide (b.req.slot ≠ slot)
             blockedPs := smapPut t.blockedPs c (smapGet 0 t.blockedPs c + (now - b.since)) }

/-- Free a tile's reply slot. -/
def Tile.freeSlot (t : Tile) (slot : BitVec 6) : Tile :=
  { t with slots := t.slots.filter fun x => decide (x.1 ≠ slot) }

/-- Count a NAK or a reply that is not OK in NAK_RECEIVED. -/
def Tile.countNak (t : Tile) (c : Nat) : Tile :=
  { t with nakRecv := smapPut t.nakRecv c (satInc (smapGet 0 t.nakRecv c)) }

/-! ## Handlers (R280 to R284) -/

/-- The OP of an action. -/
def actOp (a : BitVec 32) : Nat := field a 31 28
/-- The address A of an action: ADDR, or with PA the sum with the first payload half-word. -/
def actAddr (a : BitVec 32) (payload : List Byte) : Nat :=
  if bitAt a 27 then (field a 15 0 + leAt payload 0 2) % 2 ^ 16 else field a 15 0
/-- DOFF. -/
def actDoff (a : BitVec 32) : Nat := field a 26 22
/-- N. -/
def actN (a : BitVec 32) : Nat := field a 21 16
/-- The flag an action names: ADDR[7:0], or payload byte DOFF with PA. -/
def actFlag (a : BitVec 32) (payload : List Byte) : Nat :=
  if bitAt a 27 then (byteAt payload (actDoff a)).toNat else field a 7 0

/-- The service engine can act: it runs and no send of it is blocked (R280, R285). -/
def State.engineFree (s : State) (k : Nat) : Bool :=
  let t := s.tile k
  !s.offGrid (keyVx k) (keyVy k) && !s.parked (s.halfOf (keyVx k)) && !t.engineOff && t.blocked.isEmpty

/-- The next non-empty channel after the one served last (R280). -/
def Tile.nextChan (t : Tile) : Option Nat :=
  ((List.range 8).map fun i => (t.lastChan.toNat + 1 + i) % 8).find? fun c => !(t.chan c).queue.isEmpty

/-- HANDLER_DISPATCH (R280): the engine takes the oldest request of the next non-empty channel; its entry is freed. -/
def execHandlerDispatch (vx : Vx) (vy : Vy) (s : State) : Out :=
  let k := tileKey vx vy
  let t := s.tile k
  if !s.engineFree k || t.handler.isSome then nothing s
  else match t.nextChan with
    | none => nothing s
    | some c => match (t.chan c).queue with
      | [] => nothing s
      | r :: rest =>
        .next ((s.modTile k fun t =>
          { t.putChan c { t.chan c with queue := rest } with
            lastChan := BitVec.ofNat 3 c
            handler := some { req := r }
            dispatched := smapPut t.dispatched c (smapGet 0 t.dispatched c + 1) }).freeEntries k c)

/-- End a handler: its request gets its one reply (R282). -/
def State.endHandler (s : State) (k : Nat) (h : HandlerRun) (st : Status) (payload : List Byte) : State :=
  (s.modTile k fun t => { t with handler := none }).send (.reply k h.req.src h.req.chan h.req.slot st payload)

/-- A refused action ends the handler, and the reply carries the refusal; CNW_ERR records it. A double-bit error has stopped
the pasture, and the request gets a NAK (R282). -/
def State.refuseAction (s : State) (k : Nat) (h : HandlerRun) (st : Status) : State :=
  if st = St.SPD_ECC_UNCORR then
    (s.modTile k fun t => { t with handler := none }).nakRequest k h.req st true
  else (s.cnwRecord k st h.req.chan h.req.handler).endHandler k h st []

/-- The handler goes on to its next action. -/
def State.nextAction (s : State) (k : Nat) (h : HandlerRun) : State :=
  s.modTile k fun t => { t with handler := some { h with action := h.action + 1, pos := 0, got := [] } }

/-- Run an action of a tile's handler whose OP is `op`. -/
def State.onAction (s : State) (k op : Nat) (f : HandlerRun → BitVec 32 → State) : Out :=
  let t := s.tile k
  match t.handler with
  | none => nothing s
  | some h =>
    let a := t.action h.req.handler.toNat h.action
    if s.engineFree k && decide (h.action < 4) && decide (actOp a = op) then .next (f h a) else nothing s

/-- HANDLER_END (R281, R282): the END action, the place after the last action, or a reserved OP ends the handler. -/
def execHandlerEnd (vx : Vx) (vy : Vy) (s : State) : Out :=
  let k := tileKey vx vy
  let t := s.tile k
  match t.handler with
  | none => nothing s
  | some h =>
    let op := actOp (t.action h.req.handler.toNat h.action)
    if !s.engineFree k then nothing s
    else if h.action ≥ 4 then .next (s.endHandler k h St.OK [])
    else if op = 0 then .next (s.endHandler k h (if h.action = 0 then St.CNW_HANDLER_EMPTY else St.OK) [])
    else if op ≥ 8 then .next (s.refuseAction k h St.CNW_ACTION_INVALID)
    else nothing s

/-! ### Side accesses of the engine, with their waits (R119) -/

/-- How far a range of lines has come: all done, waiting, or refused. -/
inductive Lines where
  | done (n : Nat) (got : List Byte)
  | waits (n : Nat) (got : List Byte)
  | refused (st : Status)
deriving DecidableEq, Repr

/-- Access the pieces of a range in ascending order, until one waits or is refused. -/
def State.accessLines (s : State) (k o : Nat) (write : Option (List Byte)) (n : Nat) (got : List Byte) :
    List (Nat × Nat) → State × Lines
  | [] => (s, .done n got)
  | (a, m) :: rest =>
    let w := write.map fun bs => (bs.drop (a - o)).take m
    match s.waitedAccess k .service a m w with
    | (s, none) => (s, .waits n got)
    | (s, some (.refused st)) => (s, .refused st)
    | (s, some (.ok bs)) => s.accessLines k o write (n + m) (got ++ bs) rest

/-- What follows a range of accesses: the next step, a wait at the place reached, or the refusal. -/
def State.afterLines (s : State) (k : Nat) (h : HandlerRun) (l : Lines) (done : State → List Byte → State) : State :=
  match l with
  | .done _ got => done s got
  | .waits n got => s.modTile k fun t => { t with handler := some { h with pos := n, got := got } }
  | .refused st => s.refuseAction k h st

/-- The bytes a WRITE action writes: N of them, or with N = 0 those from DOFF to LEN. -/
def writeData (a : BitVec 32) (payload : List Byte) : List Byte :=
  slice payload (actDoff a) (if actN a = 0 then payload.length - actDoff a else actN a)

/-- HANDLER_WRITE (R281): the lines in ascending order, each a side access. -/
def execHandlerWrite (vx : Vx) (vy : Vy) (s : State) : Out :=
  let k := tileKey vx vy
  s.onAction k 1 fun h a =>
    let o := actAddr a h.req.payload
    let bs := writeData a h.req.payload
    let (s', l) := s.accessLines k o (some bs) h.pos [] (linePieces 64 (o + h.pos) (bs.length - h.pos))
    s'.afterLines k h l fun s _ => s.nextAction k h

/-- Read, change and write a u32 of the service region in one side access (R119, R281). -/
def State.updateWord (s : State) (k : Nat) (h : HandlerRun) (o : Nat) (f : BitVec 32 → BitVec 32) : State :=
  if o % 4 ≠ 0 then s.refuseAction k h St.CNW_ACTION_ALIGN
  else
    let v := f (BitVec.ofNat 32 (ofBytes ((s.tile k).bytes 0 (serviceAddr o) 4)))
    match s.waitedAccess k .service o 4 (some (bytesOf 4 v.toNat)) with
    | (s, none) => s
    | (s, some (.refused st)) => s.refuseAction k h st
    | (s, some (.ok _)) => s.nextAction k h

/-- HANDLER_ADD (R281). -/
def execHandlerAdd (vx : Vx) (vy : Vy) (s : State) : Out :=
  let k := tileKey vx vy
  s.onAction k 2 fun h a =>
    s.updateWord k h (actAddr a h.req.payload) fun v => v + BitVec.ofNat 32 (leAt h.req.payload (actDoff a) 4)

/-- HANDLER_BUMP (R281). -/
def execHandlerBump (vx : Vx) (vy : Vy) (s : State) : Out :=
  let k := tileKey vx vy
  s.onAction k 3 fun h a => s.updateWord k h (actAddr a h.req.payload) satInc

/-- A flag change goes from a tile to its pasture's bellwether. -/
def State.sendFlag (s : State) (k n : Nat) (on : Bool) : State :=
  match s.pasOf (keyVx k) with
  | some p => s.send (.flag p n on (some k))
  | none => s

/-- HANDLER_FLAGSET (R281). -/
def execHandlerFlagset (vx : Vx) (vy : Vy) (s : State) : Out :=
  let k := tileKey vx vy
  s.onAction k 4 fun h a => (s.sendFlag k (actFlag a h.req.payload) true).nextAction k h

/-- HANDLER_FLAGCLR (R281). -/
def execHandlerFlagclr (vx : Vx) (vy : Vy) (s : State) : Out :=
  let k := tileKey vx vy
  s.onAction k 5 fun h a => (s.sendFlag k (actFlag a h.req.payload) false).nextAction k h

/-- HANDLER_REPLY (R281): the reply ends the handler; an N above 32 is invalid. -/
def execHandlerReply (vx : Vx) (vy : Vy) (s : State) : Out :=
  let k := tileKey vx vy
  s.onAction k 6 fun h a =>
    if actN a > 32 then s.refuseAction k h St.CNW_ACTION_INVALID
    else
      let o := actAddr a h.req.payload
      let (s', l) := s.accessLines k o none h.pos h.got (linePieces 64 (o + h.pos) (actN a - h.pos))
      s'.afterLines k h l fun s got => s.endHandler k h St.OK got

/-- A free reply slot of a tile: the lowest (assumption 40). -/
def Tile.freeSlotNo (t : Tile) : Option Nat :=
  (List.range 8).find? fun n => !(t.slots.any fun x => decide (x.1.toNat = n))

/-- The coordinates of a tile key as a sender. -/
def tileSender (k : Nat) : Sender := .tile ⟨k % 64, Nat.mod_lt _ (by decide)⟩ ⟨k / 64 % 40, Nat.mod_lt _ (by decide)⟩

/-- HANDLER_SEND (R281, R284): the payload goes as a request to another tile; without a free reply slot it is refused. -/
def execHandlerSend (vx : Vx) (vy : Vy) (s : State) : Out :=
  let k := tileKey vx vy
  s.onAction k 7 fun h a =>
    match (s.tile k).freeSlotNo with
    | none => s.refuseAction k h St.CNW_NO_REPLY_SLOT
    | some n =>
      let r : Request :=
        { src := .tile vx vy, vx := field a 11 6, vy := field a 5 0, chan := BitVec.ofNat 3 (field a 27 25),
          handler := BitVec.ofNat 4 (field a 24 21), slot := BitVec.ofNat 6 n, payload := h.req.payload }
      let c := r.chan.toNat
      ((s.modTile k fun t =>
        { t with slots := t.slots ++ [(r.slot, r)], sent := smapPut t.sent c (smapGet 0 t.sent c + 1) }).nextAction k
          { h with sent := h.sent ++ [r.slot] }).send (.request r)

/-! ## Replies, NAKs, bounces and space signals -/

/-- A host MSG ends: its slot is freed and its completion posted with the reply's status and payload (R386, R387). -/
def State.endHostMsg (s : State) (f : Nat) (m : HostMsg) (st : Status) (payload : List Byte) : State :=
  (s.modFn f fun x => { x with msgs := x.msgs.filter fun o => decide (o.slot ≠ m.slot) }).complete f
    { m.id.completion 5 m.pas st with
      beats := BitVec.ofNat 64 (leAt payload 0 8), totals := BitVec.ofNat 128 (leAt payload 8 16),
      doneTime := some (BitVec.ofNat 64 (leAt payload 24 8)), vector := 19 }

/-- The MSG of a function that holds a slot. -/
def Fn.msgAt (f : Fn) (slot : BitVec 6) : Option HostMsg := f.msgs.find? fun m => decide (m.slot = slot)

/-- REPLY_ARRIVE (R284): the reply frees its sender's slot; one that is not OK counts in NAK_RECEIVED. -/
def execReplyArrive (i : Nat) (s : State) : Out :=
  match s.arrives i with
  | some (.reply _ dst chan slot st payload, s') =>
    match dst with
    | .tile vx vy => .next (s'.modTile (tileKey vx vy) fun t =>
        let t := t.freeSlot slot
        if st = St.OK then t else t.countNak chan.toNat)
    | .fn f => match (s'.func f.val).msgAt slot with
      | some m => .next (s'.endHostMsg f.val m st payload)
      | none => .next s'
    | .shepherd => .next s'
  | _ => nothing s

/-- NAK_ARRIVE (R279): the NAK frees the slot, ends the blocked state and is counted. -/
def execNakArrive (i : Nat) (s : State) : Out :=
  match s.arrives i with
  | some (.nak _ dst chan slot st, s') =>
    match dst with
    | .tile vx vy => .next (s'.modTile (tileKey vx vy) fun t => ((t.unblock slot s.now).freeSlot slot).countNak chan.toNat)
    | .fn f => match (s'.func f.val).msgAt slot with
      | some m => .next (s'.endHostMsg f.val m st [])
      | none => .next s'
    | .shepherd => .next s'
  | _ => nothing s

/-- Change a MSG of a function. -/
def Fn.modMsg (f : Fn) (slot : BitVec 6) (g : HostMsg → HostMsg) : Fn :=
  { f with msgs := f.msgs.map fun m => if m.slot = slot then g m else m }

/-- FULL_BOUNCE (R279, R286): the sender keeps the request and is blocked. -/
def execFullBounce (i : Nat) (s : State) : Out :=
  match s.arrives i with
  | some (.full dst r, s') =>
    match dst with
    | .tile vx vy => .next (s'.modTile (tileKey vx vy) fun t => { t with blocked := t.blocked ++ [{ req := r, since := s.now }] })
    | .fn f => .next (s'.modFn f.val fun x => x.modMsg r.slot fun m => { m with blocked := some s.now, raised := false })
    | .shepherd => .next s'
  | _ => nothing s

/-- SPACE_SIGNAL (R279, R286): the sender is no longer blocked and resends the request, for which an entry is reserved. -/
def execSpaceSignal (i : Nat) (s : State) : Out :=
  match s.arrives i with
  | some (.space dst r, s') =>
    match dst with
    | .tile vx vy =>
      let k := tileKey vx vy
      if (s.tile k).blocked.any fun b => decide (b.req = r) then
        .next ((s'.modTile k fun t => t.unblock r.slot s.now).send (.request r))
      else .next s'
    | .fn f =>
      match (s.func f.val).msgAt r.slot with
      | some m => if m.blocked.isSome && decide (m.req = r) then
          .next ((s'.modFn f.val fun x => x.modMsg r.slot fun m => { m with blocked := none }).send (.request r))
        else .next s'
      | none => .next s'
    | .shepherd => .next (s'.send (.request r))
  | _ => nothing s

/-- The SEND_WD of a pasture as a time. -/
def State.sendWd (s : State) (p : Nat) : Nat := (s.pasture p).sendWd.toNat * usT

/-- SEND_WATCHDOG (R286): a send blocked for SEND_WD raises ST_CNW_SEND_BLOCKED once; a tile counts it in WD_EVENTS. -/
def execSendWatchdog (who : Sender) (s : State) : Out :=
  match who with
  | .tile vx vy =>
    let k := tileKey vx vy
    match s.pasOf vx.val with
    | none => nothing s
    | some p =>
      let late (b : Blocked) : Bool := !b.raised && decide (s.sendWd p ≤ s.now - b.since)
      match (s.tile k).blocked.find? late with
      | none => nothing s
      | some b =>
        .next ((s.modTile k fun t =>
          { t with wdEvents := satInc t.wdEvents
                   blocked := t.blocked.map fun o => if o.req.slot = b.req.slot then { o with raised := true } else o }).pasEvent
            p St.CNW_SEND_BLOCKED k)
  | .fn f =>
    let late (m : HostMsg) : Bool := match m.blocked with
      | some t0 => !m.raised && decide (s.sendWd m.pas ≤ s.now - t0)
      | none => false
    match (s.func f.val).msgs.find? late with
    | none => nothing s
    | some m =>
      .next ((s.modFn f.val fun x => x.modMsg m.slot fun m => { m with raised := true }).pasEvent m.pas
        St.CNW_SEND_BLOCKED (tileKey m.req.vx m.req.vy))
  | .shepherd => nothing s

/-- Drop a tile's oldest blocked send (R286): its slot is freed, CANCELLED counts, and the SEND fails if its handler runs. -/
def State.cancelSend (s : State) (k : Nat) : State :=
  match (s.tile k).blocked with
  | [] => s
  | b :: _ =>
    let s := (s.modTile k fun t =>
      { (t.unblock b.req.slot s.now).freeSlot b.req.slot with cancelled := satInc t.cancelled }).withdraw b.req
    match (s.tile k).handler with
    | some h => if h.sent.contains b.req.slot then s.refuseAction k h St.CNW_SEND_CANCELLED else s
    | none => s

/-- A tile that register writes reach: on the grid, in a live half. -/
def State.reachable (s : State) (k : Nat) : Bool :=
  !s.offGrid (keyVx k) (keyVy k) && !s.parked (s.halfOf (keyVx k))

/-- A link out of use lies between the host interface and a tile (R275): on the way of a request to the tile, or of its reply. -/
def State.hostCutOff (s : State) (k : Nat) (reply : Bool) : Bool :=
  let h := senderCode (.fn 0)
  s.deadLinks.any fun l => (if reply then netLinks k h else netLinks h k).contains l

/-- CANCEL (R286): a write of 1 to CANCEL in CNW_SVC_STAT, which does not arrive over a link out of use. -/
def execCancel (vx : Vx) (vy : Vy) (s : State) : Out :=
  let k := tileKey vx vy
  if s.reachable k && !s.hostCutOff k false && !(s.tile k).blocked.isEmpty then .next (s.cancelSend k) else nothing s

/-- Empty a channel that closes, with a NAK to each queued request, and let its bounced requests be resent: they meet the closed channel
(R287). -/
def State.emptyChannel (s : State) (k c : Nat) (st : Status) : State :=
  let q := ((s.tile k).chan c).queue
  let s := s.modTile k fun t => t.putChan c { t.chan c with queue := [] }
  (q.foldl (fun s r => s.nakRequest k r st true) s).freeEntries k c

/-- Write OPEN: channels whose bit goes to 0 are closed. -/
def State.writeOpen (s : State) (k : Nat) (mask : Byte) : State :=
  let old := (s.tile k).openMask
  let s := s.modTile k fun t => { t with openMask := mask }
  (List.range 8).foldl (fun s c => if bitAt old c && !bitAt mask c then s.emptyChannel k c St.CNW_CHANNEL_CLOSED else s) s

/-- CHANNEL_CLOSE (R287): a write of CNW_TILE_CFG, which does not arrive over a link out of use. -/
def execChannelClose (vx : Vx) (vy : Vy) (openMask : Byte) (s : State) : Out :=
  let k := tileKey vx vy
  if s.reachable k && !s.hostCutOff k false then .next (s.writeOpen k openMask) else nothing s

/-! ## Register access (R278) -/

/-- Write a tile register. -/
def State.tileWrite (s : State) (k off : Nat) (v : Word) : State :=
  if off = 0x280 then s.writeOpen k (BitVec.ofNat 8 (field v 7 0))
  else if off = 0x290 then (if bitAt v 0 then s.cancelSend k else s)
  else s.modTile k fun t => s.tileSet t k off v

/-- Serve a register access at a tile: the status and the bytes of the reply. -/
def State.serveAccess (s : State) (k off : Nat) (write : Option Word) : State × Status × List Byte :=
  match s.tileRead k off, write with
  | none, none => (s, St.CNW_NO_REGISTER, bytesOf 8 0)
  | none, some _ => (s, St.CNW_NO_REGISTER, [])
  | some v, none => (s, St.OK, bytesOf 8 v.toNat)
  | some _, some v => (s.tileWrite k off v, St.OK, [])

/-- REGISTER_ACCESS (R277, R278). -/
def execRegisterAccess (i : Nat) (s : State) : Out :=
  match s.arrives i with
  | some (.request r, s') =>
    if !r.reg then nothing s
    else
      let k := tileKey r.vx r.vy
      match s'.requestNak r with
      | some (st, byTile) => .next (s'.nakRequest k r st byTile)
      | none =>
        let write := if bitAt (byteAt r.payload 4) 0 then some (BitVec.ofNat 64 (leAt r.payload 8 8)) else none
        let (s', st, bs) := s'.serveAccess k (leAt r.payload 0 4) write
        .next (s'.send (.reply k r.src r.chan r.slot st bs))
  | _ => nothing s

/-- TILE_WINDOW_ACCESS (R382): an access to a tile window of PF0 BAR0. A refused one reads all ones or drops the write, and
HIF_TILE_ACC has the status; a window beyond the presented grid reads 0 (assumption 41). Over a link out of use the request or its reply
does not arrive (R275): the read gives all ones, and HIF_TILE_ACC is as it was (assumption 139). -/
def execTileWindowAccess (vx : Vx) (vy : Vy) (offset : BitVec 12) (write : Option Word) (s : State) : Out :=
  let k := tileKey vx vy
  if s.offGrid vx vy then .next (if write.isNone then { s with tileData := 0 } else s)
  else if s.parked (s.halfOf vx) then
    let s := { s with tileAcc := St.CNW_READER_RESET }
    .next (if write.isNone then { s with tileData := BitVec.allOnes 64 } else s)
  else if s.hostCutOff k false then .next (if write.isNone then { s with tileData := BitVec.allOnes 64 } else s)
  else
    let (s', st, bs) := s.serveAccess k (offset.toNat / 8 * 8) write
    let back := !s.hostCutOff k true
    let s := if back then { s' with tileAcc := st } else s'
    .next (if write.isNone then
      { s with tileData := if st = St.OK && back then BitVec.ofNat 64 (ofBytes bs) else BitVec.allOnes 64 } else s)

/-! ## Resets of the engine and its queues (R272, R287, R296) -/

/-- A channel of a tile that enters reset or quarantine (R279, R286, R287): its queued requests get READER_RESET, reservations are released,
and the bounced requests, which their senders would resend to the tile under reset, get the NAK that the resends would meet. -/
def State.resetChannel (s : State) (k c : Nat) : State :=
  let ch := (s.tile k).chan c
  let s := s.modTile k fun t => t.putChan c {}
  (ch.queue ++ ch.bounced).foldl (fun s r => s.nakRequest k r St.CNW_READER_RESET true) s

/-- A tile enters reset or quarantine: its handler and its queues are answered with READER_RESET, and its slots and blocked sends end. -/
def State.resetEngine (s : State) (k : Nat) : State :=
  let t := s.tile k
  let s := t.blocked.foldl (fun s b => s.withdraw b.req) s
  let s := match t.handler with
    | some h => s.nakRequest k h.req St.CNW_READER_RESET true
    | none => s
  let s := s.modTile k fun t =>
    { t with handler := none, slots := [], blocked := []
             blockedPs := t.blocked.foldl (fun m b =>
               smapPut m b.req.chan.toNat (smapGet 0 m b.req.chan.toNat + (s.now - b.since))) t.blockedPs
             svcWait := [], sideUse := [] }
  (List.range 8).foldl (fun s c => s.resetChannel k c) s

/-- Packets on their way as tiles enter reset (assumption 42): requests to them, and those that space signals from them would have resent,
get READER_RESET; replies to them are dropped and counted, and so is the answer to a request of theirs. -/
def State.resetInFlight (s : State) (inReset : Nat → Bool) : State :=
  let keep (s : State) (e : Sent) : State := { s with net := s.net ++ [e] }
  let senderReset (c : Sender) : Bool := match c with
    | .tile vx vy => inReset (tileKey vx vy)
    | .fn _ | .shepherd => false
  let answer (s : State) (k : Nat) (r : Request) : State :=
    if senderReset r.src then
      (s.modTile k fun t => t.countSentNak r.chan.toNat).modTile (senderCode r.src) fun t => t.countNak r.chan.toNat
    else s.nakRequest k r St.CNW_READER_RESET true
  s.net.foldl (fun s e =>
    match e.pkt with
    | .request r =>
      let k := tileKey r.vx r.vy
      if inReset k && !r.reg then answer s k r else keep s e
    | .reply _ (.tile vx vy) c _ _ _ | .nak _ (.tile vx vy) c _ _ =>
      if inReset (tileKey vx vy) then s.modTile (tileKey vx vy) fun t => t.countNak c.toNat else keep s e
    | .full (.tile vx vy) _ => if inReset (tileKey vx vy) then s else keep s e
    | .space dst r =>
      if senderReset dst then s
      else if inReset (tileKey r.vx r.vy) then s.nakRequest (tileKey r.vx r.vy) r St.CNW_READER_RESET true
      else keep s e
    | _ => keep s e) { s with net := [] }

/-- FLIT_CHECK_FAIL (R275): a flit fails its check bits on a link of a tile's router. `resend` is how many resends it has had:
fewer than three, it is resent and counted; after the third, every running pasture stops and the link stays out of use. -/
def execFlitCheckFail (vx : Vx) (vy : Vy) (d : Dir) (resend : Fin 4) (s : State) : Out :=
  let k := tileKey vx vy
  if !s.reachable k || (s.tile k).linkOut.contains d then nothing s
  else if resend.val < 3 then .next (s.modTile k fun t => { t with flitResends := satInc t.flitResends })
  else
    .next ((((s.modTile k fun t => { t with linkOut := t.linkOut ++ [d] }).cnwRecord k St.CNW_LINK_FAIL 0 0).alert 5).stopAll St.CNW_LINK_FAIL)

end Sys2Proof.Machine
end

