-- ==== Sys2Proof/Machine/Wire.lean ====
section
/-!
DEFINITION. What travels on a link, byte by byte: the fabric packet (R344), the identity record (R332), link-management flits (R334) and
the link flit (R324), formed and read.
-/
namespace Sys2Proof

open Machine

/-! ## Fabric packets (R344) -/

/-- CTL: class, channel, LAST and DROVE. -/
def FabPacket.ctl (p : FabPacket) : Byte :=
  BitVec.ofNat 8 (p.cls.toNat * 64 + p.chan.toNat * 4 + (if p.last then 2 else 0) + (if p.drove then 1 else 0))

/-- Bytes 0 to 47 of a packet. -/
def FabPacket.head (p : FabPacket) : List Byte :=
  [p.ptype, p.ctl, p.hops, BitVec.ofNat 8 p.data.length] ++ bytesOf 2 p.dstChip.toNat ++ bytesOf 2 p.srcChip.toNat
    ++ bytesOf 2 p.flock.toNat ++ bytesOf 2 p.srcRank.toNat ++ [p.win.setWidth 8, p.drv] ++ bytesOf 2 p.oseq.toNat
    ++ bytesOf 4 p.xfer.toNat ++ bytesOf 4 p.offset.toNat ++ bytesOf 4 p.count.toNat ++ bytesOf 2 p.status.toNat
    ++ List.replicate 18 0

/-- Bytes 52 to 243: the data, then zeros. -/
def FabPacket.body (p : FabPacket) : List Byte := slice p.data 0 192

/-- The E2E_CRC that a packet's bytes have: CRC-32C over offsets 0 to 47 and 52 to 243. -/
def FabPacket.e2eSum (p : FabPacket) : BitVec 32 := crc32c (p.head ++ p.body)

/-- The packet's E2E_CRC checks (R345). -/
def FabPacket.e2eOk (p : FabPacket) : Bool := decide (p.e2e = p.e2eSum)

/-- The packet with the E2E_CRC that its sender forms. -/
def FabPacket.sealed (p : FabPacket) : FabPacket := { p with e2e := p.e2eSum }

/-- The packet with other HOPS. E2E_CRC covers HOPS, so an engine that counts it down changes the check by the same bits, and a packet
that failed still fails (assumption 52). -/
def FabPacket.withHops (p : FabPacket) (h : Byte) : FabPacket :=
  let q := { p with hops := h }
  { q with e2e := p.e2e ^^^ p.e2eSum ^^^ q.e2eSum }

/-- The packet's 244 bytes. -/
def FabPacket.bytes (p : FabPacket) : List Byte := p.head ++ bytesOf 4 p.e2e.toNat ++ p.body

/-- The packet in 244 bytes: reserved bytes are ignored but for their part in E2E_CRC. -/
def FabPacket.ofBytes (bs : List Byte) (dateline : Bool) : FabPacket :=
  let ctl := byteAt bs 1
  let p : FabPacket :=
    { ptype := byteAt bs 0, cls := BitVec.ofNat 2 (field ctl 7 6), chan := BitVec.ofNat 4 (field ctl 5 2), last := bitAt ctl 1,
      drove := bitAt ctl 0, hops := byteAt bs 2, dstChip := BitVec.ofNat 16 (leAt bs 4 2), srcChip := BitVec.ofNat 16 (leAt bs 6 2),
      flock := BitVec.ofNat 16 (leAt bs 8 2), srcRank := BitVec.ofNat 12 (leAt bs 10 2), win := BitVec.ofNat 6 (leAt bs 12 1),
      drv := byteAt bs 13, oseq := BitVec.ofNat 16 (leAt bs 14 2), xfer := BitVec.ofNat 32 (leAt bs 16 4),
      offset := BitVec.ofNat 32 (leAt bs 20 4), count := BitVec.ofNat 32 (leAt bs 24 4), status := BitVec.ofNat 16 (leAt bs 28 2),
      e2e := 0, dateline := dateline, data := slice bs 52 (min 192 (leAt bs 3 1)) }
  { p with e2e := BitVec.ofNat 32 (leAt bs 48 4) ^^^ crc32c (slice bs 0 48 ++ slice bs 52 192) ^^^ p.e2eSum }

/-! ## Identity records (R332) -/

/-- Bytes 0x00 to 0x3B of an identity record. -/
def PeerRecord.body (r : PeerRecord) : List Byte :=
  [r.vmin, r.vmax] ++ bytesOf 2 r.chipId.toNat ++ [r.port, r.kind, r.stepping, 0] ++ bytesOf 8 r.serial.toNat
    ++ bytesOf 32 r.flockDigest.toNat ++ List.replicate 12 0

/-- The 64 bytes of an identity record. -/
def PeerRecord.bytes (r : PeerRecord) : List Byte := r.body ++ bytesOf 4 (crc32 r.body).toNat

/-- The identity record in 64 bytes; none where its CRC fails. -/
def PeerRecord.ofBytes (bs : List Byte) : Option PeerRecord :=
  if leAt bs 0x3C 4 = (crc32 (slice bs 0 0x3C)).toNat then
    some { vmin := byteAt bs 0, vmax := byteAt bs 1, chipId := BitVec.ofNat 16 (leAt bs 2 2), port := byteAt bs 4, kind := byteAt bs 5,
           stepping := byteAt bs 6, serial := BitVec.ofNat 64 (leAt bs 8 8), flockDigest := BitVec.ofNat 256 (leAt bs 0x10 32) }
  else none

/-! ## Link-management flits (R334) -/

/-- PAYLOAD of a management flit: a type code in bytes 0 and 1, then its data. R334 gives the codes no values; the model numbers them in
R334's order (assumption 65). -/
def MgmtFlit.bytes : MgmtFlit → List Byte
  | .identity r => bytesOf 2 1 ++ (match r with | some r => r.bytes | none => List.replicate 64 0)
  | .degrade g => bytesOf 2 2 ++ [g]
  | .proposal g => bytesOf 2 3 ++ [g]
  | .acceptance g => bytesOf 2 4 ++ [g]
  | .retrainRequest => bytesOf 2 5
  | .unknown => bytesOf 2 0

/-- The management flit in a PAYLOAD. -/
def MgmtFlit.ofBytes (bs : List Byte) : MgmtFlit :=
  match leAt bs 0 2 with
  | 1 => .identity (PeerRecord.ofBytes (slice bs 2 64))
  | 2 => .degrade (byteAt bs 2)
  | 3 => .proposal (byteAt bs 2)
  | 4 => .acceptance (byteAt bs 2)
  | 5 => .retrainRequest
  | _ => .unknown

/-! ## Link flits (R324) -/

/-- FTYPE. -/
def FlitPayload.ftype : FlitPayload → Nat
  | .idle => 0
  | .fabric _ => 1
  | .mgmt _ => 2
  | .reserved => 3

/-- The 244 bytes of PAYLOAD. -/
def FlitPayload.bytes : FlitPayload → List Byte
  | .idle | .reserved => List.replicate 244 0
  | .fabric p => p.bytes
  | .mgmt m => slice m.bytes 0 244

/-- Bytes 0 to 7 of a link flit. -/
def LinkFlit.word (f : LinkFlit) : Word :=
  place f.seq 54 ||| place f.ack 44 ||| placeBit f.nak 43 ||| place (BitVec.ofNat 2 f.payload.ftype) 41 ||| place f.credit 16

/-- Bytes 0 to 251 of a link flit. -/
def LinkFlit.body (f : LinkFlit) : List Byte := bytesOf 8 f.word.toNat ++ f.payload.bytes

/-- The 256 bytes of a link flit. -/
def LinkFlit.bytes (f : LinkFlit) : List Byte := f.body ++ bytesOf 4 (crc32 f.body).toNat

/-- The CRC of a received flit checks. -/
def flitCrcOk (raw : List Byte) : Bool := decide (leAt raw 252 4 = (crc32 (slice raw 0 252)).toNat)

/-- The link flit in 256 bytes, its packet received in a lane before or after a dateline. -/
def LinkFlit.ofBytes (raw : List Byte) (dateline : Bool) : LinkFlit :=
  let w : Word := BitVec.ofNat 64 (leAt raw 0 8)
  let pay := slice raw 8 244
  { seq := BitVec.ofNat 10 (field w 63 54), ack := BitVec.ofNat 10 (field w 53 44), nak := bitAt w 43,
    credit := BitVec.ofNat 25 (field w 40 16)
    payload := match field w 42 41 with
      | 0 => .idle
      | 1 => .fabric (FabPacket.ofBytes pay dateline)
      | 2 => .mgmt (MgmtFlit.ofBytes pay)
      | _ => .reserved }

end Sys2Proof
end

