-- ==== Sys2Proof/Machine/LinkBase.lean ====
section
/-!
DEFINITION. The link layer's shared operations: port states and roles, lane groups and rates, the transmitter with its replay
buffer and per-hop credits, and lane buffers (R322 to R330, R351 to R354).
-/
namespace Sys2Proof

/-! ## Packets (R344, R345, R351) -/

/-- The receive lane of a packet: ordered 0 and 1, bulk 2 and 3, service 4. -/
def FabPacket.lane (p : FabPacket) : Nat :=
  match p.cls.toNat with
  | 0 => if p.dateline then 1 else 0
  | 1 => if p.dateline then 3 else 2
  | _ => 4

/-- The packet types of R345. -/
def ptypes : List Nat := [0x01, 0x02, 0x03, 0x04, 0x05, 0x06, 0x07, 0x10, 0x11]

/-- A packet with a reserved type or class. -/
def FabPacket.isBad (p : FabPacket) : Bool := !ptypes.contains p.ptype.toNat || decide (p.cls = 3)

/-- Types that are never answered (R347): CREDIT_GRANT, NAK, DONE, DATA_ACK. -/
def FabPacket.unanswered (p : FabPacket) : Bool := [0x03, 0x05, 0x06, 0x07].contains p.ptype.toNat

/-- The key of an ordered flow. -/
def FabPacket.flowKey (p : FabPacket) : Nat := (p.srcChip.toNat * 65536 + p.dstChip.toNat) * 16 + p.chan.toNat

/-- A flit carries an ordered packet of the flow of p. -/
def FlitPayload.sameFlow (f : FlitPayload) (p : FabPacket) : Bool :=
  match f with
  | .fabric q => decide (q.cls = 0) && decide (q.flowKey = p.flowKey)
  | .idle | .mgmt _ | .reserved => false

/-! ## Flits that a retrain overtakes (R337) -/

/-- A management flit that a retrain overtakes: a change of width or a retrain request. -/
def MgmtFlit.overtaken : MgmtFlit → Bool
  | .degrade _ | .proposal _ | .acceptance _ | .retrainRequest => true
  | .identity _ | .unknown => false

/-- A flit kept over a retrain: the number of one that the retrain overtakes goes on as a flit that carries nothing (assumption 65). -/
def FlitPayload.overRetrain (f : FlitPayload) : FlitPayload :=
  match f with
  | .mgmt m => if m.overtaken then .mgmt .unknown else f
  | .idle | .fabric _ | .reserved => f

end Sys2Proof

namespace Sys2Proof.Machine

/-! ## Ports (R323, R339) -/

/-- The STATE code of LNK_STAT_n. -/
def PortState.code : PortState → Nat
  | .off => 0
  | .training => 1
  | .mgmtOnly => 2
  | .active => 3
  | .degraded => 4
  | .unrouted => 5
  | .down => 6
  | .retraining => 7

/-- A port that carries its role's traffic. -/
def PortState.carries : PortState → Bool
  | .active | .degraded => true
  | .off | .training | .mgmtOnly | .unrouted | .down | .retraining => false

/-- A trained port: its link runs. -/
def PortState.up : PortState → Bool
  | .active | .degraded | .mgmtOnly | .unrouted => true
  | .off | .training | .down | .retraining => false

/-- A fused port, or one effectively bad: it never trains (R323, R412). -/
def State.portDead (s : State) (n : Nat) : Bool := !s.facts.grade.hasPort n || s.boot.badPorts.contains n

/-- No role. -/
def noRole : BitVec 5 := 0x1F

/-- The port that holds a role and carries traffic, if any (R336, R346). -/
def State.portOfRole (s : State) (r : Nat) : Option Nat :=
  (List.range 20).find? fun n => (s.port n).state.carries && decide ((s.port n).role.toNat = r)

/-- A port carries a role, or retrains and held it when the retrain began. -/
def Port.onRole (x : Port) (r : Nat) : Bool :=
  (x.state.carries && decide (x.role.toNat = r)) || (decide (x.state = .retraining) && decide (x.lastRole.toNat = r))

/-- The lanes of a mask. -/
def laneCount (m : Byte) : Nat := ((List.range 8).filter fun i => bitAt m i).length

/-- The lane groups of R330, widest first, lowest lanes first. -/
def laneGroups : List Byte :=
  [0xFF, 0x0F, 0xF0, 0x03, 0x0C, 0x30, 0xC0, 0x01, 0x02, 0x04, 0x08, 0x10, 0x20, 0x40, 0x80]

/-- The group of R330 for a mask of healthy lanes, or none. -/
def chooseGroup (healthy : Byte) : Option Byte := laneGroups.find? fun g => decide (g &&& healthy = g)

/-- The payload rate of a width, in tenths of GB/s (R326). -/
def widthRate (w : Nat) : Nat :=
  match w with
  | 8 => 2017
  | 4 => 1009
  | 2 => 504
  | 1 => 252
  | _ => 0

/-- An event of a port on PF0's error vector, kept as LAST_STATUS (R339, R340). -/
def State.portEvent (s : State) (n : Nat) (st : Status) : State :=
  (s.modPort n fun x => { x with lastStatus := st }).pkgEvent st n

/-! ## Lanes of the receive buffers (R351) -/

/-- The flits a lane's buffer holds. -/
def laneBuffer (lane : Nat) : Nat := if lane = 2 || lane = 3 then 128 else 64

/-- The credits a transmitter holds in a lane: the peer's buffer less the flits it has not yet freed; Port.credits counts those. -/
def Port.freeCredits (x : Port) (lane : Nat) : Nat := laneBuffer lane - smapGet 0 x.credits lane

/-! ## The transmitter (R327, R352, R353) -/

/-- The first queued packet that may go: lanes 0 and 1 ahead of the others, and only with a credit. -/
def Port.nextPacket (x : Port) : Option Nat :=
  let ready (lanes : List Nat) : Option Nat :=
    x.txQueue.findIdx? fun lp => lanes.contains lp.1 && decide (0 < x.freeCredits lp.1)
  match ready [0, 1] with
  | some i => some i
  | none => ready [2, 3, 4]

/-- Put a payload in line for the lanes: it takes the next SEQ and stays in the replay buffer. -/
def Port.transmit (x : Port) (f : FlitPayload) (now : Nat) : Port :=
  { x with replayBuf := x.replayBuf ++ [(x.txSeq, f)], outBuf := x.outBuf ++ [(x.txSeq, f)], txSeq := x.txSeq + 1
           progressTime := if x.replayBuf.isEmpty then now else x.progressTime }

/-- Which packet a port sends next: its place in the queue, and the port with its turns noted. -/
abbrev Pick := Port → Option (Nat × Port)

/-- The next flit for lanes that wait for one, if the replay buffer has room: a management flit, or else a packet with a credit on a port that
carries a role (R336, R353, R355). -/
def Port.pump (x : Port) (pick : Pick) (now : Nat) : Port :=
  if !x.state.up || x.replayBuf.length ≥ 64 || !x.outBuf.isEmpty then x
  else match x.txMgmt with
    | m :: ms => { x with txMgmt := ms }.transmit (.mgmt m) now
    | [] =>
      if !x.state.carries then x
      else match pick x with
        | none => x
        | some (i, x) =>
          match x.txQueue[i]? with
          | none => x
          | some (lane, p) =>
            { x with txQueue := x.txQueue.eraseIdx i
                     credits := smapPut x.credits lane (smapGet 0 x.credits lane + 1) }.transmit (.fabric p) now

/-- The pick of a service link (R267, R400): weighted round robin over the flits of the pastures with packets queued; `owner` is the
pasture of a packet, `weight` its SVC_W. -/
def Port.servicePick (owner : FabPacket → Nat) (weight : Nat → Nat) (x : Port) : Option (Nat × Port) :=
  let ready (p : Nat) : Option Nat :=
    x.txQueue.findIdx? fun lp => decide (owner lp.2 = p) && decide (0 < x.freeCredits lp.1)
  match (if 0 < x.turnLeft then ready x.turnPas.toNat else none) with
  | some i => some (i, { x with turnLeft := x.turnLeft - 1 })
  | none =>
    match ((List.range 16).map fun i => (x.turnPas.toNat + 1 + i) % 16).find? fun p => (ready p).isSome with
    | none => none
    | some p => (ready p).map fun i => (i, { x with turnPas := BitVec.ofNat 4 p, turnLeft := weight p - 1 })

/-- The pasture whose transfer a service packet belongs to. -/
def State.serviceOwner (s : State) (p : FabPacket) : Nat :=
  match s.xfers.find? fun x => decide (x.id.tag = p.xfer) && decide (x.pas = p.win.toNat) with
  | some x => x.pas
  | none => 0

/-- Let a port transmit what it can. -/
def State.pumpPort (s : State) (n : Nat) : State :=
  let pick : Pick := if n < 18 then fun x => x.nextPacket.map (·, x)
    else Port.servicePick s.serviceOwner fun p => (s.pasture p).svcW.toNat
  s.modPort n fun x => x.pump pick s.now

/-! ## The flits on the lanes (R324, R326, R327, R351) -/

/-- Resend every flit not acknowledged, in order, before new ones (R327). -/
def Port.resend (x : Port) : Port := { x with outBuf := x.replayBuf }

/-- The lane whose freed buffer entries the next flit returns: the lowest that has any. -/
def Port.freedLane (x : Port) : Option Nat := (List.range 5).find? fun l => decide (0 < smapGet 0 x.freed l)

/-- The CREDIT field of the next flit: the lane in [24:22], the flits freed in [21:12]. -/
def Port.creditField (x : Port) : BitVec 25 :=
  match x.freedLane with
  | some l => BitVec.ofNat 25 (l * 2 ^ 22 + min 1023 (smapGet 0 x.freed l) * 2 ^ 12)
  | none => 0

/-- The flit that a port puts on its lanes next: the first in line, or an idle flit with the next number; ACK, NAK and CREDIT as they
stand. -/
def Port.nextFlit (x : Port) : LinkFlit :=
  let (seq, pay) := x.outBuf.headD (x.txSeq, .idle)
  { seq := seq, ack := x.rxSeq, nak := x.nakDue, credit := x.creditField, payload := pay }

/-- Put the next flit on the lanes: its NAK and its credits are sent. -/
def Port.putFlit (x : Port) (now : Nat) : Port :=
  { x with onLanes := [x.nextFlit], outBuf := x.outBuf.drop 1, nakDue := false, flitTime := now
           freed := match x.freedLane with
             | some l => smapPut x.freed l (smapGet 0 x.freed l - min 1023 (smapGet 0 x.freed l))
             | none => x.freed }

/-- The time of a flit at a width, in ps (R326). -/
def flitPs (w : Nat) : Nat :=
  match w with
  | 8 => 10 ^ 7 / 8268
  | 4 => 10 ^ 7 / 4134
  | 2 => 10 ^ 7 / 2067
  | _ => 10 ^ 7 / 1033

/-- A running link puts a flit on its lanes in every flit time. -/
def Port.tick (x : Port) (now : Nat) : Port :=
  if x.state.up && decide (x.flitTime + flitPs x.width.toNat ≤ now) then x.putFlit now else x

/-- Send a management flit now: the flits in line go on the lanes, and it behind them with the next number, whatever room the replay buffer
has (assumption 65). -/
def Port.sendNow (x : Port) (m : MgmtFlit) (now : Nat) : Port :=
  let x := x.transmit (.mgmt m) now
  (List.range x.outBuf.length).foldl (fun y _ =>
    let z := y.putFlit now
    { z with onLanes := y.onLanes ++ z.onLanes }) { x with onLanes := [] }

/-- Queue a management flit. -/
def State.sendMgmt (s : State) (n : Nat) (m : MgmtFlit) : State :=
  (s.modPort n fun x => { x with txMgmt := x.txMgmt ++ [m] }).pumpPort n

/-! ## Reservations (R353, R354) -/

/-- The sum of the ordered reservations of every pasture on a role, in GB/s. -/
def State.reserved (s : State) (role : Nat) : Nat :=
  ((List.range 16).map fun p => (smapGet 0 (s.pasture p).ordRes role).toNat).foldl (· + ·) 0

/-- The payload rate of a role at its present width, in tenths of GB/s; none where no port carries it. -/
def State.roleRate (s : State) (role : Nat) : Nat :=
  match s.portOfRole role with
  | some n => widthRate (s.port n).width.toNat
  | none => 0

/-- R353 holds on a role for a sum of reservations: at most 75 % of the rate. -/
def State.ordFits (s : State) (role sum : Nat) : Bool := decide (40 * sum ≤ 3 * s.roleRate role)

/-- The time between two ordered packets of a pasture on a role, in ps, at its reservation of `res` GB/s (R353); where the reservations no
longer fit, the pace is scaled so that their sum is 75 % of the rate (R354). A packet's flit carries 244 bytes of payload. -/
def State.paceTime (s : State) (role res : Nat) : Nat :=
  let sum := s.reserved role
  if s.ordFits role sum then 244000 / res else 244000 * 40 * sum / (3 * s.roleRate role * res)

/-- Recheck a role's reservations after its rate changed (R354): where they no longer fit, ORD_OK goes to 0 with an event. -/
def State.recheckOrd (s : State) (role : Nat) : State :=
  if role ≥ 18 then s
  else
    let sum := s.reserved role
    let ok := sum = 0 || s.ordFits role sum
    let was := (s.port role).ordOk
    let s := s.modPort role fun x => { x with ordOk := ok }
    if was && !ok then (s.noteCauseAll St.FAB_ORD_OVERCOMMIT).pkgEvent St.FAB_ORD_OVERCOMMIT role else s

end Sys2Proof.Machine
end

