-- ==== Sys2Proof/Machine/Fabric.lean ====
section
/-!
DEFINITION. Fabric routing: flock membership, rank and routing tables, forwarding, holds after swaps and lost roles, ordered
reservations (R341 to R354).
-/
namespace Sys2Proof.Machine

/-! ## Packets (R344) -/

/-- A control packet of the bulk class. -/
def controlPacket (ptype : Byte) (dst src flock : BitVec 16) (rank : BitVec 12) (win : BitVec 6) (xfer : BitVec 32)
    (count : BitVec 32) (status : Status) : FabPacket :=
  FabPacket.sealed
  { ptype := ptype, cls := 1, chan := 0, last := false, drove := false, hops := 32, dstChip := dst, srcChip := src, flock := flock,
    srcRank := rank, win := win, drv := 0, oseq := 0, xfer := xfer, offset := 0, count := count, status := status, e2e := 0,
    dateline := false, data := [] }

/-- The pasture whose started flock has a packet's FLOCK (R347). -/
def State.pasOfFlock (s : State) (flock : BitVec 16) : Option Nat :=
  (List.range 16).find? fun p => (s.pasture p).started && decide ((s.pasture p).flockId = flock)

/-! ## Tables (R342, R346, R435) -/

/-- A table entry that reads as not valid. -/
def invalidEntry (e : BitVec 32) : BitVec 32 := e &&& 0x7FFFFFFF

/-- Read an entry of the active routing table; one with a parity error reads as not valid from then on (R435). -/
def State.routeEntry (s : State) (chip : BitVec 16) : State × BitVec 32 :=
  let i := chip.toNat
  if s.fabric.badRoutes.contains i then
    let f := s.fabric
    let s := { s with fabric := { f with
      badRoutes := f.badRoutes.erase i
      route0 := smapPut f.route0 i (invalidEntry (smapGet 0 f.route0 i))
      route1 := smapPut f.route1 i (invalidEntry (smapGet 0 f.route1 i)) } }
    (s.pkgEvent St.FAB_TABLE_PARITY i, 0)
  else (s, smapGet 0 (if s.fabric.routeActive then s.fabric.route1 else s.fabric.route0) i)

/-- The entry of the copy not active. -/
def State.otherEntry (s : State) (chip : BitVec 16) : BitVec 32 :=
  smapGet 0 (if s.fabric.routeActive then s.fabric.route0 else s.fabric.route1) chip.toNat

/-- The chip of a rank by pasture p's active rank table; none where the entry is not valid. -/
def State.rankChip (s : State) (p r : Nat) : State × Option (BitVec 16) :=
  let x := s.pasture p
  if x.badRanks.contains r then
    let s := s.modPas p fun x =>
      { x with badRanks := x.badRanks.erase r
               rank0 := smapPut x.rank0 r (invalidEntry (smapGet 0 x.rank0 r))
               rank1 := smapPut x.rank1 r (invalidEntry (smapGet 0 x.rank1 r)) }
    (s.pasEvent p St.FAB_TABLE_PARITY r, none)
  else
    let e := smapGet 0 (if x.rankActive then x.rank1 else x.rank0) r
    (s, if bitAt e 31 then some (BitVec.ofNat 16 (field e 15 0)) else none)

/-! ## Choosing a way (R348) -/

/-- What becomes of a packet at an engine. -/
inductive Route where
  | noRoute | deliver | port (n : Nat) | hold (why : HoldReason)
deriving DecidableEq, Repr

/-- The lane a packet takes on a role: past a dateline role it changes lane (R351). -/
def State.packetOn (s : State) (role : Nat) (p : FabPacket) : FabPacket := { p with dateline := p.dateline || (s.port role).dateline }

/-- The role a bulk packet takes: the one with most free credits in its lane, the lowest of equals. -/
def State.bulkRole (s : State) (mask : Nat) (p : FabPacket) : Option Nat :=
  let free (r : Nat) : Option Nat := (s.portOfRole r).map fun n => (s.port n).freeCredits (s.packetOn r p).lane
  ((List.range 18).foldl (fun (best : Option (Nat × Nat)) r =>
    if mask.testBit r then
      match free r, best with
      | some c, some (b, _) => if b < c then some (c, r) else best
      | some c, none => some (c, r)
      | none, _ => best
    else best) none).map (·.2)

/-- The capacity of a logical port (R338): the sum of its carrying members' payload rates, in tenths of GB/s. -/
def State.lportRate (s : State) (m : Nat) : Nat :=
  (((List.range 18).filter fun r => bitAt (smapGet 0 s.links.lports m) r).map s.roleRate).foldl (· + ·) 0

/-- The carrying members of a logical port in ascending role order. -/
def State.lportMembers (s : State) (m : Nat) : List Nat :=
  let ms := smapGet 0 s.links.lports m
  (List.range 18).filter fun r => bitAt ms r && (s.portOfRole r).isSome

/-- The old member of a logical port still holds packets of a flow: flits it sent before the members changed are not acknowledged, packets
of the flow are queued or not acknowledged on it, or held since it was lost. The port of a member that retrains is the one that held its
role. -/
def State.memberBusy (s : State) (old : Nat) (p : FabPacket) : Bool :=
  (s.fabric.held.any fun h => decide (h.pkt.cls = 0) && !h.pkt.drove && decide (h.pkt.flowKey = p.flowKey))
    || (List.range 18).any fun n =>
      let x := s.port n
      x.onRole old && (decide (0 < x.sentBefore) || x.replayBuf.any (·.2.sameFlow p)
        || x.txQueue.any fun lp => decide (lp.2.flowKey = p.flowKey))

/-- The way of an ordered packet: its ORD role, or its member of the logical port; a flow whose member changes waits for the
acknowledgment of all that went before. -/
def State.orderedRoute (s : State) (e : BitVec 32) (p : FabPacket) : Route :=
  let o := field e 28 24
  if bitAt e 29 then
    let ms := s.lportMembers (o % 16)
    match ms[(p.srcChip.toNat + p.dstChip.toNat + p.chan.toNat) % ms.length]? with
    | none => .hold (.lost ((((List.range 18).find? fun r => bitAt (smapGet 0 s.links.lports (o % 16)) r)).getD 0))
    | some r =>
      match s.portOfRole r with
      | none => .hold (.lost r)
      | some n =>
        match smapFind s.fabric.ordMember p.flowKey with
        | some old => if old ≠ r && s.memberBusy old p then .hold .member else .port n
        | none => .port n
  else match s.portOfRole o with
    | some n => .port n
    | none => .hold (.lost o)

/-- What becomes of a packet by its routing entry. -/
def State.routeOf (s : State) (e : BitVec 32) (p : FabPacket) : Route :=
  if !bitAt e 31 then .noRoute
  else if bitAt e 30 then .deliver
  else if p.cls = 0 then
    if s.fabric.draining && decide (field e 29 24 ≠ field (s.otherEntry p.dstChip) 29 24) then .hold .drain
    else s.orderedRoute e p
  else
    let mask := field e 17 0
    match s.bulkRole mask p with
    | some r => (match s.portOfRole r with | some n => .port n | none => .hold (.lost r))
    | none => .hold (.lost (((List.range 18).find? fun r => mask.testBit r).getD 0))

/-! ## Sending, holding, dropping, delivering -/

/-- Queue a packet on a port for transmission. -/
def State.queueOn (s : State) (n : Nat) (p : FabPacket) : State :=
  let role := (s.port n).role.toNat
  let p := s.packetOn role p
  let s := if p.cls = 0 then { s with fabric := { s.fabric with ordMember := smapPut s.fabric.ordMember p.flowKey role } } else s
  (s.modPort n fun x => { x with txQueue := x.txQueue ++ [(p.lane, p)] }).pumpPort n

/-- The pasture that formed an ordered packet here, whose reservation paces its first hop (R353). -/
def State.pacedBy (s : State) (p : FabPacket) : Option Nat :=
  if p.cls = 0 && decide (p.srcChip = s.chipId) then s.pasOfFlock p.flock else none

/-- Hold a packet. -/
def State.holdPacket (s : State) (since : Nat) (why : HoldReason) (p : FabPacket) : State :=
  { s with fabric := { s.fabric with held := s.fabric.held ++ [{ since := since, why := why, pkt := p }] } }

/-- Put a packet on a port: at once, but for an ordered packet on its first hop, which waits for its pasture's pace and behind those that
wait; a pasture without a reservation on the role has no pace, and its packets wait for one (R353). -/
def State.putOn (s : State) (n : Nat) (p : FabPacket) : State :=
  let role := (s.port n).role.toNat
  match s.pacedBy p with
  | none => s.queueOn n p
  | some q =>
    let x := s.pasture q
    let res := (smapGet 0 x.ordRes role).toNat
    let behind := s.fabric.held.any fun h => decide (h.why = .pace role) && decide (h.pkt.flock = p.flock)
    if res = 0 || behind || decide (s.now < smapGet 0 x.ordNext role) then s.holdPacket s.now (.pace role) p
    else (s.modPas q fun x => { x with ordNext := smapPut x.ordNext role (s.now + s.paceTime role res) }).queueOn n p

/-- A packet for which there is no route (R347): dropped, counted at the engine, and an event. -/
def State.dropNoRoute (s : State) (n : Nat) : State :=
  (s.modPort n fun x => { x with noRoute := satInc x.noRoute }).pkgEvent St.FAB_NO_ROUTE n

/-- A packet of a reserved type or class (R345). -/
def State.dropBad (s : State) : State := { s with fabric := { s.fabric with badPkt := s.fabric.badPkt + 1 } }

/-- Hand a packet to the package's own pastures: checked by E2E_CRC, it waits in `inq`. -/
def State.accept (s : State) (pas : Option Nat) (n : Nat) (p : FabPacket) : State :=
  if p.e2eOk then { s with fabric := { s.fabric with inq := s.fabric.inq ++ [p] } }
  else
    let s := match pas with
      | some q => s.modPas q fun x => { x with e2eFail := satInc x.e2eFail }
      | none => s
    s.pkgEvent St.FAB_E2E_CRC n

/-- Copy a drove packet to every tree role but the one it came on (R367). -/
def State.copyToRoles (s : State) (mask : BitVec 18) (arr : Option Nat) (p : FabPacket) : State :=
  ((List.range 18).filter fun r => bitAt mask r && decide (arr ≠ some r)).foldl (fun s r =>
    match s.portOfRole r with
    | some n => s.putOn n p
    | none => s.holdPacket s.now (.lost r) p) s

/-- Send a packet on the way its entry gives; `n` is the engine that counts a drop. A packet to this chip whose flock no pasture
has is answered with a NAK, which follows its own entry. -/
def State.sendVia (s : State) (n : Nat) (p : FabPacket) : State :=
  let (s, e) := s.routeEntry p.dstChip
  match s.routeOf e p with
  | .noRoute => s.dropNoRoute n
  | .port m => s.putOn m p
  | .hold why => s.holdPacket s.now why p
  | .deliver => s.accept (s.pasOfFlock p.flock) n p

/-- A NAK of a packet, to its sender. -/
def State.nakPacket (s : State) (pas : Option Nat) (p : FabPacket) (st : Status) : FabPacket :=
  controlPacket 0x05 p.srcChip s.chipId p.flock (match pas with | some q => (s.pasture q).selfRank | none => 0) p.win p.xfer 0 st

/-- The engine's treatment of a packet that has reached its destination chip: no pasture of the flock, and it is answered. -/
def State.arriveHere (s : State) (n : Nat) (p : FabPacket) : State :=
  match s.pasOfFlock p.flock with
  | some q => s.accept (some q) n p
  | none =>
    if !p.e2eOk then s.pkgEvent St.FAB_E2E_CRC n
    else if p.unanswered then s
    else s.sendVia n (s.nakPacket none p St.FAB_NO_PASTURE)

/-- A link engine's treatment of a packet (R347): `arr` is the role it came on, none for one formed here. -/
def State.forward (s : State) (arr : Option Nat) (n : Nat) (p : FabPacket) : State :=
  if p.isBad || p.cls = 2 then s.dropBad
  else
    let hops := if arr.isSome then p.hops - 1 else p.hops
    if hops = 0 then
      (s.modPort n fun x => { x with hopsDrops := satInc x.hopsDrops }).pkgEvent St.FAB_HOPS_EXPIRED n
    else
      let p := if arr.isSome then p.withHops hops else p
      if p.drove then
        let d : Drove := smapGet {} s.fabric.droves p.drv.toNat
        if !d.valid then s.dropNoRoute n
        else
          let s := s.copyToRoles d.fwd arr p
          if arr.isSome && d.isLocal then s.accept (some d.localPas.toNat) n p else s
      else
        let (s', e) := s.routeEntry p.dstChip
        match s'.routeOf e p with
        | .deliver => s'.arriveHere n p
        | .noRoute => s'.dropNoRoute n
        | .port m => s'.putOn m p
        | .hold why => s'.holdPacket s'.now why p

/-- Send a packet formed in this package; the engine that counts a drop is the one nearest the source, which is free. -/
def State.emit (s : State) (p : FabPacket) : State :=
  let (n, s) := s.draw
  s.forward none (n % 18) p

/-- PACKET_FORWARD (R347): the packet at the head of a receive lane; its buffer entry is freed. On a service port only a packet that is no
service packet goes so, and is dropped as bad (R345, R355); a service packet waits for SVC_DATA or SVC_ACK. -/
def execPacketForward (n : PortId) (lane : Fin 5) (s : State) : Out :=
  let x := s.port n.val
  match smapGet [] x.rxLanes lane.val with
  | [] => nothing s
  | p :: rest =>
    if n.val ≥ 18 && p.cls = 2 && !p.isBad then nothing s
    else
      let s := s.modPort n.val fun x =>
        { x with rxLanes := smapPut x.rxLanes lane.val rest, freed := smapPut x.freed lane.val (smapGet 0 x.freed lane.val + 1) }
      .next (if n.val ≥ 18 then s.dropBad else s.forward (some x.role.toNat) n.val p)

/-! ## Held packets -/

/-- Try a held packet again: it goes, or stays held for the reason it now has, since the same time where its role was
lost or a drain kept it. -/
def State.retryPacket (s : State) (h : HeldPacket) : State :=
  let keep (s : State) : State := s.holdPacket h.since h.why h.pkt
  if h.pkt.drove then
    match h.why with
    | .lost r | .pace r => (match s.portOfRole r with | some n => s.putOn n h.pkt | none => keep s)
    | .drain | .member => keep s
  else
    let (s, e) := s.routeEntry h.pkt.dstChip
    match s.routeOf e h.pkt with
    | .port n => s.putOn n h.pkt
    | .hold why =>
      let since := match h.why with
        | .lost _ | .drain => h.since
        | .member | .pace _ => s.now
      s.holdPacket since why h.pkt
    | .noRoute => s.dropNoRoute 0
    | .deliver => s.arriveHere 0 h.pkt

/-- Try the held packets that satisfy `p` again, in order; the others stay. -/
def State.retryHeld (s : State) (p : HeldPacket → Bool) : State :=
  let hs := s.fabric.held
  let s := { s with fabric := { s.fabric with held := hs.filter fun h => !p h } }
  (hs.filter p).foldl (fun s h => s.retryPacket h) s

/-- Held packets that do not wait for a drain. -/
def HeldPacket.waitsRole (h : HeldPacket) : Bool := decide (h.why ≠ .drain)

/-- A flow's packets that wait for the acknowledgment of its old member go once that has come (R348). -/
def State.retryMembers (s : State) : State :=
  if s.fabric.held.any fun h => decide (h.why = .member) then s.retryHeld fun h => decide (h.why = .member) else s

/-- Ordered packets whose time on a paced role has come go (R353). -/
def State.retryPaced (s : State) : State :=
  let due (h : HeldPacket) : Bool := match h.why with
    | .pace r => (match s.pacedBy h.pkt with
      | some q => smapGet 0 (s.pasture q).ordRes r ≠ 0 && decide (smapGet 0 (s.pasture q).ordNext r ≤ s.now)
      | none => true)
    | .drain | .member | .lost _ => false
  if s.fabric.held.any due then s.retryHeld due else s

/-- The packets a port that has lost its role still holds go elsewhere (R350): bulk ones by their entry, ordered ones are held. -/
def State.rehome (s : State) (role : Nat) (ps : List FabPacket) : State :=
  ps.foldl (fun s p =>
    if p.cls = 0 || p.drove then s.holdPacket s.now (.lost role) p
    else s.sendVia role p) s

/-- The packets queued and not acknowledged at a port. -/
def Port.undelivered (x : Port) : List FabPacket :=
  (x.replayBuf.filterMap fun f => match f.2 with | .fabric p => some p | .idle | .mgmt _ | .reserved => none)
    ++ x.txQueue.map (·.2)

/-- ORD_HOLD_EXPIRY (R350): packets held ORD_HOLD_US for a role are dropped, counted and reported. -/
def execOrdHoldExpiry (n : PortId) (s : State) : Out :=
  let late (h : HeldPacket) : Bool :=
    decide (h.why = HoldReason.lost n.val) && decide (s.fabric.ordHoldUs.toNat * usT ≤ s.now - h.since)
  let k := (s.fabric.held.filter late).length
  if k = 0 then nothing s
  else
    let s := { s with fabric := { s.fabric with held := s.fabric.held.filter fun h => !late h } }
    .next ((List.range k).foldl (fun s _ =>
      (s.modPort n.val fun x => { x with routeLost := satInc x.routeLost }).pkgEvent St.FAB_ROUTE_LOST n.val) s)

/-- ORD_DRAIN_EXPIRY (R349, R350): ORD_DRAIN after a swap, the held packets follow the new copy, those of a lost role among them. -/
def execOrdDrainExpiry (s : State) : Out :=
  if s.fabric.draining && decide (s.fabric.ordDrain.toNat * usT ≤ s.now - s.fabric.swapTime) then
    .next (({ s with fabric := { s.fabric with draining := false } }).retryHeld fun _ => true)
  else nothing s

/-! ## Swaps (R342, R349) -/

/-- The peers of a logical port's member roles by the committed plan. -/
def State.lportPeers (s : State) (m : Nat) : List (BitVec 16) :=
  match s.links.plan with
  | none => []
  | some pl =>
    (((List.range 18).filter fun r => bitAt (smapGet 0 s.links.lports m) r).map fun r => (pl.entries.getD r {}).peerChip).eraseDups

/-- An entry of the shadow that names a logical port with members of different peers (R349). -/
def State.swapBad (s : State) : Bool :=
  let shadow := if s.fabric.routeActive then s.fabric.route0 else s.fabric.route1
  shadow.any fun kv => bitAt kv.2 29 && decide (1 < (s.lportPeers (field kv.2 28 24 % 16)).length)

/-- Swap the routing copies, or refuse. -/
def State.swapRoutes (s : State) : State :=
  let f := s.fabric
  if s.swapBad then { s with fabric := { f with routeStatus := St.FAB_ROUTE_LPORT } }
  else
    ({ s with fabric := { f with routeActive := !f.routeActive, routeStatus := St.OK, draining := true,
                                 swapTime := s.now } }).retryHeld HeldPacket.waitsRole

/-- ROUTE_SWAP (R349): SWAP in FAB_ROUTE_CTL. With TRIG_EN = 1 the swap takes place instead as FLAG_CHANGE says, when the trigger flag
is set. -/
def execRouteSwap (s : State) : Out := if s.fabric.routeTrigEn then nothing s else .next s.swapRoutes

/-- A function that may write pasture p's page: PF0, or the VF bound to it (R377, R381). -/
def State.mayWrite (s : State) (fn p : Nat) : Bool := fn = 0 || (fn = p && s.fnOn fn)

/-- Exchange the rank-table copies of a pasture. -/
def State.swapRanks (s : State) (p : Nat) : State := s.modPas p fun x => { x with rankActive := !x.rankActive }

/-- RANK_SWAP (R342): RANK_SWAP in FAB_PAS_TBL. -/
def execRankSwap (fn : FnId) (p : PasId) (s : State) : Out :=
  if s.mayWrite fn.val p.val then .next (s.swapRanks p.val) else nothing s

/-! ## Flocks (R343) -/

/-- The active rank-table entry. -/
def Pasture.rankEntry (x : Pasture) (r : Nat) : BitVec 32 :=
  if x.badRanks.contains r then 0 else smapGet 0 (if x.rankActive then x.rank1 else x.rank0) r

/-- The checks of START. -/
def State.flockOk (s : State) (p : Nat) : Bool :=
  let x := s.pasture p
  let own := x.rankEntry x.selfRank.toNat
  let ms := (List.range x.flockSize.toNat).map x.rankEntry
  decide (s.links.planState = 2) && bitAt own 31 && decide (field own 15 0 = s.chipId.toNat)
    && ms.all (bitAt · 31) && decide ((ms.map fun e => field e 15 0).Nodup) && decide (x.flockId ≠ 0)

/-- The active rank-table entries of some ranks are read: one with a parity error is found (R435). -/
def State.checkRanks (s : State) (p : Nat) (rs : List Nat) : State := rs.foldl (fun s r => (s.rankChip p r).1) s

/-- FLOCK_START (R343). -/
def execFlockStart (fn : FnId) (p : PasId) (s : State) : Out :=
  if !s.mayWrite fn.val p.val then nothing s
  else
  let x := s.pasture p.val
  let s := s.checkRanks p.val (x.selfRank.toNat :: List.range x.flockSize.toNat)
  if s.flockOk p.val then
    .next (s.modPas p.val fun x => { x with started := true, flockStatus := St.OK, nextOseq := [], sendOseq := [] })
  else .next (s.modPas p.val fun x => { x with flockStatus := St.FAB_FLOCK_START })

/-- FLOCK_STOP (R343): refused while a run is queued or in progress. -/
def execFlockStop (fn : FnId) (p : PasId) (s : State) : Out :=
  if !s.mayWrite fn.val p.val then nothing s
  else if !(s.pasture p.val).runs.isEmpty then .next (s.modPas p.val fun x => { x with flockStatus := St.FAB_FLOCK_BUSY })
  else .next (s.modPas p.val fun x => { x with started := false, flockStatus := St.OK })

/-! ## Reservations (R353) -/

/-- The roles of FAB_PAS_ORD_k. -/
def ordRoles (k : Nat) : List Nat := if k = 2 then [16, 17] else (List.range 8).map (· + 8 * k)

/-- ORD_RESERVATION_WRITE (R353): ignored and recorded where a role's reservations would exceed 75 % of its rate. -/
def execOrdReservationWrite (fn : FnId) (p : PasId) (k : Fin 3) (value : Word) (s : State) : Out :=
  if !s.mayWrite fn.val p.val then nothing s
  else
    let new (r : Nat) : Byte := BitVec.ofNat 8 (value.toNat / 2 ^ (8 * (r % 8)))
    let s' := s.modPas p.val fun x => { x with ordRes := (ordRoles k.val).foldl (fun m r => smapPut m r (new r)) x.ordRes }
    let tooMuch := (ordRoles k.val).any fun r =>
      decide (smapGet 0 (s.pasture p.val).ordRes r < new r) && !s'.ordFits r (s'.reserved r)
    if tooMuch then .next (s.modPas p.val fun x => { x with flockStatus := St.FAB_ORD_OVERCOMMIT })
    else .next ((ordRoles k.val).foldl (fun s r => s.recheckOrd r) s')

end Sys2Proof.Machine
end

