-- ==== Sys2Proof/Machine/Windows.lean ====
section
/-!
DEFINITION. Windows, trackers, credits at the receiver, landing, and waypoints (R209, R210, R356 to R363, R370, R371).
-/
namespace Sys2Proof.Machine

/-! ## Windows -/

/-- Window w of a pasture. -/
def Pasture.window (x : Pasture) (w : Nat) : Window := smapGet {} x.windows w
/-- Replace a window. -/
def State.putWindow (s : State) (p w : Nat) (y : Window) : State := s.modPas p fun x => { x with windows := smapPut x.windows w y }
/-- Change a window. -/
def State.modWindow (s : State) (p w : Nat) (f : Window → Window) : State := s.putWindow p w (f ((s.pasture p).window w))

/-- The window is open. -/
def Window.isOpen (y : Window) : Bool := decide (y.state = 1)

/-- A rank may write the window (R209). -/
def Window.allows (y : Window) (r : Nat) : Bool :=
  if y.list then y.ranks.contains r else decide (y.rankLo ≤ r) && decide (r ≤ y.rankHi)

/-- The ranks a window allows. -/
def Window.allowed (y : Window) : List Nat :=
  if y.list then y.ranks.eraseDups else (List.range (y.rankHi + 1)).filter fun r => decide (y.rankLo ≤ r)

/-- Every byte of a stack range is in window and in a group with XFER = 1, judged by 64-byte lines. A group under clear is not yet its new
owner's to use (R250; assumption 115). -/
def State.xferRange (s : State) (p a n : Nat) : Bool :=
  (List.range ((n + 63) / 64)).all fun i =>
    match s.stackPlace p ((a + 64 * i : Nat) : Int) with
    | some (g, _) => (s.groupOwn g).xfer && !(s.groupOwn g).clearing
    | none => false

/-- The window WINOPEN describes, opened by a tile. -/
def openWindow (ws : List Word) (k : Nat) : Window :=
  { state := 1, landing := dBit ws 1 57, opener := k, base := dField ws 2 38 0, size := dField ws 2 63 44,
    list := dBit ws 1 56, rankLo := dField ws 1 55 44, rankHi := dField ws 1 43 32,
    ranks := (List.range (dField ws 3 63 60)).map fun i => dField ws 3 (12 * i + 11) (12 * i),
    pool := BitVec.ofNat 20 (dField ws 4 63 44) }

/-- The fault of a WINOPEN (R356). -/
def State.winFault (s : State) (p : Nat) (old new : Window) : Option Status :=
  if new.landing && (decide (new.size = 0) || decide (new.base + new.size * 4096 > 2 ^ 18)) then some St.FAB_WIN_RANGE
  else if !new.landing && !s.xferRange p new.base (new.size * 4096) then some St.FAB_WIN_RANGE
  else if old.isOpen && !(old.landing = new.landing && old.base = new.base && old.size = new.size && old.opener = new.opener) then
    some St.FAB_WIN_REOPEN
  else none

/-- Send a control packet of pasture p to a chip. -/
def State.emitControl (s : State) (p : Nat) (ptype : Byte) (dst : BitVec 16) (w : BitVec 6) (xfer count : BitVec 32) : State :=
  let x := s.pasture p
  s.emit (controlPacket ptype dst s.chipId x.flockId x.selfRank w xfer count St.OK)

/-- Serve a window's grant queue in order of arrival (R358): the head is granted while POOL and a tracker suffice. -/
def State.serveQueue (s : State) (p w : Nat) : Nat → State
  | 0 => s
  | n + 1 =>
    let x := s.pasture p
    let y := x.window w
    match y.queue with
    | [] => s
    | (rank, xfer, u, chip) :: rest =>
      if y.pool.toNat < u || x.trackers.length ≥ 1024 then s
      else
        let s := s.putWindow p w { y with queue := rest, pool := y.pool - BitVec.ofNat 20 u, held := y.held + BitVec.ofNat 20 u }
        let s := s.modPas p fun x => { x with
          trackers := x.trackers ++ [{ win := w, rank := rank, xfer := xfer, units := u, chip := chip, time := s.now }] }
        (s.emitControl p 0x03 chip (BitVec.ofNat 6 w) xfer (BitVec.ofNat 32 u)).serveQueue p w n

/-- Serve the whole queue. -/
def State.serveWindow (s : State) (p w : Nat) : State := s.serveQueue p w ((s.pasture p).window w).queue.length

/-- Serve the queues of every window of a pasture: a tracker freed in one may serve a request of another (R358). -/
def State.serveWindows (s : State) (p : Nat) : State :=
  (s.pasture p).windows.foldl (fun s kv => s.serveWindow p kv.1) s

/-- Open or rearm (R356). -/
def State.winOpen (s : State) (p w : Nat) (new : Window) : State :=
  let old := (s.pasture p).window w
  if old.isOpen then
    (s.putWindow p w { old with pool := old.pool + old.doneUnits, doneUnits := 0, arrivals := 0, doneRanks := [] }).serveWindow p w
  else s.putWindow p w new

/-- WINOPEN (R356): checked at its issue beat, then opened or rearmed. -/
def execWinopen (vx : Vx) (vy : Vy) (s : State) : Out :=
  let k := tileKey vx vy
  s.issueDesc k (fun ws => decide (opOf ws = 0x14)) fun s ws =>
    if !(s.tile k).acts ws then .next (s.issueTile k ws id)
    else
      match s.pasOf vx.val with
      | none => nothing s
      | some p =>
        let w := dField ws 1 63 58
        match s.winFault p ((s.pasture p).window w) (openWindow ws k) with
        | some st => .next (s.stopTile k st)
        | none => .next ((s.issueTile k ws id).winOpen p w (openWindow ws k))

/-- Close a window: its trackers and queued requests are discarded (R361); its registers but STATE stay. -/
def State.winClose (s : State) (p w : Nat) (state : BitVec 2) : State :=
  let y := (s.pasture p).window w
  if y.isOpen then
    ((s.putWindow p w { y with state := state, queue := [], held := 0 }).modPas p fun x =>
      { x with trackers := x.trackers.filter fun t => decide (t.win ≠ w) }).serveWindows p
  else s

/-- WINCLOSE (R361). -/
def execWinclose (vx : Vx) (vy : Vy) (s : State) : Out :=
  let k := tileKey vx vy
  s.issueDesc k (fun ws => decide (opOf ws = 0x15)) fun s ws =>
    match s.pasOf vx.val with
    | none => nothing s
    | some p =>
      let s' := s.issueTile k ws id
      .next (if (s.tile k).acts ws then s'.winClose p (dField ws 1 63 58) 0 else s')

/-- A reset of the receiving pasture (R361, R374): open windows are closed by reset, and the counters are cleared. -/
def State.resetWindows (s : State) (p : Nat) : State :=
  s.modPas p fun x =>
    { x with
      windows := smapMap (fun _ y => { y with
        state := if y.isOpen then 2 else y.state
        pool := 0, held := 0, doneUnits := 0, arrivals := 0, queue := [], doneRanks := [] }) x.windows
      trackers := [], winWaiters := [] }

/-! ## Packets for windows -/

/-- Two packets of one ordered stream (R353). -/
def sameStream (a b : FabPacket) : Bool :=
  a.cls = 0 && b.cls = 0 && a.srcChip = b.srcChip && a.flock = b.flock && a.srcRank = b.srcRank && a.chan = b.chan

/-- The delivered packet at place i, if it has the type and no earlier one of its ordered stream waits before it. -/
def State.takePacket (s : State) (i : Nat) (ptype : Byte) : Option (FabPacket × State) :=
  match s.fabric.inq[i]? with
  | none => none
  | some p =>
    if p.ptype ≠ ptype || (s.fabric.inq.take i).any (sameStream p) then none
    else some (p, { s with fabric := { s.fabric with inq := s.fabric.inq.eraseIdx i } })

/-- Answer a packet with a NAK from a pasture's window, counted in NAK_SENT. -/
def State.windowNak (s : State) (q : Nat) (p : FabPacket) (st : Status) : State :=
  (s.modPas q fun x => { x with fabNakSent := satInc x.fabNakSent }).emit (s.nakPacket (some q) p st)

/-- A transfer's tracker. -/
def Pasture.tracker (x : Pasture) (w : Nat) (rank : BitVec 12) (xfer : BitVec 32) : Option Tracker :=
  x.trackers.find? fun t => decide (t.win = w) && decide (t.rank = rank) && decide (t.xfer = xfer)

/-- Change a tracker. -/
def Pasture.modTracker (x : Pasture) (t : Tracker) (f : Tracker → Tracker) : Pasture :=
  { x with trackers := x.trackers.map fun o =>
      if o.win = t.win && o.rank = t.rank && o.xfer = t.xfer then f o else o }

/-- Remove a tracker. -/
def Pasture.dropTracker (x : Pasture) (t : Tracker) : Pasture :=
  { x with trackers := x.trackers.filter fun o => !(o.win = t.win && o.rank = t.rank && o.xfer = t.xfer) }

/-- The key of the expected sequence number (R344): the source and channel, and for a drove packet the drove. -/
def oseqKey (p : FabPacket) : Nat :=
  (p.srcRank.toNat * 16 + p.chan.toNat) * 512 + (if p.drove then 256 + p.drv.toNat else 0)

/-- The check of OSEQ (R349): whether an ordered packet is the next of its stream; the next expected follows it. -/
def State.checkOseq (s : State) (q : Nat) (p : FabPacket) : State × Bool :=
  if p.cls ≠ 0 then (s, true)
  else
    let x := s.pasture q
    let ok := decide (smapGet 0 x.nextOseq (oseqKey p) = p.oseq)
    let s := s.modPas q fun x => { x with nextOseq := smapPut x.nextOseq (oseqKey p) (p.oseq + 1) }
    if ok then (s, true)
    else ((s.modPas q fun x => { x with orderBreaks := satInc x.orderBreaks }).pasEvent q St.FAB_ORDER_BREAK p.srcRank.toNat, false)

/-- The NAK of a DATA packet (R360), apart from its tracker. -/
def State.dataNak (s : State) (q : Nat) (y : Window) (p : FabPacket) : Option Status :=
  if y.state = 2 then some St.FAB_TARGET_RESETTING
  else if !y.isOpen then some St.FAB_WIN_CLOSED
  else if !y.allows p.srcRank.toNat then some St.FAB_WIN_RANK
  else if p.offset.toNat + p.data.length > y.size * 4096 then some St.FAB_WIN_BOUNDS
  else if !y.landing && !s.xferRange q (y.base + p.offset.toNat) p.data.length then some St.FAB_WIN_XFER
  else none

/-- Write bytes to a pasture's stack addresses, line by line, as transfer traffic: with fresh check bits, and over what scheduled writes
left there. -/
def State.stackWrite (s : State) (q a : Nat) (bs : List Byte) : State :=
  (List.range ((bs.length + 63) / 64)).foldl (fun s i =>
    match s.stackPlace q ((a + 64 * i : Nat) : Int) with
    | some (g, off) => ({ s with
        stackMem := memWrite s.stackMem (stackKey g off) ((bs.drop (64 * i)).take 64)
        bursts := smapDrop s.bursts (stackKey g off) }).dropCmds fun c => c.write && decide (c.group = g) && decide (c.off = off)
    | none => s) s

/-- The packet as one that waits for a line. -/
def packetWaiter (p : FabPacket) : Waiter := .packet p.srcRank p.xfer p.offset

/-- Land a packet's data in its window (R357): through the opening tile's ring port, or as transfer traffic of the stack port. -/
def State.landData (s : State) (q : Nat) (y : Window) (p : FabPacket) : State × SideResult :=
  let a := y.base + p.offset.toNat
  if y.landing then s.sideWrite y.opener .landing a p.data (packetWaiter p)
  else (s.stackWrite q a p.data, .ok [])

/-- The packet's data cannot land in the opening tile's beat in progress (R119). -/
def State.landBusy (s : State) (y : Window) (p : FabPacket) : Bool :=
  y.landing && s.rangeWaits y.opener .landing (y.base + p.offset.toNat) p.data.length

/-- A DATA packet at its pasture (R360, R357): refused, or landed with a landing notice to the bellwether. -/
def State.receiveData (s : State) (q : Nat) (p : FabPacket) : State :=
  let (s, inOrder) := s.checkOseq q p
  let w := p.win.toNat
  let y := (s.pasture q).window w
  let tr := (s.pasture q).tracker w p.srcRank p.xfer
  if p.drove && tr.isNone then s.modPas q fun x => { x with drovePruned := satInc x.drovePruned }
  else
    match s.dataNak q y p, tr with
    | some st, _ => s.windowNak q p st
    | none, none => s.windowNak q p St.FAB_CREDIT_OVERRUN
    | none, some t =>
      if t.accepted + p.data.length > t.units * 4096 then s.windowNak q p St.FAB_CREDIT_OVERRUN
      else
        let s := s.modPas q fun x => x.modTracker t fun t =>
          { t with accepted := t.accepted + p.data.length, time := s.now, broken := t.broken || !inOrder }
        match s.landData q y p with
        | (s, .refused st) => s.windowNak q p st
        | (s, .ok _) =>
          s.send (.landed q w p.srcRank.toNat p.xfer p.data.length (if p.last then some p.count.toNat else none))

/-- The pasture a delivered packet is for: the drove's member here, or the pasture of its flock (R347, R367). -/
def State.destPas (s : State) (p : FabPacket) : Option Nat :=
  if p.drove then
    let d : Drove := smapGet {} s.fabric.droves p.drv.toNat
    if d.valid && d.isLocal then some d.localPas.toNat else none
  else s.pasOfFlock p.flock

/-- DATA (R360). -/
def execData (i : Nat) (s : State) : Out :=
  match s.takePacket i 0x01 with
  | none => nothing s
  | some (p, s') =>
    match s'.destPas p with
    | none => .next s'
    | some q =>
      let y := (s'.pasture q).window p.win.toNat
      if (s'.dataNak q y p).isNone && s'.landBusy y p then
        .next (s.noteRange y.opener .landing (y.base + p.offset.toNat) p.data.length (packetWaiter p))
      else .next ((s'.receiveData q p).dropWaits y.opener (packetWaiter p))

/-! ## Completion of a transfer (R357, R359) -/

/-- Release the waiters whose threshold a window's ARRIVALS has reached (R370). -/
def State.releaseWaiters (s : State) (q w : Nat) : State :=
  let x := s.pasture q
  let met (v : WinWaiter) : Bool := decide (v.win = w) && decide (v.thresh ≤ (x.window w).arrivals)
  let s := (x.winWaiters.filter met).foldl (fun s v => s.send (.winRelease q v.tile w)) s
  s.modPas q fun x => { x with winWaiters := x.winWaiters.filter fun v => !met v }

/-- A transfer completes: its tracker is freed, its units await the rearm, ARRIVALS counts, and DONE goes to the sender. -/
def State.completeTransfer (s : State) (q : Nat) (t : Tracker) : State :=
  let s := s.modWindow q t.win fun y =>
    { y with held := y.held - BitVec.ofNat 20 t.units, doneUnits := y.doneUnits + BitVec.ofNat 20 t.units
             arrivals := satInc y.arrivals, doneRanks := y.doneRanks ++ [t.rank] }
  let s := s.modPas q fun x => x.dropTracker t
  let s := s.emitControl q 0x06 t.chip (BitVec.ofNat 6 t.win) t.xfer 0
  s.releaseWaiters q t.win

/-- DATA_ACK for every 64 KiB landed (R365). -/
def State.ackData (s : State) (q : Nat) (t : Tracker) : State :=
  if t.bytes / 65536 > t.acked / 65536 then
    (s.modPas q fun x => x.modTracker t fun o => { o with acked := t.bytes / 65536 * 65536 }).emitControl q 0x07 t.chip
      (BitVec.ofNat 6 t.win) t.xfer (BitVec.ofNat 32 (t.bytes / 65536 * 65536))
  else s

/-- LANDING_NOTICE (R357, R359): the tracker counts one landed packet; at the COUNT of its LAST packet the transfer completes. -/
def execLandingNotice (i : Nat) (s : State) : Out :=
  match s.arrives i with
  | some (.landed q w rank xfer bytes last, s') =>
    match (s'.pasture q).tracker w (BitVec.ofNat 12 rank) xfer with
    | none => .next s'
    | some t =>
      let t' : Tracker := { t with landed := t.landed + 1, bytes := t.bytes + bytes, time := s'.now
                                   count := match last with | some n => some n | none => t.count }
      let s' := s'.modPas q fun x => x.modTracker t fun _ => t'
      if t'.count = some t'.landed && !t'.broken then .next ((s'.completeTransfer q t').serveWindows q)
      else .next (s'.ackData q t')
  | _ => nothing s

/-! ## Credits at the receiver (R358, R362, R368) -/

/-- A CREDIT_REQ at its pasture. -/
def State.creditRequest (s : State) (q : Nat) (p : FabPacket) : State :=
  let x := s.pasture q
  let w := p.win.toNat
  let y := x.window w
  if y.state = 2 then s.windowNak q p St.FAB_TARGET_RESETTING
  else if !y.isOpen then s.windowNak q p St.FAB_WIN_CLOSED
  else if !y.allows p.srcRank.toNat then s.windowNak q p St.FAB_WIN_RANK
  else match x.tracker w p.srcRank p.xfer with
    | some t => s.emitControl q 0x03 p.srcChip p.win p.xfer (BitVec.ofNat 32 t.units)
    | none =>
      if y.queue.any fun e => decide (e.1 = p.srcRank) && decide (e.2.1 = p.xfer) then s
      else if y.queue.length ≥ 64 then s.windowNak q p St.FAB_WIN_BUSY
      else (s.putWindow q w { y with queue := y.queue ++ [(p.srcRank, p.xfer, p.count.toNat, p.srcChip)] }).serveWindow q w

/-- CREDIT_REQ (R358). -/
def execCreditReq (i : Nat) (s : State) : Out :=
  match s.takePacket i 0x02 with
  | none => nothing s
  | some (p, s') => match s'.pasOfFlock p.flock with
    | none => .next s'
    | some q => .next (s'.creditRequest q p)

/-- A tracker's units go back to POOL. -/
def State.returnUnits (s : State) (q : Nat) (t : Tracker) : State :=
  ((s.modWindow q t.win fun y =>
    { y with held := y.held - BitVec.ofNat 20 t.units, pool := y.pool + BitVec.ofNat 20 t.units }).modPas q fun x =>
      x.dropTracker t).serveWindows q

/-- CREDIT_RETURN (R368). -/
def execCreditReturn (i : Nat) (s : State) : Out :=
  match s.takePacket i 0x04 with
  | none => nothing s
  | some (p, s') => match s'.pasOfFlock p.flock with
    | none => .next s'
    | some q => match (s'.pasture q).tracker p.win.toNat p.srcRank p.xfer with
      | some t => .next (s'.returnUnits q t)
      | none => .next s'

/-- TRACKER_ABANDON (R362): a tracker without a packet for TRACK_IDLE_US. -/
def execTrackerAbandon (p : PasId) (win : BitVec 6) (rank : BitVec 12) (xfer : BitVec 32) (s : State) : Out :=
  let x := s.pasture p.val
  match x.tracker win.toNat rank xfer with
  | none => nothing s
  | some t =>
    if x.trackIdleUs.toNat * usT ≤ s.now - t.time then
      .next ((s.modPas p.val fun x => { x with abandoned := satInc x.abandoned }).returnUnits p.val t)
    else nothing s

/-! ## Waypoints (R210, R370, R371) -/

/-- The waypoint record of a WPT in the loaded program. -/
def Pasture.wpt (x : Pasture) (n : Nat) : Option WptRec :=
  match x.program with
  | some g => g.wpts.find? fun r => decide (r.wpt.toNat = n)
  | none => none

/-- The fault of a WAIT (R370). -/
def Pasture.waitFault (x : Pasture) (ws : List Word) : Option Status :=
  if !(x.window (dField ws 1 63 58)).isOpen then some St.FAB_WIN_NOT_OPEN
  else if (x.wpt (dField ws 1 57 50)).isNone then some St.FAB_WPT_UNDECLARED
  else none

/-- WAIT (R210, R370): it holds its beat and sends a wait, unless the counter already meets the threshold. -/
def execWait (vx : Vx) (vy : Vy) (s : State) : Out :=
  let k := tileKey vx vy
  s.issueDesc k (fun ws => decide (opOf ws = 0x18)) fun s ws =>
    if !(s.tile k).acts ws then .next (s.issueTile k ws id)
    else
      match s.pasOf vx.val with
      | none => nothing s
      | some p =>
        let x := s.pasture p
        let w := dField ws 1 63 58
        let thresh : BitVec 32 := BitVec.ofNat 32 (dField ws 1 31 0)
        match x.waitFault ws with
        | some st => .next (s.stopTile k st)
        | none =>
          if thresh ≤ (x.window w).arrivals then .next (s.issueTile k ws id)
          else .next (((s.issueTile k ws fun t => { t with holds := t.holds ++ [.wait w] }).send
            (.winWait p k w (dField ws 1 57 50) thresh s.now)).noteHolds p)

/-- WAIT_ARRIVE (R370): a wait is released at once if the threshold is met, else the bellwether keeps it. -/
def execWaitArrive (i : Nat) (s : State) : Out :=
  match s.arrives i with
  | some (.winWait p k w wpt thresh since, s') =>
    if thresh ≤ ((s'.pasture p).window w).arrivals then .next (s'.send (.winRelease p k w))
    else .next (s'.modPas p fun x => { x with winWaiters := x.winWaiters ++ [{ tile := k, win := w, wpt := wpt, thresh := thresh, since := since }] })
  | _ => nothing s

/-- WAIT_RELEASE (R370): the hold of a WAIT ends. -/
def execWaitRelease (i : Nat) (s : State) : Out :=
  match s.arrives i with
  | some (.winRelease p k w, s') =>
    .next ((s'.modTile k fun t => { t with holds := t.holds.erase (.wait w), holdEnd := some s'.now }).noteHolds p)
  | _ => nothing s

/-- The waiter of a tile. -/
def Pasture.waiterOf (x : Pasture) (k : Nat) : Option WinWaiter := x.winWaiters.find? fun v => decide (v.tile = k)

/-- The allowed ranks without a completed transfer since the window's last open or rearm. -/
def Window.missing (y : Window) : List Nat := y.allowed.filter fun r => !y.doneRanks.contains (BitVec.ofNat 12 r)

/-- WPT_LATE (R371): a hold reaches BOUND_NS. -/
def execWptLate (p : PasId) (vx : Vx) (vy : Vy) (s : State) : Out :=
  let k := tileKey vx vy
  let x := s.pasture p
  match x.waiterOf k with
  | none => nothing s
  | some v => match x.wpt v.wpt with
    | none => nothing s
    | some r =>
      if v.late || decide (s.now - v.since < r.boundNs * nsT) then nothing s
      else
        let ms := (x.window v.win).missing
        .next (((s.modPas p fun x => { x with
          winWaiters := x.winWaiters.map fun o => if o.tile = k then { o with late := true } else o
          lateEvents := satInc x.lateEvents
          lateWpt := BitVec.ofNat 8 v.wpt
          lateWin := BitVec.ofNat 6 v.win
          lateRank := BitVec.ofNat 12 (ms.min?.getD 0)
          lateMissing := BitVec.ofNat 12 (min 4095 ms.length) }).noteCause p St.FAB_WPT_LATE).pasEvent p St.FAB_WPT_LATE k)

/-- WPT_TIMEOUT (R371): a hold reaches TIMEOUT_US; the pasture stops. -/
def execWptTimeout (p : PasId) (vx : Vx) (vy : Vy) (s : State) : Out :=
  let x := s.pasture p
  match x.waiterOf (tileKey vx vy) with
  | none => nothing s
  | some v => match x.wpt v.wpt with
    | none => nothing s
    | some r =>
      if x.beating && decide (r.timeoutUs * usT ≤ s.now - v.since) then .next (s.stopPasture p St.FAB_WPT_TIMEOUT)
      else nothing s

end Sys2Proof.Machine
end

