-- ==== Sys2Proof/Machine/Sends.lean ====
section
/-!
DEFINITION. The send table: sends started by flags, their credits, data, acknowledgments and failures, and droves (R364 to R369).
-/
namespace Sys2Proof.Machine

/-! ## Entries (R374) -/

/-- Entry n of the send table. -/
def Pasture.sendEntry (x : Pasture) (n : Nat) : BitVec 256 := smapGet 0 x.sends n

/-- ENABLE of an entry. -/
def sendEnabled (w : BitVec 256) : Bool := bitAt w 255
/-- OP. -/
def sendOp (w : BitVec 256) : Nat := field w 254 253
/-- CLASS: ordered. -/
def sendOrdered (w : BitVec 256) : Bool := bitAt w 252
/-- DROVE. -/
def sendDrove (w : BitVec 256) : Bool := bitAt w 247
/-- DST: a rank, or a drove in the low 8 bits. -/
def sendDst (w : BitVec 256) : Nat := field w 243 232
/-- The drove of an entry. -/
def sendDrv (w : BitVec 256) : Nat := field w 239 232
/-- LEN; its low 6 bits count as 0. -/
def sendLen (w : BitVec 256) : Nat := field w 95 72 / 64 * 64
/-- SRC_ADDR; its low 6 bits count as 0. -/
def sendAddr (w : BitVec 256) : Nat := field w 191 153 / 64 * 64
/-- OFFSET; its low 6 bits count as 0. -/
def sendOffset (w : BitVec 256) : Nat := field w 127 96 / 64 * 64
/-- The units a transfer of LEN bytes needs. -/
def sendUnits (w : BitVec 256) : Nat := ceilDiv (sendLen w) 4096
/-- BALANCE. -/
def sendBalance (w : BitVec 256) : Nat := field w 51 32
/-- The number of DATA packets of a transfer (R365). -/
def sendPackets (w : BitVec 256) : Nat := ceilDiv (sendLen w) 192

/-- Replace bits [hi:lo] of an entry. -/
def setBits (w : BitVec 256) (hi lo v : Nat) : BitVec 256 :=
  BitVec.ofNat 256 (w.toNat - field w hi lo * 2 ^ lo + v % 2 ^ (hi + 1 - lo) * 2 ^ lo)

/-- Set STATUS of entry n. -/
def State.setSendStatus (s : State) (p n : Nat) (st : Status) : State :=
  s.modPas p fun x => { x with sends := smapPut x.sends n (setBits (x.sendEntry n) 15 0 st.toNat) }

/-- Set BALANCE of entry n. -/
def State.setBalance (s : State) (p n v : Nat) : State :=
  s.modPas p fun x => { x with sends := smapPut x.sends n (setBits (x.sendEntry n) 51 32 (min (2 ^ 20 - 1) v)) }

/-- A completed or failed send sets DONE_FLAG where DONE_EN is 1. -/
def State.doneFlag (s : State) (p : Nat) (w : BitVec 256) : State :=
  if bitAt w 224 then s.send (.flag p (field w 223 216) true none) else s

/-- A send fails (R365): STATUS, DONE_FLAG, the event, SEND_FAILS, and the run's count of failed sends. -/
def State.failSend (s : State) (p n : Nat) (w : BitVec 256) (st : Status) : State :=
  let s := (s.setSendStatus p n st).doneFlag p w
  let s := s.modPas p fun x =>
    { x with sendFails := satInc x.sendFails
             runs := x.runs.map fun r => if r.stage = .running then { r with failedSends := satInc r.failedSends } else r }
  s.pasEvent p St.FAB_SEND_FAIL n

/-! ## Sends in progress -/

/-- A send in progress by its transfer tag. -/
def Pasture.sendingAt (x : Pasture) (xfer : BitVec 32) : Option Sending := x.sending.find? fun d => decide (d.xfer = xfer)

/-- Change a send in progress. -/
def State.modSending (s : State) (p : Nat) (xfer : BitVec 32) (f : Sending → Sending) : State :=
  s.modPas p fun x => { x with sending := x.sending.map fun d => if d.xfer = xfer then f d else d }

/-- Remove a send in progress, with what its source waits for. -/
def State.dropSending (s : State) (p : Nat) (xfer : BitVec 32) : State :=
  (match (s.pasture p).sendingAt xfer with
    | some d => if bitAt d.words 225 then s else s.dropWaits (tileKey (field d.words 215 210) (field d.words 209 204)) (.send xfer)
    | none => s).modPas p fun x => { x with sending := x.sending.filter fun d => decide (d.xfer ≠ xfer) }

/-- The ranks that a send's data goes to. -/
def Sending.targets (d : Sending) : List (BitVec 12) :=
  if d.drove then d.granted.filter fun r => !d.failed.contains r else [BitVec.ofNat 12 (sendDst d.words)]

/-- The bytes a pasture has sent to a rank that are not acknowledged (R365). -/
def Pasture.outstanding (x : Pasture) (r : BitVec 12) : Nat :=
  x.sending.foldl (fun n d => if d.targets.contains r then n + (d.sentBytes - smapGet 0 d.acks r.toNat) else n) 0

/-- Read source bytes of a send: through the source tile's ring port, or from a group with XFER = 1 (R364). -/
def State.readSource (s : State) (p : Nat) (w : BitVec 256) (o n : Nat) (xfer : BitVec 32) : State × SideResult :=
  let a := sendAddr w + o
  if bitAt w 225 then
    if s.xferRange p a n then
      match s.stackFetch p a n with
      | (s, some bs) => (s, .ok bs)
      | (s, none) => (s, .refused St.STACK_ECC_UNCORR)
    else (s, .refused St.STACK_GROUP_XFER)
  else s.sideRead (tileKey (field w 215 210) (field w 209 204)) .landing a n (.send xfer)

/-- The ring ports of a landing source cannot read the bytes in the source tile's beat in progress (R119). -/
def State.sourceWaits (s : State) (w : BitVec 256) (o n : Nat) : Bool :=
  !bitAt w 225 && s.rangeWaits (tileKey (field w 215 210) (field w 209 204)) .landing (sendAddr w + o) n

/-- The next sequence number of an ordered stream (R344). -/
def State.takeOseq (s : State) (p : Nat) (w : BitVec 256) : State × BitVec 16 :=
  if sendOrdered w then
    let key := (if sendDrove w then 4096 + sendDrv w else sendDst w) * 16 + field w 251 248
    let v := smapGet 0 (s.pasture p).sendOseq key
    (s.modPas p fun x => { x with sendOseq := smapPut x.sendOseq key (v + 1) }, v)
  else (s, 0)

/-- Form and send the DATA packet at offset o of a transfer (R365). -/
def State.sendData (s : State) (p : Nat) (d : Sending) (o : Nat) (data : List Byte) : State :=
  let w := d.words
  let x := s.pasture p
  let (s, chip) := if d.drove then (s, some s.chipId) else s.rankChip p (sendDst w)
  let (s, oseq) := s.takeOseq p w
  let last := decide (sendLen w ≤ o + data.length)
  let pkt : FabPacket :=
    { ptype := 0x01, cls := if sendOrdered w then 0 else 1, chan := if sendOrdered w then BitVec.ofNat 4 (field w 251 248) else 0,
      last := last, drove := d.drove, hops := 32, dstChip := chip.getD 0, srcChip := s.chipId, flock := x.flockId, srcRank := x.selfRank,
      win := BitVec.ofNat 6 (field w 231 226), drv := if d.drove then BitVec.ofNat 8 (sendDrv w) else 0, oseq := oseq, xfer := d.xfer,
      offset := BitVec.ofNat 32 (sendOffset w + o), count := if last then BitVec.ofNat 32 (sendPackets w) else 0, status := 0,
      e2e := 0, dateline := false, data := data }
  s.emit pkt.sealed

/-- Send a transfer's packets in ascending order while the end-to-end window allows (R365). -/
def State.pumpSend (s : State) (p : Nat) (xfer : BitVec 32) : Nat → State
  | 0 => s
  | n + 1 =>
    let x := s.pasture p
    match x.sendingAt xfer with
    | none => s
    | some d =>
      let o := d.sentBytes
      if d.stage ≠ .sending then s
      else if sendLen d.words ≤ o then s.modSending p xfer fun d => { d with stage := .waitDone, lastTime := s.now }
      else
        let m := min 192 (sendLen d.words - o)
        if d.targets.any fun r => decide (x.e2eWin.toNat * 65536 < x.outstanding r + m) then s
        else if s.sourceWaits d.words o m then
          s.noteRange (tileKey (field d.words 215 210) (field d.words 209 204)) .landing (sendAddr d.words + o) m (.send d.xfer)
        else
          match s.readSource p d.words o m d.xfer with
          | (s, .refused st) => (s.dropSending p xfer).failSend p d.entry d.words st
          | (s, .ok bs) =>
            ((s.sendData p d o bs).modSending p xfer fun d => { d with sentBytes := o + m }).pumpSend p xfer n

/-- Send what a transfer can. -/
def State.runSend (s : State) (p : Nat) (xfer : BitVec 32) : State :=
  match (s.pasture p).sendingAt xfer with
  | some d => s.pumpSend p xfer (sendPackets d.words + 2)
  | none => s

/-- Let every send of a pasture go on. -/
def State.runSends (s : State) (p : Nat) : State := (s.pasture p).sending.foldl (fun s d => s.runSend p d.xfer) s

/-- Send a CREDIT_REQ for a send to a rank (R365); none where the rank has no entry. -/
def State.requestCredit (s : State) (p : Nat) (d : Sending) (rank units : Nat) : State :=
  let (s, chip) := s.rankChip p rank
  match chip with
  | some c => s.emitControl p 0x02 c (BitVec.ofNat 6 (field d.words 231 226)) d.xfer (BitVec.ofNat 32 units)
  | none => s

/-- The units an entry requests. -/
def sendRequest (w : BitVec 256) : Nat := if sendOp w = 2 then field w 71 52 else sendUnits w

/-! ## Droves (R367 to R369) -/

/-- The member ranks of a drove, by position. -/
def State.droveMembers (s : State) (d : Nat) : List (BitVec 12) :=
  let e : Drove := smapGet {} s.fabric.droves d
  (List.range (min 64 e.nMem.toNat)).map fun i => (smapGet 0 e.members i).setWidth 12

/-- A rank is fenced by pasture p (R366, R372). -/
def Pasture.fenced (x : Pasture) (r : BitVec 12) : Bool := bitAt (smapGet 0 x.fence (r.toNat / 64)) (r.toNat % 64)

/-- A map of member positions. -/
def memberMap (ms set : List (BitVec 12)) : Word :=
  BitVec.ofNat 64 (((List.range ms.length).filter fun i => match ms[i]? with | some r => set.contains r | none => false).foldl
    (fun n i => n + 2 ^ i) 0)

/-- Append a record to the drove completion log; a full log loses its oldest (R369). -/
def State.droveRecord (s : State) (p : Nat) (r : DroveRecord) : State :=
  s.modPas p fun x =>
    { x with droveLog := if x.droveLog.length ≥ 16 then x.droveLog.drop 1 ++ [r] else x.droveLog ++ [r]
             cplLost := if x.droveLog.length ≥ 16 then satInc x.cplLost else x.cplLost }

/-- A drove send ends: its record, the event for a partial one, STATUS and DONE_FLAG. `fails` says whether the send as a whole fails. -/
def State.settleDrove (s : State) (p : Nat) (d : Sending) (delivered failed : List (BitVec 12)) (fails : Option Status) : State :=
  let ms := s.droveMembers (sendDrv d.words)
  let st := if failed.isEmpty then St.OK else St.FAB_DROVE_PARTIAL
  let s := (s.dropSending p d.xfer).droveRecord p
    { entry := BitVec.ofNat 8 d.entry, status := st, delivered := memberMap ms delivered, pruned := memberMap ms d.pruned,
      failed := memberMap ms failed }
  let s := if failed.isEmpty then s else s.pasEvent p St.FAB_DROVE_PARTIAL d.entry
  match fails with
  | some e => s.failSend p d.entry d.words e
  | none => (s.setSendStatus p d.entry st).doneFlag p d.words

/-- The members of a drove send that are not pruned. -/
def State.unpruned (s : State) (d : Sending) : List (BitVec 12) :=
  (s.droveMembers (sendDrv d.words)).filter fun r => !d.pruned.contains r

/-- The all-or-nothing failure of an ordered drove send (R368): every grant is returned and nothing is sent. -/
def State.failDrove (s : State) (p : Nat) (d : Sending) : State :=
  let s := d.granted.foldl (fun s r =>
    let (s, chip) := s.rankChip p r.toNat
    match chip with
    | some c => s.emitControl p 0x04 c (BitVec.ofNat 6 (field d.words 231 226)) d.xfer (BitVec.ofNat 32 (sendRequest d.words))
    | none => s) s
  s.settleDrove p d [] (s.unpruned d) (some St.FAB_DROVE_CREDIT)

/-- An acquire-only send is granted: BALANCE grows, and the send is complete. -/
def State.grantBalance (s : State) (p : Nat) (d : Sending) (units : Nat) : State :=
  let s := s.setBalance p d.entry (sendBalance ((s.pasture p).sendEntry d.entry) + units)
  let s := s.modPas p fun x => { x with
    grantTags := smapPut x.grantTags d.entry (smapGet [] x.grantTags d.entry ++ [(d.xfer, units)]) }
  (((s.dropSending p d.xfer).setSendStatus p d.entry St.OK).doneFlag p d.words).send (.flag p d.entry false none)

/-- Credits are settled: the data goes down the tree, or, where no member has granted, the send ends. An acquire-only send of a drove adds
its UNITS to BALANCE (R364; assumption 50). -/
def State.goDrove (s : State) (p : Nat) (d : Sending) : State :=
  if d.granted.isEmpty then s.settleDrove p d [] d.failed none
  else if sendOp d.words = 2 then s.grantBalance p d (sendRequest d.words)
  else (s.modSending p d.xfer fun d => { d with stage := .sending }).runSend p d.xfer

/-- Go on with a drove send whose credits have changed: an ordered one fails with its first failed member; credits are settled when every
member that is not pruned has granted, or at DROVE_US (R368). -/
def State.checkDrove (s : State) (p : Nat) (xfer : BitVec 32) : State :=
  match (s.pasture p).sendingAt xfer with
  | none => s
  | some d =>
    if d.stage ≠ .waitCredit then s
    else if sendOrdered d.words && !d.failed.isEmpty then s.failDrove p d
    else if (s.unpruned d).all d.granted.contains then s.goDrove p d
    else s

/-- A drove send is over when every member that granted is done or has failed. -/
def State.checkDone (s : State) (p : Nat) (xfer : BitVec 32) : State :=
  match (s.pasture p).sendingAt xfer with
  | none => s
  | some d =>
    if d.stage = .waitDone && d.granted.all fun r => d.done.contains r || d.failed.contains r then
      s.settleDrove p d d.done d.failed none
    else s

/-! ## Starting a send (R364, R366, R368) -/

/-- A new send in progress. -/
def newSending (n : Nat) (w : BitVec 256) (xfer : BitVec 32) (now : Nat) : Sending :=
  { entry := n, words := w, xfer := xfer, start := now, reqTime := now, drove := sendDrove w }

/-- Take a fresh transfer tag (assumption 50). -/
def State.takeTag (s : State) (p : Nat) : State × BitVec 32 :=
  (s.modPas p fun x => { x with nextXfer := x.nextXfer + 1 }, (s.pasture p).nextXfer)

/-- Put a send in progress. -/
def State.addSending (s : State) (p : Nat) (d : Sending) : State := s.modPas p fun x => { x with sending := x.sending ++ [d] }

/-- Start a drove send that asks for credits: members fenced are pruned, the others are asked (R368). A member whose rank entry is not
valid cannot be asked and never grants. -/
def State.startDrove (s : State) (p n : Nat) (w : BitVec 256) : State :=
  let x := s.pasture p
  let (s, xfer) := s.takeTag p
  let ms := s.droveMembers (sendDrv w)
  let d := { newSending n w xfer s.now with pruned := ms.filter x.fenced }
  let s := s.addSending p d
  ((ms.filter fun r => !d.pruned.contains r).foldl (fun s r => s.requestCredit p d r.toNat (sendRequest w)) s).checkDrove p xfer

/-- Start a prepaid send: it takes its units from BALANCE and sends at once, a drove's to every member not pruned; a short balance stops
the sending pasture (R364). -/
def State.startPrepaid (s : State) (p n : Nat) (w : BitVec 256) : State :=
  if sendBalance w < sendUnits w then s.stopPasture p St.FAB_CREDIT_OVERRUN
  else
    let x := s.pasture p
    let tags := smapGet [] x.grantTags n
    let (s, xfer) := match tags with
      | (t, _) :: _ => (s.modPas p fun x => { x with grantTags := smapPut x.grantTags n tags.tail }, t)
      | [] => s.takeTag p
    let s := s.setBalance p n (sendBalance w - sendUnits w)
    let ms := if sendDrove w then s.droveMembers (sendDrv w) else []
    let d := { newSending n w xfer s.now with
      stage := .sending, pruned := ms.filter x.fenced, granted := ms.filter fun r => !x.fenced r }
    if sendDrove w && d.granted.isEmpty then (s.addSending p d).settleDrove p d [] [] none
    else (s.addSending p d).runSend p xfer

/-- The bellwether starts entry n, whose flag has been set (R343, R364, R366). A stopped pasture starts no send (R432). -/
def State.startSend (s : State) (p n : Nat) : State :=
  let x := s.pasture p
  let w := x.sendEntry n
  if !sendEnabled w || x.stopped then s
  else if sendOp w = 3 || (sendOp w ≠ 2 && sendLen w = 0) then s.failSend p n w St.FAB_SEND_FAIL
  else if !x.started then s.failSend p n w St.FAB_NO_FLOCK
  else if sendDrove w then (if sendOp w = 1 then s.startPrepaid p n w else s.startDrove p n w)
  else if x.fenced (BitVec.ofNat 12 (sendDst w)) then s.failSend p n w St.FAB_FENCED
  else
    let (s, chip) := s.rankChip p (sendDst w)
    if chip.isNone then s.failSend p n w St.FAB_NO_ROUTE
    else if sendOp w = 1 then s.startPrepaid p n w
    else
      let (s, xfer) := s.takeTag p
      let d := newSending n w xfer s.now
      (s.addSending p d).requestCredit p d (sendDst w) (sendRequest w)

/-! ## Replies at the sender (R365) -/

/-- The member of a drove send that a packet comes from: by rank, or by its chip where no pasture answered. -/
def Pasture.memberOf (x : Pasture) (d : Sending) (p : FabPacket) (ms : List (BitVec 12)) : BitVec 12 :=
  if d.drove && p.status = St.FAB_NO_PASTURE then
    (ms.find? fun r => decide (field (x.rankEntry r.toNat) 15 0 = p.srcChip.toNat)).getD p.srcRank
  else p.srcRank

/-- CREDIT_GRANT (R365). -/
def execCreditGrant (i : Nat) (s : State) : Out :=
  match s.takePacket i 0x03 with
  | none => nothing s
  | some (pkt, s') => match s'.pasOfFlock pkt.flock with
    | none => .next s'
    | some p => match (s'.pasture p).sendingAt pkt.xfer with
      | none => .next s'
      | some d =>
        if d.stage ≠ .waitCredit then .next s'
        else if d.drove then
          if d.granted.contains pkt.srcRank then .next s'
          else .next ((s'.modSending p d.xfer fun d => { d with granted := d.granted ++ [pkt.srcRank] }).checkDrove p d.xfer)
        else if sendOp d.words = 2 then .next (s'.grantBalance p d pkt.count.toNat)
        else .next ((s'.modSending p d.xfer fun d => { d with stage := .sending }).runSend p d.xfer)

/-- A member of a drove send has refused or not answered. -/
def State.failMember (s : State) (p : Nat) (d : Sending) (r : BitVec 12) : State :=
  let s := s.modSending p d.xfer fun d => { d with failed := if d.failed.contains r then d.failed else d.failed ++ [r] }
  (s.checkDrove p d.xfer).checkDone p d.xfer

/-- NAK (R365): it ends the send with its status; after ST_FAB_WIN_BUSY the request is repeated. -/
def execNak (i : Nat) (s : State) : Out :=
  match s.takePacket i 0x05 with
  | none => nothing s
  | some (pkt, s') => match s'.pasOfFlock pkt.flock with
    | none => .next s'
    | some p => match (s'.pasture p).sendingAt pkt.xfer with
      | none => .next s'
      | some d =>
        if pkt.status = St.FAB_WIN_BUSY then .next s'
        else if d.drove then .next ((s'.failMember p d ((s'.pasture p).memberOf d pkt (s'.droveMembers (sendDrv d.words)))).runSends p)
        else .next (((s'.dropSending p d.xfer).failSend p d.entry d.words pkt.status).runSends p)

/-- DONE (R365): the send is complete, with STATUS ST_OK and DONE_FLAG. -/
def execDone (i : Nat) (s : State) : Out :=
  match s.takePacket i 0x06 with
  | none => nothing s
  | some (pkt, s') => match s'.pasOfFlock pkt.flock with
    | none => .next s'
    | some p => match (s'.pasture p).sendingAt pkt.xfer with
      | none => .next s'
      | some d =>
        if d.drove then
          .next (((s'.modSending p d.xfer fun d => { d with
            done := if d.done.contains pkt.srcRank || d.failed.contains pkt.srcRank then d.done else d.done ++ [pkt.srcRank]
            acks := smapPut d.acks pkt.srcRank.toNat (sendLen d.words) }).runSends p).checkDone p d.xfer)
        else
          .next ((((s'.dropSending p d.xfer).setSendStatus p d.entry St.OK).doneFlag p d.words).runSends p)

/-- DATA_ACK (R365): bytes landed free end-to-end window space at the sender. -/
def execDataAck (i : Nat) (s : State) : Out :=
  match s.takePacket i 0x07 with
  | none => nothing s
  | some (pkt, s') => match s'.pasOfFlock pkt.flock with
    | none => .next s'
    | some p =>
      .next ((s'.modSending p pkt.xfer fun d =>
        { d with acks := smapPut d.acks pkt.srcRank.toNat (max (smapGet 0 d.acks pkt.srcRank.toNat) pkt.count.toNat) }).runSends p)

/-! ## Timers of a send -/

/-- The first send of an entry that satisfies a condition. -/
def Pasture.sendOf (x : Pasture) (n : Nat) (c : Sending → Bool) : Option Sending := x.sending.find? fun d => decide (d.entry = n) && c d

/-- CREDIT_REQ_REPEAT (R365): CREDIT_US without a grant. -/
def execCreditReqRepeat (p : PasId) (n : Byte) (s : State) : Out :=
  let x := s.pasture p.val
  match x.sendOf n.toNat fun d => decide (d.stage = .waitCredit) && decide (x.creditUs.toNat * usT ≤ s.now - d.reqTime) with
  | none => nothing s
  | some d =>
    let ask := if d.drove then (s.unpruned d).filter fun r => !d.granted.contains r && !d.failed.contains r
               else [BitVec.ofNat 12 (sendDst d.words)]
    let s := ask.foldl (fun s r => s.requestCredit p.val d r.toNat (sendRequest d.words)) s
    .next (s.modSending p.val d.xfer fun d => { d with reqTime := s.now })

/-- SEND_SOURCE_DONE (R364): the last source byte has been read, and the engine clears the send's flag. -/
def execSendSourceDone (p : PasId) (n : Byte) (s : State) : Out :=
  match (s.pasture p.val).sendOf n.toNat fun d => !d.srcDone && decide (d.stage = .waitDone) with
  | none => nothing s
  | some d => .next ((s.modSending p.val d.xfer fun d => { d with srcDone := true }).send (.flag p.val n.toNat false none))

/-- DONE_TIMEOUT (R365, R368): no DONE within DONE_US of the last packet. -/
def execDoneTimeout (p : PasId) (n : Byte) (s : State) : Out :=
  let x := s.pasture p.val
  match x.sendOf n.toNat fun d => decide (d.stage = .waitDone) && decide (x.doneUs.toNat * usT ≤ s.now - d.lastTime) with
  | none => nothing s
  | some d =>
    if d.drove then
      .next (s.settleDrove p.val d d.done (d.failed ++ d.granted.filter fun r => !d.done.contains r && !d.failed.contains r)
        none |>.runSends p.val)
    else .next (((s.dropSending p.val d.xfer).failSend p.val d.entry d.words St.FAB_DONE_TIMEOUT).runSends p.val)

/-- DROVE_TIMEOUT (R368): DROVE_US expires; an ordered send fails, a bulk one goes ahead without the members that have not granted. -/
def execDroveTimeout (p : PasId) (n : Byte) (s : State) : Out :=
  let x := s.pasture p.val
  match x.sendOf n.toNat fun d => d.drove && decide (d.stage = .waitCredit) && decide (x.droveUs.toNat * usT ≤ s.now - d.start) with
  | none => nothing s
  | some d =>
    if sendOrdered d.words then .next (s.failDrove p.val d)
    else
      let d' := { d with failed := (s.unpruned d).filter fun r => !d.granted.contains r }
      .next ((s.modSending p.val d.xfer fun _ => d').goDrove p.val d')

/-- A reset of the sending pasture abandons its sends; BALANCE and STATUS are cleared (R366, R374). -/
def State.resetSends (s : State) (p : Nat) : State :=
  s.modPas p fun x =>
    { x with sending := [], grantTags := []
             sends := smapMap (fun _ w => setBits (setBits w 51 32 0) 15 0 0) x.sends }

end Sys2Proof.Machine
end

