-- ==== Sys2Proof/Machine/Flags.lean ====
section
/-!
DEFINITION. The pasture's 256 flags: FLAG descriptors, changes at the bellwether with the sends, swaps and notices tied to them,
and flag waits (R212, R291 to R293, R342, R349, R364).
-/
namespace Sys2Proof.Machine

/-- FLAG_NO of a FLAG descriptor. -/
def flagNo (ws : List Word) : Nat := dField ws 1 63 56
/-- ACT. -/
def flagAct (ws : List Word) : Nat := dField ws 1 55 54

/-- A FLAG descriptor with the ACT `a` at its issue beat (R212). -/
def State.issueFlag (s : State) (k a : Nat) (act : State → Nat → Nat → State) : Out :=
  s.issueDesc k (fun ws => decide (opOf ws = 0x1A) && decide (flagAct ws = a)) fun s ws =>
    let s' := s.issueTile k ws id
    match s.pasOf (keyVx k) with
    | some p => .next (if (s.tile k).acts ws then act s' p (flagNo ws) else s')
    | none => nothing s

/-- FLAG_SET (R212): the change goes to the bellwether. -/
def execFlagSet (vx : Vx) (vy : Vy) (s : State) : Out :=
  let k := tileKey vx vy
  s.issueFlag k 0 fun s p n => s.send (.flag p n true (some k))

/-- FLAG_CLEAR (R212). -/
def execFlagClear (vx : Vx) (vy : Vy) (s : State) : Out :=
  let k := tileKey vx vy
  s.issueFlag k 1 fun s p n => s.send (.flag p n false (some k))

/-- A FLAG that holds its beat sends a wait (R292). -/
def State.holdFlag (s : State) (k p n : Nat) (wantSet : Bool) : State :=
  ((s.modTile k fun t => { t with holds := t.holds ++ [.flag n wantSet] }).send (.flagWait p k n wantSet)).noteHolds p

/-- FLAG_HOLD_SET (R292). -/
def execFlagHoldSet (vx : Vx) (vy : Vy) (s : State) : Out :=
  let k := tileKey vx vy
  s.issueFlag k 2 fun s p n => s.holdFlag k p n true

/-- FLAG_HOLD_CLEAR (R292). -/
def execFlagHoldClear (vx : Vx) (vy : Vy) (s : State) : Out :=
  let k := tileKey vx vy
  s.issueFlag k 3 fun s p n => s.holdFlag k p n false

/-! ## At the bellwether -/

/-- Flag n of a pasture. -/
def Pasture.flag (x : Pasture) (n : Nat) : Bool := bitAt x.flags n

/-- Write a flag. -/
def Pasture.setFlag (x : Pasture) (n : Nat) (on : Bool) : Pasture :=
  { x with flags := if on then x.flags ||| BitVec.twoPow 256 n else x.flags &&& ~~~(BitVec.twoPow 256 n) }

/-- The waiters on flag n for a value are released (R292). -/
def State.releaseFlag (s : State) (p n : Nat) (on : Bool) : State :=
  let met (w : Nat × Nat × Bool) : Bool := decide (w.2.1 = n) && w.2.2 == on
  let s := ((s.pasture p).flagWaiters.filter met).foldl (fun s w => s.send (.flagRelease p w.1 n)) s
  s.modPas p fun x => { x with flagWaiters := x.flagWaiters.filter fun w => !met w }

/-- A change that a tile made: it is notified, and a set of a trigger flag swaps the rank or the routing tables
(R293, R342, R349). -/
def State.tileFlag (s : State) (p n : Nat) (on : Bool) : State :=
  let x := s.pasture p
  let s := if bitAt x.notify n then
      (s.modPas p fun x => { x with lastFlag := BitVec.ofNat 8 n }).signal (s.boundFn p) 20
    else s
  let s := if on && x.rankTrigEn && decide (x.rankTrigFlag.toNat = n) then s.swapRanks p else s
  if on && s.fabric.routeTrigEn && decide (s.fabric.routeTrigPas.toNat = p) && decide (s.fabric.routeTrigFlag.toNat = n) then
    s.swapRoutes
  else s

/-- The bellwether applies a change. A change to the value the flag has does nothing (R291 to R293, R364). -/
def State.changeFlag (s : State) (p n : Nat) (on byTile : Bool) : State :=
  if (s.pasture p).flag n == on then s
  else
    let s := (s.modPas p fun x => x.setFlag n on).releaseFlag p n on
    let s := if byTile then s.tileFlag p n on else s
    if on then s.startSend p n else s

/-- FLAG_CHANGE (R291). -/
def execFlagChange (i : Nat) (s : State) : Out :=
  match s.arrives i with
  | some (.flag p n on k, s') => .next (s'.changeFlag p n on k.isSome)
  | _ => nothing s

/-- FLAG_WAIT_ARRIVE (R292): a wait is released at once if the flag has the awaited value, else the bellwether keeps it. -/
def execFlagWaitArrive (i : Nat) (s : State) : Out :=
  match s.arrives i with
  | some (.flagWait p k n want, s') =>
    if (s'.pasture p).flag n == want then .next (s'.send (.flagRelease p k n))
    else .next (s'.modPas p fun x => { x with flagWaiters := x.flagWaiters ++ [(k, n, want)] })
  | _ => nothing s

/-- FLAG_RELEASE (R292): the hold of a FLAG ends. -/
def execFlagRelease (i : Nat) (s : State) : Out :=
  match s.arrives i with
  | some (.flagRelease p k n, s') =>
    let mine (h : Hold) : Bool := match h with
      | .flag m _ => decide (m = n)
      | .wait _ | .fold _ _ _ | .foldFull _ | .data => false
    .next ((s'.modTile k fun t =>
      if t.holds.any mine then { t with holds := t.holds.filter fun h => !mine h, holdEnd := some s'.now } else t).noteHolds p)
  | _ => nothing s

/-! ## Host writes (R291, R297) -/

/-- The flags that a write of CNW_FLAG_SET_n or CNW_FLAG_CLR_n names go to the bellwether as changes. -/
def State.hostFlags (s : State) (p n : Nat) (value : Word) (on : Bool) : State :=
  ((List.range 64).filter (bitAt value)).foldl (fun s i => s.send (.flag p (64 * n + i) on none)) s

/-- HOST_FLAG_SET (R291). -/
def execHostFlagSet (fn : FnId) (p : PasId) (n : Fin 4) (value : Word) (s : State) : Out :=
  if s.mayWrite fn.val p.val then .next (s.hostFlags p n value true) else nothing s

/-- HOST_FLAG_CLR (R291). -/
def execHostFlagClr (fn : FnId) (p : PasId) (n : Fin 4) (value : Word) (s : State) : Out :=
  if s.mayWrite fn.val p.val then .next (s.hostFlags p n value false) else nothing s

end Sys2Proof.Machine
end

