-- ==== Sys2Proof/Machine/LinkTrain.lean ====
section
/-!
DEFINITION. Training of a link port, its identity, the topology plan and the roles ports hold, retraining, and logical ports
(R329, R330, R332, R333, R335 to R338).
-/
namespace Sys2Proof.Machine

/-! ## The plan and its roles (R335, R336) -/

/-- The plan entry of a role. -/
def State.planEntry (s : State) (r : Nat) : PlanEntry :=
  match s.links.plan with
  | some pl => pl.entries.getD r {}
  | none => {}

/-- Some port holds a role: it carries it, or it retrains and held it when the retrain began. -/
def State.roleMatched (s : State) (r : Nat) : Bool :=
  (List.range 20).any fun n => (s.port n).onRole r

/-- Every required entry of the plan is matched. -/
def State.planMatched (s : State) : Bool :=
  (List.range 20).all fun r =>
    let e := s.planEntry r
    e.use = 0 || !e.required || s.roleMatched r

/-- The flits sent so far on a role, by the port that carries it or held it when it began to retrain, are to be acknowledged before ordered
packets leave it (R348). -/
def State.markSent (s : State) (r : Nat) : State :=
  (List.range 18).foldl (fun s n =>
    if (s.port n).onRole r then s.modPort n fun x => { x with sentBefore := x.replayBuf.length } else s) s

/-- The members of logical ports as the roles held change from `old` to `new`: where a set changes, its old members are marked (R348). -/
def State.markMembers (s : State) (old new : BitVec 20) : State :=
  let changed := (List.range 16).filter fun m =>
    let ms := (smapGet 0 s.links.lports m).setWidth 20
    decide (ms &&& old ≠ ms &&& new)
  ((List.range 18).filter fun r => bitAt old r && changed.any fun m => bitAt (smapGet 0 s.links.lports m) r).foldl State.markSent s

/-- ROLES_HELD and PLAN_STATE after a change of a port (R336, R339): COMPLETE once every required entry is matched, INCOMPLETE
once a required role is lost, with ALERT cause 4 (R442). -/
def State.settlePlan (s : State) : State :=
  let old := s.links.rolesHeld
  let held := BitVec.ofNat 20 (((List.range 20).filter fun r => (s.portOfRole r).isSome).foldl (fun n r => n + 2 ^ r) 0)
  let s := { s.markMembers old held with links := { s.links with rolesHeld := held, rolesLost := s.links.rolesLost &&& ~~~held } }
  if s.links.plan.isNone then s
  else if s.planMatched then { s with links := { s.links with planState := 2 } }
  else if s.links.planState = 2 then ({ s with links := { s.links with planState := 3 } }).alert 4
  else s

/-- A role that a port has let go of and no other holds is lost: ALERT cause 4 where it is REQUIRED, whatever PLAN_STATE is (R442). -/
def State.noteLost (s : State) (role : Nat) : State :=
  let e := s.planEntry role
  if e.use ≠ 0 && e.required && !s.roleMatched role then
    ({ s with links := { s.links with rolesLost := s.links.rolesLost ||| BitVec.twoPow 20 role } }).alert 4
  else s

/-- A port has let go of a role: its reservations are rechecked, and what it had queued goes elsewhere (R350, R354). -/
def State.releaseRole (s : State) (n role : Nat) : State :=
  if role ≥ 18 then s.settlePlan.noteLost role
  else
    let ps := (s.port n).txQueue.map (·.2)
    (((((s.modPort n fun x => { x with txQueue := [] }).settlePlan).noteLost role).rehome role ps).recheckOrd role).retryMembers

/-- The credits a port has taken after training: both ends' counts start afresh, and the flits it keeps to send again take theirs
(R327, R352). -/
def Port.keptCredits (x : Port) : SMap Nat :=
  x.replayBuf.foldl (fun m f => match f.2 with
    | .fabric p => smapPut m p.lane (smapGet 0 m p.lane + 1)
    | .idle | .mgmt _ | .reserved => m) []

/-- Training values of a port that is not trained (R339, column L). -/
def Port.untrained (x : Port) : Port :=
  { x with width := 0, role := noRole, version := 0, lanes := 0, peerChip := 0xFFFF, peerPort := 0xFF, peerKind := 0xFF,
           peerVmin := 0, peerVmax := 0, peerStep := 0, digestMatch := false, peerSerial := 0, peerDigest := 0,
           proposal := none, peerProposal := none, nakSent := false, nakDue := false, noProgress := 0, freed := [], outBuf := [],
           credits := x.keptCredits, rxFlits := 0, badUntil := 0, laneCorr := [], laneBad := [], failing := 0, cleanSince := [] }

/-- The pages under way on a service link that goes down are to be moved again from their start (R267): those of spills by this package,
those of restores by the store. -/
def State.pagesLost (s : State) (link : Nat) : State :=
  { s with xfers := s.xfers.map fun x => if x.link.val = link then { x with sent := false, got := [] } else x }

/-- A port goes DOWN (R331, R337): the flits not replayed are lost to it and handled by R350; sequence numbers start afresh
(assumption 60). -/
def State.downPort (s : State) (n : Nat) : State :=
  let x := s.port n
  let r := (if x.state = .retraining then x.lastRole else x.role).toNat
  let ps := x.undelivered
  let s := (s.putPort n { x.untrained with
      state := .down, step := .detect, fast := false, retrain := false, stepTime := s.now, lastRole := noRole,
      credits := [], replayBuf := [], sentBefore := 0, txQueue := [], txMgmt := [], txSeq := 0, rxSeq := 0 }).portEvent n St.LNK_DOWN
  let s := (s.noteCauseAll St.LNK_DOWN).settlePlan.noteLost r
  let s := if n < 18 then s else s.pagesLost (n - 18)
  if r ≥ 18 then s else ((s.rehome r ps).recheckOrd r).retryMembers

/-- Transfers on a service link that retrains go on with the other one (R268): the packets of their pages under way that are not yet
acknowledged are sent there, in order; those in the replay buffer go again on their own link too (R337). -/
def State.moveXfers (s : State) (n : Nat) : State :=
  if n < 18 then s
  else
    let m := if n = 18 then 19 else 18
    let ps : List FabPacket := (s.port n).undelivered.filter fun p => decide (p.cls = 2)
    let swap (x : Transfer) : Transfer := if x.link.val = n - 18 then { x with link := if x.link = 0 then 1 else 0 } else x
    let s := { s with xfers := s.xfers.map swap }
    let s := s.modPort n fun x => { x with txQueue := x.txQueue.filter fun lp => decide (lp.2.cls ≠ 2) }
    (s.modPort m fun x => { x with txQueue := x.txQueue ++ ps.map fun p => (p.lane, p) }).pumpPort m

/-- The reference clock of a port's edge is there (R26, R495): without it the port stays in TRAINING. -/
def Facts.hasReference (f : Facts) (n : Nat) : Bool := if n < 9 || n = 18 then f.lrefWest else f.lrefEast

/-- Ask the far end for a retrain, with the last flit before the lanes stop (R334, R337). -/
def State.askRetrain (s : State) (n : Nat) : State :=
  if (s.port n).state.up then s.modPort n fun x => x.sendNow .retrainRequest s.now else s

/-- Start a link retrain (R337): a fast one first, with the saved equalisation. Its flits are kept; both ends' credit counts start afresh
(R352). A port without its reference stays in TRAINING (R495), and without the link rail none trains (R491). -/
def State.startRetrain (s : State) (n : Nat) : State :=
  let x := s.port n
  if x.state = .off || s.portDead n || !s.facts.hasReference n || !s.power.rails then s
  else
    let s := if x.state.up then s.moveXfers n else s
    (s.modPort n fun y => { y.untrained with
      replayBuf := y.replayBuf.map fun f => (f.1, f.2.overRetrain), txMgmt := y.txMgmt.filter fun m => !m.overtaken,
      state := .retraining, retrain := true, fast := true, step := .detect, stepTime := s.now,
      lastRole := if x.state.up then x.role else y.lastRole }).settlePlan

/-- LINK_RETRAIN (R337): the far end is asked to retrain with this end. -/
def execLinkRetrain (n : PortId) (s : State) : Out := .next ((s.askRetrain n.val).startRetrain n.val)

/-- RETRAIN_REQUEST (R337): the far end asks. -/
def execRetrainRequest (n : PortId) (s : State) : Out :=
  if (s.port n.val).state.up then .next (s.startRetrain n.val) else nothing s

/-! ## Training steps (R329) -/

/-- A port may train: it exists, has its rail and its reference clock, is not disabled, and bring-up step 3 has started. -/
def State.mayTrain (s : State) (n : Nat) : Bool :=
  let x := s.port n
  s.power.rails && !s.portDead n && s.facts.hasReference n && !x.disable && decide (x.state ≠ .off) && !x.state.up && s.boot.done.contains 3

/-- A training step fails: counted and reported. A fast retrain goes on to a full training; a full one starts again 100 ms later,
and a retrain that fails so ends DOWN. -/
def State.trainFail (s : State) (n : Nat) : State :=
  let x := s.port n
  let s := (s.putPort n { x with trainFails := satInc x.trainFails, step := .detect, fast := false,
                                 stepTime := if x.fast then s.now else s.now + 100 * msT }).portEvent n St.LNK_TRAIN_FAIL
  if x.state = .retraining && !x.fast then
    let t := (s.port n).stepTime
    (s.downPort n).modPort n fun x => { x with stepTime := t }
  else s

/-- LINK_DETECT (R329): with signal on some lane training goes on; without, the port stays DOWN and looks again after 10 ms. -/
def execLinkDetect (n : PortId) (signal : Byte) (s : State) : Out :=
  let x := s.port n.val
  if !s.mayTrain n.val || x.step ≠ .detect || s.now < x.stepTime then nothing s
  else if signal = 0 then
    if x.state = .retraining && x.fast then .next (s.modPort n.val fun x => { x with fast := false })
    else
      let s := if x.state = .retraining then s.downPort n.val else s.modPort n.val fun x => { x with state := .down }
      .next (s.modPort n.val fun x => { x with stepTime := s.now + 10 * msT })
  else .next (s.modPort n.val fun x =>
    { x with state := if x.state = .retraining then .retraining else .training, step := .lanes, healthy := signal })

/-- A lane mask in reversed order: lane 7 as lane 0 and so on (R329). -/
def reverseLanes (m : Byte) : Byte :=
  (List.range 8).foldl (fun acc i => if bitAt m i then acc ||| BitVec.twoPow 8 (7 - i) else acc) 0

/-- LINK_LANES (R329): polarity and order; a lane in neither order is failed. Lane numbers are logical from here on, after reversal (R330);
`failed` and `polInv` name lanes as they arrive. A fast retrain skips equalisation. -/
def execLinkLanes (n : PortId) (failed polInv : Byte) (reversed : Bool) (s : State) : Out :=
  let x := s.port n.val
  if !s.mayTrain n.val || x.step ≠ .lanes then nothing s
  else .next (s.modPort n.val fun x =>
    { x with healthy := (if reversed then reverseLanes (x.healthy &&& ~~~failed) else x.healthy &&& ~~~failed)
                          &&& (if x.fast then x.eqGood else 0xFF)
             polInv := polInv, reversed := reversed,
             step := if x.fast then .width else .equalise })

/-- LINK_EQUALISE (R329): a lane that does not adapt is failed; the equalisation is saved. -/
def execLinkEqualise (n : PortId) (failed : Byte) (s : State) : Out :=
  let x := s.port n.val
  if !s.mayTrain n.val || x.step ≠ .equalise then nothing s
  else .next (s.modPort n.val fun x =>
    { x with healthy := x.healthy &&& ~~~failed, eqGood := x.healthy &&& ~~~failed, step := .width })

/-- LINK_WIDTH (R329, R330). -/
def execLinkWidth (n : PortId) (checkOk : Bool) (s : State) : Out :=
  let x := s.port n.val
  if !s.mayTrain n.val || x.step ≠ .width then nothing s
  else match chooseGroup x.healthy with
    | none => .next (s.trainFail n.val)
    | some g =>
      if checkOk then
        .next (s.modPort n.val fun x => { x with lanes := g, width := BitVec.ofNat 4 (laneCount g), step := .identify })
      else .next (s.trainFail n.val)

/-- The FLOCK_DIGEST of the committed plan, or zero (R332). -/
def State.flockDigest (s : State) : Digest := match s.links.plan with | some pl => pl.digest | none => 0

/-- KIND of a package (R332): its grade, with bit 7 while it presents below it (R4). -/
def State.kindCode (s : State) : Byte :=
  let k : Byte := match s.facts.grade with
    | .ltf64x => 0
    | .ltf64 => 1
    | .ltf56 => 2
  if s.boot.belowGrade then k ||| 0x80 else k

/-- The identity record that this package sends on a port (R332): protocol version 1, and the committed plan's chip ID and digest. -/
def State.identityRecord (s : State) (n : Nat) : PeerRecord :=
  { vmin := 1, vmax := 1, chipId := match s.links.plan with | some pl => pl.selfChip | none => 0xFFFF
    port := BitVec.ofNat 8 n, kind := s.kindCode, stepping := BitVec.ofNat 8 s.facts.stepping.code, serial := s.facts.serial,
    flockDigest := s.flockDigest }

/-- A port with the identity of its peer. -/
def Port.identified (x : Port) (r : PeerRecord) : Port :=
  { x with peerChip := r.chipId, peerPort := r.port, peerKind := r.kind, peerVmin := r.vmin, peerVmax := r.vmax,
           peerStep := r.stepping, peerSerial := r.serial, peerDigest := r.flockDigest }

/-- LINK_IDENTIFY (R332, R333): this end sends its record; the peer's record with a good CRC ends the step, and one without is a failure
as of step 4. -/
def execLinkIdentify (n : PortId) (record : Option (List Byte)) (s : State) : Out :=
  let x := s.port n.val
  if !s.mayTrain n.val || x.step ≠ .identify then nothing s
  else
    let s := s.modPort n.val fun x => { x with sentRecord := some (s.identityRecord n.val) }
    match record.bind PeerRecord.ofBytes with
    | none => .next (s.trainFail n.val)
    | some r => .next (s.modPort n.val fun x => { x.identified r with step := .compare })

/-! ## Comparing with the plan (R336) -/

/-- The peer of port n is the neighbour of plan entry r. -/
def State.peerIs (s : State) (n r : Nat) : Bool :=
  let e := s.planEntry r
  let x := s.port n
  e.use ≠ 0 && decide (e.peerChip = x.peerChip) && decide (e.peerPort = x.peerPort)

/-- What COMPARE finds at a port. -/
inductive Finding where
  | version | digest | own | swapped (r : Nat) | mismatch | extra
deriving DecidableEq, Repr

/-- The finding of R336's table, in its order. The one version supported is 1; a peer that names no chip has no plan (R332). -/
def State.finding (s : State) (n : Nat) : Finding :=
  let x := s.port n
  let matched (r : Nat) : Bool := (List.range 20).any fun m =>
    decide (m ≠ n) && (s.port m).state.carries && decide ((s.port m).role.toNat = r)
  let lower (r : Nat) : Bool := (List.range n).any fun m => (s.port m).state.carries && decide ((s.port m).role.toNat = r)
  if !(x.peerVmin ≤ 1 && 1 ≤ x.peerVmax) then .version
  else if x.peerDigest ≠ s.flockDigest || x.peerChip = 0xFFFF then .digest
  else if s.peerIs n n && !lower n then .own
  else match (List.range 20).find? fun r => decide (r ≠ n) && decide (r < 18 ↔ n < 18) && s.peerIs n r && !matched r with
    | some r => .swapped r
    | none =>
      if (List.range 20).any fun r => !decide (r < 18 ↔ n < 18) && s.peerIs n r then .mismatch else .extra

/-- A port takes a role: ACTIVE, or DEGRADED with an event where it is narrower than planned. -/
def State.takeRole (s : State) (n r : Nat) : State :=
  let narrow := decide ((s.port n).width.toNat < (s.planEntry r).width)
  let s := s.modPort n fun x => { x with state := if narrow then .degraded else .active, role := BitVec.ofNat 5 r }
  if narrow then (s.noteCauseAll St.LNK_NARROW).portEvent n St.LNK_NARROW else s

/-- A port is trained without a role. -/
def State.withoutRole (s : State) (n : Nat) (st : PortState) (ev : Status) : State :=
  (s.modPort n fun x => { x with state := st, role := noRole }).portEvent n ev

/-- Another port that held the role loses it, and what it had queued, to a lower-numbered one. -/
def State.evict (s : State) (n r : Nat) : State :=
  match (List.range 20).find? fun m => decide (m ≠ n) && (s.port m).state.carries && decide ((s.port m).role.toNat = r) with
  | some m =>
    let q := (s.port m).txQueue
    ((s.withoutRole m .unrouted St.LNK_EXTRA).modPort m fun x => { x with txQueue := [] }).modPort n fun x =>
      { x with txQueue := x.txQueue ++ q }
  | none => s

/-- COMPARE at a trained port that held the role `before`: its state, role and status (R336). -/
def State.compareFrom (s : State) (n before : Nat) : State :=
  let s := s.modPort n fun x =>
    { x with step := .trained, fast := false, retrain := false, lastRole := noRole,
             version := if x.peerVmin ≤ 1 && 1 ≤ x.peerVmax then 1 else 0,
             digestMatch := s.links.plan.isSome && decide (x.peerDigest = s.flockDigest) }
  let s := match s.finding n with
    | .version => s.withoutRole n .mgmtOnly St.LNK_VERSION
    | .digest => s.withoutRole n .mgmtOnly St.LNK_FLOCK_DIGEST
    | .mismatch => s.withoutRole n .mgmtOnly St.LNK_PEER_MISMATCH
    | .extra => s.withoutRole n .unrouted St.LNK_EXTRA
    | .own => (s.evict n n).takeRole n n
    | .swapped r =>
      let strict := match s.links.plan with | some pl => pl.strict | none => false
      if strict then s.withoutRole n .mgmtOnly St.LNK_SWAPPED else (s.portEvent n St.LNK_SWAPPED).takeRole n r
  let r := (s.port n).role.toNat
  let s := if before ≠ r then s.releaseRole n before else s.settlePlan
  ((s.pumpPort n).retryHeld HeldPacket.waitsRole).recheckOrd r

/-- COMPARE at a trained port (R336). -/
def State.compare (s : State) (n : Nat) : State :=
  let x := s.port n
  s.compareFrom n (if x.state = .retraining then x.lastRole else x.role).toNat

/-- Every trained port compares again, with no role held from a former plan; each sends its identity record anew, so that the peer
compares too (R335, R336). -/
def State.compareAll (s : State) : State :=
  let ups := ((List.range 20).filter fun n => (s.port n).state.up).map fun n => (n, (s.port n).role.toNat)
  let s := ups.foldl (fun s nr => s.modPort nr.1 fun x => { x with role := noRole }) s
  let s := ups.foldl (fun s nr => s.compareFrom nr.1 nr.2) s
  ups.foldl (fun s nr =>
    (s.modPort nr.1 fun x => { x with sentRecord := some (s.identityRecord nr.1) }).sendMgmt nr.1
      (.identity (some (s.identityRecord nr.1)))) s

/-- LINK_COMPARE (R336): step 6 of training. -/
def execLinkCompare (n : PortId) (s : State) : Out :=
  let x := s.port n.val
  if !s.mayTrain n.val || x.step ≠ .compare then nothing s
  else .next ((s.modPort n.val fun x =>
    { x.resend with progressTime := s.now, winTime := s.now, calTime := s.now, flitTime := s.now }).compare n.val)

/-! ## Committing a plan (R335) -/

/-- A byte of the plan shadow. -/
def State.shadowByte (s : State) (i : Nat) : Nat := (smapGet 0 s.links.shadow i).toNat
/-- A little-endian field of the plan shadow. -/
def State.shadowField (s : State) (o n : Nat) : Nat := ofBytes (memRead s.links.shadow o n)

/-- The entry of port n in the plan shadow. -/
def State.shadowEntry (s : State) (n : Nat) : PlanEntry :=
  let o := 64 + 16 * n
  { use := s.shadowByte o, required := decide (s.shadowByte (o + 1) = 1), peerChip := BitVec.ofNat 16 (s.shadowField (o + 2) 2),
    peerPort := BitVec.ofNat 8 (s.shadowByte (o + 4)), width := s.shadowByte (o + 5) }

/-- The form of an entry: every field in range and reserved bytes zero. An unused entry's PLAN_WIDTH may be 0. -/
def State.entryForm (s : State) (n : Nat) : Bool :=
  let o := 64 + 16 * n
  let e := s.shadowEntry n
  decide (e.use ≤ 2) && decide (s.shadowByte (o + 1) ≤ 1) && decide (s.shadowField (o + 6) 10 = 0)
    && ([8, 4, 2, 1].contains e.width || (e.use = 0 && e.width = 0))
    && (e.use = 0 || (decide (e.peerChip ≠ 0xFFFF) && decide (e.peerPort.toNat < 20)))

/-- The form of the whole plan shadow. -/
def State.planForm (s : State) : Bool :=
  decide (s.shadowField 0 4 = 0x10000) && decide (s.shadowField 4 2 ≠ 0xFFFF) && decide (s.shadowByte 6 ≤ 1)
    && decide (s.shadowByte 7 = 0) && decide (s.shadowField 0x34 12 = 0)
    && decide (1 ≤ s.shadowField 0x30 4) && decide (s.shadowField 0x30 4 ≤ 60000) && (List.range 20).all s.entryForm

/-- USE suits a port: none on a fused one, 1 on fabric ports, 2 on service ports. -/
def State.useSuits (s : State) (n : Nat) : Bool :=
  let u := (s.shadowEntry n).use
  u = 0 || (s.facts.grade.hasPort n && decide (u = if n < 18 then 1 else 2))

/-- The refusal of a commit, or none. -/
def State.planRefusal (s : State) : Option Status :=
  if (List.range 16).any fun p => (s.pasture p).started then some St.LNK_PLAN_BUSY
  else if !s.planForm then some St.LNK_PLAN_FORMAT
  else if s.shadowField 8 8 ≠ s.facts.serial.toNat then some St.LNK_PLAN_SERIAL
  else if !(List.range 20).all s.useSuits then some St.LNK_PLAN_PORT
  else none

/-- The plan in the shadow. -/
def State.shadowPlan (s : State) : Plan :=
  { selfChip := BitVec.ofNat 16 (s.shadowField 4 2), strict := decide (s.shadowByte 6 = 1),
    digest := BitVec.ofNat 256 (s.shadowField 0x10 32), waitMs := s.shadowField 0x30 4,
    entries := (List.range 20).map s.shadowEntry }

/-- PLAN_COMMIT (R335): refused with its status, or the plan replaces the former one and every trained port compares again. -/
def execPlanCommit (s : State) : Out :=
  match s.planRefusal with
  | some st => .next (({ s with links := { s.links with planStatus := st } }).pkgEvent st 0)
  | none =>
    let s := { s with links := { s.links with
      plan := some s.shadowPlan, planStatus := St.OK, planState := 1, planTime := s.now, waited := false, rolesLost := 0 } }
    .next s.compareAll.settlePlan

/-- PLAN_WAIT_EXPIRY (R336): unmatched required and optional entries are decided. -/
def execPlanWaitExpiry (s : State) : Out :=
  match s.links.plan with
  | none => nothing s
  | some pl =>
    if s.links.waited || s.now < s.links.planTime + pl.waitMs * msT then nothing s
    else
      let open_ := (List.range 20).filter fun r => decide ((s.planEntry r).use ≠ 0) && !s.roleMatched r
      let s := open_.foldl (fun s r =>
        s.pkgEvent (if (s.planEntry r).required then St.LNK_MISSING_REQUIRED else St.LNK_MISSING_OPTIONAL) r) s
      let s := { s with links := { s.links with waited := true } }
      .next (if open_.any fun r => (s.planEntry r).required then
        ({ s with links := { s.links with planState := 3 } }).alert 4 else s)

/-! ## Logical ports (R338) -/

/-- The routing entries in force that name logical port m. -/
def State.lportUsed (s : State) (m : Nat) : Bool :=
  ((List.range 16).any fun p => (s.pasture p).started)
    && (if s.fabric.routeActive then s.fabric.route1 else s.fabric.route0).any fun kv =>
      bitAt kv.2 31 && bitAt kv.2 29 && decide (field kv.2 28 24 % 16 = m)

/-- LPORT_WRITE (R338): refused where it would share a role or change a logical port in use. -/
def execLportWrite (m : Fin 16) (value : BitVec 18) (s : State) : Out :=
  let shared := (List.range 16).any fun j => decide (j ≠ m.val) && decide (smapGet 0 s.links.lports j &&& value ≠ 0)
  if shared || (s.lportUsed m.val && decide (smapGet 0 s.links.lports m.val ≠ value)) then
    .next (({ s with links := { s.links with planStatus := St.LNK_LPORT_BUSY } }).pkgEvent St.LNK_LPORT_BUSY m.val)
  else
    let held := s.links.rolesHeld
    let gone := ((List.range 18).filter fun r =>
      bitAt (smapGet 0 s.links.lports m.val) r && bitAt held r && decide (smapGet 0 s.links.lports m.val ≠ value)).foldl State.markSent s
    .next (({ gone with links := { s.links with lports := smapPut s.links.lports m.val value, planStatus := St.OK } }).retryHeld
      HeldPacket.waitsRole)

/-! ## LNK_CFG_n (R339) -/

/-- DISABLE holds the lanes in electrical idle: the port is OFF until it is cleared, and then trains, but for a port that is effectively bad
(R412). The fused ports of R323 ignore it. -/
def State.disablePort (s : State) (n : Nat) (on : Bool) : State :=
  let x := s.port n
  if !s.facts.grade.hasPort n || x.disable == on then s
  else if s.portDead n then s.modPort n fun x => { x with disable := on }
  else if on then
    let s := if x.state.up || x.state = .retraining then s.downPort n else s
    s.modPort n fun x => { x with disable := true, state := .off, step := .detect }
  else s.modPort n fun x => { x with disable := false, state := .training, step := .detect, fast := false, stepTime := s.now }

end Sys2Proof.Machine
end

