-- ==== Sys2Proof/Machine/Links.lean ====
section
/-!
DEFINITION. The link layer in service: received flits, acknowledgment and replay, lane health and width changes, calibration
(R324, R325, R327, R331, R334, R351, R352, R435).
-/
namespace Sys2Proof.Machine

/-! ## Acknowledgment and replay (R327) -/

/-- The flits of a replay buffer that an ACK leaves: those from ACK on. An ACK outside the buffer's numbers changes nothing. -/
def Port.afterAck (x : Port) (ack : BitVec 10) : List (BitVec 10 × FlitPayload) :=
  match x.replayBuf with
  | [] => []
  | (q, _) :: _ => if (ack - q).toNat ≤ x.replayBuf.length then x.replayBuf.drop (ack - q).toNat else x.replayBuf

/-- Apply an ACK: progress ends a series of replays. -/
def Port.acked (x : Port) (ack : BitVec 10) (now : Nat) : Port :=
  let rest := x.afterAck ack
  if rest.length = x.replayBuf.length then x
  else { x with replayBuf := rest, sentBefore := x.sentBefore - (x.replayBuf.length - rest.length), progressTime := now, noProgress := 0
                outBuf := x.outBuf.filter fun f => rest.any fun g => decide (g.1 = f.1) }

/-- Apply the credits of a CREDIT field (R351). -/
def Port.credited (x : Port) (c : BitVec 25) : Port :=
  let lane := field c 24 22
  { x with credits := smapPut x.credits lane (smapGet 0 x.credits lane - field c 21 12) }

/-- A replay: every flit not acknowledged goes again, and the replay is counted; the eighth in a row without progress is reported and
retrains the port. -/
def State.replay (s : State) (n : Nat) : State :=
  let x := s.port n
  let s := s.putPort n { x.resend with replays := satInc x.replays, noProgress := x.noProgress + 1, progressTime := s.now }
  if x.noProgress + 1 ≥ 8 then ((s.portEvent n St.LNK_REPLAY_LIMIT).askRetrain n).startRetrain n else s

/-- A NAK: the transmitter resends from ACK. -/
def State.nakked (s : State) (n : Nat) (ack : BitVec 10) : State :=
  let s := s.modPort n fun x => x.acked ack s.now
  if (s.port n).replayBuf.isEmpty then s else s.replay n

/-- LINK_NAK (R327): a NAK, in whatever flit it travels. -/
def execLinkNak (n : PortId) (ack : BitVec 10) (s : State) : Out :=
  if (s.port n.val).state.up then .next (((s.nakked n.val ack).pumpPort n.val).retryMembers) else nothing s

/-- ACK_TIMEOUT (R327): no progress for 1 µs. -/
def execAckTimeout (n : PortId) (s : State) : Out :=
  let x := s.port n.val
  if x.state.up && !x.replayBuf.isEmpty && decide (usT ≤ s.now - x.progressTime) then .next (s.replay n.val) else nothing s

/-! ## Width changes (R331, R334) -/

/-- The plan's width of the role a port holds. -/
def State.planWidth (s : State) (n : Nat) : Nat := (s.planEntry (s.port n).role.toNat).width

/-- Switch to a lane group: counted and reported; what is not acknowledged goes again (R331); narrower than planned, the port is DEGRADED,
and reservations are rechecked. Lanes dropped begin to be watched for a clean second. -/
def State.setWidth (s : State) (n : Nat) (g : Byte) : State :=
  let x := s.port n
  let gone := (List.range 8).filter fun i => bitAt x.lanes i && !bitAt g i
  let watch := smapKeep (fun i => !bitAt g i) (gone.foldl (fun m i => smapPut m i s.now) x.cleanSince)
  let s := (s.putPort n { x.resend with
      lanes := g, width := BitVec.ofNat 4 (laneCount g), degrades := satInc x.degrades, healthy := x.healthy ||| g,
      failing := x.failing &&& g, cleanSince := watch, proposal := none, peerProposal := none }).portEvent n St.LNK_WIDTH_DEGRADED
  let s := s.noteCauseAll St.LNK_WIDTH_DEGRADED
  if !(s.port n).state.carries then s
  else
    let narrow := decide (laneCount g < s.planWidth n)
    let s := s.modPort n fun x => { x with state := if narrow then .degraded else .active }
    let s := if narrow then (s.noteCauseAll St.LNK_NARROW).portEvent n St.LNK_NARROW else s
    s.recheckOrd (s.port n).role.toNat

/-- LANE_LOST (R331): a fast degrade, named to the far end before this end switches, a retrain where no DEGRADE can pass, or DOWN with the last lane; a renegotiation under way is
abandoned. -/
def execLaneLost (n : PortId) (lane : Fin 8) (bothDirections : Bool) (s : State) : Out :=
  let x := s.port n.val
  if !x.state.up then nothing s
  else
    let healthy := x.healthy &&& ~~~(BitVec.twoPow 8 lane.val)
    let s := s.putPort n.val { x with healthy := healthy, proposal := none, peerProposal := none }
    if !bitAt x.lanes lane.val then
      .next (s.modPort n.val fun x =>
        if (smapFind x.cleanSince lane.val).isSome then { x with cleanSince := smapPut x.cleanSince lane.val s.now } else x)
    else match chooseGroup healthy with
      | none => .next (s.downPort n.val)
      | some g =>
        if bothDirections then .next (s.startRetrain n.val)
        else .next ((s.modPort n.val fun x => x.sendNow (.degrade g) s.now).setWidth n.val g)

/-- The far end names a new group: both ends switch (R331). It lost a lane of the group before, and does not say which: none of those it
drops is healthy in both directions until a re-widening (R330; assumption 65). -/
def State.degradeTo (s : State) (n : Nat) (g : Byte) : State :=
  if laneGroups.contains g then
    (s.modPort n fun x => { x with healthy := x.healthy &&& (g ||| ~~~x.lanes), proposal := none, peerProposal := none }).setWidth n g
  else s

/-- DEGRADE (R331). -/
def execDegrade (n : PortId) (lanes : Byte) (s : State) : Out :=
  if (s.port n.val).state.up then .next (s.degradeTo n.val lanes) else nothing s

/-- WIDTH_PROPOSAL (R334): kept until this end's next opportunity. -/
def execWidthProposal (n : PortId) (lanes : Byte) (s : State) : Out :=
  if (s.port n.val).state.up && laneGroups.contains lanes then
    .next (s.modPort n.val fun x => { x with peerProposal := some lanes })
  else nothing s

/-- The far end accepts a proposal: both ends switch. -/
def State.accepted (s : State) (n : Nat) (g : Byte) : State :=
  if (s.port n).proposal = some g then s.setWidth n g else s

/-- WIDTH_ACCEPT (R334). -/
def execWidthAccept (n : PortId) (lanes : Byte) (s : State) : Out :=
  if (s.port n.val).state.up then .next (s.accepted n.val lanes) else nothing s

/-! ## Lane health and calibration (R331, R334) -/

/-- How often the lanes of a port have passed a multiple of LANE_THRESH in a window (R437). -/
def Port.passes (x : Port) : Nat :=
  if x.laneThresh = 0 then 0
  else ((List.range 8).filter (bitAt x.lanes)).foldl (fun n i => n + smapGet 0 x.laneCorr i / x.laneThresh.toNat) 0

/-- The event of a passed multiple of LANE_THRESH, and ALERT cause 3 (R437, R442). No rule gives the event's status: it is a free value
(DESIGN CHOICE, assumption 120). -/
def State.laneAlarm (s : State) (n : Nat) : State :=
  let (st, s) := s.draw
  (s.pkgEvent (BitVec.ofNat 16 st) n).alert 3

/-- LANE_HEALTH_WINDOW (R331): a lane above LANE_THRESH in three windows running is failing; a threshold of 0 finds none and raises
nothing (R437). -/
def execLaneHealthWindow (n : PortId) (s : State) : Out :=
  let x := s.port n.val
  if !x.state.up || s.now < x.winTime + msT then nothing s
  else
    let isOver (i : Nat) : Bool := x.laneThresh ≠ 0 && decide (x.laneThresh.toNat < smapGet 0 x.laneCorr i)
    let bad (i : Nat) : Nat := if isOver i then smapGet 0 x.laneBad i + 1 else 0
    let lanes := (List.range 8).filter (bitAt x.lanes)
    let failing := (lanes.filter fun i => decide (3 ≤ bad i)).foldl (fun m i => m ||| BitVec.twoPow 8 i) (0 : Byte)
    .next ((List.range x.passes).foldl (fun s _ => s.laneAlarm n.val) (s.putPort n.val { x with
      winTime := s.now, laneCorr := [], failing := failing, laneBad := lanes.map fun i => (i, bad i) }))

/-- The calibration pasture of a port (R334). -/
def State.calPasture (s : State) (n : Nat) : Option Nat :=
  let x := s.port n
  let beats (p : Nat) : Bool := (s.pasture p).beating
  if x.calAuto then
    let west := n < 9 || n = 18
    (List.range 16).find? fun p => beats p && s.holdsCol p (if west then 0 else s.gridW - 1)
  else if beats x.calPas.toNat then some x.calPas.toNat else none

/-- An opportunity is due: in a watch of the calibration pasture, or 3.0 µs after the last where none beats. -/
def State.calDue (s : State) (n : Nat) : Bool :=
  match s.calPasture n with
  | some p => inWatch (s.logOf p)
  | none => decide ((s.port n).calTime + 3 * usT ≤ s.now)

/-- The width change a port proposes: a soft degrade for failing lanes, or a re-widening once every dropped lane has run clean
for 1 s. -/
def Port.wish (x : Port) (now : Nat) : Option Byte :=
  if x.failing ≠ 0 then chooseGroup (x.healthy &&& ~~~x.failing)
  else if !x.cleanSince.isEmpty && x.cleanSince.all fun kv => decide (kv.2 + 1000 * msT ≤ now) then
    chooseGroup (x.cleanSince.foldl (fun m kv => m ||| BitVec.twoPow 8 kv.1) x.lanes)
  else none

/-- CALIBRATION_OPPORTUNITY (R334): `clean` names the dropped lanes that measure clean. A proposal of the far end is accepted, and this end
switches once the acceptance is on the lanes, or one of this end's is made. -/
def execCalibrationOpportunity (n : PortId) (clean : Byte) (s : State) : Out :=
  let x := s.port n.val
  if !x.state.up || !s.calDue n.val then nothing s
  else
    let x := { x with calTime := s.now, cleanSince := smapMap (fun i t => if bitAt clean i then t else s.now) x.cleanSince }
    let s := s.putPort n.val x
    match x.peerProposal with
    | some g => .next ((s.modPort n.val fun x => x.sendNow (.acceptance g) s.now).setWidth n.val g)
    | none =>
      match x.wish s.now with
      | none => .next s
      | some g =>
        if x.proposal = some g || g = x.lanes then .next s
        else .next ((s.modPort n.val fun x => { x with proposal := some g }).sendMgmt n.val (.proposal g))

/-! ## Receiving a flit (R324, R325, R327, R351, R352) -/

/-- A flit is discarded: the receiver sends one NAK per error episode, in its next flit, with ACK the number it expects. -/
def Port.discard (x : Port) : Port := if x.nakSent then x else { x with nakSent := true, nakDue := true }

/-- The lane that symbol i of a codeword is dealt to: the active lanes take the symbols in turn (R325). -/
def Port.laneOf (x : Port) (i : Nat) : Nat :=
  let ls := (List.range 8).filter (bitAt x.lanes)
  ls.getD (i % ls.length) 0

/-- The symbols corrected in a codeword, each charged to its lane (R325, R331). -/
def Port.corrected (x : Port) (errors : List Nat) : Port :=
  { x with fecCorr := satAdd x.fecCorr errors.length
           laneCorr := errors.foldl (fun m i => smapPut m (x.laneOf i) (smapGet 0 m (x.laneOf i) + 1)) x.laneCorr }

/-- The flit with the expected number is accepted: the error episode is over. -/
def Port.acceptSeq (x : Port) : Port := { x with rxSeq := x.rxSeq + 1, nakSent := false }

/-- An accepted fabric packet goes to its receive lane; a full buffer is an overrun that retrains the port (R352). -/
def State.receivePacket (s : State) (n : Nat) (p : FabPacket) : State :=
  let x := s.port n
  let lane := p.lane
  let q := smapGet [] x.rxLanes lane
  match x.state with
  | .active | .degraded =>
    if laneBuffer lane ≤ q.length then ((s.pkgEvent St.FAB_HOP_OVERRUN n).askRetrain n).startRetrain n
    else s.putPort n { x.acceptSeq with rxLanes := smapPut x.rxLanes lane (q ++ [p]) }
  | .unrouted =>
    s.putPort n { x.acceptSeq with
      unroutedDrops := satInc x.unroutedDrops, freed := smapPut x.freed lane (smapGet 0 x.freed lane + 1) }
  | .off | .training | .mgmtOnly | .down | .retraining => s.putPort n x.acceptSeq

/-- What a management flit does (R331, R334, R337). -/
def State.receiveMgmt (s : State) (n : Nat) (m : MgmtFlit) : State :=
  match m with
  | .identity (some r) => (s.modPort n fun x => x.identified r).compare n
  | .identity none | .unknown => s
  | .degrade g => s.degradeTo n g
  | .proposal g => if laneGroups.contains g then s.modPort n fun x => { x with peerProposal := some g } else s
  | .acceptance g => s.accepted n g
  | .retrainRequest => s.startRetrain n

/-- A packet is lost with an uncorrectable word of a link-engine buffer (R435): at a fabric port it counts as one whose retrain did not
replay it and no route took (R350; DESIGN CHOICE, assumption 121). -/
def State.lostInBuffer (s : State) (n : Nat) (m : FlitPayload) : State :=
  match m with
  | .fabric _ => if n < 18 then (s.modPort n fun x => { x with routeLost := satInc x.routeLost }).pkgEvent St.FAB_ROUTE_LOST n else s
  | .idle | .mgmt _ | .reserved => s

/-- A port retrains after an uncorrectable word of one of its buffers (R435). -/
def State.bufferFault (s : State) (n : Nat) : State := ((s.portEvent n St.LNK_BUFFER_UNCORR).askRetrain n).startRetrain n

/-- An uncorrectable word of a replay buffer drops its flit (R435); the flit's number goes on as a flit that carries nothing
(assumption 121). -/
def State.spoilReplay (s : State) (n i : Nat) : State :=
  match (s.port n).replayBuf[i]? with
  | none => s
  | some f =>
    let blank (g : BitVec 10 × FlitPayload) : BitVec 10 × FlitPayload := if g.1 = f.1 then (g.1, .mgmt .unknown) else g
    ((s.modPort n fun x => { x with replayBuf := x.replayBuf.map blank, outBuf := x.outBuf.map blank }).lostInBuffer n f.2).bufferFault n

/-- A flit with good FEC and CRC: its ACK, NAK and credits, then its payload if it has the number expected. -/
def State.receiveFlit (s : State) (n : Nat) (f : LinkFlit) (bufferOk : Bool) : State :=
  let s := s.modPort n fun x => (x.acked f.ack s.now).credited f.credit
  let s := ((if f.nak then s.nakked n f.ack else s).pumpPort n).retryMembers
  let x := s.port n
  if !x.state.up then s
  else if f.seq ≠ x.rxSeq then s.putPort n x.discard
  else match f.payload with
    | .idle | .reserved => s.putPort n { x with nakSent := false }
    | .mgmt m => (s.putPort n x.acceptSeq).receiveMgmt n m
    | .fabric p =>
      if bufferOk then s.receivePacket n p
      else ((s.putPort n x.acceptSeq).lostInBuffer n f.payload).bufferFault n

/-- The codeword that begins within flit m of the stream, if one does: 2,048 bits a flit, 5,140 a codeword (R324, R325). -/
def codewordIn (m : Nat) : Option Nat :=
  let c := ceilDiv (2048 * m) 5140
  if 5140 * c < 2048 * (m + 1) then some c else none

/-- The place in the stream after the last flit that overlaps a codeword. -/
def codewordEnd (c : Nat) : Nat := (5140 * c + 5139) / 2048 + 1

/-- A flit of the stream is received, and with it the codeword that begins in it, if one does: up to 15 symbols in error are corrected; a
codeword with more is counted once, and every flit that overlaps it is dropped (R325). -/
def Port.nextReceived (x : Port) (errors : List Nat) : Port :=
  let x' := { x with rxFlits := x.rxFlits + 1 }
  match codewordIn x.rxFlits with
  | some c => if errors.length ≤ 15 then x'.corrected errors else { x' with fecUncorr := satInc x.fecUncorr, badUntil := max x.badUntil (codewordEnd c) }
  | none => x'

/-- LINK_FLIT_RECEIVE (R327): a flit dropped with its codeword is treated as one whose CRC fails (R325). -/
def execLinkFlitReceive (n : PortId) (raw : List Byte) (r : FlitReception) (s : State) : Out :=
  let x := (s.port n.val).nextReceived r.errors
  let f := LinkFlit.ofBytes raw r.dateline
  if !(s.port n.val).state.up then nothing s
  else if (s.port n.val).rxFlits < x.badUntil || !flitCrcOk raw then .next (s.putPort n.val { x.discard with crcFail := satInc x.crcFail })
  else if f.payload = FlitPayload.reserved then .next (s.putPort n.val { x with crcFail := satInc x.crcFail })
  else .next ((s.putPort n.val x).receiveFlit n.val f r.bufferOk)

end Sys2Proof.Machine
end

