-- ==== Sys2Proof/Machine/BootBase.lean ====
section
/-!
DEFINITION. Yield mapping: the field defect record, the effective defect map, the column map and the presented grid, and the
fetch of tile firmware (R408, R409, R411 to R421).
-/
namespace Sys2Proof.Machine

/-- A status raised by bring-up: kept as LAST_STATUS of BOOT_STAT, and an event on PF0's error vector (R427, R430). -/
def State.bootEvent (s : State) (st : Status) (detail : Nat) : State :=
  ({ s with boot := { s.boot with lastStatus := st } }).pkgEvent st detail

/-- Management-only mode (R5, R404): not ready, no grid, ALERT cause 7, and configuration requests are answered. -/
def State.enterMgmtOnly (s : State) : State :=
  ({ s with boot := { s.boot with mgmtOnly := true, belowGrade := false, ready := false, crs := false, gridW := 0, colMap := [],
                                  retired := BitVec.allOnes 68,
                                  downSince := some (s.boot.downSince.getD s.now) } }).alert 7

/-! ## Units and defects -/

/-- The key of a physical tile. -/
def physKey (px py : Nat) : Nat := 68 * py + px

/-- The physical column of a virtual one. -/
def State.pxOf (s : State) (vx : Nat) : Nat := smapGet vx s.boot.colMap vx

/-- Bytes 0 to 27 of an entry of the field defect record (R413). -/
def Defect.bytes (d : Defect) : List Byte :=
  [d.kind, d.px, d.py, d.cause] ++ bytesOf 4 d.boot.toNat ++ bytesOf 2 d.test.toNat ++ List.replicate 18 0

/-- An entry with its CRC. -/
def Defect.sealed (d : Defect) : Defect := { d with crc := crc32c d.bytes }

/-- The valid entries of the record: one whose CRC fails is ignored (R413). -/
def Boot.defects (b : Boot) : List Defect := b.fdr.filter fun d => decide (d.crc = crc32c d.bytes)

/-- The record holds an entry for a unit: KIND 1 a tile, 2 a port. -/
def State.recorded (s : State) (kind px py : Nat) : Bool :=
  s.boot.defects.any fun d => decide (d.kind.toNat = kind) && decide (d.px.toNat = px) && decide (d.py.toNat = py)

/-- Append an entry (R413), with ALERT cause 8; a full record keeps it out with an event. -/
def State.addDefect (s : State) (kind px py cause : Nat) (test : BitVec 16) : State :=
  let b := s.boot
  if b.fdr.length ≥ 2048 then (s.bootEvent St.BOOT_FDR_FULL (physKey px py)).alert 8
  else
    let d : Defect := { kind := BitVec.ofNat 8 kind, px := BitVec.ofNat 8 px, py := BitVec.ofNat 8 py,
                        cause := BitVec.ofNat 8 cause, boot := b.bootCount, test := test }
    ({ s with boot := { b with
        fdr := b.fdr ++ [d.sealed]
        newDefects := satInc b.newDefects } }).alert 8

/-- A start-up failure of a unit that is fused good and has no entry: recorded, with an event (R411). -/
def State.noteFailure (s : State) (isPort : Bool) (px py cause : Nat) (test : BitVec 16) : State :=
  let kind := if isPort then 2 else 1
  let fused := if isPort then s.facts.fusedPorts.contains px else s.facts.fusedTiles.contains (physKey px py)
  let known := if isPort then s.boot.badPorts.contains px else s.boot.badTiles.contains (physKey px py)
  if fused || known || s.recorded kind px py then s
  else
    let s := { s with boot := { s.boot with
      badTiles := if isPort then s.boot.badTiles else s.boot.badTiles ++ [physKey px py]
      badPorts := if isPort then s.boot.badPorts ++ [px] else s.boot.badPorts } }
    (s.addDefect kind px py cause test).bootEvent St.BOOT_BIST_NEW (if isPort then px else physKey px py)

/-- Step 7 (R411, R412): the effective map from fuses, record and start-up results; a bad port is OFF, and is reported once. -/
def State.formDefects (s : State) : State :=
  let b := s.boot
  let tiles := (b.defects.filter fun d => decide (d.kind = 1)).map fun d => physKey d.px.toNat d.py.toNat
  let ports := (b.defects.filter fun d => decide (d.kind = 2)).map fun d => d.px.toNat
  let s := { s with boot := { b with
    badTiles := (b.badTiles ++ s.facts.fusedTiles ++ tiles).eraseDups, badPorts := (b.badPorts ++ s.facts.fusedPorts ++ ports).eraseDups } }
  let s := b.waveBad.foldl (fun s w => (List.range 160).foldl (fun s i => s.noteFailure false (4 * w + i % 4) (i / 4) 3 0) s) s
  let s := b.failed.foldl (fun s f => s.noteFailure f.isPort f.px.toNat f.py.toNat (if f.inconclusive then 2 else 1) f.test) s
  (s.boot.badPorts.filter fun n => !b.badPorts.contains n).foldl (fun s n =>
    (s.modPort n fun x => { x.untrained with state := .off, step := .detect }).bootEvent St.BOOT_PORT_FAILED n) s

/-! ## The column map (R414, R415) -/

/-- The next good index after i, or 34. -/
def nextGood (good : List Bool) (i : Nat) : Nat :=
  ((List.range 34).find? fun j => decide (i < j) && good.getD j false).getD 34

/-- One step of map_half: the good columns still to leave unmapped, the last mapped index, and the indices mapped. -/
def mapStep (good : List Bool) (acc : Option (Int × Int × List Nat)) (i : Nat) : Option (Int × Int × List Nat) :=
  match acc with
  | none => none
  | some (u, last, ms) =>
    if !good.getD i false then some (u, last, ms)
    else
      let nx := nextGood good i
      if u > 0 && nx < 34 && (nx : Int) - last ≤ 3 then some (u - 1, last, ms)
      else if (i : Int) - last > 3 then none
      else some (u, i, ms ++ [i])

/-- map_half of R414: the mapped indices of one half, or none. -/
def mapHalf (good : List Bool) (m : Nat) : Option (List Nat) :=
  let u : Int := ((good.filter id).length : Int) - m
  if u < 0 then none
  else match (List.range 34).foldl (mapStep good) (some (u, -1, [])) with
    | some (u, last, ms) => if u = 0 && last ≥ 32 then some ms else none
    | none => none

/-- A physical column is good: all its 40 tiles are. -/
def State.colGood (s : State) (px : Nat) : Bool := !s.boot.badTiles.any fun k => decide (k % 68 = px)

/-- The physical columns of the grid with m columns in each half, in ascending order, or none. -/
def State.mapGrid (s : State) (m : Nat) : Option (List Nat) :=
  match mapHalf ((List.range 34).map s.colGood) m, mapHalf ((List.range 34).map fun i => s.colGood (67 - i)) m with
  | some w, some e => some (w ++ (e.map (67 - ·)).reverse)
  | _, _ => none

/-- The grid's columns in each half by grade (R3). -/
def Grade.halfCols : Grade → Nat
  | .ltf64x | .ltf64 => 32
  | .ltf56 => 28

/-- Present a grid: the map, the retired columns and the enabled ring stubs (R28, R415, R429). -/
def State.present (s : State) (cols : List Nat) : State :=
  let retired := (List.range 68).filter fun p => !cols.contains p
  { s with
    boot := { s.boot with
      gridW := cols.length
      colMap := (List.range cols.length).map fun vx => (vx, cols.getD vx 0)
      retired := BitVec.ofNat 68 (retired.foldl (fun n p => n + 2 ^ p) 0) }
    west := { s.west with stub := cols[0]? }
    east := { s.east with stub := cols.getLast? } }

/-- A tile's DNW_TILE_CFG by the column map: seams and reaches (R227). -/
def State.reaches (s : State) (k : Nat) (t : Tile) : Tile :=
  let vx := keyVx k
  let w := s.gridW
  { t with
    seamE := decide (vx + 1 = w / 2), seamW := decide (vx = w / 2)
    eastReach := if vx + 1 < w then BitVec.ofNat 2 (s.pxOf (vx + 1) - s.pxOf vx) else 0
    westReach := if 0 < vx then BitVec.ofNat 2 (s.pxOf vx - s.pxOf (vx - 1)) else 0 }

/-- The physical columns of a half (R20). -/
def halfColumns : Half → List Nat
  | .west => List.range 34
  | .east => (List.range 34).map (34 + ·)

/-- A mask of physical columns. -/
def columnMask (ps : List Nat) : BitVec 68 := ps.foldl (fun m p => m ||| BitVec.twoPow 68 p) 0

/-- The tiles of retired and unmapped columns are power-gated; those of mapped columns are powered in a half that is not parked
(R228, R408). -/
def State.gateColumns (s : State) : State :=
  let on (h : Half) : List Nat := if (s.half h).state = .parked then [] else halfColumns h
  { s with boot := { s.boot with powered := columnMask (on .west ++ on .east) &&& ~~~s.boot.retired } }

/-- The keys of the virtual grid. -/
def State.gridTiles (s : State) : List Nat := (List.range 40).flatMap fun vy => (List.range s.gridW).map fun vx => tileKey vx vy

/-- The loader writes DNW_TILE_CFG of every mapped tile. -/
def State.writeReaches (s : State) : State := s.gridTiles.foldl (fun s k => s.modTile k (s.reaches k)) s

/-- The presented grid (R414, R415): that of the grade, else 56 × 40 below grade, else management-only mode. -/
def State.mapColumns (s : State) : State :=
  let m := s.facts.grade.halfCols
  match s.mapGrid m with
  | some cols => (({ s with boot := { s.boot with belowGrade := false } }).present cols).writeReaches
  | none =>
    match (if m = 32 then s.mapGrid 28 else none) with
    | some cols =>
      ((({ s with boot := { s.boot with belowGrade := true } }).present cols).writeReaches).bootEvent St.BOOT_BELOW_GRADE cols.length
    | none => s.enterMgmtOnly.bootEvent St.BOOT_MGMT_ONLY 0

/-- Step 8 (R408, R414, R415): the grid is presented, and columns outside it are power-gated. -/
def State.formColumns (s : State) : State := s.mapColumns.gateColumns

/-! ## Tile firmware (R416 to R421) -/

/-- The image as it is stored: 16 segments of 4 KiB, each followed by its CRC-32C (R418). -/
def fwSegments (image : List Byte) : List FwSegment :=
  (List.range 16).map fun i => { data := slice image (4096 * i) 4096, crc := crc32c (slice image (4096 * i) 4096) }

/-- The firmware region of an image: 8 copies (R418). -/
def fwCopies (image : List Byte) : List (List FwSegment) := List.replicate 8 (fwSegments image)

/-- The bytes of a firmware region. -/
def regionBytes (r : List (List FwSegment)) : List Byte := r.flatMap fun c => c.flatMap fun g => g.data ++ bytesOf 4 g.crc.toNat

/-- The shepherd writes the image to the firmware region. -/
def State.writeRegion (s : State) : State := { s with boot := { s.boot with region := fwCopies s.boot.tileFw } }

/-- The shepherd checks the region's SM3 digest against the image, and rewrites the region where they differ (R419). -/
def State.checkRegion (s : State) : State :=
  if sm3 (regionBytes s.boot.region) = sm3 (regionBytes (fwCopies s.boot.tileFw)) then s else s.writeRegion

/-- A segment's CRC-32C holds. -/
def segmentOk (g : FwSegment) : Bool := decide (g.crc = crc32c g.data)

/-- What a tile receives of a stored segment in attempt n. -/
def arrivingSegment (us : List FetchUpset) (k i : Nat) (g : FwSegment) (n : Nat) : FwSegment :=
  match us.find? fun u => decide (tileKey u.vx u.vy = k) && decide (u.segment.val = i) with
  | some u => u.received.getD n g
  | none => g

/-- A tile fetches segment i: the first good one of four attempts (R420). -/
def fetchSegment (us : List FetchUpset) (k i : Nat) (g : FwSegment) : Option (List Byte) :=
  (((List.range 4).map (arrivingSegment us k i g)).find? segmentOk).map (·.data)

/-- A tile fetches the image in order from copy (vx + vy) mod 8 (R420); none where a segment fails four times (R421). -/
def State.fetchTile (s : State) (us : List FetchUpset) (k : Nat) : Option (List Byte) :=
  let copy := s.boot.region.getD ((keyVx k + keyVy k) % 8) []
  let got := (List.range 16).map fun i => fetchSegment us k i (copy.getD i { data := [], crc := 1 })
  if got.all Option.isSome then some (got.flatMap (·.getD [])) else none

/-- A tile starts its service engine with the image in its instruction memory. -/
def Tile.startEngine (t : Tile) (image : List Byte) : Tile := { t with firmware := image, fwRunning := true }

/-- Step 9 on the tiles ks: the region is checked, each tile fetches, and one whose segments are all good starts. The answer names the
tiles that fail. -/
def State.fetchPass (s : State) (ks : List Nat) (us : List FetchUpset) : List Nat × State :=
  let s := s.checkRegion
  let got := ks.map fun k => (k, s.fetchTile us k)
  ((got.filter fun g => g.2.isNone).map (·.1),
    got.foldl (fun s g => match g.2 with | some image => s.modTile g.1 (·.startEngine image) | none => s) s)

/-- Tiles whose fetch has failed, among those of `ks`: reported, ALERT cause 7, and recorded with CAUSE 4. -/
def State.fetchFailed (s : State) (ks : List Nat) : State :=
  ks.foldl (fun s k =>
    let px := s.pxOf (keyVx k)
    let s := (s.bootEvent St.BOOT_TILE_FW k).alert 7
    if s.recorded 1 px (keyVy k) then s
    else (({ s with boot := { s.boot with badTiles := s.boot.badTiles ++ [physKey px (keyVy k)] } }).addDefect 1 px (keyVy k) 4 0)) s

/-- Step 9: the tiles `which` selects fetch their firmware; a failure repeats steps 7 to 9 once, and a failing repeat ends in
management-only mode (R421). -/
def State.fetchFirmware (s : State) (which : State → List Nat) (v : FirmwareVerdict) : State :=
  let (bad, s) := s.fetchPass (which s) v.first
  if bad.isEmpty then s
  else
    let s := ((s.fetchFailed bad).formDefects).formColumns
    if s.boot.mgmtOnly then s
    else
      let (bad, s) := s.fetchPass (which s) v.again
      if bad.isEmpty then s else (s.fetchFailed bad).enterMgmtOnly

end Sys2Proof.Machine
end

