-- ==== Sys2Proof/Machine/Context.lean ====
section
/-!
DEFINITION. Context memory: ownership and clearing of channel groups, refresh and scrub in watches and outside them, write
retries, and the beginning of a pasture's beats (R65, R67, R70, R247 to R265).
-/
namespace Sys2Proof.Machine

/-! ## Beginning to beat (R65, R66) -/

/-- A tile at beat 0 with nothing in progress. Its pace gate opens a gate period later, as after a completed beat, so that beat 0 takes
its time too (R57; assumption 107). -/
def Tile.atBeat0 (t : Tile) (now : Nat) : Tile :=
  { t with beat := 0, gateOpen := false, doneTime := now, holds := [], holdEnd := none, running := false, halting := false, starts := none,
           prevIssue := none, first := 0, overlays := [], mxJobs := [], vxJobs := [], mvJobs := [], moveJobs := [], recvJobs := [],
           stkJobs := [], landings := [], busyAt := [], inbox := [], latched := [], early := [], earlyData := [], scrubWin := [] }

/-- Pasture p begins to beat with its log at 0. -/
def State.beginBeats (s : State) (p : Nat) : State :=
  let s := (s.tilesOf p).foldl (fun s k => s.modTile k fun t => t.atBeat0 s.now) s
  let s := { s with cmds := s.cmds.filter fun c => decide (c.pas ≠ p) }
  s.modPas p fun x =>
    { x with beating := true, awaitClear := false, log := 0, lastBeatTime := s.now, waitTime := 0, waitSince := none,
             rateTime := s.now, rateLog := 0, rateStall := 0, lastWatch := s.now, watchSeen := 0, lastLate := s.now }

/-! ## Ownership (R248 to R250) -/

/-- The owner of a group under automatic ownership (R25, R248). -/
def State.autoOwner (s : State) (gid : Nat) : Option Nat :=
  let w := s.gridW / 4
  if w = 0 then none else s.pasOf (gid / 8 % 4 * w + gid % 8 * w / 8)

/-- The present owner of a group. -/
def GroupOwn.owner (o : GroupOwn) : Option Nat := if o.valid then some o.pas.toNat else none

/-- Give a group to an owner: a new owner's clear begins (R250). -/
def State.assignGroup (s : State) (gid : Nat) (owner : Option Nat) : State :=
  let o := s.groupOwn gid
  if o.owner = owner then s
  else
    let s := s.dropCmds fun c => decide (c.group = gid)
    match owner with
    | none => s.putOwn gid { o with valid := false }
    | some p => s.putOwn gid { o with valid := true, pas := BitVec.ofNat 4 p, clearing := true }

/-- Whether a pasture beats. -/
def State.beatsAt (s : State) : Option Nat → Bool
  | none => false
  | some p => (s.pasture p).beating

/-- Whether a change of a group's owner is refused (R249): an owner beats, or the group is reserved or being cleared. -/
def State.ownBusy (s : State) (gid : Nat) (owner : Option Nat) : Bool :=
  let o := s.groupOwn gid
  s.beatsAt o.owner || s.beatsAt owner || o.xfer || o.clearing

/-- The groups to which the automatic rule gives another owner. -/
def State.autoChanges (s : State) : List Nat :=
  (List.range 64).filter fun g => decide ((s.groupOwn g).owner ≠ s.autoOwner g)

/-- The ports recompute automatic ownership (R248); a reserved group keeps its owner (assumption 43). -/
def State.applyAuto (s : State) : State :=
  if s.ownAuto then
    s.autoChanges.foldl (fun s g => if (s.groupOwn g).xfer then s else s.assignGroup g (s.autoOwner g)) s
  else s

/-- Whether pasture p owns a group that is being cleared. -/
def State.clearingFor (s : State) (p : Nat) : Bool := (s.ownedGroups p).any fun g => (s.groupOwn g).clearing

/-- The transfer works on the group: one of its pages lies there. -/
def State.xferOn (s : State) (x : Transfer) (gid : Nat) : Bool :=
  (List.range x.pages).any fun i =>
    match s.stackPlace x.pas ((x.saddr + 32768 * i : Nat) : Int) with
    | some (g, _) => decide (g = gid)
    | none => false

/-- A stack window with an open tracker covers the group (R356). -/
def State.windowOn (s : State) (p gid : Nat) : Bool :=
  let x := s.pasture p
  x.trackers.any fun t =>
    let y : Window := smapGet {} x.windows t.win
    !y.landing && (List.range y.size).any fun i =>
      match s.stackPlace p ((y.base + 4096 * i : Nat) : Int) with
      | some (g, _) => decide (g = gid)
      | none => false

/-- A transfer, or a window's, is in progress on a group (R265, R356). -/
def State.xferBusy (s : State) (gid : Nat) : Bool :=
  (s.xfers.any fun x => s.xferOn x gid) || (List.range 16).any fun p => s.windowOn p gid

/-- A refusal of ownership recorded at a port. -/
def State.ownRefused (s : State) (gid : Nat) : State :=
  s.stkRecord (gid / 8) (s.groupOwn gid).pas.toNat 0 St.STACK_OWN_BUSY

/-- The byte of group g in a written STK_OWN_s. -/
def writtenOwn (v : Word) (g : Nat) : GroupOwn :=
  { valid := bitAt v (8 * g + 7), xfer := bitAt v (8 * g + 6), pas := BitVec.ofNat 4 (field v (8 * g + 3) (8 * g)) }

/-- Whether a write of STK_OWN_s is refused at a group (R249, R265). -/
def State.ownWriteRefused (s : State) (st : Nat) (v : Word) (g : Nat) : Bool :=
  let gid := 8 * st + g
  let o := s.groupOwn gid
  let n := writtenOwn v g
  (!s.ownAuto && decide (o.owner ≠ n.owner) && s.ownBusy gid n.owner) || (o.xfer && !n.xfer && s.xferBusy gid)

/-- Apply a write of STK_OWN_s to one group: VALID and PASTURE are ignored under AUTO. -/
def State.ownWriteGroup (s : State) (st : Nat) (v : Word) (g : Nat) : State :=
  let gid := 8 * st + g
  let n := writtenOwn v g
  let s := if s.ownAuto then s else
    let s := s.assignGroup gid n.owner
    s.putOwn gid { s.groupOwn gid with pas := n.pas }
  s.putOwn gid { s.groupOwn gid with xfer := n.xfer }

/-- OWNERSHIP_WRITE (R249): a write of STK_OWN_s by PF0; refused, it changes no field. -/
def execOwnershipWrite (fn : FnId) (st : StackId) (value : Word) (s : State) : Out :=
  if fn.val ≠ 0 then nothing s
  else match (List.range 8).find? (s.ownWriteRefused st.val value) with
    | some g => .next (s.ownRefused (8 * st.val + g))
    | none => .next ((List.range 8).foldl (fun s g => s.ownWriteGroup st.val value g) s)

/-- AUTO_ENABLE (R249): a write of AUTO from 0 to 1 takes effect at once for every group, or is refused. -/
def execAutoEnable (s : State) : Out :=
  if s.ownAuto then nothing s
  else match s.autoChanges.find? fun g => s.ownBusy g (s.autoOwner g) with
    | some g => .next (s.ownRefused g)
    | none => .next ({ s with ownAuto := true }).applyAuto

/-- GROUP_XFER_WRITE (R265): the owner's function or PF0 sets or clears XFER; clearing it under a transfer is refused. -/
def execGroupXferWrite (fn : FnId) (st : StackId) (g : Fin 8) (on : Bool) (s : State) : Out :=
  let gid := 8 * st.val + g.val
  let o := s.groupOwn gid
  if !(fn.val = 0 || (decide (o.owner = some fn.val) && s.fnOn fn.val)) then nothing s
  else if o.xfer && !on && s.xferBusy gid then .next (s.ownRefused gid)
  else .next (s.putOwn gid { o with xfer := on })

/-- Zero a group with valid check bits. -/
def State.zeroGroup (s : State) (gid : Nat) : State :=
  let out (k : Nat) : Bool := decide (k / 2 ^ 33 ≠ gid)
  ({ s with stackMem := smapKeep out s.stackMem, bursts := smapKeep out s.bursts }).dropCmds fun c => decide (c.group = gid)

/-- Pastures whose start waits for clears that have all ended begin to beat (R250). -/
def State.startAwaiting (s : State) : State :=
  (List.range 16).foldl (fun s p =>
    if (s.pasture p).awaitClear && !(s.pasture p).inTest && !s.pasParked p && !s.clearingFor p then
      let s := s.modPas p fun x => { x with awaitClear := false }
      if (s.pasture p).stopped then s else s.beginBeats p
    else s) s

/-- GROUP_CLEAR_DONE (R250). -/
def execGroupClearDone (st : StackId) (g : Fin 8) (s : State) : Out :=
  let gid := 8 * st.val + g.val
  let o := s.groupOwn gid
  if o.clearing then .next (((s.zeroGroup gid).putOwn gid { o with clearing := false }).startAwaiting)
  else nothing s

/-! ## Refresh and scrub (R257, R258, R261, R70) -/

/-- The visits of a scrub pass over a group: two bursts of each of its 8 pseudo-channels per visit. -/
def State.scrubVisits (s : State) (gid : Nat) : Nat := s.groupSize gid / 1024

/-- The offsets of the 16 bursts that visit n scrubs. -/
def State.scrubOffsets (s : State) (gid n : Nat) : List Nat :=
  (List.range 16).map fun i => (1024 * n + 64 * i) % s.groupSize gid

/-- The pasture-relative address of a group's offset. -/
def State.relAddr (s : State) (gid off : Nat) : Int :=
  match (s.groupOwn gid).owner with
  | some p => ((((s.ownedGroups p).idxOf gid) * 2 ^ 33 + off : Nat) : Int)
  | none => (off : Int)

/-- The scrubber finds a burst it cannot correct (R261): an event to the owner, or to PF0 for an unowned group. -/
def State.scrubUncorr (s : State) (gid off : Nat) : State :=
  let st := gid / 8
  match (s.groupOwn gid).owner with
  | some p => (s.stkRecord st p (s.relAddr gid off) St.STACK_SCRUB_UNCORR).pasEvent p St.STACK_SCRUB_UNCORR gid
  | none => (s.stkRecord st 0 (s.relAddr gid off) St.STACK_SCRUB_UNCORR).pkgEvent St.STACK_SCRUB_UNCORR gid

/-- Scrub one burst: corrected, counted and written back, or reported (R257, R261). -/
def State.scrubBurst (s : State) (gid off : Nat) : State :=
  let key := stackKey gid off
  let r := s.portRead gid off (memRead s.stackMem key 64)
  let s := s.countRead gid off r
  if r.failed then s.scrubUncorr gid off
  else if r.corrected then
    (({ s with stackMem := memWrite s.stackMem key r.data
               bursts := smapDrop s.bursts key }).stkCorrected (gid / 8)).modStack (gid / 8) fun x => { x with scrubCorr := satInc x.scrubCorr }
  else s

/-- One refresh and scrub of a group (R257). -/
def State.scrubGroup (s : State) (gid : Nat) : State :=
  let n := smapGet 0 (s.stack (gid / 8)).scrubPos (gid % 8)
  let s := (s.scrubOffsets gid n).foldl (fun s off => s.scrubBurst gid off) s
  s.modStack (gid / 8) fun x => { x with scrubPos := smapPut x.scrubPos (gid % 8) (n + 1) }

/-- SCRUB_PASSES (R269): complete passes over every group of the stack. -/
def State.scrubPasses (s : State) (st : Nat) : Nat :=
  ((List.range 8).map fun g => smapGet 0 (s.stack st).scrubPos g / s.scrubVisits (8 * st + g)).foldl min (2 ^ 64)

/-- WATCH_START (R67, R107, R257): the log has reached 0 modulo 4,096 and the watch begins: the pasture's groups are refreshed
and scrubbed, and every tile's range-watch counts go to the table. -/
def execWatchStart (p : PasId) (s : State) : Out :=
  let x := s.pasture p
  let log := s.logOf p
  if x.beating && decide (log % 4096 = 0) && decide (x.watchSeen ≤ log / 4096) then
    let s := (s.ownedGroups p).foldl (fun s g => s.scrubGroup g) s
    let s := (s.tilesOf p).foldl (fun s k => s.rwFlush k p) s
    .next (s.modPas p fun x => { x with watchSeen := log / 4096 + 1, lastWatch := s.now })
  else nothing s

/-- A refresh outside a watch delays reads in flight: each landing is late or not, as a free value says (R59, R70). -/
def State.delayLandings (s : State) (p : Nat) (sts : List Nat) : State :=
  ((s.tilesOf p).foldl (fun s k =>
    let r := (s.tile k).landings.foldl (fun (acc : State × List Landing) l =>
      if l.arrival = .ready && sts.contains l.stack then
        let (n, s) := acc.1.draw
        (s, acc.2 ++ [if n % 2 = 1 then { l with arrival := .late } else l])
      else (acc.1, acc.2 ++ [l])) (s, [])
    if r.2 = (s.tile k).landings then r.1 else r.1.modTile k fun t => { t with landings := r.2 }) s).noteHolds p

/-- The stacks that hold a group of pasture p. -/
def State.stacksOf (s : State) (p : Nat) : List Nat := ((s.ownedGroups p).map (· / 8)).eraseDups

/-- LATE_REFRESH (R70): 3.5 µs after the last watch or late refresh, in a stall. -/
def execLateRefresh (p : PasId) (s : State) : Out :=
  let x := s.pasture p
  if x.beating && decide (3500 * nsT ≤ s.now - max x.lastWatch x.lastLate) then
    let ss := s.stacksOf p
    let s := (s.ownedGroups p).foldl (fun s g => s.scrubGroup g) s
    let s := ss.foldl (fun s st => s.modStack st fun y => { y with lateRefresh := satInc y.lateRefresh }) s
    .next ((s.delayLandings p ss).modPas p fun x => { x with lastLate := s.now })
  else nothing s

/-- The interval of a group's own maintenance: 3.0 µs, or 1.5 µs on a hot stack (R258, R490). -/
def State.maintInterval (s : State) (st : Nat) : Nat :=
  if (s.stack st).hot || (s.stack st).overtemp then 1500 * nsT else 3000 * nsT

/-- UNOWNED_GROUP_MAINT (R258): a group that no beating pasture owns, on its port's timer. -/
def execUnownedGroupMaint (st : StackId) (g : Fin 8) (s : State) : Out :=
  let gid := 8 * st.val + g.val
  let last := smapGet 0 (s.stack st.val).maintTime g.val
  if !s.beatsAt (s.groupOwn gid).owner && decide (s.maintInterval st.val ≤ s.now - last) then
    .next ((s.scrubGroup gid).modStack st.val fun x => { x with maintTime := smapPut x.maintTime g.val s.now })
  else nothing s

/-- STACK_WRITE_RETRY (R260): the tile's latest accepted write met a parity error and is retried once; a failed retry stops
the pasture, and the burst holds its old or its new bytes. In a pasture that has stopped the retry completes too, and a failure is
recorded (R433). -/
def execStackWriteRetry (vx : Vx) (vy : Vy) (ok : Bool) (s : State) : Out :=
  let k := tileKey vx vy
  match s.cmds.find? (fun c => c.write && decide (c.tile = k)), s.pasOf vx.val with
  | some c, some p =>
    if !s.live k && !(s.pasture p).stopped then nothing s
    else
      let st := c.group / 8
      let s := s.modStack st fun x => { x with retries := satInc x.retries }
      if ok then .next s
      else
        let (n, s) := s.draw
        let s := if n % 2 = 0 then s else { s with stackMem := memWrite s.stackMem (stackKey c.group c.off) c.old }
        .next ((s.stkRecord st p (s.relAddr c.group c.off) St.STACK_WRITE_FAIL).stopTile k St.STACK_WRITE_FAIL)
  | _, _ => nothing s

end Sys2Proof.Machine
end

