-- ==== Sys2Proof/Machine/Resets.lean ====
section
/-!
DEFINITION. The resets of the compute part: pasture reset, tile quarantine, warm compute reset and its triggers, function-level
resets (R16, R29, R133, R162, R186, R222, R268, R272, R287, R296, R301, R361, R366, R399, R423 to R426, R465).
-/
namespace Sys2Proof.Machine

/-! ## Tiles -/

/-- A tile after a pasture reset: sequencer, matrix and vector state are zero; scratchpad, store and configuration are kept. -/
def Tile.afterPasture (t : Tile) (now : Nat) : Tile :=
  { t.atBeat0 now with
    ip := 0, rho := 0, cond := [false, false, false, false], ctrs := List.replicate 8 0,
    ctrsPrev := List.replicate 8 0, loops := [], indOor := 0, issued := 0, shadows := [], acc := [], cellActive := [], cellShadow := [],
    streamBeats := 0, passes := 0, vecBeats := 0, orphan := 0, empty := 0, chunksOut := 0, rw := [], foldGen := [], foldPend := [],
    svcWait := [] }

/-- A tile after quarantine: its contents and firmware are lost; the network interface keeps its link and send counters. -/
def Tile.afterQuarantine (t : Tile) (now : Nat) : Tile :=
  { beat := t.beat, doneTime := now, seamE := t.seamE, seamW := t.seamW, westReach := t.westReach, eastReach := t.eastReach,
    received := t.received, dispatched := t.dispatched, nakSent := t.nakSent, sent := t.sent, nakRecv := t.nakRecv,
    blockedPs := t.blockedPs, wdEvents := t.wdEvents, cancelled := t.cancelled, flitResends := t.flitResends, linkOut := t.linkOut,
    quarantined := true }

/-- The tiles of an enabled pasture. -/
def State.ownTiles (s : State) (p : Nat) : List Nat := if (s.pasture p).enable then s.tilesOf p else []

/-- Reset tiles: the engines' queues are answered (R287), then `f`. -/
def State.resetTiles (s : State) (ks : List Nat) (f : Tile → Tile) : State :=
  let s := ks.foldl (fun s k => s.resetEngine k) s
  let s := s.resetInFlight ks.contains
  ks.foldl (fun s k => s.modTile k f) s

/-- The pasture a packet of the FF class belongs to. -/
def Packet.pasture : Packet → Option Nat
  | .request _ | .reply _ _ _ _ _ _ | .nak _ _ _ _ _ | .full _ _ | .space _ _ => none
  | .foldIn p _ _ _ _ _ | .foldOut p _ _ _ _ | .flag p _ _ _ | .flagWait p _ _ _ | .flagRelease p _ _ | .halt p _ _
  | .winWait p _ _ _ _ _ | .winRelease p _ _ | .landed p _ _ _ _ _ => some p

/-- Packets of the FF class of pasture p are lost at its reset (assumption 42). -/
def State.dropFf (s : State) (p : Nat) : State := { s with net := s.net.filter fun q => decide (q.pkt.pasture ≠ some p) }

/-- A fold after a reset of its owner: GEN, ARRIVED and RESULT are 0 (R296). -/
def Fold.afterReset (x : Fold) : Fold :=
  { x with gen := false, arrived := 0, result := 0, op := none, acc := 0, nextCount := 0, nextOp := none, nextAcc := 0 }

/-- The folds of pasture p are reset. -/
def State.resetFolds (s : State) (p : Nat) : State :=
  { s with folds := smapMap (fun _ x => if x.valid && decide (x.owner.toNat = p) then x.afterReset else x) s.folds }

/-- Write a pasture's store images back to its tiles (R186). -/
def State.rewriteStore (s : State) (p : Nat) : State :=
  match (s.pasture p).program with
  | none => s
  | some g => (g.images.foldl (fun s kv => s.modTile kv.1 fun t => t.writeStore kv.2) s).modPas p fun x => { x with storeDue := false }

/-- The rewrite that a failed or aborted run asks for before the next one (R186). -/
def State.refreshStore (s : State) (p : Nat) : State := if (s.pasture p).storeDue then s.rewriteStore p else s

/-- The pasture's windows, flags, folds, sends and tiles are reset, and its store is rewritten (R395, R423). -/
def State.resetUnits (s : State) (p : Nat) : State :=
  let s := s.resetTiles (s.ownTiles p) (·.afterPasture s.now)
  let s := (((s.dropFf p).resetFolds p).resetWindows p).resetSends p
  (s.modPas p fun x => { x with flags := 0, flagWaiters := [], haltCount := 0 }).rewriteStore p

/-! ## Loads and transfers that a reset ends -/

/-- A load in progress is aborted (R301): LOADED and WEIGHTS become 0. -/
def State.abortLoad (s : State) (p : Nat) (post : Bool) : State :=
  match (s.pasture p).loading with
  | none => s
  | some j =>
    let s := s.modPas p fun x =>
      { x with loading := none, loaded := false, hasWeights := false, progEntries := 0, loadStatus := St.HOST_LOAD_ABORTED,
               program := none, weights := none }
    if post then s.finish j.id 3 p St.HOST_LOAD_ABORTED else s

/-- The completion of a context transfer, with the pages completed (R267, R387). -/
def State.finishXfer (s : State) (x : Transfer) (st : Status) : State :=
  s.complete x.id.fn.val { x.id.completion 4 x.pas st with beats := BitVec.ofNat 64 (x.done % 2 ^ 32) }

/-- A page of undefined contents. -/
def undefinedPage (d : Nat) : List Byte := (List.range 32768).map (Config.undefinedByte d)

/-- The pages of a failed restore from page n on have undefined contents (R267). -/
def State.spoilPages (s : State) (x : Transfer) (n : Nat) : State :=
  if !x.restore then s
  else
    let y := s.draw
    ((List.range x.pages).drop n).foldl (fun s i => s.stackWrite x.pas (x.saddr + 32768 * i) (undefinedPage y.1)) y.2

/-- End a transfer that fails: what a restore has not completed is undefined. -/
def State.failXfer (s : State) (x : Transfer) (st : Status) (post : Bool) : State :=
  let s := ({ s with xfers := s.xfers.erase x }).spoilPages x x.done
  if post then s.finishXfer x st else s

/-- Transfers of pasture p are aborted. -/
def State.abortXfers (s : State) (p : Nat) (post : Bool) : State :=
  (s.xfers.filter fun x => decide (x.pas = p)).foldl (fun s x => s.failXfer x St.STACK_XFER_ABORTED post) s

/-- Unplanned unavailable time of a pasture since its stop, in ns: its share of the grid's columns (R444). -/
def State.outageNs (s : State) (p : Nat) : Nat :=
  let x := s.pasture p
  if x.enable && x.stopped && x.unplanned && decide (0 < s.gridW) then (s.now - x.stopTime) / nsT * x.width.toNat / s.gridW else 0

/-- Unplanned unavailable time of a pasture ends (R444). -/
def State.endOutage (s : State) (p : Nat) : State :=
  { s with rel := { s.rel with unavailNs := s.rel.unavailNs + s.outageNs p } }

/-! ## Pasture reset (R399, R423) -/

/-- The registers of a pasture after a pasture reset (the P column of their tables). -/
def Pasture.afterReset (x : Pasture) : Pasture :=
  { x with
    stopped := false, unplanned := false, faultStop := false, stopBeat := none, faulted := [], stallEvents := 0, rate := 0, floorBreach := false, stallPs := 0, log := 0, rwt := [], rwAhead := []
    lastFlag := 0, lateWpt := 0, lateWin := 0, lateRank := 0, lateMissing := 0, sendFails := 0, lateEvents := 0, abandoned := 0
    drovePruned := 0, fabNakSent := 0, cplLost := 0, e2eFail := 0, orderBreaks := 0, runs := [], qAnchor := none }

/-- Pasture p holds a quarantined tile. -/
def State.hasQuarantine (s : State) (p : Nat) : Bool := (s.ownTiles p).any fun k => (s.tile k).quarantined

/-- A pasture that may beat begins to (R66): it is enabled, lies on the grid in no parked half, and no stop, clear or test holds
it. It waits for the clears of groups that it owns (R250). -/
def State.resumeBeats (s : State) (p : Nat) : State :=
  let x := s.pasture p
  if !x.enable || x.stopped || x.awaitClear || x.inTest || s.pasParked p || decide (s.gridW < x.col0.toNat + x.width.toNat) then s
  else if s.clearingFor p then s.modPas p fun x => { x with awaitClear := true }
  else s.beginBeats p

/-- Self-tests that a reset of pasture p ends (R440), by what they concern. -/
def State.testOn (s : State) (p : Nat) (t : SelfTest) : Bool :=
  match t.kind with
  | .tileBist => decide (t.target.toNat = p)
  | .sextant => (s.pasture p).enable && decide (t.target < 2) && s.usesHalf p (if t.target = 0 then .west else .east)
  | .stackScrub | .eyeScan | .slotCheck => false

/-- The KIND of R438. -/
def testKindNum : SelfTestKind → Nat
  | .tileBist => 1
  | .sextant => 2
  | .stackScrub => 3
  | .eyeScan => 4
  | .slotCheck => 5

/-- Record the state of a request where it is the last of its KIND (R480): 1 deferred, 2 running, 3 done. -/
def State.noteTest (s : State) (t : SelfTest) (st : Byte) : State :=
  if smapFind s.rel.testLast (testKindNum t.kind) = some t.seq then
    { s with rel := { s.rel with testState := smapPut s.rel.testState (testKindNum t.kind) st } }
  else s

/-- A self-test request is completed: it is no longer under way, and its status and time stand if it is the last of its KIND. -/
def State.endTest (s : State) (t : SelfTest) (st : Status) : State :=
  let s := { s with rel := { s.rel with tests := s.rel.tests.erase t } }
  if smapFind s.rel.testLast (testKindNum t.kind) = some t.seq then
    ({ s with rel := { s.rel with
        testStatus := smapPut s.rel.testStatus (testKindNum t.kind) st
        testTime := smapPut s.rel.testTime (testKindNum t.kind) s.hifTime } }).noteTest t 3
  else s

/-- A pasture that no running test concerns is no longer in test: its beats and its log go on where they paused. -/
def State.leaveTest (s : State) (p : Nat) : State :=
  let x := s.pasture p
  if !x.inTest || s.rel.tests.any (fun t => t.running && s.testOn p t) then s
  else
    let fits := decide (x.col0.toNat + x.width.toNat ≤ s.gridW)
    s.modPas p fun x =>
      { x with inTest := false, beating := x.enable && !x.stopped && !x.awaitClear && x.loading.isNone && fits
               lastBeatTime := s.now, waitTime := 0, waitSince := none, lastLate := s.now }

/-- End the running tests of pasture p with ST_HOST_RESET; another pasture that they concerned goes on where it paused. -/
def State.resetTests (s : State) (p : Nat) : State :=
  let s := (s.rel.tests.filter fun t => t.running && s.testOn p t).foldl (fun s t => s.endTest t St.HOST_RESET) s
  (List.range 16).foldl (fun s q => s.leaveTest q) (s.modPas p fun x => { x with inTest := false })

/-- End every run of a pasture: with `post` each is FAILED with the cause, but one whose completion entry is made already. -/
def State.endRuns (s : State) (p : Nat) (cause : Status) (post : Bool) : State :=
  let rs := if post then (s.pasture p).runs.filter fun r => decide (r.stage ≠ .held) else []
  (rs.foldl (fun s r => s.failRun p r cause) s).modPas p fun x => { x with runs := [] }

/-- A pasture reset. `post` says whether entries outstanding complete (R399). A pasture with a quarantined tile stays STOPPED (R425), and a stop
that the host did not ask for goes on to count as unavailable time (R444). -/
def State.resetPasture (s : State) (p : Nat) (post : Bool) : State :=
  let s := (((s.endOutage p).endRuns p St.HOST_RESET post).abortLoad p post).abortXfers p post
  let s := (s.resetTests p).resetUnits p
  let y := s.pasture p
  let s := s.modPas p Pasture.afterReset
  let s := if s.hasQuarantine p then s.modPas p fun x =>
      { x with stopped := true, beating := false, unplanned := y.stopped && y.unplanned, stopTime := s.now } else s
  s.resumeBeats p

/-- PASTURE_RESET (R399): by the bound function or PF0. Before READY first becomes 1 it is ignored (R426). -/
def execPastureReset (fn : FnId) (p : PasId) (s : State) : Out :=
  if s.boot.everReady && s.mayWrite fn.val p.val then .next (s.resetPasture p.val true) else nothing s

/-! ## Tile quarantine (R399, R423, R425) -/

/-- A stop of the pasture of a quarantined tile; `asked` says whether the host asked for it (R444). -/
def State.haltPasture (s : State) (p : Nat) (asked : Bool) : State :=
  (if (s.pasture p).stopped then s else s.endStall p).modPas p fun x =>
    if x.stopped then x else { x with stopped := true, beating := false, stopTime := s.now, unplanned := !asked, faultStop := false }

/-- Quarantine a tile: it is isolated and recorded, and its pasture stops with its runs FAILED. -/
def State.quarantine (s : State) (k cause : Nat) : State :=
  let s := match s.pasOf (keyVx k) with
    | none => s
    | some p =>
      let anchor := match (s.pasture p).runs.getLast? with | some r => r.deadline | none => 0
      let s := (((s.modPas p fun x => { x with qAnchor := some anchor }).endRuns p St.HOST_QUARANTINE true).abortLoad p true).haltPasture p (decide (cause = 5))
      ((s.resetWindows p).resetSends p).modPas p fun x =>
        { x with loaded := false, hasWeights := false, progExact := false, progLtv := 0, progEntries := 0, program := none, weights := none }
  let s := s.resetTiles [k] (·.afterQuarantine s.now)
  s.addDefect 1 (s.pxOf (keyVx k)) (keyVy k) cause 0

/-- TILE_QUARANTINE (R423). Before READY first becomes 1 it is ignored; so is a tile beyond the grid or quarantined already. -/
def execTileQuarantine (vx : Vx) (vy : Vy) (s : State) : Out :=
  let k := tileKey vx vy
  if !s.boot.everReady || s.offGrid vx vy || (s.tile k).quarantined then nothing s
  else .next (s.quarantine k 5)

/-! ## Warm compute reset (R424) -/

/-- A pasture after a warm compute reset: geometry, QoS and what the fabric keeps stay; the rest is as after a cold reset. -/
def Pasture.afterWarm (x : Pasture) : Pasture :=
  { geomStatus := x.geomStatus, enable := x.enable, width := x.width, col0 := x.col0, ringW := x.ringW, cnwW := x.cnwW,
    svcW := x.svcW, pcieW := x.pcieW, awaitClear := x.awaitClear,
    started := x.started, flockSize := x.flockSize, selfRank := x.selfRank, flockId := x.flockId, flockStatus := x.flockStatus,
    creditUs := x.creditUs, doneUs := x.doneUs, e2eWin := x.e2eWin, trackIdleUs := x.trackIdleUs, rankActive := x.rankActive,
    rankTrigEn := x.rankTrigEn, rankTrigFlag := x.rankTrigFlag, droveUs := x.droveUs, ordRes := x.ordRes, rank0 := x.rank0,
    rank1 := x.rank1, badRanks := x.badRanks, fence := x.fence, sends := x.sends, windows := x.windows, nextXfer := x.nextXfer,
    nextOseq := x.nextOseq, sendOseq := x.sendOseq, chain := { loadCount := x.chain.loadCount } }

/-- A function after a warm compute reset whose rings are kept (assumption 45): vector moderation and EVT_LOST are reset, and a vector with
causes pending fires, as COUNT 1 has it (R397). -/
def Fn.afterWarm (f : Fn) : Fn :=
  { f with vecs := smapMap (fun _ v => ({ v with timeUs := 0, count := 1 } : Vec).settle false) f.vecs, evtLost := 0, msgs := [] }

/-- A function whose rings, reply slots and vectors are cleared; its event log stays (R399). -/
def Fn.afterFlr (f : Fn) (enabled : Bool) : Fn :=
  { enabled := enabled, events := f.events, evtHead := f.evtHead, evtCount := f.evtCount, aer := f.aer }

/-- Host MSG entries outstanding complete ST_CNW_READER_RESET (R287). -/
def State.resetMsgs (s : State) (f : Nat) : State :=
  (s.func f).msgs.foldl (fun s m => s.endHostMsg f m St.CNW_READER_RESET []) s

/-- XFER of every group is 0 (R269). -/
def State.clearXferBits (s : State) : State :=
  { s with stks := smapMap (fun _ x => { x with own := x.own.map fun o => { o with xfer := false } }) s.stks }

/-- The mailbox's registers are reset; a request under way finishes with its response discarded (R484). -/
def Mgt.mbxReset (m : Mgt) : Mgt :=
  { m with go := false, busy := false, mbxDone := false, overrun := false
           queue := m.queue.map fun q => { q with discard := q.discard || q.mailbox } }

/-- Phases 1 and 2: work ends, and compute logic is reset. -/
def State.warmClear (s : State) (post : Bool) : State :=
  let s := (List.range 16).foldl (fun s p =>
    (((((s.endOutage p).endRuns p St.HOST_RESET post).abortLoad p post).abortXfers p post).resetTests p)) s
  let s := (List.range 16).foldl (fun s f =>
    if post then (s.resetMsgs f).modFn f Fn.afterWarm else s.modFn f (·.afterFlr false)) s
  let s := (List.range 16).foldl (fun s p => ((s.resetWindows p).resetSends p).modPas p Pasture.afterWarm) s
  { s.clearXferBits with
    net := [], folds := [], cmds := [], tileAcc := 0, boot := { s.boot with ready := false }
    mgt := s.mgt.mbxReset }

/-- The quarantined tiles of the grid. -/
def State.quarantined (s : State) : List Nat := s.gridTiles.filter fun k => (s.tile k).quarantined

/-- Phase 3: quarantined tiles join the defect map, and the columns are mapped again if it changed (R425). -/
def State.remap (s : State) (qs : List Nat) : State :=
  if qs.isEmpty then s.writeReaches
  else
    let bad := qs.map fun k => physKey (s.pxOf (keyVx k)) (keyVy k)
    (({ s with boot := { s.boot with badTiles := (s.boot.badTiles ++ bad).eraseDups } }).formColumns)

/-- The tiles of live halves. -/
def State.liveTiles (s : State) : List Nat := s.gridTiles.filter fun k => !s.parked (s.halfOf (keyVx k))

/-- A warm compute reset after its clears: the columns are mapped anew without the quarantined tiles, and the beats resume. -/
def State.warmEnd (s : State) (qs : List Nat) (w : WarmOutcome) : State :=
  let s := (s.remap qs).fetchFirmware State.liveTiles w.firmware
  if s.boot.mgmtOnly then (List.range 16).foldl (fun s p => s.modPas p fun x => { x with beating := false }) s
  else
    let s := { s with boot := { s.boot with ready := !s.boot.ringFailed } }
    (List.range 16).foldl (fun s p => s.resumeBeats p) s

/-- A warm compute reset, phases 1 to 6. `post` says whether the entries outstanding complete (R399). -/
def State.warmReset (s : State) (post : Bool) (w : WarmOutcome) : State :=
  ({ (s.warmClear post) with tiles := [] }).warmEnd s.quarantined w

/-- A warm compute reset where it is not ignored: READY has been 1 since power good (R426), and the package is not in management-only mode,
which only a power good ends (DESIGN CHOICE, assumption 124). -/
def State.warmTrigger (s : State) (post : Bool) (w : WarmOutcome) : State :=
  if s.boot.everReady && !s.boot.mgmtOnly then s.warmReset post w else s

/-- WARM_COMPUTE_RESET (R424): GO in HIF_COMPUTE_RESET. -/
def execWarmComputeReset (w : WarmOutcome) (s : State) : Out := .next (s.warmTrigger true w)

/-- A warm compute reset that clears all functions without completions and disables virtual functions. During bring-up only
configuration space is reset (R406), and the mailbox (R484). -/
def State.hostReset (s : State) (w : WarmOutcome) : State :=
  let s := { s with mgt := s.mgt.mbxReset }
  if s.boot.everReady || s.boot.mgmtOnly then
    (List.range 16).foldl (fun s f => s.modFn f (·.afterFlr false)) (s.warmTrigger false w)
  else (List.range 16).foldl (fun s f => s.modFn f fun x => { x with enabled := false }) s

/-- FLR_PF0 (R399): a warm compute reset, with virtual functions disabled. -/
def execFlrPf0 (w : WarmOutcome) (s : State) : Out := .next (s.hostReset w)

/-- PERST_N (R399, R406): also during bring-up it resets configuration space. -/
def execPerstN (w : WarmOutcome) (s : State) : Out := .next (s.hostReset w)

/-- HOT_RESET (R399). -/
def execHotReset (w : WarmOutcome) (s : State) : Out := .next (s.hostReset w)

/-- PCIE_LINK_DOWN (R399). -/
def execPcieLinkDown (w : WarmOutcome) (s : State) : Out := .next (s.hostReset w)

/-! ## Function-level reset of a virtual function (R399) -/

/-- Entries of a function discarded without completion: its reply slots, loads and transfers. -/
def State.discardFn (s : State) (f : Nat) : State :=
  let s := (s.func f).msgs.foldl (fun s m => if m.blocked.isSome then s.withdraw m.req else s) s
  s.modFn f (·.afterFlr (s.func f).enabled)

/-- FLR_VF (R399): VFn's rings, slots and vectors are cleared, and Pn is reset, its runs discarded. -/
def execFlrVf (fn : FnId) (s : State) : Out :=
  if fn = 0 then .fault .illFormed
  else if !(s.func fn.val).enabled then nothing s
  else
    let s := s.discardFn fn.val
    let s := if s.boot.everReady then s.resetPasture fn.val false else s
    .next (s.modPas fn.val fun x => { x with rejects := 0 })

end Sys2Proof.Machine
end

