-- ==== Sys2Proof/Machine/Rings.lean ====
section
/-!
DEFINITION. Submission rings: doorbells, the entry at a ring's head, entry checks, RUN admission, ABORT, MSG and CANCEL,
completions held, and interrupt moderation (R383 to R390, R394 to R397).
-/
namespace Sys2Proof.Machine

/-! ## Fetching entries (R383) -/

/-- The host interface serves entries: it has started and has its reference, and no ring failure or thermtrip has ended all work (R406, R435,
R491, R495). -/
def State.hifUp (s : State) : Bool := s.boot.done.contains 3 && s.facts.peRefclk && !s.boot.ringFailed && !s.power.thermtrip

/-- Ring r of a function is enabled and holds an entry not fetched. -/
def Fn.waiting (f : Fn) (r : Nat) : Bool := bitAt (smapGet 0 f.sqBase r) 0 && decide (smapGet 0 f.sqHead r ≠ smapGet 0 f.sqTail r)

/-- The ring served next, round-robin (R383). -/
def Fn.nextRing (f : Fn) : Option Nat := ((List.range 16).map fun i => (f.lastRing.toNat + 1 + i) % 16).find? f.waiting

/-- The entry at the head of a ring, if it is the ring's turn: where its completion goes, and its 64 bytes. -/
def State.headEntry (s : State) (fn : FnId) (r : Fin 16) : Option (EntryId × List Byte) :=
  let f := s.func fn.val
  if s.hifUp && s.fnOn fn.val && decide (f.nextRing = some r.val) then
    let head := smapGet 0 f.sqHead r.val
    let e := s.readHost ((smapGet 0 f.sqBase r.val).toNat / 4096 * 4096 + head.toNat * 64) 64
    some ({ fn := fn, ring := r, tag := BitVec.ofNat 32 (leAt e 4 4), sqHead := head + 1 }, e)
  else none

/-- The entry has been fetched. -/
def State.fetched (s : State) (fn : FnId) (r : Fin 16) : State :=
  s.modFn fn.val fun f =>
    { f with sqHead := smapPut f.sqHead r.val (smapGet 0 f.sqHead r.val + 1), lastRing := BitVec.ofNat 4 r.val }

/-- The time of the doorbell that made the head entry visible, in HIF_TIME ns. -/
def State.doorbellTime (s : State) (fn : FnId) (r : Fin 16) : Nat :=
  let f := s.func fn.val
  smapGet 0 f.sqTime (256 * r.val + (smapGet 0 f.sqHead r.val).toNat)

/-- DOORBELL (R383): the new tail makes entries visible, each at this time. -/
def execDoorbell (fn : FnId) (ring : Fin 16) (tail : Byte) (s : State) : Out :=
  if !(s.hifUp && s.fnOn fn.val) then nothing s
  else .next (s.modFn fn.val fun f =>
    let old := smapGet 0 f.sqTail ring.val
    let n := (tail - old).toNat
    { f with sqTail := smapPut f.sqTail ring.val tail
             sqTime := (List.range n).foldl (fun m i => smapPut m (256 * ring.val + (old.toNat + i) % 256) s.hifTime.toNat) f.sqTime })

/-! ## Entry checks (R384, R385) -/

/-- OPCODE. -/
def entOp (e : List Byte) : Nat := leAt e 0 1
/-- FLAGS. -/
def entFlags (e : List Byte) : Nat := leAt e 1 1
/-- PASTURE. -/
def entPas (e : List Byte) : Nat := leAt e 2 1
/-- KIND of a LOAD. -/
def entKind (e : List Byte) : Nat := leAt e 8 1

/-- Bytes [lo, hi) of an entry are zero. -/
def zeroBytes (e : List Byte) (lo hi : Nat) : Bool := ((e.drop lo).take (hi - lo)).all fun b => decide (b = 0)

/-- No reserved field of an entry is set, and its fields are in range. -/
def entryForm (e : List Byte) : Bool :=
  zeroBytes e 3 4 && decide (entPas e < 16) &&
  match entOp e with
  | 1 => decide (entFlags e < 2) && zeroBytes e 9 10 && zeroBytes e 14 16 && zeroBytes e 20 24 && zeroBytes e 48 64
  | 2 => decide (entFlags e = 0) && zeroBytes e 13 64
  | 3 => decide (entFlags e = 0) && decide (entKind e < 10) && zeroBytes e 9 12 && zeroBytes e 14 16 && zeroBytes e 40 64
  | 4 => decide (entFlags e = 0) && decide (leAt e 8 1 < 4) && zeroBytes e 9 10 && zeroBytes e 12 16 && zeroBytes e 26 32
      && zeroBytes e 40 64
  | 5 => (entFlags e = 0 || entFlags e = 2) && decide (leAt e 10 1 < 8) && decide (leAt e 11 1 < 16) && decide (leAt e 12 1 ≤ 32)
      && zeroBytes e 13 16 && zeroBytes e 48 64
  | 6 => decide (entFlags e = 0) && zeroBytes e 13 64
  | _ => false

/-- The refusal of an entry by form or permission. -/
def entryRefusal (fn : FnId) (e : List Byte) : Option Status :=
  if !entryForm e then some St.HOST_ENTRY_FORMAT
  else if fn ≠ 0 && (decide (entPas e ≠ fn.val) || (entOp e = 5 && entFlags e = 2)) then some St.HOST_NOT_PERMITTED
  else none

/-- The vector of an entry's completion (R396). -/
def entVector (id : EntryId) (op : Nat) : Nat := if op = 5 || op = 6 then 19 else id.ring.val

/-- Complete an entry with a status. -/
def State.answer (s : State) (id : EntryId) (e : List Byte) (st : Status) : State :=
  s.complete id.fn.val { id.completion (entOp e) (entPas e) st with vector := entVector id (entOp e) }

/-- Handle the head entry of a ring if `mine` selects it: refused by its form or permission, or handled by `act`. -/
def State.onEntry (s : State) (fn : FnId) (r : Fin 16) (mine : List Byte → Bool) (act : State → EntryId → List Byte → State) : Out :=
  match s.headEntry fn r with
  | none => nothing s
  | some (id, e) =>
    if !mine e then nothing s
    else
      let s := s.fetched fn r
      match entryRefusal fn e with
      | some st => .next (s.answer id e st)
      | none => .next (act s id e)

/-! ## Admission (R388 to R390) -/

/-- The entry point a program has. -/
def Pasture.entryPoint (x : Pasture) (n : Nat) : Option EntryRec :=
  match x.program with
  | some g => g.entries.find? fun r => decide (r.entry.toNat = n)
  | none => none

/-- The sum of PCIE_W over enabled pastures. -/
def State.sumPcie (s : State) : Nat :=
  (((List.range 16).filter fun p => (s.pasture p).enable).map fun p => (s.pasture p).pcieW.toNat).foldl (· + ·) 0

/-- The factor m of R390: WPT_DEGRADE while a fabric port is DEGRADED or ORD_OK is 0 on a role the pasture reserves. -/
def State.wptFactor (s : State) (p : Nat) : Nat :=
  let x := s.pasture p
  let narrow := (List.range 18).any fun n => decide ((s.port n).state = .degraded)
  let broken := (List.range 18).any fun r => !(s.port r).ordOk && decide (smapGet 0 x.ordRes r ≠ 0)
  if narrow || broken then x.wptDegrade.toNat else 1

/-- The longest duration of a self-test in ns (R438). -/
def SelfTest.longest (t : SelfTest) : Nat :=
  match t.kind with
  | .tileBist => 2000000
  | .sextant => 1000000
  | .stackScrub | .eyeScan | .slotCheck => 0

/-- The time at which the tests that pause a pasture end at the latest (R440). -/
def State.testEnd (s : State) (p : Nat) : Nat :=
  (s.rel.tests.filter fun t => t.running && s.testOn p t).foldl (fun n t => max n ((t.since - s.epoch) / nsT + t.longest)) 0

/-- HIF_PAS_ANCHOR (R389, R402): the deadline of the last admitted run not yet complete, or 0. -/
def Pasture.anchor (x : Pasture) : Nat :=
  match x.qAnchor, x.runs.getLast? with
  | some a, _ => a
  | none, some r => r.deadline
  | none, none => 0

/-- T_in and T_out beyond their fixed parts (R390). -/
def State.ioTime (s : State) (p bytes : Nat) : Nat := ceilDiv (bytes * s.sumPcie) (242 * (s.pasture p).pcieW.toNat)

/-- The deadline of R389 for an entry point, at the time of the verdict. -/
def State.deadline (s : State) (p : Nat) (r : EntryRec) : Nat :=
  let x := s.pasture p
  max s.hifTime.toNat (max x.anchor (s.testEnd p))
    + ceilDiv (r.declBeats * 1000) s.facts.grade.floor
    + (2000 + s.ioTime p r.inBytes) + (6000 + s.ioTime p r.outBytes)
    + r.wptNs * s.wptFactor p + x.marginNs.toNat

/-- The verdict on a RUN entry (R388): a refusal, or the entry point and deadline. -/
def State.admission (s : State) (p : Nat) (e : List Byte) (bell : Nat) : Status ⊕ (EntryRec × Nat) :=
  let x := s.pasture p
  if !x.enable then .inl St.HOST_NOT_ENABLED
  else if x.stopped then .inl St.HOST_PASTURE_STOPPED
  else if x.loading.isSome then .inl St.HOST_PASTURE_BUSY
  else if !x.loaded then .inl St.HOST_NOT_LOADED
  else match x.entryPoint (leAt e 8 1) with
    | none => .inl St.HOST_NO_ENTRY
    | some r =>
      let limit := leAt e 16 4
      let d := s.deadline p r
      if x.runs.length ≥ 64 then .inl St.HOST_QUEUE_FULL
      else if limit ≠ 0 && decide (limit < d - bell) then .inl St.HOST_ADM_LIMIT
      else .inr (r, d)

/-- The run that an accepted entry describes. -/
def runOf (id : EntryId) (e : List Byte) (p count d : Nat) (r : EntryRec) : Run :=
  { runId := BitVec.ofNat 64 (p * 2 ^ 60 + count), id := id, entry := r, deadline := d, inN := leAt e 10 2, outN := leAt e 12 2,
    inList := leAt e 24 8, outList := leAt e 32 8, stampAddr := leAt e 40 8 }

/-- RUN (R388). Entries of reserved opcodes are refused here too (R384). -/
def execRun (fn : FnId) (ring : Fin 16) (s : State) : Out :=
  let bell := s.doorbellTime fn ring
  s.onEntry fn ring (fun e => entOp e = 1 || decide (entOp e = 0) || decide (6 < entOp e)) fun s id e =>
    let p := entPas e
    match s.admission p e bell with
    | .inl st =>
      (s.modPas p fun x => { x with rejects := satInc x.rejects }).complete fn.val { id.completion 1 p st with vector := 16 }
    | .inr (r, d) =>
      let count := s.runCount + 1
      let run := runOf id e p count.toNat d r
      let s := ({ s with runCount := count }).modPas p fun x => { x with runs := x.runs ++ [run] }
      if entFlags e % 2 = 1 then
        s.complete fn.val { id.completion 1 p St.OK with kind := 1, runId := run.runId, deadline := BitVec.ofNat 64 d }
      else s

/-! ## Abort and cancel (R386, R395) -/

/-- An entry names a run: its TARGET_TAG and TARGET_RING. -/
def targets (id : EntryId) (e : List Byte) (t : EntryId) : Bool :=
  decide (t.fn = id.fn) && decide (t.tag.toNat = leAt e 8 4) && decide (t.ring.val = leAt e 12 1)

/-- A run that was to start is withdrawn before its first beat. -/
def State.unstart (s : State) (p : Nat) : State :=
  (s.ownTiles p).foldl (fun s k => s.modTile k fun t => { t with starts := none, running := false })
    (s.modPas p fun x => { x with rwAhead := [] })

/-- A completion held for the completion ring is the final one of a target run: a refusal's has no RUN_ID. -/
def Fn.heldTarget (f : Fn) (p : Nat) (e : List Byte) : Option Completion :=
  f.held.find? fun c => decide (c.opcode = 1) && decide (c.kind = 0) && decide (c.runId ≠ 0) && decide (c.pasture.toNat = p)
    && decide (c.tag.toNat = leAt e 8 4) && decide (c.ring.toNat = leAt e 12 1)

/-- Remove a run from a pasture's queue; the runs behind it note the abort as a possible breach cause. -/
def Pasture.removeRun (x : Pasture) (r : Run) : Pasture :=
  let i := x.runs.idxOf r
  { x with runs := x.runs.take i ++ (x.runs.drop (i + 1)).map fun o => { o with events := o.events ++ [St.HOST_ABORTED] } }

/-- Complete an abort with a run's identity. -/
def State.answerAbort (s : State) (id : EntryId) (p : Nat) (st : Status) (runId : Word) : State :=
  s.complete id.fn.val { id.completion 2 p st with runId := runId }

/-- Abort a run: one whose completion is recorded stands; one not started leaves the queue; one under way stops its pasture, which is reset
and beats again. -/
def State.abortRun (s : State) (id : EntryId) (p : Nat) (r : Run) : State :=
  if r.stage = .recorded || r.stage = .held then s.answerAbort id p St.HOST_NOTHING_TO_ABORT r.runId
  else
    let begun := s.started p r
    let s := s.modPas p fun x => { x.removeRun r with storeDue := true }
    let s := if begun then ((s.endStall p).resetUnits p).resumeBeats p
             else if r.stage = .running then s.unstart p else s
    s.answerAbort id p St.HOST_ABORTED r.runId

/-- ABORT (R386, R395): of several outstanding runs of the target's TAG, the oldest, be its FAILED completion still held. -/
def execAbort (fn : FnId) (ring : Fin 16) (s : State) : Out :=
  s.onEntry fn ring (fun e => decide (entOp e = 2)) fun s id e =>
    let p := entPas e
    match (s.pasture p).runs.find? (fun r => targets id e r.id), (s.func fn.val).heldTarget p e with
    | none, none => s.answerAbort id p St.HOST_NO_SUCH_RUN 0
    | none, some c => s.answerAbort id p St.HOST_NOTHING_TO_ABORT c.runId
    | some r, none => s.abortRun id p r
    | some r, some c => if c.runId ≤ r.runId then s.answerAbort id p St.HOST_NOTHING_TO_ABORT c.runId else s.abortRun id p r

/-- A free reply slot of a function: the lowest of its 64 (assumption 40). -/
def Fn.freeSlot (f : Fn) : Option Nat := (List.range 64).find? fun n => !f.msgs.any fun m => decide (m.slot.toNat = n)

/-- MSG (R284, R386): the request is sent with a reply slot of the function; without one it completes at once. -/
def execMsg (fn : FnId) (ring : Fin 16) (s : State) : Out :=
  s.onEntry fn ring (fun e => decide (entOp e = 5)) fun s id e =>
    match (s.func fn.val).freeSlot with
    | none => s.answer id e St.CNW_NO_REPLY_SLOT
    | some n =>
      let reg := decide (entFlags e = 2)
      let r : Request :=
        { reg := reg, src := .fn fn, vx := leAt e 8 1, vy := leAt e 9 1, chan := BitVec.ofNat 3 (leAt e 10 1),
          handler := BitVec.ofNat 4 (leAt e 11 1), slot := BitVec.ofNat 6 n,
          payload := slice e 16 (if reg then 16 else leAt e 12 1) }
      (s.modFn fn.val fun f => { f with msgs := f.msgs ++ [{ id := id, pas := entPas e, slot := BitVec.ofNat 6 n, req := r }] }).send
        (.request r)

/-- CANCEL_MSG (R286, R385, R395): the oldest blocked MSG of the target ends with ST_CNW_SEND_CANCELLED. -/
def execCancelMsg (fn : FnId) (ring : Fin 16) (s : State) : Out :=
  s.onEntry fn ring (fun e => decide (entOp e = 6)) fun s id e =>
    match (s.func fn.val).msgs.find? fun m => m.blocked.isSome && decide (m.pas = entPas e) && targets id e m.id with
    | none => s.answer id e St.HOST_NOTHING_TO_CANCEL
    | some m => ((s.withdraw m.req).endHostMsg fn.val m St.CNW_SEND_CANCELLED []).answer id e St.OK

/-! ## Completions held, deadlines, vectors (R387, R394, R397) -/

/-- The events that R394 lists as causes of a breach. -/
def breachCauses : List Status :=
  [St.PWR_FLOOR_BREACH, St.PWR_CAP_AT_FLOOR, St.FAB_WPT_LATE, St.FAB_ORD_OVERCOMMIT, St.LNK_NARROW, St.HOST_ABORTED,
   St.HOST_BREACH_AHEAD, St.HOST_BREACH_HOST]

/-- The CAUSE of a breach: the first of the listed events recorded since admission, else a stall. -/
def Run.breachCause (r : Run) : Status := (r.events.find? breachCauses.contains).getD St.HOST_BREACH_STALL

/-- The run with an identity is delivered: its completion entry is written. -/
def Pasture.deliver (x : Pasture) (runId : Word) : Pasture := { x with runs := x.runs.filter fun r => decide (r.runId ≠ runId) }

/-- A held completion of a run becomes that of a breach. -/
def Completion.breach (c : Completion) (r : Run) : Completion :=
  if c.runId = r.runId && c.opcode = 1 && c.kind = 0 && c.status = St.OK then
    { c with status := St.HOST_BREACH, cause := r.breachCause, vector := 18 }
  else c

/-- A held completion as it is written: that of a breach where its run's deadline has passed (R394). -/
def State.latest (s : State) (c : Completion) : Completion :=
  match (s.pasture c.pasture.toNat).runs.find? fun r => decide (r.runId = c.runId) && decide (r.deadline < s.hifTime.toNat) with
  | some r => c.breach r
  | none => c

/-- COMPLETION_WRITE (R387): the oldest completion held is written once the ring has room. -/
def execCompletionWrite (fn : FnId) (s : State) : Out :=
  let f := s.func fn.val
  match f.held with
  | [] => nothing s
  | c :: rest =>
    if !f.cqRoom || !s.fnOn fn.val then nothing s
    else
      let s := (s.modFn fn.val fun f => { f with held := rest }).writeCompletion fn.val (s.latest c)
      .next (if c.opcode = 1 && c.kind = 0 && c.runId ≠ 0 then s.modPas c.pasture.toNat (·.deliver c.runId) else s)

/-- DEADLINE_EXPIRY (R394): the breach is raised on its vector, and the runs behind note a breach ahead of them. -/
def execDeadlineExpiry (p : PasId) (k : Fin 64) (s : State) : Out :=
  let x := s.pasture p.val
  match x.runs[k.val]? with
  | none => nothing s
  | some r =>
    if r.breached || s.hifTime.toNat < r.deadline then nothing s
    else
      let behind (o : Run) : Run := { o with events := o.events ++ [St.HOST_BREACH_AHEAD] }
      let runs := x.runs.take k.val ++ [{ r with breached := true }] ++ (x.runs.drop (k.val + 1)).map behind
      let s := s.putPas p.val { x with runs := runs }
      let s := s.modFn r.id.fn.val fun f => { f with held := f.held.map (·.breach r) }
      .next (s.signal (s.boundFn p.val) 18)

/-- VECTOR_FIRE (R397): TIME_US after the first pending cause. -/
def execVectorFire (fn : FnId) (v : Fin 64) (s : State) : Out :=
  let x : Vec := smapGet {} (s.func fn.val).vecs v.val
  if x.timeUs ≠ 0 && decide (0 < x.pending) && decide (x.timeUs.toNat * usT ≤ s.now - x.since) then
    .next (s.modFn fn.val fun f => { f with vecs := smapPut f.vecs v.val (x.settle true) })
  else nothing s

end Sys2Proof.Machine
end

