-- ==== Sys2Proof/Machine/Runs.lean ====
section
/-!
DEFINITION. Runs and pastures at the host interface: ingress, the first beat, egress and delivery; pasture start and stop; quality
of service (R71, R377 to R379, R385, R391 to R394, R400, R401, R433, R462 to R464).
-/
namespace Sys2Proof.Machine

/-! ## I/O lists (R385, R393) -/

/-- Element i of an I/O list in host memory. -/
def State.ioElem (s : State) (list i : Nat) : IoElem :=
  let e := s.readHost (list + 32 * i) 32
  { haddr := leAt e 0 8, len := leAt e 8 4, kind := leAt e 12 1, vx := leAt e 13 1, vy := leAt e 14 1, daddr := leAt e 16 8 }

/-- The first n elements of an I/O list. -/
def State.ioList (s : State) (list n : Nat) : List IoElem := (List.range n).map (s.ioElem list)

/-- An element lies inside its view, window and pasture, on an edge tile, in whole lines. -/
def State.ioOk (s : State) (p : Nat) (e : IoElem) : Bool :=
  e.len % 64 = 0 && e.daddr % 64 = 0 &&
  (if e.kind = 0 then
    decide (e.vx < s.gridW) && decide (e.vy < 40) && s.isEdge e.vx e.vy && s.holdsCol p e.vx && decide (e.daddr + e.len ≤ 2 ^ 18)
  else if e.kind = 1 then
    (List.range (e.len / 64)).all fun i => (s.stackPlace p ((e.daddr + 64 * i : Nat) : Int)).isSome
  else false)

/-- A list is in range: at most 1,024 elements, each in range, and a total within the entry's bytes. -/
def State.listOk (s : State) (p : Nat) (es : List IoElem) (bytes : Nat) : Bool :=
  decide (es.length ≤ 1024) && es.all (s.ioOk p) && decide ((es.map (·.len)).foldl (· + ·) 0 ≤ bytes)

/-- Write one element's bytes (R391). -/
def State.putElem (s : State) (p : Nat) (e : IoElem) (bs : List Byte) : State × Option Status :=
  if e.kind = 0 then
    match s.sideWrite (tileKey e.vx e.vy) .landing e.daddr bs with
    | (s, .ok _) => (s, none)
    | (s, .refused st) => (s, some st)
  else (s.stackWrite p e.daddr bs, none)

/-- Write the elements in list order from host memory; the first refusal ends it. Answers the bytes, for the digest. -/
def State.ingress (s : State) (p : Nat) (es : List IoElem) : State × Option Status × List Byte :=
  es.foldl (fun acc e =>
    match acc with
    | (s, some st, got) => (s, some st, got)
    | (s, none, got) =>
      let bs := s.readHost e.haddr e.len
      let (s, r) := s.putElem p e bs
      (s, r, got ++ bs)) (s, none, [])

/-- Read one element's bytes (R392). -/
def State.getElem (s : State) (p : Nat) (e : IoElem) : State × SideResult :=
  if e.kind = 0 then s.sideRead (tileKey e.vx e.vy) .landing e.daddr e.len
  else match s.stackFetch p e.daddr e.len with
    | (s, some bs) => (s, .ok bs)
    | (s, none) => (s, .refused St.STACK_ECC_UNCORR)

/-- Copy the elements to host memory in list order; the first refusal ends it. Answers the bytes. -/
def State.egress (s : State) (p : Nat) (es : List IoElem) : State × Option Status × List Byte :=
  es.foldl (fun acc e =>
    match acc with
    | (s, some st, got) => (s, some st, got)
    | (s, none, got) =>
      match s.getElem p e with
      | (s, .refused st) => (s, some st, got)
      | (s, .ok bs) => (s.writeHost e.haddr bs, none, got ++ bs)) (s, none, [])

/-! ## The stages of a run -/

/-- The first run fails alone: the pasture does not stop (R393, R433). -/
def State.failFirst (s : State) (p : Nat) (st : Status) : State :=
  match (s.pasture p).runs with
  | [] => s
  | r :: _ => (s.failRun p r st).modPas p fun x => { x with runs := x.runs.filter fun o => decide (o.runId ≠ r.runId) }

/-- The pasture can take a run: it beats and no load is in progress. -/
def Pasture.takesRun (x : Pasture) : Bool := x.enable && x.beating && !x.stopped && x.loading.isNone && x.loaded

/-- RUN_INGRESS (R391): the inputs of the first run are written and digested, or the run fails before its first beat. -/
def execRunIngress (p : PasId) (env : IoOutcome) (s : State) : Out :=
  let x := s.pasture p.val
  match x.runs with
  | [] => nothing s
  | r :: _ =>
    if r.stage ≠ .queued || !x.takesRun then nothing s
    else
      let s := s.refreshStore p.val
      let s := if env.slow then s.noteCause p.val St.HOST_BREACH_HOST else s
      let es := s.ioList r.inList r.inN
      if !env.dmaOk then .next ((s.noteDma r.id.fn.val).failFirst p.val St.HOST_DMA)
      else if !s.listOk p.val es r.entry.inBytes then .next (s.failFirst p.val St.HOST_IO_RANGE)
      else if !env.stackOk && es.any (fun e => decide (e.kind = 1)) then .next (s.failFirst p.val St.STACK_WRITE_FAIL)
      else match s.ingress p.val es with
        | (s, some st, _) => .next (s.failFirst p.val st)
        | (s, none, bs) => .next (s.modPas p.val (·.modFirst fun r => { r with stage := .ingressed, inputs := bs }))

/-- The first beat of a run with a watch phase (R71): the lowest aligned beat that no tile has passed. -/
def firstBeat (phase beat : Nat) : Nat :=
  let b := (beat + phase) % 4096
  if b = 0 then beat else beat + (4096 - b)

/-- RUN_START (R71, R391): every tile is to start at the aligned beat; a tile, and the pasture's log, that is there begins at once. -/
def execRunStart (p : PasId) (s : State) : Out :=
  let x := s.pasture p.val
  match x.runs with
  | [] => nothing s
  | r :: _ =>
    if r.stage ≠ .ingressed || !x.takesRun then nothing s
    else
      let ks := s.tilesOf p.val
      let b := firstBeat r.entry.phase (ks.foldl (fun m k => max m (s.tile k).beat) (s.logOf p.val))
      let s := ks.foldl (fun s k => s.modTile k fun t => ({ t with starts := some (r.entry.entry.toNat, b) }).beginAt) s
      .next ((s.modPas p.val fun x =>
        { x.modFirst fun r => { r with stage := .running, first := b, haltMax := none } with haltCount := 0 }).beginRun p.val)

/-- The final completion of a run whose outputs are delivered: that of a breach where its deadline has passed (R394). -/
def State.lastCompletion (s : State) (p : Nat) (r : Run) : Completion :=
  let late := r.breached || decide (r.deadline < s.hifTime.toNat)
  r.completion p (s.pasture p) (if late then St.HOST_BREACH else St.OK) (if late then r.breachCause else 0) (r.haltRelay - r.first)

/-- Post the final completion of the first run: delivered, or held while the ring is full, which every run of the pasture notes as a possible
cause of a breach (R387, R392, R394). -/
def State.deliverFirst (s : State) (p : Nat) (r : Run) : State :=
  let f := s.func r.id.fn.val
  if f.held.isEmpty && f.cqRoom then (s.writeCompletion r.id.fn.val (s.lastCompletion p r)).modPas p (·.deliver r.runId)
  else
    let s := s.noteCause p St.HOST_BREACH_HOST
    (s.complete r.id.fn.val (s.lastCompletion p { r with events := r.events ++ [St.HOST_BREACH_HOST] })).modPas p
      (·.modFirst fun r => { r with stage := .held })

/-- RUN_COMPLETION (R392): outputs are copied and digested, the stamp is written, and the completion is posted. -/
def execRunCompletion (p : PasId) (env : IoOutcome) (s : State) : Out :=
  let x := s.pasture p.val
  match x.runs with
  | [] => nothing s
  | r :: _ =>
    if r.stage ≠ .recorded then nothing s
    else
      let es := s.ioList r.outList r.outN
      if !env.dmaOk then .next ((s.noteDma r.id.fn.val).failFirst p.val St.HOST_DMA)
      else if !s.listOk p.val es r.entry.outBytes then .next (s.failFirst p.val St.HOST_IO_RANGE)
      else if !env.stackOk && es.any (fun e => decide (e.kind = 1)) then .next (s.failFirst p.val St.STACK_ECC_UNCORR)
      else match s.egress p.val es with
        | (s', some st, _) => .next ({ s' with hostMem := s.hostMem }.failFirst p.val st)
        | (s, none, bs) =>
          let s := s.writeStamp p.val r true ((r.haltMax.getD r.first) - r.first) (sm3 bs)
          .next (s.deliverFirst p.val r)

/-! ## Pastures (R378, R379) -/

/-- Record the result of a write of HIF_PAS_GEOM_n. -/
def State.geomResult (s : State) (p : Nat) (st : Status) : State := s.modPas p fun x => { x with geomStatus := st }

/-- A pasture with admitted runs whose PCIe share would fall (R401), with new weights and members. -/
def State.shareFalls (s new : State) : Bool :=
  (List.range 16).any fun q =>
    let x := s.pasture q
    let y := new.pasture q
    x.enable && !x.runs.isEmpty && decide (y.pcieW.toNat * s.sumPcie < x.pcieW.toNat * new.sumPcie)

/-- The state with pasture p enabled on its columns. -/
def State.enabledAt (s : State) (p : Nat) (col0 width : Byte) : State :=
  s.modPas p fun x => { x with enable := true, col0 := col0, width := width }

/-- The groups a pasture would own under the ownership in force after its start. -/
def State.wouldOwn (s : State) (p : Nat) (col0 width : Byte) : List Nat :=
  let s' := s.enabledAt p col0 width
  (List.range 64).filter fun g => if s.ownAuto then decide (s'.autoOwner g = some p) else decide ((s.groupOwn g).owner = some p)

/-- The refusal of a start request (R378), in the order of its checks. -/
def State.startRefusal (s : State) (p : Nat) (col0 width : Byte) : Option Status :=
  let c := col0.toNat
  let w := width.toNat
  let new := s.enabledAt p col0 width
  let cols := (List.range w).map (· + c)
  let overlaps := cols.any fun vx => (List.range 16).any fun q => decide (q ≠ p) && s.holdsCol q vx
  if c % 4 ≠ 0 || w % 4 ≠ 0 || w < 4 || decide (s.gridW < c + w) then some St.HOST_GEOM_INVALID
  else if overlaps then some St.HOST_GEOM_OVERLAP
  else if cols.any fun vx => s.parked (s.halfOf vx) then some St.PWR_HALF_PARKED
  else if (s.wouldOwn p col0 width).any fun g => (s.groupOwn g).clearing then some St.STACK_OWN_BUSY
  else if (s.wouldOwn p col0 width).any fun g => (s.stack (g / 8)).overtemp then some St.PWR_STACK_OVERTEMP
  else if (s.tile (new.bellwether p)).quarantined then some St.CNW_NO_BELLWETHER
  else if s.shareFalls new then some St.HOST_QOS_BUSY
  else none

/-- PASTURE_START (R378, R379, R250): refused and recorded, or the pasture beats, at once or after its groups' clears. One that a
fault had stopped stays stopped until its reset (R432). Before READY a start is not accepted (R405). -/
def execPastureStart (p : PasId) (col0 : Byte) (width : Byte) (s : State) : Out :=
  let x := s.pasture p.val
  if !s.boot.ready then nothing s
  else if x.enable && (x.col0 ≠ col0 || x.width ≠ width) then .next (s.geomResult p.val St.HOST_GEOM_INVALID)
  else match s.startRefusal p.val col0 width with
    | some st => .next (s.geomResult p.val st)
    | none =>
      let s := s.geomResult p.val St.OK
      if x.enable then .next s
      else
        let s := ((s.enabledAt p.val col0 width).modPas p.val fun x =>
          { x with stopped := x.stopped && x.qAnchor.isNone, qAnchor := none, stopTime := s.now }).applyAuto
        let s := if s.hasQuarantine p.val then s.modPas p.val fun x => { x with stopped := true } else s
        if s.clearingFor p.val then .next (s.modPas p.val fun x => { x with awaitClear := true })
        else .next (s.resumeBeats p.val)

/-- PASTURE_STOP (R379): refused while runs or a load are outstanding; else the pasture stops beating and is unloaded. -/
def execPastureStop (p : PasId) (s : State) : Out :=
  let x := s.pasture p.val
  if !x.runs.isEmpty || x.loading.isSome then .next (s.geomResult p.val St.HOST_PASTURE_BUSY)
  else
    .next (((s.endOutage p.val).endStall p.val).modPas p.val fun x =>
      { x with enable := false, beating := false, inTest := false, awaitClear := false, geomStatus := St.OK, loaded := false, hasWeights := false,
               program := none, weights := none, progEntries := 0, progExact := false, progLtv := 0 }).applyAuto

/-! ## Quality of service (R400, R401) -/

/-- A weight after a write: 0 is ignored. -/
def newWeight (old : Byte) (v : Nat) : Byte := if v % 256 = 0 then old else BitVec.ofNat 8 v

/-- QOS_WRITE (R401): refused where it would lower the PCIe share of a pasture with admitted runs. -/
def execQosWrite (p : PasId) (value : BitVec 32) (s : State) : Out :=
  let v := value.toNat
  let new := s.modPas p.val fun x =>
    { x with pcieW := newWeight x.pcieW v, svcW := newWeight x.svcW (v / 2 ^ 8), cnwW := newWeight x.cnwW (v / 2 ^ 16),
             ringW := newWeight x.ringW (v / 2 ^ 24) }
  if s.shareFalls new then nothing s else .next new

end Sys2Proof.Machine
end

