-- ==== Sys2Proof/Machine/Transfers.lean ====
section
/-!
DEFINITION. Context transfers between stacks and a context store over the service links (R265 to R268, R355).
-/
namespace Sys2Proof.Machine

/-- The bytes of a page. -/
def pageBytes : Nat := 32768

/-- Every page lies wholly in window in groups with XFER = 1. -/
def State.pagesOk (s : State) (p a n : Nat) : Bool := (List.range n).all fun i => s.xferRange p (a + pageBytes * i) pageBytes

/-- The SVC_DATA packets of a page: 192 bytes each; the last carries the page's CRC-32C (assumption 61). -/
def State.pagePackets (s : State) (x : Transfer) (i : Nat) (bs : List Byte) : List FabPacket :=
  (List.range (ceilDiv pageBytes 192)).map fun j =>
    let d := (bs.drop (192 * j)).take 192
    let last := decide (192 * (j + 1) ≥ pageBytes)
    { ptype := 0x10, cls := 2, chan := 0, last := last, drove := false, hops := 32, dstChip := x.storeId, srcChip := s.chipId,
      flock := (s.pasture x.pas).flockId, srcRank := (s.pasture x.pas).selfRank, win := BitVec.ofNat 6 x.pas, drv := 0, oseq := 0, xfer := x.id.tag,
      offset := BitVec.ofNat 32 (pageBytes * i + 192 * j), count := if last then crc32c bs else 0, status := 0, e2e := 0,
      dateline := false, data := d }

/-- Send packets over a service link. -/
def State.sendService (s : State) (link : Nat) (ps : List FabPacket) : State :=
  (s.modPort (18 + link) fun x => { x with txQueue := x.txQueue ++ ps.map fun p => (p.lane, p.sealed) }).pumpPort (18 + link)

/-- The store of a transfer can be reached (R355): it is the peer of the named service link, or lies behind it where that is a VFL
switch. A transfer whose store cannot be reached sends nothing, and ends by its timeout (R267; assumption 79). -/
def State.storeReachable (s : State) (x : Transfer) : Bool :=
  let y := s.port (18 + x.link.val)
  decide (y.peerChip = x.storeId) || decide (y.peerKind = 0xF0)

/-- Replace a transfer. -/
def State.putXfer (s : State) (old new : Transfer) : State :=
  { s with xfers := s.xfers.map fun x => if x = old then new else x }

/-- Send the next page of a spill, if its link carries traffic and leads to the store; a page that cannot be read without error ends it (R260; assumption 79). -/
def State.sendPage (s : State) (x : Transfer) : State :=
  if !s.storeReachable x || !(s.port (18 + x.link.val)).state.carries then s
  else match s.stackFetch x.pas (x.saddr + pageBytes * x.done) pageBytes with
    | (s, some bs) => (s.putXfer x { x with sent := true }).sendService x.link.val (s.pagePackets x x.done bs)
    | (s, none) => s.failXfer x St.STACK_ECC_UNCORR true

/-- The transfer an XFER entry describes. -/
def transferOf (id : EntryId) (e : List Byte) (now : Nat) : Transfer :=
  { id := id, pas := entPas e, restore := leAt e 8 1 % 2 = 1, link := if leAt e 8 1 / 2 = 1 then 1 else 0, pages := leAt e 10 2,
    saddr := leAt e 16 8, storeId := BitVec.ofNat 16 (leAt e 24 2), storeAddr := BitVec.ofNat 64 (leAt e 32 8), time := now }

/-- A transfer's addresses are whole pages, it has pages, and they are all in range. -/
def State.xferOk (s : State) (x : Transfer) : Bool :=
  decide (0 < x.pages) && x.saddr % pageBytes = 0 && decide (x.saddr < 2 ^ 39) && x.storeAddr.toNat % pageBytes = 0
    && s.pagesOk x.pas x.saddr x.pages

/-- XFER (R266, R267): refused before any transfer, or under way; a spill sends its first page. -/
def execXfer (fn : FnId) (ring : Fin 16) (s : State) : Out :=
  s.onEntry fn ring (fun e => decide (entOp e = 4)) fun s id e =>
    let x := transferOf id e s.now
    if !s.xferOk x then s.answer id e St.STACK_XFER_RANGE
    else
      let s := { s with xfers := s.xfers ++ [x] }
      if x.restore then s else s.sendPage x

/-- Take a service packet from the head of a service port's receive lane, if it lies there (R351). -/
def State.takeService (s : State) (n : Nat) (p : FabPacket) : State :=
  match smapGet [] (s.port n).rxLanes 4 with
  | q :: rest =>
    if q = p then
      s.modPort n fun x => { x with rxLanes := smapPut x.rxLanes 4 rest, freed := smapPut x.freed 4 (smapGet 0 x.freed 4 + 1) }
    else s
  | [] => s

/-- A service packet fails its end-to-end check (R345): counted for the pasture of its transfer. -/
def State.serviceBad (s : State) (n : Nat) (p : FabPacket) : State :=
  (s.modPas (s.serviceOwner p) fun x => { x with e2eFail := satInc x.e2eFail }).pkgEvent St.FAB_E2E_CRC n

/-- The transfer a packet belongs to: one of its link, or one that left that link when it retrained (R268). -/
def State.xferOf (s : State) (link : Fin 2) (p : FabPacket) (restore : Bool) : Option Transfer :=
  let mine := s.xfers.filter fun x => x.restore == restore && decide (x.id.tag = p.xfer) && decide (x.pas = p.win.toNat)
    && decide (x.storeId = p.srcChip)
  match mine.find? fun x => decide (x.link = link) with
  | some x => some x
  | none => mine.head?

/-- A page has been moved: the transfer completes with its last one (R267). -/
def State.pageDone (s : State) (x : Transfer) : State :=
  let x' := { x with done := x.done + 1, got := [], sent := false, time := s.now }
  if x'.pages ≤ x'.done then ({ s with xfers := s.xfers.erase x }).finishXfer x' St.OK
  else
    let s := s.putXfer x x'
    if x.restore then s else s.sendPage x'

/-- The SVC_ACK of a restored page. -/
def State.ackPage (s : State) (x : Transfer) : State :=
  s.sendService x.link.val
    [{ ptype := 0x11, cls := 2, chan := 0, last := true, drove := false, hops := 32, dstChip := x.storeId, srcChip := s.chipId,
       flock := (s.pasture x.pas).flockId, srcRank := (s.pasture x.pas).selfRank, win := BitVec.ofNat 6 x.pas, drv := 0, oseq := 0, xfer := x.id.tag,
       offset := BitVec.ofNat 32 (pageBytes * x.done), count := 0, status := 0, e2e := 0, dateline := false, data := [] }]

/-- The write of a restored page fails at the stack port after its retry (R260): the pasture stops, and the transfer ends
(assumption 129). -/
def State.pageUnwritten (s : State) (x : Transfer) : State :=
  let a := x.saddr + pageBytes * x.done
  let s := match s.stackPlace x.pas a with
    | some (g, _) =>
      (s.modStack (g / 8) fun y => { y with retries := satInc y.retries }).stkRecord (g / 8) x.pas a St.STACK_WRITE_FAIL
    | none => s
  (s.failXfer x St.STACK_WRITE_FAIL true).stopPasture x.pas St.STACK_WRITE_FAIL

/-- SVC_DATA (R355, R267): bytes of a restored page in ascending order. The last packet of a page carries its CRC-32C in COUNT, as the
spill's do (assumption 61); a page that fails ends the transfer. The operand says whether the stack takes the page that the packet
completes. -/
def execSvcData (link : Fin 2) (pkt : FabPacket) (stackOk : Bool) (s : State) : Out :=
  let n := 18 + link.val
  if pkt.ptype ≠ 0x10 || pkt.cls ≠ 2 || !(s.port n).state.carries then nothing s
  else
    let s := s.takeService n pkt
    if !pkt.e2eOk then .next (s.serviceBad n pkt)
    else match s.xferOf link pkt true with
      | none => .next s
      | some x =>
        if pkt.offset.toNat ≠ (pageBytes * x.done + x.got.length) % 2 ^ 32 then .next s
        else
          let got := x.got ++ pkt.data
          if got.length < pageBytes then .next (s.putXfer x { x with got := got, time := s.now })
          else if pkt.count ≠ crc32c (got.take pageBytes) then .next (s.failXfer x St.STACK_XFER_CRC true)
          else if !stackOk then .next (s.pageUnwritten x)
          else .next (((s.stackWrite x.pas (x.saddr + pageBytes * x.done) (got.take pageBytes)).ackPage x).pageDone x)

/-- SVC_ACK (R355): a spilled page is acknowledged. -/
def execSvcAck (link : Fin 2) (pkt : FabPacket) (s : State) : Out :=
  let n := 18 + link.val
  if pkt.ptype ≠ 0x11 || pkt.cls ≠ 2 || !(s.port n).state.carries then nothing s
  else
    let s := s.takeService n pkt
    if !pkt.e2eOk then .next (s.serviceBad n pkt)
    else match s.xferOf link pkt false with
      | none => .next s
      | some x => if pkt.offset.toNat = (pageBytes * x.done) % 2 ^ 32 then .next (s.pageDone x) else .next s

/-- Spills whose page is not on their link put it there, once the link carries traffic and leads to their store (R267). -/
def State.runXfers (s : State) : State :=
  s.xfers.foldl (fun s x =>
    if !x.restore && !x.sent then s.sendPage x else s) s

/-- XFER_LINK_TIMEOUT (R267): a transfer named for a link has made no progress for 10 ms. -/
def execXferLinkTimeout (link : Fin 2) (s : State) : Out :=
  match s.xfers.find? fun x => decide (x.link = link) && decide (x.time + 10 * msT ≤ s.now) with
  | none => nothing s
  | some x => .next (s.failXfer x St.STACK_XFER_LINK true)

end Sys2Proof.Machine
end

