-- ==== Sys2Proof/Machine/Binary.lean ====
section
/-!
DEFINITION. Binaries as byte images: their parts, regions, tile sections and relocation, and what the loader checks (R302 to
R312).
-/
namespace Sys2Proof.Machine

/-! ## Parts of a binary (R302 to R309) -/

/-- A segment of a tile section (R308), and whether its LEN bytes are there. -/
structure Segment where
  type   : Nat := 0
  addr   : Nat := 0
  region : Nat := 0
  clear  : Bool := true
  fits   : Bool := true
  data   : List Byte := []
deriving DecidableEq, Repr, Inhabited

/-- A relocation record (R309). -/
structure Reloc where
  field  : Nat := 0
  region : Nat := 0
  seg    : Nat := 0
  offset : Nat := 0
deriving DecidableEq, Repr, Inhabited

/-- A tile section (R308): its tile, segments and relocation records, and whether its parts fill its LENGTH. -/
structure TileSection where
  vx     : Nat := 0
  vy     : Nat := 0
  segs   : List Segment := []
  relocs : List Reloc := []
  fits   : Bool := true
deriving DecidableEq, Repr, Inhabited

/-- A binary taken apart: the header's bytes, the tables, the sections, and what is left behind them. -/
structure Binary where
  header   : List Byte := []
  entries  : List (List Byte) := []
  wpts     : List (List Byte) := []
  regions  : List (List Byte) := []
  sections : List TileSection := []
  rest     : List Byte := []
deriving DecidableEq, Repr, Inhabited

/-- Take n records of m bytes off a list. -/
def takeRecords (m : Nat) : Nat → List Byte → List (List Byte) × List Byte
  | 0, bs => ([], bs)
  | n + 1, bs =>
    let (rs, rest) := takeRecords m n (bs.drop m)
    (bs.take m :: rs, rest)

/-- Take n segments off a list. -/
def takeSegments : Nat → List Byte → List Segment × List Byte
  | 0, bs => ([], bs)
  | n + 1, bs =>
    let h := bs.take 16
    let body := bs.drop 16
    let len := leAt h 8 4
    let (gs, rest) := takeSegments n (body.drop len)
    ({ type := leAt h 0 1, addr := leAt h 4 4, region := leAt h 12 2, clear := leAt h 1 3 = 0 && leAt h 14 2 = 0,
       fits := decide (len ≤ body.length), data := body.take len } :: gs, rest)

/-- A relocation record from its 8 bytes. -/
def relocOf (b : List Byte) : Reloc :=
  { field := leAt b 7 1, region := leAt b 5 2, seg := leAt b 4 1, offset := leAt b 0 4 }

/-- Take n tile sections off a list. -/
def takeSections : Nat → List Byte → List TileSection × List Byte
  | 0, bs => ([], bs)
  | n + 1, bs =>
    let h := bs.take 16
    let nSeg := leAt h 2 2
    let nRel := leAt h 4 4
    let len := leAt h 8 8
    let (segs, r1) := takeSegments nSeg (bs.drop 16)
    let (rels, r2) := takeRecords 8 (min nRel r1.length) r1
    let size := 16 + (segs.map fun g => 16 + g.data.length).foldl (· + ·) 0 + 8 * nRel
    let (ts, rest) := takeSections n r2
    ({ vx := leAt h 0 1, vy := leAt h 1 1, segs := segs, relocs := rels.map relocOf,
       fits := decide (len = size) && decide (len ≤ bs.length) && segs.all (·.fits) } :: ts, rest)

/-- Take a binary apart by the counts of its header. -/
def binaryOf (b : List Byte) : Binary :=
  let h := b.take 256
  let (es, r1) := takeRecords 32 (leAt h 0x0F 1) (b.drop 256)
  let (ws, r2) := takeRecords 16 (leAt h 0x10 2) r1
  let (rs, r3) := takeRecords 32 (leAt h 0x12 2) r2
  let (ss, r4) := takeSections (leAt h 0x14 2) r3
  { header := h, entries := es, wpts := ws, regions := rs, sections := ss, rest := r4 }

/-- A numeric field of the header. -/
def Binary.hdr (b : Binary) (o n : Nat) : Nat := leAt b.header o n
/-- A digest of the header. -/
def Binary.digest (b : Binary) (o : Nat) : Digest := digestOf (slice b.header o 32)
/-- KIND: 1 is a weight package. -/
def Binary.weights (b : Binary) : Bool := b.hdr 0x06 1 = 1
/-- BODY_DIGEST. -/
def Binary.bodyDigest (b : Binary) : Digest := b.digest 0x40

/-- An entry record (R304). -/
def entryRecOf (e : List Byte) : EntryRec :=
  { entry := BitVec.ofNat 4 (leAt e 0 1), phase := leAt e 2 2, declBeats := leAt e 8 8, inBytes := leAt e 16 4,
    outBytes := leAt e 20 4, wptNs := leAt e 24 4 }

/-- A waypoint record (R305). -/
def wptRecOf (e : List Byte) : WptRec := { wpt := byteAt e 0, boundNs := leAt e 4 4, timeoutUs := leAt e 8 4 }

/-- A region record (R306). -/
def regionOf (r : List Byte) : Region :=
  let flags := leAt r 3 1
  { region := leAt r 0 2, kind := leAt r 2 1, protect := flags % 2 = 1, zero := flags / 2 % 2 = 1, hash := flags / 4 % 4,
    vxLo := leAt r 4 1, vyLo := leAt r 5 1, vxHi := leAt r 6 1, vyHi := leAt r 7 1, base := leAt r 8 8, size := leAt r 16 8 }

/-! ## Regions (R306, R307, R311) -/

/-- A region in the scratchpad. -/
def Region.spad (r : Region) : Bool := 1 ≤ r.kind && r.kind ≤ 6

/-- A region's rectangle holds a tile. -/
def Region.holds (r : Region) (vx vy : Nat) : Bool := r.vxLo ≤ vx && vx ≤ r.vxHi && r.vyLo ≤ vy && vy ≤ r.vyHi

/-- The keys of a region's tiles. -/
def Region.tiles (r : Region) : List Nat :=
  (List.range (r.vyHi + 1 - r.vyLo)).flatMap fun y =>
    (List.range (r.vxHi + 1 - r.vxLo)).map fun x => tileKey (r.vxLo + x) (r.vyLo + y)

/-- Add a STACK region's placement to its base (R307); none where the list does not name it. -/
def Region.placed (place : List (Nat × Nat × Nat)) (r : Region) : Option Region :=
  if r.kind = 8 then
    match place.find? fun x => decide (x.1 = r.region) with
    | some (_, slot, off) => some { r with base := slot * 2 ^ 33 + (r.base + off) }
    | none => none
  else some r

/-- The regions of a binary after placement. -/
def Binary.placedRegions (b : Binary) (place : List (Nat × Nat × Nat)) : List Region :=
  b.regions.filterMap fun r => (regionOf r).placed place

/-- Two regions share a tile. -/
def Region.sharesTile (a b : Region) : Bool :=
  max a.vxLo b.vxLo ≤ min a.vxHi b.vxHi && max a.vyLo b.vyLo ≤ min a.vyHi b.vyHi

/-- Two ranges of a base and a size meet. -/
def rangesMeet (a n b m : Nat) : Bool := 0 < n && 0 < m && a < b + m && b < a + n

/-- A slot of a STORE region. -/
def Region.hasSlot (r : Region) (slot : Nat) : Bool := (slot + 256 - r.base % 256) % 256 < r.size

/-- Two regions overlap: they share a tile, and bytes of one memory or slots. -/
def Region.overlaps (a b : Region) : Bool :=
  a.sharesTile b &&
  ((a.spad && b.spad && rangesMeet a.base a.size b.base b.size)
    || (decide (a.kind = 8) && decide (b.kind = 8) && rangesMeet a.base a.size b.base b.size)
    || (decide (a.kind = 9) && decide (b.kind = 9) && (List.range 256).any fun n => a.hasSlot n && b.hasSlot n))

/-- Two scratchpad regions of different hash modes share a stripe of a tile. -/
def Region.mixesHash (a b : Region) : Bool :=
  a.spad && b.spad && decide (a.hash ≠ b.hash) && a.sharesTile b && decide (0 < a.size) && decide (0 < b.size)
    && rangesMeet (a.base / 2048) ((a.base + a.size - 1) / 2048 + 1 - a.base / 2048)
        (b.base / 2048) ((b.base + b.size - 1) / 2048 + 1 - b.base / 2048)

/-- Every line of a scratchpad region satisfies a condition on its byte address. -/
def Region.linesAll (r : Region) (f : Nat → Bool) : Bool :=
  (List.range ((r.base + r.size + 63) / 64 - r.base / 64)).all fun i => f ((r.base / 64 + i) * 64)

/-- A region, after placement, obeys its KIND's rule (R306), lies in the pasture and in its memory. -/
def State.regionOk (s : State) (p : Nat) (weights : Bool) (r : Region) : Bool :=
  decide (r.vxLo ≤ r.vxHi) && decide (r.vyLo ≤ r.vyHi) && decide (r.vyHi < 40)
    && s.holdsCol p r.vxLo && s.holdsCol p r.vxHi && decide (r.hash ≠ 3)
    && (!r.spad || decide (r.base + r.size ≤ 2 ^ 21))
    && (!(r.spad && r.protect) || (decide (0 < r.size) && decide (r.base % 64 = 0) && decide (r.size % 64 = 0)))
    && match r.kind with
       | 1 => weights && r.protect
       | 2 | 3 => true
       | 4 => decide (r.base % 128 = 0) && decide (r.size % 128 = 0) && decide (r.hash = 0)
       | 5 => decide (r.hash = 0) && r.linesAll (fun a => a / 256 % 8 = 7) && r.tiles.all fun k => s.isEdge (keyVx k) (keyVy k)
       | 6 => decide (r.hash = 0) && r.linesAll fun a => a / 64 % 32 = 0
       | 8 =>
         match (s.ownedGroups p)[r.base / 2 ^ 33]? with
         | some g => decide (r.base % 2 ^ 33 + r.size ≤ s.groupSize g)
         | none => false
       | 9 => decide (r.base < 256) && decide (r.size ≤ 256)
       | _ => false

/-- Each region of a list is unlike every later one. -/
def pairwiseAll {α : Type} (f : α → α → Bool) : List α → Bool
  | [] => true
  | a :: as => as.all (f a) && pairwiseAll f as

/-- The regions of a binary that may be written by a segment type, by KIND. -/
def writableKind (type kind : Nat) : Bool :=
  match type with
  | 2 => kind = 1 || kind = 2 || kind = 5
  | 3 => kind = 4
  | _ => false

/-- The region a segment names, if it is one of the list and holds the tile. -/
def regionNamed (rs : List Region) (n : Nat) : Option Region := rs.find? fun r => decide (r.region = n)

/-- The slots of a DESC segment. -/
def Segment.slots (g : Segment) : List Nat := (List.range (g.data.length / 128)).map fun i => (g.addr + i) % 256

/-- A segment lies in a region that it may write (R311). -/
def segmentIn (rs : List Region) (t : TileSection) (g : Segment) : Bool :=
  match g.type with
  | 1 => g.slots.all fun n => rs.any fun r => decide (r.kind = 9) && r.holds t.vx t.vy && r.hasSlot n
  | 2 | 3 =>
    match regionNamed rs g.region with
    | some r => writableKind g.type r.kind && r.holds t.vx t.vy && decide (r.base ≤ g.addr)
        && decide (g.addr + g.data.length ≤ r.base + r.size)
    | none => false
  | _ => true

/-- The regions of the loaded weight package, which a program's regions must not touch. -/
def Pasture.weightRegions (x : Pasture) : List Region :=
  match x.weights with
  | some w => if x.hasWeights then w.2 else []
  | none => []

/-- Protected ranges of one tile: the weight package's first (R313). -/
def protectsOf (rs : List Region) (k : Nat) : List Region :=
  rs.filter fun r => r.spad && r.protect && r.holds (keyVx k) (keyVy k)

/-- Check 10 of R310 (R311). -/
def State.allocOk (s : State) (p : Nat) (b : Binary) (place : List (Nat × Nat × Nat)) : Bool :=
  let raw := b.regions.map regionOf
  let rs := b.placedRegions place
  let all := (if b.weights then [] else (s.pasture p).weightRegions) ++ rs
  decide (rs.length = raw.length)
    && pairwiseAll (fun a b => decide (a.region ≠ b.region)) rs
    && rs.all (s.regionOk p b.weights)
    && pairwiseAll (fun a b => !a.overlaps b && !a.mixesHash b) all
    && (s.tilesOf p).all (fun k => decide ((protectsOf all k).length ≤ 4))
    && b.sections.all fun t => t.segs.all (segmentIn rs t)

/-! ## Format, sections and entries -/

/-- Bytes lo to hi − 1 are zero. -/
def clear (b : List Byte) (lo hi : Nat) : Bool := zeroBytes b lo hi

/-- Check 1 of R310, against the KIND the request names and the length of the plaintext. -/
def Binary.formatOk (b : Binary) (weights : Bool) (length : Nat) : Bool :=
  let ne := b.hdr 0x0F 1
  let ns := b.hdr 0x14 2
  decide (b.header.length = 256) && decide (b.hdr 0 4 = 0x4246544C) && decide (b.hdr 4 2 = 0x0100)
    && decide (b.hdr 6 1 = if weights then 1 else 0) && decide (b.hdr 0x18 8 = length)
    && (if weights then decide (ne = 0) && clear b.header 0x60 0x80 else 1 ≤ ne && ne ≤ 16)
    && decide (b.hdr 0x10 2 ≤ 256) && 1 ≤ b.hdr 0x12 2 && b.hdr 0x12 2 ≤ 4096
    && 1 ≤ ns && ns ≤ b.hdr 0x0D 1 * 40
    && decide (256 + 32 * ne + 16 * b.hdr 0x10 2 + 32 * b.hdr 0x12 2 + 16 * ns ≤ length)
    && decide (b.hdr 7 1 < 8) && decide (b.hdr 9 1 < 2) && decide (b.hdr 0x0E 1 < 2)
    && clear b.header 0x16 0x18 && clear b.header 0xE0 0x100
    && b.entries.all (fun e => clear e 1 2 && clear e 4 8 && clear e 28 32)
    && b.wpts.all (fun e => clear e 1 4 && clear e 12 16)
    && b.regions.all (fun e => decide (leAt e 3 1 < 16) && clear e 24 32)
    && b.sections.all fun t => t.segs.all (·.clear)

/-- A segment's type, length and bounds are valid (R308). -/
def Segment.ok (weights : Bool) (g : Segment) : Bool :=
  let n := g.data.length
  match g.type with
  | 1 => !weights && decide (n % 128 = 0) && 128 ≤ n && n ≤ 32768 && decide (g.addr < 256)
  | 2 => decide (g.addr + n ≤ 2 ^ 21)
  | 3 => !weights && decide (n % 128 = 0) && decide (g.addr % 128 = 0) && decide (g.addr + n ≤ 2 ^ 21)
  | 4 => !weights && decide (n = 256) && decide (g.addr = 0)
  | 5 => !weights && decide (n = 32) && decide (g.addr = 0)
  | _ => false

/-- The key of a section's tile. -/
def TileSection.key (t : TileSection) : Nat := tileKey t.vx t.vy

/-- Check 9 of R310. -/
def State.sectionsOk (s : State) (p : Nat) (b : Binary) : Bool :=
  decide (b.rest = []) && decide (b.sections.length = (s.ownTiles p).length)
    && b.sections.all (fun t => t.fits && decide (t.vy < 40) && s.holdsCol p t.vx && t.segs.all (Segment.ok b.weights))
    && pairwiseAll (fun a c => decide (TileSection.key a ≠ c.key)) b.sections

/-- The slots of a section's DESC segments. -/
def TileSection.descSlots (t : TileSection) : List Nat := (t.segs.filter fun g => decide (g.type = 1)).flatMap Segment.slots

/-- A section's CONFIG segment: the last one, since each is written in order. -/
def TileSection.config (t : TileSection) : Option (List Byte) :=
  ((t.segs.filter fun g => decide (g.type = 5)).getLast?).map (·.data)

/-- TSQ_ENTRY_n of a section's CONFIG. -/
def cfgEntry (c : List Byte) (n : Nat) : Nat := leAt c (2 + n) 1
/-- The fold membership mask of a section's CONFIG. -/
def cfgFolds (c : List Byte) : Word := BitVec.ofNat 64 (leAt c 24 8)

/-- Check 15 of R310. -/
def Binary.entriesOk (b : Binary) : Bool :=
  let ns := b.entries.map fun e => leAt e 0 1
  ns.all (fun n => decide (n < 16)) && pairwiseAll (fun a c => decide (a ≠ c)) ns
    && b.entries.all (fun e => decide (4096 ≤ leAt e 8 8) && decide (leAt e 2 2 < 4096))
    && b.sections.all fun t =>
         match t.config with
         | some c => ns.all fun n => t.descSlots.contains (cfgEntry c n)
         | none => false

/-! ## Relocation (R309, R312) -/

/-- The 16 words of slot i of a segment's bytes. -/
def segWords (bs : List Byte) (i : Nat) : List Word := (List.range 16).map fun w => BitVec.ofNat 64 (leAt bs (128 * i + 8 * w) 8)

/-- The words a field kind may point to in a slot of descriptors or records: byte offset in the slot, FIELD, and whether the
word must carry a relocation record. `kinds` gives the FIELDs that the slot's record q may have. A record of zeros is no record, and
RES_ADDR 0xFFFF no address. -/
def slotFields (kinds : Nat → List Nat) (ws : List Word) : List (Nat × Nat × Bool) :=
  match opOf ws with
  | 0 => (List.range 4).flatMap fun q =>
      let used := (List.range 4).any fun w => decide (ws.getD (4 * q + w) 0 ≠ 0)
      (kinds q).map fun f => (32 * q, f, used)
  | 0x14 => [(16, 3, true)]
  | 0x19 => if dField ws 2 63 48 = 0xFFFF then [] else [(16, 6, true)]
  | 0x26 => [(8, 4, true)]
  | _ => []

/-- The actions of a HANDLERS segment. -/
def actionsOf (bs : List Byte) : List (BitVec 32) := (List.range 64).map fun i => BitVec.ofNat 32 (leAt bs (4 * i) 4)

/-- An action's ADDR is a service offset: WRITE, ADD, BUMP and REPLY (R281). -/
def addrAction (a : BitVec 32) : Bool := [1, 2, 3, 6].contains (actOp a)

/-- The words of each slot in a section's DESC and OVERLAY segments. -/
def TileSection.slotWords (t : TileSection) : List (List Word) :=
  (t.segs.filter fun g => decide (g.type = 1) || decide (g.type = 3)).flatMap fun g =>
    (List.range (g.data.length / 128)).map (segWords g.data)

/-- The copies that a section's OVERLAY descriptors make: SRC, DST_SLOT and COUNT (R220). -/
def TileSection.copies (t : TileSection) : List (Nat × Nat × Nat) :=
  (t.slotWords.filter fun ws => decide (opOf ws = 0x26)).map fun ws => (dField ws 1 20 0, dField ws 1 63 56, dField ws 1 55 47)

/-- The store slots in which slot i of a segment comes to lie: its own, or for an OVERLAY segment those that a copy gives it. -/
def TileSection.storeSlots (t : TileSection) (g : Segment) (i : Nat) : List Nat :=
  if g.type = 1 then [(g.addr + i) % 256]
  else t.copies.filterMap fun c =>
    let a := g.addr + 128 * i
    if c.1 ≤ a && a < c.1 + 128 * c.2.2 then some ((c.2.1 + (a - c.1) / 128) % 256) else none

/-- The store words of a section's DESC segments, by store key. -/
def TileSection.image (t : TileSection) : SMap Word :=
  (t.segs.filter fun g => decide (g.type = 1)).foldl (fun m g =>
    (List.range (g.data.length / 128)).foldl (fun m i =>
      (List.range 16).foldl (fun m w => smapPut m ((g.addr + i) % 256 * 16 + w) ((segWords g.data i).getD w 0)) m) m) []

/-- The words of the OVERLAY-segment slot at a tile byte address. -/
def TileSection.overlaySlot (t : TileSection) (a : Nat) : Option (List Word) :=
  (t.segs.find? fun g => decide (g.type = 3) && decide (g.addr ≤ a) && decide (a < g.addr + g.data.length)).map fun g =>
    segWords g.data ((a - g.addr) / 128)

/-- A store as a LOAD may find it: what it holds, and the slots that the binary has filled. -/
abbrev StoreView := SMap Word × List Nat

/-- The store as the DESC segments fill it. -/
def TileSection.baseView (t : TileSection) : StoreView := (t.image, t.descSlots)

/-- The store after a copy. -/
def TileSection.copyView (t : TileSection) (c : Nat × Nat × Nat) : StoreView :=
  (List.range c.2.2).foldl (fun v j =>
    let slot := (c.2.1 + j) % 256
    match t.overlaySlot (c.1 + 128 * j) with
    | some ws => ((List.range 16).foldl (fun m w => smapPut m (slot * 16 + w) (ws.getD w 0)) v.1, slot :: v.2)
    | none => v) t.baseView

/-- Record i as a store holds it, where the binary has filled its slot. -/
def viewRecord (i : Nat) (v : StoreView) : Option (BitVec 256) :=
  if v.2.contains (i / 4) then some (({ store := v.1 } : Tile).rawRec i) else none

/-- What the binary's segments may put into record i: the DESC segments, and each copy of an overlay. -/
def TileSection.held (t : TileSection) (i : Nat) : List (BitVec 256) :=
  (t.baseView :: t.copies.map t.copyView).filterMap (viewRecord i)

/-- The records that a section's LOADs name as stack records, or as scratchpad records: an index record, which an IND_REC names, is one of
the latter (R190, R198). -/
def TileSection.namedRecs (t : TileSection) (stack : Bool) : List Nat :=
  (t.slotWords.filter isLoad).flatMap fun ws =>
    let op := opOf ws
    ((recFields op).filter fun p => stkField op p == stack).map (recIndex ws) ++ (if stack then [] else
      (namedFields ws).flatMap fun p => ((t.held (recIndex ws p)).map (decodeField op p)).filterMap fun r =>
        if r.indDim ≠ 0 && r.indRec ≠ noRec then some r.indRec else none)

/-- The FIELDs of record q of slot i of a segment (R312): as the LOADs that name the record use it; both where none does. -/
def TileSection.recKinds (t : TileSection) (g : Segment) (i q : Nat) : List Nat :=
  let here (rs : List Nat) : Bool := (t.storeSlots g i).any fun n => rs.contains (4 * n + q)
  match here (t.namedRecs false), here (t.namedRecs true) with
  | true, false => [1]
  | false, true => [2]
  | _, _ => [1, 2]

/-- The address fields of a segment of a section: offset, FIELD, and whether a relocation record is required. -/
def Segment.fields (t : TileSection) (g : Segment) : List (Nat × Nat × Bool) :=
  match g.type with
  | 1 | 3 => (List.range (g.data.length / 128)).flatMap fun i =>
      (slotFields (t.recKinds g i) (segWords g.data i)).map fun f => (128 * i + f.1, f.2)
  | 4 => (List.range 64).filterMap fun i =>
      if addrAction (BitVec.ofNat 32 (leAt g.data (4 * i) 4)) then some (4 * i, 5, true) else none
  | _ => []

/-- The place of a field in its word: bytes of the word, high and low bit. -/
def fieldPlace (f : Nat) : Nat × Nat × Nat :=
  match f with
  | 1 | 4 => (8, 20, 0)
  | 2 | 3 => (8, 38, 0)
  | 5 => (4, 15, 0)
  | _ => (8, 63, 48)

/-- Bits [hi:lo] of a number. -/
def bitsOf (x hi lo : Nat) : Nat := x / 2 ^ lo % 2 ^ (hi + 1 - lo)

/-- A relocated field's value before relocation: its offset within the region. -/
def Reloc.value (r : Reloc) (g : Segment) : Nat :=
  let (n, hi, lo) := fieldPlace r.field
  bitsOf (leAt g.data r.offset n) hi lo

/-- The regions a field may address, by KIND; a WINOPEN's depend on its KIND. -/
def Reloc.kindOk (r : Reloc) (g : Segment) (kind : Nat) : Bool :=
  match r.field with
  | 1 => 1 ≤ kind && kind ≤ 6
  | 2 => kind = 8
  | 3 => if dBit (segWords g.data (r.offset / 128)) 1 57 then kind = 5 else kind = 8
  | 4 => kind = 4
  | _ => kind = 6

/-- A relocation record of a section is valid: it points to a field of its kind and names a region the field may address. `u` is the section
relocated, which tells where overlays lie. -/
def Reloc.ok (rs : List Region) (t u : TileSection) (r : Reloc) : Bool :=
  match t.segs[r.seg]?, regionNamed rs r.region with
  | some g, some x => (g.fields u).any (fun f => decide (f.1 = r.offset) && decide (f.2.1 = r.field)) && r.kindOk g x.kind
      && decide (r.value g < x.size)
  | _, _ => false

/-- The service-view offset of a tile byte address (R121). -/
def serviceOffset (a : Nat) : Nat := a / 2048 * 64 + a % 64
/-- The landing-view offset of a tile byte address (R121). -/
def landingOffset (a : Nat) : Nat := a / 2048 * 256 + a % 256

/-- The value a relocated field takes: the region's base plus the offset, as the field counts addresses. -/
def Reloc.target (r : Reloc) (x : Region) (off : Nat) : Nat :=
  match r.field with
  | 5 | 6 => serviceOffset (x.base + off)
  | 3 => if x.kind = 5 then landingOffset (x.base + off) else x.base + off
  | _ => x.base + off

/-- Replace bits [hi:lo] of a number. -/
def putBits (x hi lo v : Nat) : Nat := x - bitsOf x hi lo * 2 ^ lo + v % 2 ^ (hi + 1 - lo) * 2 ^ lo

/-- Relocate one field of a segment. -/
def Reloc.apply (rs : List Region) (r : Reloc) (g : Segment) : Segment :=
  match regionNamed rs r.region with
  | none => g
  | some x =>
    let (n, hi, lo) := fieldPlace r.field
    let w := leAt g.data r.offset n
    { g with data := overwrite g.data r.offset (bytesOf n (putBits w hi lo (r.target x (r.value g)))) }

/-- A section with its fields relocated. -/
def TileSection.relocated (rs : List Region) (t : TileSection) : TileSection :=
  { t with segs := (List.range t.segs.length).map fun i =>
      (t.relocs.filter fun r => decide (r.seg = i)).foldl (fun g r => r.apply rs g) (t.segs.getD i {}) }

/-- Check 11 of R310 for a section (R312): no field has two records, and each that needs one has one. -/
def TileSection.relocOk (rs : List Region) (t : TileSection) : Bool :=
  let u := t.relocated rs
  t.relocs.all (Reloc.ok rs t u)
    && pairwiseAll (fun a b => !(decide (Reloc.seg a = Reloc.seg b) && decide (a.offset = b.offset))) t.relocs
    && (List.range t.segs.length).all fun i =>
        (((t.segs.getD i {}).fields u).filter (·.2.2)).all fun f => t.relocs.any fun r => decide (r.seg = i) && decide (r.offset = f.1)

/-! ## Descriptors and handlers (R310) -/

/-- The stores that slot i of a segment is checked in: the DESC segments', and for an OVERLAY segment those after the copies that place it. -/
def TileSection.views (t : TileSection) (g : Segment) (i : Nat) : List StoreView :=
  if g.type = 1 then [t.baseView]
  else
    let a := g.addr + 128 * i
    match t.copies.filter fun c => decide (c.1 ≤ a) && decide (a < c.1 + 128 * c.2.2) with
    | [] => [t.baseView]
    | cs => cs.map t.copyView

/-- What a LOAD checked in a view may find in record i: what the view holds there, or where it holds nothing what any copy brings. -/
def TileSection.recordsAt (t : TileSection) (v : StoreView) (i : Nat) : List (BitVec 256) :=
  match viewRecord i v with
  | some r => [r]
  | none => t.held i

/-- Each record of a LOAD passes R196's checks in a view: of those that only other copies bring, one must; a record that no segment holds
is not known and passes (assumption 85). -/
def TileSection.viewOk (t : TileSection) (ws : List Word) (v : StoreView) : Bool :=
  (namedFields ws).all fun p =>
    let raws := t.recordsAt v (recIndex ws p)
    raws.isEmpty || raws.any fun raw =>
      match t.recordsAt v (decodeField (opOf ws) p raw).indRec with
      | [] => recordOk ws p raw none
      | idxs => idxs.any fun x => recordOk ws p raw (some x)

/-- Check 12 of R310 for the descriptor in a slot of a segment: a slot of records is none, and an opcode that R195 reserves fails
(assumption 85). The records of a LOAD are checked as the binary's own segments hold them. -/
def State.descOk (s : State) (p : Nat) (exact : Bool) (t : TileSection) (g : Segment) (i : Nat) : Bool :=
  let ws := segWords g.data i
  let op := opOf ws
  let ld := isLoad ws
  op = 0 ||
    (opValid op && wordsOk ws && (!ld || (t.views g i).all (t.viewOk ws))
      && (!(op = 0x10 || op = 0x11 || op = 0x14 || op = 0x15) || s.isEdge (keyVx t.key) (keyVy t.key))
      && (!(ld && (op = 0x10 || op = 0x11)) || (s.ownedGroups p).any fun g => decide (g / 8 = stkPort ws))
      && (!(exact && ld && (op = 0x01 || op = 0x02)) || dBit ws 1 61))

/-- Check 13 of R310 for the descriptor in a slot. -/
def State.latOk (s : State) (k : Nat) (ws : List Word) : Bool :=
  !(isLoad ws && decide (opOf ws = 0x10)) || decide (s.chartStk false (stkPort ws) (keyVx k) (keyVy k) ≤ stkLatOf ws)

/-- Check 12 of R310. -/
def State.descsOk (s : State) (p : Nat) (exact : Bool) (t : TileSection) : Bool :=
  t.segs.all fun g =>
    !(decide (g.type = 1) || decide (g.type = 3)) || (List.range (g.data.length / 128)).all fun i => s.descOk p exact t g i

/-- Check 14 of R310 for a section. -/
def TileSection.handlersOk (rs : List Region) (t : TileSection) : Bool :=
  t.segs.all fun g =>
    decide (g.type ≠ 4) ||
      (actionsOf g.data).all fun a =>
        decide (actOp a < 8) && !(decide (actOp a = 6) && decide (32 < actN a))
          && (!addrAction a || rs.any fun r =>
                let x := serviceAddr (field a 15 0)
                decide (r.kind = 6) && r.holds t.vx t.vy && decide (r.base ≤ x) && decide (x < r.base + r.size))

/-! ## Folds -/

/-- The pasture-local folds that a binary's membership masks use, with how many tiles are members. -/
def Binary.folds (b : Binary) : List (Nat × Nat) :=
  let masks := b.sections.filterMap fun t => t.config.map cfgFolds
  (List.range 64).filterMap fun i =>
    let n := (masks.filter fun m => bitAt m i).length
    if n = 0 then none else some (i, n)

/-- The package folds a pasture may take: those no other pasture owns. -/
def State.freeFolds (s : State) (p : Nat) : List Nat :=
  (List.range 64).filter fun f => !(s.foldAt f).valid || decide ((s.foldAt f).owner.toNat = p)

/-! ## The checks in order (R310) -/

/-- A check and the status of its failure; a check is made only once those before it passed. -/
abbrev Check := (Unit → Bool) × Status

/-- The status of the first check that fails. -/
def firstFail : List Check → Option Status
  | [] => none
  | (ok, st) :: cs => if ok () then firstFail cs else some st

/-- GRADES names the package's grade, or LTF-56 where it presents below its grade. -/
def State.gradeOk (s : State) (grades : Nat) : Bool :=
  let bit := match s.facts.grade with | .ltf64x => 0 | .ltf64 => 1 | .ltf56 => 2
  grades.testBit bit || (s.boot.belowGrade && grades.testBit 2)

/-- The package trusts the signer (R454): SIGNER is the digest of a listed key, under which SIGNATURE over bytes 0x00 to 0x9F of the header
verifies. -/
def State.signerOk (s : State) (b : Binary) : Bool :=
  s.sec.signers.any fun key => decide (sm3 key = b.digest 0x80) && sm2Verify key (slice b.header 0 0xA0) (slice b.header 0xA0 64)

/-- Checks 1 to 4 of R310. A package in management-only mode presents no grid and takes no binary (R5). -/
def State.commonChecks (s : State) (b : Binary) (weights : Bool) (plain : List Byte) : List Check :=
  [(fun _ => b.formatOk weights plain.length, St.HOST_BIN_FORMAT),
   (fun _ => decide (b.bodyDigest = sm3 (plain.drop 0x100)), St.HOST_BIN_DIGEST),
   (fun _ => s.signerOk b, St.HOST_BIN_SIGNATURE),
   (fun _ => !s.boot.mgmtOnly && decide (b.hdr 0x0A 1 = s.gridW) && decide (b.hdr 0x0B 1 = 40) && s.gradeOk (b.hdr 7 1), St.HOST_GRID)]

/-- The refusal of a weight package by R310, if any: checks 1 to 4, 9 and 10. -/
def State.weightsRefusal (s : State) (p : Nat) (place : List (Nat × Nat × Nat)) (plain : List Byte) :
    Option Status :=
  let b := binaryOf plain
  firstFail (s.commonChecks b true plain ++
    [(fun _ => s.sectionsOk p b, St.HOST_SECTION), (fun _ => s.allocOk p b place, St.HOST_ALLOC)])

/-- The regions a program's fields may refer to: its own, then the weight package's. -/
def State.knownRegions (s : State) (p : Nat) (b : Binary) (place : List (Nat × Nat × Nat)) : List Region :=
  b.placedRegions place ++ (s.pasture p).weightRegions

/-- The refusal of a program binary by R310, if any. -/
def State.programRefusal (s : State) (p : Nat) (place : List (Nat × Nat × Nat)) (plain : List Byte) :
    Option Status :=
  let b := binaryOf plain
  let x := s.pasture p
  let rs := s.knownRegions p b place
  let ts (_ : Unit) := b.sections.map (·.relocated rs)
  firstFail (s.commonChecks b false plain ++
    [(fun _ => x.enable && decide (b.hdr 0x0C 1 = x.col0.toNat) && decide (b.hdr 0x0D 1 = x.width.toNat), St.HOST_GEOMETRY),
     (fun _ => decide (b.digest 0x20 = s.chartDigest (b.hdr 0x0E 1 = 0)), St.HOST_CHART),
     (fun _ => decide (b.hdr 8 1 = 1) || (decide (b.hdr 8 1 = 2) && decide (s.facts.stepping = .b0)), St.HOST_LTV_UNSUPPORTED),
     (fun _ => x.hasWeights && decide (b.digest 0x60 = x.weightDigest), St.HOST_WEIGHTS),
     (fun _ => s.sectionsOk p b, St.HOST_SECTION),
     (fun _ => s.allocOk p b place, St.HOST_ALLOC),
     (fun _ => b.sections.all (·.relocOk rs), St.HOST_RELOC),
     (fun _ => (ts ()).all (s.descsOk p (b.hdr 9 1 = 1)), St.HOST_DESC),
     (fun _ => (ts ()).all (fun t => t.slotWords.all (s.latOk t.key)), St.HOST_CHART_LATENCY),
     (fun _ => (ts ()).all (·.handlersOk rs), St.HOST_HANDLER),
     (fun _ => b.entriesOk, St.HOST_ENTRY),
     (fun _ => decide (b.folds.length ≤ (s.freeFolds p).length), St.HOST_FOLDS)])

end Sys2Proof.Machine
end

