-- ==== Sys2Proof/Machine/Loader.lean ====
section
/-!
DEFINITION. The load service: envelopes, refused and accepted loads, and the writes of an accepted load (R299 to R301, R313, R320,
R455 to R457, R464, R465).
-/
namespace Sys2Proof.Machine

/-! ## Requests -/

/-- SRC of a LOAD entry. -/
def entSrc (e : List Byte) : Nat := leAt e 16 8
/-- LEN of a LOAD entry. -/
def entLen (e : List Byte) : Nat := leAt e 24 8
/-- N_PLACE of a LOAD entry. -/
def entPlaces (e : List Byte) : Nat := leAt e 12 2

/-- The placement list of a LOAD entry (R385): region, slot and offset. -/
def State.placeList (s : State) (e : List Byte) : List (Nat × Nat × Nat) :=
  (List.range (entPlaces e)).map fun i =>
    let r := s.readHost (leAt e 32 8 + 16 * i) 16
    (leAt r 0 2, leAt r 2 1, leAt r 8 8)

/-- The envelope of R455 has a valid layout and LEN fits PLAIN_LEN. -/
def envelopeOk (env : List Byte) (len : Nat) : Bool :=
  let n := leAt env 0x90 8
  decide (leAt env 0 4 = 0x53454E56) && decide (leAt env 4 2 = 0x0100) && zeroBytes env 6 8 && zeroBytes env 0x8C 0x90
    && zeroBytes env 0x98 0x100 && decide (len = 256 + n + 16 * ceilDiv n 65536)

/-- The refusal of R301, and of R250 and R440, for a load of pasture p. -/
def State.loadBusy (s : State) (p : Nat) : Option Status :=
  let x := s.pasture p
  if !x.runs.isEmpty || x.loading.isSome || x.inTest then some St.HOST_PASTURE_BUSY
  else if x.awaitClear then some St.STACK_OWN_BUSY
  else none

/-! ## Decryption (R456) -/

/-- The content key of an envelope: Z = d × EPHEMERAL, the key-encryption key from it and RECIPIENT, and the unwrap; none where its
integrity check fails, or where EPHEMERAL is no point of the curve (assumption 86). -/
def State.contentKey (s : State) (env : List Byte) : Option (List Byte) :=
  let q := pointOf (slice env 0x28 64)
  if !onCurve q then none
  else match (sm2Mul s.facts.identityKey q).affine with
    | none => none
    | some z => keyUnwrap (sm2Kdf (pointBytes z ++ slice env 8 32) 128) (slice env 0x68 24)

/-- The IV of chunk i: IV_BASE with its last four bytes, big-endian, increased by i. -/
def chunkIv (env : List Byte) (i : Nat) : List Byte := slice env 0x80 8 ++ bytesBe 4 ((ofBytesBe (slice env 0x88 4) + i) % 2 ^ 32)

/-- The additional authenticated data of chunk i. -/
def chunkAad (env : List Byte) (i : Nat) : List Byte := slice env 0 0xA0 ++ bytesOf 4 i

/-- Decrypt chunk i, which lies at its place in the host's memory with its tag behind it; none where the tag fails. -/
def State.openChunk (s : State) (e env key : List Byte) (i : Nat) : Option (List Byte) :=
  let a := entSrc e + 256 + i * (65536 + 16)
  let m := min 65536 (leAt env 0x90 8 - 65536 * i)
  gcmOpen key (chunkIv env i) (chunkAad env i) (s.readHost a m) (s.readHost (a + m) 16)

/-- The plaintext under a content key; none where any tag fails. -/
def State.openChunks (s : State) (e env key : List Byte) : Option (List Byte) :=
  (List.range (ceilDiv (leAt env 0x90 8) 65536)).foldl (fun got i =>
    match got, s.openChunk e env key i with
    | some bs, some c => some (bs ++ c)
    | _, _ => none) (some [])

/-- The plaintext of a LOAD entry, or the first refusal of R457. -/
def State.openEnvelope (s : State) (e : List Byte) (dmaOk : Bool) : Status ⊕ List Byte :=
  let env := s.readHost (entSrc e) 256
  if !dmaOk then .inl St.HOST_DMA
  else if !envelopeOk env (entLen e) then .inl St.SEC_ENVELOPE
  else if digestOf (slice env 8 32) ≠ s.facts.identity then .inl St.SEC_RECIPIENT
  else match s.contentKey env with
    | none => .inl St.SEC_UNWRAP
    | some key => match s.openChunks e env key with
      | none => .inl St.SEC_DECRYPT
      | some plain => .inr plain

/-- The genesis of a pasture's chain (R464). -/
def State.genesis (s : State) (p : Nat) (loads : BitVec 32) (prog weights : Digest) : Digest :=
  sm3 (bytesOf 8 s.facts.serial.toNat ++ [BitVec.ofNat 8 p] ++ bytesOf 4 s.boot.bootCount.toNat ++ bytesOf 4 loads.toNat
    ++ digestBytes prog ++ digestBytes weights)

/-- The chain restarts at an accepted program load (R464, R465). -/
def State.restartChain (s : State) (p : Nat) (prog weights : Digest) : State :=
  let n := (s.pasture p).chain.loadCount + 1
  let g := s.genesis p n prog weights
  s.modPas p fun x => { x with chain := { valid := true, head := g, nextSeq := 0, loadCount := n } }

/-- The pasture holds no program. -/
def Pasture.unloaded (x : Pasture) : Pasture :=
  { x with loaded := false, program := none, progEntries := 0, progExact := false, progLtv := 0 }

/-- An accepted load stops the pasture's beats and unloads its program; a weight package also takes the place of the former
weights (R300, R301). -/
def State.acceptLoad (s : State) (p : Nat) (j : LoadJob) : State :=
  let b := binaryOf j.plain
  let s := if j.weights then s else s.restartChain p b.bodyDigest (b.digest 0x60)
  (s.endStall p).modPas p fun x =>
    let x := x.unloaded
    { x with
      beating := false, loading := some j
      hasWeights := !j.weights && x.hasWeights
      weights := if j.weights then none else x.weights }

/-- A refused load changes nothing but LAST_STATUS (R300, R320). -/
def State.refuseLoad (s : State) (id : EntryId) (p : Nat) (st : Status) : State :=
  (s.modPas p fun x => { x with loadStatus := st }).finish id 3 p st

/-- What comes of a load request: the first refusal, in order R301, R457 and R310, or the plaintext that has passed them. -/
def State.checkLoad (s : State) (e : List Byte) (weights dmaOk : Bool) : Status ⊕ List Byte :=
  let p := entPas e
  match s.loadBusy p with
  | some st => .inl st
  | none => match s.openEnvelope e dmaOk with
    | .inl st => .inl st
    | .inr plain =>
      match (if weights then s.weightsRefusal p (s.placeList e) plain else s.programRefusal p (s.placeList e) plain) with
      | some st => .inl st
      | none => .inr plain

/-- A load request is refused or accepted. -/
def State.loadRequest (s : State) (id : EntryId) (e : List Byte) (weights dmaOk : Bool) : State :=
  match s.checkLoad e weights dmaOk with
  | .inl st => (if st = St.HOST_DMA then s.noteDma id.fn.val else s).refuseLoad id (entPas e) st
  | .inr plain => s.acceptLoad (entPas e) { id := id, weights := weights, plain := plain, place := s.placeList e }

/-- LOAD_PROGRAM (R300). Entries of a reserved KIND are refused here by their form. -/
def execLoadProgram (fn : FnId) (ring : Fin 16) (dmaOk : Bool) (s : State) : Out :=
  s.onEntry fn ring (fun e => decide (entOp e = 3) && (decide (entKind e = 0) || decide (9 < entKind e))) fun s id e =>
    s.loadRequest id e false dmaOk

/-- LOAD_WEIGHTS (R300). -/
def execLoadWeights (fn : FnId) (ring : Fin 16) (dmaOk : Bool) (s : State) : Out :=
  s.onEntry fn ring (fun e => decide (entOp e = 3) && decide (entKind e = 1)) fun s id e => s.loadRequest id e true dmaOk

/-! ## Writes (R300, R313) -/

/-- Write a region with zeros (R306). -/
def State.zeroRegion (s : State) (p : Nat) (r : Region) : State :=
  if !r.zero then s
  else if r.spad then
    r.tiles.foldl (fun s k => s.mainWrite k r.hash r.base (List.replicate r.size 0)) s
  else if r.kind = 8 then s.stackWrite p r.base (List.replicate r.size 0)
  else
    r.tiles.foldl (fun s k => s.modTile k fun t =>
      (List.range r.size).foldl (fun t i => t.writeSlot (r.base + i) []) t) s

/-- Write a segment into its tile: data in the region's hash mode, descriptors into the store, and handlers. -/
def State.writeSegment (s : State) (k : Nat) (rs : List Region) (g : Segment) : State :=
  match g.type with
  | 1 => s.modTile k fun t => (List.range (g.data.length / 128)).foldl (fun t i => t.writeSlot (g.addr + i) (segWords g.data i)) t
  | 2 | 3 => s.mainWrite k ((regionNamed rs g.region).getD {}).hash g.addr g.data
  | 4 => s.modTile k fun t =>
      { t with handlers := (List.range 64).foldl (fun m i => smapPut m i ((actionsOf g.data).getD i 0)) t.handlers }
  | _ => s

/-- Write a section's segments. -/
def State.writeSection (s : State) (rs : List Region) (t : TileSection) : State :=
  t.segs.foldl (fun s g => s.writeSegment t.key rs g) s

/-- Write a tile's CONFIG: SALT, TSQ_ENTRY and fold membership, then OPEN (R114, R186, R287, R288). -/
def State.writeConfig (s : State) (t : TileSection) : State :=
  match t.config with
  | none => s
  | some c =>
    (s.modTile t.key fun x =>
      { x with
        salt := BitVec.ofNat 5 (leAt c 0 1), foldMask := cfgFolds c
        entry := (List.range 16).foldl (fun m n => smapPut m n (BitVec.ofNat 8 (cfgEntry c n))) x.entry }).writeOpen t.key (byteAt c 1)

/-- The write-protect range of a region. -/
def Region.wpRange (r : Region) : WpRange :=
  { enable := true, base := BitVec.ofNat 15 (r.base / 64), limit := BitVec.ofNat 15 ((r.base + r.size) / 64 - 1) }

/-- Write a tile's write-protect ranges, its maps and its LTV (R127, R175, R228). -/
def State.writeTileCfg (s : State) (all : List Region) (ltv k : Nat) : State :=
  s.modTile k fun t =>
    let ws := (protectsOf all k).map Region.wpRange
    s.reaches k { t with wp := (List.range 4).map fun i => ws.getD i {}, ltv := BitVec.ofNat 2 ltv }

/-- The bellwether the loader names (R294): tile (vx₀, 39), or the first tile of that row that is not quarantined. -/
def State.chooseBellwether (s : State) (p : Nat) : Nat :=
  ((s.cols p).find? fun vx => !(s.tile (tileKey vx 39)).quarantined).getD (s.pasture p).col0.toNat

/-- Map a program's folds onto free package folds, in ascending order; generations begin anew (R288; assumption 63). -/
def State.mapFolds (s : State) (p : Nat) (b : Binary) : State :=
  let free := s.freeFolds p
  let drop (x : Fold) : Fold := if x.valid && decide (x.owner.toNat = p) then { x.afterReset with valid := false } else x
  let s := { s with folds := smapMap (fun _ x => drop x) s.folds }
  let s := (s.ownTiles p).foldl (fun s k => s.modTile k fun t => { t with foldGen := [], foldPend := [] }) s
  let s := s.modPas p fun x => { x with foldMap := [] }
  (b.folds.zip free).foldl (fun s x =>
    (s.putFold x.2 { (s.foldAt x.2).afterReset with
      valid := true, owner := BitVec.ofNat 4 p, members := BitVec.ofNat 12 x.1.2 }).modPas p fun y =>
      { y with foldMap := smapPut y.foldMap x.1.1 (BitVec.ofNat 8 (128 + x.2)) }) s

/-- The writes of a weight package. -/
def State.writeWeights (s : State) (p : Nat) (b : Binary) (place : List (Nat × Nat × Nat)) : State :=
  let rs := b.placedRegions place
  let s := rs.foldl (fun s r => s.zeroRegion p r) s
  let s := b.sections.foldl (fun s t => s.writeSection rs t) s
  s.modPas p fun x => { x with hasWeights := true, weights := some (b.bodyDigest, rs) }

/-- The writes of a program binary (R313). -/
def State.writeProgram (s : State) (p : Nat) (b : Binary) (place : List (Nat × Nat × Nat)) : State :=
  let rs := b.placedRegions place
  let known := s.knownRegions p b place
  let ts := b.sections.map (·.relocated known)
  let s := ts.foldl (fun s t => s.writeConfig t) s
  let s := rs.foldl (fun s r => s.zeroRegion p r) s
  let s := ts.foldl (fun s t => s.writeSection rs t) s
  let protects := (s.pasture p).weightRegions ++ rs
  let s := (s.ownTiles p).foldl (fun s k => s.writeTileCfg protects (b.hdr 8 1) k) s
  let s := s.mapFolds p b
  let bw := s.chooseBellwether p
  let g : Program :=
    { ltv := BitVec.ofNat 2 (b.hdr 8 1), exact := b.hdr 9 1 = 1, digest := b.bodyDigest, weights := b.digest 0x60,
      entries := b.entries.map entryRecOf, wpts := b.wpts.map wptRecOf, regions := rs
      images := ts.foldl (fun m t => smapPut m t.key t.image) [] }
  s.modPas p fun x =>
    { x with
      program := some g, loaded := true, progExact := g.exact, progLtv := g.ltv, progEntries := BitVec.ofNat 5 g.entries.length
      bwVx := BitVec.ofNat 6 bw, bwVy := 39 }

/-- LOAD_COMPLETE (R300): the writes are made, the pasture beats again with its log at 0, and the request completes ST_OK. -/
def execLoadComplete (p : PasId) (s : State) : Out :=
  match (s.pasture p.val).loading with
  | none => nothing s
  | some j =>
    let b := binaryOf j.plain
    let s := if j.weights then s.writeWeights p.val b j.place else s.writeProgram p.val b j.place
    let s := s.modPas p.val fun x => { x with loading := none, loadStatus := St.OK }
    .next ((s.resumeBeats p.val).finish j.id 3 p.val St.OK)

end Sys2Proof.Machine
end

