-- ==== Sys2Proof/Machine/Security.lean ====
section
/-!
DEFINITION. Security requests: attestation, certificates, chain records, ownership, signers, debug unlock and the anti-rollback
commit (R446 to R468).
-/
namespace Sys2Proof.Machine

/-! ## Requests (R451) -/

/-- A security request's refusal by sender or form: KINDs from 5 are PF0's, and N_PLACE is 0. -/
def securityRefusal (fn : FnId) (e : List Byte) : Option Status :=
  if entPlaces e ≠ 0 then some St.HOST_ENTRY_FORMAT
  else if 5 ≤ entKind e && fn ≠ 0 then some St.HOST_NOT_PERMITTED
  else none

/-- Complete a security request, with the number of response bytes written. -/
def State.secDone (s : State) (id : EntryId) (e : List Byte) (st : Status) (n : Nat) : State :=
  s.complete id.fn.val { id.completion 3 (entPas e) st with beats := BitVec.ofNat 64 n }

/-- Write a response to the address in bytes 32 to 39 and complete the request. -/
def State.respond (s : State) (id : EntryId) (e : List Byte) (bs : List Byte) : State :=
  (s.writeHost (leAt e 32 8) bs).secDone id e St.OK bs.length

/-- The request buffer. -/
def State.requestBuffer (s : State) (e : List Byte) : List Byte := s.readHost (entSrc e) (entLen e)

/-- Handle a security request of a KIND that `mine` selects; during a restart of the shepherd it waits. -/
def State.onSecurity (s : State) (fn : FnId) (ring : Fin 16) (kind : Nat) (mine : List Byte → Bool)
    (act : State → EntryId → List Byte → State) : Out :=
  if s.restarting then nothing s
  else s.onEntry fn ring (fun e => decide (entOp e = 3) && decide (entKind e = kind) && mine e) fun s id e =>
    match securityRefusal fn e with
    | some st => s.secDone id e st 0
    | none => act s id e

/-- A message followed by the package's signature over it, under the identity key (R446, R448). -/
def State.signed (s : State) (bs : List Byte) : List Byte := bs ++ sm2Sign s.facts.identityKey (Config.nonce bs) bs

/-! ## Attestation (R460, R461) -/

/-- A flag byte. -/
def flagsOf (bs : List Bool) : Nat := (List.range bs.length).foldl (fun n i => if bs.getD i false then n + 2 ^ i else n) 0

/-- The signer list as a SIGNERS command's BODY. -/
def signerBody (keys : List (List Byte)) : List Byte := bytesOf 8 keys.length ++ keys.flatMap id

/-- SM3 of the signer list body, or zero while the list is empty. -/
def Security.signersDigest (x : Security) : Digest := if x.signers.isEmpty then 0 else sm3 (signerBody x.signers)

/-- SM3 of the owner key, or zero. -/
def Security.ownerDigest (x : Security) : Digest := match x.owner with | some k => sm3 k | none => 0

/-- A pasture record. While a load is in progress it shows LOADED 0 and zero digests. -/
def Pasture.attest (x : Pasture) : List Byte :=
  let busy := x.loading.isSome
  [BitVec.ofNat 8 (flagsOf [x.enable, x.loaded && !busy, x.hasWeights, x.stopped]), x.col0, x.width, x.progLtv.setWidth 8,
    if x.progExact then 1 else 0]
    ++ List.replicate 3 0 ++ bytesOf 8 x.chain.nextSeq.toNat
    ++ digestBytes (if busy then 0 else x.progDigest) ++ digestBytes (if busy then 0 else x.weightDigest)
    ++ digestBytes x.chain.head ++ List.replicate 16 0

/-- The fuse image, identity seed excluded (R461): the fuses that manufacture blew, then the thermometer count FW_SVN (R447). The spec gives it
no layout (assumption 132). -/
def State.fuseImage (s : State) : List Byte := s.facts.fuses ++ bytesOf 8 (2 ^ s.sec.fwSvn.toNat - 1)

/-- The report without its signature (R461). -/
def State.report (s : State) (nonce : List Byte) : List Byte :=
  let b := s.boot
  let x := s.sec
  bytesOf 4 0x41545354 ++ bytesOf 2 0x0100
    ++ bytesOf 2 (flagsOf [b.belowGrade, decide (x.scope ≠ 0), b.mgmtOnly, decide (b.slot = 2)])
    ++ bytesOf 8 s.facts.serial.toNat ++ nonce ++ bytesOf 8 s.hifTime.toNat
    ++ [s.kindCode, BitVec.ofNat 8 s.gridW, BitVec.ofNat 8 s.facts.stepping.code, b.slot.setWidth 8]
    ++ [x.fwSvn.setWidth 8, x.imageSvn.setWidth 8, 0, 0]
    ++ digestBytes x.imageDigest ++ digestBytes x.tileFwDigest ++ digestBytes x.stackDigest ++ digestBytes x.linkDigest
    ++ digestBytes (sm3 s.fuseImage) ++ digestBytes (s.chartDigest false)
    ++ digestBytes x.ownerDigest ++ digestBytes x.signersDigest ++ digestBytes x.unlockDigest ++ digestBytes x.challenge
    ++ (List.range 16).flatMap fun p => (s.pasture p).attest

/-- A request whose buffer cannot be read ends with ST_HOST_DMA before its checks (R376; assumption 128). -/
def State.bufferFailed (s : State) (id : EntryId) (e : List Byte) : State := (s.noteDma id.fn.val).secDone id e St.HOST_DMA 0

/-- The read of a request buffer whose request carries no outcome of it: it fails once where the function's next one does (R376). -/
def State.readBuffer (s : State) (id : EntryId) (e : List Byte) (act : State → List Byte → State) : State :=
  if (s.func id.fn.val).bufferFails then (s.modFn id.fn.val fun f => { f with bufferFails := false }).bufferFailed id e
  else act s (s.requestBuffer e)

/-- ATTEST (R460, R461). -/
def execAttest (fn : FnId) (ring : Fin 16) (s : State) : Out :=
  s.onSecurity fn ring 2 (fun _ => true) fun s id e =>
    s.readBuffer id e fun s c => s.respond id e (s.signed (s.report (slice c 0 32)))

/-- An element of DER: its tag, its length and its contents. -/
def der (tag : Byte) (bs : List Byte) : List Byte :=
  let n := bs.length
  tag :: ((if n < 128 then [BitVec.ofNat 8 n] else 0x82 :: bytesBe 2 n) ++ bs)

/-- SM2 with SM3 as a signature's algorithm in DER, and SM2's curve as a public key's. -/
def derSigAlg : List Byte := der 0x30 (der 0x06 [0x2A, 0x81, 0x1C, 0xCF, 0x55, 0x01, 0x83, 0x75])
/-- The algorithm of an SM2 public key in DER. -/
def derKeyAlg : List Byte :=
  der 0x30 (der 0x06 [0x2A, 0x86, 0x48, 0xCE, 0x3D, 0x02, 0x01] ++ der 0x06 [0x2A, 0x81, 0x1C, 0xCF, 0x55, 0x01, 0x82, 0x2D])

/-- SERIAL as a certificate's subject carries it: its 16 hexadecimal digits in a serialNumber attribute. -/
def derSerial (serial : Word) : List Byte :=
  let digit (i : Nat) : Byte := let d := serial.toNat / 16 ^ (15 - i) % 16; BitVec.ofNat 8 (if d < 10 then 0x30 + d else 0x37 + d)
  der 0x31 (der 0x30 (der 0x06 [0x55, 0x04, 0x05] ++ der 0x13 ((List.range 16).map digit)))

/-- The subject of a certificate of the chain: the device's carries SERIAL (R448). -/
def Facts.certSubject (f : Facts) (i : Fin 3) : List Byte :=
  der 0x30 ((Config.certName i).take 512 ++ if i = 2 then derSerial f.serial else [])

/-- The private key of a certificate's subject: the CAs' keys and the identity key. -/
def Facts.certKey (f : Facts) (i : Fin 3) : Nat :=
  match i with
  | 0 => Config.caKey 0
  | 1 => Config.caKey 1
  | 2 => f.identityKey

/-- A certificate of the chain (R448): X.509 v3 in DER with its subject's public key, signed under R446 by the root CA, or the device's by the
product CA. What the spec does not give of it is PRESUMED from X.509 (assumption 133). -/
def Facts.certificate (f : Facts) (i : Fin 3) : List Byte :=
  let issuer : Fin 3 := if i = 2 then 1 else 0
  let key := der 0x30 (derKeyAlg ++ der 0x03 (0x00 :: 0x04 :: sm2Public (f.certKey i)))
  let tbs := der 0x30 (der 0xA0 (der 0x02 [0x02]) ++ der 0x02 ((Config.certNumber i).take 20) ++ derSigAlg ++ f.certSubject issuer
    ++ der 0x30 ((Config.certValidity i).take 64) ++ f.certSubject i ++ key)
  der 0x30 (tbs ++ derSigAlg ++ der 0x03 (0x00 :: sm2Sign (f.certKey issuer) (Config.nonce tbs) tbs))

/-- The certificate chain as CERTS returns it: a count, then each certificate with its length (R448, R451). -/
def Facts.certsResponse (f : Facts) : List Byte :=
  bytesOf 2 3 ++ ([0, 1, 2] : List (Fin 3)).flatMap fun i => bytesOf 2 (f.certificate i).length ++ f.certificate i

/-- CERTS (R448, R451). -/
def execCerts (fn : FnId) (ring : Fin 16) (s : State) : Out :=
  s.onSecurity fn ring 3 (fun _ => true) fun s id e => s.respond id e s.facts.certsResponse

/-! ## Chain records (R466, R467) -/

/-- A signed chain record of a head; SEQ is all ones where the head is the genesis. -/
def State.chainRecord (s : State) (p : Nat) (seq : Option Word) (head : Digest) : List Byte :=
  s.signed (bytesOf 4 0x43484E48 ++ [BitVec.ofNat 8 p, 0] ++ bytesOf 2 s.chipId.toNat ++ bytesOf 8 s.facts.serial.toNat
    ++ bytesOf 8 (match seq with | some n => n.toNat | none => 2 ^ 64 - 1) ++ bytesOf 4 s.boot.bootCount.toNat
    ++ bytesOf 4 (s.pasture p).chain.loadCount.toNat ++ digestBytes head)

/-- What CHAIN_SIGN returns: the head's record for byte 0 = 0, the periodic record for 1 (R466). -/
def State.chainAnswer (s : State) (p sel : Nat) : Status ⊕ List Byte :=
  let c := (s.pasture p).chain
  if sel = 0 then
    if c.valid then .inr (s.chainRecord p (if c.nextSeq = 0 then none else some (c.nextSeq - 1)) c.head)
    else .inl St.SEC_NO_RECORD
  else if sel = 1 then (match c.periodic with | some r => .inr r | none => .inl St.SEC_NO_RECORD)
  else .inl St.SEC_CMD_FORMAT

/-- CHAIN_SIGN (R451, R466). -/
def execChainSign (fn : FnId) (ring : Fin 16) (s : State) : Out :=
  s.onSecurity fn ring 4 (fun _ => true) fun s id e =>
    s.readBuffer id e fun s c =>
      match s.chainAnswer (entPas e) (leAt c 0 1) with
      | .inl st => s.secDone id e st 0
      | .inr bs => s.respond id e bs

/-- PERIODIC_RECORD_SIGN (R466). -/
def execPeriodicRecordSign (p : PasId) (s : State) : Out :=
  match (s.pasture p.val).chain.signDue with
  | none => nothing s
  | some (seq, head, _) =>
    let r := s.chainRecord p.val (some seq) head
    .next (s.modPas p.val fun x => { x with chain := { x.chain with signDue := none, periodic := some r } })

/-! ## Signed commands (R452 to R454) -/

/-- OP of a signed command. -/
def cmdOp (c : List Byte) : Nat := leAt c 5 1
/-- SEQ of a signed command. -/
def cmdSeq (c : List Byte) : Nat := leAt c 0x10 8
/-- BODY_LEN of a signed command. -/
def cmdLen (c : List Byte) : Nat := leAt c 0x18 4
/-- BODY of a signed command. -/
def cmdBody (c : List Byte) : List Byte := slice c 0x20 (cmdLen c)

/-- A BODY fits its command: a key for OWNER's OP 0 and 1, a list of SIGNERS, or the fields of UNLOCK. -/
def cmdBodyOk (kind : Nat) (c : List Byte) : Bool :=
  let b := cmdBody c
  match kind with
  | 5 => decide (cmdOp c ≤ 2) && decide (b.length = if cmdOp c = 2 then 0 else 64)
  | 6 => decide (leAt b 0 1 ≤ 16) && leAt b 1 7 = 0 && decide (b.length = 8 + 64 * leAt b 0 1)
  | _ => decide (b.length = 64) && (leAt b 32 1 = 1 || leAt b 32 1 = 2) && zeroBytes b 33 64

/-- The first check of R452: layout, MAGIC, KIND, SERIAL, lengths and reserved fields. -/
def State.cmdFormOk (s : State) (kind : Nat) (c : List Byte) : Bool :=
  decide (leAt c 0 4 = 0x53434D44) && decide (leAt c 4 1 = kind) && leAt c 6 2 = 0 && leAt c 0x1C 4 = 0
    && decide (leAt c 8 8 = s.facts.serial.toNat) && decide (c.length = 0x20 + cmdLen c + 64) && cmdBodyOk kind c

/-- The key a signed command is signed under (R453): taking ownership, the new key itself; else the present owner's. -/
def State.cmdKey (s : State) (kind : Nat) (c : List Byte) : List Byte :=
  if kind = 5 && cmdOp c = 0 then cmdBody c else s.sec.owner.getD []

/-- SIGNATURE over all preceding bytes verifies. -/
def State.cmdSigned (s : State) (kind : Nat) (c : List Byte) : Bool :=
  sm2Verify (s.cmdKey kind c) (slice c 0 (0x20 + cmdLen c)) (slice c (0x20 + cmdLen c) 64)

/-- The refusal of a signed command: R452's order, with the ownership R453, R454 and R459 ask for before the signature
(assumption 64). `ownership` is the status where the owner's state does not allow it. -/
def State.cmdRefusal (s : State) (kind : Nat) (c : List Byte) (ownership : Option Status) : Option Status :=
  if !s.cmdFormOk kind c then some St.SEC_CMD_FORMAT
  else if kind ≠ 7 && decide (cmdSeq c ≠ s.sec.ownerSeq.toNat + 1) then some St.SEC_CMD_SEQ
  else match ownership with
    | some st => some st
    | none => if s.cmdSigned kind c then none else some St.SEC_CMD_SIGNATURE

/-- A present owner is needed. -/
def Security.needsOwner (x : Security) : Option Status := if x.owner.isNone then some St.SEC_NOT_OWNED else none

/-- Handle a signed command that passes its checks: the flash write fails and the former state stands, or `act` applies. -/
def State.signedCommand (s : State) (id : EntryId) (e : List Byte) (env : CommandOutcome) (ownership : Option Status)
    (act : State → List Byte → State) : State :=
  let c := s.requestBuffer e
  if !env.dmaOk then s.bufferFailed id e
  else match s.cmdRefusal (entKind e) c ownership with
    | some st => s.secDone id e st 0
    | none => if env.flashOk then (act s c).secDone id e St.OK 0 else s.secDone id e St.SEC_FLASH 0

/-- Runs under way have seen JTAG at SCOPE 2 (R463). -/
def State.noteDebug (s : State) : State :=
  if s.sec.scope ≠ 2 then s
  else (List.range 16).foldl (fun s p => s.modPas p fun x =>
    { x with runs := x.runs.map fun r => if r.stage = .recorded || s.started p r then { r with debugSeen := true } else r }) s

/-- Lock the JTAG port: UNLOCK_DIGEST is cleared and a new challenge is drawn (R459). -/
def State.lockJtag (s : State) : State :=
  let (n, s) := s.noteDebug.draw
  { s with sec := { s.sec with scope := 0, unlockDigest := 0, challenge := BitVec.ofNat 256 n } }

/-- The owner's key and OWNER_SEQ after an accepted OWNER command. -/
def State.setOwner (s : State) (c : List Byte) (key : Option (List Byte)) : State :=
  { s with sec := { s.sec with owner := key, ownerSeq := BitVec.ofNat 64 (cmdSeq c) } }

/-- OP of the signed command in an entry's request buffer. -/
def State.opIn (s : State) (e : List Byte) : Nat := cmdOp (s.requestBuffer e)

/-- OWNER_TAKE (R453). Commands with an OP of no action are refused here by their form. -/
def execOwnerTake (fn : FnId) (ring : Fin 16) (env : CommandOutcome) (s : State) : Out :=
  s.onSecurity fn ring 5 (fun e => decide (s.opIn e = 0) || decide (2 < s.opIn e)) fun s id e =>
    s.signedCommand id e env (if s.sec.owner.isSome then some St.SEC_OWNED else none) fun s c => s.setOwner c (some (cmdBody c))

/-- OWNER_CHANGE (R453). -/
def execOwnerChange (fn : FnId) (ring : Fin 16) (env : CommandOutcome) (s : State) : Out :=
  s.onSecurity fn ring 5 (fun e => decide (s.opIn e = 1)) fun s id e =>
    s.signedCommand id e env s.sec.needsOwner fun s c => s.setOwner c (some (cmdBody c))

/-- OWNER_RELEASE (R453): the signer list is emptied and JTAG is locked. -/
def execOwnerRelease (fn : FnId) (ring : Fin 16) (env : CommandOutcome) (s : State) : Out :=
  s.onSecurity fn ring 5 (fun e => decide (s.opIn e = 2)) fun s id e =>
    s.signedCommand id e env s.sec.needsOwner fun s c =>
      let s := (s.setOwner c none).lockJtag
      { s with sec := { s.sec with signers := [] } }

/-- The keys of a SIGNERS body. -/
def signerKeys (b : List Byte) : List (List Byte) := (List.range (leAt b 0 1)).map fun i => slice b (8 + 64 * i) 64

/-- SIGNERS (R454). -/
def execSigners (fn : FnId) (ring : Fin 16) (env : CommandOutcome) (s : State) : Out :=
  s.onSecurity fn ring 6 (fun _ => true) fun s id e =>
    s.signedCommand id e env s.sec.needsOwner fun s c =>
      { s with sec := { s.sec with signers := signerKeys (cmdBody c), ownerSeq := BitVec.ofNat 64 (cmdSeq c) } }

/-! ## Debug (R458, R459) -/

/-- UNLOCK (R459): the challenge is checked last. -/
def execUnlock (fn : FnId) (ring : Fin 16) (dmaOk : Bool) (s : State) : Out :=
  s.onSecurity fn ring 7 (fun _ => true) fun s id e =>
    let c := s.requestBuffer e
    if !dmaOk then s.bufferFailed id e
    else match s.cmdRefusal 7 c s.sec.needsOwner with
    | some st => s.secDone id e st 0
    | none =>
      if digestOf (cmdBody c) ≠ s.sec.challenge then s.secDone id e St.SEC_CHALLENGE 0
      else
        let s := s.noteDebug
        ({ s with sec := { s.sec with
            scope := BitVec.ofNat 2 (leAt (cmdBody c) 32 1)
            unlockDigest := sm3 c } }).secDone id e St.OK 0

/-- RELOCK (R459). -/
def execRelock (fn : FnId) (ring : Fin 16) (s : State) : Out :=
  s.onSecurity fn ring 8 (fun _ => true) fun s id e => s.lockJtag.secDone id e St.OK 0

/-- SVN_COMMIT (R450). -/
def execSvnCommit (fn : FnId) (ring : Fin 16) (flashOk : Bool) (s : State) : Out :=
  s.onSecurity fn ring 9 (fun _ => true) fun s id e =>
    if s.boot.slot = 2 then s.secDone id e St.SEC_COMMIT_SOURCE 0
    else if s.sec.imageSvn ≤ s.sec.fwSvn then s.secDone id e St.OK 0
    else if !flashOk then s.secDone id e St.SEC_FLASH 0
    else ({ s with sec := { s.sec with fwSvn := s.sec.imageSvn } }).secDone id e St.OK 0

end Sys2Proof.Machine
end

