-- ==== Sys2Proof/Machine/Boot.lean ====
section
/-!
DEFINITION. Bring-up: the steps of R404 in a flash boot and on the host-stepped path, and readiness (R404 to R422, R427 to R430).
-/
namespace Sys2Proof.Machine

/-! ## Steps -/

/-- The rails are up and no thermtrip holds them off. -/
def State.railsUp (s : State) : Bool := s.power.good && s.power.rails && !s.power.thermtrip

/-- Bring-up is at a step: the steps before it are done, it is not, and the package is not in management-only mode. -/
def State.atStep (s : State) (n : Nat) (before : List Nat) : Bool :=
  s.railsUp && !s.boot.mgmtOnly && before.all s.boot.done.contains && !s.boot.done.contains n

/-- A step of a flash boot that the shepherd runs by itself. -/
def State.flashStep (s : State) (n : Nat) (before : List Nat) : Bool := s.boot.mode = 0 && s.atStep n before

/-- The step runs, as STEP shows. -/
def State.runStep (s : State) (n : Nat) : State := { s with boot := { s.boot with step := BitVec.ofNat 8 n, state := 1 } }

/-- Steps end: done, or with the package in management-only mode failed. -/
def State.endStep (s : State) (ns : List Nat) : State :=
  if s.boot.mgmtOnly then { s with boot := { s.boot with state := 3 } }
  else { s with boot := { s.boot with state := 2, done := s.boot.done ++ ns } }

/-- A step fails and may be requested again (R422); the host interface answers configuration requests (R406). -/
def State.failStep (s : State) : State := { s with boot := { s.boot with state := 3, crs := false } }

/-- A step ends in management-only mode with a status (R404). -/
def State.stepToMgmt (s : State) (st : Status) : State := (s.bootEvent st 0).enterMgmtOnly

/-! ## Step 2: fuses and firmware (R404, R407, R449) -/

/-- The bytes of an image, which one signature covers: its header with IMAGE_SVN, then what it carries, each part behind its length. The
spec gives the image no layout (assumption 132). -/
def imageBytes (v : ImageVerdict) : List Byte :=
  v.svn.setWidth 8 :: [v.shepherdFw, v.tileFw, v.stackCode, v.linkCode].flatMap fun part => bytesOf 4 part.length ++ part

/-- An image is signed under the root key whose hash is fused: an SM2 signature over its SM3 digest (R407, R446, R447). -/
def State.imageSigned (s : State) (v : ImageVerdict) : Bool :=
  decide (sm3 v.key = s.facts.rootKeyHash) && sm2Verify v.key (digestBytes (sm3 (imageBytes v))) v.signature

/-- An image verifies: its signature, IMAGE_SVN from 0 to 64, and IMAGE_SVN at least the fused count. -/
def State.imageOk (s : State) (v : ImageVerdict) : Bool :=
  decide (v.svn ≤ 64) && decide (s.sec.fwSvn ≤ v.svn) && s.imageSigned v

/-- The image in a slot runs. -/
def State.useImage (s : State) (slot : Nat) (v : ImageVerdict) : State :=
  { s with
    boot := { s.boot with slot := BitVec.ofNat 2 slot, tileFw := v.tileFw }
    sec := { s.sec with imageSvn := v.svn, imageDigest := sm3 (imageBytes v), tileFwDigest := sm3 v.tileFw,
                        stackDigest := sm3 v.stackCode, linkDigest := sm3 v.linkCode } }

/-- The boot's mode: the override where it is not 0, else the strap; 1 is the host-stepped path, 0 and 2 name the first slot. -/
def State.bootChoice (s : State) : Nat :=
  if s.mgt.bootOverride ≠ 0 then s.mgt.bootOverride.toNat
  else match s.boot.bootMode.toNat with
    | 0 => 0
    | 2 => 2
    | _ => 1

/-- Events of the time before are raised at step 2, and the reversal latch is counted and cleared (R487, R491, R502). -/
def State.raiseReports (s : State) : State :=
  let rs := s.boot.report ++ (if s.power.latch then [St.PWR_INPUT_REVERSED] else [])
  let s := rs.foldl (fun s st => s.pkgEvent st 0) s
  { s with
    boot := { s.boot with report := [] }
    power := { s.power with reversed := if s.power.latch then satInc s.power.reversed else s.power.reversed, latch := false } }

/-- The ROM reads the override and clears it (R407). -/
def State.clearOverride (s : State) : State := { s with mgt := { s.mgt with bootOverride := 0, flOverride := 0 } }

/-- The ports that the grade leaves out are OFF (R26, R323). -/
def State.fuseOffPorts (s : State) : State :=
  (List.range 20).foldl (fun s n => if s.facts.grade.hasPort n then s else s.modPort n fun x => { x with state := .off }) s

/-- The package continues by the host-stepped path. -/
def State.hostStepped (s : State) : State := { s with boot := { s.boot with mode := 1, slot := 3 } }

/-- A flash boot with a first and another slot (R407). -/
def State.flashBoot (s : State) (a b : Nat × ImageVerdict) : State :=
  if s.imageOk a.2 then (s.useImage a.1 a.2).endStep [2]
  else
    let s := s.bootEvent St.BOOT_SLOT_BAD a.1
    if s.imageOk b.2 then (s.useImage b.1 b.2).endStep [2]
    else (s.bootEvent St.BOOT_FLASH_INVALID 0).hostStepped

/-- BOOT_SHEPHERD_VERIFY (R407): step 2 of R404, once per power good. A failure of the flash interface ends in management-only mode
(R412); MODE shows the host-stepped path where that was chosen (R422). -/
def execBootShepherdVerify (v : ShepherdVerdict) (s : State) : Out :=
  if !(s.railsUp && decide (s.boot.step = 0)) then nothing s
  else
    let choice := s.bootChoice
    let s := (s.runStep 2).clearOverride
    let s := if choice = 1 then s.hostStepped else s
    if !v.fusesOk then .next ((s.raiseReports.stepToMgmt St.BOOT_FUSE).endStep [])
    else if !v.flashOk then .next (s.raiseReports.enterMgmtOnly.endStep [])
    else
      let s := s.fuseOffPorts
      match choice with
      | 1 => .next s
      | 2 => .next (s.raiseReports.flashBoot (1, v.slotB) (0, v.slotA))
      | _ => .next (s.raiseReports.flashBoot (0, v.slotA) (1, v.slotB))

/-! ## Step 3 (R404, R406) -/

/-- BOOT_HIF_START (R406): configuration requests receive CRS until readiness in a flash boot. -/
def execBootHifStart (s : State) : Out :=
  if !(s.railsUp && decide (s.boot.step ≠ 0) && !s.boot.done.contains 3) then nothing s
  else
    let b := s.boot
    .next { s with boot := { b with
      done := b.done ++ [3], step := 3, state := 2, crs := !b.mgmtOnly && decide (b.mode = 0) } }

/-! ## Readiness (R405) -/

/-- Both halves are live once step 9 has completed. -/
def State.halvesLive (s : State) : State := { s with west := { s.west with state := .live }, east := { s.east with state := .live } }

/-- Milliseconds since power good, saturating in 20 bits. -/
def State.sinceGood (s : State) : BitVec 20 := BitVec.ofNat 20 (min (2 ^ 20 - 1) ((s.now - s.epoch) / msT))

/-- READY becomes 1 when steps 1 to 9 and 4b are done. -/
def State.tryReady (s : State) : State :=
  if s.boot.mgmtOnly || s.boot.ready || s.boot.ringFailed || !([9, 14].all s.boot.done.contains) then s
  else { s with boot := { s.boot with ready := true, everReady := true, crs := false, elapsedMs := s.sinceGood } }

/-! ## Steps 4 to 9 -/

/-- The firmware region lies in stack N0, or in S0 as its fallback, and the image is written to it (R417). -/
def State.stageFirmware (s : State) (fallback : Bool) : State :=
  ({ s with boot := { s.boot with regionS0 := fallback } }).writeRegion

/-- Step 4a (R417): stacks train, and the firmware image is staged. -/
def State.trainStacks (s : State) (v : StackVerdict) : State :=
  if !v.trained then s.stepToMgmt St.BOOT_STACK_TRAIN
  else if v.regionOk then s.stageFirmware false
  else if v.fallbackOk then (s.stageFirmware true).bootEvent St.BOOT_FW_REGION 0
  else s.stepToMgmt St.BOOT_FW_REGION

/-- Step 4b (R268): every group holds zeros with valid check bits. -/
def State.clearStacks (s : State) (ok : Bool) : State :=
  if ok then { s with stackMem := [], bursts := [] } else s.stepToMgmt St.BOOT_STACK_TRAIN

/-- The halves a wave powers: px 0 to 33 are the west half's (R20, R408). -/
def waveHalves (w : Nat) : List Half := (if w ≤ 8 then [.west] else []) ++ (if 8 ≤ w then [.east] else [])

/-- The physical columns of wave w (R408). -/
def waveColumns (w : Nat) : List Nat := (List.range 4).map (4 * w + ·)

/-- One wave of step 5 (R408, R409): its columns are powered, or off where both attempts exceed the limit. -/
def State.powerWave (s : State) (w : Nat) (v : WaveVerdict) : State :=
  let s := (waveHalves w).foldl (fun s h => s.putHalf h { s.half h with state := .poweringUp }) s
  let s := { s with boot := { s.boot with waves := w + 1 } }
  if v.firstTripped && v.secondTripped then
    ({ s with boot := { s.boot with waveBad := s.boot.waveBad ++ [w] } }).bootEvent St.BOOT_WAVE w
  else { s with boot := { s.boot with powered := s.boot.powered ||| columnMask (waveColumns w) } }

/-- After a wave the step is done if it was the last. -/
def State.endWave (s : State) : State :=
  if s.boot.waves = 17 then s.endStep [5] else { s with boot := { s.boot with state := 2 } }

/-- Step 6 (R411, R133, R222): BIST leaves scratchpads and stores zero. -/
def State.runBist (s : State) (failures : List BistFailure) : State :=
  { s with tiles := [], boot := { s.boot with failed := failures } }

/-- Step 8 (R414, R415); the maps of a pasture's load are void (R301). -/
def State.buildColumns (s : State) : State := s.formColumns

/-- Step 9 (R420, R421). -/
def State.runFirmware (s : State) (v : FirmwareVerdict) : State :=
  let s := s.fetchFirmware State.gridTiles v
  if s.boot.mgmtOnly then s else s.halvesLive

/-- BOOT_STACK_TRAIN (R417). -/
def execBootStackTrain (v : StackVerdict) (s : State) : Out :=
  if s.flashStep 4 [3] then .next (((s.runStep 4).trainStacks v).endStep [4]) else nothing s

/-- BOOT_STACK_CLEAR (R404). -/
def execBootStackClear (ok : Bool) (s : State) : Out :=
  if s.flashStep 14 [4] then .next ((((s.runStep 4).clearStacks ok).endStep [14]).tryReady) else nothing s

/-- BOOT_WAVE (R408, R409). -/
def execBootWave (wave : Fin 17) (v : WaveVerdict) (s : State) : Out :=
  if s.flashStep 5 [3] && decide (s.boot.waves = wave.val) then .next (((s.runStep 5).powerWave wave.val v).endWave) else nothing s

/-- BOOT_BIST (R411). -/
def execBootBist (failures : List BistFailure) (s : State) : Out :=
  if s.flashStep 6 [5] then .next (((s.runStep 6).runBist failures).endStep [6]) else nothing s

/-- BOOT_DEFECT_MAP (R411). -/
def execBootDefectMap (s : State) : Out :=
  if s.flashStep 7 [6] then .next (((s.runStep 7).formDefects).endStep [7]) else nothing s

/-- BOOT_COLUMN_MAP (R414). -/
def execBootColumnMap (s : State) : Out :=
  if s.flashStep 8 [7] then .next (((s.runStep 8).buildColumns).endStep [8]) else nothing s

/-- BOOT_TILE_FW (R420). -/
def execBootTileFw (v : FirmwareVerdict) (s : State) : Out :=
  if s.flashStep 9 [8, 4] then .next ((((s.runStep 9).runFirmware v).endStep [9]).tryReady) else nothing s

/-! ## The host-stepped path (R422) -/

/-- A write of BOOT_STEP_CTL with GO: ignored in a flash boot; refused in management-only mode, or where the step is out of order
or repeated; else the step runs. -/
def State.stepRequest (s : State) (n : Nat) (arg : Byte) (inOrder : Bool) (run : State → State) : Out :=
  if !(s.railsUp && s.boot.done.contains 3 && decide (s.boot.mode = 1)) then nothing s
  else
    let s := { s with boot := { s.boot with ctlStep := BitVec.ofNat 8 n, ctlArg := arg } }
    if s.boot.mgmtOnly then .next (s.bootEvent St.BOOT_MGMT_ONLY n)
    else if !inOrder then .next (s.bootEvent St.BOOT_STEP_ORDER n)
    else .next (run (s.runStep n))

/-- BOOT_STEP_REQUEST_2 (R422): slot A, slot B or a host image is verified. -/
def execBootStepRequest2 (arg : Byte) (v : ShepherdVerdict) (s : State) : Out :=
  s.stepRequest 2 arg (s.atStep 2 [3] && decide (arg < 3)) fun s =>
    let s := s.raiseReports
    let img := if arg = 0 then v.slotA else if arg = 1 then v.slotB else v.host
    if !v.fusesOk then (s.stepToMgmt St.BOOT_FUSE).endStep []
    else if s.imageOk img then (s.useImage arg.toNat img).endStep [2]
    else (s.bootEvent St.BOOT_SLOT_BAD arg.toNat).failStep

/-- BOOT_STEP_REQUEST_4 (R422): steps 4a and 4b. -/
def execBootStepRequest4 (arg : Byte) (v : StackVerdict) (clearOk : Bool) (s : State) : Out :=
  s.stepRequest 4 arg (s.atStep 4 [2, 3]) fun s =>
    let s := s.trainStacks v
    let s := if s.boot.mgmtOnly then s else s.clearStacks clearOk
    (s.endStep [4, 14]).tryReady

/-- BOOT_STEP_REQUEST_5 (R422): wave ARG. -/
def execBootStepRequest5 (arg : Byte) (v : WaveVerdict) (s : State) : Out :=
  s.stepRequest 5 arg (s.atStep 5 [2, 3] && decide (s.boot.waves = arg.toNat)) fun s => (s.powerWave arg.toNat v).endWave

/-- BOOT_STEP_REQUEST_6 (R422). -/
def execBootStepRequest6 (arg : Byte) (failures : List BistFailure) (s : State) : Out :=
  s.stepRequest 6 arg (s.atStep 6 [5]) fun s => (s.runBist failures).endStep [6]

/-- BOOT_STEP_REQUEST_7 (R422). -/
def execBootStepRequest7 (arg : Byte) (s : State) : Out :=
  s.stepRequest 7 arg (s.atStep 7 [6]) fun s => s.formDefects.endStep [7]

/-- BOOT_STEP_REQUEST_8 (R422). -/
def execBootStepRequest8 (arg : Byte) (s : State) : Out :=
  s.stepRequest 8 arg (s.atStep 8 [7]) fun s => s.buildColumns.endStep [8]

/-- BOOT_STEP_REQUEST_9 (R422). -/
def execBootStepRequest9 (arg : Byte) (v : FirmwareVerdict) (s : State) : Out :=
  s.stepRequest 9 arg (s.atStep 9 [8, 4]) fun s => ((s.runFirmware v).endStep [9]).tryReady

end Sys2Proof.Machine
end

