-- ==== Sys2Proof/Machine/Folds.lean ====
section
/-!
DEFINITION. Folds and halt notices: the FOLD descriptor, contributions combined at the bellwether, results at the members, and
the count of halted tiles (R211, R288 to R290, R295).
-/
namespace Sys2Proof.Machine

/-- The package fold that pasture-local fold i of pasture p maps to, if it is mapped and the pasture owns it (R288). -/
def State.foldOf (s : State) (p i : Nat) : Option Nat :=
  let m := smapGet 0 (s.pasture p).foldMap i
  let f := field m 5 0
  if bitAt m 7 && (s.foldAt f).valid && decide ((s.foldAt f).owner.toNat = p) then some f else none

/-- FOLD_ID of a FOLD descriptor. -/
def foldId (ws : List Word) : Nat := dField ws 1 63 58
/-- The operation of a FOLD. -/
def foldOpOf (ws : List Word) : BitVec 3 := BitVec.ofNat 3 (dField ws 1 57 55)

/-- The value a FOLD contributes: VALUE, or a counter zero-extended (R211, R289). -/
def Tile.foldValue (t : Tile) (ws : List Word) : BitVec 32 :=
  if dBit ws 1 53 then (t.ctr (dField ws 1 52 50)).setWidth 32 else BitVec.ofNat 32 (dField ws 1 31 0)

/-- A tile contributes to package fold f: its generation bit tags the contribution and toggles (R290). -/
def State.contribute (s : State) (k p f : Nat) (ws : List Word) : State :=
  let t := s.tile k
  let gen := smapGet false t.foldGen f
  let toCtr := if dBit ws 1 49 then some (dField ws 1 48 46) else none
  let s := s.modTile k fun t =>
    { t with foldGen := smapPut t.foldGen f (!gen)
             foldPend := t.foldPend ++ [{ fold := f, gen := gen, resAddr := BitVec.ofNat 16 (dField ws 2 63 48) }]
             holds := if dBit ws 1 54 then t.holds ++ [.fold f gen toCtr] else t.holds }
  s.send (.foldIn p f k gen (foldOpOf ws) (t.foldValue ws))

/-- The uncompleted contributions of a tile to a fold. -/
def Tile.pendingFolds (t : Tile) (f : Nat) : Nat := (t.foldPend.filter fun x => decide (x.fold = f)).length

/-- A FOLD at its issue beat: it contributes, or holds while two contributions of the tile are uncompleted (R290). -/
def State.enterFold (s : State) (k p f : Nat) (ws : List Word) : State :=
  if (s.tile k).pendingFolds f ≥ 2 then s.modTile k fun t => { t with holds := t.holds ++ [.foldFull f] }
  else s.contribute k p f ws

/-- The fault of a FOLD at issue (R288). -/
def State.foldFault (s : State) (k p : Nat) (ws : List Word) : Option Status :=
  if (s.foldOf p (foldId ws)).isNone then some St.CNW_FOLD_MAP
  else if !bitAt (s.tile k).foldMask (foldId ws) then some St.CNW_FOLD_MEMBER
  else none

/-- A control-network fault of tile k: CNW_ERR, then the pasture stops. -/
def State.cnwFault (s : State) (k : Nat) (st : Status) : State := (s.cnwRecord k st 0 0).stopTile k st

/-- FOLD (R211, R288, R290). -/
def execFold (vx : Vx) (vy : Vy) (s : State) : Out :=
  let k := tileKey vx vy
  s.issueDesc k (fun ws => decide (opOf ws = 0x19)) fun s ws =>
    if !(s.tile k).acts ws then .next (s.issueTile k ws id)
    else
      match s.pasOf vx.val with
      | none => nothing s
      | some p =>
        match s.foldFault k p ws, s.foldOf p (foldId ws) with
        | none, some f => .next (((s.issueTile k ws id).enterFold k p f ws).noteHolds p)
        | some st, _ => .next (s.cnwFault k st)
        | none, none => .next (s.cnwFault k St.CNW_FOLD_MAP)

/-! ## At the bellwether -/

/-- The combining operations of R289. -/
def combine (op : BitVec 3) (a b : BitVec 32) : BitVec 32 :=
  match op.toNat with
  | 0 => a + b
  | 1 => a &&& b
  | 2 => a ||| b
  | 3 => a ^^^ b
  | 4 => if a ≤ b then a else b
  | 5 => if a ≤ b then b else a
  | 6 => if a.sle b then a else b
  | _ => if a.sle b then b else a

/-- Combine a value into a partial result; none where the operations differ (R289). -/
def foldInto (op : Option (BitVec 3)) (acc : BitVec 32) (o : BitVec 3) (v : BitVec 32) : Option (BitVec 32) :=
  match op with
  | none => some v
  | some x => if x = o then some (combine o acc v) else none

/-- A fold with one more contribution: to the generation in progress, or to the next one, kept apart (R290). -/
def Fold.take (x : Fold) (gen : Bool) (o : BitVec 3) (v : BitVec 32) : Option Fold :=
  if gen = x.gen then (foldInto x.op x.acc o v).map fun a => { x with op := some o, acc := a, arrived := x.arrived + 1 }
  else (foldInto x.nextOp x.nextAcc o v).map fun a => { x with nextOp := some o, nextAcc := a, nextCount := x.nextCount + 1 }

/-- A completed generation: RESULT is recorded, GEN toggles, and the next generation's contributions are in progress. -/
def Fold.close (x : Fold) : Fold :=
  { x with result := x.acc, gen := !x.gen, arrived := x.nextCount, op := x.nextOp, acc := x.nextAcc,
           nextCount := 0, nextOp := none, nextAcc := 0 }

/-- The member tiles of package fold f in pasture p. -/
def State.members (s : State) (p f : Nat) : List Nat :=
  let ids := (List.range 64).filter fun i => decide (s.foldOf p i = some f)
  (s.tilesOf p).filter fun k => ids.any fun i => bitAt (s.tile k).foldMask i

/-- The completion of a generation: broadcast to the members in one injection, and relayed where NOTIFY is 1. -/
def State.closeFold (s : State) (p f : Nat) (x : Fold) : State :=
  let s := s.putFold f x.close
  let (ready, s) := s.inject p true 1
  let s := (s.members p f).foldl (fun s k => s.sendAt ready (.foldOut p f k x.gen x.acc)) s
  if x.notify then s.signal (s.boundFn p) 20 else s

/-- FOLD_CONTRIBUTION (R289, R290). -/
def execFoldContribution (i : Nat) (s : State) : Out :=
  match s.arrives i with
  | some (.foldIn p f _ gen o v, s') =>
    match (s'.foldAt f).take gen o v with
    | none => .next ((s'.cnwRecord (s'.bellwether p) St.CNW_FOLD_OP 0 0).stopPasture p St.CNW_FOLD_OP)
    | some x => .next (if x.members ≤ x.arrived then s'.closeFold p f x else s'.putFold f x)
  | _ => nothing s

/-! ## At a member -/

/-- Release the holds of a fold's generation; RES_CTR takes the result's low 24 bits. -/
def Tile.releaseFold (t : Tile) (f : Nat) (gen : Bool) (v : BitVec 32) (now : Nat) : Tile :=
  t.holds.foldl (fun t h =>
    match h with
    | .fold g e toCtr =>
      if g = f && e = gen then
        let t := { t with holds := t.holds.erase h, holdEnd := some now }
        match toCtr with
        | some c => t.setCtr c (v.setWidth 24)
        | none => t
      else t
    | .wait _ | .foldFull _ | .flag _ _ | .data => t) t

/-- The write of a result to RES_ADDR by the service engine; refused at any of its bytes it writes none, is recorded and raises
ST_CNW_FOLD_RESULT (R290). `wrote` bytes of it stand already, in the line before. -/
def State.writeResult (s : State) (k p f : Nat) (addr : BitVec 16) (wrote : Nat) (v : BitVec 32) : State :=
  if addr = 0xFFFF then s
  else
    match s.sideWriteWhole k .service (addr.toNat + wrote) ((bytesOf 4 v.toNat).drop wrote) (.fold f) with
    | (s, .ok _) => s
    | (s, .refused st) =>
      if st = St.SPD_ECC_UNCORR then s
      else (s.cnwRecord k st 0 0).pasEvent p St.CNW_FOLD_RESULT k

/-- A FOLD that held for an older generation contributes now; it is the descriptor issued last (R290). -/
def State.retryFold (s : State) (k p f : Nat) : State :=
  let t := s.tile k
  if t.holds.contains (.foldFull f) then
    (s.modTile k fun t => { t with holds := t.holds.erase (.foldFull f), holdEnd := some s.now }).enterFold k p f
      (t.slotWords (t.ip - 1).toNat)
  else s

/-- The bytes of a result that its next write puts into one line (R119): where they go, and how many. -/
def FoldPending.piece (x : FoldPending) : Nat × Nat :=
  let a := x.resAddr.toNat + x.wrote
  (a, min (4 - x.wrote) (64 - a % 64))

/-- The first line of a result across two lines is written; the second follows in a later beat (R119, R290). -/
def State.writeFirst (s : State) (k : Nat) (x : FoldPending) (v : BitVec 32) : State :=
  let (a, m) := x.piece
  (s.sideWrite k .service a ((bytesOf 4 v.toNat).take m) (.fold x.fold)).1.modTile k fun t =>
    { t with foldPend := t.foldPend.map fun y => if y = x then { y with wrote := m } else y }

/-- FOLD_RESULT (R290): a member receives a result. The write of RES_ADDR waits for a free line, and takes a beat for each line (R119). -/
def execFoldResult (i : Nat) (s : State) : Out :=
  match s.arrives i with
  | some (.foldOut p f k gen v, s') =>
    match (s'.tile k).foldPend.find? fun x => decide (x.fold = f) && decide (x.gen = gen) with
    | none => .next s'
    | some x =>
      let (a, m) := x.piece
      if x.resAddr ≠ 0xFFFF && s'.rangeWaits k .service a m then .next (s.noteRange k .service a m (.fold f))
      else if x.resAddr ≠ 0xFFFF && m < 4 - x.wrote && (s.barredPiece k .service a (4 - x.wrote)).isNone then
        .next (s.writeFirst k x v)
      else
        let s' := s'.modTile k fun t =>
          { t.releaseFold f gen v s.now with foldPend := t.foldPend.erase x }
        .next (((s'.writeResult k p f x.resAddr x.wrote v).retryFold k p f).noteHolds p)
  | _ => nothing s

/-! ## Halt notices -/

/-- The last halt notice is in: the completion of the run under way is recorded, and relayed (R295, R392). -/
def Pasture.recordHalt (x : Pasture) (log : Nat) : Pasture :=
  { x with haltCount := 0
           runs := x.runs.map fun r => if r.stage = .running then { r with stage := .recorded, haltRelay := log } else r }

/-- HALT_NOTICE (R295). -/
def execHaltNotice (i : Nat) (s : State) : Out :=
  match s.arrives i with
  | some (.halt p _ b, s') =>
    if !(s'.pasture p).running then .next s'
    else
      let log := s'.logOf p
      let all := (s'.tilesOf p).length
      .next (s'.modPas p fun x =>
        let x := { x with
          haltCount := x.haltCount + 1
          runs := x.runs.map fun r =>
            if r.stage = .running then { r with haltMax := some (max b (r.haltMax.getD 0)) } else r }
        if x.haltCount ≥ all then x.recordHalt log else x)
  | _ => nothing s

end Sys2Proof.Machine
end

