-- ==== Sys2Proof/Machine/RegWords.lean ====
section
/-!
DEFINITION. The words that registers read as: the pasture page (R381), PF0 BAR0 (R380) and the boot block (R427 to R429), from the
register tables of R50, R73, R74, R108, R134, R244, R269, R297, R320, R339, R342, R346, R369, R372, R374, R397, R398, R402 and
R501. A register wider than 64 bits is consecutive words, the low word first.
-/
namespace Sys2Proof.Machine

/-- A number as a 64-bit word. -/
def wordOf (n : Nat) : Word := BitVec.ofNat 64 n

/-- Word i of a wider register. -/
def wordAt {w : Nat} (x : BitVec w) (i : Nat) : Word := wordOf (x.toNat / 2 ^ (64 * i))

/-- Which register of a row of 8-byte registers an offset names. -/
def slotIn (off base n : Nat) : Option Nat :=
  if base ≤ off && decide (off < base + 8 * n) && (off - base) % 8 = 0 then some ((off - base) / 8) else none

/-! ## Configuration space (R376) -/

/-- The words of a function's configuration space that R376 fixes, at the offsets of the PCIe standard (assumption 72): vendor and device ID
at 0x00, class code at 0x08. -/
def configWord (fn : FnId) (off : Nat) : Option (BitVec 32) :=
  match off with
  | 0x00 => some (((if fn = 0 then 0x4C46 else 0x4C47 : BitVec 16) ++ Config.vendorId : BitVec (16 + 16)))
  | 0x08 => some ((0x120000 : BitVec 24) ++ (0 : BitVec 8))
  | _ => none

/-! ## Function registers (R397, R398, R402) -/

/-- HIF_SQ_DB_r. -/
def Fn.sqDb (f : Fn) (r : Nat) : Word := place (smapGet 0 f.sqHead r) 8 ||| place (smapGet 0 f.sqTail r) 0

/-- HIF_CQ_CTL. -/
def Fn.cqCtl (f : Fn) : Word := placeBit f.cqPhase 36 ||| place f.cqLog2 32 ||| place f.cqHead 16 ||| place f.cqTail 0

/-- HIF_VEC_MOD_v. -/
def Vec.modWord (v : Vec) : Word := place v.timeUs 16 ||| place v.count 0

/-- Words 0 and 1 of an MSI-X table entry. -/
def Vec.msix (v : Vec) (i : Nat) : Word := if i = 0 then v.addr else placeBit v.masked 32 ||| place v.data 0

/-- The pending-bit array. -/
def Fn.pbaWord (f : Fn) : Word :=
  (List.range 64).foldl (fun w v => w ||| placeBit (smapGet {} f.vecs v).pba v) 0

/-- Words 0 and 1 of an event-log entry (R398). An entry never written reads 0. -/
def Fn.evtWord (f : Fn) (n i : Nat) : Word :=
  match smapFind f.events n with
  | none => 0
  | some e => if i = 0 then place e.detail 32 ||| place e.pasture 16 ||| place e.status 0 else e.time

/-- The registers of a function at an offset of its page. -/
def Fn.word (f : Fn) (off : Nat) : Option Word :=
  match slotIn off 0x000 16 with
  | some r => some (smapGet 0 f.sqBase r)
  | none => match slotIn off 0x080 16 with
    | some r => some (f.sqDb r)
    | none => match slotIn off 0x200 64 with
      | some v => some (smapGet {} f.vecs v).modWord
      | none => match slotIn off 0x400 128 with
        | some i => some (f.evtWord (i / 2) (i % 2))
        | none => match slotIn off 0x800 128 with
          | some i => some ((smapGet {} f.vecs (i / 2)).msix (i % 2))
          | none =>
            if off = 0x100 then some f.cqBase
            else if off = 0x108 then some f.cqCtl
            else if off = 0xC00 then some f.pbaWord
            else if off = 0xC08 then some (place f.evtHead 0)
            else none

/-! ## Pasture registers -/

/-- HIF_PAS_GEOM_n. -/
def Pasture.geomWord (x : Pasture) : Word := place x.geomStatus 48 ||| placeBit x.enable 31 ||| place x.width 16 ||| place x.col0 0

/-- HIF_PAS_QOS_n. -/
def Pasture.qosWord (x : Pasture) : Word := place x.ringW 24 ||| place x.cnwW 16 ||| place x.svcW 8 ||| place x.pcieW 0

/-- RUNNING: from a run's first beat until its delivery. -/
def State.delivering (s : State) (p : Nat) : Bool :=
  (s.pasture p).runs.any fun r => match r.stage with
    | .running => s.started p r
    | .recorded | .held => true
    | .queued | .ingressed => false

/-- HIF_PAS_STAT; EVT_LOST is the function's. -/
def State.pasStat (s : State) (p : Nat) : Word :=
  let x := s.pasture p
  place (BitVec.ofNat 8 x.runs.length) 40 ||| place (s.func p).evtLost 32 ||| place x.rejects 16
    ||| placeBit x.stopped 2 ||| placeBit (s.delivering p) 1 ||| placeBit x.enable 0

/-- HIF_PAS_ADM. -/
def Pasture.admWord (x : Pasture) : Word := place x.marginNs 32 ||| place x.wptDegrade 28

/-- PWR_PAS_BEAT_CTL. -/
def Pasture.beatCtl (x : Pasture) : Word :=
  place x.stallLimit 48 ||| place x.paceInForce 32 ||| place x.target 16 ||| place x.paceLimit 0

/-- PWR_PAS_BEAT_STAT. IN_WATCH is shown only while the pasture beats (DESIGN CHOICE, assumption 136). -/
def State.beatStat (s : State) (p : Nat) : Word :=
  let x := s.pasture p
  place x.stallEvents 32 ||| place x.rate 20 ||| placeBit x.floorBreach 3 ||| placeBit (x.beating && inWatch (s.logOf p)) 2
    ||| placeBit (s.stalled p) 1 ||| placeBit x.beating 0

/-- PWR_PAS_STALL_TIME, the stop in progress included. -/
def State.stallWord (s : State) (p : Nat) : Word := wordOf (min (2 ^ 48 - 1) (((s.pasture p).stallPs + s.stallNow p) / nsT))

/-- CNW_PAS_CFG. -/
def Pasture.cnwCfg (x : Pasture) : Word :=
  place x.bwVx 58 ||| place x.bwVy 52 ||| place x.sendWd 32 ||| place x.reqRate 16 ||| place x.ffRate 0

/-- CNW_FOLD_MAP_n. -/
def Pasture.foldMapWord (x : Pasture) (n : Nat) : Word :=
  (List.range 8).foldl (fun w j => w ||| place (smapGet 0 x.foldMap (8 * n + j)) (8 * j)) 0

/-- HIF_PAS_LOAD. -/
def Pasture.loadWord (x : Pasture) : Word :=
  place x.loadStatus 48 ||| place x.progEntries 32 ||| placeBit x.hasWeights 4 ||| placeBit x.progExact 3 ||| place x.progLtv 1
    ||| placeBit x.loaded 0

/-- FAB_PAS_FLOCK. -/
def Pasture.flockWord (x : Pasture) : Word :=
  placeBit x.started 63 ||| place x.flockSize 48 ||| place x.selfRank 36 ||| place x.flockId 16 ||| place x.flockStatus 0

/-- FAB_PAS_CFG. -/
def Pasture.fabCfg (x : Pasture) : Word :=
  place x.creditUs 48 ||| place x.doneUs 32 ||| place x.e2eWin 20 ||| place x.trackIdleUs 4

/-- FAB_PAS_TBL. -/
def Pasture.tblWord (x : Pasture) : Word :=
  placeBit x.rankActive 62 ||| placeBit x.rankTrigEn 61 ||| place x.rankTrigFlag 53 ||| place x.droveUs 0

/-- FAB_PAS_ORD_k. -/
def Pasture.ordWord (x : Pasture) (k : Nat) : Word :=
  (ordRoles k).foldl (fun w r => w ||| place (smapGet 0 x.ordRes r) (8 * (r % 8))) 0

/-- FAB_WPT_LATE. -/
def Pasture.lateWord (x : Pasture) : Word :=
  place x.lateWpt 56 ||| place x.lateWin 50 ||| place x.lateRank 38 ||| place x.lateMissing 26

/-- Words 0 and 1 of FAB_PAS_STAT. -/
def Pasture.fabStat (x : Pasture) (i : Nat) : Word :=
  if i = 0 then place x.fabNakSent 48 ||| place x.cplLost 32 ||| place x.e2eFail 16 ||| place x.orderBreaks 0
  else place x.sendFails 48 ||| place x.lateEvents 32 ||| place x.abandoned 16 ||| place x.drovePruned 0

/-- FAB_WIN_n. -/
def Window.reg (y : Window) : BitVec 128 :=
  let o := y.opener
  BitVec.ofNat 128 (y.arrivals.toNat * 2 ^ 96 + y.pool.toNat * 2 ^ 76 + y.held.toNat * 2 ^ 56 + y.doneUnits.toNat * 2 ^ 36
    + y.state.toNat * 2 ^ 34 + (if y.landing then 2 ^ 33 else 0) + keyVx o * 2 ^ 27 + keyVy o * 2 ^ 21)

/-- Word i of a drove completion record (R369): the entry and status, then DELIVERED, PRUNED and FAILED (assumption 70). -/
def DroveRecord.word (r : DroveRecord) (i : Nat) : Word :=
  match i with
  | 0 => place r.status 16 ||| place r.entry 0
  | 1 => r.delivered
  | 2 => r.pruned
  | _ => r.failed

/-- MXU_RWT_n (R108). -/
def RwCount.reg (c : RwCount) : BitVec 128 :=
  BitVec.ofNat 128 (c.nonfinite * 2 ^ 96 + c.accSat * 2 ^ 64 + c.scaleOut * 2 ^ 32 + c.satElem)

/-- Two 32-bit table entries as one word. -/
def entryPair (m : SMap (BitVec 32)) (bad : List Nat) (i : Nat) : Word :=
  let e (n : Nat) : BitVec 32 := if bad.contains n then smapGet 0 m n &&& 0x7FFFFFFF else smapGet 0 m n
  place (e (2 * i + 1)) 32 ||| place (e (2 * i)) 0

/-- The rank table's copies: shadow, then active (R342). -/
def Pasture.rankCopy (x : Pasture) (active : Bool) : SMap (BitVec 32) := if x.rankActive == active then x.rank1 else x.rank0

/-- The registers of a pasture at an offset of its page. -/
def State.pasWord (s : State) (p off : Nat) : Option Word :=
  let x := s.pasture p
  if off < 0x1000 then
    match off with
    | 0x140 => some 0
    | 0x148 => some (s.pasStat p)
    | 0x150 => some x.admWord
    | 0x158 => some (wordOf x.anchor)
    | 0x160 => some x.qosWord
    | 0x168 => some x.geomWord
    | _ => none
  else if off < 0x1500 then
    match off with
    | 0x1000 => some x.beatCtl
    | 0x1008 => some (s.beatStat p)
    | 0x1010 => some x.log
    | 0x1018 => some (s.stallWord p)
    | 0x1040 => some (place x.spdCeThresh 16 ||| place x.tallyMode 0)
    | 0x1048 => some (placeBit x.strict 0)
    | 0x1050 => some (place x.stkCeThresh 16)
    | 0x1080 => some x.cnwCfg
    | 0x1088 => some (place x.lastFlag 0)
    | 0x1180 => some x.loadWord
    | 0x1400 => some x.flockWord
    | 0x1408 => some x.fabCfg
    | 0x1410 => some x.tblWord
    | 0x1430 => some x.lateWord
    | 0x1440 => some (x.fabStat 0)
    | 0x1448 => some (x.fabStat 1)
    | _ =>
      match slotIn off 0x10C0 8, slotIn off 0x1100 4, slotIn off 0x1120 4, slotIn off 0x1140 4, slotIn off 0x1418 3 with
      | some n, _, _, _, _ => some (x.foldMapWord n)
      | none, some n, _, _, _ => some (wordAt x.flags n)
      | none, none, some n, _, _ => some (wordAt x.flags n)
      | none, none, none, some n, _ => some (wordAt x.notify n)
      | none, none, none, none, some k => some (x.ordWord k)
      | none, none, none, none, none => none
  else
    match slotIn off 0x1500 64, slotIn off 0x1800 128, slotIn off 0x1C00 64, slotIn off 0x2000 1024, slotIn off 0x4000 512 with
    | some n, _, _, _, _ => some (smapGet 0 x.fence n)
    | none, some i, _, _, _ => some (wordAt (x.window (i / 2)).reg (i % 2))
    | none, none, some i, _, _ => some (match x.droveLog[i / 4]? with | some r => r.word (i % 4) | none => 0)
    | none, none, none, some i, _ => some (wordAt (smapGet 0 x.sends (i / 4)) (i % 4))
    | none, none, none, none, some i => some (wordAt (smapGet {} x.rwt (i / 2)).reg (i % 2))
    | none, none, none, none, none =>
      match slotIn off 0x8000 2048, slotIn off 0xC000 2048 with
      | some i, _ => some (entryPair (x.rankCopy false) x.badRanks i)
      | none, some i => some (entryPair (x.rankCopy true) x.badRanks i)
      | none, none => none

/-- A pasture page (R381): the function's registers and the pasture's; reserved offsets read 0. -/
def State.pageWord (s : State) (p off : Nat) : Word :=
  match (s.func p).word off with
  | some w => w
  | none => (s.pasWord p off).getD 0

/-! ## Package registers of PF0 BAR0 (R380) -/

/-- STK_OWN_s. -/
def State.ownWord (s : State) (st : Nat) : Word :=
  (List.range 8).foldl (fun w g =>
    let o := s.groupOwn (8 * st + g)
    w ||| placeBit o.valid (8 * g + 7) ||| placeBit o.xfer (8 * g + 6) ||| placeBit o.clearing (8 * g + 5) ||| place o.pas (8 * g)) 0

/-- STK_PORT_STAT_s. -/
def Stack.statWord (x : Stack) : Word := place x.ceCount 32 ||| place x.retries 16 ||| place x.lateRefresh 0

/-- STK_PORT_MAINT_s. -/
def State.maintWord (s : State) (st : Nat) : Word :=
  place (BitVec.ofNat 24 (s.scrubPasses st)) 40 ||| place (s.stack st).scrubCorr 0

/-- STK_ERR_s. -/
def Stack.errWord (x : Stack) : Word := place x.errStatus 48 ||| place x.errPas 44 ||| place x.errAddr 0

/-- LNK_CFG_n. -/
def Port.cfgWord (x : Port) : Word :=
  place x.laneThresh 44 ||| place x.calPas 40 ||| placeBit x.calAuto 39 ||| placeBit x.disable 1 ||| placeBit x.retrain 0

/-- LNK_STAT_n. -/
def Port.statWord (x : Port) : Word :=
  wordOf (x.state.code * 2 ^ 60) ||| place x.width 56 ||| place x.role 51 ||| place x.version 40 ||| place x.lanes 32
    ||| place x.lastStatus 16 ||| place x.polInv 8 ||| placeBit x.reversed 7

/-- LNK_PEER_n. -/
def Port.peerWord (x : Port) : Word :=
  place x.peerChip 48 ||| place x.peerPort 40 ||| place x.peerKind 32 ||| place x.peerVmin 24 ||| place x.peerVmax 16
    ||| place x.peerStep 8 ||| placeBit x.digestMatch 0

/-- LNK_FEC_n. -/
def Port.fecWord (x : Port) : Word := place x.fecCorr 32 ||| place x.fecUncorr 16 ||| place x.crcFail 0

/-- LNK_RETRY_n. -/
def Port.retryWord (x : Port) : Word :=
  place x.replays 48 ||| place x.degrades 32 ||| place x.trainFails 16 ||| place x.unroutedDrops 0

/-- FAB_PORT_n. -/
def Port.fabWord (x : Port) : Word :=
  placeBit x.dateline 63 ||| placeBit x.ordOk 62 ||| place x.hopsDrops 32 ||| place x.noRoute 16 ||| place x.routeLost 0

/-- LNK_PLAN_STAT. -/
def Links.statWord (l : Links) : Word := place l.planStatus 48 ||| place l.planState 40 ||| place l.rolesHeld 0

/-- CNW_FOLD_n. -/
def Fold.reg (f : Fold) : Word :=
  placeBit f.valid 63 ||| place f.owner 59 ||| placeBit f.notify 58 ||| placeBit f.gen 57 ||| place f.members 44
    ||| place f.arrived 32 ||| place f.result 0

/-- FAB_ROUTE_CTL. -/
def Fabric.ctlWord (f : Fabric) : Word :=
  placeBit f.routeActive 62 ||| placeBit f.routeTrigEn 61 ||| place f.routeTrigPas 57 ||| place f.routeTrigFlag 49
    ||| place f.ordHoldUs 32 ||| place f.ordDrain 16 ||| place f.routeStatus 0

/-- FAB_DROVE_d. -/
def Drove.reg (d : Drove) : Word :=
  placeBit d.valid 63 ||| placeBit d.isLocal 61 ||| place d.localPas 57 ||| place d.nMem 50 ||| place d.fwd 0

/-- Four ranks of a drove's member list. -/
def Drove.memWord (d : Drove) (i : Nat) : Word :=
  (List.range 4).foldl (fun w j => w ||| place (smapGet 0 d.members (4 * i + j)) (16 * j)) 0

/-- The routing table's copies: shadow, then active (R346). -/
def Fabric.routeCopy (f : Fabric) (active : Bool) : SMap (BitVec 32) := if f.routeActive == active then f.route1 else f.route0

/-- PWR_SXT_n (R50); before the sextant's first report both fields read 0 (assumption 106: R50's reset column says Measured). -/
def Power.sxtWord (p : Power) (n : Nat) : Word := place (smapGet 0 p.sxtTemp n) 16 ||| place (smapGet 0 p.sxtPeriod n) 0

/-- STATE of PWR_HELM_n. -/
def HalfState.code : HalfState → Nat
  | .parked => 0
  | .live => 1
  | .poweringUp => 2
  | .poweringDown => 3

/-- PWR_HELM_n (R74). -/
def HalfReg.reg (h : HalfReg) : Word := wordOf (h.state.code * 2 ^ 30) ||| place h.target 16 ||| place h.vcore 0

/-- PWR_INPUT (R501). -/
def Power.inputWord (p : Power) : Word := place p.vin 48 ||| place p.iin 32 ||| place p.pin 16

/-- The hottest of some readings, or 0 with none. -/
def hottest (ts : List (BitVec 16)) : BitVec 16 :=
  match ts with
  | [] => 0
  | t :: ts => ts.foldl (fun m x => if m.toInt < x.toInt then x else m) t

/-- The readings of sextants lo to lo + 31. -/
def Power.readings (p : Power) (lo : Nat) : List (BitVec 16) := (List.range 32).filterMap fun i => smapFind p.sxtTemp (lo + i)

/-- PWR_THERM_STAT (R501). -/
def State.thermWord (s : State) : Word :=
  let temps := (List.range 8).map fun st => (s.stack st).temp
  let hot := hottest temps
  place (hottest (s.power.readings 0)) 48 ||| place (hottest (s.power.readings 32)) 32 ||| place hot 16
    ||| place (BitVec.ofNat 3 (temps.idxOf hot)) 5 ||| placeBit ((List.range 8).any fun st => (s.stack st).overtemp) 3
    ||| placeBit ((List.range 8).any fun st => (s.stack st).hot) 2 ||| placeBit s.power.throttleE 1 ||| placeBit s.power.throttleW 0

/-- PWR_INPUT_EVENTS (R501). -/
def Power.eventsWord (p : Power) : Word :=
  place p.reversed 48 ||| place p.eFuseTrips 32 ||| place p.uvEvents 16 ||| place p.thermtrips 0

/-- The registers of port n at an offset of its block. -/
def Port.word (x : Port) (off : Nat) : Word :=
  match off with
  | 0x00 => x.cfgWord
  | 0x08 => x.statWord
  | 0x10 => x.peerWord
  | 0x18 => x.peerSerial
  | 0x20 => x.fecWord
  | 0x28 => x.retryWord
  | _ => 0

/-- The package registers from 0x010_0000 to 0x013_FFFF. -/
def State.packageLow (s : State) (off : Nat) : Word :=
  match slotIn off 0x100000 16, slotIn off 0x100080 16 with
  | some n, _ => (s.pasture n).geomWord
  | none, some n => (s.pasture n).qosWord
  | none, none =>
    if off = 0x100100 then s.hifTime
    else if off = 0x100110 then place s.quarVy 8 ||| place s.quarVx 0
    else if off = 0x100118 then place s.tileAcc 0
    else if off = 0x110000 then placeBit s.ownAuto 0
    else match slotIn off 0x110040 8 with
      | some st => s.ownWord st
      | none =>
        if 0x110100 ≤ off && off < 0x110200 then
          let st := (off - 0x110100) / 0x20
          match (off - 0x110100) % 0x20 with
          | 0x00 => (s.stack st).statWord
          | 0x08 => s.maintWord st
          | 0x10 => (s.stack st).errWord
          | _ => 0
        else if 0x120000 ≤ off && off < 0x120500 then (s.port ((off - 0x120000) / 0x40)).word ((off - 0x120000) % 0x40)
        else if off = 0x120808 then s.links.statWord
        else match slotIn off 0x120900 16, slotIn off 0x121000 48, slotIn off 0x130000 64 with
          | some m, _, _ => place (smapGet 0 s.links.lports m) 0
          | none, some i, _ => wordOf (ofBytes (memRead s.links.shadow (8 * i) 8))
          | none, none, some n => (s.foldAt n).reg
          | none, none, none => 0

/-- The package registers from 0x014_0000 on. -/
def State.packageHigh (s : State) (off : Nat) : Word :=
  if off = 0x140000 then s.fabric.ctlWord
  else if off = 0x500300 then s.power.inputWord
  else if off = 0x500308 then s.thermWord
  else if off = 0x500310 then s.power.eventsWord
  else
    match slotIn off 0x140100 18, slotIn off 0x141000 256, slotIn off 0x148000 4096, slotIn off 0x400000 32768,
      slotIn off 0x440000 32768 with
    | some n, _, _, _, _ => (s.port n).fabWord
    | none, some d, _, _, _ => (smapGet {} s.fabric.droves d).reg
    | none, none, some i, _, _ => (smapGet {} s.fabric.droves (i / 16)).memWord (i % 16)
    | none, none, none, some i, _ => entryPair (s.fabric.routeCopy false) s.fabric.badRoutes i
    | none, none, none, none, some i => entryPair (s.fabric.routeCopy true) s.fabric.badRoutes i
    | none, none, none, none, none =>
      match slotIn off 0x500000 64, slotIn off 0x500200 2, slotIn off 0x600000 32768, slotIn off 0x640000 32768 with
      | some n, _, _, _ => s.power.sxtWord n
      | none, some n, _, _ => (s.half (if n = 0 then .west else .east)).reg
      | none, none, some i, _ => wordOf (leAt (s.chartImage false) (8 * i) 8)
      | none, none, none, some i => wordOf (leAt (s.chartImage true) (8 * i) 8)
      | none, none, none, none => 0

/-- A word of PF0 BAR0 (R380). A tile window is read by TILE_WINDOW_ACCESS. -/
def State.bar0Word (s : State) (off : Nat) : Word :=
  if off < 0x100000 then s.pageWord (off / 0x10000) (off % 0x10000)
  else if off < 0x140000 then s.packageLow off
  else s.packageHigh off

/-! ## The boot block (R427 to R429) -/

/-- BOOT_STAT: ELAPSED_MS counts until READY first became 1. -/
def State.bootStat (s : State) : Word :=
  let b := s.boot
  let ms : BitVec 20 := if b.everReady then b.elapsedMs else BitVec.ofNat 20 (min (2 ^ 20 - 1) ((s.now - s.epoch) / msT))
  place b.lastStatus 48 ||| place b.step 40 ||| place b.state 38 ||| place b.mode 36 ||| place b.slot 34
    ||| placeBit b.belowGrade 33 ||| placeBit b.mgmtOnly 32 ||| placeBit b.ready 31 ||| place ms 0

/-- The boot block at an offset of PF0 BAR2. -/
def State.bootWord (s : State) (off : Nat) : Word :=
  let b := s.boot
  match off with
  | 0xF000 => s.bootStat
  | 0xF008 => place b.ctlArg 8 ||| place b.ctlStep 0
  | 0xF010 => b.imgAddr
  | 0xF018 => place b.imgLen 0
  | 0xF020 => wordAt b.retired 0
  | 0xF028 => wordAt b.retired 1
  | 0xF030 => place b.newDefects 16 ||| place (BitVec.ofNat 16 b.defects.length) 0
  | _ => 0

/-- A word of PF0 BAR2 (R427, R484). -/
def State.bar2Word (s : State) (off : Nat) : Word :=
  match off with
  | 0x0000 => placeBit s.mgt.go 0
  | 0x0008 => placeBit s.mgt.overrun 2 ||| placeBit s.mgt.mbxDone 1 ||| placeBit s.mgt.busy 0
  | _ =>
    match slotIn off 0x100 130, slotIn off 0x800 130 with
    | some i, _ => wordOf (ofBytes (memRead s.mgt.reqBuf (8 * i) 8))
    | none, some i => wordOf (ofBytes (memRead s.mgt.rspBuf (8 * i) 8))
    | none, none => s.bootWord off

end Sys2Proof.Machine
end

