-- ==== Sys2Proof/Machine/Power.lean ====
section
/-!
DEFINITION. Power: the input stage, power good and its loss, sextants, the helm and pace limits, stack temperatures, thermtrip, and
parking (R30, R50 to R56, R63, R410, R426, R486 to R491, R501).
-/
namespace Sys2Proof.Machine

/-! ## Pace limits (R54, R56, R489, R490) -/

/-- The lower of a limit and one that may be absent. -/
def lowerOf (a : BitVec 12) : Option (BitVec 12) → BitVec 12
  | some b => if b < a then b else a
  | none => a

/-- The pace limit in force: the lowest of PACE_LIMIT and the helm's limits (R56). -/
def Pasture.repace (x : Pasture) : Pasture :=
  { x with paceInForce := lowerOf (lowerOf (lowerOf x.paceLimit x.capLimit) x.heatLimit) x.stackLimit }

/-- A rate clamped to the grade floor and the ceiling. -/
def State.clampRate (s : State) (v : Nat) : BitVec 12 := BitVec.ofNat 12 (min 1800 (max s.facts.grade.floor v))

/-- A positive step, at a value the spec leaves open. -/
def State.paceStep (s : State) : Nat × State :=
  let (n, s) := s.draw
  (1 + n % 300, s)

/-- A limit one step nearer the floor than the limit in force. -/
def State.lowered (s : State) (x : Pasture) (d : Nat) : BitVec 12 := s.clampRate (x.paceInForce.toNat - d)

/-- A helm limit one step higher; it is released once it reaches PACE_LIMIT. -/
def raised (x : Pasture) (l : Option (BitVec 12)) (d : Nat) : Option (BitVec 12) :=
  match l with
  | none => none
  | some v => if x.paceLimit.toNat ≤ v.toNat + d then none else some (BitVec.ofNat 12 (v.toNat + d))

/-- Every running pasture is at its floor: its limit in force is there, or it idles (R66). -/
def State.allAtFloor (s : State) : Bool := s.runningPas.all fun p => decide (s.paceOf p = s.facts.grade.floor)

/-- Lower the power-cap limit of every running pasture by one equal step (R54). -/
def State.lowerForCap (s : State) : State :=
  let (d, s) := s.paceStep
  s.runningPas.foldl (fun s p => s.modPas p fun x => ({ x with capLimit := some (s.lowered x d) }).repace) s

/-- Raise the power-cap limits by one step (R54). -/
def State.raiseForCap (s : State) : State :=
  let (d, s) := s.paceStep
  (List.range 16).foldl (fun s p => s.modPas p fun x => ({ x with capLimit := raised x x.capLimit d }).repace) s

/-- Note a measurement of the input stage (R501). -/
def State.measureInput (s : State) (m : InputReading) : State :=
  { s with power := { s.power with vin := m.vin, iin := m.iin, pin := m.pin } }

/-- The power cap is exceeded with every running pasture at its floor: an event and ALERT cause 2, once while it lasts (R54). `atFloor`
says whether they were at the floor when the power was measured. -/
def State.capEvent (s : State) (atFloor : Bool) : State :=
  if decide (s.facts.grade.cap < s.power.pin.toNat) && atFloor then
    if s.power.capAtFloor then s
    else ((({ s with power := { s.power with capAtFloor := true } }).pkgEvent St.PWR_CAP_AT_FLOOR s.power.pin.toNat).alert 2).noteCauseAll
      St.PWR_CAP_AT_FLOOR
  else { s with power := { s.power with capAtFloor := false } }

/-- The power cap's effect of a measurement: limits fall at the cap, and rise 3 % below it. -/
def State.applyCap (s : State) : State :=
  let cap := s.facts.grade.cap
  let pin := s.power.pin.toNat
  (if cap ≤ pin then s.lowerForCap else if pin * 100 ≤ cap * 97 then s.raiseForCap else s).capEvent s.allAtFloor

/-- POWER_CAP_REACHED (R54). -/
def execPowerCapReached (m : InputReading) (s : State) : Out :=
  if s.railsUp && decide (s.facts.grade.cap ≤ m.pin.toNat) then .next ((s.measureInput m).applyCap) else nothing s

/-- PACE_LIMIT_WRITE (R56, R73): clamped, and in force at once where it is the lowest limit. -/
def execPaceLimitWrite (fn : FnId) (p : PasId) (value : BitVec 12) (s : State) : Out :=
  if s.mayWrite fn.val p.val then .next (s.modPas p.val fun x => ({ x with paceLimit := s.clampRate value.toNat }).repace)
  else nothing s

/-! ## The helm (R51, R52) -/

/-- The target a pasture asks for: TARGET while it runs, lowered to match the helm's limits of R54, R489 and R490, and the floor while it
idles. -/
def State.targetOf (s : State) (p : Nat) : Nat :=
  let x := s.pasture p
  if s.begun p then
    (if x.capLimit.isSome || x.heatLimit.isSome || x.stackLimit.isSome then min x.target.toNat x.paceInForce.toNat else x.target.toNat)
  else s.facts.grade.floor

/-- The highest target among the beating pastures of a half. -/
def State.halfTarget (s : State) (h : Half) : Nat :=
  (s.runningPas.filter (s.usesHalf · h)).foldl (fun n p => max n (s.targetOf p)) 0

/-- The sextants of a half (R50). -/
def sextantsOf : Half → List Nat
  | .west => List.range 32
  | .east => (List.range 32).map (· + 32)

/-- The replica period of sextant n at a voltage: its last report at the present voltage, else what it predicts (assumption 89). -/
def State.periodAt (s : State) (n present v : Nat) : Nat :=
  let p := smapGet 0 s.power.sxtPeriod n
  if v = present then p.toNat else Config.predict n p present v

/-- The slowest sextant of a half predicts at least a target rate at a voltage. -/
def State.fastEnough (s : State) (h : Half) (target v : Nat) : Bool :=
  (sextantsOf h).all fun n => decide (s.periodAt n (s.half h).vcore.toNat v * target ≤ 1000000)

/-- The voltage the helm chooses for a half (R51): the lowest of the rail's range that is fast enough, or its highest. -/
def State.chosenVolt (s : State) (h : Half) (target : Nat) : Nat :=
  (((List.range 301).map (550 + ·)).find? (s.fastEnough h target)).getD 850

/-- Toward a chosen voltage by at most 10 mV (R52). -/
def stepTo (v chosen : Nat) : Nat := if v ≤ chosen then min chosen (v + 10) else max chosen (v - 10)

/-- The helm's last update of a rail was less than 5 µs ago (R52). -/
def HalfReg.fresh (x : HalfReg) (now : Nat) : Bool :=
  match x.helmTime with
  | some t => decide (now < t + 5 * usT)
  | none => false

/-- Move a live rail toward the chosen voltage, every 5 µs (R51, R52, R488). -/
def State.steer (s : State) (h : Half) : State :=
  let x := s.half h
  if x.state ≠ .live || x.fresh s.now then s
  else
    let t := s.halfTarget h
    s.putHalf h { x with target := BitVec.ofNat 12 t, helmTime := some s.now,
                         vcore := BitVec.ofNat 16 (stepTo x.vcore.toNat (s.chosenVolt h t)) }

/-- HELM_UPDATE (R52, R54). -/
def execHelmUpdate (h : Half) (m : InputReading) (s : State) : Out :=
  if s.railsUp then .next (((s.measureInput m).applyCap).steer h) else nothing s

/-- FLOOR_BREACH (R53): a beating pasture measured below its grade floor. -/
def execFloorBreach (p : PasId) (rate : BitVec 12) (s : State) : Out :=
  if (s.pasture p.val).beating && decide (rate.toNat < s.facts.grade.floor) then
    let s := s.modPas p.val fun x => { x with floorBreach := true, rate := rate }
    .next (((s.pasEvent p.val St.PWR_FLOOR_BREACH rate.toNat).alert 1).noteCause p.val St.PWR_FLOOR_BREACH)
  else nothing s

/-! ## Temperatures (R50, R489, R490) -/

/-- A reading in units of 0.125 °C is above a temperature. -/
def hotter (t : BitVec 16) (deg : Int) : Bool := deg * 8 < t.toInt
/-- A reading is below a temperature. -/
def cooler (t : BitVec 16) (deg : Int) : Bool := t.toInt < deg * 8

/-- The half of a sextant. -/
def sextantHalf (n : Nat) : Half := if n < 32 then .west else .east

/-- THROTTLE of a half. -/
def Power.throttle (x : Power) : Half → Bool
  | .west => x.throttleW
  | .east => x.throttleE

/-- Set THROTTLE of a half. -/
def Power.setThrottle (x : Power) (h : Half) (on : Bool) : Power :=
  match h with
  | .west => { x with throttleW := on }
  | .east => { x with throttleE := on }

/-- Throttle a half: the limit of every running pasture with a column in it falls by one step; the first time it is an event with
ALERT cause 6. -/
def State.throttleHalf (s : State) (h : Half) : State :=
  let (d, s) := s.paceStep
  let s := (s.runningPas.filter (s.usesHalf · h)).foldl (fun s p =>
    s.modPas p fun x => ({ x with heatLimit := some (s.lowered x d) }).repace) s
  if s.power.throttle h then s
  else (({ s with power := s.power.setThrottle h true }).pkgEvent St.PWR_THERMAL_THROTTLE (if h = Half.west then 0 else 1)).alert 6

/-- Release a half's thermal limit, from every pasture that no throttled half holds. -/
def State.releaseHalf (s : State) (h : Half) : State :=
  let s := { s with power := s.power.setThrottle h false }
  let held (p : Nat) : Bool := [Half.west, .east].any fun g => s.power.throttle g && s.usesHalf p g
  (List.range 16).foldl (fun s p => if held p then s else s.modPas p fun x => ({ x with heatLimit := none }).repace) s

/-- SEXTANT_REPORT (R50, R489). -/
def execSextantReport (n : Fin 64) (period temp : BitVec 16) (s : State) : Out :=
  if !s.railsUp then nothing s
  else
    let s := { s with power := { s.power with
      sxtTemp := smapPut s.power.sxtTemp n.val temp, sxtPeriod := smapPut s.power.sxtPeriod n.val period } }
    let h := sextantHalf n.val
    let ts := (sextantsOf h).filterMap fun i => smapFind s.power.sxtTemp i
    if ts.any (hotter · 105) then .next (s.throttleHalf h)
    else if s.power.throttle h && ts.all (cooler · 102) then .next (s.releaseHalf h)
    else .next s

/-- The enabled pastures that own a group of a stack. -/
def State.ownersOf (s : State) (st : Nat) : List Nat :=
  (List.range 16).filter fun p => (s.pasture p).enable && (s.stacksOf p).contains st

/-- Throttle the running owners of a hot stack by one step (R490). -/
def State.throttleStack (s : State) (st : Nat) : State :=
  let (d, s) := s.paceStep
  ((s.ownersOf st).filter fun p => (s.pasture p).beating).foldl (fun s p =>
    s.modPas p fun x => ({ x with stackLimit := some (s.lowered x d) }).repace) s

/-- Release the limit of the owners that own no group of a hot stack. -/
def State.releaseStack (s : State) : State :=
  (List.range 16).foldl (fun s p =>
    if (s.stacksOf p).any fun st => (s.stack st).hot then s
    else s.modPas p fun x => ({ x with stackLimit := none }).repace) s

/-- STACK_TEMP_REPORT (R490). -/
def execStackTempReport (st : StackId) (temp : BitVec 16) (s : State) : Out :=
  if !s.railsUp then nothing s
  else
    let x := s.stack st.val
    let hot := hotter temp 95 || (x.hot && !cooler temp 92)
    let tooHot := hotter temp 100 || (x.overtemp && !cooler temp 95)
    let s := s.modStack st.val fun y =>
      { y with temp := temp, hot := hot, overtemp := tooHot, hotTime := if x.hot then y.hotTime else s.now }
    let s := if hot && !x.hot then (s.pkgEvent St.PWR_STACK_HOT st.val).alert 6 else s
    let s := if hotter temp 95 then s.throttleStack st.val else if x.hot && !hot then s.releaseStack else s
    .next (if hotter temp 100 then (s.ownersOf st.val).foldl (fun s p => s.stopPasture p St.PWR_STACK_OVERTEMP) s else s)

/-- Late landings of a stack in a pasture. -/
def State.lateOf (s : State) (p st : Nat) : Nat :=
  (s.tilesOf p).foldl (fun n k => n + ((s.tile k).landings.filter fun l => decide (l.stack = st) && decide (l.arrival = .late)).length) 0

/-- STACK_HOT_REFRESH (R490): every 1.5 µs a hot stack's port refreshes its groups outside the watches; the reads it delays are
late and count in LATE_REFRESH. -/
def execStackHotRefresh (st : StackId) (s : State) : Out :=
  let x := s.stack st.val
  if !(x.hot && decide (1500 * nsT ≤ s.now - x.hotTime)) then nothing s
  else
    let owners := s.ownersOf st.val
    let before := owners.foldl (fun n p => n + s.lateOf p st.val) 0
    let s := owners.foldl (fun s p => s.delayLandings p [st.val]) s
    let after := owners.foldl (fun n p => n + s.lateOf p st.val) 0
    .next (s.modStack st.val fun y => { y with hotTime := s.now, lateRefresh := satAdd y.lateRefresh (after - before) })

/-! ## Parking (R30, R410, R426) -/

/-- The keys of a half's tiles. -/
def State.halfTiles (s : State) (h : Half) : List Nat := s.gridTiles.filter fun k => decide (s.halfOf (keyVx k) = h)

/-- A park request is refused while an enabled pasture has a column in the half (R30). -/
def State.parkRefusal (s : State) (h : Half) : Option Status :=
  if (List.range 16).any fun p => (s.pasture p).enable && s.usesHalf p h then some St.PWR_HALF_IN_USE else none

/-- The park object of a half takes a value (R480). -/
def Mgt.setPark (m : Mgt) (h : Half) (v : Byte) : Mgt :=
  match h with
  | .west => { m with parkW := v }
  | .east => { m with parkE := v }

/-- A tile without power: what it held is lost; that it is quarantined (R425) and which of its links are out of use (R275) stays known until a
warm compute reset. -/
def Tile.parked (t : Tile) : Tile := { quarantined := t.quarantined, linkOut := t.linkOut }

/-- The half's core rail goes off with its scratchpads' contents (R29, R488). -/
def State.park (s : State) (h : Half) : State :=
  let ks := s.halfTiles h
  let s := { s with
    tiles := smapMap (fun k (t : Tile) => if ks.contains k then t.parked else t) s.tiles
    mgt := s.mgt.setPark h 1 }
  (s.putHalf h { s.half h with state := .parked, target := 0, vcore := 0 }).gateColumns

/-- PARK_HALF (R30). -/
def execParkHalf (h : Half) (s : State) : Out :=
  if s.boot.ready && decide ((s.half h).state = .live) && (s.parkRefusal h).isNone then .next (s.park h) else nothing s

/-- A core rail's voltage as it comes up: a value of its range that the spec leaves open (R488). -/
def State.railUp (s : State) : BitVec 16 × State := (BitVec.ofNat 16 (550 + s.draw.1 % 301), s.draw.2)

/-- The half's rail comes up, and it powers up in its waves, all its physical columns of them (R410, R488). -/
def State.unpark (s : State) (h : Half) : State :=
  let (v, s) := s.railUp
  ({ s with
    mgt := s.mgt.setPark h 0
    boot := { s.boot with powered := s.boot.powered ||| columnMask (halfColumns h) } }).putHalf h
      { s.half h with state := .poweringUp, vcore := v }

/-- UNPARK_HALF (R410). -/
def execUnparkHalf (h : Half) (s : State) : Out :=
  if s.boot.ready && decide ((s.half h).state = .parked) then .next (s.unpark h) else nothing s

/-- The virtual tile at a physical place, if the map has it. -/
def State.virtualTile (s : State) (px py : Nat) : Option Nat :=
  match (List.range s.gridW).find? fun vx => decide (s.pxOf vx = px) with
  | some vx => some (tileKey vx py)
  | none => none

/-- A tile that fails at an unpark is quarantined and recorded (R410): CAUSE 1, 2 or 4. -/
def State.quarantineUnit (s : State) (k cause : Nat) (test : BitVec 16) : State :=
  (s.resetTiles [k] (·.afterQuarantine s.now)).addDefect 1 (s.pxOf (keyVx k)) (keyVy k) cause test

/-- A unit of an unparked half fails its BIST (R410): a tile of the grid is quarantined, and one that the map leaves out recorded alone. -/
def State.unparkFail (s : State) (h : Half) (f : BistFailure) : State :=
  let px := f.px.toNat
  let cause := if f.inconclusive then 2 else 1
  if f.isPort || 40 ≤ f.py.toNat || !(halfColumns h).contains px then s
  else match s.virtualTile px f.py.toNat with
    | some k => if (s.tile k).quarantined then s else s.quarantineUnit k cause f.test
    | none => s.noteFailure false px f.py.toNat cause f.test

/-- UNPARK_DONE (R410): BIST and step 9 have run on the half's tiles; the half no longer counts as parked. A tile whose fetch fails is
reported and recorded, and the fetch is repeated (R421). The map stays, so a tile that fails BIST, or the repeat, is quarantined
(assumption 92). -/
def execUnparkDone (h : Half) (failures : List BistFailure) (v : FirmwareVerdict) (s : State) : Out :=
  if (s.half h).state ≠ .poweringUp || !s.boot.ready then nothing s
  else
    let ks := s.halfTiles h
    let s := s.writeReaches
    let s := failures.foldl (fun s f => s.unparkFail h f) s
    let (bad, s) := s.fetchPass (ks.filter fun k => !(s.tile k).quarantined) v.first
    let (bad, s) := (s.fetchFailed bad).fetchPass bad v.again
    let s := bad.foldl (fun s k => s.resetTiles [k] (·.afterQuarantine s.now)) (s.fetchFailed bad)
    let s := (s.putHalf h { s.half h with state := .live }).gateColumns
    .next ((List.range 16).foldl (fun s p => if (s.pasture p).beating then s else s.resumeBeats p) s)

/-! ## The input stage (R486, R487) -/

/-- The RWP objects' flash copies once power is lost: a value not yet persisted is there or not (R477). -/
def State.settleFlash (s : State) : Mgt × State :=
  s.mgt.dirty.foldl (fun (acc : Mgt × State) d =>
    let (n, s) := acc.2.draw
    let m := acc.1
    let m := if n % 2 = 0 then m else
      match d.1 with
      | .nodeCount => { m with flNodeCount := m.nodeCount }
      | .bootOverride => { m with flOverride := m.bootOverride }
      | .assetTag => { m with flAssetTag := m.assetTag }
      | .alertMask => { m with flAlertMask := s.rel.alertMask }
    (m, s)) (s.mgt, s)

/-- The package without power: flash, fuses, the input stage and the world outside remain. -/
def State.powerOff (s : State) : State :=
  let (m, s) := s.settleFlash
  let p := s.power
  { pending := s.pending, now := s.now, epoch := s.now, fresh := s.fresh, facts := s.facts, hostMem := s.hostMem,
    boot := { fdr := s.boot.fdr, bootCount := s.boot.bootCount, report := s.boot.report },
    sec := { fwSvn := s.sec.fwSvn, owner := s.sec.owner, ownerSeq := s.sec.ownerSeq, signers := s.sec.signers },
    rel := { alertMask := m.flAlertMask },
    mgt := { nodeCount := m.flNodeCount, bootOverride := m.flOverride, assetTag := m.flAssetTag, flNodeCount := m.flNodeCount,
             flOverride := m.flOverride, flAssetTag := m.flAssetTag, flAlertMask := m.flAlertMask },
    power := { eFuseOpen := p.eFuseOpen, overV := p.overV, trips := p.trips, stayOpen := p.stayOpen, tripTime := p.tripTime,
               lossTime := p.lossTime, latch := p.latch, reversed := p.reversed, eFuseTrips := p.eFuseTrips,
               uvEvents := satInc p.uvEvents, thermtrips := p.thermtrips } }

/-- Power good is withdrawn. -/
def State.loseGood (s : State) : State := if s.power.good then s.powerOff else s

/-- The input has been below 36 V for 1 s. -/
def State.lowSecond (s : State) : Bool :=
  match s.power.lossTime with
  | some t => decide (1000 * msT ≤ s.now - t)
  | none => false

/-- The eFuse lets current in: it is closed, opened on overvoltage that is over, or its trips are forgotten after 1 s of low input. -/
def State.mayPower (s : State) : Bool :=
  let p := s.power
  !p.good && (!p.eFuseOpen || p.overV || s.lowSecond)

/-- POWER_GOOD (R404, R407, R413, R486, R496): the rails come up, the straps are sampled and a cold bring-up begins. Behind an eFuse that
stays open the input's rise ends the time it has been low, and nothing else (R487). -/
def execPowerGood (bootMode : BitVec 2) (nodeId : BitVec 5) (s : State) : Out :=
  if s.power.good then nothing s
  else if !s.mayPower then .next { s with power := { s.power with lossTime := none } }
  else
    let trips := if s.lowSecond then 0 else s.power.trips
    let (n, s) := s.draw
    let (west, s) := s.railUp
    let (east, s) := s.railUp
    .next { s with
      epoch := s.now
      west := { s.west with vcore := west }
      east := { s.east with vcore := east }
      boot := { s.boot with bootMode := bootMode, nodeId := nodeId, bootCount := satInc s.boot.bootCount }
      sec := { s.sec with challenge := BitVec.ofNat 256 n }
      power := { s.power with good := true, rails := true, serviceRail := true, eFuseOpen := false, overV := false, stayOpen := false,
                              trips := trips, lossTime := none } }

/-- POWER_LOSS (R486). -/
def execPowerLoss (s : State) : Out :=
  let s := s.loseGood
  .next { s with power := { s.power with lossTime := some s.now } }

/-- INPUT_REVERSED (R487): the latch is written with the package off. -/
def execInputReversed (s : State) : Out :=
  if s.power.good then nothing s else .next { s with power := { s.power with latch := true } }

/-- An input event while the package runs (R487): ALERT cause 6. -/
def State.inputEvent (s : State) (st : Status) : Out :=
  if s.power.good then .next ((s.pkgEvent st s.power.vin.toNat).alert 6) else nothing s

/-- INPUT_HIGH (R487). -/
def execInputHigh (s : State) : Out := s.inputEvent St.PWR_INPUT_HIGH
/-- INPUT_LOW (R487). -/
def execInputLow (s : State) : Out := s.inputEvent St.PWR_INPUT_LOW
/-- INPUT_OVERCURRENT (R487). -/
def execInputOvercurrent (s : State) : Out := s.inputEvent St.PWR_INPUT_OVERCURRENT

/-- The eFuse or the rails open: counted in flash, reported at the next bring-up, and power good is lost. -/
def State.openFuse (s : State) : State :=
  let s := { s with
    boot := { s.boot with report := s.boot.report ++ [St.PWR_EFUSE_TRIP] }
    power := { s.power with eFuseTrips := satInc s.power.eFuseTrips, eFuseOpen := true, tripTime := s.now } }
  s.loseGood

/-- One more consecutive trip; the third stays open. Power that has held for a second, the time between retries, ends a series
(assumption 125). -/
def State.trip (s : State) : Out :=
  if !s.power.good then nothing s
  else
    let n := (if s.epoch + 1000 * msT ≤ s.now then 0 else s.power.trips) + 1
    .next (({ s with power := { s.power with trips := n, stayOpen := decide (3 ≤ n) } }).openFuse)

/-- INPUT_OVERVOLTAGE (R487): the eFuse opens; power good returns with the input. -/
def execInputOvervoltage (s : State) : Out :=
  if !s.power.good then nothing s else .next (({ s with power := { s.power with overV := true } }).openFuse)

/-- EFUSE_TRIP (R487). -/
def execEfuseTrip (s : State) : Out := s.trip
/-- RAIL_OUT_OF_REGULATION (R487): every rail is switched off, as for an eFuse trip. -/
def execRailOutOfRegulation (s : State) : Out := s.trip

/-- EFUSE_RETRY (R487): an open eFuse closes again after 1 s, unless it stays open. -/
def execEfuseRetry (s : State) : Out :=
  let p := s.power
  if p.eFuseOpen && !p.overV && !p.stayOpen && decide (1000 * msT ≤ s.now - p.tripTime) then
    .next { s with power := { p with eFuseOpen := false } }
  else nothing s

/-! ## Thermtrip (R491) -/

/-- Every rail but the service rail is off: the compute part, the stacks, the links and the host interface lose their state. -/
def State.dropRails (s : State) : State :=
  { s with
    tiles := [], pas := [], fns := [], stks := [], folds := [], ports := [], net := [], links := {}, fabric := {}, west := {}, east := {},
    ownAuto := true, stackMem := [], bursts := [], cmds := [], xfers := [], quarVx := 0, quarVy := 0, tileAcc := 0, tileData := 0,
    runCount := 0 }

/-- THERMTRIP (R491): recorded in flash and reported at the next bring-up; THERMTRIP_N stays asserted until power good is lost. -/
def execThermtrip (s : State) : Out :=
  if !s.railsUp then nothing s
  else
    let s := s.dropRails
    .next { s with
      boot := { s.boot with report := s.boot.report ++ [St.PWR_THERMTRIP], ready := false, everReady := false, gridW := 0, colMap := [],
                              powered := 0, region := [],
                              downSince := some (s.boot.downSince.getD s.now) }
      power := { s.power with rails := false, thermtrip := true, thermtrips := satInc s.power.thermtrips, throttleW := false,
                              throttleE := false, capAtFloor := false } }

end Sys2Proof.Machine
end

