-- ==== Sys2Proof/Machine/Reliability.lean ====
section
/-!
DEFINITION. Reliability: the shepherd's watchdog, ring failures, self-tests and ALERT_N (R435, R438 to R444).
-/
namespace Sys2Proof.Machine

/-! ## Shepherd and ring (R435, R469) -/

/-- The management port and the mailbox answer from bring-up step 3 until power is lost (R469). -/
def State.mgtUp (s : State) : Bool := s.power.serviceRail && s.boot.done.contains 3

/-- A load that the shepherd's restart ends: its pasture beats again, unloaded. -/
def State.dropLoad (s : State) (p : Nat) : State :=
  if (s.pasture p).loading.isSome then (s.abortLoad p true).resumeBeats p else s

/-- SHEPHERD_WATCHDOG (R435): the firmware is restarted, in at most 50 ms; loads in progress end. -/
def execShepherdWatchdog (s : State) : Out :=
  if s.mgtUp then
    let (n, s) := s.draw
    let s := { s with rel := { s.rel with restartEnd := s.now + n % (50 * msT + 1) } }
    .next ((List.range 16).foldl (fun s p => s.dropLoad p) ((s.alert 9).pkgEvent St.BOOT_SHEPHERD_RESTART 0))
  else nothing s

/-- RING_CRC_FAIL (R435): a resend is counted; after the third, every running pasture stops and READY is 0 until a cold reset. A ring
that fails in bring-up puts the package in management-only mode (R412, assumption 95). -/
def execRingCrcFail (resend : Fin 4) (s : State) : Out :=
  if !s.railsUp || s.boot.ringFailed then nothing s
  else if resend.val < 3 then .next { s with rel := { s.rel with ringResends := satInc s.rel.ringResends } }
  else
    let s := (s.alert 5).stopAll St.CNW_RING_FAIL
    let s := if s.boot.everReady then s else s.enterMgmtOnly
    .next { s with boot := { s.boot with
      ringFailed := true, ready := false, downSince := some (s.boot.downSince.getD s.now) } }

/-! ## Self-tests (R438 to R441) -/

/-- The pastures a test concerns. -/
def State.testPastures (s : State) (t : SelfTest) : List Nat := (List.range 16).filter fun p => s.testOn p t

/-- A pasture is idle: no run is queued or in progress, and no load is. -/
def Pasture.idle (x : Pasture) : Bool := x.loading.isNone && x.runs.all fun r => decide (r.stage = .held)

/-- Every pasture that a test needs idle is. -/
def State.testIdle (s : State) (t : SelfTest) : Bool := (s.testPastures t).all fun p => (s.pasture p).idle

/-- The contents of a tile's accumulators after a test: free values. -/
def lostAcc (draw k : Nat) : SMap (BitVec 96) :=
  (List.range 65536).map fun i =>
    (i, BitVec.ofNat 96 (ofBytes ((List.range 12).map fun j => Config.undefinedByte draw ((k * 65536 + i) * 12 + j))))

/-- The contents of a tile's element registers after a test: free values of four bits in a main cell and eight in a stray one. -/
def lostCells (draw k part : Nat) : SMap Byte :=
  (List.range 18432).map fun i =>
    let v := Config.undefinedByte draw (2 ^ 32 * part + k * 18432 + i)
    (i, if i / 64 % 72 < 64 then v &&& 0x0F else v)

/-- Matrix-unit and vector-unit state of a tile is lost. -/
def Tile.loseUnits (t : Tile) (n k : Nat) : Tile :=
  { t with acc := lostAcc n k, cellActive := lostCells n k 1, cellShadow := lostCells n k 2, shadows := smapDrop (smapDrop t.shadows 0) 1, mxJobs := [], vxJobs := [] }

/-- A pasture is in test: its beats pause, and its tiles lose matrix and vector state. -/
def State.pause (s : State) (p : Nat) : State :=
  let (n, s) := s.draw
  let s := (s.ownTiles p).foldl (fun s k => s.modTile k fun t => t.loseUnits n k) s
  (s.endStall p).modPas p fun x => { x with beating := false, inTest := true }

/-- A test begins to run. -/
def State.startTest (s : State) (t : SelfTest) : State :=
  let marks := if t.kind = .stackScrub then (List.range 8).map fun g => smapGet 0 (s.stack t.target.toNat).scrubPos g else []
  let t := { t with running := true, since := s.now, marks := marks }
  let s := ({ s with rel := { s.rel with tests := s.rel.tests ++ [t] } }).noteTest t 2
  (s.testPastures t).foldl (fun s p => s.pause p) s

/-- A request with a KIND and TARGET is pending or running. -/
def State.testUnderWay (s : State) (kind : SelfTestKind) (target : Byte) : Option SelfTest :=
  s.rel.tests.find? fun t => decide (t.kind = kind) && decide (t.target = target)

/-- A self-test request (R439): it starts, is deferred, or completes with ST_BOOT_SELFTEST_BUSY. -/
def State.requestTest (s : State) (kind : SelfTestKind) (target : Byte) (nowait : Bool) : State :=
  let t : SelfTest := { kind := kind, target := target, since := s.now, seq := s.rel.testSeq }
  let s := { s with rel := { s.rel with
    testSeq := s.rel.testSeq + 1, testLast := smapPut s.rel.testLast (testKindNum kind) s.rel.testSeq } }
  if (s.testUnderWay kind target).isSome then s.endTest t St.BOOT_SELFTEST_BUSY
  else if s.testIdle t then s.startTest t
  else if nowait then s.endTest t St.BOOT_SELFTEST_BUSY
  else ({ s with rel := { s.rel with tests := s.rel.tests ++ [t] } }).noteTest t 1

/-- SELFTEST_TILE_BIST (R438). -/
def execSelftestTileBist (p : PasId) (nowait : Bool) (s : State) : Out :=
  if s.mgtUp then .next (s.requestTest .tileBist (BitVec.ofNat 8 p.val) nowait) else nothing s

/-- SELFTEST_SEXTANT (R438): TARGET 0 is the west half, 1 the east half. -/
def execSelftestSextant (h : Half) (nowait : Bool) (s : State) : Out :=
  if s.mgtUp then .next (s.requestTest .sextant (if h = Half.west then 0 else 1) nowait) else nothing s

/-- SELFTEST_STACK_SCRUB (R438). -/
def execSelftestStackScrub (st : StackId) (s : State) : Out :=
  if s.mgtUp then .next (s.requestTest .stackScrub (BitVec.ofNat 8 st.val) false) else nothing s

/-- SELFTEST_EYE_SCAN (R438). -/
def execSelftestEyeScan (n : PortId) (s : State) : Out :=
  if s.mgtUp then .next (s.requestTest .eyeScan (BitVec.ofNat 8 n.val) false) else nothing s

/-- SELFTEST_SLOT_CHECK (R438): it has no TARGET. -/
def execSelftestSlotCheck (s : State) : Out :=
  if s.mgtUp then .next (s.requestTest .slotCheck 0 false) else nothing s

/-- SELFTEST_START (R439): a deferred request starts once every pasture it needs is idle, within 1,000 ms. -/
def execSelftestStart (kind : SelfTestKind) (target : Byte) (s : State) : Out :=
  match s.testUnderWay kind target with
  | none => nothing s
  | some t =>
    if t.running || !s.testIdle t || decide (t.since + 1000 * msT < s.now) then nothing s
    else .next (({ s with rel := { s.rel with tests := s.rel.tests.erase t } }).startTest t)

/-- SELFTEST_DEFER_TIMEOUT (R439): after 1,000 ms. -/
def execSelftestDeferTimeout (kind : SelfTestKind) (target : Byte) (s : State) : Out :=
  match s.testUnderWay kind target with
  | none => nothing s
  | some t =>
    if t.running || s.now < t.since + 1000 * msT then nothing s else .next (s.endTest t St.BOOT_SELFTEST_BUSY)

/-- A stack scrub has made a whole pass over every group since it began. -/
def State.scrubbed (s : State) (t : SelfTest) : Bool :=
  t.kind ≠ .stackScrub || (List.range 8).all fun g =>
    decide (t.marks.getD g 0 + s.scrubVisits (8 * t.target.toNat + g) ≤ smapGet 0 (s.stack t.target.toNat).scrubPos g)

/-- A failing tile is quarantined and recorded with CAUSE 1; the event names it (R441). -/
def State.failTile (s : State) (k : Nat) : State := (s.quarantine k 1).pkgEvent St.BOOT_SELFTEST_FAIL k

/-- The failing tiles among a test's. -/
def failing (v : List (Vx × Vy)) (ks : List Nat) : List Nat := (v.map fun t => tileKey t.1 t.2).filter ks.contains

/-- The failing tiles that a tile BIST finds: tiles of its pasture not quarantined before. -/
def State.testFailing (s : State) (t : SelfTest) (v : SelfTestVerdict) : List Nat :=
  if t.kind = .tileBist then (failing v.failing (s.ownTiles t.target.toNat)).filter fun k => !(s.tile k).quarantined else []

/-- SELFTEST_DONE (R441). -/
def execSelftestDone (kind : SelfTestKind) (target : Byte) (v : SelfTestVerdict) (s : State) : Out :=
  match s.testUnderWay kind target with
  | none => nothing s
  | some t =>
    if !t.running || !s.scrubbed t then nothing s
    else
      let bad := s.testFailing t v
      let ok := bad.isEmpty && (v.ok || !(t.kind = .sextant || t.kind = .slotCheck))
      let ps := s.testPastures t
      let s := (bad.foldl (fun s k => s.failTile k) s).endTest t (if ok then St.OK else St.BOOT_SELFTEST_FAIL)
      .next ((ps.foldl (fun s p => s.leaveTest p) s).startAwaiting)

/-! ## ALERT_N (R442, R443) -/

/-- The current trip level of a grade in units of 10 mA (R487). -/
def Grade.trip : Grade → Nat
  | .ltf64x => 11000
  | .ltf64 => 9400
  | .ltf56 => 8300

/-- The input's last measurement is a fault of R487. -/
def State.inputFault (s : State) : Bool :=
  let p := s.power
  p.vin ≠ 0 && (decide (60000 < p.vin.toNat) || decide (p.vin.toNat < 41000) || decide (95 * s.facts.grade.trip < 100 * p.iin.toNat))

/-- Whether the condition of an ALERT cause holds; causes 3, 8 and 9 are moments. -/
def State.alertHolds (s : State) : Nat → Bool
  | 0 => (List.range 16).any fun p => (s.pasture p).stopped && (s.pasture p).faultStop
  | 1 => s.runningPas.any fun p => (s.pasture p).floorBreach && decide ((s.pasture p).rate.toNat < s.facts.grade.floor)
  | 2 => s.power.capAtFloor
  | 4 => s.links.planState = 3 || s.links.rolesLost ≠ 0
  | 5 => s.boot.ringFailed || s.tiles.any fun kt => !kt.2.linkOut.isEmpty
  | 6 => s.power.throttleW || s.power.throttleE || (List.range 8).any (fun st => (s.stack st).hot) || s.inputFault
  | 7 => s.boot.mgmtOnly
  | _ => false

/-- The causes whose conditions hold, as a mask. -/
def State.alertsHeld (s : State) : BitVec 10 :=
  (List.range 10).foldl (fun m i => if s.alertHolds i then m ||| BitVec.twoPow 10 i else m) 0

/-- Writing 1 to a cause bit clears it, unless its condition still holds (R443). -/
def State.clearAlerts (s : State) (value : BitVec 10) : State :=
  { s with rel := { s.rel with alert := (s.rel.alert &&& ~~~value) ||| (value &&& s.alertsHeld) } }

/-- ALERT_CLEAR (R443). -/
def execAlertClear (value : BitVec 32) (s : State) : Out :=
  if s.mgtUp then .next (s.clearAlerts (value.setWidth 10)) else nothing s

/-- ALERT_N is asserted: step 2 has ended (with its completion or in management-only mode), and an unmasked cause is pending (R442). -/
def State.alertAsserted (s : State) : Bool := (s.boot.done.contains 2 || s.boot.mgmtOnly) && decide (s.rel.alert &&& ~~~s.rel.alertMask ≠ 0)

/-! ## Availability (R444) -/

/-- Unplanned unavailable time in ms: what has ended, the time READY has been 0 without the host's asking, and the stops that still last
(assumption 122). -/
def State.unavailMs (s : State) : Nat :=
  let down := match s.boot.downSince with
    | some t => (s.now - t) / nsT
    | none => 0
  ((List.range 16).foldl (fun n p => n + s.outageNs p) (s.rel.unavailNs + down)) / 1000000

end Sys2Proof.Machine
end

