-- ==== Sys2Proof/Machine/Management.lean ====
section
/-!
DEFINITION. The management dictionary: its queue, objects, refused accesses, journal, flash writes, line faults and mailbox (R469 to
R484).
-/
namespace Sys2Proof.Machine

/-! ## Objects (R475, R476, R480) -/

/-- The access attributes of R476. -/
inductive ObjAccess where
  | const | ro | rw | wo | rwp
deriving DecidableEq, Repr

/-- An object: its TYPE, access and present value. -/
structure Obj where
  type   : Nat
  access : ObjAccess
  value  : List Byte
deriving DecidableEq, Repr

/-- The size of a scalar TYPE; STRING and DOMAIN have none (R475). -/
def scalarSize : Nat → Option Nat
  | 1 => some 1
  | 2 => some 2
  | 3 => some 4
  | 4 => some 8
  | 5 => some 4
  | 6 => some 4
  | _ => none

/-- A scalar object. -/
def scalarObj (type : Nat) (a : ObjAccess) (v : Nat) : Option Obj := some ⟨type, a, bytesOf ((scalarSize type).getD 0) v⟩

/-- A register presented as an object. -/
def regObj (w : Word) : Option Obj := scalarObj 4 .ro w.toNat

/-- A flag as a number. -/
def bitNat (b : Bool) : Nat := if b then 1 else 0

/-- A journal entry's 32 bytes (R481). -/
def Journal.bytes (j : Journal) : List Byte :=
  bytesOf 2 j.index.toNat ++ [j.sub, if j.mailbox then 1 else 0, j.type, 0, 0, 0] ++ bytesOf 8 j.time.toNat
    ++ bytesOf 8 j.old.toNat ++ bytesOf 8 j.new.toNat

/-- Identity and settings: indices 0x1000 to 0x2020. -/
def State.identityObj (s : State) (index sub : Nat) : Option Obj :=
  let m := s.mgt
  match index, sub with
  | 0x1000, 1 => scalarObj 2 .const Config.vendorId.toNat
  | 0x1000, 2 => scalarObj 2 .const 0x4C46
  | 0x1000, 3 => scalarObj 4 .const s.facts.serial.toNat
  | 0x1000, 4 => scalarObj 1 .const s.kindCode.toNat
  | 0x1000, 5 => scalarObj 1 .const s.facts.stepping.code
  | 0x1000, 6 => scalarObj 1 .ro s.gridW
  | 0x1000, 7 => scalarObj 1 .ro (bitNat s.boot.belowGrade)
  | 0x1000, 8 => scalarObj 1 .ro (bitNat s.boot.mgmtOnly)
  | 0x1001, 1 => some ⟨7, .ro, Config.firmwareVersion⟩
  | 0x1010, 1 => scalarObj 1 .ro s.boot.nodeId.toNat
  | 0x1010, 2 => scalarObj 1 .rwp m.nodeCount.toNat
  | 0x1020, 6 => scalarObj 3 .ro m.dropped.toNat
  | 0x1020, n => if 1 ≤ n && n ≤ 5 then scalarObj 3 .ro (smapGet 0 m.viol n).toNat else none
  | 0x1030, 1 => scalarObj 1 .ro m.line.toNat
  | 0x1030, 2 => scalarObj 2 .ro m.shorts.toNat
  | 0x1030, 3 => scalarObj 2 .ro m.opens.toNat
  | 0x1030, 4 => scalarObj 2 .ro m.reverses.toNat
  | 0x1F00, 1 => scalarObj 3 .ro m.journalCount.toNat
  | 0x1F10, 0 => some ⟨8, .ro, m.journal.flatMap Journal.bytes⟩
  | 0x2010, 1 => scalarObj 1 .rwp m.bootOverride.toNat
  | 0x2020, 1 => some ⟨7, .rwp, m.assetTag⟩
  | _, _ => none

/-- The counters of R434 that R480 gives no index in the reliability range (R437): by port, stack port, pasture and tile, at indices that are
the model's (assumption 134). -/
def State.counterObj (s : State) (index sub : Nat) : Option Obj :=
  if 0x7C00 ≤ index && index < 0x7C14 then
    let x := s.port (index - 0x7C00)
    match sub with
    | 1 => scalarObj 3 .ro x.fecCorr.toNat
    | 2 => scalarObj 2 .ro x.fecUncorr.toNat
    | 3 => scalarObj 2 .ro x.crcFail.toNat
    | 4 => scalarObj 2 .ro x.replays.toNat
    | 5 => scalarObj 2 .ro x.degrades.toNat
    | 6 => scalarObj 2 .ro x.trainFails.toNat
    | 7 => scalarObj 2 .ro x.unroutedDrops.toNat
    | 8 => if index < 0x7C12 then scalarObj 2 .ro x.noRoute.toNat else none
    | _ => none
  else if 0x7D00 ≤ index && index < 0x7D08 then
    let x := s.stack (index - 0x7D00)
    match sub with
    | 1 => scalarObj 3 .ro x.ceCount.toNat
    | 2 => scalarObj 2 .ro x.retries.toNat
    | _ => none
  else if 0x7E00 ≤ index && index < 0x7E10 && sub = 1 then scalarObj 2 .ro (s.pasture (index - 0x7E00)).e2eFail.toNat
  else if 0x7100 ≤ index && index < 0x7100 + 40 * s.gridW && sub = 2 then
    let t := index - 0x7100
    scalarObj 2 .ro (s.tile (tileKey (t % s.gridW) (t / s.gridW))).flitResends.toNat
  else none

/-- Power, reliability, security and diagnostics: indices 0x6000 to 0x9015, but for the tiles' counts. -/
def State.packageObj (s : State) (index sub : Nat) : Option Obj :=
  match index, sub with
  | 0x6000, 1 => scalarObj 3 .ro s.power.vin.toNat
  | 0x6000, 2 => scalarObj 3 .ro s.power.pin.toNat
  | 0x6000, 3 => scalarObj 5 .ro ((hottest (s.power.readings 0 ++ s.power.readings 32)).signExtend 32).toNat
  | 0x6001, 1 => scalarObj 3 .ro s.west.reg.toNat
  | 0x6002, 1 => scalarObj 3 .ro s.east.reg.toNat
  | 0x6010, 1 => scalarObj 1 .rw s.mgt.parkW.toNat
  | 0x6010, 2 => scalarObj 1 .rw s.mgt.parkE.toNat
  | 0x7000, 1 => scalarObj 3 .rw s.rel.alert.toNat
  | 0x7000, 2 => scalarObj 3 .rwp s.rel.alertMask.toNat
  | 0x7010, 1 => scalarObj 4 .ro (min (2 ^ 64 - 1) s.unavailMs)
  | 0x7020, 1 => scalarObj 3 .ro s.rel.ringResends.toNat
  | 0x8000, 1 => scalarObj 1 .ro (bitNat s.sec.owner.isSome)
  | 0x8000, 2 => scalarObj 4 .ro s.sec.ownerSeq.toNat
  | 0x8000, 3 => scalarObj 1 .ro s.sec.fwSvn.toNat
  | 0x8000, 4 => scalarObj 1 .ro s.sec.imageSvn.toNat
  | 0x8000, 5 => scalarObj 1 .ro s.sec.scope.toNat
  | 0x8001, 1 => some ⟨8, .ro, digestBytes s.sec.ownerDigest⟩
  | 0x8001, 2 => some ⟨8, .ro, digestBytes s.sec.signersDigest⟩
  | 0x8001, 3 => some ⟨8, .ro, digestBytes s.sec.unlockDigest⟩
  | 0x8001, 4 => some ⟨8, .ro, digestBytes (s.chartDigest false)⟩
  | 0x9000, 1 => scalarObj 3 .wo 0
  | _, _ =>
    if 0x9011 ≤ index && index ≤ 0x9015 then
      let k := index - 0x9010
      match sub with
      | 1 => scalarObj 1 .ro (smapGet 0 s.rel.testState k).toNat
      | 2 => scalarObj 2 .ro (smapGet 0 s.rel.testStatus k).toNat
      | 3 => scalarObj 4 .ro (smapGet 0 s.rel.testTime k).toNat
      | _ => none
    else none

/-- The objects of one unit: pasture, port, stack port, or tile. -/
def State.unitObj (s : State) (index sub : Nat) : Option Obj :=
  if 0x3000 ≤ index && index < 0x3010 then
    let n := index - 0x3000
    let x := s.pasture n
    match sub with
    | 1 => regObj x.geomWord
    | 2 => regObj (s.pasStat n)
    | 3 => regObj (s.beatStat n)
    | 4 => regObj (s.stallWord n)
    | 5 => regObj x.loadWord
    | 6 => regObj (x.fabStat 0)
    | _ => none
  else if 0x4000 ≤ index && index < 0x4014 then
    let x := s.port (index - 0x4000)
    match sub with
    | 1 => regObj x.statWord
    | 2 => regObj x.peerWord
    | 3 => regObj x.peerSerial
    | 4 => regObj x.fecWord
    | 5 => regObj x.retryWord
    | 6 => if index < 0x4012 then regObj (x.fabWord &&& 0xFFFFFFFFFFFF) else none
    | _ => none
  else if 0x5000 ≤ index && index < 0x5008 then
    let st := index - 0x5000
    match sub with
    | 1 => regObj (s.stack st).statWord
    | 2 => regObj (s.maintWord st)
    | 3 => regObj (s.stack st).errWord
    | _ => none
  else if 0x7100 ≤ index && index < 0x7100 + 40 * s.gridW && sub = 1 then
    let t := index - 0x7100
    scalarObj 3 .ro (s.tile (tileKey (t % s.gridW) (t / s.gridW))).ceCount.toNat
  else none

/-- The object with an index and a subindex. -/
def State.object (s : State) (index sub : Nat) : Option Obj :=
  match s.identityObj index sub with
  | some o => some o
  | none => match s.packageObj index sub with
    | some o => some o
    | none => match s.unitObj index sub with
      | some o => some o
      | none => s.counterObj index sub

/-! ## Requests and responses (R472) -/

/-- OP of a request. -/
def mgtOp (r : List Byte) : Nat := leAt r 1 1
/-- INDEX. -/
def mgtIndex (r : List Byte) : Nat := leAt r 4 2
/-- SUBINDEX. -/
def mgtSub (r : List Byte) : Nat := leAt r 6 1
/-- TYPE. -/
def mgtType (r : List Byte) : Nat := leAt r 7 1
/-- OFFSET. -/
def mgtOffset (r : List Byte) : Nat := leAt r 8 4
/-- LEN. -/
def mgtLen (r : List Byte) : Nat := leAt r 12 2

/-- A request is not malformed. -/
def mgtForm (r : List Byte) : Bool :=
  decide (16 ≤ r.length) && decide (r.length = 16 + mgtLen r) && decide (leAt r 0 1 = 1) && decide (1 ≤ mgtOp r && mgtOp r ≤ 3)
    && decide (leAt r 14 2 = 0)

/-- The response to a request: its header, and data. -/
def mgtResponse (r : List Byte) (type : Nat) (st : Status) (data : List Byte) : List Byte :=
  [1, BitVec.ofNat 8 (mgtOp r) ||| 0x80] ++ slice r 2 5 ++ [BitVec.ofNat 8 type] ++ slice r 8 4 ++ bytesOf 2 data.length
    ++ bytesOf 2 st.toNat ++ data

/-- The port transmits: its line is neither shorted nor open, and no node conflict silences it (R482). -/
def Mgt.transmits (m : Mgt) : Bool := m.line ≠ 1 && m.line ≠ 2 && m.conflict.isNone

/-- Answer a request: a datagram's response leaves if the port transmits and its segment was good; the mailbox's is written and signalled,
unless it is discarded (R470, R482 to R484). -/
def State.answerReq (s : State) (q : MgtReq) (rsp : List Byte) : State :=
  if !q.mailbox then
    if s.mgt.transmits && !q.uncounted then { s with mgt := { s.mgt with response := some (q.source, rsp) } } else s
  else if q.discard then s
  else
    ({ s with mgt := { s.mgt with
        go := false, busy := false, mbxDone := true, rspBuf := memWrite s.mgt.rspBuf 0 rsp } }).signal 0 21

/-- Count a violation: 1 UNKNOWN, 2 TYPE, 3 READ_ONLY, 4 RANGE, 5 FORMAT. -/
def State.violation (s : State) (n : Nat) : State :=
  { s with mgt := { s.mgt with viol := smapPut s.mgt.viol n (satInc (smapGet 0 s.mgt.viol n)) } }

/-- Reject a request with a status, LEN 0 and a violation count (R472, R478); one over a faulty segment does not count (R483). -/
def State.rejectReq (s : State) (q : MgtReq) (type n : Nat) (st : Status) : State :=
  (if q.uncounted then s else s.violation n).answerReq q (mgtResponse q.bytes type st [])

/-! ## The field-network port (R470) -/

/-- The MAC address: 0x02, then the low 40 bits of SERIAL, most significant byte first. -/
def Facts.mac (f : Facts) : List Byte := 2 :: (bytesOf 5 f.serial.toNat).reverse

/-- The IPv6 link-local address formed from the MAC address by the modified EUI-64 rule of RFC 4291. -/
def Facts.linkLocal (f : Facts) : List Byte :=
  let m := f.mac
  [0xFE, 0x80, 0, 0, 0, 0, 0, 0] ++ [m.getD 0 0 ^^^ 2] ++ slice m 1 2 ++ [0xFF, 0xFE] ++ slice m 3 3

/-- The UDP port of requests. -/
def mgtPort : Nat := 48213

/-- A package with node ID 0 is the PLCA coordinator, with the node count of object 0x1010. -/
def State.plcaNodes (s : State) : Option Nat := if s.boot.nodeId = 0 then some s.mgt.nodeCount.toNat else none

/-! ## The queue (R470, R473, R484) -/

/-- A datagram can reach the port: the line is not shorted. -/
def Mgt.listens (m : Mgt) : Bool := m.line ≠ 1

/-- The port's IPv6 address as a number. -/
def Facts.mgtAddr (f : Facts) : BitVec 128 := BitVec.ofNat 128 (ofBytesBe f.linkLocal)

/-- The all-nodes address ff02::1. -/
def allNodes : BitVec 128 := 0xFF020000000000000000000000000001

/-- The addresses at which a solicitation of the port's address may arrive: itself, and its solicited-node address ff02::1:ffXX:XXXX of RFC
4291. -/
def Facts.solicited (f : Facts) : List (BitVec 128) :=
  [f.mgtAddr, 0xFF0200000000000000000001FF000000 ||| (f.mgtAddr &&& 0xFFFFFF)]

/-- A datagram is a request to the port (R470): UDP to port 48213 of its address, or of all nodes where it carries IDENTIFY. -/
def State.takesDatagram (s : State) (e : MgtEnds) (multicast : Bool) (bytes : List Byte) : Bool :=
  e.solicits.isNone && decide (e.dstPort.toNat = mgtPort)
    && (if multicast then decide (e.dstAddr = allNodes) && decide (mgtOp bytes = 3) else decide (e.dstAddr = s.facts.mgtAddr))

/-- MGT_DATAGRAM (R470, R473): a request is queued, or dropped and counted behind 16 others; over a faulty segment it counts nothing (R483). A
neighbour solicitation of the port's address is answered with its MAC address. -/
def execMgtDatagram (source : MgtEnds) (multicast : Bool) (bytes : List Byte) (s : State) : Out :=
  let m := s.mgt
  if !s.mgtUp || !m.listens then nothing s
  else if source.solicits = some s.facts.mgtAddr then
    if s.facts.solicited.contains source.dstAddr && m.transmits then
      .next { s with mgt := { m with advert := some (source.addr, s.facts.mac) } }
    else nothing s
  else if !s.takesDatagram source multicast bytes then nothing s
  else if 16 ≤ (m.queue.filter fun q => !q.mailbox).length then
    if m.transmits then .next { s with mgt := { m with dropped := satInc m.dropped } } else nothing s
  else .next { s with mgt := { m with queue := m.queue ++
    [{ source := (source.addr, source.port), uncounted := !m.transmits, time := s.now, bytes := bytes }] } }

/-- The request in the mailbox's buffer: its header and the data it announces. -/
def Mgt.mailboxBytes (m : Mgt) : List Byte :=
  let head := memRead m.reqBuf 0 16
  memRead m.reqBuf 0 (min 1040 (16 + mgtLen head))

/-- MBX_GO (R484): the mailbox request is queued; while one is busy, GO is ignored and sets OVERRUN. -/
def execMbxGo (s : State) : Out :=
  let m := s.mgt
  if !s.mgtUp then nothing s
  else if m.busy then .next { s with mgt := { m with overrun := true } }
  else
    .next { s with mgt := { m with
      go := true, busy := true, queue := m.queue ++ [{ mailbox := true, time := s.now, bytes := m.mailboxBytes }] } }

/-- Take the request at the queue's front if its OP selects a handler; during a restart of the shepherd it waits (R474). A request whose OP is
none of the three is READ's. -/
def State.takeReq (s : State) (mine : Nat → Bool) : Option (MgtReq × State) :=
  match s.mgt.queue with
  | [] => none
  | q :: rest =>
    if s.mgtUp && !s.restarting && mine (mgtOp q.bytes) then some (q, { s with mgt := { s.mgt with queue := rest } }) else none

/-- A malformed request is answered with ST_MGT_FORMAT and counted; it is not an access (R472). -/
def State.malformed (s : State) (q : MgtReq) : State := s.rejectReq q (mgtType q.bytes) 5 St.MGT_FORMAT

/-! ## READ (R475, R476, R478) -/

/-- The data a READ of an object returns: zero for a WO object, up to 1,024 bytes from OFFSET of a DOMAIN. -/
def Obj.readData (o : Obj) (offset : Nat) : List Byte :=
  if o.access = .wo then o.value.map fun _ => 0
  else if o.type = 8 then (o.value.drop offset).take 1024
  else o.value

/-- READ of a well-formed request. -/
def State.readObject (s : State) (q : MgtReq) : State :=
  let r := q.bytes
  match s.object (mgtIndex r) (mgtSub r) with
  | none => s.rejectReq q (mgtType r) 1 St.MGT_UNKNOWN
  | some o =>
    if mgtType r ≠ 0 && mgtType r ≠ o.type then s.rejectReq q o.type 2 St.MGT_TYPE
    else s.answerReq q (mgtResponse r o.type St.OK (o.readData (mgtOffset r)))

/-- READ (R475). -/
def execRead (s : State) : Out :=
  match s.takeReq fun op => op ≠ 2 && op ≠ 3 with
  | none => nothing s
  | some (q, s) => .next (if mgtForm q.bytes then s.readObject q else s.malformed q)

/-! ## WRITE (R476 to R481) -/

/-- A value is in the object's range (R480). -/
def inRange (index sub v : Nat) : Bool :=
  match index, sub with
  | 0x1010, 2 => 1 ≤ v && v ≤ 32
  | 0x2010, 1 => v ≤ 2
  | 0x6010, _ => v ≤ 1
  | 0x7000, _ => v ≤ 0x3FF
  | 0x9000, 1 => v < 2 ^ 17 && 1 ≤ v % 256 && v % 256 ≤ 5
  | _, _ => true

/-- The rejection of a WRITE, in the order of R478: the counter and the status. -/
def Obj.writeRejection (o : Obj) (index sub type : Nat) (data : List Byte) : Option (Nat × Status) :=
  let badLen := match scalarSize o.type with
    | some n => decide (data.length ≠ n)
    | none => o.type = 7 && (data.isEmpty || decide (64 < data.length))
  if type ≠ o.type || badLen then some (2, St.MGT_TYPE)
  else if o.access = .const || o.access = .ro then some (3, St.MGT_READ_ONLY)
  else if o.type ≠ 7 && !inRange index sub (ofBytes data) then some (4, St.MGT_RANGE)
  else none

/-- An RWP object has a value to persist; a write within the 50 ms of an earlier one is combined with it (R477). -/
def Mgt.toPersist (m : Mgt) (item : PersistItem) (now : Nat) : Mgt :=
  if m.dirty.any fun d => decide (d.1 = item) then m else { m with dirty := m.dirty ++ [(item, now)] }

/-- Change a management setting that is persisted. -/
def State.persisted (s : State) (item : PersistItem) (f : Mgt → Mgt) : State :=
  { s with mgt := (f s.mgt).toPersist item s.now }

/-- The self-test of a KIND. -/
def testKindOf : Nat → SelfTestKind
  | 1 => .tileBist
  | 2 => .sextant
  | 3 => .stackScrub
  | 4 => .eyeScan
  | _ => .slotCheck

/-- A park object takes a value (R30, R410): 1 parks, or is refused; 0 unparks. DESIGN CHOICE (assumption 97): while the half still powers
up after an unpark, or before the package is ready, a write of 1 that R30 does not refuse is answered ST_OK and stored, and parks nothing. -/
def State.parkWrite (s : State) (h : Half) (v : Nat) : State ⊕ Status :=
  let s' := { s with mgt := s.mgt.setPark h (BitVec.ofNat 8 v) }
  if v = 1 then
    match s.parkRefusal h with
    | some st => .inr st
    | none => .inl (if s.boot.ready && decide ((s.half h).state = .live) then s'.park h else s')
  else .inl (if s.boot.ready && decide ((s.half h).state = .parked) then s'.unpark h else s')

/-- The function of a written object: its effect, or its refusal (R479). -/
def State.writeObject (s : State) (index sub : Nat) (data : List Byte) : State ⊕ Status :=
  let v := ofBytes data
  match index, sub with
  | 0x1010, 2 => .inl (s.persisted .nodeCount fun m => { m with nodeCount := BitVec.ofNat 8 v })
  | 0x2010, 1 => .inl (s.persisted .bootOverride fun m => { m with bootOverride := BitVec.ofNat 8 v })
  | 0x2020, 1 => .inl (s.persisted .assetTag fun m => { m with assetTag := data })
  | 0x6010, 1 => s.parkWrite .west v
  | 0x6010, 2 => s.parkWrite .east v
  | 0x7000, 1 => .inl (s.clearAlerts (BitVec.ofNat 10 v))
  | 0x7000, 2 => .inl (({ s with rel := { s.rel with alertMask := BitVec.ofNat 10 v } }).persisted .alertMask id)
  | 0x9000, 1 => .inl (s.requestTest (testKindOf (v % 256)) (if v % 256 = 5 then 0 else BitVec.ofNat 8 (v / 256)) (v / 2 ^ 16 % 2 = 1))
  | _, _ => .inl s

/-- Append an entry to the journal, which holds the last 256 (R481). -/
def State.journalWrite (s : State) (q : MgtReq) (type : Nat) (old new : List Byte) : State :=
  let r := q.bytes
  let j : Journal := { index := BitVec.ofNat 16 (mgtIndex r), sub := BitVec.ofNat 8 (mgtSub r), mailbox := q.mailbox,
                       type := BitVec.ofNat 8 type, time := s.hifTime, old := wordOf (leAt old 0 8), new := wordOf (leAt new 0 8) }
  let all := s.mgt.journal ++ [j]
  { s with mgt := { s.mgt with journal := all.drop (all.length - 256), journalCount := s.mgt.journalCount + 1 } }

/-- WRITE of a well-formed request. -/
def State.writeRequest (s : State) (q : MgtReq) : State :=
  let r := q.bytes
  let data := r.drop 16
  match s.object (mgtIndex r) (mgtSub r) with
  | none => s.rejectReq q (mgtType r) 1 St.MGT_UNKNOWN
  | some o =>
    match o.writeRejection (mgtIndex r) (mgtSub r) (mgtType r) data with
    | some (n, st) => s.rejectReq q o.type n st
    | none =>
      match s.writeObject (mgtIndex r) (mgtSub r) data with
      | .inr st => s.answerReq q (mgtResponse r o.type st [])
      | .inl s => (s.journalWrite q o.type o.value data).answerReq q (mgtResponse r o.type St.OK [])

/-- WRITE (R476). -/
def execWrite (s : State) : Out :=
  match s.takeReq fun op => op = 2 with
  | none => nothing s
  | some (q, s) => .next (if mgtForm q.bytes then s.writeRequest q else s.malformed q)

/-! ## IDENTIFY (R472) -/

/-- The 16 data bytes of an IDENTIFY response. -/
def State.identity (s : State) : List Byte :=
  bytesOf 8 s.facts.serial.toNat ++ bytesOf 2 Config.vendorId.toNat ++ bytesOf 1 s.boot.nodeId.toNat ++ [s.kindCode]
    ++ bytesOf 1 s.gridW ++ [0, 0, 0]

/-- IDENTIFY (R472). -/
def execIdentify (s : State) : Out :=
  match s.takeReq fun op => op = 3 with
  | none => nothing s
  | some (q, s) =>
    .next (if mgtForm q.bytes then s.answerReq q (mgtResponse q.bytes (mgtType q.bytes) St.OK s.identity) else s.malformed q)

/-! ## Persistence (R477) -/

/-- The flash copy of an object takes its value in force. -/
def State.flashCopy (s : State) (item : PersistItem) : Mgt :=
  let m := s.mgt
  match item with
  | .nodeCount => { m with flNodeCount := m.nodeCount }
  | .bootOverride => { m with flOverride := m.bootOverride }
  | .assetTag => { m with flAssetTag := m.assetTag }
  | .alertMask => { m with flAlertMask := s.rel.alertMask }

/-- PERSIST_WRITE (R477): the value reaches flash, or the write fails with an event and the former value stays there. -/
def execPersistWrite (item : PersistItem) (ok : Bool) (s : State) : Out :=
  if !s.mgtUp || !(s.mgt.dirty.any fun d => decide (d.1 = item)) then nothing s
  else
    let m := if ok then s.flashCopy item else s.mgt
    let s := { s with mgt := { m with dirty := m.dirty.filter fun d => decide (d.1 ≠ item) } }
    .next (if ok then s else s.pkgEvent St.MGT_PERSIST_FAIL 0)

/-! ## Line faults (R482, R483) -/

/-- The onset of a line fault: the state, its count, and the event. -/
def State.lineOnset (s : State) (code : Byte) (f : Mgt → Mgt) (st : Status) : State :=
  if s.mgt.line = code then { s with mgt := { s.mgt with lineGone := none } }
  else ({ s with mgt := { f s.mgt with line := code, lineGone := none } }).pkgEvent st 0

/-- LINE_CHECK (R482). -/
def execLineCheck (fault : LineFault) (s : State) : Out :=
  if !s.mgtUp then nothing s
  else match fault with
    | .none =>
      if s.mgt.line = 0 then nothing s
      else .next { s with mgt := { s.mgt with lineGone := some (s.mgt.lineGone.getD s.now) } }
    | .shorted => .next (s.lineOnset 1 (fun m => { m with shorts := satInc m.shorts }) St.MGT_LINE_SHORT)
    | .opened => .next (s.lineOnset 2 (fun m => { m with opens := satInc m.opens }) St.MGT_LINE_OPEN)
    | .reversed => .next (s.lineOnset 3 (fun m => { m with reverses := satInc m.reverses }) St.MGT_LINE_REVERSED)
    | .nodeConflict => .next (({ s with mgt := { s.mgt with conflict := some s.now } }).pkgEvent St.MGT_NODE_CONFLICT s.boot.nodeId.toNat)

/-- LINE_RECOVER (R483): the condition has been absent for 1 s. -/
def execLineRecover (s : State) : Out :=
  match s.mgt.lineGone with
  | none => nothing s
  | some t =>
    if s.mgtUp && decide (t + 1000 * msT ≤ s.now) then .next { s with mgt := { s.mgt with line := 0, lineGone := none } }
    else nothing s

/-- NODE_CONFLICT_RETRY (R482): after 1 s the port transmits again. -/
def execNodeConflictRetry (s : State) : Out :=
  match s.mgt.conflict with
  | none => nothing s
  | some t =>
    if s.mgtUp && decide (t + 1000 * msT ≤ s.now) then .next { s with mgt := { s.mgt with conflict := none } } else nothing s

end Sys2Proof.Machine
end

