-- ==== Sys2Proof/Machine/Registers.lean ====
section
/-!
DEFINITION. Register writes by the host (R14, R376, R377, R380 to R382): the fields a write changes, by access code; a register
with behaviour of its own acts as its command does. Writes are whole 8-byte words (assumption 71).
-/
namespace Sys2Proof.Machine

/-- The host interface is up for register accesses: bring-up step 3 is done, and the rails and its reference are there (R406, R495). -/
def State.hostUp (s : State) : Bool := s.boot.done.contains 3 && s.facts.peRefclk && !s.power.thermtrip

/-- A field of a written word in a register of w bits. -/
def wfield (w : Nat) (v : Word) (hi lo : Nat) : BitVec w := BitVec.ofNat w (field v hi lo)

/-- Write two 32-bit entries of a table's shadow copy, keeping the bits of a format. -/
def pairWrite (m : SMap (BitVec 32)) (mask : BitVec 32) (i : Nat) (v : Word) : SMap (BitVec 32) :=
  smapPut (smapPut m (2 * i) (wfield 32 v 31 0 &&& mask)) (2 * i + 1) (wfield 32 v 63 32 &&& mask)

/-! ## Function registers (R397, R402, MSI-X) -/

/-- HIF_SQ_BASE_r: clearing ENABLE discards the entries not fetched. -/
def Fn.writeBase (f : Fn) (r : Nat) (v : Word) : Fn :=
  let f' := { f with sqBase := smapPut f.sqBase r (v &&& 0xFFFFFFFFFFFFF001) }
  if bitAt (smapGet 0 f.sqBase r) 0 && !bitAt v 0 then { f' with sqHead := smapPut f.sqHead r (smapGet 0 f.sqTail r) } else f'

/-- HIF_CQ_CTL: SIZE_LOG2 only while the ring is disabled, and only 8 to 15; the entries HEAD moves over are read. -/
def Fn.writeCqCtl (f : Fn) (v : Word) : Fn :=
  let size := field v 35 32
  let f := { f with cqLog2 := if !bitAt f.cqBase 0 && decide (8 ≤ size) then BitVec.ofNat 4 size else f.cqLog2 }
  { f with
    cqHead := wfield 16 v 31 16
    cqUsed := f.cqUsed - (field v 31 16 + 65536 - f.cqHead.toNat) % f.cqSize }

/-- Change a vector of a function and fire it if it is due. -/
def Fn.modVec (f : Fn) (v : Nat) (g : Vec → Vec) : Fn :=
  let x := g (smapGet {} f.vecs v)
  { f with vecs := smapPut f.vecs v (x.settle (x.pba && !x.masked)) }

/-- Write an MSI-X table word. -/
def Vec.writeMsix (x : Vec) (i : Nat) (v : Word) : Vec :=
  if i = 0 then { x with addr := v } else { x with data := wfield 32 v 31 0, masked := bitAt v 32 }

/-- The function registers at an offset of a function's own page. -/
def Fn.write (f : Fn) (off : Nat) (v : Word) : Fn :=
  match slotIn off 0x000 16, slotIn off 0x200 64, slotIn off 0x800 128 with
  | some r, _, _ => f.writeBase r v
  | none, some n, _ => f.modVec n fun x => { x with timeUs := wfield 16 v 31 16, count := wfield 16 v 15 0 }
  | none, none, some i => f.modVec (i / 2) fun x => x.writeMsix (i % 2) v
  | none, none, none =>
    if off = 0x100 then { f with cqBase := v &&& 0xFFFFFFFFFFFFF001 }
    else if off = 0x108 then f.writeCqCtl v
    else f

/-! ## Pasture registers -/

/-- PWR_PAS_BEAT_CTL: TARGET and PACE_LIMIT are clamped (R56, R73); a STALL_LIMIT below 10 is ignored (R49). -/
def State.writeBeatCtl (s : State) (p : Nat) (v : Word) : State :=
  s.modPas p fun x => ({ x with
    stallLimit := if field v 63 48 < 10 then x.stallLimit else wfield 16 v 63 48
    target := s.clampRate (field v 27 16), paceLimit := s.clampRate (field v 11 0) }).repace

/-- CNW_PAS_CFG: the bellwether's place is the loader's and PF0's, its column only while the pasture does not beat; SEND_WD is not 0. -/
def Pasture.writeCnwCfg (x : Pasture) (pf0 : Bool) (v : Word) : Pasture :=
  { x with
    bwVx := if pf0 && !x.beating then wfield 6 v 63 58 else x.bwVx
    bwVy := if pf0 then wfield 6 v 57 52 else x.bwVy
    sendWd := if field v 47 32 = 0 then x.sendWd else wfield 16 v 47 32
    reqRate := wfield 16 v 31 16
    ffRate := wfield 16 v 15 0 }

/-- CNW_FOLD_MAP_n. -/
def Pasture.writeFoldMap (x : Pasture) (n : Nat) (v : Word) : Pasture :=
  { x with foldMap := (List.range 8).foldl (fun m j =>
      smapPut m (8 * n + j) (BitVec.ofNat 8 (v.toNat / 2 ^ (8 * j)) &&& 0xBF)) x.foldMap }

/-- The fields of FAB_PAS_FLOCK, which a started membership keeps (R343). -/
def Pasture.writeFlock (x : Pasture) (v : Word) : Pasture :=
  if x.started then x
  else { x with flockSize := wfield 13 v 60 48, selfRank := wfield 12 v 47 36, flockId := wfield 16 v 31 16 }

/-- FAB_PAS_CFG: E2E_WIN is 1 to 256. -/
def Pasture.writeFabCfg (x : Pasture) (v : Word) : Pasture :=
  let w := field v 31 20
  { x with creditUs := wfield 16 v 63 48, doneUs := wfield 16 v 47 32, trackIdleUs := wfield 16 v 19 4
           e2eWin := if w = 0 || 256 < w then x.e2eWin else BitVec.ofNat 12 w }

/-- The fields of FAB_PAS_TBL. -/
def Pasture.writeTbl (x : Pasture) (v : Word) : Pasture :=
  { x with rankTrigEn := bitAt v 61, rankTrigFlag := wfield 8 v 60 53, droveUs := wfield 32 v 31 0 }

/-- The bits of FAB_SEND_n that the host writes. -/
def sendMask : BitVec 256 :=
  BitVec.ofNat 256 (((2 ^ 9 - 1) * 2 ^ 247) + ((2 ^ 40 - 1) * 2 ^ 204) + ((2 ^ 39 - 1) * 2 ^ 153) + ((2 ^ 76 - 1) * 2 ^ 52))

/-- Word i of FAB_SEND_n, ignored while its flag is set (R364). -/
def Pasture.writeSend (x : Pasture) (n i : Nat) (v : Word) : Pasture :=
  if bitAt x.flags n then x
  else
    let m := sendMask &&& ((BitVec.allOnes 64).setWidth 256 <<< (64 * i))
    let old := smapGet 0 x.sends n
    { x with sends := smapPut x.sends n ((old &&& ~~~m) ||| ((v.setWidth 256 <<< (64 * i)) &&& m)) }

/-- Two entries of the rank table's shadow copy (R342). -/
def Pasture.writeRanks (x : Pasture) (i : Nat) (v : Word) : Pasture :=
  let sh := pairWrite (x.rankCopy false) 0x8000FFFF i v
  if x.rankActive then { x with rank0 := sh } else { x with rank1 := sh }

/-- The plain registers of a pasture at an offset of its page; `pf0` says whether PF0 writes, `inRun` whether a run is under way. -/
def Pasture.write (x : Pasture) (pf0 inRun : Bool) (off : Nat) (v : Word) : Pasture :=
  match off with
  | 0x0150 => { x with marginNs := wfield 32 v 63 32
                       wptDegrade := if field v 31 28 = 0 then x.wptDegrade else wfield 4 v 31 28 }
  | 0x1008 => if bitAt v 3 then { x with floorBreach := false } else x
  | 0x1040 => { x with spdCeThresh := wfield 16 v 31 16, tallyMode := if field v 1 0 = 3 then x.tallyMode else wfield 2 v 1 0 }
  | 0x1048 => if inRun then x else { x with strict := bitAt v 0 }
  | 0x1050 => { x with stkCeThresh := wfield 16 v 31 16 }
  | 0x1080 => x.writeCnwCfg pf0 v
  | 0x1408 => x.writeFabCfg v
  | _ =>
    match slotIn off 0x10C0 8, slotIn off 0x1140 4, slotIn off 0x1500 64, slotIn off 0x2000 1024, slotIn off 0x8000 2048 with
    | some n, _, _, _, _ => if pf0 then x.writeFoldMap n v else x
    | none, some n, _, _, _ =>
      { x with notify := (x.notify &&& ~~~((BitVec.allOnes 64).setWidth 256 <<< (64 * n))) ||| (v.setWidth 256 <<< (64 * n)) }
    | none, none, some n, _, _ => { x with fence := smapPut x.fence n v }
    | none, none, none, some i, _ => x.writeSend (i / 4) (i % 4) v
    | none, none, none, none, some i => x.writeRanks i v
    | none, none, none, none, none => x

/-- FAB_PAS_FLOCK: its fields, then START or STOP. -/
def State.writeFlockReg (s : State) (fn : FnId) (p : PasId) (v : Word) : Out :=
  let s := s.modPas p.val fun x => x.writeFlock v
  if bitAt v 62 then execFlockStart fn p s else if bitAt v 61 then execFlockStop fn p s else .next s

/-- FAB_PAS_TBL: its fields, then RANK_SWAP. -/
def State.writeTblReg (s : State) (fn : FnId) (p : PasId) (v : Word) : Out :=
  let s := s.modPas p.val fun x => x.writeTbl v
  if bitAt v 63 then execRankSwap fn p s else .next s

/-- A write to a page: `own` says whether it is the function's own, whose ring, vector and MSI-X registers it may write (R381). -/
def State.writePage (s : State) (fn : FnId) (p : PasId) (own : Bool) (off : Nat) (v : Word) : Out :=
  if off = 0x140 then (if bitAt v 0 then execPastureReset fn p s else .next s)
  else if off = 0x1000 then .next (s.writeBeatCtl p.val v)
  else if off = 0x1400 then s.writeFlockReg fn p v
  else if off = 0x1410 then s.writeTblReg fn p v
  else
    match slotIn off 0x080 16, slotIn off 0x1100 4, slotIn off 0x1120 4, slotIn off 0x1418 3 with
    | some r, _, _, _ => if own then execDoorbell fn (Fin.ofNat 16 r) (wfield 8 v 7 0) s else .next s
    | none, some n, _, _ => execHostFlagSet fn p (Fin.ofNat 4 n) v s
    | none, none, some n, _ => execHostFlagClr fn p (Fin.ofNat 4 n) v s
    | none, none, none, some k => execOrdReservationWrite fn p (Fin.ofNat 3 k) v s
    | none, none, none, none =>
      let s := if own then s.modFn fn.val fun f => f.write off v else s
      let s := match slotIn off 0x8000 2048 with
        | some i => s.checkRanks p.val [2 * i, 2 * i + 1]
        | none => s
      .next (s.modPas p.val fun x => x.write (fn = 0) (s.begun p.val) off v)

/-! ## Package registers (R380) -/

/-- The refusal of a write of ENABLE = 0 with a column and a width: new columns of an enabled pasture (R379), or columns in a parked
half (R63). -/
def State.geomRefusal (s : State) (p : Nat) (col0 width : Byte) : Option Status :=
  let x := s.pasture p
  if x.enable then (if x.col0 ≠ col0 || x.width ≠ width then some St.HOST_GEOM_INVALID else none)
  else if (List.range s.gridW).any fun vx =>
      col0.toNat ≤ vx && decide (vx < col0.toNat + width.toNat) && s.parked (s.halfOf vx) then some St.PWR_HALF_PARKED
  else none

/-- HIF_PAS_GEOM_n: a start request, a stop, or the columns of a pasture that is disabled (R63, R378, R379). -/
def State.writeGeom (s : State) (p : PasId) (v : Word) : Out :=
  let col0 := wfield 8 v 7 0
  let width := wfield 8 v 23 16
  if bitAt v 31 then execPastureStart p col0 width s
  else match s.geomRefusal p.val col0 width with
    | some st => .next (s.geomResult p.val st)
    | none =>
      if (s.pasture p.val).enable then execPastureStop p s
      else .next ((s.geomResult p.val St.OK).modPas p.val fun x => { x with col0 := col0, width := width })

/-- HIF_COMPUTE_RESET: GO starts a warm compute reset, whose fetches meet what they may (R402, R424). -/
def State.writeComputeReset (s : State) (v : Word) : Out :=
  if bitAt v 0 then execWarmComputeReset { firmware := Config.fetches s.draw.1 } s.draw.2 else .next s

/-- HIF_QUARANTINE: VX and VY, then GO. -/
def State.writeQuarantine (s : State) (v : Word) : Out :=
  let s := { s with quarVx := wfield 6 v 5 0, quarVy := wfield 6 v 13 8 }
  if bitAt v 63 && decide (field v 13 8 < 40) then
    execTileQuarantine (Fin.ofNat 64 (field v 5 0)) (Fin.ofNat 40 (field v 13 8)) s
  else .next s

/-- LNK_CFG_n: its fields and DISABLE, then RETRAIN, which a port that is OFF ignores (R339). -/
def State.writeLinkCfg (s : State) (n : PortId) (v : Word) : Out :=
  let s := s.modPort n.val fun x => { x with laneThresh := wfield 20 v 63 44, calPas := wfield 4 v 43 40, calAuto := bitAt v 39 }
  let s := s.disablePort n.val (bitAt v 1)
  if bitAt v 0 then execLinkRetrain n s else .next s

/-- CNW_FOLD_n: OWNER is kept while the fold is owned by a pasture that beats (R297). -/
def State.writeFold (s : State) (n : Nat) (v : Word) : State :=
  let f := s.foldAt n
  let kept := f.valid && (s.pasture f.owner.toNat).beating
  s.putFold n { f with valid := bitAt v 63, owner := if kept then f.owner else wfield 4 v 62 59, notify := bitAt v 58,
                       members := wfield 12 v 55 44 }

/-- FAB_ROUTE_CTL: its fields, within their ranges, then SWAP. -/
def State.writeRouteCtl (s : State) (v : Word) : Out :=
  let f := s.fabric
  let hold := field v 48 32
  let drain := field v 31 16
  let s := { s with fabric := { f with
    routeTrigEn := bitAt v 61, routeTrigPas := wfield 4 v 60 57, routeTrigFlag := wfield 8 v 56 49
    ordHoldUs := if 1 ≤ hold && hold ≤ 65535 then BitVec.ofNat 17 hold else f.ordHoldUs
    ordDrain := if 1 ≤ drain && drain ≤ 1000 then BitVec.ofNat 16 drain else f.ordDrain } }
  if bitAt v 63 then execRouteSwap s else .next s

/-- A send on a drove is in progress (R367). -/
def State.droveBusy (s : State) (d : Nat) : Bool :=
  (List.range 16).any fun p => (s.pasture p).sending.any fun y => y.drove && decide (field y.words 239 232 = d)

/-- FAB_DROVE_d and its member list, ignored while a send on it is in progress. -/
def State.modDrove (s : State) (d : Nat) (g : Drove → Drove) : State :=
  if s.droveBusy d then s
  else { s with fabric := { s.fabric with droves := smapPut s.fabric.droves d (g (smapGet {} s.fabric.droves d)) } }

/-- A written FAB_DROVE_d. -/
def Drove.written (d : Drove) (v : Word) : Drove :=
  { d with valid := bitAt v 63, isLocal := bitAt v 61, localPas := wfield 4 v 60 57, nMem := wfield 7 v 56 50, fwd := wfield 18 v 17 0 }

/-- Four ranks of a member list. -/
def Drove.writeMem (d : Drove) (i : Nat) (v : Word) : Drove :=
  { d with members := (List.range 4).foldl (fun m j => smapPut m (4 * i + j) (wfield 16 v (16 * j + 15) (16 * j))) d.members }

/-- Two entries of the routing table's shadow copy (R346). -/
def Fabric.writeRoutes (f : Fabric) (i : Nat) (v : Word) : Fabric :=
  let sh := pairWrite (f.routeCopy false) 0xFF03FFFF i v
  if f.routeActive then { f with route0 := sh } else { f with route1 := sh }

/-- Package registers from 0x010_0000 to 0x013_FFFF. -/
def State.writeLow (s : State) (off : Nat) (v : Word) : Out :=
  match slotIn off 0x100000 16, slotIn off 0x100080 16, slotIn off 0x110040 8, slotIn off 0x120900 16, slotIn off 0x121000 48 with
  | some p, _, _, _, _ => s.writeGeom (Fin.ofNat 16 p) v
  | none, some p, _, _, _ => execQosWrite (Fin.ofNat 16 p) (wfield 32 v 31 0) s
  | none, none, some st, _, _ => execOwnershipWrite 0 (Fin.ofNat 8 st) v s
  | none, none, none, some m, _ => execLportWrite (Fin.ofNat 16 m) (wfield 18 v 17 0) s
  | none, none, none, none, some i =>
    .next { s with links := { s.links with shadow := memWrite s.links.shadow (8 * i) (bytesOf 8 v.toNat) } }
  | none, none, none, none, none =>
    if off = 0x100108 then s.writeComputeReset v
    else if off = 0x100110 then s.writeQuarantine v
    else if off = 0x110000 then (if bitAt v 0 then execAutoEnable s else .next { s with ownAuto := false })
    else if off = 0x120800 then (if bitAt v 0 then execPlanCommit s else .next s)
    else if 0x120000 ≤ off && off < 0x120500 && (off - 0x120000) % 0x40 = 0 then
      s.writeLinkCfg (Fin.ofNat 20 ((off - 0x120000) / 0x40)) v
    else match slotIn off 0x130000 64 with
      | some n => .next (s.writeFold n v)
      | none => .next s

/-- Package registers from 0x014_0000 on, below the tile windows. -/
def State.writeHigh (s : State) (off : Nat) (v : Word) : Out :=
  if off = 0x140000 then s.writeRouteCtl v
  else
    match slotIn off 0x140100 18, slotIn off 0x141000 256, slotIn off 0x148000 4096, slotIn off 0x400000 32768 with
    | some n, _, _, _ => .next (s.modPort n fun x => { x with dateline := bitAt v 63 })
    | none, some d, _, _ => .next (s.modDrove d fun y => y.written v)
    | none, none, some i, _ => .next (s.modDrove (i / 16) fun y => y.writeMem (i % 16) v)
    | none, none, none, some i =>
      let s := (s.routeEntry (BitVec.ofNat 16 (2 * i))).1
      let s := (s.routeEntry (BitVec.ofNat 16 (2 * i + 1))).1
      .next { s with fabric := s.fabric.writeRoutes i v }
    | none, none, none, none => .next s

/-- A tile window: an access of the tile's register (R382). -/
def State.writeWindow (s : State) (off : Nat) (v : Word) : Out :=
  let t := (off - 0x1000000) / 0x1000
  if s.gridW = 0 || 40 * s.gridW ≤ t then .next s
  else execTileWindowAccess (Fin.ofNat 64 (t % s.gridW)) (Fin.ofNat 40 (t / s.gridW)) (BitVec.ofNat 12 off) (some v) s

/-- A write to PF0 BAR0. -/
def State.writeBar0 (s : State) (off : Nat) (v : Word) : Out :=
  if off < 0x100000 then s.writePage 0 (Fin.ofNat 16 (off / 0x10000)) (decide (off / 0x10000 = 0)) (off % 0x10000) v
  else if off < 0x140000 then s.writeLow off v
  else if off < 0x1000000 then s.writeHigh off v
  else s.writeWindow off v

/-! ## PF0 BAR2 (R428, R429, R484) -/

/-- A write of BOOT_STEP_CTL on the host-stepped path. GO with a step that R404 has is BOOT_STEP_REQUEST_n's, with what the step finds; with
any other number the request is refused as one out of order (R422; assumption 123). -/
def State.writeStepCtl (s : State) (v : Word) : State :=
  let n := field v 7 0
  let s := { s with boot := { s.boot with ctlArg := wfield 8 v 15 8, ctlStep := wfield 8 v 7 0 } }
  if !bitAt v 63 || [2, 4, 5, 6, 7, 8, 9].contains n || !s.boot.done.contains 3 then s
  else s.bootEvent (if s.boot.mgmtOnly then St.BOOT_MGMT_ONLY else St.BOOT_STEP_ORDER) n

/-- A write to PF0 BAR2. -/
def State.writeBar2 (s : State) (off : Nat) (v : Word) : Out :=
  let m := s.mgt
  match slotIn off 0x100 130, slotIn off 0x800 130 with
  | some i, _ => .next { s with mgt := { m with reqBuf := memWrite m.reqBuf (8 * i) (bytesOf 8 v.toNat) } }
  | none, some i => .next { s with mgt := { m with rspBuf := memWrite m.rspBuf (8 * i) (bytesOf 8 v.toNat) } }
  | none, none =>
    match off with
    | 0x0000 => if bitAt v 0 then execMbxGo s else .next s
    | 0x0008 => .next { s with mgt := { m with overrun := m.overrun && !bitAt v 2, mbxDone := m.mbxDone && !bitAt v 1 } }
    | 0xF008 => .next (if s.boot.mode = 0 then s else s.writeStepCtl v)
    | 0xF010 => .next { s with boot := { s.boot with imgAddr := v &&& 0xFFFFFFFFFFFFF000 } }
    | 0xF018 => .next { s with boot := { s.boot with imgLen := wfield 32 v 31 0 } }
    | _ => .next s

/-! ## Configuration space (R376, R377) -/

/-- The number of enabled virtual functions: those above it are disabled, and lose their rings (assumption 72). -/
def State.enableVfs (s : State) (n : Nat) : State :=
  (List.range 16).foldl (fun s f =>
    if f = 0 then s
    else if f ≤ n then s.modFn f fun x => { x with enabled := true }
    else if (s.func f).enabled then (s.discardFn f).modFn f fun x => { x with enabled := false }
    else s) s

/-- REGISTER_WRITE (R14): a write of a function to one of its spaces; offsets are multiples of 8, and a virtual function has only its
pasture page. -/
def execRegisterWrite (fn : FnId) (space : RegSpace) (offset : BitVec 26) (value : Word) (s : State) : Out :=
  let off := offset.toNat
  if !s.hostUp || !s.fnOn fn.val || off % 8 ≠ 0 then nothing s
  else match space with
    | .config => if fn ≠ 0 || s.boot.crs then nothing s else .next (s.enableVfs (min 15 value.toNat))
    | .bar2 => if fn ≠ 0 then nothing s else s.writeBar2 off value
    | .bar0 =>
      if fn = 0 then s.writeBar0 off value
      else if off < 0x10000 then s.writePage fn fn true off value
      else nothing s

end Sys2Proof.Machine
end

