-- ==== Sys2Proof/Machine/Dispatch.lean ====
section
/-!
DEFINITION. The dispatch: one arm per command.
-/
namespace Sys2Proof.Machine

/-- A command's effect on everything but the queue (R44 and 95_what_each_step_holds). -/
def exec (i : Instr) (s : State) : Host.Outcome State Fault Refusal :=
  match i with
  | .beatComplete vx vy => Sys2Proof.Machine.execBeatComplete vx vy s
  | .itemArrival vx vy => Sys2Proof.Machine.execItemArrival vx vy s
  | .paceGateOpen vx vy => Sys2Proof.Machine.execPaceGateOpen vx vy s
  | .stallWatchdog p => Sys2Proof.Machine.execStallWatchdog p s
  | .watchStart p => Sys2Proof.Machine.execWatchStart p s
  | .lateRefresh p => Sys2Proof.Machine.execLateRefresh p s
  | .scrubVisit vx vy => Sys2Proof.Machine.execScrubVisit vx vy s
  | .sextantReport n period temp => Sys2Proof.Machine.execSextantReport n period temp s
  | .helmUpdate h m => Sys2Proof.Machine.execHelmUpdate h m s
  | .floorBreach p rate => Sys2Proof.Machine.execFloorBreach p rate s
  | .descLoad vx vy => Sys2Proof.Machine.execDescLoad vx vy s
  | .matmul vx vy => Sys2Proof.Machine.execMatmul vx vy s
  | .conv vx vy => Sys2Proof.Machine.execConv vx vy s
  | .vecopAdd vx vy => Sys2Proof.Machine.execVecopAdd vx vy s
  | .vecopSub vx vy => Sys2Proof.Machine.execVecopSub vx vy s
  | .vecopMul vx vy => Sys2Proof.Machine.execVecopMul vx vy s
  | .vecopFma vx vy => Sys2Proof.Machine.execVecopFma vx vy s
  | .vecopMin vx vy => Sys2Proof.Machine.execVecopMin vx vy s
  | .vecopMax vx vy => Sys2Proof.Machine.execVecopMax vx vy s
  | .vecopAbs vx vy => Sys2Proof.Machine.execVecopAbs vx vy s
  | .vecopNeg vx vy => Sys2Proof.Machine.execVecopNeg vx vy s
  | .vecopCvt vx vy => Sys2Proof.Machine.execVecopCvt vx vy s
  | .vecopPairrot vx vy => Sys2Proof.Machine.execVecopPairrot vx vy s
  | .vecopRsum vx vy => Sys2Proof.Machine.execVecopRsum vx vy s
  | .vecopRssq vx vy => Sys2Proof.Machine.execVecopRssq vx vy s
  | .vecopRmax vx vy => Sys2Proof.Machine.execVecopRmax vx vy s
  | .vecopRargmax vx vy => Sys2Proof.Machine.execVecopRargmax vx vy s
  | .vecopExp2 vx vy => Sys2Proof.Machine.execVecopExp2 vx vy s
  | .vecopLog2 vx vy => Sys2Proof.Machine.execVecopLog2 vx vy s
  | .vecopRcp vx vy => Sys2Proof.Machine.execVecopRcp vx vy s
  | .vecopRsqrt vx vy => Sys2Proof.Machine.execVecopRsqrt vx vy s
  | .vecopTanh vx vy => Sys2Proof.Machine.execVecopTanh vx vy s
  | .vecopSigmoid vx vy => Sys2Proof.Machine.execVecopSigmoid vx vy s
  | .quant vx vy => Sys2Proof.Machine.execQuant vx vy s
  | .quantDequantise vx vy => Sys2Proof.Machine.execQuantDequantise vx vy s
  | .topk vx vy => Sys2Proof.Machine.execTopk vx vy s
  | .move vx vy => Sys2Proof.Machine.execMove vx vy s
  | .recv vx vy => Sys2Proof.Machine.execRecv vx vy s
  | .copy vx vy => Sys2Proof.Machine.execCopy vx vy s
  | .tallyClear vx vy => Sys2Proof.Machine.execTallyClear vx vy s
  | .gather vx vy => Sys2Proof.Machine.execGather vx vy s
  | .scatter vx vy => Sys2Proof.Machine.execScatter vx vy s
  | .stkrd vx vy => Sys2Proof.Machine.execStkrd vx vy s
  | .stkwr vx vy => Sys2Proof.Machine.execStkwr vx vy s
  | .winopen vx vy => Sys2Proof.Machine.execWinopen vx vy s
  | .winclose vx vy => Sys2Proof.Machine.execWinclose vx vy s
  | .wait vx vy => Sys2Proof.Machine.execWait vx vy s
  | .fold vx vy => Sys2Proof.Machine.execFold vx vy s
  | .flagSet vx vy => Sys2Proof.Machine.execFlagSet vx vy s
  | .flagClear vx vy => Sys2Proof.Machine.execFlagClear vx vy s
  | .flagHoldSet vx vy => Sys2Proof.Machine.execFlagHoldSet vx vy s
  | .flagHoldClear vx vy => Sys2Proof.Machine.execFlagHoldClear vx vy s
  | .loop vx vy => Sys2Proof.Machine.execLoop vx vy s
  | .endloop vx vy => Sys2Proof.Machine.execEndloop vx vy s
  | .ctrset vx vy => Sys2Proof.Machine.execCtrset vx vy s
  | .ctradd vx vy => Sys2Proof.Machine.execCtradd vx vy s
  | .cmpset vx vy => Sys2Proof.Machine.execCmpset vx vy s
  | .nopb vx vy => Sys2Proof.Machine.execNopb vx vy s
  | .overlay vx vy => Sys2Proof.Machine.execOverlay vx vy s
  | .halt vx vy => Sys2Proof.Machine.execHalt vx vy s
  | .stackReread vx vy => Sys2Proof.Machine.execStackReread vx vy s
  | .groupClearDone st g => Sys2Proof.Machine.execGroupClearDone st g s
  | .unownedGroupMaint st g => Sys2Proof.Machine.execUnownedGroupMaint st g s
  | .stackTempReport st temp => Sys2Proof.Machine.execStackTempReport st temp s
  | .stackHotRefresh st => Sys2Proof.Machine.execStackHotRefresh st s
  | .xferLinkTimeout link => Sys2Proof.Machine.execXferLinkTimeout link s
  | .msgRequestArrive idx => Sys2Proof.Machine.execMsgRequestArrive idx s
  | .registerAccess idx => Sys2Proof.Machine.execRegisterAccess idx s
  | .handlerDispatch vx vy => Sys2Proof.Machine.execHandlerDispatch vx vy s
  | .handlerEnd vx vy => Sys2Proof.Machine.execHandlerEnd vx vy s
  | .handlerWrite vx vy => Sys2Proof.Machine.execHandlerWrite vx vy s
  | .handlerAdd vx vy => Sys2Proof.Machine.execHandlerAdd vx vy s
  | .handlerBump vx vy => Sys2Proof.Machine.execHandlerBump vx vy s
  | .handlerFlagset vx vy => Sys2Proof.Machine.execHandlerFlagset vx vy s
  | .handlerFlagclr vx vy => Sys2Proof.Machine.execHandlerFlagclr vx vy s
  | .handlerReply vx vy => Sys2Proof.Machine.execHandlerReply vx vy s
  | .handlerSend vx vy => Sys2Proof.Machine.execHandlerSend vx vy s
  | .replyArrive idx => Sys2Proof.Machine.execReplyArrive idx s
  | .nakArrive idx => Sys2Proof.Machine.execNakArrive idx s
  | .fullBounce idx => Sys2Proof.Machine.execFullBounce idx s
  | .spaceSignal idx => Sys2Proof.Machine.execSpaceSignal idx s
  | .sendWatchdog who => Sys2Proof.Machine.execSendWatchdog who s
  | .cancel vx vy => Sys2Proof.Machine.execCancel vx vy s
  | .channelClose vx vy openMask => Sys2Proof.Machine.execChannelClose vx vy openMask s
  | .flitCheckFail vx vy d resend => Sys2Proof.Machine.execFlitCheckFail vx vy d resend s
  | .foldContribution idx => Sys2Proof.Machine.execFoldContribution idx s
  | .foldResult idx => Sys2Proof.Machine.execFoldResult idx s
  | .flagChange idx => Sys2Proof.Machine.execFlagChange idx s
  | .flagWaitArrive idx => Sys2Proof.Machine.execFlagWaitArrive idx s
  | .flagRelease idx => Sys2Proof.Machine.execFlagRelease idx s
  | .haltNotice idx => Sys2Proof.Machine.execHaltNotice idx s
  | .waitArrive idx => Sys2Proof.Machine.execWaitArrive idx s
  | .waitRelease idx => Sys2Proof.Machine.execWaitRelease idx s
  | .doorbell fn ring tail => Sys2Proof.Machine.execDoorbell fn ring tail s
  | .run fn ring => Sys2Proof.Machine.execRun fn ring s
  | .abort fn ring => Sys2Proof.Machine.execAbort fn ring s
  | .loadProgram fn ring dmaOk => Sys2Proof.Machine.execLoadProgram fn ring dmaOk s
  | .loadWeights fn ring dmaOk => Sys2Proof.Machine.execLoadWeights fn ring dmaOk s
  | .loadComplete p => Sys2Proof.Machine.execLoadComplete p s
  | .xfer fn ring => Sys2Proof.Machine.execXfer fn ring s
  | .msg fn ring => Sys2Proof.Machine.execMsg fn ring s
  | .cancelMsg fn ring => Sys2Proof.Machine.execCancelMsg fn ring s
  | .attest fn ring => Sys2Proof.Machine.execAttest fn ring s
  | .certs fn ring => Sys2Proof.Machine.execCerts fn ring s
  | .chainSign fn ring => Sys2Proof.Machine.execChainSign fn ring s
  | .ownerTake fn ring env => Sys2Proof.Machine.execOwnerTake fn ring env s
  | .ownerChange fn ring env => Sys2Proof.Machine.execOwnerChange fn ring env s
  | .ownerRelease fn ring env => Sys2Proof.Machine.execOwnerRelease fn ring env s
  | .signers fn ring env => Sys2Proof.Machine.execSigners fn ring env s
  | .unlock fn ring dmaOk => Sys2Proof.Machine.execUnlock fn ring dmaOk s
  | .relock fn ring => Sys2Proof.Machine.execRelock fn ring s
  | .svnCommit fn ring flashOk => Sys2Proof.Machine.execSvnCommit fn ring flashOk s
  | .runIngress p env => Sys2Proof.Machine.execRunIngress p env s
  | .runStart p => Sys2Proof.Machine.execRunStart p s
  | .runCompletion p env => Sys2Proof.Machine.execRunCompletion p env s
  | .completionWrite fn => Sys2Proof.Machine.execCompletionWrite fn s
  | .deadlineExpiry p k => Sys2Proof.Machine.execDeadlineExpiry p k s
  | .vectorFire fn v => Sys2Proof.Machine.execVectorFire fn v s
  | .periodicRecordSign p => Sys2Proof.Machine.execPeriodicRecordSign p s
  | .pastureStart p col0 width => Sys2Proof.Machine.execPastureStart p col0 width s
  | .pastureStop p => Sys2Proof.Machine.execPastureStop p s
  | .pastureReset fn p => Sys2Proof.Machine.execPastureReset fn p s
  | .warmComputeReset w => Sys2Proof.Machine.execWarmComputeReset w s
  | .tileQuarantine vx vy => Sys2Proof.Machine.execTileQuarantine vx vy s
  | .qosWrite p value => Sys2Proof.Machine.execQosWrite p value s
  | .flrVf fn => Sys2Proof.Machine.execFlrVf fn s
  | .flrPf0 w => Sys2Proof.Machine.execFlrPf0 w s
  | .perstN w => Sys2Proof.Machine.execPerstN w s
  | .hotReset w => Sys2Proof.Machine.execHotReset w s
  | .pcieLinkDown w => Sys2Proof.Machine.execPcieLinkDown w s
  | .ownershipWrite fn st value => Sys2Proof.Machine.execOwnershipWrite fn st value s
  | .autoEnable => Sys2Proof.Machine.execAutoEnable s
  | .groupXferWrite fn st g on => Sys2Proof.Machine.execGroupXferWrite fn st g on s
  | .paceLimitWrite fn p value => Sys2Proof.Machine.execPaceLimitWrite fn p value s
  | .hostFlagSet fn p n value => Sys2Proof.Machine.execHostFlagSet fn p n value s
  | .hostFlagClr fn p n value => Sys2Proof.Machine.execHostFlagClr fn p n value s
  | .tileWindowAccess vx vy offset write => Sys2Proof.Machine.execTileWindowAccess vx vy offset write s
  | .registerWrite fn space offset value => Sys2Proof.Machine.execRegisterWrite fn space offset value s
  | .linkRetrain n => Sys2Proof.Machine.execLinkRetrain n s
  | .planCommit => Sys2Proof.Machine.execPlanCommit s
  | .lportWrite m value => Sys2Proof.Machine.execLportWrite m value s
  | .flockStart fn p => Sys2Proof.Machine.execFlockStart fn p s
  | .flockStop fn p => Sys2Proof.Machine.execFlockStop fn p s
  | .rankSwap fn p => Sys2Proof.Machine.execRankSwap fn p s
  | .routeSwap => Sys2Proof.Machine.execRouteSwap s
  | .ordReservationWrite fn p k value => Sys2Proof.Machine.execOrdReservationWrite fn p k value s
  | .linkDetect n signal => Sys2Proof.Machine.execLinkDetect n signal s
  | .linkLanes n failed polInv reversed => Sys2Proof.Machine.execLinkLanes n failed polInv reversed s
  | .linkEqualise n failed => Sys2Proof.Machine.execLinkEqualise n failed s
  | .linkWidth n checkOk => Sys2Proof.Machine.execLinkWidth n checkOk s
  | .linkIdentify n peer => Sys2Proof.Machine.execLinkIdentify n peer s
  | .linkCompare n => Sys2Proof.Machine.execLinkCompare n s
  | .linkFlitReceive n f r => Sys2Proof.Machine.execLinkFlitReceive n f r s
  | .linkNak n ack => Sys2Proof.Machine.execLinkNak n ack s
  | .ackTimeout n => Sys2Proof.Machine.execAckTimeout n s
  | .laneLost n lane bothDirections => Sys2Proof.Machine.execLaneLost n lane bothDirections s
  | .degrade n lanes => Sys2Proof.Machine.execDegrade n lanes s
  | .widthProposal n lanes => Sys2Proof.Machine.execWidthProposal n lanes s
  | .widthAccept n lanes => Sys2Proof.Machine.execWidthAccept n lanes s
  | .retrainRequest n => Sys2Proof.Machine.execRetrainRequest n s
  | .laneHealthWindow n => Sys2Proof.Machine.execLaneHealthWindow n s
  | .calibrationOpportunity n clean => Sys2Proof.Machine.execCalibrationOpportunity n clean s
  | .planWaitExpiry => Sys2Proof.Machine.execPlanWaitExpiry s
  | .packetForward n lane => Sys2Proof.Machine.execPacketForward n lane s
  | .data idx => Sys2Proof.Machine.execData idx s
  | .landingNotice idx => Sys2Proof.Machine.execLandingNotice idx s
  | .creditReq idx => Sys2Proof.Machine.execCreditReq idx s
  | .creditGrant idx => Sys2Proof.Machine.execCreditGrant idx s
  | .creditReturn idx => Sys2Proof.Machine.execCreditReturn idx s
  | .nak idx => Sys2Proof.Machine.execNak idx s
  | .done idx => Sys2Proof.Machine.execDone idx s
  | .dataAck idx => Sys2Proof.Machine.execDataAck idx s
  | .svcData link pkt stackOk => Sys2Proof.Machine.execSvcData link pkt stackOk s
  | .svcAck link pkt => Sys2Proof.Machine.execSvcAck link pkt s
  | .creditReqRepeat p n => Sys2Proof.Machine.execCreditReqRepeat p n s
  | .sendSourceDone p n => Sys2Proof.Machine.execSendSourceDone p n s
  | .doneTimeout p n => Sys2Proof.Machine.execDoneTimeout p n s
  | .trackerAbandon p win rank xfer => Sys2Proof.Machine.execTrackerAbandon p win rank xfer s
  | .droveTimeout p n => Sys2Proof.Machine.execDroveTimeout p n s
  | .ordDrainExpiry => Sys2Proof.Machine.execOrdDrainExpiry s
  | .ordHoldExpiry n => Sys2Proof.Machine.execOrdHoldExpiry n s
  | .wptLate p vx vy => Sys2Proof.Machine.execWptLate p vx vy s
  | .wptTimeout p vx vy => Sys2Proof.Machine.execWptTimeout p vx vy s
  | .powerGood bootMode nodeId => Sys2Proof.Machine.execPowerGood bootMode nodeId s
  | .powerLoss => Sys2Proof.Machine.execPowerLoss s
  | .inputReversed => Sys2Proof.Machine.execInputReversed s
  | .inputHigh => Sys2Proof.Machine.execInputHigh s
  | .inputOvervoltage => Sys2Proof.Machine.execInputOvervoltage s
  | .inputLow => Sys2Proof.Machine.execInputLow s
  | .inputOvercurrent => Sys2Proof.Machine.execInputOvercurrent s
  | .efuseTrip => Sys2Proof.Machine.execEfuseTrip s
  | .railOutOfRegulation => Sys2Proof.Machine.execRailOutOfRegulation s
  | .efuseRetry => Sys2Proof.Machine.execEfuseRetry s
  | .thermtrip => Sys2Proof.Machine.execThermtrip s
  | .bootShepherdVerify v => Sys2Proof.Machine.execBootShepherdVerify v s
  | .bootHifStart => Sys2Proof.Machine.execBootHifStart s
  | .bootStackTrain v => Sys2Proof.Machine.execBootStackTrain v s
  | .bootStackClear ok => Sys2Proof.Machine.execBootStackClear ok s
  | .bootWave wave v => Sys2Proof.Machine.execBootWave wave v s
  | .bootBist failures => Sys2Proof.Machine.execBootBist failures s
  | .bootDefectMap => Sys2Proof.Machine.execBootDefectMap s
  | .bootColumnMap => Sys2Proof.Machine.execBootColumnMap s
  | .bootTileFw v => Sys2Proof.Machine.execBootTileFw v s
  | .bootStepRequest2 arg v => Sys2Proof.Machine.execBootStepRequest2 arg v s
  | .bootStepRequest4 arg v clearOk => Sys2Proof.Machine.execBootStepRequest4 arg v clearOk s
  | .bootStepRequest5 arg v => Sys2Proof.Machine.execBootStepRequest5 arg v s
  | .bootStepRequest6 arg failures => Sys2Proof.Machine.execBootStepRequest6 arg failures s
  | .bootStepRequest7 arg => Sys2Proof.Machine.execBootStepRequest7 arg s
  | .bootStepRequest8 arg => Sys2Proof.Machine.execBootStepRequest8 arg s
  | .bootStepRequest9 arg v => Sys2Proof.Machine.execBootStepRequest9 arg v s
  | .shepherdWatchdog => Sys2Proof.Machine.execShepherdWatchdog s
  | .ringCrcFail resend => Sys2Proof.Machine.execRingCrcFail resend s
  | .parkHalf h => Sys2Proof.Machine.execParkHalf h s
  | .unparkHalf h => Sys2Proof.Machine.execUnparkHalf h s
  | .unparkDone h failures v => Sys2Proof.Machine.execUnparkDone h failures v s
  | .selftestTileBist p nowait => Sys2Proof.Machine.execSelftestTileBist p nowait s
  | .selftestSextant h nowait => Sys2Proof.Machine.execSelftestSextant h nowait s
  | .selftestStackScrub st => Sys2Proof.Machine.execSelftestStackScrub st s
  | .selftestEyeScan n => Sys2Proof.Machine.execSelftestEyeScan n s
  | .selftestSlotCheck => Sys2Proof.Machine.execSelftestSlotCheck s
  | .selftestStart kind target => Sys2Proof.Machine.execSelftestStart kind target s
  | .selftestDeferTimeout kind target => Sys2Proof.Machine.execSelftestDeferTimeout kind target s
  | .selftestDone kind target v => Sys2Proof.Machine.execSelftestDone kind target v s
  | .mgtDatagram source multicast bytes => Sys2Proof.Machine.execMgtDatagram source multicast bytes s
  | .mbxGo => Sys2Proof.Machine.execMbxGo s
  | .read => Sys2Proof.Machine.execRead s
  | .write => Sys2Proof.Machine.execWrite s
  | .identify => Sys2Proof.Machine.execIdentify s
  | .alertClear value => Sys2Proof.Machine.execAlertClear value s
  | .persistWrite item ok => Sys2Proof.Machine.execPersistWrite item ok s
  | .lineCheck fault => Sys2Proof.Machine.execLineCheck fault s
  | .lineRecover => Sys2Proof.Machine.execLineRecover s
  | .nodeConflictRetry => Sys2Proof.Machine.execNodeConflictRetry s
  | .powerCapReached m => Sys2Proof.Machine.execPowerCapReached m s
  | .stackWriteRetry vx vy ok => Sys2Proof.Machine.execStackWriteRetry vx vy ok s

end Sys2Proof.Machine
end

