-- ==== Sys2Proof/Machine/Jtag.lean ====
section
/-!
DEFINITION. The JTAG port (R458, R459): the test access port of IEEE 1149.1, which the board clocks. What the spec does not give of it is
PRESUMED from that standard (assumption 131).
-/
namespace Sys2Proof.Machine

/-- The controller's next state at a rising edge of TCK. -/
def TapState.next (t : TapState) (tms : Bool) : TapState :=
  match t, tms with
  | .reset, true => .reset
  | .reset, false => .idle
  | .idle, true | .updateDr, true | .updateIr, true => .selectDr
  | .idle, false | .updateDr, false | .updateIr, false => .idle
  | .selectDr, true => .selectIr
  | .selectDr, false => .captureDr
  | .captureDr, true | .shiftDr, true => .exit1Dr
  | .captureDr, false | .shiftDr, false | .exit2Dr, false => .shiftDr
  | .exit1Dr, true | .exit2Dr, true => .updateDr
  | .exit1Dr, false | .pauseDr, false => .pauseDr
  | .pauseDr, true => .exit2Dr
  | .selectIr, true => .reset
  | .selectIr, false => .captureIr
  | .captureIr, true | .shiftIr, true => .exit1Ir
  | .captureIr, false | .shiftIr, false | .exit2Ir, false => .shiftIr
  | .exit1Ir, true | .exit2Ir, true => .updateIr
  | .exit1Ir, false | .pauseIr, false => .pauseIr
  | .pauseIr, true => .exit2Ir

/-- What an instruction of the JTAG port acts as: BYPASS, where the present SCOPE does not offer it. -/
def Security.jtag (x : Security) : JtagInstr → JtagInstr
  | .extest => if x.scope = 0 then .bypass else .extest
  | .intest => if x.scope = 0 then .bypass else .intest
  | .debug => if x.scope = 2 then .debug else .bypass
  | .other => .bypass
  | .bypass => .bypass
  | .idcode => .idcode
  | .sample => .sample

/-- The instruction that a code stands for: all ones is BYPASS in the standard, and the other codes are not given. -/
def jtagInstr (code : List Bool) : JtagInstr :=
  if code.all id then .bypass
  else match Config.jtagInstr code % 6 with
    | 0 => .idcode
    | 1 => .sample
    | 2 => .extest
    | 3 => .intest
    | 4 => .debug
    | _ => .other

/-- The bits that the data register of an instruction captures: one 0 of BYPASS, the code of IDCODE, and for the others what their chains hold
at the time. -/
def jtagCaptured (i : JtagInstr) (now : Nat) : List Bool :=
  match i with
  | .bypass | .other => [false]
  | .idcode => (List.range 32).map fun n => bitAt Config.jtagIdcode n
  | .sample => Config.jtagCapture 0 now
  | .extest => Config.jtagCapture 1 now
  | .intest => Config.jtagCapture 2 now
  | .debug => Config.jtagCapture 3 now

/-- A shift stage takes TDI at its far end. -/
def shiftIn (bits : List Bool) (tdi : Bool) : List Bool := bits.drop 1 ++ [tdi]

/-- A rising edge of TCK: what the present state does, then the next state, which updates an instruction or the boundary cells. -/
def Security.clocked (x : Security) (now : Nat) (tms tdi : Bool) : Security :=
  let p := x.port
  let i := x.jtag p.instr
  let p := match p.tap with
    | .captureIr => { p with irShift := true :: false :: List.replicate Config.jtagIrExtra false, tdo := none }
    | .shiftIr => { p with tdo := p.irShift.head?, irShift := shiftIn p.irShift tdi }
    | .captureDr => { p with drShift := jtagCaptured i now, tdo := none }
    | .shiftDr => { p with tdo := p.drShift.head?, drShift := shiftIn p.drShift tdi }
    | .reset | .idle | .selectDr | .exit1Dr | .pauseDr | .exit2Dr | .updateDr
    | .selectIr | .exit1Ir | .pauseIr | .exit2Ir | .updateIr => { p with tdo := none }
  let t := p.tap.next tms
  let p := { p with tap := t }
  { x with port := match t with
    | .reset => { p with instr := .idcode }
    | .updateIr => { p with instr := jtagInstr p.irShift }
    | .updateDr => if [.sample, .extest, .intest].contains i then { p with boundary := p.drShift } else p
    | .idle | .selectDr | .captureDr | .shiftDr | .exit1Dr | .pauseDr | .exit2Dr
    | .selectIr | .captureIr | .shiftIr | .exit1Ir | .pauseIr | .exit2Ir => p }

/-- An edge of TCK while the service rail is up; TRST_N low resets the port. -/
def State.clockJtag (s : State) (trst tms tdi : Bool) : State :=
  if !s.power.serviceRail then s
  else { s with sec := if trst then s.sec.clocked s.now tms tdi else { s.sec with port := {} } }

end Sys2Proof.Machine
end

