-- ==== Sys2Proof/Machine/Idle.lean ====
section
/-!
DEFINITION. What happens while no command waits: a picosecond passes, sends, paced packets and transfers that waited go on, the links put their flits
on the lanes, the JTAG port is clocked, and the environment may disturb a memory (assumptions 3, 9, 117, 118).
-/
namespace Sys2Proof.Machine

/-- Bytes with bits flipped. -/
def flipBytes (n : Nat) (bs flips : List Byte) : List Byte := (List.range n).map fun i => bs.getD i 0 ^^^ flips.getD i 0

/-- The upset of a burst with more of its cells' bits flipped. -/
def BurstUpset.more (u : BurstUpset) (data : List Byte) (mark : Word) (parity : Bool) : BurstUpset :=
  { u with data := flipBytes 64 u.data data, mark := u.mark ^^^ mark, parity := u.parity || parity }

/-- The upset of a burst whose next read has more of its bits flipped. -/
def BurstUpset.moreOnce (u : BurstUpset) (data : List Byte) (mark : Word) : BurstUpset :=
  { u with onceData := flipBytes 64 u.onceData data, onceMark := u.onceMark ^^^ mark }

/-- A token with bits flipped on its link. -/
def Chunk.flipped (c : Chunk) (data : List Byte) (parity : BitVec 32) : Chunk :=
  { bytes := flipBytes c.bytes.length c.bytes data, parity := c.parity ^^^ parity }

/-- A disturbance takes effect on the memory it names (R123, R184, R229, R259, R260, R413, R419, R435). -/
def State.disturbed (s : State) (d : Config.Disturbance) : State :=
  match d with
  | .burst key data mark parity =>
    { s with bursts := smapPut s.bursts key ((smapGet {} s.bursts key).more data mark parity) }
  | .burstRead key data mark => { s with bursts := smapPut s.bursts key ((smapGet {} s.bursts key).moreOnce data mark) }
  | .writeRetry st => s.modStack st fun x => { x with retries := satInc x.retries }
  | .token tile key data parity =>
    s.modTile tile fun t => match smapFind t.inbox key with
      | some c => { t with inbox := smapPut t.inbox key (c.flipped data parity) }
      | none => t
  | .spad tile word double =>
    s.modTile tile fun t =>
      if double || t.upset1.contains word || t.upset2.contains word then
        { t with upset1 := t.upset1.filter (· ≠ word), upset2 := word :: t.upset2.filter (· ≠ word) }
      else { t with upset1 := word :: t.upset1 }
  | .store tile key => s.modTile tile fun t => { t with badParity := key :: t.badParity.filter (· ≠ key) }
  | .route chip =>
    { s with fabric := { s.fabric with badRoutes := chip :: s.fabric.badRoutes.filter (· ≠ chip) } }
  | .defect i crc =>
    { s with boot := { s.boot with fdr := s.boot.fdr.modify i fun d => { d with crc := crc } } }
  | .firmware c i data =>
    { s with boot := { s.boot with region := s.boot.region.modify c fun g => g.modify i fun x => { x with data := data } } }
  | .replay n i => if (s.port n).state.up then s.spoilReplay n i else s
  | .entryRead f => if f < 16 && s.hifUp && (s.func f).nextRing.isSome then s.noteDma f else s
  | .bufferRead f => if f < 16 then s.modFn f fun x => { x with bufferFails := true } else s
  | .rank p r => if p < 16 then s.modPas p fun x => { x with badRanks := r :: x.badRanks.filter (· ≠ r) } else s

/-- A link's flit time (R326): the next flit is put in line, and goes on the lanes. -/
def State.tickPort (s : State) (n : Nat) : State := (s.pumpPort n).modPort n fun x => x.tick s.now

/-- A picosecond passes on a package that no command reaches. -/
def State.idle (s : State) : State :=
  let s := { s with now := s.now + 1 }
  let s := match Config.disturb s.now with
    | some d => s.disturbed d
    | none => s
  let s := match Config.jtagPins s.now with
    | some (trst, tms, tdi) => s.clockJtag trst tms tdi
    | none => s
  let s := s.injectWaiting
  let s := (List.range 16).foldl (fun s p => if (s.pasture p).sending.isEmpty then s else s.runSends p) s
  let s := s.retryPaced
  let s := s.runXfers
  (List.range 20).foldl (fun s n => if (s.port n).state.up then s.tickPort n else s) s

end Sys2Proof.Machine
end

