-- ==== Sys2Proof/Safety.lean ====
section
/-!
DEFINITION. What a safe step is, and the invariants of the whole package that statements are made of.
-/
namespace Sys2Proof.Machine

/-- The step at a state neither faults nor is refused. -/
def Safe (s : State) : Prop := ∃ t, step s = .next t

/-- Every byte memory is in canonical form: host memory, the stacks, and the scratchpad of every listed tile. -/
def State.MemWf (s : State) : Prop :=
  Memory.wf s.hostMem = true ∧ Memory.wf s.stackMem = true ∧ ∀ kt ∈ s.tiles, Memory.wf kt.2.spad = true

/-- Pastures do not overlap (R33): no virtual column lies in two enabled pastures of P0 to P15. -/
def State.Disjoint (s : State) : Prop :=
  ∀ p q vx, p < 16 → q < 16 → s.holdsCol p vx = true → s.holdsCol q vx = true → p = q

/-- What no command changes: the facts of manufacture, the queue of waiting commands, and the time. -/
def State.SameFrame (s t : State) : Prop := t.facts = s.facts ∧ t.pending = s.pending ∧ t.now = s.now

end Sys2Proof.Machine
end

