-- ==== Sys2Proof/WellFormed.lean ====
section
/-!
DEFINITION. Which operands of a command stand for something the hardware can be given.
-/
namespace Sys2Proof

/-- A fabric packet holds at most 192 data bytes, in multiples of 64 (R344). -/
def FabPacket.wf (p : FabPacket) : Bool := p.data.length ≤ 192 && p.data.length % 64 == 0

/-- A start-up failure names a unit of the die: a port of R323, or a tile of 68 columns and 40 rows (R12). -/
def BistFailure.wf (f : BistFailure) : Bool :=
  if f.isPort then f.px.toNat < 20 else f.px.toNat < 68 && f.py.toNat < 40

/-- A codeword has 544 symbols, each in error or not (R325). -/
def FlitReception.wf (r : FlitReception) : Bool := r.errors.all (· < 544) && decide r.errors.Nodup

/-- An image carries a tile firmware image of 16 segments of 4 KiB (R418), and a key and a signature of 64 bytes (R446). -/
def ImageVerdict.wf (v : ImageVerdict) : Bool := v.tileFw.length == 65536 && v.key.length == 64 && v.signature.length == 64

/-- The images of step 2 are. -/
def ShepherdVerdict.wf (v : ShepherdVerdict) : Bool := v.slotA.wf && v.slotB.wf && v.host.wf

/-- A segment arrives with 4 KiB (R418). -/
def FetchUpset.wf (u : FetchUpset) : Bool := u.received.all fun g => g.data.length == 4096

/-- The segments of both passes of step 9 do. -/
def FirmwareVerdict.wf (v : FirmwareVerdict) : Bool := (v.first ++ v.again).all FetchUpset.wf

/-- The well-formed commands. A datagram is multicast as its destination's address says (R470). Operand types already bound coordinates,
pastures, ports, stacks and rings; the checks here are the rest. -/
def Instr.wellFormed : Instr → Bool
  | .svcData _ p _ => p.wf
  | .svcAck _ p => p.wf
  | .linkFlitReceive _ raw r => raw.length == 256 && r.wf
  | .linkIdentify _ record => record.all fun b => b.length == 64
  | .bootBist fs => fs.all BistFailure.wf
  | .bootStepRequest6 _ fs => fs.all BistFailure.wf
  | .unparkDone _ fs v => fs.all BistFailure.wf && v.wf
  | .bootShepherdVerify v => v.wf
  | .bootStepRequest2 _ v => v.wf
  | .bootTileFw v => v.wf
  | .bootStepRequest9 _ v => v.wf
  | .warmComputeReset w | .flrPf0 w | .perstN w | .hotReset w | .pcieLinkDown w => w.firmware.wf
  | .flrVf fn => fn ≠ 0
  | .mgtDatagram e multicast _ => multicast == decide (e.dstAddr.toNat / 2 ^ 120 = 0xFF)
  | _ => true

end Sys2Proof
end

