-- ==== Sys2Proof/Certificates/Slice0/Obligations.lean ====
section
/-!
DEFINITION. The statements for the provers, family by family. Hypotheses that several statements share are named Bool functions
in Sys2Proof.Claims; every conclusion is about Machine.exec or Machine.step, or about the shared operations they are written over.
-/
open Sys2Proof Sys2Proof.Machine

/-! ## The step, reset and what holds of every command -/

/-- A step with a command waiting is that command's effect on the state with the rest of the queue. -/
def Obligations.StepRunsTheFrontCommand : Prop :=
  ∀ (c : Instr) (rest : List Instr) (s : State), s.pending = c :: rest → step s = exec c { s with pending := rest }

/-- With no command waiting the block idles (the model's choice, log entries 3 and 118): 1 ps passes, the queue stays empty and the
facts of manufacture as they are. -/
def Sys2Proof.Claims.IdleStepPassesOnePicosecond : Prop :=
  ∀ s : State, s.pending = [] →
    step s = .next s.idle ∧ s.idle.now = s.now + 1 ∧ s.idle.pending = [] ∧ s.idle.facts = s.facts

/-- The register values the spec's tables give for a cold reset, in every pasture, function, stack and port, read at reset. -/
def Sys2Proof.Claims.ResetRegisterValues : Prop :=
  ∀ n : Nat,
    let x := State.reset.pasture n
    let f := State.reset.func n
    (x.stallLimit = 1000 ∧ x.target = 1600 ∧ x.paceLimit = 1800 ∧ x.paceInForce = 1800 ∧ x.log = 0) ∧
    (x.spdCeThresh = 64 ∧ x.tallyMode = 0 ∧ x.strict = true ∧ x.stkCeThresh = 256) ∧
    (x.sendWd = 100 ∧ x.reqRate = 1024 ∧ x.ffRate = 4096 ∧ x.bwVx = 0 ∧ x.bwVy = 39) ∧
    (x.creditUs = 50 ∧ x.doneUs = 200 ∧ x.e2eWin = 16 ∧ x.trackIdleUs = 1000 ∧ x.droveUs = 50) ∧
    (x.ringW = 16 ∧ x.cnwW = 16 ∧ x.svcW = 16 ∧ x.pcieW = 16 ∧ x.marginNs = 2000 ∧ x.wptDegrade = 2) ∧
    (x.enable = false ∧ x.stopped = false ∧ x.beating = false ∧ x.loaded = false) ∧
    (f.cqPhase = true ∧ f.cqLog2 = 8 ∧ f.cqHead = 0 ∧ f.cqTail = 0 ∧ f.evtLost = 0) ∧
    ((smapGet ({} : Vec) f.vecs n).count = 1 ∧ (smapGet ({} : Vec) f.vecs n).timeUs = 0) ∧
    ((State.reset.stack n).ceCount = 0 ∧ (State.reset.tile n).openMask = 0xFF ∧ (State.reset.tile n).ltv = 1) ∧
    ((State.reset.port n).laneThresh = 200000 ∧ (State.reset.port n).calAuto = true ∧ (State.reset.port n).ordOk = true) ∧
    (State.reset.ownAuto = true ∧ State.reset.fabric.ordHoldUs = 200 ∧ State.reset.fabric.ordDrain = 5) ∧
    (State.reset.west.state = .parked ∧ State.reset.east.state = .parked ∧ State.reset.boot.ready = false) ∧
    State.reset.pending = []

/-- At reset every byte memory is in canonical form and no two pastures share a column. -/
def Sys2Proof.Claims.ResetMeetsTheInvariants : Prop := State.reset.MemWf ∧ State.reset.Disjoint

/-- The reset state: the spec's register values, canonical memories, and pastures apart. The registers are read in State.reset, whose other values are
the model's choice (log entries 5, 7 and 100). -/
def Obligations.TheResetState : Prop :=
  Claims.ResetRegisterValues ∧ Claims.ResetMeetsTheInvariants

/-- Every step keeps every byte memory in canonical form, from every state in which they are: the host's memory, the stacks and every tile's
scratchpad. The form is the model's choice (log entry 7). -/
def Obligations.MemoriesStayCanonical : Prop := ∀ s t : State, s.MemWf → step s = .next t → t.MemWf

/-- Every step keeps pastures apart: from every state in which no virtual column is in two enabled pastures, to another (R33). -/
def Obligations.PasturesNeverOverlap : Prop := ∀ s t : State, s.Disjoint → step s = .next t → t.Disjoint

/-- No well-formed command ends in a fault or a refusal, in any state. -/
def Sys2Proof.Claims.NoWellFormedCommandStops : Prop :=
  ∀ (c : Instr) (s : State), c.wellFormed = true → ∃ t, exec c s = .next t

/-- No command changes the facts of manufacture, the queue of waiting commands or the time. -/
def Sys2Proof.Claims.CommandsKeepFactsQueueAndTime : Prop := ∀ (c : Instr) (s t : State), exec c s = .next t → s.SameFrame t

/-- With no command waiting 1 ps passes, with what the clock makes due in it, while the queue and the facts of manufacture stay (the model's choice, log
entries 3 and 118); no command changes the time, the queue or the facts. -/
def Obligations.TimePassesOnlyWhenIdle : Prop :=
  Claims.IdleStepPassesOnePicosecond ∧ Claims.CommandsKeepFactsQueueAndTime

/-- The only command that ends in a fault is a function-level reset of function 0, which is no virtual function. -/
def Sys2Proof.Claims.FaultsOnlyOnPf0AsVf : Prop :=
  ∀ (c : Instr) (s : State), exec c s = .fault .illFormed ↔ c = .flrVf 0

/-- No well-formed command ends in a fault or a refusal; the only one that ever does is a function-level reset of function 0 as a VF. -/
def Obligations.WhichCommandsStop : Prop :=
  Claims.NoWellFormedCommandStops ∧ Claims.FaultsOnlyOnPf0AsVf

/-- Bytes written to host memory read back, and every other byte reads as before. Addresses have 64 bits. Host memory as a field of State is the
model's choice (log entry 11). -/
def Obligations.HostMemoryReadsBack : Prop :=
  ∀ (s : State) (a : Nat) (bs : List Byte), Memory.wf s.hostMem = true → a + bs.length ≤ 2 ^ 64 →
    (s.writeHost a bs).readHost a bs.length = bs ∧
    ∀ b : Nat, b < 2 ^ 64 → (b < a ∨ a + bs.length ≤ b) → (s.writeHost a bs).readHost b 1 = s.readHost b 1

/-- The data network's neighbour relation is symmetric with respect to row, and a hop between any two rows is an ordinary hop:
it exists and crosses no stage. In particular the stitch seam between rows 19 and 20 is an ordinary hop (R62). -/
def Sys2Proof.Claims.StitchSeamIsAnOrdinaryHop : Prop :=
  ∀ (s : State) (vx vy : Nat), vx < 64 → vy < 39 →
    s.neighbour (tileKey vx vy) .south = some (tileKey vx (vy + 1), false) ∧
    s.neighbour (tileKey vx (vy + 1)) .north = some (tileKey vx vy, false)

/-! ## The beat -/

/-- Tile k of pasture p completes its beat in progress as R43 says, with no descriptor due, no fault in the beat and no stack
read landing in the beat that reads it. -/
def Sys2Proof.Claims.beatReady (s : State) (k p : Nat) : Bool :=
  decide (s.pasOf (keyVx k) = some p) && s.live k && s.mayComplete k && !s.issueDue k
    && (s.beatFaults k p (s.tile k).beat).isEmpty && (s.tile k).selfDue.isNone

/-- A completed beat: the state after it, with the run's declared length checked (R316). -/
def Sys2Proof.Claims.beatDone (s : State) (k p : Nat) : State :=
  (s.completeBeat k p (s.tile k).beat).checkLength k p

/-- BEAT_COMPLETE completes the beat in progress: the next beat is in progress, the gate is closed, and the time is noted. -/
def Sys2Proof.Claims.BeatCompletes : Prop :=
  ∀ (vx : Vx) (vy : Vy) (s : State) (p : Nat), Claims.beatReady s (tileKey vx vy) p = true →
    exec (.beatComplete vx vy) s = .next (Claims.beatDone s (tileKey vx vy) p) ∧
    ((Claims.beatDone s (tileKey vx vy) p).tile (tileKey vx vy)).beat = (s.tile (tileKey vx vy)).beat + 1 ∧
    ((Claims.beatDone s (tileKey vx vy) p).tile (tileKey vx vy)).gateOpen = false ∧
    ((Claims.beatDone s (tileKey vx vy) p).tile (tileKey vx vy)).doneTime = s.now

/-- A tile that may not complete its beat completes none: a closed gate, a hold, a token not held or a pasture that does not beat
keep the state as it is. -/
def Sys2Proof.Claims.BeatWaitsForItsConditions : Prop :=
  ∀ (vx : Vx) (vy : Vy) (s : State), s.mayComplete (tileKey vx vy) = false → exec (.beatComplete vx vy) s = .next s

/-- The data an ITEM_ARRIVAL brings: every late landing of the beat in progress is there, and the hold's end is noted. -/
def Sys2Proof.Claims.itemThere (s : State) (k : Nat) : State :=
  (s.modTile k fun t => { t with
    landings := t.landings.map fun l => if l.due = t.beat && l.arrival = .late then { l with arrival := .ready } else l
    holdEnd := some s.now }).noteHoldsAt k

/-- The timers and arrivals of a beat: the awaited item completes the held beat (R46); the pace gate opens 1/P after a completed
beat (R55); the stall watchdog stops the pasture (R49). -/
def Sys2Proof.Claims.BeatEvents : Prop :=
  (∀ (vx : Vx) (vy : Vy) (s : State) (p : Nat), s.live (tileKey vx vy) = true →
    ((s.tile (tileKey vx vy)).landings.any fun l =>
      decide (l.due = (s.tile (tileKey vx vy)).beat) && decide (l.arrival = .late)) = true →
    Claims.beatReady (Claims.itemThere s (tileKey vx vy)) (tileKey vx vy) p = true →
    exec (.itemArrival vx vy) s = .next (Claims.beatDone (Claims.itemThere s (tileKey vx vy)) (tileKey vx vy) p)) ∧
  (∀ (vx : Vx) (vy : Vy) (s : State) (p : Nat), s.pasOf vx = some p → s.live (tileKey vx vy) = true →
    (s.tile (tileKey vx vy)).gateOpen = false →
    usT ≤ (s.now - (s.tile (tileKey vx vy)).doneTime) * s.paceOf p →
    exec (.paceGateOpen vx vy) s =
      .next (s.putTile (tileKey vx vy) { s.tile (tileKey vx vy) with gateOpen := true })) ∧
  (∀ (p : PasId) (s : State), (s.pasture p).beating = true → (s.pasture p).stopped = false → (s.pasture p).waitSince = none →
    (s.pasture p).stallLimit.toNat * usT + (s.pasture p).waitTime ≤ s.now - (s.pasture p).lastBeatTime →
    exec (.stallWatchdog p) s = .next (s.stopPasture p St.SEQ_STALL_TIMEOUT))

/-- Beats: completion, the conditions it waits for, and the timers and arrivals of a beat. That the watchdog takes every pasture that beats as a
running one (log entry 18), and the beat at which a run is too long (log entry 39), are the model's choices. -/
def Obligations.Beats : Prop :=
  Claims.BeatCompletes ∧ Claims.BeatWaitsForItsConditions ∧ Claims.BeatEvents

/-- A fault stops a pasture once: STOPPED is set, it no longer beats, the time and that nobody asked for it are kept, ALERT
cause 0 is set; no other pasture's beats or stop state change. A pasture already stopped keeps its first cause. -/
def Sys2Proof.Claims.StopOfAPasture : Prop :=
  (∀ (s : State) (p : Nat) (st : Status), (s.pasture p).stopped = true → s.stopPasture p st = s) ∧
  (∀ (s : State) (p q : Nat) (st : Status), (s.pasture p).stopped = false →
    ((s.stopPasture p st).pasture p).stopped = true ∧ ((s.stopPasture p st).pasture p).beating = false ∧
    ((s.stopPasture p st).pasture p).stopTime = s.now ∧ ((s.stopPasture p st).pasture p).unplanned = true ∧
    (s.stopPasture p st).rel.alert = s.rel.alert ||| 1 ∧ (s.stopPasture p st).tiles = s.tiles ∧
    (q ≠ p → (s.stopPasture p st).pasture q = s.pasture q))

/-- A stop's cause reaches the runs (R393, R432): the run under way fails with the stopping status as the CAUSE of its completion, the runs behind it with
ST_HOST_PASTURE_STOPPED, and CAUSE is bytes 10 and 11 of the completion entry. -/
def Sys2Proof.Claims.StopsFailTheRuns : Prop :=
  ∀ (s : State) (p : Nat) (st : Status) (r : Run) (rest : List Run) (c : Completion) (phase : Bool) (now : Word),
    let opened := ((s.endStall p).modPas p fun x =>
      { x with stopped := true, beating := false, stopTime := s.now, unplanned := true, faultStop := true }).alert 0
    (∃ (t : State) (n : Nat), s.failRun p r st = t.complete r.id.fn (r.completion p (t.pasture p) St.HOST_RUN_FAILED st n)) ∧
    ((s.pasture p).stopped = false → (s.pasture p).runs = r :: rest → r.stage = .running →
      (∀ o ∈ rest, o.stage = .queued ∨ o.stage = .ingressed) →
      s.stopPasture p st = (rest.foldl (fun s o => s.failRun p o St.HOST_PASTURE_STOPPED) (opened.failRun p r st)).modPas p fun x =>
        { x with runs := [] }) ∧
    slice (c.bytes phase now) 8 4 = bytesOf 2 c.status.toNat ++ bytesOf 2 c.cause.toNat

/-- Fault f has a status and the lowest address of a list of accesses. -/
def Sys2Proof.Claims.LowestOf (f : SpadFault) (st : Status) (as : List Access) : Prop :=
  f.status = st ∧ (∃ a ∈ as, f.addr = a.addr) ∧ ∀ a ∈ as, f.addr ≤ a.addr

/-- Which scratchpad fault a beat reports (R116, R503): an address outside the tile, a bank collision, a write to a protected line, an uncorrectable word, a
tally miss, in that order, and of each kind that of the lowest address. -/
def Sys2Proof.Claims.ScratchpadFaultOrder : Prop :=
  ∀ (t : Tile) (mode : BitVec 2) (accs : List Access) (f : SpadFault),
    let salt := t.salt.toNat
    let far := accs.filter Access.outside
    let clash := (collisions salt accs).flatMap fun ab => [ab.1, ab.2]
    let kept := accs.filter fun a => (a.write || a.clear) && t.protectedLine a.line
    let bad := accs.filter fun a => !a.clear && t.doubleError (a.phys salt) (checkedWords a.write a.data)
    let missed := if mode = 2 then accs.filter t.misses else []
    (t.spadFault mode accs = none ↔ far = [] ∧ clash = [] ∧ kept = [] ∧ bad = [] ∧ missed = []) ∧
    (t.spadFault mode accs = some f →
      (far ≠ [] → Claims.LowestOf f St.SPD_ADDR_RANGE far) ∧
      (far = [] → clash ≠ [] → Claims.LowestOf f St.SPD_BANK_COLLISION clash) ∧
      (far = [] → clash = [] → kept ≠ [] → Claims.LowestOf f St.SPD_WRITE_PROTECT kept) ∧
      (far = [] → clash = [] → kept = [] → bad ≠ [] → Claims.LowestOf f St.SPD_ECC_UNCORR bad) ∧
      (far = [] → clash = [] → kept = [] → bad = [] → Claims.LowestOf f St.SPD_TALLY_MISS missed))

/-- The faults a beat meets (R431, R433, R503, R236, R237, R229): the tile's units record theirs and one of them stops its pasture, while nothing else of the beat
takes effect; the scratchpad's is among them; a parity error and a chunk of another size stop the pasture at a port, and under STRICT an orphan
and an empty slot; without STRICT these only count. -/
def Sys2Proof.Claims.FaultsOfABeat : Prop :=
  ∀ (vx : Vx) (vy : Vy) (s : State) (p d : Nat),
    let k := tileKey vx vy
    let t := s.tile k
    let fs := s.beatFaults k p t.beat
    let ports := s.portFaults k p t.beat
    let counts := s.modTile k fun t => { t with orphan := satAdd t.orphan ports.2.1, empty := satAdd t.empty ports.2.2 }
    s.pasOf vx = some p → s.live k = true → s.mayComplete k = true → s.issueDue k = false →
    (fs ≠ [] → ∃ f ∈ fs, exec (.beatComplete vx vy) s =
      .next (((fs.foldl (fun s f => s.recordFault k p f) counts).draw.2).stopTile k f.status)) ∧
    (fs = [] → t.selfDue = none → t.starts = none →
      ∃ u, exec (.beatComplete vx vy) s = .next u ∧ (u.tile k).orphan = satAdd t.orphan ports.2.1 ∧ (u.tile k).empty = satAdd t.empty ports.2.2) ∧
    (∀ f, t.spadFault (s.pasture p).tallyMode (t.accesses t.beat) = some f → .spad f ∈ fs) ∧
    ((d, .parity) ∈ t.portEvents t.beat → .dnw St.DNW_LINK_PARITY d ∈ fs) ∧
    ((d, .size) ∈ t.portEvents t.beat → .dnw St.DNW_CHUNK_SIZE d ∈ fs) ∧
    ((s.pasture p).strict = true → ((d, .orphan) ∈ t.portEvents t.beat → .dnw St.DNW_ORPHAN d ∈ fs) ∧
      ((d, .empty) ∈ t.portEvents t.beat → .dnw St.DNW_EMPTY d ∈ fs)) ∧
    ((s.pasture p).strict = false → .dnw St.DNW_ORPHAN d ∉ fs ∧ .dnw St.DNW_EMPTY d ∉ fs) ∧
    ports.2.1 = (t.portEvents t.beat).countP fun e => decide (e.2 = .orphan)

/-- What a fault does (R431 to R433, R503, R393): which faults a beat meets, the stop of the pasture, and the CAUSE its runs fail with. Which of a
beat's faults is the cause (log entry 16), that a faulting beat does nothing else (32), the order of signed addresses (29) and BEATS of a failed run
(14) are the model's choices. -/
def Obligations.FaultsStopTheirPasture : Prop :=
  Claims.FaultsOfABeat ∧ Claims.ScratchpadFaultOrder ∧ Claims.StopOfAPasture ∧ Claims.StopsFailTheRuns

/-! ## Issue of descriptors -/

/-- The words of the slot the tile's issue pointer names. -/
def Sys2Proof.Claims.words (s : State) (k : Nat) : List Word := (s.tile k).slotWords (s.tile k).ip.toNat

/-- The tile's pasture runs, a descriptor is due at the beat in progress, and no check at its issue fails (R188, R192, R504). -/
def Sys2Proof.Claims.issues (s : State) (k : Nat) : Bool :=
  s.live k && s.issueDue k && (s.issueFault k (Claims.words s k)).isNone

/-- A descriptor with an opcode issues, and its predicate lets it act (R213). -/
def Sys2Proof.Claims.acting (s : State) (k op : Nat) : Bool :=
  Claims.issues s k && decide (opOf (Claims.words s k) = op) && (s.tile k).acts (Claims.words s k)

/-- The tile after the issue alone: the pointer, the issue beat, ISSUED, and the reference beat of all but a LOAD move on. -/
def Sys2Proof.Claims.issuedTile (s : State) (k : Nat) : Tile := (s.tile k).issued_ (Claims.words s k)

/-- Counters, comparators, reference beat, overlay and halt: what each immediate descriptor that acts changes in its tile. Nothing
else in the package changes. -/
def Sys2Proof.Claims.ImmediateDescriptors : Prop :=
  ∀ (vx : Vx) (vy : Vy) (s : State),
    let k := tileKey vx vy
    let ws := Claims.words s k
    let t := s.tile k
    (Claims.acting s k 0x22 = true → exec (.ctrset vx vy) s = .next (s.putTile k
      { Claims.issuedTile s k with ctrs := t.ctrs.set (dField ws 1 63 61) (BitVec.ofNat 24 (dField ws 1 23 0)) })) ∧
    (Claims.acting s k 0x23 = true → dBit ws 1 60 = true → exec (.ctradd vx vy) s = .next (s.putTile k
      { Claims.issuedTile s k with ctrs := t.ctrs.set (dField ws 1 63 61) (ctrSum (t.ctr (dField ws 1 63 61)) (t.ctr (dField ws 1 59 57)) (BitVec.ofNat 24 (dField ws 1 47 24))) })) ∧
    (Claims.acting s k 0x23 = true → dBit ws 1 60 = false → exec (.ctradd vx vy) s = .next (s.putTile k
      { Claims.issuedTile s k with ctrs := t.ctrs.set (dField ws 1 63 61) (ctrSum (t.ctr (dField ws 1 63 61)) (BitVec.ofNat 24 (dField ws 1 23 0)) (BitVec.ofNat 24 (dField ws 1 47 24))) })) ∧
    (Claims.acting s k 0x24 = true → dBit ws 1 55 = false → exec (.cmpset vx vy) s = .next (s.putTile k
      { Claims.issuedTile s k with cond := t.cond.set (dField ws 1 63 62) (relHolds (dField ws 1 61 59) (t.ctr (dField ws 1 58 56)).toNat (dField ws 1 23 0)) })) ∧
    (Claims.acting s k 0x24 = true → dBit ws 1 55 = true → exec (.cmpset vx vy) s = .next (s.putTile k
      { Claims.issuedTile s k with cond := t.cond.set (dField ws 1 63 62) (relHolds (dField ws 1 61 59) (t.ctr (dField ws 1 58 56)).toNat (t.ctr (dField ws 1 54 52)).toNat) })) ∧
    (Claims.issues s k = true → opOf ws = 0x25 → exec (.nopb vx vy) s = .next (s.putTile k
      { Claims.issuedTile s k with rho := t.beat + t.countOf ws })) ∧
    (Claims.acting s k 0x26 = true → exec (.overlay vx vy) s = .next (s.putTile k
      { Claims.issuedTile s k with overlays := t.overlays ++ [{ go := t.beat, dstSlot := dField ws 1 63 56, count := dField ws 1 55 47, src := dField ws 1 20 0 }] })) ∧
    (Claims.acting s k 0x27 = true → exec (.halt vx vy) s = .next (s.putTile k { Claims.issuedTile s k with halting := true }))

/-- Counter addition: the 24-bit sum, less a non-zero wrap that it reaches (R213). It stays below the wrap when both operands do. -/
def Sys2Proof.Claims.CounterSumWraps : Prop :=
  ∀ c a w : BitVec 24,
    (w = 0 → (ctrSum c a w).toNat = (c.toNat + a.toNat) % 2 ^ 24) ∧
    (c.toNat + a.toNat < 2 ^ 24 → c.toNat + a.toNat < w.toNat → (ctrSum c a w).toNat = c.toNat + a.toNat) ∧
    (c.toNat + a.toNat < 2 ^ 24 → 0 < w.toNat → w.toNat ≤ c.toNat + a.toNat →
      (ctrSum c a w).toNat = c.toNat + a.toNat - w.toNat) ∧
    (c.toNat + a.toNat < 2 ^ 24 → c.toNat < w.toNat → a.toNat < w.toNat → (ctrSum c a w).toNat < w.toNat)

/-- Loops (R216): LOOP pushes an entry, or with a count of 0 jumps behind its ENDLOOP; ENDLOOP goes back while iterations remain
and pops the entry after the last. -/
def Sys2Proof.Claims.LoopDescriptors : Prop :=
  ∀ (vx : Vx) (vy : Vy) (s : State) (e : LoopEntry),
    let k := tileKey vx vy
    let ws := Claims.words s k
    let t := s.tile k
    (Claims.issues s k = true → opOf ws = 0x20 → t.countOf ws ≠ 0 → t.loops.length < 4 →
      exec (.loop vx vy) s = .next (s.putTile k { Claims.issuedTile s k with
        loops := t.loops ++ [⟨t.ip + 1, BitVec.ofNat 8 (dField ws 1 55 48), BitVec.ofNat 24 (t.countOf ws)⟩] })) ∧
    (Claims.issues s k = true → opOf ws = 0x20 → t.countOf ws = 0 → opOf (t.slotWords (dField ws 1 55 48)) = 0x21 →
      exec (.loop vx vy) s = .next (s.putTile k { Claims.issuedTile s k with
        ip := BitVec.ofNat 8 (dField ws 1 55 48) + 1 })) ∧
    (Claims.issues s k = true → opOf ws = 0x21 → t.loops.getLast? = some e → e.endSlot = t.ip → e.remaining ≤ 1 →
      exec (.endloop vx vy) s = .next (s.putTile k { Claims.issuedTile s k with loops := t.loops.dropLast })) ∧
    (Claims.issues s k = true → opOf ws = 0x21 → t.loops.getLast? = some e → e.endSlot = t.ip → 1 < e.remaining →
      exec (.endloop vx vy) s = .next (s.putTile k { Claims.issuedTile s k with
        loops := t.loops.dropLast ++ [{ e with remaining := e.remaining - 1 }], ip := e.body }))

/-- The faults of a loop (R216): more than four nested loops, an ENDLOOP with no loop, an ENDLOOP at another slot. The tile stops its
pasture with the status, and TSQ_ERR records it with the slot, the opcode and the beat. -/
def Sys2Proof.Claims.LoopFaults : Prop :=
  ∀ (vx : Vx) (vy : Vy) (s : State) (e : LoopEntry),
    let k := tileKey vx vy
    let ws := Claims.words s k
    let t := s.tile k
    (Claims.issues s k = true → opOf ws = 0x20 → t.countOf ws ≠ 0 → 4 ≤ t.loops.length →
      exec (.loop vx vy) s = .next (s.seqFault k St.SEQ_LOOP_DEPTH t.ip.toNat 0x20)) ∧
    (Claims.issues s k = true → opOf ws = 0x21 → t.loops = [] →
      exec (.endloop vx vy) s = .next (s.seqFault k St.SEQ_LOOP_EMPTY t.ip.toNat 0x21)) ∧
    (Claims.issues s k = true → opOf ws = 0x21 → t.loops.getLast? = some e → e.endSlot ≠ t.ip →
      exec (.endloop vx vy) s = .next (s.seqFault k St.SEQ_LOOP_MATCH t.ip.toNat 0x21))

/-- The immediate descriptors that act, and loops with their faults. -/
def Obligations.ImmediatesAndLoops : Prop :=
  Claims.ImmediateDescriptors ∧ Claims.CounterSumWraps ∧ Claims.LoopDescriptors ∧ Claims.LoopFaults

/-- A descriptor whose predicate does not let it act issues and does nothing else: the immediates that may be predicated, LOADs, and
the window, fold, flag and wait descriptors (R213). -/
def Sys2Proof.Claims.PredicatedOffOnlyIssues : Prop :=
  ∀ (vx : Vx) (vy : Vy) (s : State),
    let k := tileKey vx vy
    let op := opOf (Claims.words s k)
    let act := flagAct (Claims.words s k)
    let only (c : Instr) : Prop := exec c s = .next (s.putTile k (Claims.issuedTile s k))
    Claims.issues s k = true → (s.tile k).acts (Claims.words s k) = false → (s.pasOf vx).isSome = true →
      (op = 0x22 → only (.ctrset vx vy)) ∧ (op = 0x23 → only (.ctradd vx vy)) ∧ (op = 0x24 → only (.cmpset vx vy)) ∧
      (op = 0x26 → only (.overlay vx vy)) ∧ (op = 0x27 → only (.halt vx vy)) ∧
      (isLoad (Claims.words s k) = true → only (.descLoad vx vy)) ∧
      (op = 0x14 → only (.winopen vx vy)) ∧ (op = 0x15 → only (.winclose vx vy)) ∧ (op = 0x18 → only (.wait vx vy)) ∧
      (op = 0x19 → only (.fold vx vy)) ∧
      (op = 0x1A → act = 0 → only (.flagSet vx vy)) ∧ (op = 0x1A → act = 1 → only (.flagClear vx vy)) ∧
      (op = 0x1A → act = 2 → only (.flagHoldSet vx vy)) ∧ (op = 0x1A → act = 3 → only (.flagHoldClear vx vy))

/-- A descriptor that fails a check at its issue (an opcode of none, the order of issue, its structure, a unit the tile has not, a
word with wrong parity, an overlay not yet written) is a fault: it stops the pasture and TSQ_ERR records it (R504, R433). The command is
that of the descriptor's opcode; of an opcode of none, BEAT_COMPLETE. -/
def Sys2Proof.Claims.IssueFaultsStop : Prop :=
  ∀ (vx : Vx) (vy : Vy) (s : State) (st : Status),
    let k := tileKey vx vy
    let ws := Claims.words s k
    let stops (c : Instr) : Prop := exec c s = .next (s.seqFault k st (s.tile k).ip.toNat (opOf ws))
    s.live k = true → s.issueDue k = true → s.issueFault k ws = some st →
      (isLoad ws = true → stops (.descLoad vx vy)) ∧ (opOf ws = 0x20 → stops (.loop vx vy)) ∧
      (opOf ws = 0x21 → stops (.endloop vx vy)) ∧ (opOf ws = 0x22 → stops (.ctrset vx vy)) ∧
      (opOf ws = 0x25 → stops (.nopb vx vy)) ∧ (opOf ws = 0x14 → stops (.winopen vx vy)) ∧
      (opOf ws = 0x19 → stops (.fold vx vy)) ∧
      (opValid (opOf ws) = false → s.mayComplete k = true → stops (.beatComplete vx vy))

/-- LOAD (R190): the unit's shadow configuration takes the descriptor's words and the list of its records, to be read one per beat;
a LOAD before the last one has read all its records is ST_SEQ_LOAD_OVERLAP. -/
def Sys2Proof.Claims.LoadFillsTheShadow : Prop :=
  ∀ (vx : Vx) (vy : Vy) (s : State),
    let k := tileKey vx vy
    let ws := Claims.words s k
    let t := s.tile k
    Claims.issues s k = true → isLoad ws = true → t.acts ws = true →
      ((smapGet {} t.shadows (shadowUnit ws)).todo = [] →
        exec (.descLoad vx vy) s = .next (s.putTile k { Claims.issuedTile s k with
          shadows := smapPut t.shadows (shadowUnit ws)
            { opcode := BitVec.ofNat 8 (opOf ws), words := ws, todo := t.loadRecs ws, slot := t.ip.toNat, loadBeat := t.beat,
              nRec := (t.loadRecs ws).length } })) ∧
      ((smapGet {} t.shadows (shadowUnit ws)).todo ≠ [] →
        exec (.descLoad vx vy) s = .next (s.seqFault k St.SEQ_LOAD_OVERLAP t.ip.toNat (opOf ws)))

/-! ## GO -/

/-- A GO of an opcode acts: it issues, its unit's shadow configuration is that opcode's and complete, and no record asks for hash
mode 3 (R191, R193). -/
def Sys2Proof.Claims.goReady (s : State) (k op : Nat) (sh : Shadow) : Bool :=
  Claims.acting s k op && decide (actionOf (Claims.words s k) = 2) && decide ((s.tile k).goShadow (Claims.words s k) = some sh)
    && sh.hashFault.isNone

/-- The job a GO starts: the shadow's words and records, with the counters of the GO's beat or of the early access (R191). -/
def Sys2Proof.Claims.job (s : State) (k : Nat) (sh : Shadow) : Job := (s.tile k).goJob (Claims.words s k) sh

/-- The state after a GO: the descriptor has issued and its unit has the job. -/
def Sys2Proof.Claims.started (s : State) (k : Nat) (sh : Shadow) (start : Tile → Job → Tile) : State :=
  s.putTile k (start (Claims.issuedTile s k) (Claims.job s k sh))

/-- GO MATMUL and GO CONV start the matrix unit when it is free and the configuration is in its rules (R156, R160). -/
def Sys2Proof.Claims.MatrixGoStarts : Prop :=
  ∀ (vx : Vx) (vy : Vy) (s : State) (sh : Shadow),
    let k := tileKey vx vy
    (s.tile k).mxBusy sh = none → (s.tile k).mxFault (Claims.job s k sh) = none →
      (Claims.goReady s k 0x01 sh = true → exec (.matmul vx vy) s = .next (Claims.started s k sh Tile.mxStart)) ∧
      (Claims.goReady s k 0x02 sh = true → exec (.conv vx vy) s = .next (Claims.started s k sh Tile.mxStart))

/-- The commands of VECOP with their OP codes (R170). -/
def Sys2Proof.Claims.vecops : List (Nat × (Vx → Vy → Instr)) :=
  [(0x01, .vecopAdd), (0x02, .vecopSub), (0x03, .vecopMul), (0x04, .vecopFma), (0x05, .vecopMin), (0x06, .vecopMax),
   (0x07, .vecopAbs), (0x08, .vecopNeg), (0x09, .vecopCvt), (0x0A, .vecopPairrot), (0x10, .vecopRsum), (0x11, .vecopRssq),
   (0x12, .vecopRmax), (0x13, .vecopRargmax), (0x20, .vecopExp2), (0x21, .vecopLog2), (0x22, .vecopRcp), (0x23, .vecopRsqrt),
   (0x24, .vecopTanh), (0x25, .vecopSigmoid)]

/-- GO VECOP, QUANT and TOPK start the vector unit when it is free and the configuration is in its rules: each VECOP command is the
one whose OP the shadow holds, QUANT and its dequantisation are told apart by DIR (R170, R176 to R178, R181). -/
def Sys2Proof.Claims.VectorGoStarts : Prop :=
  ∀ (vx : Vx) (vy : Vy) (s : State) (sh : Shadow),
    let k := tileKey vx vy
    (s.tile k).vxBusy sh = none → (Claims.job s k sh).vxFault = none →
      (∀ oc ∈ Claims.vecops, Claims.goReady s k 0x03 sh = true → (vxCfg sh.words).op = oc.1 →
        exec (oc.2 vx vy) s = .next (Claims.started s k sh Tile.vxStart)) ∧
      (Claims.goReady s k 0x04 sh = true → (vxCfg sh.words).dequant = false →
        exec (.quant vx vy) s = .next (Claims.started s k sh Tile.vxStart)) ∧
      (Claims.goReady s k 0x04 sh = true → (vxCfg sh.words).dequant = true →
        exec (.quantDequantise vx vy) s = .next (Claims.started s k sh Tile.vxStart)) ∧
      (Claims.goReady s k 0x05 sh = true → exec (.topk vx vy) s = .next (Claims.started s k sh Tile.vxStart))

/-- GO MOVE, RECV, COPY (with or without TALLY_CLEAR), GATHER, SCATTER, STKRD and STKWR start their units (R204 to R208, R130). -/
def Sys2Proof.Claims.TransferGoStarts : Prop :=
  ∀ (vx : Vx) (vy : Vy) (s : State) (sh : Shadow),
    let k := tileKey vx vy
    (Claims.goReady s k 0x08 sh = true → (s.tile k).mrBusy sh.words 0x08 = none → s.mrConfig k (Claims.job s k sh) = none →
      exec (.move vx vy) s = .next (Claims.started s k sh Tile.moveStart)) ∧
    (Claims.goReady s k 0x09 sh = true → (s.tile k).mrBusy sh.words 0x09 = none → s.mrConfig k (Claims.job s k sh) = none →
      exec (.recv vx vy) s = .next (Claims.started s k sh Tile.recvStart)) ∧
    (Claims.goReady s k 0x0C sh = true → (s.tile k).mvBusy sh = none → (Claims.job s k sh).mvConfig = none →
      dBit sh.words 1 63 = false → exec (.copy vx vy) s = .next (Claims.started s k sh Tile.mvStart)) ∧
    (Claims.goReady s k 0x0C sh = true → (s.tile k).mvBusy sh = none → (Claims.job s k sh).mvConfig = none →
      dBit sh.words 1 63 = true → exec (.tallyClear vx vy) s = .next (Claims.started s k sh Tile.mvStart)) ∧
    (Claims.goReady s k 0x0D sh = true → (s.tile k).mvBusy sh = none → (Claims.job s k sh).mvConfig = none →
      exec (.gather vx vy) s = .next (Claims.started s k sh Tile.mvStart)) ∧
    (Claims.goReady s k 0x0E sh = true → (s.tile k).mvBusy sh = none → (Claims.job s k sh).mvConfig = none →
      exec (.scatter vx vy) s = .next (Claims.started s k sh Tile.mvStart)) ∧
    (Claims.goReady s k 0x10 sh = true → (s.tile k).stkBusy sh = none →
      exec (.stkrd vx vy) s = .next (Claims.started s k sh Tile.stkStart)) ∧
    (Claims.goReady s k 0x11 sh = true → (s.tile k).stkBusy sh = none →
      exec (.stkwr vx vy) s = .next (Claims.started s k sh Tile.stkStart))

/-- LOAD fills a unit's shadow configuration, and GO starts the unit with it. -/
def Obligations.LoadAndGo : Prop :=
  Claims.LoadFillsTheShadow ∧ Claims.MatrixGoStarts ∧ Claims.VectorGoStarts ∧ Claims.TransferGoStarts

/-- A GO without a LOAD of its unit is ST_SEQ_LOAD_INCOMPLETE, whatever the unit (R191, R193): the pasture stops and TSQ_ERR records
slot, opcode and beat. -/
def Sys2Proof.Claims.GoWithoutLoadFaults : Prop :=
  ∀ (vx : Vx) (vy : Vy) (s : State),
    let k := tileKey vx vy
    let ws := Claims.words s k
    Claims.issues s k = true → actionOf ws = 2 → smapFind (s.tile k).shadows (shadowUnit ws) = none →
    ∀ oc ∈ ([(0x01, .matmul), (0x02, .conv), (0x03, .vecopAdd), (0x04, .quant), (0x05, .topk), (0x08, .move), (0x09, .recv),
        (0x0C, .copy), (0x0D, .gather), (0x0E, .scatter), (0x10, .stkrd), (0x11, .stkwr)] : List (Nat × (Vx → Vy → Instr))),
      opOf ws = oc.1 → exec (oc.2 vx vy) s = .next (s.seqFault k St.SEQ_LOAD_INCOMPLETE (s.tile k).ip.toNat (opOf ws))

/-- A descriptor predicated off only issues; one that fails a check of its issue, or a GO without its LOAD, stops the pasture. -/
def Obligations.DescriptorsThatDoNotAct : Prop :=
  Claims.PredicatedOffOnlyIssues ∧ Claims.IssueFaultsStop ∧ Claims.GoWithoutLoadFaults

/-! ## Windows, waits, folds and flags -/

/-- WINOPEN, WINCLOSE and WAIT (R356, R361, R370): a checked WINOPEN opens a closed window as its words say and rearms an open one, and
one that fails a check stops the pasture; WINCLOSE empties the window, drops its trackers and serves the other windows' queues; WAIT holds its beat and sends a wait
unless the arrivals already meet the threshold. -/
def Sys2Proof.Claims.WindowDescriptors : Prop :=
  ∀ (vx : Vx) (vy : Vy) (s : State) (p : Nat) (st : Status),
    let k := tileKey vx vy
    let ws := Claims.words s k
    let w := dField ws 1 63 58
    let thresh : BitVec 32 := BitVec.ofNat 32 (dField ws 1 31 0)
    let s' := s.putTile k (Claims.issuedTile s k)
    let y := (s.pasture p).window w
    s.pasOf vx = some p →
    (Claims.acting s k 0x14 = true → s.winFault p y (openWindow ws k) = none → y.isOpen = false →
      exec (.winopen vx vy) s = .next (s'.putWindow p w (openWindow ws k))) ∧
    (Claims.acting s k 0x14 = true → s.winFault p y (openWindow ws k) = none → y.isOpen = true → y.queue = [] →
      exec (.winopen vx vy) s = .next (s'.putWindow p w
        { y with pool := y.pool + y.doneUnits, doneUnits := 0, arrivals := 0, doneRanks := [] })) ∧
    (Claims.acting s k 0x14 = true → s.winFault p y (openWindow ws k) = some st →
      exec (.winopen vx vy) s = .next (s.stopTile k st)) ∧
    (Claims.acting s k 0x15 = true → y.isOpen = true →
      exec (.winclose vx vy) s = .next (((s'.putWindow p w { y with state := 0, queue := [], held := 0 }).modPas p fun x =>
        { x with trackers := x.trackers.filter fun t => decide (t.win ≠ w) }).serveWindows p)) ∧
    (Claims.acting s k 0x18 = true → (s.pasture p).waitFault ws = none → thresh ≤ y.arrivals →
      exec (.wait vx vy) s = .next s') ∧
    (Claims.acting s k 0x18 = true → (s.pasture p).waitFault ws = none → ¬ thresh ≤ y.arrivals →
      exec (.wait vx vy) s = .next (((s.putTile k { Claims.issuedTile s k with
        holds := (s.tile k).holds ++ [.wait w] }).send (.winWait p k w (dField ws 1 57 50) thresh s.now)).noteHolds p)) ∧
    (Claims.acting s k 0x18 = true → (s.pasture p).waitFault ws = some st →
      exec (.wait vx vy) s = .next (s.stopTile k st))

/-- FOLD (R288, R290): a member's FOLD on an owned fold contributes, a third one before the older generation completes holds its
beat, and one on an unmapped fold or by a tile that is no member stops the pasture. -/
def Sys2Proof.Claims.FoldDescriptor : Prop :=
  ∀ (vx : Vx) (vy : Vy) (s : State) (p f : Nat),
    let k := tileKey vx vy
    let ws := Claims.words s k
    s.pasOf vx = some p → Claims.acting s k 0x19 = true →
    (s.foldOf p (foldId ws) = some f → bitAt (s.tile k).foldMask (foldId ws) = true → (s.tile k).pendingFolds f < 2 →
      exec (.fold vx vy) s = .next (((s.putTile k (Claims.issuedTile s k)).contribute k p f ws).noteHolds p)) ∧
    (s.foldOf p (foldId ws) = some f → bitAt (s.tile k).foldMask (foldId ws) = true → 2 ≤ (s.tile k).pendingFolds f →
      exec (.fold vx vy) s = .next ((s.putTile k { Claims.issuedTile s k with
        holds := (s.tile k).holds ++ [.foldFull f] }).noteHolds p)) ∧
    (s.foldOf p (foldId ws) = none → exec (.fold vx vy) s = .next (s.cnwFault k St.CNW_FOLD_MAP)) ∧
    (s.foldOf p (foldId ws) = some f → bitAt (s.tile k).foldMask (foldId ws) = false →
      exec (.fold vx vy) s = .next (s.cnwFault k St.CNW_FOLD_MEMBER))

/-- The eight FOLD operations by OP code (R289). -/
def Sys2Proof.Claims.FoldOperations : Prop :=
  ∀ (op : BitVec 3) (a b c : BitVec 32),
    combine 0 a b = a + b ∧ combine 1 a b = a &&& b ∧ combine 2 a b = a ||| b ∧ combine 3 a b = a ^^^ b ∧
    (combine 4 a b).toNat = min a.toNat b.toNat ∧ (combine 5 a b).toNat = max a.toNat b.toNat ∧
    (combine 6 a b).toInt = min a.toInt b.toInt ∧ (combine 7 a b).toInt = max a.toInt b.toInt ∧
    combine op a b = combine op b a ∧ combine op (combine op a b) c = combine op a (combine op b c)

/-- A counter's contribution is the counter zero-extended, and a contribution whose OP differs from those of its generation stops the
pasture with ST_CNW_FOLD_OP (R289). -/
def Sys2Proof.Claims.FoldContributions : Prop :=
  (∀ (t : Tile) (ws : List Word), dBit ws 1 53 = true → (t.foldValue ws).toNat = (t.ctr (dField ws 1 52 50)).toNat) ∧
  (∀ (i p f k : Nat) (gen : Bool) (o q : BitVec 3) (v : BitVec 32) (s s' : State),
    s.arrives i = some (.foldIn p f k gen o v, s') →
    ((gen = (s'.foldAt f).gen ∧ (s'.foldAt f).op = some q) ∨ (gen ≠ (s'.foldAt f).gen ∧ (s'.foldAt f).nextOp = some q)) → q ≠ o →
    exec (.foldContribution i) s =
      .next ((s'.cnwRecord (s'.bellwether p) St.CNW_FOLD_OP 0 0).stopPasture p St.CNW_FOLD_OP))

/-- The order in which two contributions to a fold arrive changes nothing, whether they are of one generation or of two, as long as
those of one generation name one OP (R289, R290). -/
def Sys2Proof.Claims.FoldOrderDoesNotMatter : Prop :=
  ∀ (x y z : Fold) (g h : Bool) (o q : BitVec 3) (a b : BitVec 32),
    x.take g o a = some y → y.take h q b = some z → ∃ w, x.take h q b = some w ∧ w.take g o a = some z

/-- Folds combine by OP, in any order, and a differing OP stops the pasture (R289). That the mismatch is found at the bellwether, which records it
with channel and handler 0, is the model's choice (log entries 48 and 49). -/
def Obligations.FoldsCombine : Prop :=
  Claims.FoldOperations ∧ Claims.FoldOrderDoesNotMatter ∧ Claims.FoldContributions

/-- Folds at the bellwether and at a member (R289, R290): a contribution is combined, the last one completes the generation, one with
another OP stops the pasture; a result releases the member's holds and is written to RES_ADDR once its line is free, one that spans two
lines over two beats. -/
def Sys2Proof.Claims.FoldArrivals : Prop :=
  ∀ (i p f k : Nat) (gen : Bool) (o : BitVec 3) (v : BitVec 32) (s s' : State) (x : Fold) (e : FoldPending),
    (s.arrives i = some (.foldIn p f k gen o v, s') → (s'.foldAt f).take gen o v = some x → x.arrived < x.members →
      exec (.foldContribution i) s = .next (s'.putFold f x)) ∧
    (s.arrives i = some (.foldIn p f k gen o v, s') → (s'.foldAt f).take gen o v = some x → x.members ≤ x.arrived →
      exec (.foldContribution i) s = .next (s'.closeFold p f x)) ∧
    (s.arrives i = some (.foldIn p f k gen o v, s') → (s'.foldAt f).take gen o v = none →
      exec (.foldContribution i) s =
        .next ((s'.cnwRecord (s'.bellwether p) St.CNW_FOLD_OP 0 0).stopPasture p St.CNW_FOLD_OP)) ∧
    (s.arrives i = some (.foldOut p f k gen v, s') →
      ((s'.tile k).foldPend.find? fun x => decide (x.fold = f) && decide (x.gen = gen)) = some e → e.resAddr = 0xFFFF →
      exec (.foldResult i) s = .next (((s'.modTile k fun t =>
        { t.releaseFold f gen v s.now with foldPend := t.foldPend.erase e }).retryFold k p f).noteHolds p)) ∧
    (s.arrives i = some (.foldOut p f k gen v, s') →
      ((s'.tile k).foldPend.find? fun x => decide (x.fold = f) && decide (x.gen = gen)) = some e →
      e.resAddr ≠ 0xFFFF → s'.rangeWaits k .service e.piece.1 e.piece.2 = false →
      (e.piece.2 = 4 - e.wrote ∨ s.barredPiece k .service e.piece.1 (4 - e.wrote) ≠ none) →
      exec (.foldResult i) s = .next ((((s'.modTile k fun t =>
        { t.releaseFold f gen v s.now with foldPend := t.foldPend.erase e }).writeResult k p f e.resAddr e.wrote v).retryFold
          k p f).noteHolds p)) ∧
    (s.arrives i = some (.foldOut p f k gen v, s') →
      ((s'.tile k).foldPend.find? fun x => decide (x.fold = f) && decide (x.gen = gen)) = some e →
      e.resAddr ≠ 0xFFFF → s'.rangeWaits k .service e.piece.1 e.piece.2 = false → e.piece.2 < 4 - e.wrote →
      s.barredPiece k .service e.piece.1 (4 - e.wrote) = none → exec (.foldResult i) s = .next (s.writeFirst k e v)) ∧
    (s.arrives i = some (.foldOut p f k gen v, s') →
      ((s'.tile k).foldPend.find? fun x => decide (x.fold = f) && decide (x.gen = gen)) = some e →
      e.resAddr ≠ 0xFFFF → s'.rangeWaits k .service e.piece.1 e.piece.2 = true →
      exec (.foldResult i) s = .next (s.noteRange k .service e.piece.1 e.piece.2 (.fold f)))

/-- FLAG (R212, R292): a set or clear is sent to the bellwether; a hold keeps its beat and sends a wait. -/
def Sys2Proof.Claims.FlagDescriptors : Prop :=
  ∀ (vx : Vx) (vy : Vy) (s : State) (p : Nat),
    let k := tileKey vx vy
    let ws := Claims.words s k
    let n := dField ws 1 63 56
    let s' := s.putTile k (Claims.issuedTile s k)
    s.pasOf vx = some p → Claims.acting s k 0x1A = true →
    (dField ws 1 55 54 = 0 → exec (.flagSet vx vy) s = .next (s'.send (.flag p n true (some k)))) ∧
    (dField ws 1 55 54 = 1 → exec (.flagClear vx vy) s = .next (s'.send (.flag p n false (some k)))) ∧
    (dField ws 1 55 54 = 2 → exec (.flagHoldSet vx vy) s = .next (((s.putTile k { Claims.issuedTile s k with
      holds := (s.tile k).holds ++ [.flag n true] }).send (.flagWait p k n true)).noteHolds p)) ∧
    (dField ws 1 55 54 = 3 → exec (.flagHoldClear vx vy) s = .next (((s.putTile k { Claims.issuedTile s k with
      holds := (s.tile k).holds ++ [.flag n false] }).send (.flagWait p k n false)).noteHolds p))

/-- The descriptors of windows, waits, folds and flags. That a fault of WINOPEN or WAIT has no error register but the run's CAUSE is the model's
reading (log entry 56). -/
def Obligations.WindowFoldAndFlagDescriptors : Prop :=
  Claims.WindowDescriptors ∧ Claims.FoldDescriptor ∧ Claims.FlagDescriptors

/-- Flags, waits and halts at the bellwether and their releases at a tile (R291, R292, R295, R370). -/
def Sys2Proof.Claims.NoticesAtTheBellwether : Prop :=
  ∀ (i p n k w wpt b : Nat) (on : Bool) (from_ : Option Nat) (thresh : BitVec 32) (since : Nat) (s s' : State),
    (s.arrives i = some (.flag p n on from_, s') →
      exec (.flagChange i) s = .next (s'.changeFlag p n on from_.isSome)) ∧
    (s.arrives i = some (.flagWait p k n on, s') → (s'.pasture p).flag n = on →
      exec (.flagWaitArrive i) s = .next (s'.send (.flagRelease p k n))) ∧
    (s.arrives i = some (.flagWait p k n on, s') → (s'.pasture p).flag n ≠ on →
      exec (.flagWaitArrive i) s = .next (s'.modPas p fun x => { x with flagWaiters := x.flagWaiters ++ [(k, n, on)] })) ∧
    (s.arrives i = some (.flagRelease p k n, s') → (s'.tile k).holds = [.flag n on] →
      exec (.flagRelease i) s = .next ((s'.modTile k fun t => { t with holds := [], holdEnd := some s'.now }).noteHolds p)) ∧
    (s.arrives i = some (.winWait p k w wpt thresh since, s') → thresh ≤ ((s'.pasture p).window w).arrivals →
      exec (.waitArrive i) s = .next (s'.send (.winRelease p k w))) ∧
    (s.arrives i = some (.winWait p k w wpt thresh since, s') → ¬ thresh ≤ ((s'.pasture p).window w).arrivals →
      exec (.waitArrive i) s = .next (s'.modPas p fun x => { x with winWaiters := x.winWaiters ++
        [{ tile := k, win := w, wpt := wpt, thresh := thresh, since := since }] })) ∧
    (s.arrives i = some (.winRelease p k w, s') →
      exec (.waitRelease i) s = .next ((s'.modTile k fun t =>
        { t with holds := t.holds.erase (.wait w), holdEnd := some s'.now }).noteHolds p)) ∧
    (s.arrives i = some (.halt p k b, s') → (s'.pasture p).running = true →
      (s'.pasture p).haltCount + 1 < (s'.tilesOf p).length →
      exec (.haltNotice i) s = .next (s'.modPas p fun x => { x with
        haltCount := x.haltCount + 1
        runs := x.runs.map fun r =>
          if r.stage = .running then { r with haltMax := some (max b (r.haltMax.getD 0)) } else r })) ∧
    (s.arrives i = some (.halt p k b, s') → (s'.pasture p).running = true →
      (s'.tilesOf p).length ≤ (s'.pasture p).haltCount + 1 →
      exec (.haltNotice i) s = .next (s'.modPas p fun x => Pasture.recordHalt ({ x with
        haltCount := x.haltCount + 1
        runs := x.runs.map fun r =>
          if r.stage = .running then { r with haltMax := some (max b (r.haltMax.getD 0)) } else r }) (s'.logOf p)))

/-- A change of a flag (R291 to R293, R342, R349): one to the value it has changes nothing; another releases its waiters; one by a tile of a flag
whose notification is on raises the fold cause and is recorded in LAST_FLAG; a tile's set of a trigger flag swaps the rank or the routing
tables, the latter unless a logical port's members have several peers; and a set starts the flag's send. -/
def Sys2Proof.Claims.FlagNotices : Prop :=
  ∀ (s : State) (p n : Nat) (byTile : Bool),
    let x := s.pasture p
    let set (on : Bool) := (s.modPas p fun x => x.setFlag n on).releaseFlag p n on
    let noted (on : Bool) := if bitAt x.notify n then
        ((set on).modPas p fun x => { x with lastFlag := BitVec.ofNat 8 n }).signal (s.boundFn p) 20 else set on
    let ranks := if x.rankTrigEn && decide (x.rankTrigFlag.toNat = n) then
        (noted true).modPas p fun x => { x with rankActive := !x.rankActive } else noted true
    let trig := s.fabric.routeTrigEn && decide (s.fabric.routeTrigPas.toNat = p) && decide (s.fabric.routeTrigFlag.toNat = n)
    let g := s.fabric
    let routes := if !trig then ranks
      else if s.swapBad then { ranks with fabric := { g with routeStatus := St.FAB_ROUTE_LPORT } }
      else ({ ranks with fabric := { g with
        routeActive := !g.routeActive, routeStatus := St.OK, draining := true, swapTime := s.now } }).retryHeld HeldPacket.waitsRole
    (s.changeFlag p n (x.flag n) byTile = s) ∧
    (x.flag n = true → s.changeFlag p n false byTile = if byTile then noted false else set false) ∧
    (x.flag n = false → s.changeFlag p n true byTile = if byTile then routes.startSend p n else (set true).startSend p n)

/-- Sends start (R343, R364, R366, R432): one that is not enabled, or whose pasture is stopped, does not; one with a reserved OP or no bytes,
without a started flock, to a fenced rank or to a rank without an entry fails with its status; any other that acquires takes a tag and asks for its
units, of every member of its drove that is not fenced; a prepaid one takes its units from BALANCE and sends at once, and a short balance stops the
pasture. -/
def Sys2Proof.Claims.SendsStart : Prop :=
  ∀ (s s' : State) (p n : Nat) (st : Status) (chip : BitVec 16),
    let x := s.pasture p
    let w := x.sendEntry n
    let op := sendOp w
    let may := sendEnabled w = true ∧ x.stopped = false
    let sound := may ∧ op ≠ 3 ∧ (op = 2 ∨ sendLen w ≠ 0)
    let member := sound ∧ x.started = true
    let tagged := s.modPas p fun x => { x with nextXfer := x.nextXfer + 1 }
    let d := newSending n w x.nextXfer s.now
    let adds (t : State) (d : Sending) : State := t.modPas p fun x => { x with sending := x.sending ++ [d] }
    let ms := s.droveMembers (sendDrv w)
    let asked : Sending := { d with pruned := ms.filter x.fenced }
    (¬may → s.startSend p n = s) ∧
    (may → op = 3 ∨ (op ≠ 2 ∧ sendLen w = 0) → s.startSend p n = s.failSend p n w St.FAB_SEND_FAIL) ∧
    (sound → x.started = false → s.startSend p n = s.failSend p n w St.FAB_NO_FLOCK) ∧
    (member → op = 1 → sendBalance w < sendUnits w → sendDrove w = true → s.startSend p n = s.stopPasture p St.FAB_CREDIT_OVERRUN) ∧
    (member → op ≠ 1 → sendDrove w = true → s.startSend p n =
      ((ms.filter fun r => !x.fenced r).foldl (fun t r => t.requestCredit p asked r.toNat (sendRequest w)) (adds tagged asked)).checkDrove p
        x.nextXfer) ∧
    (member → sendDrove w = false → x.fenced (BitVec.ofNat 12 (sendDst w)) = true → s.startSend p n = s.failSend p n w St.FAB_FENCED) ∧
    (member → sendDrove w = false → x.fenced (BitVec.ofNat 12 (sendDst w)) = false →
      (s.rankChip p (sendDst w) = (s', none) → s.startSend p n = s'.failSend p n w St.FAB_NO_ROUTE) ∧
      (s.rankChip p (sendDst w) = (s', some chip) →
        (op ≠ 1 → s.startSend p n = (adds tagged d).emitControl p 0x02 chip (BitVec.ofNat 6 (field w 231 226)) x.nextXfer
          (BitVec.ofNat 32 (sendRequest w))) ∧
        (op = 1 → sendBalance w < sendUnits w → s.startSend p n = s.stopPasture p St.FAB_CREDIT_OVERRUN) ∧
        (op = 1 → sendUnits w ≤ sendBalance w → smapGet [] x.grantTags n = [] → s.startSend p n =
          (adds (tagged.setBalance p n (sendBalance w - sendUnits w)) { d with stage := .sending }).runSend p x.nextXfer))) ∧
    (((s.failSend p n w st).pasture p).sendFails = satInc x.sendFails ∧
      ((s.failSend p n w st).pasture p).sendEntry n = setBits w 15 0 st.toNat)

/-- A change of a flag at the bellwether, and the sends that it starts. What a malformed entry does, tags, and that only a change triggers are the
model's choices (log entries 50, 56, 57 and 58). -/
def Obligations.FlagsAndSendStarts : Prop :=
  Claims.FlagNotices ∧ Claims.SendsStart

/-- Host writes to CNW_FLAG_SET_n and CNW_FLAG_CLR_n send one change for each bit that is 1, in order (R291, R297); a WAIT's late event and
timeout (R371). -/
def Sys2Proof.Claims.HostFlagsAndWaypoints : Prop :=
  (∀ (fn : FnId) (p : PasId) (n : Fin 4) (value : Word) (s : State),
    let changes (on : Bool) : List Sent := ((List.range 64).filter (bitAt value)).map fun i =>
      { ready := some s.now, pkt := .flag p (64 * n + i) on none }
    s.mayWrite fn p = true →
    exec (.hostFlagSet fn p n value) s = .next { s with net := s.net ++ changes true } ∧
    exec (.hostFlagClr fn p n value) s = .next { s with net := s.net ++ changes false }) ∧
  (∀ (p : PasId) (vx : Vx) (vy : Vy) (s : State) (v : WinWaiter) (r : WptRec),
    let k := tileKey vx vy
    let x := s.pasture p
    let ms := (x.window v.win).missing
    x.waiterOf k = some v → x.wpt v.wpt = some r →
    (v.late = false → r.boundNs * nsT ≤ s.now - v.since →
      exec (.wptLate p vx vy) s = .next (((s.modPas p fun x => { x with
        winWaiters := x.winWaiters.map fun o => if o.tile = k then { o with late := true } else o
        lateEvents := satInc x.lateEvents
        lateWpt := BitVec.ofNat 8 v.wpt
        lateWin := BitVec.ofNat 6 v.win
        lateRank := BitVec.ofNat 12 (ms.min?.getD 0)
        lateMissing := BitVec.ofNat 12 (min 4095 ms.length) }).noteCause p St.FAB_WPT_LATE).pasEvent p St.FAB_WPT_LATE k)) ∧
    (x.beating = true → r.timeoutUs * usT ≤ s.now - v.since →
      exec (.wptTimeout p vx vy) s = .next (s.stopPasture p St.FAB_WPT_TIMEOUT)))

/-- What arrives at a bellwether and at a tile: folds, flags, waits, halts, and their timers. That a mismatched OP is found when the contribution
arrives (log entry 49), and a result over two lines takes two beats (log entry 29), are the model's choices. -/
def Obligations.NoticesArrive : Prop :=
  Claims.FoldArrivals ∧ Claims.NoticesAtTheBellwether ∧ Claims.HostFlagsAndWaypoints

/-! ## The control network -/

/-- An active message arrives (R274, R279): refused with its status (a reservation it held is freed), queued in its channel with RECEIVED
counted, or bounced off a full channel. -/
def Sys2Proof.Claims.MessageArrives : Prop :=
  ∀ (i : Nat) (r : Request) (st : Status) (byTile : Bool) (s s' : State),
    let k := tileKey r.vx r.vy
    let c := r.chan.toNat
    let ch := (s'.tile k).chan c
    s.arrives i = some (.request r, s') → r.reg = false →
    (s'.requestNak r = some (st, byTile) → exec (.msgRequestArrive i) s = .next ((s'.dropReservation k r).nakRequest k r st byTile)) ∧
    (ch.reserved.contains r = false → s'.dropReservation k r = s') ∧
    (s'.requestNak r = none → ch.reserved.contains r = false → ch.queue.length + ch.reserved.length < 16 →
      exec (.msgRequestArrive i) s = .next (s'.modTile k fun t =>
        { t.putChan c { ch with queue := ch.queue ++ [r] } with
          received := smapPut t.received c (smapGet 0 t.received c + 1) })) ∧
    (s'.requestNak r = none → ch.reserved.contains r = true →
      exec (.msgRequestArrive i) s = .next (s'.modTile k fun t =>
        { t.putChan c { ch with reserved := ch.reserved.erase r, queue := ch.queue ++ [r] } with
          received := smapPut t.received c (smapGet 0 t.received c + 1) })) ∧
    (s'.requestNak r = none → ch.reserved.contains r = false → 16 ≤ ch.queue.length + ch.reserved.length →
      exec (.msgRequestArrive i) s = .next ((s'.modTile k fun t =>
        t.putChan c { ch with bounced := ch.bounced ++ [r] }).send (.full r.src r)))

/-- Which request is refused with which status, in the order of the checks (R272, R273, R277, R279): no such tile, a parked half, a sender
without permission, a service engine that does not run, a closed channel. -/
def Sys2Proof.Claims.RequestRefusals : Prop :=
  ∀ (s : State) (r : Request),
    let t := s.tile (tileKey r.vx r.vy)
    (s.offGrid r.vx r.vy = true → s.requestNak r = some (St.CNW_NO_TILE, false)) ∧
    (s.offGrid r.vx r.vy = false → s.parked (s.halfOf r.vx) = true → s.requestNak r = some (St.CNW_READER_RESET, false)) ∧
    (s.offGrid r.vx r.vy = false → s.parked (s.halfOf r.vx) = false → s.permitted r = false →
      s.requestNak r = some (St.CNW_NOT_PERMITTED, true)) ∧
    (s.offGrid r.vx r.vy = false → s.parked (s.halfOf r.vx) = false → s.permitted r = true → r.reg = false →
      t.engineOff = true → s.requestNak r = some (St.CNW_READER_RESET, true)) ∧
    (s.offGrid r.vx r.vy = false → s.parked (s.halfOf r.vx) = false → s.permitted r = true → r.reg = false →
      t.engineOff = false → bitAt t.openMask r.chan.toNat = false → s.requestNak r = some (St.CNW_CHANNEL_CLOSED, true)) ∧
    (s.requestNak r = none ↔ s.offGrid r.vx r.vy = false ∧ s.parked (s.halfOf r.vx) = false ∧ s.permitted r = true ∧
      (r.reg = true ∨ (t.engineOff = false ∧ bitAt t.openMask r.chan.toNat = true)))

/-- An active message is queued, bounced or refused. The order of the checks is the model's reading (log entry 46). -/
def Obligations.MessagesArrive : Prop :=
  Claims.MessageArrives ∧ Claims.RequestRefusals

/-- A register access, by a request or through a tile window, serves the register at its offset (R278, R382): a read answers its value,
a write changes it, an offset without a register answers ST_CNW_NO_REGISTER. Through a window over a link out of use a read gives all ones and a
write does nothing. -/
def Sys2Proof.Claims.RegisterAccesses : Prop :=
  (∀ (i : Nat) (r : Request) (v w : Word) (s s' : State),
    let k := tileKey r.vx r.vy
    let off := leAt r.payload 0 4
    s.arrives i = some (.request r, s') → r.reg = true → s'.requestNak r = none →
    (bitAt (byteAt r.payload 4) 0 = false → s'.tileRead k off = some v →
      exec (.registerAccess i) s = .next (s'.send (.reply k r.src r.chan r.slot St.OK (bytesOf 8 v.toNat)))) ∧
    (bitAt (byteAt r.payload 4) 0 = true → s'.tileRead k off = some v → w = BitVec.ofNat 64 (leAt r.payload 8 8) →
      exec (.registerAccess i) s = .next ((s'.tileWrite k off w).send (.reply k r.src r.chan r.slot St.OK []))) ∧
    (bitAt (byteAt r.payload 4) 0 = false → s'.tileRead k off = none →
      exec (.registerAccess i) s =
        .next (s'.send (.reply k r.src r.chan r.slot St.CNW_NO_REGISTER (bytesOf 8 0))))) ∧
  (∀ (vx : Vx) (vy : Vy) (offset : BitVec 12) (v w : Word) (s : State),
    let k := tileKey vx vy
    let off := offset.toNat / 8 * 8
    s.offGrid vx vy = false → s.parked (s.halfOf vx) = false →
    (s.hostCutOff k false = false → s.tileRead k off = some v →
      (s.hostCutOff k true = false →
        exec (.tileWindowAccess vx vy offset none) s = .next { s with tileAcc := St.OK, tileData := v } ∧
        exec (.tileWindowAccess vx vy offset (some w)) s = .next { s.tileWrite k off w with tileAcc := St.OK }) ∧
      (s.hostCutOff k true = true →
        exec (.tileWindowAccess vx vy offset none) s = .next { s with tileData := BitVec.allOnes 64 } ∧
        exec (.tileWindowAccess vx vy offset (some w)) s = .next (s.tileWrite k off w))) ∧
    (s.hostCutOff k false = true →
      exec (.tileWindowAccess vx vy offset none) s = .next { s with tileData := BitVec.allOnes 64 } ∧
      exec (.tileWindowAccess vx vy offset (some w)) s = .next s))

/-- The engine takes the next message in rotation of the channels (R280). -/
def Sys2Proof.Claims.HandlerDispatches : Prop :=
  ∀ (vx : Vx) (vy : Vy) (s : State) (c : Nat) (r : Request) (rest : List Request),
    let k := tileKey vx vy
    s.engineFree k = true → (s.tile k).handler = none → (s.tile k).nextChan = some c → ((s.tile k).chan c).queue = r :: rest →
    exec (.handlerDispatch vx vy) s = .next ((s.modTile k fun t =>
      { t.putChan c { t.chan c with queue := rest } with
        lastChan := BitVec.ofNat 3 c
        handler := some { req := r }
        dispatched := smapPut t.dispatched c (smapGet 0 t.dispatched c + 1) }).freeEntries k c)

/-- Tile k's engine is free and its handler h is at an action of an OP. -/
def Sys2Proof.Claims.atAction (s : State) (k op : Nat) (h : HandlerRun) : Bool :=
  decide ((s.tile k).handler = some h) && s.engineFree k && decide (h.action < 4)
    && decide (actOp ((s.tile k).action h.req.handler.toNat h.action) = op)

/-- The actions of a handler (R280 to R284): WRITE and REPLY of one line that is free, ADD and BUMP of an aligned word, FLAGSET and
FLAGCLR, SEND with a free reply slot; after a handler's last action a reply with ST_OK ends it, an invalid action ends it with
ST_CNW_ACTION_INVALID. -/
def Sys2Proof.Claims.HandlerActions : Prop :=
  ∀ (vx : Vx) (vy : Vy) (s s' : State) (h : HandlerRun) (p n : Nat) (got : List Byte),
    let k := tileKey vx vy
    let t := s.tile k
    let a := t.action h.req.handler.toNat h.action
    let o := actAddr a h.req.payload
    let bs := writeData a h.req.payload
    let old : BitVec 32 := BitVec.ofNat 32 (ofBytes (t.bytes 0 (serviceAddr o) 4))
    let r : Request := { src := .tile vx vy, vx := field a 11 6, vy := field a 5 0, chan := BitVec.ofNat 3 (field a 27 25),
                         handler := BitVec.ofNat 4 (field a 24 21), slot := BitVec.ofNat 6 n, payload := h.req.payload }
    (t.handler = some h → s.engineFree k = true → 4 ≤ h.action →
      exec (.handlerEnd vx vy) s = .next (s.endHandler k h St.OK [])) ∧
    (t.handler = some h → s.engineFree k = true → h.action < 4 → actOp a = 0 → h.action ≠ 0 →
      exec (.handlerEnd vx vy) s = .next (s.endHandler k h St.OK [])) ∧
    (t.handler = some h → s.engineFree k = true → h.action = 0 → actOp a = 0 →
      exec (.handlerEnd vx vy) s = .next (s.endHandler k h St.CNW_HANDLER_EMPTY [])) ∧
    (t.handler = some h → s.engineFree k = true → h.action < 4 → 8 ≤ actOp a →
      exec (.handlerEnd vx vy) s = .next (s.refuseAction k h St.CNW_ACTION_INVALID)) ∧
    (Claims.atAction s k 1 h = true → h.pos = 0 → linePieces 64 o bs.length = [(o, bs.length)] →
      s.waitedAccess k .service o bs.length (some bs) = (s', some (.ok got)) →
      exec (.handlerWrite vx vy) s = .next (s'.nextAction k h)) ∧
    (Claims.atAction s k 6 h = true → h.pos = 0 → h.got = [] → actN a ≤ 32 → linePieces 64 o (actN a) = [(o, actN a)] →
      s.waitedAccess k .service o (actN a) none = (s', some (.ok got)) →
      exec (.handlerReply vx vy) s = .next (s'.endHandler k h St.OK got)) ∧
    (Claims.atAction s k 2 h = true → o % 4 = 0 →
      s.waitedAccess k .service o 4 (some (bytesOf 4 (old + BitVec.ofNat 32 (leAt h.req.payload (actDoff a) 4)).toNat)) =
        (s', some (.ok got)) → exec (.handlerAdd vx vy) s = .next (s'.nextAction k h)) ∧
    (Claims.atAction s k 3 h = true → o % 4 = 0 →
      s.waitedAccess k .service o 4 (some (bytesOf 4 (satInc old).toNat)) = (s', some (.ok got)) →
      exec (.handlerBump vx vy) s = .next (s'.nextAction k h)) ∧
    (Claims.atAction s k 2 h = true → o % 4 ≠ 0 →
      exec (.handlerAdd vx vy) s = .next (s.refuseAction k h St.CNW_ACTION_ALIGN)) ∧
    (Claims.atAction s k 4 h = true → s.pasOf vx = some p →
      exec (.handlerFlagset vx vy) s =
        .next ((s.send (.flag p (actFlag a h.req.payload) true (some k))).nextAction k h)) ∧
    (Claims.atAction s k 5 h = true → s.pasOf vx = some p →
      exec (.handlerFlagclr vx vy) s =
        .next ((s.send (.flag p (actFlag a h.req.payload) false (some k))).nextAction k h)) ∧
    (Claims.atAction s k 7 h = true → t.freeSlotNo = some n →
      exec (.handlerSend vx vy) s = .next (((s.modTile k fun t =>
        { t with slots := t.slots ++ [(r.slot, r)]
                 sent := smapPut t.sent r.chan.toNat (smapGet 0 t.sent r.chan.toNat + 1) }).nextAction k
          { h with sent := h.sent ++ [r.slot] }).send (.request r))) ∧
    (Claims.atAction s k 7 h = true → t.freeSlotNo = none →
      exec (.handlerSend vx vy) s = .next (s.refuseAction k h St.CNW_NO_REPLY_SLOT))

/-- The service engine's handlers, and register accesses. That a send takes the lowest free reply slot, that a window beyond the grid reads 0, and
what a window over a dead link reads are the model's choices (log entries 40, 41 and 139). -/
def Obligations.EngineAndRegisters : Prop :=
  Claims.RegisterAccesses ∧ Claims.HandlerDispatches ∧ Claims.HandlerActions

/-- What comes back to a sender (R275 to R277, R284, R286): a reply or NAK frees its reply slot and completes a host MSG; a full channel
blocks the send until a space signal resends it. -/
def Sys2Proof.Claims.SendersHear : Prop :=
  ∀ (i k : Nat) (vx : Vx) (vy : Vy) (f : FnId) (chan : BitVec 3) (slot : BitVec 6) (st : Status) (payload : List Byte) (r : Request)
    (m : HostMsg) (s s' : State),
    let d := tileKey vx vy
    (s.arrives i = some (.reply k (.tile vx vy) chan slot St.OK payload, s') →
      exec (.replyArrive i) s = .next (s'.modTile d fun t => t.freeSlot slot)) ∧
    (s.arrives i = some (.reply k (.tile vx vy) chan slot st payload, s') → st ≠ St.OK →
      exec (.replyArrive i) s = .next (s'.modTile d fun t => (t.freeSlot slot).countNak chan.toNat)) ∧
    (s.arrives i = some (.reply k (.fn f) chan slot st payload, s') → (s'.func f).msgAt slot = some m →
      exec (.replyArrive i) s = .next (s'.endHostMsg f m st payload)) ∧
    (s.arrives i = some (.nak k (.tile vx vy) chan slot st, s') →
      exec (.nakArrive i) s = .next (s'.modTile d fun t => ((t.unblock slot s.now).freeSlot slot).countNak chan.toNat)) ∧
    (s.arrives i = some (.nak k (.fn f) chan slot st, s') → (s'.func f).msgAt slot = some m →
      exec (.nakArrive i) s = .next (s'.endHostMsg f m st [])) ∧
    (s.arrives i = some (.full (.tile vx vy) r, s') →
      exec (.fullBounce i) s = .next (s'.modTile d fun t => { t with blocked := t.blocked ++ [{ req := r, since := s.now }] })) ∧
    (s.arrives i = some (.full (.fn f) r, s') →
      exec (.fullBounce i) s = .next (s'.modFn f fun x => x.modMsg r.slot fun m =>
        { m with blocked := some s.now, raised := false })) ∧
    (s.arrives i = some (.space (.tile vx vy) r, s') → ((s.tile d).blocked.any fun b => decide (b.req = r)) = true →
      exec (.spaceSignal i) s = .next ((s'.modTile d fun t => t.unblock r.slot s.now).send (.request r))) ∧
    (s.arrives i = some (.space (.fn f) r, s') → (s.func f).msgAt r.slot = some m → m.blocked.isSome = true → m.req = r →
      exec (.spaceSignal i) s = .next ((s'.modFn f fun x => x.modMsg r.slot fun m => { m with blocked := none }).send (.request r)))

/-- Blocked sends, closed channels and failed links (R286, R279, R285): SEND_WD raises the event once and counts; CANCEL withdraws the
oldest blocked send, and the handler that waits for it ends with ST_CNW_SEND_CANCELLED; a change of OPEN_MASK empties the channels it closes; neither arrives over a link out of use; a flit's failed check is a resend, and the third failed
resend takes the link out, raises ALERT cause 5 and stops every beating pasture. -/
def Sys2Proof.Claims.ControlNetworkUpkeep : Prop :=
  ∀ (vx : Vx) (vy : Vy) (f : FnId) (s : State) (p : Nat) (b : Blocked) (m : HostMsg) (mask : Byte) (d : Dir) (resend : Fin 4)
    (t0 : Nat) (h : HandlerRun),
    let k := tileKey vx vy
    let dropped := (s.modTile k fun t =>
      { (t.unblock b.req.slot s.now).freeSlot b.req.slot with cancelled := satInc t.cancelled }).withdraw b.req
    (s.pasOf vx = some p → (s.tile k).blocked = [b] → b.raised = false → (s.pasture p).sendWd.toNat * usT ≤ s.now - b.since →
      exec (.sendWatchdog (.tile vx vy)) s = .next ((s.modTile k fun t =>
        { t with wdEvents := satInc t.wdEvents, blocked := [{ b with raised := true }] }).pasEvent p St.CNW_SEND_BLOCKED k)) ∧
    ((s.func f).msgs = [m] → m.raised = false → m.blocked = some t0 → (s.pasture m.pas).sendWd.toNat * usT ≤ s.now - t0 →
      exec (.sendWatchdog (.fn f)) s = .next ((s.modFn f fun x => { x with msgs := [{ m with raised := true }] }).pasEvent m.pas
        St.CNW_SEND_BLOCKED (tileKey m.req.vx m.req.vy))) ∧
    (s.reachable k = true → s.hostCutOff k false = false → (s.tile k).blocked = [b] →
      (((s.tile k).handler = none ∨ ((s.tile k).handler = some h ∧ h.sent.contains b.req.slot = false)) →
        exec (.cancel vx vy) s = .next dropped) ∧
      ((s.tile k).handler = some h → h.sent.contains b.req.slot = true → exec (.cancel vx vy) s =
        .next (((dropped.cnwRecord k St.CNW_SEND_CANCELLED h.req.chan h.req.handler).modTile k fun t => { t with handler := none }).send
          (.reply k h.req.src h.req.chan h.req.slot St.CNW_SEND_CANCELLED [])))) ∧
    (s.reachable k = true → s.hostCutOff k false = false → exec (.channelClose vx vy mask) s = .next (s.writeOpen k mask)) ∧
    (s.hostCutOff k false = true → exec (.cancel vx vy) s = .next s ∧ exec (.channelClose vx vy mask) s = .next s) ∧
    (s.reachable k = true → (s.tile k).linkOut.contains d = false → resend.val < 3 →
      exec (.flitCheckFail vx vy d resend) s = .next (s.modTile k fun t => { t with flitResends := satInc t.flitResends })) ∧
    (s.reachable k = true → (s.tile k).linkOut.contains d = false → resend.val = 3 →
      exec (.flitCheckFail vx vy d resend) s = .next (((s.modTile k fun t =>
        { t with linkOut := t.linkOut ++ [d], cnwStatus := St.CNW_LINK_FAIL, cnwChan := 0, cnwHandler := 0,
                 cnwBeat := t.beat }).alert 5).stopAll St.CNW_LINK_FAIL))

/-- Replies, refusals, bounces and blocked sends of the control network. CANCEL of the oldest blocked send, CNW_ERR with channel and handler 0, the
resend operand, and a running pasture as one that beats are the model's choices (log entries 47, 48, 51 and 18). -/
def Obligations.RepliesAndBlockedSends : Prop :=
  Claims.SendersHear ∧ Claims.ControlNetworkUpkeep

/-! ## Context memory -/

/-- A refused ownership change names its group in STK_ERR and changes nothing else (R249). -/
def Sys2Proof.Claims.ownRefusal (s : State) (gid : Nat) : State :=
  s.stkRecord (gid / 8) (s.groupOwn gid).pas.toNat 0 St.STACK_OWN_BUSY

/-- Ownership of groups (R248 to R250, R265): PF0's ownership write changes all eight groups of a stack, or none where one of them is
busy; so does turning automatic ownership on; an XFER bit is written by PF0 or by the owner. -/
def Sys2Proof.Claims.OwnershipCommands : Prop :=
  ∀ (fn : FnId) (st : StackId) (g : Fin 8) (gid : Nat) (value : Word) (on : Bool) (s : State),
    (fn.val = 0 → (∀ h < 8, s.ownWriteRefused st value h = false) → exec (.ownershipWrite fn st value) s =
      .next ((List.range 8).foldl (fun s h => s.ownWriteGroup st value h) s)) ∧
    (fn.val = 0 → (List.range 8).find? (s.ownWriteRefused st value) = some gid →
      exec (.ownershipWrite fn st value) s = .next (Claims.ownRefusal s (8 * st + gid))) ∧
    (fn.val ≠ 0 → exec (.ownershipWrite fn st value) s = .next s) ∧
    (s.ownAuto = false → (∀ h ∈ s.autoChanges, s.ownBusy h (s.autoOwner h) = false) →
      exec .autoEnable s = .next ({ s with ownAuto := true }).applyAuto) ∧
    (s.ownAuto = false → s.autoChanges.find? (fun h => s.ownBusy h (s.autoOwner h)) = some gid →
      exec .autoEnable s = .next (Claims.ownRefusal s gid)) ∧
    ((fn.val = 0 ∨ ((s.groupOwn (8 * st + g)).owner = some fn.val ∧ s.fnOn fn = true)) →
      ((s.groupOwn (8 * st + g)).xfer = false ∨ on = true ∨ s.xferBusy (8 * st + g) = false) →
      exec (.groupXferWrite fn st g on) s = .next (s.putOwn (8 * st + g) { s.groupOwn (8 * st + g) with xfer := on })) ∧
    ((fn.val = 0 ∨ ((s.groupOwn (8 * st + g)).owner = some fn.val ∧ s.fnOn fn = true)) →
      (s.groupOwn (8 * st + g)).xfer = true → on = false → s.xferBusy (8 * st + g) = true →
      exec (.groupXferWrite fn st g on) s = .next (Claims.ownRefusal s (8 * st + g)))

/-- The end of a group's clearing (R250): every byte of the group reads 0 and every byte of every other group reads as before. -/
def Sys2Proof.Claims.GroupClearZeroesItsGroup : Prop :=
  ∀ (st : StackId) (g : Fin 8) (s : State), (s.groupOwn (8 * st + g)).clearing = true →
    ∃ t, exec (.groupClearDone st g) s = .next t ∧
      (∀ off < 2 ^ 33, smapGet 0 t.stackMem (stackKey (8 * st + g) off) = 0) ∧
      (Memory.wf s.stackMem = true → ∀ a, a / 2 ^ 33 ≠ 8 * st.val + g.val → smapGet 0 t.stackMem a = smapGet 0 s.stackMem a) ∧
      (t.groupOwn (8 * st + g)).clearing = false ∧ t.hostMem = s.hostMem ∧ t.ports = s.ports ∧ t.fns = s.fns

/-- Ownership of channel groups, and the clearing of a group. -/
def Obligations.OwnershipAndClears : Prop :=
  Claims.OwnershipCommands ∧ Claims.GroupClearZeroesItsGroup

/-- Where the commands of channel groups complete (R248 to R250, R265), and with what: GROUP_CLEAR_DONE ends the clear of its group, which reads zero,
and is nothing where no clear is in progress; PF0's OWNERSHIP_WRITE, refused at none of the eight groups, gives every group the written owner and
XFER, and begins the clear of each with a new owner; AUTO_ENABLE, refused at no group, gives every group its owner under the automatic rule;
GROUP_XFER_WRITE writes its group's XFER. No other group changes. That a reserved group keeps its owner under the automatic rule is the model's choice
(log entry 43). -/
def Obligations.GroupCommandsComplete : Prop :=
  ∀ (st : StackId) (g : Fin 8) (value : Word) (on : Bool) (s : State), (∀ n, (s.stack n).own.length = 8) →
    let gid := 8 * st.val + g.val
    let o := s.groupOwn gid
    let only (t : State) : Prop := ∀ h, h ≠ gid → t.groupOwn h = s.groupOwn h
    (o.clearing = true → ∃ t, exec (.groupClearDone st g) s = .next t ∧ t.groupOwn gid = { o with clearing := false } ∧ only t ∧
      ∀ off < 2 ^ 33, smapGet 0 t.stackMem (stackKey gid off) = 0) ∧
    (o.clearing = false → exec (.groupClearDone st g) s = .next s) ∧
    (s.ownAuto = false → (∀ h < 8, s.ownWriteRefused st value h = false) →
      ∃ t, exec (.ownershipWrite 0 st value) s = .next t ∧ t.stackMem = s.stackMem ∧
        (∀ h < 8, let a := s.groupOwn (8 * st.val + h)
          t.groupOwn (8 * st.val + h) =
            { valid := bitAt value (8 * h + 7), xfer := bitAt value (8 * h + 6), pas := BitVec.ofNat 4 (field value (8 * h + 3) (8 * h))
              clearing := a.clearing || (bitAt value (8 * h + 7) && decide (a.owner ≠ some (field value (8 * h + 3) (8 * h)))) }) ∧
        ∀ h, h / 8 ≠ st.val → t.groupOwn h = s.groupOwn h) ∧
    (s.ownAuto = false → (∀ h ∈ s.autoChanges, s.ownBusy h (s.autoOwner h) = false) →
      ∃ t, exec .autoEnable s = .next t ∧ t.ownAuto = true ∧ t.stackMem = s.stackMem ∧ ∀ h < 64, (t.groupOwn h).owner = s.autoOwner h) ∧
    (s.ownAuto = true → exec .autoEnable s = .next s) ∧
    ((o.xfer = false ∨ on = true ∨ s.xferBusy gid = false) → ∃ t, exec (.groupXferWrite 0 st g on) s = .next t ∧
      t.groupOwn gid = { o with xfer := on } ∧ only t ∧ t.stackMem = s.stackMem) ∧
    (∀ fn : FnId, o.owner = some fn.val → s.fnOn fn = true → (o.xfer = false ∨ on = true ∨ s.xferBusy gid = false) →
      ∃ t, exec (.groupXferWrite fn st g on) s = .next t ∧
        t.groupOwn gid = { o with xfer := on } ∧ only t ∧ t.stackMem = s.stackMem)

/-- Refresh, scrub and retries of the stacks (R70, R257, R258, R260, R261, R490): a watch's start scrubs the pasture's groups and adds up
its range counts, once a watch; a late refresh and the care of groups that do not beat come when their interval is over; a retried
stack write stops the pasture where the retry fails; in a stopped pasture a retry that succeeds completes and its data is discarded (R433). -/
def Sys2Proof.Claims.StackUpkeep : Prop :=
  ∀ (p : PasId) (st : StackId) (g : Fin 8) (vx : Vx) (vy : Vy) (s : State) (c : BurstCmd) (q : Nat) (l : Landing) (corr : Bool),
    let x := s.pasture p
    let log := s.logOf p
    let gid := 8 * st.val + g.val
    let k := tileKey vx vy
    let visited := (s.ownedGroups p).foldl (fun s g => s.scrubGroup g) s
    (x.beating = true → log % 4096 = 0 → x.watchSeen ≤ log / 4096 →
      exec (.watchStart p) s = .next (((visited.tilesOf p).foldl (fun s k => s.rwFlush k p) visited).modPas p fun x =>
        { x with watchSeen := log / 4096 + 1, lastWatch := s.now })) ∧
    (x.beating = true → 3500 * nsT ≤ s.now - max x.lastWatch x.lastLate →
      exec (.lateRefresh p) s = .next ((((s.stacksOf p).foldl (fun s n =>
        s.modStack n fun y => { y with lateRefresh := satInc y.lateRefresh }) visited).delayLandings p (s.stacksOf p)).modPas p
          fun x => { x with lastLate := s.now })) ∧
    (s.beatsAt (s.groupOwn gid).owner = false → s.maintInterval st ≤ s.now - smapGet 0 (s.stack st).maintTime g →
      exec (.unownedGroupMaint st g) s = .next ((s.scrubGroup gid).modStack st fun x =>
        { x with maintTime := smapPut x.maintTime g s.now })) ∧
    ((s.cmds.find? fun c => c.write && decide (c.tile = k)) = some c → s.pasOf vx = some q → s.live k = true →
      exec (.stackWriteRetry vx vy true) s = .next (s.modStack (c.group / 8) fun x => { x with retries := satInc x.retries })) ∧
    ((s.cmds.find? fun c => c.write && decide (c.tile = k)) = some c → s.pasOf vx = some q → s.live k = true →
      ∃ t u : State, exec (.stackWriteRetry vx vy false) s = .next t ∧ t = u.stopTile k St.STACK_WRITE_FAIL ∧ u.tiles = s.tiles ∧
        u.pas = s.pas ∧ u.hostMem = s.hostMem ∧ (u.stack (c.group / 8)).errStatus = St.STACK_WRITE_FAIL) ∧
    (s.live k = true → s.pasOf vx = some q → (s.tile k).landings = [l] → l.arrival = .reread false corr →
      exec (.stackReread vx vy) s = .next (((if corr then s.stkCorrected l.stack else s).modTile k fun t =>
        { t with
          landings := [{ l with arrival := .ready }]
          holdEnd := if l.due = (s.tile k).beat then some s.now else t.holdEnd }).noteHoldsAt k)) ∧
    (s.live k = true → s.pasOf vx = some q → (s.tile k).landings = [l] → l.arrival = .reread true corr → l.due = (s.tile k).beat →
      exec (.stackReread vx vy) s =
        .next ((s.stkRecord l.stack q l.saddr St.STACK_ECC_UNCORR).stopTile k St.STACK_ECC_UNCORR)) ∧
    (s.live k = false → s.pasOf vx = some q → (s.pasture q).stopped = true → (s.tile k).landings = [l] → l.arrival = .reread false corr →
      exec (.stackReread vx vy) s =
        .next ((if corr then s.stkCorrected l.stack else s).modTile k fun t => { t with landings := [] })) ∧
    (s.live k = false → s.pasOf vx = some q → (s.pasture q).stopped = true → (s.tile k).landings = [l] → l.arrival = .reread true corr →
      l.due = (s.tile k).beat → exec (.stackReread vx vy) s =
        .next ((s.stkRecord l.stack q l.saddr St.STACK_ECC_UNCORR).modTile k fun t => { t with landings := [] })) ∧
    (s.live k = false → (s.cmds.find? fun c => c.write && decide (c.tile = k)) = some c → s.pasOf vx = some q → (s.pasture q).stopped = true →
      exec (.stackWriteRetry vx vy true) s = .next (s.modStack (c.group / 8) fun x => { x with retries := satInc x.retries }) ∧
      ∃ t, exec (.stackWriteRetry vx vy false) s = .next t ∧ (t.stack (c.group / 8)).errStatus = St.STACK_WRITE_FAIL ∧
        t.tiles = s.tiles ∧ t.pas = s.pas)

/-- The scratchpad scrubber (R125) visits the next line of every bank once in 64 beats, in a beat in which the bank has no access: corrected
words are counted and mended, and an uncorrectable one, the lowest line's first, stops the pasture. Without a bank to visit nothing changes. -/
def Sys2Proof.Claims.ScrubVisits : Prop :=
  ∀ (vx : Vx) (vy : Vy) (s : State) (w bank : Nat),
    let k := tileKey vx vy
    let t := s.tile k
    let banks := s.scrubBanks k
    let ws := banks.flatMap t.scrubWords
    let swept := (s.modTile k fun t => { t with
      upset1 := t.upset1.filter fun w => !ws.contains w
      scrubPos := banks.foldl (fun (m : SMap Nat) b => smapPut m b (smapGet 0 m b + 1)) t.scrubPos
      scrubWin := banks.foldl (fun (m : SMap Nat) b => smapPut m b (t.beat / 64)) t.scrubWin
      sideUse := (banks.filter fun b => decide (b = 0) || decide (28 ≤ b)).foldl
        (fun (m : SMap (Nat × Nat)) b => smapPut m b (t.beat, s.now)) t.sideUse }).countCorrected k
          (ws.filter fun w => t.upset1.contains w).length
    (bank ∈ banks ↔ bank < 32 ∧ smapFind t.scrubWin bank ≠ some (t.beat / 64) ∧ s.bankBusy k bank = false) ∧
    (banks = [] → exec (.scrubVisit vx vy) s = .next s) ∧
    (s.live k = true → banks ≠ [] → s.mainFault k = none →
      ((∀ v ∈ ws, t.upset2.contains v = false) → exec (.scrubVisit vx vy) s = .next swept) ∧
      (w ∈ ws → t.upset2.contains w = true → (∀ v ∈ ws, t.upset2.contains v = true → wordAddr w ≤ wordAddr v) →
        swept.mainFault k = none → exec (.scrubVisit vx vy) s = .next ((swept.spadFaulted k 3
          ⟨St.SPD_ECC_UNCORR, w / 8 % 32, (wordAddr w : Int)⟩).stopTile k St.SPD_ECC_UNCORR)))

/-- A stack's temperature (R50, R490): above 95 °C it is hot, until it is below 92 °C; above 100 °C the pastures that own its groups
stop. A hot stack's extra refresh may make reads late, and counts them. -/
def Sys2Proof.Claims.StackTemperature : Prop :=
  ∀ (st : StackId) (temp : BitVec 16) (s : State), s.railsUp = true →
    ∃ t, exec (.stackTempReport st temp) s = .next t ∧ (t.stack st).temp = temp ∧
      ((t.stack st).hot = (hotter temp 95 || ((s.stack st).hot && !cooler temp 92))) ∧
      ((t.stack st).overtemp = (hotter temp 100 || ((s.stack st).overtemp && !cooler temp 95))) ∧
      (t.stack st).own = (s.stack st).own ∧ (∀ j, j ≠ st.val → t.stack j = s.stack j) ∧ t.tiles = s.tiles ∧ t.ports = s.ports ∧
      t.stackMem = s.stackMem ∧
      (∀ q ∈ s.ownersOf st, hotter temp 100 = true → (t.pasture q).stopped = true) ∧
      (∀ q, hotter temp 100 = false → (t.pasture q).stopped = (s.pasture q).stopped)

/-- The extra refresh of a hot stack (R490): due every 1.5 µs, it may make scheduled reads late, changes no data of theirs, and counts; of a pasture only
the account of its waits changes. -/
def Sys2Proof.Claims.HotStackRefresh : Prop :=
  ∀ (st : StackId) (s : State), (s.stack st).hot = true → 1500 * nsT ≤ s.now - (s.stack st).hotTime →
    ∃ t, exec (.stackHotRefresh st) s = .next t ∧ (t.stack st).hotTime = s.now ∧ t.stackMem = s.stackMem ∧ t.hostMem = s.hostMem ∧
      (∀ q, { t.pasture q with waitTime := (s.pasture q).waitTime, waitSince := (s.pasture q).waitSince } = s.pasture q) ∧
      ∀ k, (t.tile k).beat = (s.tile k).beat ∧ (t.tile k).spad = (s.tile k).spad ∧
        ((t.tile k).landings.map fun l => (l.due, l.addr, l.data)) = ((s.tile k).landings.map fun l => (l.due, l.addr, l.data))

/-- Refresh, scrub, retries and temperature of the stacks, and the scratchpad scrubber. SPD_ERR_ADDR as the line's first byte (log entry 29), windows
of 64 beats (35), which reads are late (36), which write is retried (37), the flush of every tile at a watch (38) and retries of a stopped pasture
(126) are the model's choices. -/
def Obligations.StacksAndScrubs : Prop :=
  Claims.StackUpkeep ∧ Claims.ScrubVisits ∧ Claims.StackTemperature ∧ Claims.HotStackRefresh

/-! ## Power -/

/-- Pace limits (R54, R56, R489): a write to PACE_LIMIT asks for a limit between the grade's floor and 1,800, and the limit in force is
the lowest of it and the helm's three. -/
def Sys2Proof.Claims.PaceLimitInForce : Prop :=
  ∀ (fn : FnId) (p : PasId) (value : BitVec 12) (s : State), s.mayWrite fn p = true →
    ∃ t, exec (.paceLimitWrite fn p value) s = .next t ∧
      (t.pasture p).paceLimit.toNat = min 1800 (max s.facts.grade.floor value.toNat) ∧
      ((t.pasture p).paceInForce.toNat = min (min (min (t.pasture p).paceLimit.toNat
          (((s.pasture p).capLimit.map (·.toNat)).getD 4095)) (((s.pasture p).heatLimit.map (·.toNat)).getD 4095))
          (((s.pasture p).stackLimit.map (·.toNat)).getD 4095)) ∧
      t = s.putPas p { s.pasture p with paceLimit := (t.pasture p).paceLimit, paceInForce := (t.pasture p).paceInForce }

/-- The helm (R51, R52): one update leaves the other half's rail, and moves its own by at most 10 mV inside 550 to 850 mV: toward the
lowest voltage at which every sextant is fast enough for the half's highest target, and not within 5 µs of the last update. -/
def Sys2Proof.Claims.HelmMovesTenMillivolts : Prop :=
  ∀ (h g : Half) (m : InputReading) (s : State), s.railsUp = true → 550 ≤ (s.half h).vcore.toNat → (s.half h).vcore.toNat ≤ 850 →
    ∃ t, exec (.helmUpdate h m) s = .next t ∧
      ((s.half h).state = .live → (s.half h).fresh s.now = false → ∃ v, (t.half h).vcore.toNat = stepTo (s.half h).vcore.toNat v ∧
        (t.half h).target.toNat = (((s.measureInput m).applyCap).halfTarget h) % 4096 ∧
        v = ((s.measureInput m).applyCap).chosenVolt h (((s.measureInput m).applyCap).halfTarget h)) ∧
      ((s.half h).fresh s.now = true → t.half h = s.half h) ∧
      550 ≤ (t.half h).vcore.toNat ∧ (t.half h).vcore.toNat ≤ 850 ∧
      (t.half h).vcore.toNat ≤ (s.half h).vcore.toNat + 10 ∧ (s.half h).vcore.toNat ≤ (t.half h).vcore.toNat + 10 ∧
      (t.half h).state = (s.half h).state ∧ (g ≠ h → t.half g = s.half g) ∧
      t.power.vin = m.vin ∧ t.power.iin = m.iin ∧ t.power.pin = m.pin

/-- The pace limit in force and the helm's steps. Which voltage the prediction picks is a free value, and the step toward it is the model's choice
(log entry 89). -/
def Obligations.PaceAndHelm : Prop :=
  Claims.PaceLimitInForce ∧ Claims.HelmMovesTenMillivolts

/-- Measurements (R50, R54, R63): the power cap acts on every beating pasture's pace; a rate below the floor is a breach, with ALERT
cause 1 and the event; a sextant's report is kept, and above 105 °C its half is throttled. -/
def Sys2Proof.Claims.PowerMeasurements : Prop :=
  ∀ (m : InputReading) (p : PasId) (rate : BitVec 12) (n : Fin 64) (period temp : BitVec 16) (s : State),
    let seen : State := { s with power := { s.power with
      sxtTemp := smapPut s.power.sxtTemp n temp, sxtPeriod := smapPut s.power.sxtPeriod n period } }
    let h := sextantHalf n
    let ts := (sextantsOf h).filterMap fun i => smapFind seen.power.sxtTemp i
    (s.railsUp = true → s.facts.grade.cap ≤ m.pin.toNat →
      exec (.powerCapReached m) s = .next ((s.measureInput m).lowerForCap.capEvent (s.measureInput m).allAtFloor)) ∧
    ((s.pasture p).beating = true → rate.toNat < s.facts.grade.floor →
      exec (.floorBreach p rate) s = .next ((((s.modPas p fun x => { x with floorBreach := true, rate := rate }).pasEvent p
        St.PWR_FLOOR_BREACH rate.toNat).alert 1).noteCause p St.PWR_FLOOR_BREACH)) ∧
    (s.railsUp = true → ts.any (hotter · 105) = true →
      exec (.sextantReport n period temp) s = .next (seen.throttleHalf h)) ∧
    (s.railsUp = true → ts.any (hotter · 105) = false → s.power.throttle h = true → ts.all (cooler · 102) = true →
      exec (.sextantReport n period temp) s = .next (seen.releaseHalf h)) ∧
    (s.railsUp = true → ts.any (hotter · 105) = false → s.power.throttle h = false →
      exec (.sextantReport n period temp) s = .next seen)

/-- The input stage (R486 to R488): power good begins a cold start with the core rails up, its loss switches the package off and notes the time; each
fault of the input opens the eFuse or is an event; the third consecutive trip leaves it open (what counts as consecutive is the model's choice,
log entry 125). -/
def Sys2Proof.Claims.InputStage : Prop :=
  ∀ (bootMode : BitVec 2) (nodeId : BitVec 5) (s : State),
    let p := s.power
    let opened (t : State) : State := { t with
      boot := { t.boot with report := t.boot.report ++ [St.PWR_EFUSE_TRIP] }
      power := { t.power with eFuseTrips := satInc t.power.eFuseTrips, eFuseOpen := true, tripTime := t.now } }
    let trips := (if s.epoch + 1000 * msT ≤ s.now then 0 else p.trips) + 1
    let tripped : State := { s with power := { p with trips := trips, stayOpen := decide (3 ≤ trips) } }
    let west := s.draw.2.railUp
    let east := west.2.railUp
    let event (st : Status) : State := (s.pkgEvent st p.vin.toNat).alert 6
    (p.good = false → p.eFuseOpen = false → s.lowSecond = false → exec (.powerGood bootMode nodeId) s = .next { east.2 with
      epoch := s.now
      west := { s.west with vcore := west.1 }
      east := { s.east with vcore := east.1 }
      boot := { s.boot with bootMode := bootMode, nodeId := nodeId, bootCount := satInc s.boot.bootCount }
      sec := { s.sec with challenge := BitVec.ofNat 256 s.draw.1 }
      power := { p with good := true, rails := true, serviceRail := true, overV := false, stayOpen := false, lossTime := none } }) ∧
    (p.good = true → exec .powerLoss s = .next { s.powerOff with
      power := { s.powerOff.power with lossTime := some s.powerOff.now } }) ∧
    (p.good = false → exec .inputReversed s = .next { s with power := { p with latch := true } }) ∧
    (p.good = true → exec .inputHigh s = .next (event St.PWR_INPUT_HIGH) ∧ exec .inputLow s = .next (event St.PWR_INPUT_LOW) ∧
      exec .inputOvercurrent s = .next (event St.PWR_INPUT_OVERCURRENT)) ∧
    (p.good = true → exec .inputOvervoltage s = .next ((opened { s with power := { p with overV := true } }).powerOff)) ∧
    (p.good = true → exec .efuseTrip s = .next (opened tripped).powerOff) ∧
    (p.good = true → exec .railOutOfRegulation s = .next (opened tripped).powerOff) ∧
    (p.eFuseOpen = true → p.overV = false → p.stayOpen = false → 1000 * msT ≤ s.now - p.tripTime →
      exec .efuseRetry s = .next { s with power := { p with eFuseOpen := false } }) ∧
    (s.railsUp = true → exec .thermtrip s = .next { s.dropRails with
      boot := { s.boot with report := s.boot.report ++ [St.PWR_THERMTRIP], ready := false, everReady := false, gridW := 0,
                            colMap := [], powered := 0, region := [], downSince := some (s.boot.downSince.getD s.now) }
      power := { p with rails := false, thermtrip := true, thermtrips := satInc p.thermtrips, throttleW := false,
                        throttleE := false, capAtFloor := false } })

/-- Power measurements and the input stage. The cap, the floor breach and the throttle on every pasture that beats (log entry 18), free rail voltages
(88), free steps of the limits (89) and which trips are consecutive (125) are the model's choices. -/
def Obligations.PowerMeasuredAndInput : Prop :=
  Claims.PowerMeasurements ∧ Claims.InputStage

/-- Parking (R30, R410, R425, R426, R488): a half that no enabled pasture uses parks: its tiles lose everything but that they are quarantined and
which links are out of use, and no other tile changes; one that a pasture uses stays as it is; an unpark brings up the rail, in the helm's range, and
powers all its physical columns; and its step 9 makes it live again. A start voltage that is free and a map that stays at an unpark are the model's
choices (log entries 88, 91 and 92). -/
def Obligations.ParkingHalves : Prop :=
  ∀ (h : Half) (failures : List BistFailure) (v : FirmwareVerdict) (s : State), s.boot.ready = true →
    let ks := s.halfTiles h
    ((s.half h).state = .live → ((List.range 16).any fun p => (s.pasture p).enable && s.usesHalf p h) = false →
      exec (.parkHalf h) s = .next (s.park h) ∧ ((s.park h).half h).state = .parked ∧
      (∀ k ∈ ks, (s.park h).tile k = { quarantined := (s.tile k).quarantined, linkOut := (s.tile k).linkOut }) ∧
      (∀ k, k ∉ ks → (s.park h).tile k = s.tile k)) ∧
    (((List.range 16).any fun p => (s.pasture p).enable && s.usesHalf p h) = true → exec (.parkHalf h) s = .next s) ∧
    ((s.half h).state = .parked → exec (.unparkHalf h) s =
      .next (({ s.railUp.2 with
        mgt := s.mgt.setPark h 0
        boot := { s.boot with powered := s.boot.powered ||| columnMask (halfColumns h) } }).putHalf h
          { s.half h with state := .poweringUp, vcore := s.railUp.1 })) ∧
    (550 ≤ s.railUp.1.toNat ∧ s.railUp.1.toNat ≤ 850) ∧
    ((s.half h).state = .poweringUp →
      ∃ t, exec (.unparkDone h failures v) s = .next t ∧ (t.half h).state = .live ∧ (t.half h).vcore = (s.half h).vcore ∧
        t.hostMem = s.hostMem ∧ t.stackMem = s.stackMem ∧ t.ports = s.ports)

/-! ## Bring-up -/

/-- The steps of a flash boot (R404 to R421): a step whose predecessors are done runs and ends; the last of steps 9 and 4b makes the
package ready unless it is in management-only mode. -/
def Sys2Proof.Claims.FlashBootSteps : Prop :=
  ∀ (sv : StackVerdict) (ok : Bool) (w : Fin 17) (wv : WaveVerdict) (fs : List BistFailure) (fv : FirmwareVerdict) (s : State),
    (s.flashStep 4 [3] = true →
      exec (.bootStackTrain sv) s = .next (((s.runStep 4).trainStacks sv).endStep [4])) ∧
    (s.flashStep 14 [4] = true → exec (.bootStackClear true) s =
      .next (({ s.runStep 4 with stackMem := [], bursts := [] }.endStep [14]).tryReady)) ∧
    (s.flashStep 14 [4] = true → ok = false → exec (.bootStackClear ok) s =
      .next ((((s.runStep 4).stepToMgmt St.BOOT_STACK_TRAIN).endStep [14]).tryReady)) ∧
    (s.flashStep 5 [3] = true → s.boot.waves = w.val →
      exec (.bootWave w wv) s = .next (((s.runStep 5).powerWave w wv).endWave)) ∧
    (s.flashStep 6 [5] = true → exec (.bootBist fs) s = .next ({ s with
      tiles := [], boot := { s.boot with step := 6, state := 1, failed := fs } }.endStep [6])) ∧
    (s.flashStep 7 [6] = true → exec .bootDefectMap s = .next (((s.runStep 7).formDefects).endStep [7])) ∧
    (s.flashStep 8 [7] = true → exec .bootColumnMap s = .next (((s.runStep 8).formColumns).endStep [8])) ∧
    (s.flashStep 9 [8, 4] = true →
      exec (.bootTileFw fv) s = .next ((((s.runStep 9).runFirmware fv).endStep [9]).tryReady))

/-- Steps 2 and 3 (R404, R406, R407, R422, R446, R449): the first firmware slot of the two whose image passes is used, slot B's before slot A's where the
boot mode says so; a bad first slot is reported, and with none, or where the boot mode says so, the host steps the bring-up; fuses or a flash
interface that fail lead to management-only mode; an image passes whose IMAGE_SVN is at most 64 and not below FW_SVN, and whose SM3 digest
is signed under the root key; step 3 starts the host interface. -/
def Sys2Proof.Claims.FirstBootSteps : Prop :=
  ∀ (v : ShepherdVerdict) (w : ImageVerdict) (s : State),
    let s1 := (s.runStep 2).clearOverride
    let s2 := s1.fuseOffPorts.raiseReports
    let s3 := if s.bootChoice = 1 then s1.hostStepped else s1
    let x : Nat × ImageVerdict := if s.bootChoice = 2 then (1, v.slotB) else (0, v.slotA)
    let y : Nat × ImageVerdict := if s.bootChoice = 2 then (0, v.slotA) else (1, v.slotB)
    (s.imageOk w = true ↔ w.svn ≤ 64 ∧ s.sec.fwSvn ≤ w.svn ∧ sm3 w.key = s.facts.rootKeyHash ∧
      sm2Verify w.key (digestBytes (sm3 (imageBytes w))) w.signature = true) ∧
    (s.railsUp = true → s.boot.step = 0 → v.fusesOk = true → v.flashOk = true → s.bootChoice ≠ 1 →
      (s2.imageOk x.2 = true → exec (.bootShepherdVerify v) s = .next ((s2.useImage x.1 x.2).endStep [2])) ∧
      (s2.imageOk x.2 = false → s2.imageOk y.2 = true →
        exec (.bootShepherdVerify v) s = .next (((s2.bootEvent St.BOOT_SLOT_BAD x.1).useImage y.1 y.2).endStep [2])) ∧
      (s2.imageOk x.2 = false → s2.imageOk y.2 = false → exec (.bootShepherdVerify v) s =
        .next ((s2.bootEvent St.BOOT_SLOT_BAD x.1).bootEvent St.BOOT_FLASH_INVALID 0).hostStepped)) ∧
    (s.railsUp = true → s.boot.step = 0 → v.fusesOk = true → v.flashOk = true → s.bootChoice = 1 →
      exec (.bootShepherdVerify v) s = .next s1.hostStepped.fuseOffPorts) ∧
    (s.railsUp = true → s.boot.step = 0 → v.fusesOk = false →
      exec (.bootShepherdVerify v) s = .next ((s3.raiseReports.stepToMgmt St.BOOT_FUSE).endStep [])) ∧
    (s.railsUp = true → s.boot.step = 0 → v.fusesOk = true → v.flashOk = false →
      exec (.bootShepherdVerify v) s = .next (s3.raiseReports.enterMgmtOnly.endStep [])) ∧
    (s.railsUp = true → s.boot.step ≠ 0 → s.boot.done.contains 3 = false →
      exec .bootHifStart s = .next { s with boot := { s.boot with
        done := s.boot.done ++ [3], step := 3, state := 2, crs := !s.boot.mgmtOnly && decide (s.boot.mode = 0) } })

/-- The host-stepped path is open: step 3 is done, the mode is the host's, and the package is not in management-only mode. -/
def Sys2Proof.Claims.hostPath (s : State) : Bool :=
  s.railsUp && s.boot.done.contains 3 && decide (s.boot.mode = 1) && !s.boot.mgmtOnly

/-- The state in which step n of the host-stepped path runs: BOOT_STEP_CTL and BOOT_STAT show the step. -/
def Sys2Proof.Claims.atHostStep (s : State) (n : Nat) (arg : Byte) : State :=
  { s with boot := { s.boot with ctlStep := BitVec.ofNat 8 n, ctlArg := arg, step := BitVec.ofNat 8 n, state := 1 } }

/-- The host-stepped path (R422): a request in order runs its step, one out of order or repeated is
ST_BOOT_STEP_ORDER, in management-only mode ST_BOOT_MGMT_ONLY, and runs nothing; in a flash boot it is ignored. -/
def Sys2Proof.Claims.HostSteppedPath : Prop :=
  ∀ (arg : Byte) (v : ShepherdVerdict) (sv : StackVerdict) (ok : Bool) (wv : WaveVerdict) (fs : List BistFailure)
    (fv : FirmwareVerdict) (s : State),
    let img := if arg = 0 then v.slotA else if arg = 1 then v.slotB else v.host
    let run (n : Nat) : State := Claims.atHostStep s n arg
    let asked (n : Nat) (st : Status) : State :=
      { s with boot := { s.boot with ctlStep := BitVec.ofNat 8 n, ctlArg := arg } }.bootEvent st n
    let steps : List (Nat × Instr) := [(2, .bootStepRequest2 arg v), (4, .bootStepRequest4 arg sv ok), (5, .bootStepRequest5 arg wv),
      (6, .bootStepRequest6 arg fs), (7, .bootStepRequest7 arg), (8, .bootStepRequest8 arg), (9, .bootStepRequest9 arg fv)]
    let done (n : Nat) : Prop := s.boot.done.contains n = true
    (s.boot.mode = 0 → ∀ c ∈ steps, exec c.2 s = .next s) ∧
    (s.railsUp = true → done 3 → s.boot.mode = 1 → s.boot.mgmtOnly = true → ∀ c ∈ steps, exec c.2 s = .next (asked c.1 St.BOOT_MGMT_ONLY)) ∧
    (Claims.hostPath s = true → ∀ c ∈ steps,
      (c.1 = 2 ∧ (done 2 ∨ 3 ≤ arg)) ∨ (c.1 = 4 ∧ (¬done 2 ∨ done 4)) ∨ (c.1 = 5 ∧ (¬done 2 ∨ done 5 ∨ s.boot.waves ≠ arg.toNat)) ∨
        (c.1 = 6 ∧ (¬done 5 ∨ done 6)) ∨ (c.1 = 7 ∧ (¬done 6 ∨ done 7)) ∨ (c.1 = 8 ∧ (¬done 7 ∨ done 8)) ∨
        (c.1 = 9 ∧ (¬done 8 ∨ ¬done 4 ∨ done 9)) →
      exec c.2 s = .next (asked c.1 St.BOOT_STEP_ORDER)) ∧
    (Claims.hostPath s = true →
    (s.boot.done.contains 2 = false → arg < 3 → v.fusesOk = true → (run 2).raiseReports.imageOk img = true →
      exec (.bootStepRequest2 arg v) s = .next (((run 2).raiseReports.useImage arg.toNat img).endStep [2])) ∧
    (s.boot.done.contains 2 = false → arg < 3 → v.fusesOk = true → (run 2).raiseReports.imageOk img = false →
      exec (.bootStepRequest2 arg v) s = .next (((run 2).raiseReports.bootEvent St.BOOT_SLOT_BAD arg.toNat).failStep)) ∧
    (s.boot.done.contains 2 = true → s.boot.done.contains 4 = false → ((run 4).trainStacks sv).boot.mgmtOnly = false →
      exec (.bootStepRequest4 arg sv ok) s = .next (((((run 4).trainStacks sv).clearStacks ok).endStep [4, 14]).tryReady)) ∧
    (s.boot.done.contains 2 = true → s.boot.done.contains 5 = false → s.boot.waves = arg.toNat →
      exec (.bootStepRequest5 arg wv) s = .next (((run 5).powerWave arg.toNat wv).endWave)) ∧
    (s.boot.done.contains 5 = true → s.boot.done.contains 6 = false →
      exec (.bootStepRequest6 arg fs) s = .next (((run 6).runBist fs).endStep [6])) ∧
    (s.boot.done.contains 6 = true → s.boot.done.contains 7 = false →
      exec (.bootStepRequest7 arg) s = .next ((run 7).formDefects.endStep [7])) ∧
    (s.boot.done.contains 7 = true → s.boot.done.contains 8 = false →
      exec (.bootStepRequest8 arg) s = .next ((run 8).formColumns.endStep [8])) ∧
    (s.boot.done.contains 8 = true → s.boot.done.contains 4 = true → s.boot.done.contains 9 = false →
      exec (.bootStepRequest9 arg fv) s = .next ((((run 9).runFirmware fv).endStep [9]).tryReady)))

/-- Readiness (R405): the package becomes ready exactly when steps 9 and 4b are done, and not in management-only mode or after a ring
failure; becoming ready ends the configuration retries and changes nothing else than the boot state. -/
def Sys2Proof.Claims.ReadyAfterSteps9And4b : Prop :=
  ∀ s : State,
    (s.tryReady.boot.ready = true ↔ s.boot.ready = true ∨
      (s.boot.mgmtOnly = false ∧ s.boot.ringFailed = false ∧ 9 ∈ s.boot.done ∧ 14 ∈ s.boot.done)) ∧
    (s.boot.ready = false → s.tryReady.boot.ready = true → s.tryReady.boot.crs = false) ∧
    { s.tryReady with boot := s.boot } = s

/-- The steps of a flash boot and of the host-stepped path. The layout of an image and what is signed are the model's choice (log entry 132). -/
def Obligations.BringUpSteps : Prop :=
  Claims.FlashBootSteps ∧ Claims.FirstBootSteps ∧ Claims.HostSteppedPath ∧ Claims.ReadyAfterSteps9And4b

/-- The column map of one half (R414): m good columns in increasing order from the outer edge, the outermost at index 0, 1 or 2, no
reach above 3, and the innermost within one column of the seam. -/
def Obligations.ColumnMapIsWithinReach : Prop :=
  ∀ (good : List Bool) (m : Nat) (ms : List Nat), good.length = 34 → mapHalf good m = some ms →
    ms.length = m ∧ (∀ i ∈ ms, i < 34 ∧ good.getD i false = true) ∧ ms.getD 0 0 ≤ 2 ∧
    (∀ j, j + 1 < ms.length → ms.getD j 0 < ms.getD (j + 1) 0 ∧ ms.getD (j + 1) 0 ≤ ms.getD j 0 + 3) ∧
    32 ≤ ms.getD (m - 1) 0

/-! ## Resets and self-tests -/

/-- A pasture reset (R399, R423, R425, R133): its runs fail with ST_HOST_RESET, its flags, waiters, halt count, trackers, open windows, load and self-test
are gone, and STOPPED is cleared but for a quarantined tile; its tiles' units and service engines begin anew and every scratchpad stays; its
enable and REJECTS stay; no other pasture changes but one whose self-test ends with it, and no port. -/
def Sys2Proof.Claims.PastureResets : Prop :=
  ∀ (fn : FnId) (p : PasId) (s : State), s.boot.everReady = true → s.mayWrite fn p = true →
    exec (.pastureReset fn p) s = .next (s.resetPasture p true) ∧
    let x := (s.resetPasture p true).pasture p
    x.runs = [] ∧ x.flags = 0 ∧ x.flagWaiters = [] ∧ x.haltCount = 0 ∧ x.rejects = (s.pasture p).rejects ∧
    x.trackers = [] ∧ x.loading = none ∧ x.inTest = false ∧ x.enable = (s.pasture p).enable ∧ x.stopped = s.hasQuarantine p ∧
    (∀ w, (x.window w).isOpen = false) ∧
    (∀ q, q ≠ p.val → (s.pasture q).inTest = false → (s.resetPasture p true).pasture q = s.pasture q) ∧
    (∀ q < 16, q ≠ p.val → ((s.resetPasture p true).pasture q).inTest = true → ∃ t ∈ s.rel.tests, t.running = true ∧ s.testOn q t = true) ∧
    (s.resetPasture p true).ports = s.ports ∧
    ((s.pasture p).loading = none → (∀ x ∈ s.xfers, x.pas ≠ p.val) → s.rel.tests = [] → (s.resetPasture p true).fns =
      ((((s.pasture p).runs.filter fun r => decide (r.stage ≠ .held)).foldl (fun u r => u.failRun p r St.HOST_RESET) (s.endOutage p))).fns) ∧
    (∀ k, ((s.resetPasture p true).tile k).spad = (s.tile k).spad) ∧
    ∀ k ∈ s.ownTiles p, let u := (s.resetPasture p true).tile k
      u.beat = 0 ∧ u.ip = 0 ∧ u.rho = 0 ∧ u.ctrs = List.replicate 8 0 ∧ u.loops = [] ∧ u.shadows = [] ∧ u.acc = [] ∧ u.mxJobs = [] ∧
      u.vxJobs = [] ∧ u.running = false ∧ u.handler = none ∧ u.slots = [] ∧ u.quarantined = (s.tile k).quarantined

/-- A quarantine (R399, R423, R425): the tile is off, loses its scratchpad and is recorded with CAUSE 5, its pasture is stopped and has no program, and
its runs are gone; no other tile's scratchpad, no port and no stack's byte changes. -/
def Sys2Proof.Claims.TileQuarantines : Prop :=
  ∀ (vx : Vx) (vy : Vy) (s : State) (p : Nat), s.boot.everReady = true → s.offGrid vx vy = false →
    (s.tile (tileKey vx vy)).quarantined = false → s.pasOf vx = some p →
    ∃ t, exec (.tileQuarantine vx vy) s = .next t ∧ (t.tile (tileKey vx vy)).quarantined = true ∧
      (t.tile (tileKey vx vy)).fwRunning = false ∧ (t.pasture p).stopped = true ∧ (t.pasture p).beating = false ∧
      (t.pasture p).runs = [] ∧ (t.pasture p).program = none ∧ t.ports = s.ports ∧ t.stackMem = s.stackMem ∧
      (t.tile (tileKey vx vy)).spad = [] ∧ (∀ k, k ≠ tileKey vx vy → (t.tile k).spad = (s.tile k).spad) ∧
      (s.boot.fdr.length < 2048 → ∃ d, t.boot.fdr = s.boot.fdr ++ [d] ∧ d.kind = 1 ∧ d.cause = 5)

/-- A pasture's reset and a tile's quarantine. That runs recorded and not delivered fail too is the model's reading (log entry 78). -/
def Obligations.PastureResetAndQuarantine : Prop :=
  Claims.PastureResets ∧ Claims.TileQuarantines

/-- The resets of the package's compute part and host side (R424, R426): a warm compute reset ends everything in flight; PERST_N, a hot
reset, a link down and a reset of PF0 also clear every function; a reset of a virtual function clears that function and resets its
pasture. -/
def Sys2Proof.Claims.PackageResets : Prop :=
  ∀ (w : WarmOutcome) (fn : FnId) (s : State),
    (s.boot.everReady = true → s.boot.mgmtOnly = false →
      exec (.warmComputeReset w) s = .next (s.warmReset true w)) ∧
    (∀ c ∈ [Instr.flrPf0 w, .perstN w, .hotReset w, .pcieLinkDown w],
      ∃ t, exec c s = .next t ∧ t = s.hostReset w ∧ ∀ f < 16, (t.func f).enabled = false) ∧
    (fn ≠ 0 → (s.func fn).enabled = true → s.boot.everReady = true → exec (.flrVf fn) s =
      .next (((s.discardFn fn).resetPasture fn false).modPas fn fun x => { x with rejects := 0 })) ∧
    (fn ≠ 0 → (s.func fn).enabled = true → s.boot.everReady = false → exec (.flrVf fn) s =
      .next ((s.discardFn fn).modPas fn fun x => { x with rejects := 0 }))

/-- A warm compute reset leaves nothing in flight and no fold, window or send of a pasture open, whatever the firmware's fetch finds
(R424). -/
def Sys2Proof.Claims.WarmResetLeavesNothingInFlight : Prop :=
  ∀ (w : WarmOutcome) (s : State), s.boot.everReady = true → s.boot.mgmtOnly = false →
    ∃ t, exec (.warmComputeReset w) s = .next t ∧ t.net = [] ∧ t.folds = [] ∧ t.cmds = [] ∧
      t.stackMem = (s.warmClear true).stackMem ∧ ∀ q < 16, (t.pasture q).runs = [] ∧ (t.pasture q).trackers = []

/-- The resets of the compute part and the host side. -/
def Obligations.PackageWideResets : Prop :=
  Claims.PackageResets ∧ Claims.WarmResetLeavesNothingInFlight

/-- Self-test requests (R438 to R440) with nothing of their KIND and TARGET under way: one whose pastures are idle starts, another
waits, or is refused where it does not wait. -/
def Sys2Proof.Claims.SelfTestRequests : Prop :=
  ∀ (p : PasId) (h : Half) (st : StackId) (n : PortId) (nowait : Bool) (s : State), s.mgtUp = true →
    (exec (.selftestTileBist p nowait) s = .next (s.requestTest .tileBist (BitVec.ofNat 8 p) nowait)) ∧
    (exec (.selftestSextant h nowait) s = .next (s.requestTest .sextant (if h = .west then 0 else 1) nowait)) ∧
    (exec (.selftestStackScrub st) s = .next (s.requestTest .stackScrub (BitVec.ofNat 8 st) false)) ∧
    (exec (.selftestEyeScan n) s = .next (s.requestTest .eyeScan (BitVec.ofNat 8 n) false)) ∧
    (exec .selftestSlotCheck s = .next (s.requestTest .slotCheck 0 false)) ∧
    ∀ (kind : SelfTestKind) (target : Byte), s.testUnderWay kind target = none →
      let t : SelfTest := { kind := kind, target := target, since := s.now, seq := s.rel.testSeq }
      let asked : State := { s with rel := { s.rel with
        testSeq := s.rel.testSeq + 1, testLast := smapPut s.rel.testLast (testKindNum kind) s.rel.testSeq } }
      (s.testIdle t = true → s.requestTest kind target nowait = asked.startTest t) ∧
      (s.testIdle t = false → nowait = true → s.requestTest kind target nowait = asked.endTest t St.BOOT_SELFTEST_BUSY) ∧
      (s.testIdle t = false → nowait = false →
        s.requestTest kind target nowait = ({ asked with rel := { asked.rel with tests := s.rel.tests ++ [t] } }.noteTest t 1))

/-- Deferred, timed out and ended self-tests (R439 to R441). -/
def Sys2Proof.Claims.SelfTestEnds : Prop :=
  ∀ (kind : SelfTestKind) (target : Byte) (v : SelfTestVerdict) (s : State) (t : SelfTest), s.testUnderWay kind target = some t →
    let ended := s.endTest t St.OK
    (t.running = false → t.since + 1000 * msT < s.now → exec (.selftestStart kind target) s = .next s) ∧
    (t.running = false → s.testIdle t = true → s.now ≤ t.since + 1000 * msT → exec (.selftestStart kind target) s =
      .next ({ s with rel := { s.rel with tests := s.rel.tests.erase t } }.startTest t)) ∧
    (t.running = false → t.since + 1000 * msT ≤ s.now →
      exec (.selftestDeferTimeout kind target) s = .next (s.endTest t St.BOOT_SELFTEST_BUSY)) ∧
    (t.running = true → s.scrubbed t = true → s.testFailing t v = [] → v.ok = true →
      exec (.selftestDone kind target v) s = .next (((s.testPastures t).foldl (fun s p => s.leaveTest p) ended).startAwaiting))

/-- Self-tests: requests, deferral and ends. What a failing trim or slot check reports is the model's reading (log entry 93). -/
def Obligations.SelfTests : Prop :=
  Claims.SelfTestRequests ∧ Claims.SelfTestEnds

/-- The shepherd, its ring and ALERT_N (R435, R443): a watchdog restart, of at most 50 ms, is reported and drops the loads; a ring flit's third failed
resend clears READY and stops every beating pasture, and one in bring-up ends it in management-only mode (the last clause is the model's reading, log
entry 95); a cleared ALERT bit stays 1 while its condition holds. The resend operand (log entry 51), a running pasture as one that beats (18), and
that the restart drops the loads and lasts a free time (95) are the model's choices. -/
def Obligations.ShepherdRingAndAlert : Prop :=
  ∀ (resend : Fin 4) (value : BitVec 32) (s : State),
    (s.mgtUp = true → exec .shepherdWatchdog s =
      .next ((List.range 16).foldl (fun s p => s.dropLoad p) (({ s.draw.2 with rel := { s.draw.2.rel with
        restartEnd := s.now + s.draw.1 % (50 * msT + 1) } }.alert 9).pkgEvent St.BOOT_SHEPHERD_RESTART 0))) ∧
    (s.railsUp = true → s.boot.ringFailed = false → resend.val < 3 → exec (.ringCrcFail resend) s =
      .next { s with rel := { s.rel with ringResends := satInc s.rel.ringResends } }) ∧
    (s.railsUp = true → s.boot.ringFailed = false → resend.val = 3 →
      ∃ t, exec (.ringCrcFail resend) s = .next t ∧ t.boot.ready = false ∧ t.boot.ringFailed = true ∧
        t.boot.mgmtOnly = (s.boot.mgmtOnly || !s.boot.everReady) ∧ bitAt t.rel.alert 5 = true ∧ (∀ q ∈ s.runningPas, (t.pasture q).stopped = true) ∧ t.tiles = s.tiles ∧ t.ports = s.ports) ∧
    (s.mgtUp = true → ∃ t, exec (.alertClear value) s = .next t ∧
      (∀ i < 10, bitAt t.rel.alert i = (if bitAt value i then s.alertHolds i else bitAt s.rel.alert i)) ∧
      { t with rel := s.rel } = s)

/-! ## Submission rings, completions and vectors -/

/-- Entry e with identity id is at the head of the function's next ring and no check refuses it (R383 to R385). -/
def Sys2Proof.Claims.entry (s : State) (fn : FnId) (ring : Fin 16) (id : EntryId) (e : List Byte) : Bool :=
  decide (s.headEntry fn ring = some (id, e)) && (entryRefusal fn e).isNone

/-- A doorbell moves the ring's tail (R383); an entry that a check refuses completes with its status, whichever command handles it, and
nothing else happens (R384). -/
def Sys2Proof.Claims.DoorbellsAndRefusedEntries : Prop :=
  ∀ (fn : FnId) (ring : Fin 16) (tail : Byte) (s : State) (id : EntryId) (e : List Byte) (st : Status),
    (s.hifUp = true → s.fnOn fn = true → ∃ t, exec (.doorbell fn ring tail) s = .next t ∧
      smapGet 0 (t.func fn).sqTail ring = tail ∧ (t.func fn).sqHead = (s.func fn).sqHead ∧
      (∀ i < (tail - smapGet 0 (s.func fn).sqTail ring).toNat,
        smapGet 0 (t.func fn).sqTime (256 * ring + ((smapGet 0 (s.func fn).sqTail ring).toNat + i) % 256) = s.hifTime.toNat) ∧
      { t with fns := s.fns } = s) ∧
    (s.headEntry fn ring = some (id, e) → entryRefusal fn e = some st →
      (entOp e = 1 → exec (.run fn ring) s = .next ((s.fetched fn ring).answer id e st)) ∧
      (entOp e = 2 → exec (.abort fn ring) s = .next ((s.fetched fn ring).answer id e st)) ∧
      (entOp e = 4 → exec (.xfer fn ring) s = .next ((s.fetched fn ring).answer id e st)) ∧
      (entOp e = 5 → exec (.msg fn ring) s = .next ((s.fetched fn ring).answer id e st)) ∧
      (entOp e = 6 → exec (.cancelMsg fn ring) s = .next ((s.fetched fn ring).answer id e st)))

/-- RUN (R388): admitted runs join the pasture's queue with a new RUN_ID, and an admission entry is posted where the entry asks for one; a
refusal counts and completes. -/
def Sys2Proof.Claims.RunAdmission : Prop :=
  ∀ (fn : FnId) (ring : Fin 16) (s : State) (id : EntryId) (e : List Byte) (r : EntryRec) (d : Nat) (st : Status),
    let s1 := s.fetched fn ring
    let p := entPas e
    let run := runOf id e p (s.runCount + 1).toNat d r
    let admitted := ({ s1 with runCount := s.runCount + 1 }).modPas p fun x => { x with runs := x.runs ++ [run] }
    Claims.entry s fn ring id e = true → entOp e = 1 →
    (s1.admission p e (s.doorbellTime fn ring) = .inr (r, d) → entFlags e % 2 = 0 →
      exec (.run fn ring) s = .next admitted) ∧
    (s1.admission p e (s.doorbellTime fn ring) = .inr (r, d) → entFlags e % 2 = 1 →
      exec (.run fn ring) s = .next (admitted.complete fn
        { id.completion 1 p St.OK with kind := 1, runId := run.runId, deadline := BitVec.ofNat 64 d })) ∧
    (s1.admission p e (s.doorbellTime fn ring) = .inl st →
      exec (.run fn ring) s = .next ((s1.modPas p fun x => { x with rejects := satInc x.rejects }).complete fn
        { id.completion 1 p st with vector := 16 }))

/-- What an admission promises (R388 to R390): an enabled, loaded pasture that is not stopped, at most 64 runs in order of their deadlines, and a
deadline within the entry's limit of its doorbell. From when the limit runs is the model's reading (log entry 74). -/
def Obligations.AdmissionPromises : Prop :=
  ∀ (s : State) (p : Nat) (e : List Byte) (bell d : Nat) (r : EntryRec), s.admission p e bell = .inr (r, d) →
    (s.pasture p).enable = true ∧ (s.pasture p).stopped = false ∧ (s.pasture p).loaded = true ∧ (s.pasture p).loading = none ∧
    (s.pasture p).runs.length < 64 ∧ (s.pasture p).entryPoint (leAt e 8 1) = some r ∧
    d = max s.hifTime.toNat (max (s.pasture p).anchor (s.testEnd p)) + ceilDiv (r.declBeats * 1000) s.facts.grade.floor
      + (2000 + s.ioTime p r.inBytes) + (6000 + s.ioTime p r.outBytes) + r.wptNs * s.wptFactor p + (s.pasture p).marginNs.toNat ∧
    (∀ last, (s.pasture p).qAnchor = none → (s.pasture p).runs.getLast? = some last → last.deadline ≤ d) ∧
    (leAt e 16 4 = 0 ∨ d ≤ bell + leAt e 16 4)

/-- ABORT, MSG, CANCEL and XFER (R386, R395, R265): each accepted entry has its effect and its answer. ABORT takes the oldest of the
outstanding runs of its target, one whose completion is still held among them. -/
def Sys2Proof.Claims.RingEntries : Prop :=
  ∀ (fn : FnId) (ring : Fin 16) (s : State) (id : EntryId) (e : List Byte) (r : Run) (hc : Completion) (m : HostMsg) (n : Nat),
    let s1 := s.fetched fn ring
    let p := entPas e
    let msg : Request := { reg := decide (entFlags e = 2), src := .fn fn, vx := leAt e 8 1, vy := leAt e 9 1,
                           chan := BitVec.ofNat 3 (leAt e 10 1), handler := BitVec.ofNat 4 (leAt e 11 1),
                           slot := BitVec.ofNat 6 n,
                           payload := slice e 16 (if entFlags e = 2 then 16 else leAt e 12 1) }
    let x := transferOf id e s1.now
    Claims.entry s fn ring id e = true →
    let without := s1.modPas p fun x => { x.removeRun r with storeDue := true }
    (entOp e = 2 → ((s1.pasture p).runs.find? fun r => targets id e r.id) = some r → (s1.func fn).heldTarget p e = none →
      (r.stage = .queued ∨ r.stage = .ingressed → exec (.abort fn ring) s =
        .next (without.answerAbort id p St.HOST_ABORTED r.runId)) ∧
      (r.stage = .running → s1.started p r = false → exec (.abort fn ring) s =
        .next ((without.unstart p).answerAbort id p St.HOST_ABORTED r.runId)) ∧
      (s1.started p r = true → exec (.abort fn ring) s =
        .next ((((without.endStall p).resetUnits p).resumeBeats p).answerAbort id p St.HOST_ABORTED r.runId)) ∧
      (r.stage = .recorded ∨ r.stage = .held → exec (.abort fn ring) s =
        .next (s1.answerAbort id p St.HOST_NOTHING_TO_ABORT r.runId))) ∧
    (entOp e = 2 → ((s1.pasture p).runs.find? fun r => targets id e r.id) = none → (s1.func fn).heldTarget p e = none →
      exec (.abort fn ring) s = .next (s1.answerAbort id p St.HOST_NO_SUCH_RUN 0)) ∧
    (entOp e = 2 → (s1.func fn).heldTarget p e = some hc →
      (∀ o, ((s1.pasture p).runs.find? fun r => targets id e r.id) = some o → hc.runId ≤ o.runId) →
      exec (.abort fn ring) s = .next (s1.answerAbort id p St.HOST_NOTHING_TO_ABORT hc.runId)) ∧
    (entOp e = 5 → (s1.func fn).freeSlot = some n →
      exec (.msg fn ring) s = .next ((s1.modFn fn fun f => { f with msgs := f.msgs ++
        [{ id := id, pas := p, slot := BitVec.ofNat 6 n, req := msg }] }).send (.request msg))) ∧
    (entOp e = 6 → ((s1.func fn).msgs.find? fun m => m.blocked.isSome && decide (m.pas = p) && targets id e m.id) = some m →
      exec (.cancelMsg fn ring) s =
        .next (((s1.withdraw m.req).endHostMsg fn m St.CNW_SEND_CANCELLED []).answer id e St.OK)) ∧
    (entOp e = 4 → s1.xferOk x = true → x.restore = true →
      exec (.xfer fn ring) s = .next { s1 with xfers := s1.xfers ++ [x] }) ∧
    (entOp e = 4 → s1.xferOk x = true → x.restore = false →
      exec (.xfer fn ring) s = .next ({ s1 with xfers := s1.xfers ++ [x] }.sendPage x)) ∧
    (entOp e = 4 → s1.xferOk x = false → exec (.xfer fn ring) s = .next (s1.answer id e St.STACK_XFER_RANGE))

/-- Doorbells, refused entries, admission, and the entries of the rings. The lowest free reply slot of a MSG (log entry 40) and a run withdrawn before
its first beat (15) are the model's choices. -/
def Obligations.SubmissionRings : Prop :=
  Claims.DoorbellsAndRefusedEntries ∧ Claims.RunAdmission ∧ Claims.RingEntries

/-- The completion ring (R387): with room and nothing held, a completion is written at the tail with the phase, and the tail moves on, toggling the
phase at the ring's end; without room it is held, none is lost, and the first held one is written when there is room, as that of a breach where the
run's deadline has passed meanwhile (R394). When the ring counts as full is the model's choice (log entry 13). -/
def Obligations.CompletionRing : Prop :=
  ∀ (fn : FnId) (c : Completion) (rest : List Completion) (s : State),
    let f := s.func fn
    let at_ := f.cqBase.toNat / 4096 * 4096 + f.cqTail.toNat * 64
    let g := (s.writeCompletion fn c).func fn
    ((f.held = [] ∧ f.cqRoom = true) → s.complete fn c = s.writeCompletion fn c) ∧
    (¬(f.held = [] ∧ f.cqRoom = true) → s.complete fn c = s.putFn fn { f with held := f.held ++ [c] }) ∧
    (s.writeCompletion fn c).hostMem = (s.writeHost at_ (c.bytes f.cqPhase s.hifTime)).hostMem ∧
    (f.cqTail.toNat + 1 < f.cqSize → g.cqTail = f.cqTail + 1 ∧ g.cqPhase = f.cqPhase) ∧
    (f.cqSize ≤ f.cqTail.toNat + 1 → g.cqTail = 0 ∧ g.cqPhase = !f.cqPhase) ∧ g.cqUsed = f.cqUsed + 1 ∧
    (f.held = c :: rest → f.cqRoom = true → s.fnOn fn = true → (c.opcode = 1 ∧ c.kind = 0 ∧ c.runId ≠ 0) →
      exec (.completionWrite fn) s = .next (((s.putFn fn { f with held := rest }).writeCompletion fn (s.latest c)).modPas c.pasture.toNat
        fun x => { x with runs := x.runs.filter fun r => decide (r.runId ≠ c.runId) })) ∧
    (f.held = c :: rest → f.cqRoom = true → s.fnOn fn = true → ¬(c.opcode = 1 ∧ c.kind = 0 ∧ c.runId ≠ 0) →
      exec (.completionWrite fn) s = .next ((s.putFn fn { f with held := rest }).writeCompletion fn (s.latest c))) ∧
    ((∀ r ∈ (s.pasture c.pasture.toNat).runs, r.runId = c.runId → s.hifTime.toNat ≤ r.deadline) → s.latest c = c)

/-- Interrupt moderation (R397): an unmasked vector fires when COUNT causes are pending, or TIME_US after the first of them; a masked one
drops no cause. -/
def Obligations.VectorModeration : Prop :=
  (∀ (v : Vec) (now : Nat),
    (v.masked = false → v.count.toNat ≤ v.pending + 1 → (v.cause now).pending = 0 ∧ (v.cause now).fired = v.fired + 1) ∧
    (v.masked = false → v.pending + 1 < v.count.toNat →
      (v.cause now).pending = v.pending + 1 ∧ (v.cause now).fired = v.fired) ∧
    (v.masked = true → (v.cause now).pending = v.pending + 1 ∧ (v.cause now).fired = v.fired) ∧
    (v.pending = 0 → (v.cause now).since = now) ∧ (v.pending ≠ 0 → (v.cause now).since = v.since)) ∧
  (∀ (fn : FnId) (n : Fin 64) (s : State),
    let v := smapGet {} (s.func fn).vecs n
    v.masked = false → v.timeUs ≠ 0 → 0 < v.pending → v.timeUs.toNat * usT ≤ s.now - v.since →
    exec (.vectorFire fn n) s = .next (s.modFn fn fun f =>
      { f with vecs := smapPut f.vecs n { v with pending := 0, fired := v.fired + 1, pba := false } }))

/-- A deadline (R394): at it, a run not yet delivered is breached once, the runs behind it record that, a held completion of it becomes a breach, and
the breach vector gets a cause. Which events count as recorded ahead of a run is the model's reading (log entry 76). -/
def Obligations.DeadlineBreach : Prop :=
  ∀ (p : PasId) (k : Fin 64) (s : State) (r : Run), (s.pasture p).runs[k.val]? = some r →
    (r.breached = false → r.deadline ≤ s.hifTime.toNat →
      exec (.deadlineExpiry p k) s = .next (((s.modPas p fun x => { x with
        runs := x.runs.take k ++ [{ r with breached := true }] ++
          (x.runs.drop (k + 1)).map fun o => { o with events := o.events ++ [St.HOST_BREACH_AHEAD] } }).modFn r.id.fn fun f =>
            { f with held := f.held.map fun c => c.breach r }).signal (s.boundFn p) 18)) ∧
    ((r.breached = true ∨ s.hifTime.toNat < r.deadline) → exec (.deadlineExpiry p k) s = .next s)

/-- The event log (R398): an event goes to the head place, the head moves on, the count stops at 64, and what an event overwrites is counted. Counting
every overwritten entry in EVT_LOST is the model's choice (log entry 12). -/
def Obligations.EventLog : Prop :=
  ∀ (s : State) (fn p d : Nat) (st : Status),
    let f := s.func fn
    let g := (s.event fn st p d).func fn
    smapGet {} g.events f.evtHead.toNat = { status := st, pasture := BitVec.ofNat 8 p, detail := BitVec.ofNat 32 d, time := s.hifTime } ∧
    (∀ i, i ≠ f.evtHead.toNat → smapGet {} g.events i = smapGet {} f.events i) ∧ g.evtHead = f.evtHead + 1 ∧
    (f.evtCount < 64 → g.evtCount = f.evtCount + 1 ∧ g.evtLost = f.evtLost) ∧
    (64 ≤ f.evtCount → g.evtCount = 64 ∧ g.evtLost = satInc f.evtLost) ∧
    (∀ j, j ≠ fn → (s.event fn st p d).func j = s.func j) ∧ (s.event fn st p d).tiles = s.tiles ∧ (s.event fn st p d).pas = s.pas

/-! ## Loads, runs, pastures and context transfers -/

/-- Loads (R299 to R301, R313, R320, R456, R457): a load that a check refuses writes nothing but its status; an accepted one takes the
pasture's program (or weights) away and stops its beats until LOAD_COMPLETE has written everything and answered. -/
def Sys2Proof.Claims.LoadService : Prop :=
  ∀ (fn : FnId) (ring : Fin 16) (dmaOk : Bool) (s : State) (id : EntryId) (e plain : List Byte) (st : Status) (q : PasId) (j : LoadJob),
    let s1 := s.fetched fn ring
    let p := entPas e
    let job (weights : Bool) : LoadJob := { id := id, weights := weights, plain := plain, place := s1.placeList e }
    let refused := ((if st = St.HOST_DMA then s1.noteDma id.fn else s1).modPas p fun x => { x with loadStatus := st }).finish id 3 p st
    (Claims.entry s fn ring id e = true → entOp e = 3 →
      (entKind e = 0 → s1.checkLoad e false dmaOk = .inl st → exec (.loadProgram fn ring dmaOk) s = .next refused) ∧
      (entKind e = 1 → s1.checkLoad e true dmaOk = .inl st → exec (.loadWeights fn ring dmaOk) s = .next refused) ∧
      (entKind e = 0 → s1.checkLoad e false dmaOk = .inr plain →
        exec (.loadProgram fn ring dmaOk) s = .next (s1.acceptLoad p (job false)) ∧
        ((s1.acceptLoad p (job false)).pasture p).loading = some (job false) ∧
        ((s1.acceptLoad p (job false)).pasture p).beating = false ∧ ((s1.acceptLoad p (job false)).pasture p).loaded = false ∧
        ((s1.acceptLoad p (job false)).pasture p).program = none ∧
        ((s1.acceptLoad p (job false)).pasture p).chain.loadCount = (s1.pasture p).chain.loadCount + 1) ∧
      (entKind e = 1 → s1.checkLoad e true dmaOk = .inr plain →
        exec (.loadWeights fn ring dmaOk) s = .next (s1.acceptLoad p (job true)) ∧
        ((s1.acceptLoad p (job true)).pasture p).weights = none ∧
        ((s1.acceptLoad p (job true)).pasture p).chain = (s1.pasture p).chain)) ∧
    ((s.pasture q).loading = some j → exec (.loadComplete q) s =
      .next ((((if j.weights then s.writeWeights q (binaryOf j.plain) j.place else s.writeProgram q (binaryOf j.plain) j.place).modPas q
        fun x => { x with loading := none, loadStatus := St.OK }).resumeBeats q).finish j.id 3 q St.OK))

/-- A load is refused first for a pasture that is busy, then for one that waits for clears, then for its envelope, before any check of
its contents (R301, R320, R456, R457): the envelope's layout, its recipient, the unwrap of its key, and the tags of its chunks. -/
def Sys2Proof.Claims.LoadRefusalsInOrder : Prop :=
  ∀ (s : State) (e key plain : List Byte) (weights dmaOk : Bool) (st : Status),
    let x := s.pasture (entPas e)
    let env := s.readHost (entSrc e) 256
    let mine := digestOf (slice env 8 32) = s.facts.identity
    ((x.runs ≠ [] ∨ x.loading.isSome = true ∨ x.inTest = true) → s.checkLoad e weights dmaOk = .inl St.HOST_PASTURE_BUSY) ∧
    (x.runs = [] → x.loading = none → x.inTest = false → x.awaitClear = true →
      s.checkLoad e weights dmaOk = .inl St.STACK_OWN_BUSY) ∧
    (x.runs = [] → x.loading = none → x.inTest = false → x.awaitClear = false → s.openEnvelope e dmaOk = .inl st →
      s.checkLoad e weights dmaOk = .inl st) ∧
    (s.openEnvelope e false = .inl St.HOST_DMA) ∧
    (envelopeOk env (entLen e) = false → s.openEnvelope e true = .inl St.SEC_ENVELOPE) ∧
    (envelopeOk env (entLen e) = true → ¬ mine → s.openEnvelope e true = .inl St.SEC_RECIPIENT) ∧
    (envelopeOk env (entLen e) = true → mine → s.contentKey env = none → s.openEnvelope e true = .inl St.SEC_UNWRAP) ∧
    (envelopeOk env (entLen e) = true → mine → s.contentKey env = some key → s.openChunks e env key = none →
      s.openEnvelope e true = .inl St.SEC_DECRYPT) ∧
    (envelopeOk env (entLen e) = true → mine → s.contentKey env = some key → s.openChunks e env key = some plain →
      s.openEnvelope e true = .inr plain)

/-- Loads and their refusals in order. The order busy, clears, envelope, and the writes in one step are the model's choice (log entry 81). -/
def Obligations.Loads : Prop :=
  Claims.LoadService ∧ Claims.LoadRefusalsInOrder

/-- The stages of a run (R71, R186, R391 to R393): a store rewrite still due is made and its inputs are copied, every tile is to start it at a beat
that its watch phase allows, and its outputs, stamp and completion follow; a copy that the DMA, the I/O list, a stack or an element refuses ends it as
failed. That a failed DMA copies nothing (log entry 75), that the store rewrite is made at ingress (112), and which first beat is taken (74) are the
model's choices. -/
def Obligations.RunStages : Prop :=
  ∀ (p : PasId) (env : IoOutcome) (s s' : State) (r : Run) (rest : List Run) (bs : List Byte) (st : Status),
    (s.pasture p).runs = r :: rest →
    let s0 := if env.slow then (s.refreshStore p).noteCause p St.HOST_BREACH_HOST else s.refreshStore p
    let ins := s.ioList r.inList r.inN
    let outs := s.ioList r.outList r.outN
    let ks := s.tilesOf p
    let b := firstBeat r.entry.phase (ks.foldl (fun m k => max m (s.tile k).beat) (s.logOf p))
    (r.stage = .queued → (s.pasture p).takesRun = true → env.dmaOk = true →
      s0.listOk p ins r.entry.inBytes = true → env.stackOk = true ∨ (∀ e ∈ ins, e.kind ≠ 1) → s0.ingress p ins = (s', none, bs) →
      exec (.runIngress p env) s =
        .next (s'.modPas p fun x => x.modFirst fun r => { r with stage := .ingressed, inputs := bs })) ∧
    (r.stage = .queued → (s.pasture p).takesRun = true → env.dmaOk = true →
      s0.listOk p ins r.entry.inBytes = false → exec (.runIngress p env) s = .next (s0.failFirst p St.HOST_IO_RANGE)) ∧
    (r.stage = .queued → (s.pasture p).takesRun = true → env.dmaOk = false →
      exec (.runIngress p env) s = .next ((s0.noteDma r.id.fn).failFirst p St.HOST_DMA)) ∧
    (r.stage = .queued → (s.pasture p).takesRun = true → env.dmaOk = true → s0.listOk p ins r.entry.inBytes = true →
      (env.stackOk = false → (∃ e ∈ ins, e.kind = 1) → exec (.runIngress p env) s = .next (s0.failFirst p St.STACK_WRITE_FAIL)) ∧
      (env.stackOk = true ∨ (∀ e ∈ ins, e.kind ≠ 1) → s0.ingress p ins = (s', some st, bs) →
        exec (.runIngress p env) s = .next (s'.failFirst p st))) ∧
    (r.stage = .ingressed → (s.pasture p).takesRun = true → exec (.runStart p) s =
      .next (((ks.foldl (fun s k => s.modTile k fun t => ({ t with starts := some (r.entry.entry.toNat, b) }).beginAt) s).modPas p fun x =>
        { x.modFirst fun r => { r with stage := .running, first := b, haltMax := none } with haltCount := 0 }).beginRun p)) ∧
    ((b + r.entry.phase) % 4096 = 0 ∧ s.logOf p ≤ b ∧ b < (ks.foldl (fun m k => max m (s.tile k).beat) (s.logOf p)) + 4096) ∧
    (r.stage = .recorded → env.dmaOk = true → s.listOk p outs r.entry.outBytes = true → env.stackOk = true ∨ (∀ e ∈ outs, e.kind ≠ 1) →
      s.egress p outs = (s', none, bs) → exec (.runCompletion p env) s =
        .next ((s'.writeStamp p r true (r.haltMax.getD r.first - r.first) (sm3 bs)).deliverFirst p r)) ∧
    (r.stage = .recorded → env.dmaOk = false →
      exec (.runCompletion p env) s = .next ((s.noteDma r.id.fn).failFirst p St.HOST_DMA)) ∧
    (r.stage = .recorded → env.dmaOk = true → s.listOk p outs r.entry.outBytes = false →
      exec (.runCompletion p env) s = .next (s.failFirst p St.HOST_IO_RANGE)) ∧
    (r.stage = .recorded → env.dmaOk = true → s.listOk p outs r.entry.outBytes = true →
      (env.stackOk = false → (∃ e ∈ outs, e.kind = 1) → exec (.runCompletion p env) s = .next (s.failFirst p St.STACK_ECC_UNCORR)) ∧
      (env.stackOk = true ∨ (∀ e ∈ outs, e.kind ≠ 1) → s.egress p outs = (s', some st, bs) →
        exec (.runCompletion p env) s = .next ({ s' with hostMem := s.hostMem }.failFirst p st)))

/-- Pastures (R378, R379, R425): a start that no check refuses enables the pasture with its columns, and it beats at once unless a group of it is
being cleared; one with a quarantined tile stays stopped; one that is refused, or for other columns while enabled, records its status; a stop disables
a pasture with no runs and no load. That a start clears STOPPED only after a quarantine, and that one before READY is ignored, is the model's choice
(log entry 77). -/
def Obligations.PastureStartAndStop : Prop :=
  ∀ (p : PasId) (col0 width : Byte) (s : State) (st : Status),
    let opened := ((s.geomResult p St.OK).enabledAt p col0 width).modPas p fun x =>
      { x with stopped := x.stopped && x.qAnchor.isNone, qAnchor := none, stopTime := s.now }
    let held := opened.applyAuto.modPas p fun x => { x with stopped := true }
    (s.boot.ready = true → (s.pasture p).enable = false → s.startRefusal p col0 width = none →
      opened.applyAuto.hasQuarantine p = false → opened.applyAuto.clearingFor p = false →
      exec (.pastureStart p col0 width) s = .next (opened.applyAuto.resumeBeats p)) ∧
    (s.boot.ready = true → (s.pasture p).enable = false → s.startRefusal p col0 width = none →
      opened.applyAuto.hasQuarantine p = false → opened.applyAuto.clearingFor p = true →
      exec (.pastureStart p col0 width) s = .next (opened.applyAuto.modPas p fun x => { x with awaitClear := true })) ∧
    (s.boot.ready = true → (s.pasture p).enable = false → s.startRefusal p col0 width = none → opened.applyAuto.hasQuarantine p = true →
      exec (.pastureStart p col0 width) s = .next (if held.clearingFor p then held.modPas p fun x => { x with awaitClear := true }
        else held.resumeBeats p) ∧ ((held.resumeBeats p).pasture p).stopped = true) ∧
    (s.boot.ready = true → (s.pasture p).enable = true → (s.pasture p).col0 ≠ col0 ∨ (s.pasture p).width ≠ width →
      exec (.pastureStart p col0 width) s = .next (s.modPas p fun x => { x with geomStatus := St.HOST_GEOM_INVALID })) ∧
    (s.boot.ready = false → exec (.pastureStart p col0 width) s = .next s) ∧
    (s.boot.ready = true → (s.pasture p).enable = false → s.startRefusal p col0 width = some st →
      exec (.pastureStart p col0 width) s = .next (s.modPas p fun x => { x with geomStatus := st })) ∧
    ((s.pasture p).runs = [] → (s.pasture p).loading = none →
      ∃ t, exec (.pastureStop p) s = .next t ∧ (t.pasture p).enable = false ∧ (t.pasture p).beating = false ∧
        (t.pasture p).program = none ∧ (t.pasture p).geomStatus = St.OK ∧ t.tiles = s.tiles ∧ t.hostMem = s.hostMem ∧
        ∀ q, q ≠ p.val → t.pasture q = s.pasture q) ∧
    (((s.pasture p).runs ≠ [] ∨ (s.pasture p).loading.isSome = true) →
      exec (.pastureStop p) s = .next (s.modPas p fun x => { x with geomStatus := St.HOST_PASTURE_BUSY }))

/-- Quality of service (R401): a weight written as 0 stays; a write, or a start, that would lower the PCIe share of a pasture with admitted runs
changes nothing (a refused start records ST_HOST_QOS_BUSY; a refused write is recorded nowhere, the model's choice). That a refused write is recorded
nowhere is log entry 77. -/
def Obligations.QosWeights : Prop :=
  ∀ (p : PasId) (value : BitVec 32) (col0 width : Byte) (s : State),
    let v := value.toNat
    let w (old : Byte) (n : Nat) : Byte := if n % 256 = 0 then old else BitVec.ofNat 8 n
    let new := s.modPas p fun x =>
      { x with pcieW := w x.pcieW v, svcW := w x.svcW (v / 2 ^ 8), cnwW := w x.cnwW (v / 2 ^ 16), ringW := w x.ringW (v / 2 ^ 24) }
    (s.shareFalls new = false → exec (.qosWrite p value) s = .next new) ∧
    (s.shareFalls new = true → exec (.qosWrite p value) s = .next s) ∧
    (s.startRefusal p col0 width = none → s.shareFalls (s.enabledAt p col0 width) = false) ∧
    (∀ q < 16, s.shareFalls new = false → (s.pasture q).enable = true → (s.pasture q).runs ≠ [] →
      (s.pasture q).pcieW.toNat * new.sumPcie ≤ (new.pasture q).pcieW.toNat * s.sumPcie)

/-- Context transfers (R265 to R268, R355): a packet belongs to the transfer of its tag, pasture, store and direction; a spilled page that can be read
goes to a link that carries traffic to the store; a page's data in order is gathered, a whole page with a good CRC is written to the stack and
acknowledged; one with a bad CRC ends the transfer with ST_STACK_XFER_CRC; one that the stack port cannot write stops the pasture with
ST_STACK_WRITE_FAIL (R260; that the transfer ends with it is the model's choice, log entry 129); an acknowledged page is done; a transfer without
progress for 10 ms fails. The CRC carried in COUNT, OFFSET modulo 2^32, WIN as the pasture and what SVC_ACK names (log entry 61), and the status of an
unwritten page (129), are the model's choices. -/
def Obligations.ContextTransfers : Prop :=
  ∀ (link : Fin 2) (pkt : FabPacket) (ok : Bool) (s : State) (x : Transfer),
    let s1 := s.takeService (18 + link) pkt
    let got := x.got ++ pkt.data
    let page : Nat := x.saddr + 32768 * x.done
    pkt.cls = 2 → pkt.e2eOk = true → (s.port (18 + link)).state.carries = true →
    (pkt.ptype = 0x10 → s1.xferOf link pkt true = some x →
      pkt.offset.toNat = (32768 * x.done + x.got.length) % 2 ^ 32 →
      (got.length < 32768 → exec (.svcData link pkt ok) s = .next (s1.putXfer x { x with got := got, time := s1.now })) ∧
      (32768 ≤ got.length → pkt.count = crc32c (got.take 32768) → exec (.svcData link pkt true) s =
        .next (((s1.stackWrite x.pas page (got.take 32768)).ackPage x).pageDone x)) ∧
      (32768 ≤ got.length → pkt.count ≠ crc32c (got.take 32768) →
        exec (.svcData link pkt ok) s = .next (s1.failXfer x St.STACK_XFER_CRC true)) ∧
      (∀ g off, 32768 ≤ got.length → pkt.count = crc32c (got.take 32768) → s1.stackPlace x.pas (page : Int) = some (g, off) →
        exec (.svcData link pkt false) s = .next ((((s1.modStack (g / 8) fun y => { y with retries := satInc y.retries }).stkRecord
          (g / 8) x.pas (page : Int) St.STACK_WRITE_FAIL).failXfer x St.STACK_WRITE_FAIL true).stopPasture x.pas St.STACK_WRITE_FAIL))) ∧
    (pkt.ptype = 0x11 → s1.xferOf link pkt false = some x → pkt.offset.toNat = (32768 * x.done) % 2 ^ 32 →
      exec (.svcAck link pkt) s = .next (s1.pageDone x)) ∧
    (∀ back, s.xferOf link pkt back = some x → x ∈ s.xfers ∧ x.restore = back ∧ x.id.tag = pkt.xfer ∧ x.pas = pkt.win.toNat ∧
      x.storeId = pkt.srcChip) ∧
    (s.storeReachable x = false ∨ (s.port (18 + x.link)).state.carries = false → s.sendPage x = s) ∧
    (∀ (u : State) (bs : List Byte), s.storeReachable x = true → (s.port (18 + x.link)).state.carries = true →
      s.stackFetch x.pas page 32768 = (u, some bs) →
      s.sendPage x = (u.putXfer x { x with sent := true }).sendService x.link (u.pagePackets x x.done bs)) ∧
    ((s.xfers.find? fun x => decide (x.link = link) && decide (x.time + 10 * msT ≤ s.now)) = some x →
      exec (.xferLinkTimeout link) s = .next (s.failXfer x St.STACK_XFER_LINK true))

/-! ## Security -/

/-- A security entry of a KIND that no check refuses, while the shepherd runs (R451). -/
def Sys2Proof.Claims.security (s : State) (fn : FnId) (ring : Fin 16) (id : EntryId) (e : List Byte) (kind : Nat) : Bool :=
  !s.restarting && Claims.entry s fn ring id e && decide (entOp e = 3) && decide (entKind e = kind) && (securityRefusal fn e).isNone

/-- Attestation, certificates and chain records (R448, R460, R461, R466, R467): the answer is written to the response buffer and completes with
its length; a record that does not exist is ST_SEC_NO_RECORD; a due record is signed once; during a restart of the shepherd the requests wait; one
whose request buffer cannot be read ends with ST_HOST_DMA, and AER notes it. -/
def Sys2Proof.Claims.AttestationAndRecords : Prop :=
  ∀ (fn : FnId) (ring : Fin 16) (p : PasId) (s : State) (id : EntryId) (e bs : List Byte) (st : Status) (n : Word) (h : Digest) (t : Nat),
    let s1 := s.fetched fn ring
    let sel := leAt (s1.readHost (entSrc e) (entLen e)) 0 1
    let signedBytes (b : List Byte) : List Byte := b ++ sm2Sign s1.facts.identityKey (Config.nonce b) b
    let read := (s1.func id.fn).bufferFails = false
    let unread := ((s1.modFn id.fn fun f => { f with bufferFails := false }).noteDma id.fn).secDone id e St.HOST_DMA 0
    (s.restarting = true → exec (.attest fn ring) s = .next s ∧ exec (.certs fn ring) s = .next s ∧ exec (.chainSign fn ring) s = .next s) ∧
    (¬read → (Claims.security s fn ring id e 2 = true → exec (.attest fn ring) s = .next unread) ∧
      (Claims.security s fn ring id e 4 = true → exec (.chainSign fn ring) s = .next unread)) ∧
    (read → Claims.security s fn ring id e 2 = true → exec (.attest fn ring) s =
      .next (s1.respond id e (signedBytes (s1.report (slice (s1.readHost (entSrc e) (entLen e)) 0 32))))) ∧
    (Claims.security s fn ring id e 3 = true → exec (.certs fn ring) s = .next (s1.respond id e s1.facts.certsResponse)) ∧
    (read → Claims.security s fn ring id e 4 = true → s1.chainAnswer (entPas e) sel = .inr bs →
      exec (.chainSign fn ring) s = .next (s1.respond id e bs)) ∧
    (read → Claims.security s fn ring id e 4 = true → s1.chainAnswer (entPas e) sel = .inl st →
      exec (.chainSign fn ring) s = .next (s1.secDone id e st 0)) ∧
    ((s.pasture p).chain.signDue = some (n, h, t) → exec (.periodicRecordSign p) s =
      .next (s.modPas p fun x => { x with chain := { x.chain with signDue := none, periodic := some (s.chainRecord p (some n) h) } }))

/-- Commands of the owner and of PF0 (R452 to R454, R458, R459, R449): a refused OWNER_TAKE, an UNLOCK with another challenge and a
failed flash write change nothing but the answer; one that passes changes the owner, the signers, the debug scope or the committed version,
and answers ST_OK. One whose request buffer cannot be read is answered ST_HOST_DMA (the model's choice, log entry 128), and the function's
AER notes the DMA failure. -/
def Sys2Proof.Claims.OwnerCommands : Prop :=
  ∀ (fn : FnId) (ring : Fin 16) (ok : Bool) (env : CommandOutcome) (s : State) (id : EntryId) (e : List Byte) (st : Status),
    let s1 := s.fetched fn ring
    let c := s1.readHost (entSrc e) (entLen e)
    let seq : Word := BitVec.ofNat 64 (cmdSeq c)
    let done (t : State) : State := t.secDone id e St.OK 0
    let unread : State := (s1.noteDma id.fn.val).secDone id e St.HOST_DMA 0
    let mayOwner := if s1.sec.owner.isSome then some St.SEC_OWNED else none
    (Claims.security s fn ring id e 5 = true → cmdOp (s.readHost (entSrc e) (entLen e)) = 0 →
      (s1.cmdRefusal 5 c mayOwner = none → env.dmaOk = true → env.flashOk = true → exec (.ownerTake fn ring env) s =
        .next (done { s1 with sec := { s1.sec with owner := some (cmdBody c), ownerSeq := seq } })) ∧
      (s1.cmdRefusal 5 c mayOwner = some st → env.dmaOk = true → exec (.ownerTake fn ring env) s = .next (s1.secDone id e st 0)) ∧
      (s1.cmdRefusal 5 c mayOwner = none → env.dmaOk = true → env.flashOk = false →
        exec (.ownerTake fn ring env) s = .next (s1.secDone id e St.SEC_FLASH 0))) ∧
    (Claims.security s fn ring id e 5 = true → s1.cmdRefusal 5 c s1.sec.needsOwner = none → env.dmaOk = true → env.flashOk = true →
      (cmdOp (s.readHost (entSrc e) (entLen e)) = 1 → exec (.ownerChange fn ring env) s =
        .next (done { s1 with sec := { s1.sec with owner := some (cmdBody c), ownerSeq := seq } })) ∧
      (cmdOp (s.readHost (entSrc e) (entLen e)) = 2 → ∃ t, exec (.ownerRelease fn ring env) s = .next (done t) ∧
        t.sec.owner = none ∧ t.sec.signers = [] ∧ t.sec.scope = 0 ∧ t.sec.ownerSeq = seq ∧ t.sec.fwSvn = s.sec.fwSvn)) ∧
    (Claims.security s fn ring id e 6 = true → s1.cmdRefusal 6 c s1.sec.needsOwner = none → env.dmaOk = true → env.flashOk = true →
      exec (.signers fn ring env) s =
        .next (done { s1 with sec := { s1.sec with signers := signerKeys (cmdBody c), ownerSeq := seq } })) ∧
    (Claims.security s fn ring id e 6 = true → s1.cmdRefusal 6 c s1.sec.needsOwner = some st → env.dmaOk = true →
      exec (.signers fn ring env) s = .next (s1.secDone id e st 0)) ∧
    (Claims.security s fn ring id e 6 = true → s1.cmdRefusal 6 c s1.sec.needsOwner = none → env.dmaOk = true → env.flashOk = false →
      exec (.signers fn ring env) s = .next (s1.secDone id e St.SEC_FLASH 0)) ∧
    (Claims.security s fn ring id e 7 = true → s1.cmdRefusal 7 c s1.sec.needsOwner = none →
      (digestOf (cmdBody c) = s1.sec.challenge → exec (.unlock fn ring true) s = .next (done { s1.noteDebug with
        sec := { s1.noteDebug.sec with scope := BitVec.ofNat 2 (leAt (cmdBody c) 32 1), unlockDigest := sm3 c } })) ∧
      (digestOf (cmdBody c) ≠ s1.sec.challenge → exec (.unlock fn ring true) s = .next (s1.secDone id e St.SEC_CHALLENGE 0))) ∧
    (env.dmaOk = false →
      (Claims.security s fn ring id e 5 = true → cmdOp (s.readHost (entSrc e) (entLen e)) = 0 →
        exec (.ownerTake fn ring env) s = .next unread) ∧
      (Claims.security s fn ring id e 5 = true → cmdOp (s.readHost (entSrc e) (entLen e)) = 1 →
        exec (.ownerChange fn ring env) s = .next unread) ∧
      (Claims.security s fn ring id e 5 = true → cmdOp (s.readHost (entSrc e) (entLen e)) = 2 →
        exec (.ownerRelease fn ring env) s = .next unread) ∧
      (Claims.security s fn ring id e 6 = true → exec (.signers fn ring env) s = .next unread)) ∧
    (Claims.security s fn ring id e 7 = true → exec (.unlock fn ring false) s = .next unread) ∧
    (Claims.security s fn ring id e 8 = true → exec (.relock fn ring) s = .next (done s1.lockJtag) ∧
      s1.lockJtag.sec.scope = 0 ∧ s1.lockJtag.sec.unlockDigest = 0) ∧
    (Claims.security s fn ring id e 9 = true → s1.boot.slot ≠ 2 → s1.sec.fwSvn < s1.sec.imageSvn →
      exec (.svnCommit fn ring true) s = .next (done { s1 with sec := { s1.sec with fwSvn := s1.sec.imageSvn } }) ∧
      exec (.svnCommit fn ring false) s = .next (s1.secDone id e St.SEC_FLASH 0)) ∧
    (Claims.security s fn ring id e 9 = true → s1.boot.slot ≠ 2 → s1.sec.imageSvn ≤ s1.sec.fwSvn →
      exec (.svnCommit fn ring ok) s = .next (done s1)) ∧
    (Claims.security s fn ring id e 9 = true → s1.boot.slot = 2 →
      exec (.svnCommit fn ring true) s = .next (s1.secDone id e St.SEC_COMMIT_SOURCE 0))

/-- Attestation, records, ownership, debug and the version commit. Where the ownership check stands (log entry 64), an unreadable request buffer
(128), and the bytes of certificates and of the fuse image (132, 133) are the model's choices. -/
def Obligations.SecurityRequests : Prop :=
  Claims.AttestationAndRecords ∧ Claims.OwnerCommands

/-! ## Links -/

/-- The lane groups (R330): the group chosen is healthy, no healthy group is wider, and of those of its width it has the lowest lanes; none
is chosen exactly where no lane is healthy. Rates go with the width (R326). -/
def Sys2Proof.Claims.WidestHealthyGroup : Prop :=
  (∀ (healthy g : Byte), chooseGroup healthy = some g → g ∈ laneGroups ∧ g &&& healthy = g ∧
    ∀ h ∈ laneGroups, h &&& healthy = h → laneCount h < laneCount g ∨ (laneCount h = laneCount g ∧ g ≤ h)) ∧
  (∀ healthy : Byte, chooseGroup healthy = none ↔ healthy = 0) ∧
  (∀ g ∈ laneGroups, laneCount g = 8 ∨ laneCount g = 4 ∨ laneCount g = 2 ∨ laneCount g = 1) ∧
  widthRate 8 = 2017 ∧ widthRate 4 = 1009 ∧ widthRate 2 = 504 ∧ widthRate 1 = 252

/-- Training (R329, R330, R332): each step of a port that trains, from the signal to the comparison with the plan; lanes are numbered after
reversal; this end sends its identity record; without a group that passes or a record with a good CRC from the peer the training fails. -/
def Sys2Proof.Claims.LinkTrainingSteps : Prop :=
  ∀ (n : PortId) (a b : Byte) (rev : Bool) (bs : List Byte) (none_ : Option (List Byte)) (peer : PeerRecord) (g : Byte)
    (s : State),
    let x := s.port n
    let order (m : Byte) : Byte := if rev then reverseLanes m else m
    let told := s.putPort n { x with sentRecord := some (s.identityRecord n) }
    (∀ i < 8, bitAt (reverseLanes a) i = bitAt a (7 - i)) ∧
    (s.mayTrain n = true →
    (x.step = .detect → x.stepTime ≤ s.now → a ≠ 0 → exec (.linkDetect n a) s = .next (s.putPort n
      { x with state := if x.state = .retraining then .retraining else .training, step := .lanes, healthy := a })) ∧
    (x.step = .detect → x.stepTime ≤ s.now → x.state ≠ .retraining → exec (.linkDetect n 0) s =
      .next ((s.putPort n { x with state := .down }).modPort n fun x => { x with stepTime := s.now + 10 * msT })) ∧
    (x.step = .lanes → x.fast = false → exec (.linkLanes n a b rev) s = .next (s.putPort n
      { x with healthy := order (x.healthy &&& ~~~a), polInv := b, reversed := rev, step := .equalise })) ∧
    (x.step = .lanes → x.fast = true → exec (.linkLanes n a b rev) s = .next (s.putPort n
      { x with healthy := order (x.healthy &&& ~~~a) &&& x.eqGood, polInv := b, reversed := rev, step := .width })) ∧
    (x.step = .equalise → exec (.linkEqualise n a) s = .next (s.putPort n
      { x with healthy := x.healthy &&& ~~~a, eqGood := x.healthy &&& ~~~a, step := .width })) ∧
    (x.step = .width → chooseGroup x.healthy = some g → exec (.linkWidth n true) s = .next (s.putPort n
      { x with lanes := g, width := BitVec.ofNat 4 (laneCount g), step := .identify })) ∧
    (x.step = .width → (chooseGroup x.healthy = none ∨ rev = false) → exec (.linkWidth n rev) s = .next (s.trainFail n)) ∧
    (x.step = .identify → PeerRecord.ofBytes bs = some peer → exec (.linkIdentify n (some bs)) s = .next (told.putPort n
      { x with sentRecord := some (s.identityRecord n), peerChip := peer.chipId, peerPort := peer.port, peerKind := peer.kind, peerVmin := peer.vmin, peerVmax := peer.vmax,
               peerStep := peer.stepping, peerSerial := peer.serial, peerDigest := peer.flockDigest, step := .compare })) ∧
    (x.step = .identify → none_.bind PeerRecord.ofBytes = none → exec (.linkIdentify n none_) s = .next (told.trainFail n)) ∧
    (x.step = .compare → exec (.linkCompare n) s =
      .next ((s.putPort n { x with outBuf := x.replayBuf, progressTime := s.now, winTime := s.now, calTime := s.now,
                                   flitTime := s.now }).compare n)))

/-- The choice of a lane group, and the steps of a link's training. What follows a failed step is the model's reading (log entry 67). -/
def Obligations.LaneGroupsAndTraining : Prop :=
  Claims.WidestHealthyGroup ∧ Claims.LinkTrainingSteps

/-- The role a trained port takes (R333, R336, R337): without a common version, or with another plan, it is for management only; at its
planned place it takes its role unless a lower port holds it; at another free place it is swapped. -/
def Sys2Proof.Claims.RolesFollowThePlan : Prop :=
  ∀ (s : State) (n r : Nat), n < 20 →
    (¬(s.port n).peerVmin ≤ 1 ∨ ¬1 ≤ (s.port n).peerVmax → s.finding n = .version) ∧
    ((s.port n).peerVmin ≤ 1 → 1 ≤ (s.port n).peerVmax → (s.port n).peerDigest ≠ s.flockDigest ∨ (s.port n).peerChip = 0xFFFF →
      s.finding n = .digest) ∧
    (s.finding n = .own → (s.planEntry n).use ≠ 0 ∧ (s.planEntry n).peerChip = (s.port n).peerChip ∧
      (s.planEntry n).peerPort = (s.port n).peerPort ∧ (s.port n).peerDigest = s.flockDigest) ∧
    (s.finding n = .swapped r → r ≠ n ∧ r < 20 ∧ (r < 18 ↔ n < 18) ∧ (s.planEntry r).use ≠ 0 ∧
      (s.planEntry r).peerChip = (s.port n).peerChip ∧ (s.planEntry r).peerPort = (s.port n).peerPort ∧
      ∀ m < 20, m ≠ n → (s.port m).state.carries = true → (s.port m).role.toNat ≠ r)

/-- Retraining, the plan and logical ports (R335 to R338): a port that is up asks the far end, starts a fast retrain and keeps its role's
name; one that is OFF or bad, or without its reference clock or the link rail (R491, R495), does not train; a committed plan is the shadow's and every trained port compares again; a refused plan or
logical port changes only its status, and is an event. -/
def Sys2Proof.Claims.PlanAndRetrain : Prop :=
  ∀ (n : PortId) (m : Fin 16) (value : BitVec 18) (s : State) (st : Status) (pl : Plan),
    let x := s.port n
    let committed : State := { s with links := { s.links with
      plan := some s.shadowPlan, planStatus := St.OK, planState := 1, planTime := s.now, waited := false, rolesLost := 0 } }
    let kept (y : Port) : Port := { y.untrained with
      replayBuf := y.replayBuf.map fun f => (f.1, f.2.overRetrain), txMgmt := y.txMgmt.filter fun g => !g.overtaken }
    let trains := !s.portDead n && s.facts.hasReference n && s.power.rails
    let gone := ((List.range 18).filter fun r => bitAt (smapGet 0 s.links.lports m) r && bitAt s.links.rolesHeld r
      && decide (smapGet 0 s.links.lports m ≠ value)).foldl State.markSent s
    let missing := (List.range 20).filter fun r => decide ((s.planEntry r).use ≠ 0) && !s.roleMatched r
    let told := missing.foldl (fun s r =>
      s.pkgEvent (if (s.planEntry r).required then St.LNK_MISSING_REQUIRED else St.LNK_MISSING_OPTIONAL) r) s
    (exec (.linkRetrain n) s = .next ((s.askRetrain n).startRetrain n)) ∧
    (x.state.up = true → exec (.retrainRequest n) s = .next (s.startRetrain n)) ∧
    (x.state.up = true → trains = true → s.startRetrain n = ((s.moveXfers n).modPort n fun y => { kept y with
      state := .retraining, retrain := true, fast := true, step := .detect, stepTime := s.now, lastRole := x.role }).settlePlan) ∧
    (x.state = .down ∨ x.state = .training → trains = true → s.startRetrain n = (s.putPort n { kept x with
      state := .retraining, retrain := true, fast := true, step := .detect, stepTime := s.now }).settlePlan) ∧
    (x.state = .off ∨ trains = false → s.startRetrain n = s) ∧
    (x.state.up = true → s.askRetrain n = s.modPort n fun y => y.sendNow .retrainRequest s.now) ∧
    (s.planRefusal = none → exec .planCommit s = .next committed.compareAll.settlePlan) ∧
    (s.planRefusal = some st → exec .planCommit s =
      .next ({ s with links := { s.links with planStatus := st } }.pkgEvent st 0)) ∧
    (s.links.plan = some pl → s.links.waited = false → s.links.planTime + pl.waitMs * msT ≤ s.now →
      (∀ r ∈ missing, (s.planEntry r).required = false) →
      exec .planWaitExpiry s = .next { told with links := { told.links with waited := true } }) ∧
    (((List.range 16).any fun j => decide (j ≠ m.val) && decide (smapGet 0 s.links.lports j &&& value ≠ 0)) = false →
      (s.lportUsed m = false ∨ smapGet 0 s.links.lports m = value) → exec (.lportWrite m value) s = .next ({ gone with links := { s.links with
        lports := smapPut s.links.lports m value, planStatus := St.OK } }.retryHeld HeldPacket.waitsRole)) ∧
    ((s.lportUsed m = true ∧ smapGet 0 s.links.lports m ≠ value ∨
        ((List.range 16).any fun j => decide (j ≠ m.val) && decide (smapGet 0 s.links.lports j &&& value ≠ 0)) = true) →
      exec (.lportWrite m value) s =
      .next ({ s with links := { s.links with planStatus := St.LNK_LPORT_BUSY } }.pkgEvent St.LNK_LPORT_BUSY m))

/-- The plan, the roles ports take, retraining and logical ports. That a refusal raises a package event and sets LNK_PLAN_STAT, and that an unchanged
value is accepted (log entry 68), the retrain's details (67) and what overtakes what (65), are the model's choices. -/
def Obligations.PlanRolesAndRetrain : Prop :=
  Claims.RolesFollowThePlan ∧ Claims.PlanAndRetrain

/-- Flits (R324, R325, R327, R351, R352): one that its codeword's failure drops, or whose CRC fails, is counted and discarded, and the next
flit sent has its NAK; a codeword of at most 15 symbols in error is corrected and they are counted, one of more is counted once; a good one acknowledges, returns credits and, where its number is the next, is accepted; a NAK and an
acknowledgment that does not come send every flit not acknowledged again, the eighth time with a retrain. -/
def Sys2Proof.Claims.FlitsAndReplay : Prop :=
  ∀ (n : PortId) (raw : List Byte) (r : FlitReception) (ack : BitVec 10) (s : State),
    let x0 := s.port n
    let x := x0.nextReceived r.errors
    let f := LinkFlit.ofBytes raw r.dateline
    let again := s.putPort n { x0 with
      outBuf := x0.replayBuf, replays := satInc x0.replays, noProgress := x0.noProgress + 1, progressTime := s.now }
    x0.state.up = true →
    ((x0.rxFlits < x.badUntil ∨ flitCrcOk raw = false) → exec (.linkFlitReceive n raw r) s = .next (s.putPort n
      { x with nakSent := true, nakDue := x.nakDue || !x.nakSent, crcFail := satInc x.crcFail })) ∧
    (x.badUntil ≤ x0.rxFlits → flitCrcOk raw = true → f.payload = .reserved →
      exec (.linkFlitReceive n raw r) s = .next (s.putPort n { x with crcFail := satInc x.crcFail })) ∧
    (x.badUntil ≤ x0.rxFlits → flitCrcOk raw = true → f.payload ≠ .reserved →
      exec (.linkFlitReceive n raw r) s = .next ((s.putPort n x).receiveFlit n f r.bufferOk)) ∧
    (codewordIn x0.rxFlits ≠ none → r.errors.length ≤ 15 →
      x.fecCorr = satAdd x0.fecCorr r.errors.length ∧ x.fecUncorr = x0.fecUncorr ∧ x.badUntil = x0.badUntil) ∧
    (∀ c, codewordIn x0.rxFlits = some c → 15 < r.errors.length → x.fecCorr = x0.fecCorr ∧ x.fecUncorr = satInc x0.fecUncorr ∧
      x.badUntil = max x0.badUntil (codewordEnd c)) ∧
    (codewordIn x0.rxFlits = none → x = { x0 with rxFlits := x0.rxFlits + 1 }) ∧
    (exec (.linkNak n ack) s = .next (((s.nakked n ack).pumpPort n).retryMembers)) ∧
    (x0.replayBuf ≠ [] → usT ≤ s.now - x0.progressTime → x0.noProgress < 7 → exec (.ackTimeout n) s = .next again) ∧
    (x0.replayBuf ≠ [] → usT ≤ s.now - x0.progressTime → 7 ≤ x0.noProgress →
      exec (.ackTimeout n) s = .next (((again.portEvent n St.LNK_REPLAY_LIMIT).askRetrain n).startRetrain n))

/-- What an acknowledgment releases (R327): the flits before the acknowledged number leave the replay buffer, in order, and no other;
one outside the buffer's range releases none. -/
def Sys2Proof.Claims.AcknowledgmentReleasesInOrder : Prop :=
  ∀ (x : Port) (ack : BitVec 10) (now k : Nat) (q : BitVec 10) (f : FlitPayload) (rest : List (BitVec 10 × FlitPayload)),
    x.replayBuf = (q, f) :: rest → x.replayBuf.length ≤ 64 →
    (k ≤ x.replayBuf.length → ack = q + BitVec.ofNat 10 k → (x.acked ack now).replayBuf = x.replayBuf.drop k) ∧
    (x.replayBuf.length < (ack - q).toNat → x.acked ack now = x) ∧
    (x.acked ack now).txSeq = x.txSeq ∧ (x.acked ack now).rxSeq = x.rxSeq ∧ (x.acked ack now).txQueue = x.txQueue ∧
    (x.acked ack now).credits = x.credits

/-- Widths (R331, R334): a lane lost in one direction tells the far end and degrades to the widest healthy group, in both directions it
retrains, and with no lane left the port is down; the far end's degrade, proposal and acceptance; lane health, with the event of a lane whose
corrected symbols pass LANE_THRESH (R437), and the opportunity of calibration. DEGRADE and the acceptance are on the lanes, behind the flits in
line, before this end switches. -/
def Sys2Proof.Claims.WidthChanges : Prop :=
  ∀ (n : PortId) (lane : Fin 8) (g : Byte) (s : State),
    let x := s.port n
    let healthy := x.healthy &&& ~~~(BitVec.twoPow 8 lane)
    let lost := s.putPort n { x with healthy := healthy, proposal := none, peerProposal := none }
    let high (i : Nat) : Bool := x.laneThresh ≠ 0 && decide (x.laneThresh.toNat < smapGet 0 x.laneCorr i)
    let bad (i : Nat) : Nat := if high i then smapGet 0 x.laneBad i + 1 else 0
    let lanes := (List.range 8).filter (bitAt x.lanes)
    let y : Port := { x with calTime := s.now, cleanSince := smapMap (fun i t => if bitAt g i then t else s.now) x.cleanSince }
    x.state.up = true →
    (bitAt x.lanes lane = true → chooseGroup healthy = some g →
      exec (.laneLost n lane false) s = .next ((lost.modPort n fun x => x.sendNow (.degrade g) s.now).setWidth n g) ∧
      exec (.laneLost n lane true) s = .next (lost.startRetrain n)) ∧
    (bitAt x.lanes lane = true → healthy = 0 → exec (.laneLost n lane false) s = .next (lost.downPort n)) ∧
    (g ∈ laneGroups → exec (.degrade n g) s = .next ((s.putPort n { x with
        healthy := x.healthy &&& (g ||| ~~~x.lanes), proposal := none, peerProposal := none }).setWidth n g) ∧
      exec (.widthProposal n g) s = .next (s.putPort n { x with peerProposal := some g })) ∧
    (x.proposal = some g → exec (.widthAccept n g) s = .next (s.setWidth n g)) ∧
    (x.winTime + msT ≤ s.now → exec (.laneHealthWindow n) s = .next ((List.range x.passes).foldl (fun s _ => s.laneAlarm n)
      (s.putPort n { x with
        winTime := s.now, laneCorr := [],
        failing := (lanes.filter fun i => decide (3 ≤ bad i)).foldl (fun m i => m ||| BitVec.twoPow 8 i) (0 : Byte),
        laneBad := lanes.map fun i => (i, bad i) }))) ∧
    (s.calDue n = true → x.peerProposal = none → y.wish s.now = none →
      exec (.calibrationOpportunity n g) s = .next (s.putPort n y)) ∧
    (∀ h, s.calDue n = true → x.peerProposal = none → y.wish s.now = some h → x.proposal ≠ some h → h ≠ x.lanes →
      exec (.calibrationOpportunity n g) s =
        .next (((s.putPort n y).modPort n fun x => { x with proposal := some h }).sendMgmt n (.proposal h))) ∧
    (∀ h, s.calDue n = true → x.peerProposal = some h →
      exec (.calibrationOpportunity n g) s = .next (((s.putPort n y).modPort n fun x => x.sendNow (.acceptance h) s.now).setWidth n h)) ∧
    (∀ m : MgmtFlit, (x.sendNow m s.now).outBuf = [] ∧
      ((x.sendNow m s.now).onLanes.getLast?.map fun f => (f.seq, f.payload)) = some (x.txSeq, .mgmt m))

/-- Flits, acknowledgment, replay and width changes. How replays count, a reserved FTYPE that begins no episode, lanes that a DEGRADE drops, and
management flits behind the line (log entry 65), LANE_THRESH 0 (67) and the status of its event (120) are the model's choices. -/
def Obligations.LinkService : Prop :=
  Claims.FlitsAndReplay ∧ Claims.AcknowledgmentReleasesInOrder ∧ Claims.WidthChanges

/-! ## Fabric transport -/

/-- Forwarding (R346 to R349, R367): the first packet of a lane leaves it and frees its place; a packet of a reserved kind, one whose hops end
and one without a route are dropped and counted; one for this package is taken in; one with a port's role goes out on it; a drove's packet is copied to every role of
its tree but the one it came on, and taken in where the tree has a local member. On a service port
a packet that is no service packet is dropped as bad, and a service packet waits for its own command. -/
def Sys2Proof.Claims.PacketForwarding : Prop :=
  ∀ (n : PortId) (lane : Fin 5) (s s' : State) (p : FabPacket) (rest : List FabPacket) (e : BitVec 32) (m : Nat) (why : HoldReason),
    let q := p.withHops (p.hops - 1)
    let freed := s.modPort n fun x => { x with
      rxLanes := smapPut x.rxLanes lane rest
      freed := smapPut x.freed lane (smapGet 0 x.freed lane + 1) }
    (18 ≤ n.val → smapGet [] (s.port n).rxLanes lane = p :: rest →
      (p.isBad = true ∨ p.cls ≠ 2 → exec (.packetForward n lane) s = .next freed.dropBad) ∧
      (p.isBad = false → p.cls = 2 → exec (.packetForward n lane) s = .next s)) ∧
    (n.val < 18 → smapGet [] (s.port n).rxLanes lane = p :: rest → exec (.packetForward n lane) s =
      .next (freed.forward (some (s.port n).role.toNat) n p)) ∧
    ((p.isBad = true ∨ p.cls = 2) → s.forward (some m) n p = s.dropBad) ∧
    (p.isBad = false → p.cls ≠ 2 → p.hops = 1 → s.forward (some m) n p =
      (s.modPort n fun x => { x with hopsDrops := satInc x.hopsDrops }).pkgEvent St.FAB_HOPS_EXPIRED n) ∧
    (p.isBad = false → p.cls ≠ 2 → p.hops ≠ 1 → p.drove = true →
      let d : Drove := smapGet {} s.fabric.droves p.drv.toNat
      let copied := s.copyToRoles d.fwd (some m) q
      (d.valid = false → s.forward (some m) n p = s.dropNoRoute n) ∧
      (d.valid = true → s.forward (some m) n p = if d.isLocal then copied.accept (some d.localPas.toNat) n q else copied)) ∧
    (∀ r < 18, s.copyToRoles (BitVec.twoPow 18 r) (some m) q =
      if m = r then s else match s.portOfRole r with
        | some out => s.putOn out q
        | none => s.holdPacket s.now (.lost r) q) ∧
    (p.isBad = false → p.cls ≠ 2 → p.hops ≠ 1 → p.drove = false → s.routeEntry p.dstChip = (s', e) →
      (s'.routeOf e q = .deliver → s.forward (some m) n p = s'.arriveHere n q) ∧
      (s'.routeOf e q = .noRoute → s.forward (some m) n p = s'.dropNoRoute n) ∧
      (∀ out, s'.routeOf e q = .port out → s.forward (some m) n p = s'.putOn out q) ∧
      (s'.routeOf e q = .hold why → s.forward (some m) n p = s'.holdPacket s'.now why q))

/-- Which way a packet goes (R346, R348, R349): an invalid entry is no route, a local entry delivers, an ordered packet takes the entry's role and
waits while no port has it; with ORD_LP it takes the member of the logical port that the sum of its chips and channel names, and waits where
the member has changed and the old one is busy; while the engines drain it waits where the former entry names another way; and a bulk packet
takes a port whose role the entry allows, the one with the most free credits, of equals the lowest role. -/
def Sys2Proof.Claims.RouteChoice : Prop :=
  ∀ (s : State) (e : BitVec 32) (p : FabPacket) (n r : Nat),
    let ms := s.lportMembers (field e 28 24 % 16)
    let settled := s.fabric.draining = false ∨ field e 29 24 = field (s.otherEntry p.dstChip) 29 24
    (ms.Pairwise (· < ·) ∧ (r ∈ ms ↔ r < 18 ∧ bitAt (smapGet 0 s.links.lports (field e 28 24 % 16)) r = true ∧ (s.portOfRole r).isSome = true)) ∧
    (bitAt e 31 = true → bitAt e 30 = false → p.cls = 0 → ¬settled → s.routeOf e p = .hold .drain) ∧
    (bitAt e 31 = true → bitAt e 30 = false → p.cls = 0 → settled → bitAt e 29 = true →
      (ms = [] → ∃ r, s.routeOf e p = .hold (.lost r)) ∧
      (ms[(p.srcChip.toNat + p.dstChip.toNat + p.chan.toNat) % ms.length]? = some r → s.portOfRole r = some n →
        (smapFind s.fabric.ordMember p.flowKey = none → s.routeOf e p = .port n) ∧
        (∀ old, smapFind s.fabric.ordMember p.flowKey = some old →
          s.routeOf e p = if old ≠ r ∧ s.memberBusy old p = true then .hold .member else .port n))) ∧
    (bitAt e 31 = true → bitAt e 30 = false → p.cls ≠ 0 → (∀ r < 18, bitAt e r = true → s.portOfRole r = none) →
      ∃ r, s.routeOf e p = .hold (.lost r)) ∧
    (bitAt e 31 = false → s.routeOf e p = .noRoute) ∧
    (bitAt e 31 = true → bitAt e 30 = true → s.routeOf e p = .deliver) ∧
    (bitAt e 31 = true → bitAt e 30 = false → p.cls = 0 → settled → bitAt e 29 = false →
      s.routeOf e p = match s.portOfRole (field e 28 24) with | some m => .port m | none => .hold (.lost (field e 28 24))) ∧
    (bitAt e 31 = true → bitAt e 30 = false → p.cls = 1 → s.routeOf e p = .port n →
      ∃ r < 18, bitAt e r = true ∧ s.portOfRole r = some n ∧
        ∀ r' m, r' < 18 → bitAt e r' = true → s.portOfRole r' = some m →
          (s.port m).freeCredits (s.packetOn r' p).lane < (s.port n).freeCredits (s.packetOn r p).lane ∨
          ((s.port m).freeCredits (s.packetOn r' p).lane = (s.port n).freeCredits (s.packetOn r p).lane ∧ r ≤ r'))

/-- Forwarding and the choice of a way. Hops counted before the lookup with the adjusted E2E_CRC (log entry 52), and at which port drops count and
what is bad there (53), are the model's choices. -/
def Obligations.ForwardingAndRoutes : Prop :=
  Claims.PacketForwarding ∧ Claims.RouteChoice

/-- Flocks, tables and reservations (R342, R343, R349, R353, R435): a start reads its rank entries, one with a parity error being found, and one that
passes its checks begins every stream anew; a stop waits for the runs; a swap exchanges the copies, and drains after a swap of routes; a reservation
above 75 % of its role is refused. Expected OSEQs set to 0 by a start (log entry 54), and that a write is checked on the roles that it raises only
(140), are the model's choices. -/
def Obligations.FlocksAndTables : Prop :=
  ∀ (fn : FnId) (p : PasId) (k : Fin 3) (value : Word) (s : State), s.mayWrite fn p = true →
    let new (r : Nat) : Byte := BitVec.ofNat 8 (value.toNat / 2 ^ (8 * (r % 8)))
    let asked := s.modPas p fun x => { x with ordRes := (ordRoles k).foldl (fun m r => smapPut m r (new r)) x.ordRes }
    let raised (r : Nat) : Bool := decide (smapGet 0 (s.pasture p).ordRes r < new r)
    let f := s.fabric
    let read := s.checkRanks p ((s.pasture p).selfRank.toNat :: List.range (s.pasture p).flockSize.toNat)
    (read.flockOk p = true → exec (.flockStart fn p) s = .next (read.modPas p fun x =>
      { x with started := true, flockStatus := St.OK, nextOseq := [], sendOseq := [] })) ∧
    (read.flockOk p = false → exec (.flockStart fn p) s =
      .next (read.modPas p fun x => { x with flockStatus := St.FAB_FLOCK_START })) ∧
    ((s.pasture p).badRanks = [] → read = s) ∧
    (∀ n < 4096, (s.pasture p).badRanks.contains n = true → ∃ t : State, s.rankChip p n = (t.pasEvent p St.FAB_TABLE_PARITY n, none) ∧
      (t.pasture p).badRanks = (s.pasture p).badRanks.erase n ∧ bitAt ((t.pasture p).rankEntry n) 31 = false) ∧
    ((s.pasture p).runs = [] → exec (.flockStop fn p) s =
      .next (s.modPas p fun x => { x with started := false, flockStatus := St.OK })) ∧
    ((s.pasture p).runs ≠ [] → exec (.flockStop fn p) s = .next (s.modPas p fun x => { x with flockStatus := St.FAB_FLOCK_BUSY })) ∧
    (exec (.rankSwap fn p) s = .next (s.modPas p fun x => { x with rankActive := !x.rankActive })) ∧
    (f.routeTrigEn = true → exec .routeSwap s = .next s) ∧
    (f.routeTrigEn = false → s.swapBad = true → exec .routeSwap s = .next { s with fabric := { f with routeStatus := St.FAB_ROUTE_LPORT } }) ∧
    (f.routeTrigEn = false → s.swapBad = false → exec .routeSwap s = .next (({ s with fabric := { f with
      routeActive := !f.routeActive, routeStatus := St.OK, draining := true, swapTime := s.now } }).retryHeld HeldPacket.waitsRole)) ∧
    ((∀ r ∈ ordRoles k, raised r = true → 40 * asked.reserved r ≤ 3 * s.roleRate r) →
      exec (.ordReservationWrite fn p k value) s = .next ((ordRoles k).foldl (fun s r => s.recheckOrd r) asked)) ∧
    ((∃ r ∈ ordRoles k, raised r = true ∧ 3 * s.roleRate r < 40 * asked.reserved r) →
      exec (.ordReservationWrite fn p k value) s = .next (s.modPas p fun x => { x with flockStatus := St.FAB_ORD_OVERCOMMIT }))

/-- DATA at its window (R349, R357, R360, R368): within its grant it lands, once the lines are free, and its notice goes to the bellwether; one
that fails a check of R360 is dropped with that NAK, and a drove's without a tracker is dropped and counted. An ordered packet out of order
breaks its transfer. -/
def Sys2Proof.Claims.DataAtItsWindow : Prop :=
  ∀ (i q : Nat) (p : FabPacket) (s s' v u : State) (t : Tracker) (got : List Byte) (st : Status) (ok : Bool),
    let x := s'.pasture q
    let y := x.window p.win.toNat
    let tr := x.tracker p.win.toNat p.srcRank p.xfer
    let n := p.data.length
    let done (z : State) : State := z.dropWaits y.opener (packetWaiter p)
    let taken := v.modPas q fun x => x.modTracker t fun o =>
      { o with accepted := o.accepted + n, time := s'.now, broken := o.broken || !ok }
    s.takePacket i 0x01 = some (p, s') → s'.destPas p = some q → s'.checkOseq q p = (v, ok) →
    (s'.dataNak q y p = none → s'.landBusy y p = true →
      exec (.data i) s = .next (s.noteRange y.opener .landing (y.base + p.offset.toNat) n (packetWaiter p))) ∧
    (s'.dataNak q y p = none → s'.landBusy y p = false → tr = some t → t.accepted + n ≤ t.units * 4096 →
      (taken.landData q y p = (u, .ok got) → exec (.data i) s = .next (done (u.send
        (.landed q p.win.toNat p.srcRank.toNat p.xfer n (if p.last then some p.count.toNat else none))))) ∧
      (taken.landData q y p = (u, .refused st) → exec (.data i) s = .next (done (u.windowNak q p st)))) ∧
    (s'.dataNak q y p = none → s'.landBusy y p = false →
      ((tr = none ∧ p.drove = false) ∨ (tr = some t ∧ t.units * 4096 < t.accepted + n)) →
      exec (.data i) s = .next (done (v.windowNak q p St.FAB_CREDIT_OVERRUN))) ∧
    (s'.dataNak q y p = some st → (p.drove = false ∨ tr = some t) → exec (.data i) s = .next (done (v.windowNak q p st))) ∧
    (p.drove = true → tr = none → (s'.dataNak q y p = some st ∨ s'.landBusy y p = false) → exec (.data i) s =
      .next (done (v.modPas q fun x => { x with drovePruned := satInc x.drovePruned }))) ∧
    (y.state = 2 → s'.dataNak q y p = some St.FAB_TARGET_RESETTING) ∧
    (y.state = 0 → s'.dataNak q y p = some St.FAB_WIN_CLOSED) ∧
    (y.state = 1 → y.allows p.srcRank.toNat = false → s'.dataNak q y p = some St.FAB_WIN_RANK) ∧
    (y.state = 1 → y.allows p.srcRank.toNat = true → y.size * 4096 < p.offset.toNat + n →
      s'.dataNak q y p = some St.FAB_WIN_BOUNDS) ∧
    (y.state = 1 → y.allows p.srcRank.toNat = true → p.offset.toNat + n ≤ y.size * 4096 →
      s'.dataNak q y p = if y.landing = false ∧ s'.xferRange q (y.base + p.offset.toNat) n = false then some St.FAB_WIN_XFER else none) ∧
    (p.cls ≠ 0 → v = s' ∧ ok = true) ∧
    (p.cls = 0 → ok = decide (smapGet 0 x.nextOseq (oseqKey p) = p.oseq) ∧
      smapGet 0 (v.pasture q).nextOseq (oseqKey p) = p.oseq + 1 ∧
      (v.pasture q).orderBreaks = if ok then x.orderBreaks else satInc x.orderBreaks)

/-- Notices and credits at the receiver (R357 to R359, R362, R368): a notice counts the packet and, with the last one in, completes the
transfer; a request is answered; returned and abandoned grants go back to the pool. -/
def Sys2Proof.Claims.WindowTraffic : Prop :=
  ∀ (i q rank bytes w : Nat) (p : FabPacket) (xfer : BitVec 32) (last : Option Nat) (pas : PasId) (win : BitVec 6) (rk : BitVec 12)
    (s s' : State) (t : Tracker),
    let t1 : Tracker := { t with
      landed := t.landed + 1, bytes := t.bytes + bytes, time := s'.now
      count := match last with | some n => some n | none => t.count }
    let counted := s'.modPas q fun x => x.modTracker t fun _ => t1
    (s.arrives i = some (.landed q w rank xfer bytes last, s') →
      (s'.pasture q).tracker w (BitVec.ofNat 12 rank) xfer = some t →
      (t1.count = some t1.landed → t1.broken = false →
        exec (.landingNotice i) s = .next ((counted.completeTransfer q t1).serveWindows q)) ∧
      ((t1.count ≠ some t1.landed ∨ t1.broken = true) → exec (.landingNotice i) s = .next (counted.ackData q t1))) ∧
    (s.takePacket i 0x02 = some (p, s') → s'.pasOfFlock p.flock = some q →
      exec (.creditReq i) s = .next (s'.creditRequest q p)) ∧
    (s.takePacket i 0x04 = some (p, s') → s'.pasOfFlock p.flock = some q →
      (s'.pasture q).tracker p.win.toNat p.srcRank p.xfer = some t → exec (.creditReturn i) s = .next (s'.returnUnits q t)) ∧
    ((s.pasture pas).tracker win.toNat rk xfer = some t → (s.pasture pas).trackIdleUs.toNat * usT ≤ s.now - t.time →
      exec (.trackerAbandon pas win rk xfer) s =
        .next ((s.modPas pas fun x => { x with abandoned := satInc x.abandoned }).returnUnits pas t))

/-- The answer to a CREDIT_REQ (R358, R361): a reset, closed or forbidden window refuses it; a transfer with a tracker is told its grant
again; one that waits in the queue already changes nothing; a full queue is busy; any other joins the queue, which is served. -/
def Sys2Proof.Claims.CreditRequests : Prop :=
  ∀ (s : State) (q : Nat) (p : FabPacket) (t : Tracker),
    let y := (s.pasture q).window p.win.toNat
    (y.state = 2 → s.creditRequest q p = s.windowNak q p St.FAB_TARGET_RESETTING) ∧
    (y.state = 0 → s.creditRequest q p = s.windowNak q p St.FAB_WIN_CLOSED) ∧
    (y.state = 1 → y.allows p.srcRank.toNat = false → s.creditRequest q p = s.windowNak q p St.FAB_WIN_RANK) ∧
    (y.state = 1 → y.allows p.srcRank.toNat = true → (s.pasture q).tracker p.win.toNat p.srcRank p.xfer = some t →
      s.creditRequest q p = s.emitControl q 0x03 p.srcChip p.win p.xfer (BitVec.ofNat 32 t.units)) ∧
    (y.state = 1 → y.allows p.srcRank.toNat = true → (s.pasture q).tracker p.win.toNat p.srcRank p.xfer = none →
      ((∃ e ∈ y.queue, e.1 = p.srcRank ∧ e.2.1 = p.xfer) → s.creditRequest q p = s) ∧
      ((∀ e ∈ y.queue, ¬(e.1 = p.srcRank ∧ e.2.1 = p.xfer)) →
      (64 ≤ y.queue.length → s.creditRequest q p = s.windowNak q p St.FAB_WIN_BUSY) ∧
      (y.queue.length < 64 → s.creditRequest q p = (s.putWindow q p.win.toNat
        { y with queue := y.queue ++ [(p.srcRank, p.xfer, p.count.toNat, p.srcChip)] }).serveWindow q p.win.toNat)))

/-- Windows at the receiver: data, notices and credits. The next OSEQ after a break (log entry 54) and a NAK for a refused landing write (55) are the
model's choices. -/
def Obligations.WindowsReceive : Prop :=
  Claims.DataAtItsWindow ∧ Claims.WindowTraffic ∧ Claims.CreditRequests

/-- The units of a window: free in the pool, held by trackers, and done since the rearm. -/
def Sys2Proof.Claims.units (s : State) (q w : Nat) : BitVec 20 :=
  ((s.pasture q).window w).pool + ((s.pasture q).window w).held + ((s.pasture q).window w).doneUnits

/-- Units of a window are neither made nor lost (R357, R358, R362, R356): granting, completing, returning and rearming move them between the
pool, the trackers and the done ones, and leave every other window's. -/
def Obligations.WindowUnitsAreConserved : Prop :=
  ∀ (s : State) (q w q' w' : Nat) (t : Tracker) (new : Window),
    Claims.units (s.serveWindow q w) q' w' = Claims.units s q' w' ∧
    Claims.units (s.serveWindows q) q' w' = Claims.units s q' w' ∧
    Claims.units (s.completeTransfer q t) q' w' = Claims.units s q' w' ∧
    Claims.units (s.returnUnits q t) q' w' = Claims.units s q' w' ∧
    (((s.pasture q).window w).isOpen = true → Claims.units (s.winOpen q w new) q' w' = Claims.units s q' w')

/-- Replies at the sender (R365): a grant starts the data, a NAK fails the send but for a busy window, DONE completes it, DATA_ACK opens
its window to the receiver. -/
def Sys2Proof.Claims.SendReplies : Prop :=
  ∀ (i p : Nat) (pkt : FabPacket) (s s' : State) (d : Sending),
    let acked := s'.modSending p pkt.xfer fun d =>
      { d with acks := smapPut d.acks pkt.srcRank.toNat (max (smapGet 0 d.acks pkt.srcRank.toNat) pkt.count.toNat) }
    s'.pasOfFlock pkt.flock = some p → (s'.pasture p).sendingAt pkt.xfer = some d →
    (s.takePacket i 0x03 = some (pkt, s') → d.stage = .waitCredit → d.drove = false → sendOp d.words ≠ 2 →
      exec (.creditGrant i) s = .next ((s'.modSending p d.xfer fun d => { d with stage := .sending }).runSend p d.xfer)) ∧
    (s.takePacket i 0x03 = some (pkt, s') → d.stage = .waitCredit → d.drove = false → sendOp d.words = 2 →
      exec (.creditGrant i) s = .next (s'.grantBalance p d pkt.count.toNat)) ∧
    (s.takePacket i 0x05 = some (pkt, s') → pkt.status ≠ St.FAB_WIN_BUSY → d.drove = false →
      exec (.nak i) s = .next (((s'.dropSending p d.xfer).failSend p d.entry d.words pkt.status).runSends p)) ∧
    (s.takePacket i 0x05 = some (pkt, s') → pkt.status = St.FAB_WIN_BUSY → exec (.nak i) s = .next s') ∧
    (s.takePacket i 0x06 = some (pkt, s') → d.drove = false →
      exec (.done i) s = .next ((((s'.dropSending p d.xfer).setSendStatus p d.entry St.OK).doneFlag p d.words).runSends p)) ∧
    (s.takePacket i 0x07 = some (pkt, s') → exec (.dataAck i) s = .next (acked.runSends p))

/-- Timers of the fabric (R349, R350, R364, R365, R368): a request is repeated, a send whose source is read clears its flag, one without
DONE fails, a drove fails or goes on without its late members, and held packets leave after the drain or are dropped after the hold. -/
def Sys2Proof.Claims.FabricTimers : Prop :=
  ∀ (p : PasId) (n : Byte) (port : PortId) (s : State) (d : Sending) (h : HeldPacket),
    let x := s.pasture p
    let late := (s.unpruned d).filter fun r => !d.granted.contains r
    (x.sending = [d] → d.entry = n.toNat →
    (d.stage = .waitCredit → d.drove = false → x.creditUs.toNat * usT ≤ s.now - d.reqTime →
      exec (.creditReqRepeat p n) s = .next ((s.requestCredit p d (BitVec.ofNat 12 (sendDst d.words)).toNat
        (sendRequest d.words)).modSending p d.xfer fun d => { d with reqTime := s.now })) ∧
    (d.stage = .waitDone → d.srcDone = false → exec (.sendSourceDone p n) s =
      .next ((s.modSending p d.xfer fun d => { d with srcDone := true }).send (.flag p n.toNat false none))) ∧
    (d.stage = .waitDone → d.drove = false → x.doneUs.toNat * usT ≤ s.now - d.lastTime → exec (.doneTimeout p n) s =
      .next (((s.dropSending p d.xfer).failSend p d.entry d.words St.FAB_DONE_TIMEOUT).runSends p)) ∧
    (d.stage = .waitCredit → d.drove = true → x.droveUs.toNat * usT ≤ s.now - d.start → sendOrdered d.words = true →
      exec (.droveTimeout p n) s = .next (s.failDrove p d)) ∧
    (d.stage = .waitCredit → d.drove = true → x.droveUs.toNat * usT ≤ s.now - d.start → sendOrdered d.words = false →
      exec (.droveTimeout p n) s = .next ((s.modSending p d.xfer fun _ => { d with failed := late }).goDrove p
        { d with failed := late }))) ∧
    (s.fabric.draining = true → s.fabric.ordDrain.toNat * usT ≤ s.now - s.fabric.swapTime → exec .ordDrainExpiry s =
      .next (({ s with fabric := { s.fabric with draining := false } }).retryHeld fun _ => true)) ∧
    (s.fabric.held = [h] → h.why = HoldReason.lost port → s.fabric.ordHoldUs.toNat * usT ≤ s.now - h.since →
      exec (.ordHoldExpiry port) s = .next (({ s with fabric := { s.fabric with held := [] } }.modPort port fun x =>
        { x with routeLost := satInc x.routeLost }).pkgEvent St.FAB_ROUTE_LOST port))

/-- Replies at the sender and the fabric's timers. DATA_ACK's COUNT as cumulative (log entry 55), the balance of an acquire-only send (50 and 56) and
how a drove settles (59) are the model's choices. -/
def Obligations.SendsAndTimers : Prop :=
  Claims.SendReplies ∧ Claims.FabricTimers

/-! ## Management -/

/-- The request at the head of the management queue, with its OP, while the shepherd runs. -/
def Sys2Proof.Claims.request (s : State) (op : Nat) (q : MgtReq) (rest : List MgtReq) : Bool :=
  decide (s.mgt.queue = q :: rest) && s.mgtUp && !s.restarting && decide (mgtOp q.bytes = op) && mgtForm q.bytes

/-- Management requests (R470 to R478, R483, R484): a datagram to the port's address, or an IDENTIFY to all nodes, and the mailbox's GO queue a
request; a neighbour solicitation is answered with the port's MAC address; over a faulty segment nothing counts; READ answers an object's value, WRITE
sets an object, is journalled and answers, IDENTIFY answers the identity bytes; a refused access is counted by its kind and answered. What a faulty
segment carries out, and the neighbour solicitation, are the model's reading (log entry 125). -/
def Obligations.ManagementRequests : Prop :=
  ∀ (ends : MgtEnds) (multicast : Bool) (bytes : List Byte) (s t : State) (q : MgtReq) (rest : List MgtReq) (o : Obj) (n : Nat) (st : Status),
    let m := s.mgt
    let s1 : State := { s with mgt := { m with queue := rest } }
    let r := q.bytes
    let toPort := decide (ends.dstAddr = if multicast then allNodes else s.facts.mgtAddr)
    let ours := ends.solicits.isNone && decide (ends.dstPort.toNat = 48213) && toPort && (!multicast || decide (mgtOp bytes = 3))
    (s.mgtUp = true → m.line ≠ 1 → ours = true → (m.queue.filter fun q => !q.mailbox).length < 16 →
      exec (.mgtDatagram ends multicast bytes) s = .next { s with mgt := { m with queue := m.queue ++
        [{ source := (ends.addr, ends.port), uncounted := !m.transmits, time := s.now, bytes := bytes }] } }) ∧
    (s.mgtUp = true → m.transmits = true → ours = true → 16 ≤ (m.queue.filter fun q => !q.mailbox).length →
      exec (.mgtDatagram ends multicast bytes) s = .next { s with mgt := { m with dropped := satInc m.dropped } }) ∧
    (s.mgtUp = true → m.transmits = true → ends.solicits = some s.facts.mgtAddr → ends.dstAddr ∈ s.facts.solicited →
      exec (.mgtDatagram ends multicast bytes) s = .next { s with mgt := { m with advert := some (ends.addr, s.facts.mac) } }) ∧
    (s.mgtUp = false ∨ m.line = 1 ∨ (ours = false ∧ ends.solicits ≠ some s.facts.mgtAddr) →
      exec (.mgtDatagram ends multicast bytes) s = .next s) ∧
    (s.mgtUp = true → m.busy = false → exec .mbxGo s = .next { s with mgt := { m with
      go := true, busy := true, queue := m.queue ++ [{ mailbox := true, time := s.now, bytes := m.mailboxBytes }] } }) ∧
    (s.mgtUp = true → m.busy = true → exec .mbxGo s = .next { s with mgt := { m with overrun := true } }) ∧
    (Claims.request s 1 q rest = true → s1.object (mgtIndex r) (mgtSub r) = some o → (mgtType r = 0 ∨ mgtType r = o.type) →
      exec .read s = .next (s1.answerReq q (mgtResponse r o.type St.OK (o.readData (mgtOffset r))))) ∧
    (Claims.request s 1 q rest = true → s1.object (mgtIndex r) (mgtSub r) = none →
      exec .read s = .next (s1.rejectReq q (mgtType r) 1 St.MGT_UNKNOWN)) ∧
    (q.uncounted = true → s1.rejectReq q (mgtType r) n st = s1.answerReq q (mgtResponse r (mgtType r) st [])) ∧
    (Claims.request s 2 q rest = true → s1.object (mgtIndex r) (mgtSub r) = some o →
      o.writeRejection (mgtIndex r) (mgtSub r) (mgtType r) (r.drop 16) = none →
      s1.writeObject (mgtIndex r) (mgtSub r) (r.drop 16) = .inl t →
      exec .write s = .next ((t.journalWrite q o.type o.value (r.drop 16)).answerReq q (mgtResponse r o.type St.OK []))) ∧
    (Claims.request s 2 q rest = true → s1.object (mgtIndex r) (mgtSub r) = some o →
      o.writeRejection (mgtIndex r) (mgtSub r) (mgtType r) (r.drop 16) = some (n, st) →
      exec .write s = .next (s1.rejectReq q o.type n st)) ∧
    (Claims.request s 3 q rest = true →
      exec .identify s = .next (s1.answerReq q (mgtResponse r (mgtType r) St.OK s1.identity)))

/-- A management write that its function refuses (R479) returns that function's status, changes nothing, is not journalled and counts in
no violation counter: only the answer is given. -/
def Obligations.RefusedManagementWrites : Prop :=
  ∀ (s : State) (q : MgtReq) (rest : List MgtReq) (o : Obj) (st : Status),
    let s1 : State := { s with mgt := { s.mgt with queue := rest } }
    Claims.request s 2 q rest = true → s1.object (mgtIndex q.bytes) (mgtSub q.bytes) = some o →
    o.writeRejection (mgtIndex q.bytes) (mgtSub q.bytes) (mgtType q.bytes) (q.bytes.drop 16) = none →
    s1.writeObject (mgtIndex q.bytes) (mgtSub q.bytes) (q.bytes.drop 16) = .inr st →
    ∃ t, exec .write s = .next t ∧ t = s1.answerReq q (mgtResponse q.bytes o.type st []) ∧
      t.mgt.journal = s.mgt.journal ∧ t.mgt.journalCount = s.mgt.journalCount ∧ t.mgt.viol = s.mgt.viol ∧
      t.mgt.parkW = s.mgt.parkW ∧ t.mgt.parkE = s.mgt.parkE ∧ t.mgt.dirty = s.mgt.dirty ∧
      { t with mgt := s.mgt, fns := s.fns } = s

/-- Flash and the field line (R477, R482, R483): a waiting value is written to flash or reported as not; a line fault is counted and
reported once, and the port resumes 1 s after it is gone; a node-ID conflict is left alone for 1 s. -/
def Obligations.ManagementUpkeep : Prop :=
  ∀ (item : PersistItem) (s : State) (t : Nat), s.mgtUp = true →
    let m := s.mgt
    let left (m : Mgt) : List (PersistItem × Nat) := m.dirty.filter fun d => decide (d.1 ≠ item)
    ((m.dirty.any fun d => decide (d.1 = item)) = true →
      exec (.persistWrite item true) s = .next { s with mgt := { s.flashCopy item with dirty := left (s.flashCopy item) } } ∧
      exec (.persistWrite item false) s =
        .next ({ s with mgt := { m with dirty := left m } }.pkgEvent St.MGT_PERSIST_FAIL 0)) ∧
    (m.line ≠ 1 → exec (.lineCheck .shorted) s = .next ({ s with mgt := { m with
      shorts := satInc m.shorts, line := 1, lineGone := none } }.pkgEvent St.MGT_LINE_SHORT 0)) ∧
    (m.line ≠ 2 → exec (.lineCheck .opened) s = .next ({ s with mgt := { m with
      opens := satInc m.opens, line := 2, lineGone := none } }.pkgEvent St.MGT_LINE_OPEN 0)) ∧
    (m.line ≠ 3 → exec (.lineCheck .reversed) s = .next ({ s with mgt := { m with
      reverses := satInc m.reverses, line := 3, lineGone := none } }.pkgEvent St.MGT_LINE_REVERSED 0)) ∧
    (m.line ≠ 0 → exec (.lineCheck .none) s = .next { s with mgt := { m with lineGone := some (m.lineGone.getD s.now) } }) ∧
    (exec (.lineCheck .nodeConflict) s =
      .next ({ s with mgt := { m with conflict := some s.now } }.pkgEvent St.MGT_NODE_CONFLICT s.boot.nodeId.toNat)) ∧
    (m.lineGone = some t → t + 1000 * msT ≤ s.now → exec .lineRecover s =
      .next { s with mgt := { m with line := 0, lineGone := none } }) ∧
    (m.conflict = some t → t + 1000 * msT ≤ s.now → exec .nodeConflictRetry s = .next { s with mgt := { m with conflict := none } })

/-! ## Register writes -/

/-- Register writes (R14, R380, R428): PF0 writes any pasture's page and the package's registers, a function its own page; a command bit does what its
command does; a write to the boot and mailbox registers of BAR2 sets their fields; GO with a step that bring-up does not have is refused (R422), and
GO in HIF_COMPUTE_RESET starts a warm compute reset whose fetches meet free values (R402, R424). Writes of whole words, the number of virtual
functions (log entries 71, 72), and the refusal of a step number that bring-up does not have (123) are the model's choices. -/
def Obligations.RegisterWrites : Prop :=
  ∀ (fn : FnId) (p : PasId) (v : Word) (s : State), s.hostUp = true → s.fnOn fn = true →
    let page : BitVec 26 := BitVec.ofNat 26 (65536 * p)
    (exec (.registerWrite 0 .bar0 (page + 0x1000) v) s = .next (s.writeBeatCtl p v)) ∧
    (bitAt v 0 = true → exec (.registerWrite 0 .bar0 (page + 0x140) v) s = exec (.pastureReset 0 p) s) ∧
    (bitAt v 0 = false → exec (.registerWrite 0 .bar0 (page + 0x140) v) s = .next s) ∧
    (exec (.registerWrite 0 .bar0 (page + 0x1100) v) s = exec (.hostFlagSet 0 p 0 v) s) ∧
    (exec (.registerWrite 0 .bar0 (page + 0x1120) v) s = exec (.hostFlagClr 0 p 0 v) s) ∧
    (exec (.registerWrite 0 .bar0 (page + 0x1418) v) s = exec (.ordReservationWrite 0 p 0 v) s) ∧
    (fn ≠ 0 → exec (.registerWrite fn .bar0 0x1050 v) s = .next ((s.modFn fn fun f => f.write 0x1050 v).modPas fn fun x =>
      { x with stkCeThresh := BitVec.ofNat 16 (field v 31 16) })) ∧
    (fn ≠ 0 → exec (.registerWrite fn .bar2 0xF010 v) s = .next s) ∧
    (s.boot.mode = 0 → exec (.registerWrite 0 .bar2 0xF008 v) s = .next s) ∧
    (s.boot.mode ≠ 0 → bitAt v 63 = false ∨ field v 7 0 ∈ [2, 4, 5, 6, 7, 8, 9] → exec (.registerWrite 0 .bar2 0xF008 v) s =
      .next { s with boot := { s.boot with
        ctlArg := BitVec.ofNat 8 (field v 15 8), ctlStep := BitVec.ofNat 8 (field v 7 0) } }) ∧
    (s.boot.mode ≠ 0 → bitAt v 63 = true → field v 7 0 ∉ [2, 4, 5, 6, 7, 8, 9] → s.boot.done.contains 3 = true → s.boot.mgmtOnly = false →
      exec (.registerWrite 0 .bar2 0xF008 v) s = .next ({ s with boot := { s.boot with
        ctlArg := BitVec.ofNat 8 (field v 15 8), ctlStep := BitVec.ofNat 8 (field v 7 0) } }.bootEvent St.BOOT_STEP_ORDER (field v 7 0))) ∧
    (exec (.registerWrite 0 .bar2 0xF010 v) s = .next { s with boot := { s.boot with imgAddr := v &&& 0xFFFFFFFFFFFFF000 } }) ∧
    (exec (.registerWrite 0 .bar2 0xF018 v) s = .next { s with boot := { s.boot with imgLen := BitVec.ofNat 32 (field v 31 0) } }) ∧
    (bitAt v 0 = true → exec (.registerWrite 0 .bar2 0 v) s = exec .mbxGo s) ∧
    (exec (.registerWrite 0 .bar0 0x100108 v) s =
      if bitAt v 0 then exec (.warmComputeReset { firmware := Config.fetches s.draw.1 }) s.draw.2 else .next s) ∧
    (s.boot.crs = false → exec (.registerWrite 0 .config 0 v) s = .next (s.enableVfs (min 15 v.toNat)))

/-- A virtual function reaches its own pasture only (R377, R380): none of its register writes changes another pasture, but for the events that an
ordered reservation's overcommitment leaves with its runs and for a self-test that ends with a reset of the function's own pasture (R440), or a
tile of another, but for the places in its channels that sends of reset tiles had; outside its page, and at unaligned offsets (the model's choice,
log entry 71), it changes nothing. -/
def Obligations.VirtualFunctionsKeepToTheirPasture : Prop :=
  ∀ (fn : FnId) (space : RegSpace) (off : BitVec 26) (v : Word) (s t : State), fn ≠ 0 →
    exec (.registerWrite fn space off v) s = .next t →
    (∀ q, q ≠ fn.val → (s.pasture q).inTest = false → { t.pasture q with runs := (s.pasture q).runs } = s.pasture q ∧
      ((t.pasture q).runs.map fun r => { r with events := [] }) = (s.pasture q).runs.map fun r => { r with events := [] }) ∧
    (∀ k, k ∉ s.ownTiles fn → { t.tile k with chans := (s.tile k).chans } = s.tile k) ∧
    ((space ≠ .bar0 ∨ 0x10000 ≤ off.toNat ∨ off.toNat % 8 ≠ 0 ∨ (s.func fn).enabled = false) → t = s)
/-! ## What a beat leaves in the scratchpad, the data network and the units -/

/-- The bytes that a list of accesses writes: physical places with their bytes. -/
def Sys2Proof.Claims.written (salt : Nat) (accs : List Access) : List (Nat × Byte) :=
  (accs.filter fun a => a.write && !a.clear).flatMap fun a =>
    a.data.map fun ob => (physByte (a.addr.toNat / 64 * 64 + ob.1) a.mode salt, ob.2)

/-- A completed beat's scheduled accesses lie in the tile, each in a bank of its own (R111, R115); every byte they write stands in the scratchpad
after the beat and every other byte stays (R117, R169); a written line's tally bit is 1, a cleared line's 0, every other stays (R130). The canonical
form of the premises is the model's choice (log entry 7). -/
def Obligations.ScratchpadOfABeat : Prop :=
  ∀ (vx : Vx) (vy : Vy) (s : State) (p : Nat), Claims.beatReady s (tileKey vx vy) p = true →
    let k := tileKey vx vy
    let t := s.tile k
    let salt := t.salt.toNat
    let accs := t.accesses t.beat
    Memory.wf t.spad = true → smapWf false t.tally = true →
    ∃ u, exec (.beatComplete vx vy) s = .next u ∧
      (∀ a ∈ accs, 0 ≤ a.addr ∧ a.addr < 0x200000) ∧ (accs.map fun a => a.bank salt).Nodup ∧
      (∀ x ∈ Claims.written salt accs, (∀ y ∈ Claims.written salt accs, y.1 = x.1 → y = x) → smapGet 0 (u.tile k).spad x.1 = x.2) ∧
      (∀ n, (∀ x ∈ Claims.written salt accs, x.1 ≠ n) → smapGet 0 (u.tile k).spad n = smapGet 0 t.spad n) ∧
      (∀ a ∈ accs, a.clear = true → smapGet false (u.tile k).tally (a.phys salt) = false) ∧
      (∀ a ∈ accs, a.write = true → a.clear = false → smapGet false (u.tile k).tally (a.phys salt) = true) ∧
      (∀ n, (∀ a ∈ accs, a.write = true ∨ a.clear = true → a.phys salt ≠ n) →
        smapGet false (u.tile k).tally n = smapGet false t.tally n)

/-- Tokens of a completed beat (R226, R229, R231, R236, R237): a MOVE's chunk waits at the neighbour for beat b + 1, or b + 2 across the half seam, with
its parity; a MOVE with none sends none. A MOVE from scratchpad puts out at b + 1 the chunk that it read at b. A RECV latches a chunk of good parity
and, with STORE = 1, writes the chunk of its record's size; an empty slot latches none; an arrived chunk leaves the link. -/
def Sys2Proof.Claims.TokensOfABeat : Prop :=
  ∀ (vx : Vx) (vy : Vy) (s : State) (p : Nat), Claims.beatReady s (tileKey vx vy) p = true →
    let k := tileKey vx vy
    let t := s.tile k
    let b := t.beat
    (t.moveJobs.map (·.1)).Nodup → (∀ x ∈ t.moveJobs, x.1 < 4) →
    ∃ u, exec (.beatComplete vx vy) s = .next u ∧
      (∀ d j nk seam, (d, j) ∈ t.moveJobs → s.neighbour k (Dir.ofNum d) = some (nk, seam) →
        let key := inboxKey (b + if seam then 2 else 1) (Dir.ofNum d).opposite.num
        (∀ bs, (t.moveOut j b).1 = some bs → smapFind (u.tile nk).inbox key = some { bytes := bs, parity := tokenParity bs }) ∧
        ((t.moveOut j b).1 = none → smapFind (u.tile nk).inbox key = smapFind (s.tile nk).inbox key)) ∧
      (u.tile k).chunksOut = t.chunksOut + BitVec.ofNat _ (t.moveJobs.countP fun x => (t.moveOut x.2 b).1.isSome) ∧
      (∀ d j r a, (d, j) ∈ t.moveJobs → j.moveRead b = some (r, a) →
        (∀ x ∈ r.readLines (spanLines a (r.sz 0)), x ∈ t.accesses b) ∧
        ∃ j', (d, j') ∈ (u.tile k).moveJobs ∧ ((u.tile k).moveOut j' (b + 1)).1 = some (t.bytes r.hash a (r.sz 0))) ∧
      (∀ d c j i, d < 4 → smapFind t.inbox (inboxKey b d) = some c → t.recvAt d b = some (j, i) →
        c.parity = tokenParity c.bytes ∧ smapFind (u.tile k).latched d = some (b, c.bytes) ∧
        ∀ r, recvStores j.words = true → j.mrRec = some r →
          c.bytes.length = r.sz 0 ∧ ∀ x ∈ writeAccesses r.hash (addressed (r.row j.ctrs i) c.bytes), x ∈ t.accesses b) ∧
      (∀ d, d < 4 → smapFind t.inbox (inboxKey b d) = none → (t.recvAt d b).isSome = true →
        (s.pasture p).strict = false ∧ smapFind (u.tile k).latched d = some (b, [])) ∧
      (∀ d, d < 4 → t.recvAt d b = none → smapFind (u.tile k).latched d = smapFind t.latched d) ∧
      (∀ d, d < 4 → smapFind (u.tile k).inbox (inboxKey b d) = none)

/-- What a forwarding MOVE puts out at beat b (R237): the chunk that its RECV latched at b − 1, an invalid token where that slot was empty, and no
chunk where the RECV had no chunk beat before. -/
def Sys2Proof.Claims.ForwardedChunks : Prop :=
  ∀ (t : Tile) (j : Job) (b i : Nat), j.mrChunk b = some i → moveSel j.words ≠ 0 →
    (∀ c bs, smapFind t.latched (moveSel j.words - 4) = some (c, bs) →
      (c + 1 = b → bs ≠ [] → t.moveOut j b = (some bs, false)) ∧ (c + 1 = b → bs = [] → t.moveOut j b = (none, false)) ∧
      (c + 1 ≠ b → t.moveOut j b = (none, true))) ∧
    (smapFind t.latched (moveSel j.words - 4) = none → t.moveOut j b = (none, true))

/-- The data network's neighbours, and the tokens of a beat. That a MOVE before its RECV's first chunk beat has ST_DNW_EMPTY at its own port is the
model's reading (log entry 34). -/
def Obligations.DataNetworkTokens : Prop :=
  Claims.StitchSeamIsAnOrdinaryHop ∧ Claims.TokensOfABeat ∧ Claims.ForwardedChunks

/-! ## The vector unit -/

/-- A vector descriptor's beats (R171): with its GO at g it reads vector i at g + 1 + i from the scratchpad as it stood before the beat, and writes at
g + 1 + i + L the results of what it read, with byte enables; a reduction writes the group of 64 rows whose last vector was read L beats before; it
stays until its last write. -/
def Sys2Proof.Claims.VectorBeats : Prop :=
  ∀ (vx : Vx) (vy : Vy) (s : State) (p : Nat) (j : Job), Claims.beatReady s (tileKey vx vy) p = true →
    let k := tileKey vx vy
    let t := s.tile k
    let b := t.beat
    let c := vxCfg j.words
    let l := c.lat t.ltv
    let wrote (r : Rec) (bs : List (Int × Byte)) := ∀ x ∈ writeAccesses r.hash bs, x ∈ t.accesses b
    j ∈ t.vxJobs →
    ∃ u, exec (.beatComplete vx vy) s = .next u ∧
      (∀ i, b = j.go + 1 + i → i < j.vxVectors →
        (∀ x ∈ j.vxReads i, x ∈ t.accesses b) ∧ (j.vxCapture t i).1 ∈ (u.tile k).vxJobs) ∧
      ((b ≤ j.go ∨ j.vxLastRead < b) → b < j.vxLast t.ltv → j ∈ (u.tile k).vxJobs) ∧
      (∀ i, b = j.go + 1 + i + l → i < j.vxVectors → c.reduces = false →
        (c.isOp = true → wrote j.vxD0 (j.laneWrites i (c.laneResults (j.vxCap i 0) (j.vxCap i 1) (j.vxCap i 2)
          (c.laneNarrowed (j.vxNarrowed i 0) (j.vxNarrowed i 1) (j.vxNarrowed i 2))).1)) ∧
        (c.isQuant = true → c.dequant = true → wrote j.vxD0 (j.laneWrites i (j.vxCap i 0))) ∧
        (c.isQuant = true → c.dequant = false → ∀ w ∈ (j.quantWrites i).1, wrote w.1 w.2) ∧
        (c.isTopk = true → ∀ w ∈ (j.topkWrites i).1, wrote w.1 w.2)) ∧
      (c.reduces = true → ∀ x ∈ writeAccesses j.vxD0.hash ((j.groupsAt t.ltv b).flatMap fun g => (j.reduceWrites g).1), x ∈ t.accesses b) ∧
      (∀ g, g ∈ j.groupsAt t.ltv b ↔
        g < ceilDiv j.vxRows 64 ∧ b = j.go + 1 + lastVector c.lanes j.vxN (min j.vxRows (64 * g + 64) - 1) + l)

/-- What a lane's code stands for: rounding a finite binary32 code's own value gives the code back, −0 as +0 (R78, R89). -/
def Sys2Proof.Claims.RoundingKeepsCodes : Prop :=
  ∀ (a : BitVec 32) (x : Dyad), f32Val a = .fin x → roundF32 x = (if a = 0x80000000 then 0 else a, false)

/-- Lane results of a VECOP (R170): each formed exactly and rounded once to the lane type. -/
def Sys2Proof.Claims.LaneResults : Prop :=
  ∀ (c : VxCfg) (as bs cs : List (BitVec 32)) (nar : Nat → Bool) (l : Nat), l < as.length → c.isOp = true →
    let x := f32Dyad (as.getD l 0)
    let y := f32Dyad (bs.getD l 0)
    let z := f32Dyad (cs.getD l 0)
    let e := l / 2 * 2
    let at_ (xs : List (BitVec 32)) (n : Nat) := f32Dyad (xs.getD n 0)
    let r := (c.laneResults as bs cs nar).1.getD l 0
    (c.op = 0x01 → r = (c.round (x.add y)).1) ∧ (c.op = 0x02 → r = (c.round (x.add y.neg)).1) ∧ (c.op = 0x03 → r = (c.round (x.mul y)).1) ∧
    (c.op = 0x04 → r = (c.round ((x.mul y).add z)).1) ∧
    (c.op = 0x05 → (r = (c.round x).1 ∧ x.le y = true) ∨ (r = (c.round y).1 ∧ y.lt x = true)) ∧
    (c.op = 0x06 → (r = (c.round x).1 ∧ y.le x = true) ∨ (r = (c.round y).1 ∧ x.lt y = true)) ∧
    (c.op = 0x07 → r = (c.round ⟨x.m.natAbs, x.e⟩).1) ∧ (c.op = 0x08 → r = (c.round x.neg).1) ∧ (c.op = 0x09 → r = (c.round x).1) ∧
    (c.op = 0x0A → e + 1 < as.length →
      r = (c.round (if l % 2 = 0 then ((at_ as e).mul (at_ bs e)).add ((at_ as (e + 1)).mul (at_ cs e)).neg
        else ((at_ as e).mul (at_ cs e)).add ((at_ as (e + 1)).mul (at_ bs e)))).1) ∧
    (0x20 ≤ c.op → c.bf16 = false → r = (sfuValue c.op (sfuInput c.scale (as.getD l 0) (bs.getD l 0))).1) ∧
    (0x20 ≤ c.op → c.bf16 = true →
      r = (c.round (f32Dyad (sfuValue c.op (sfuInput c.scale (as.getD l 0) (bs.getD l 0))).1)).1)

/-- The special functions (R174): u is rounded twice; the special inputs give the stated values and counts; EXP2 is exact at an integer, and elsewhere the result
lies within the stated error of the exact one, is that one rounded, or saturates. -/
def Sys2Proof.Claims.SpecialFunctions : Prop :=
  (∀ (scale a b : BitVec 32) (sc : Dyad), f32Val scale = .fin sc →
    sfuInput scale a b = (roundF32 ((f32Dyad (roundF32 ((f32Dyad a).add (f32Dyad b).neg)).1).mul sc)).1) ∧
  ∀ (op : Nat) (u : BitVec 32),
    let x := f32Dyad u
    let r := sfuValue op u
    (op = 0x20 → x.lt ⟨128, 0⟩ = false → r = (0x7F7FFFFF, { satElem := 1 })) ∧ (op = 0x20 → x.lt ⟨-149, 0⟩ = true → r = (0, {})) ∧
    (op = 0x20 → ∀ n : Int, -149 ≤ n → n < 128 → x.lt ⟨n, 0⟩ = false → (⟨n, 0⟩ : Dyad).lt x = false → r = ((roundF32 ⟨1, n⟩).1, {})) ∧
    (op = 0x21 → x.m = 0 → r = (0xFF7FFFFF, { nonfinite := 1 })) ∧ (op = 0x21 → x.m < 0 → r = (0, { nonfinite := 1 })) ∧
    (op = 0x22 → x.m = 0 → r = (0x7F7FFFFF, { nonfinite := 1 })) ∧
    (op = 0x23 → x.m = 0 → r = (0x7F7FFFFF, { nonfinite := 1 })) ∧ (op = 0x23 → x.m < 0 → r = (0, { nonfinite := 1 })) ∧
    (0x20 ≤ op → op ≤ 0x25 → r.2 = {} → (op = 0x20 → x.lt ⟨-149, 0⟩ = false ∧ (floorFrac x).2 ≠ 0) →
      (∃ d, f32Val r.1 = .fin d ∧ (d.sub (sfuRef op x)).abs.le (sfuBound op x (sfuRef op x)) = true) ∨ r.1 = (roundF32 (sfuRef op x)).1)

/-- The reductions (R173): within a vector a pairwise tree, each addition rounded and a lane without a partner passed on; over the vectors of a row a running sum in
ascending order; RSSQ rounds each square first; RARGMAX gives the first maximal element and RMAX its value. -/
def Sys2Proof.Claims.Reductions : Prop :=
  (∀ (xs : List (BitVec 32 × Bool)) (i : Nat),
    (2 * i + 1 < xs.length → ((treeLevel xs).getD i (0, false)).1 =
      (roundF32 ((f32Dyad (xs.getD (2 * i) (0, false)).1).add (f32Dyad (xs.getD (2 * i + 1) (0, false)).1))).1) ∧
    (2 * i + 1 = xs.length → (treeLevel xs).getD i (0, false) = xs.getD (2 * i) (0, false)) ∧
    (1 < xs.length → xs.length ≤ 128 → treeSum xs = treeSum (treeLevel xs)) ∧ (xs.length = 1 → treeSum xs = xs.headD (0, false))) ∧
  (∀ (sq : Bool) (v : List (BitVec 32)) (vs : List (List (BitVec 32))),
    (rowSum sq [v]) = treeSum (v.map fun x => if sq then roundF32 ((f32Dyad x).mul (f32Dyad x)) else (x, false)) ∧
    (vs ≠ [] → (rowSum sq (vs ++ [v])).1 = (roundF32 ((f32Dyad (rowSum sq vs).1).add (f32Dyad (rowSum sq [v]).1))).1)) ∧
  ∀ (c : VxCfg) (vs : List (List (BitVec 32))),
    let xs := vs.flatten
    let n := (c.reduceRow vs).1
    (c.op = 0x10 → c.bf16 = false → n = (rowSum false vs).1) ∧ (c.op = 0x11 → c.bf16 = false → n = (rowSum true vs).1) ∧
    (c.op = 0x10 → c.bf16 = true → n = (c.round (f32Dyad (rowSum false vs).1)).1) ∧
    (c.op = 0x11 → c.bf16 = true → n = (c.round (f32Dyad (rowSum true vs).1)).1) ∧
    (c.op = 0x12 → xs ≠ [] → n ∈ xs ∧ ∀ x ∈ xs, (f32Dyad n).lt (f32Dyad x) = false) ∧
    (c.op = 0x13 → xs ≠ [] → xs.length < 2 ^ 32 → n.toNat < xs.length ∧
      (∀ x ∈ xs, (f32Dyad (xs.getD n.toNat 0)).lt (f32Dyad x) = false) ∧
      ∀ i < n.toNat, (f32Dyad (xs.getD i 0)).lt (f32Dyad (xs.getD n.toNat 0)) = true)

/-- A quantised block (R87 to R89, R92, R176): the scale comes from the finite elements without the strays; a stray position and a NaN take code 0, an infinity
the largest magnitude with its sign; a finite element takes a nearest code of the format, or saturates. -/
def Sys2Proof.Claims.QuantisedBlocks : Prop :=
  (∀ (f : Nat) (rule1 : Bool) (xs : List (BitVec 32)) (skip nar : Nat → Bool) (l : Nat), l < xs.length →
    let fins := (List.range xs.length).filterMap fun i => if skip i then none else match f32Val (xs.getD i 0) with | .fin d => some d.abs | _ => none
    let r := quantBlock f rule1 xs skip nar
    (∃ s, r.2.1.headD 0 = BitVec.ofInt 8 (s + 127) ∧
      (∀ top ∈ fins, (∀ d ∈ fins, top.lt d = false) → s = blockExp f top rule1) ∧ (fins = [] → s = -127) ∧
      ∀ d, skip l = false → f32Val (xs.getD l 0) = .fin d → f ≠ 2 → r.1.getD l 0 = (narrow f d s 0).1) ∧
    (skip l = true → r.1.getD l 0 = 0) ∧ (skip l = false → f32Val (xs.getD l 0) = .nan → r.1.getD l 0 = 0) ∧
    (∀ neg, skip l = false → f32Val (xs.getD l 0) = .inf neg → r.1.getD l 0 = signedCode f (maxCode f) neg)) ∧
  ∀ (f : Nat) (x : Dyad) (s : Int) (nudge c : Nat), 0 ≤ x.m → c ≤ maxCode f → (f ≤ 2 ∨ 8 ≤ f ∧ f ≤ 0x0C) →
    let n4 : Nat := if f = 0x02 then nudgeQuarters nudge else 4
    let val (c : Nat) : Dyad := ⟨(elemVal f c).1 * n4, s - 2 - elemQ f⟩
    let r := narrow f x s nudge
    (r.2 = false → (x.sub (val r.1)).abs.le (x.sub (val c)).abs = true) ∧
    (r.2 = true → r.1 = maxCode f ∧ (val (maxCode f)).lt x = true)

/-- Dequantised values (R82, R84, R101, R177): an element times its nudge and its scale on its format's grid, zero under a NaN scale; a LONG element with B =
BASE. -/
def Sys2Proof.Claims.DequantisedValues : Prop :=
  ∀ (c : VxCfg) (code : Nat) (side : List Byte) (e : Nat),
    let w := (byteAt side 0).toNat
    (c.fmtIn = 0x12 → c.dequantVal code side e = ⟨(BitVec.ofNat 96 code).toInt, c.base - 12⟩) ∧
    (c.fmtIn ≤ 0x0C → w = 255 → (c.dequantVal code side e).m = 0) ∧
    (c.fmtIn ≤ 0x0C → w ≠ 255 → c.fmtIn ≠ 2 → ¬(c.fmtIn = 5 ∧ code = 3) →
      c.dequantVal code side e = ⟨(elemVal c.fmtIn code).1, (w : Int) - 127 - fmtQ c.fmtIn⟩) ∧
    (c.fmtIn = 2 → w ≠ 255 →
      c.dequantVal code side e = ⟨(elemVal 2 code).1 * (4 + ofBytes (side.drop 1) / 4 ^ (e % 64 / 8) % 4 : Nat), (w : Int) - 127 - 3⟩)

/-- TOPK of a row (R178): the elements in descending order of value, equal values by ascending index, of which the first K are written, an index above 65,535 as
0xFFFF where it has 16 bits; places beyond the row's end take the fill. -/
def Sys2Proof.Claims.TopkRows : Prop :=
  ∀ (c : VxCfg) (vals idxs : List (BitVec 32)),
    let item (e : Nat) : BitVec 32 × Nat := (vals.getD e 0, if c.indexIn then (idxs.getD e 0).toNat else (e + c.idxBase) % 2 ^ 32)
    let before (x y : BitVec 32 × Nat) : Prop := (f32Dyad y.1).lt (f32Dyad x.1) = true ∨ ((f32Dyad x.1).lt (f32Dyad y.1) = false ∧ x.2 ≤ y.2)
    let outs := c.topRow vals idxs
    ∃ l : List (BitVec 32 × Nat), l.Perm ((List.range vals.length).map item) ∧ l.Pairwise before ∧ outs.length = c.k ∧
      ∀ n < c.k,
        (∀ x, l[n]? = some x →
          outs.getD n (0, 0, false) = if c.idx32 = false ∧ 65535 < x.2 then (x.1.toNat, 0xFFFF, true) else (x.1.toNat, x.2, false)) ∧
        (vals.length ≤ n → outs.getD n (0, 0, false) = (0xFF7FFFFF, if c.idx32 then 0xFFFFFFFF else 0xFFFF, false))

/-- What the vector unit reads, computes and writes. Log entries 27, 31, 110 and 137 are the model's choices. -/
def Obligations.VectorUnitResults : Prop :=
  Claims.VectorBeats ∧ Claims.RoundingKeepsCodes ∧ Claims.LaneResults ∧ Claims.SpecialFunctions ∧ Claims.Reductions ∧ Claims.QuantisedBlocks ∧ Claims.DequantisedValues ∧ Claims.TopkRows

/-! ## The matrix unit -/

/-- The entry of C that a descriptor applies at beat b, or the entry it starts at zero (R154, R156). -/
def Sys2Proof.Claims.entryAt (j : Job) (b : Nat) : Option Nat :=
  let c := mxCfg j.words
  if (c.accIn ≥ 2 || (c.accIn = 0 && c.os && c.k = 0)) && b > j.go && (b - j.go) % c.rIn = 0 && (b - j.go) / c.rIn ≤ c.used then
    some ((b - j.go) / c.rIn - 1)
  else none

/-- The accumulator columns that a descriptor's additions change at beat b. -/
def Sys2Proof.Claims.addKeys (j : Job) (b : Nat) : List Nat :=
  let c := mxCfg j.words
  c.arrays.flatMap fun a => (j.additions b).map fun x => accKey a (c.entryOf x.1 x.2.1) x.2.2

/-- The accumulator columns of the entry of C of beat b. -/
def Sys2Proof.Claims.entryKeys (j : Job) (b : Nat) : List Nat :=
  let c := mxCfg j.words
  match Claims.entryAt j b with
  | some x => c.arrays.flatMap fun a => (List.range c.cp).map fun n => accKey a (c.accBase + x) n
  | none => []

/-- No descriptor but j changes an accumulator column at beat b. -/
def Sys2Proof.Claims.alone (t : Tile) (j : Job) (b key : Nat) : Prop :=
  ∃ l r, t.mxJobs = l ++ j :: r ∧ ∀ o ∈ l ++ r, key ∉ Claims.addKeys o b ∧ key ∉ Claims.entryKeys o b

/-- The beat in which pass p's block of vector v is added to column n (R156). -/
def Sys2Proof.Claims.addBeat (j : Job) (p v n : Nat) : Nat :=
  let c := mxCfg j.words
  if c.os then mxE0 j.go + (c.pb - 1) * c.sp + 74 + c.physRow v + c.physCol n + p * c.period
  else mxE0 j.go + 74 + c.physCol n + p * c.period + v * c.sp

/-- The accumulators of a completed beat (R96, R97, R103, R152 to R154, R156): at its beat a column below N takes its blocks in their order, from zero in the first pass
where ACC_IN is 0; an entry of C replaces the column (ACC_IN 2) or is added to it (ACC_IN 3); every column that no descriptor reaches in this beat stays. -/
def Sys2Proof.Claims.AccumulatorsOfABeat : Prop :=
  ∀ (vx : Vx) (vy : Vy) (s : State) (p : Nat), Claims.beatReady s (tileKey vx vy) p = true →
    let k := tileKey vx vy
    let t := s.tile k
    let b := t.beat
    ∃ u, exec (.beatComplete vx vy) s = .next u ∧
      (∀ key, (∀ j ∈ t.mxJobs, key ∉ Claims.addKeys j b ∧ key ∉ Claims.entryKeys j b) →
        smapGet 0 (u.tile k).acc key = smapGet 0 t.acc key) ∧
      (∀ j ∈ t.mxJobs,
        let c := mxCfg j.words
        c.accBase + c.used ≤ 256 →
        (∀ q v n a, a ∈ c.arrays → q < c.passes → v < c.nv → n < c.cp → (c.colSpan q).1 + n < (c.colSpan q).2 → (c.os = true → c.k ≠ 0) →
          b = Claims.addBeat j q v n →
          let key := accKey a (c.entryOf q v) n
          Claims.alone t j b key → key ∉ Claims.entryKeys j b →
          let x := if c.accIn = 0 ∧ c.firstPass q = true then 0 else smapGet 0 t.acc key
          smapGet 0 (u.tile k).acc key =
            (accAddAll c.exact (if c.exact then x else (x.setWidth 32).setWidth 96) ((j.mxCapture t b).blocks q ((c.colSpan q).1 + n) v a)).1) ∧
        (∀ x a n, Claims.entryAt j b = some x → a ∈ c.arrays → n < c.cp → n < c.entryCols x →
          let key := accKey a (c.accBase + x) n
          Claims.alone t j b key → key ∉ Claims.addKeys j b →
          let r := j.rec! (5, 44)
          let cv : BitVec 96 := BitVec.ofNat 96 (elemFrom (capReader (j.mxCapture t b).capIdx (2 ^ 40 + x * 4 + a) .elem) r r.fmt
            (r.row j.ctrs x + (a : Int) * c.outStride) n)
          (c.accIn = 0 → smapGet 0 (u.tile k).acc key = 0) ∧ (c.accIn = 2 → smapGet 0 (u.tile k).acc key = cv) ∧
          (c.accIn = 3 → smapGet 0 (u.tile k).acc key = (addC c.exact (smapGet 0 t.acc key) cv).1)))

/-- The readout of an entry (R155, R156): entry x is read at U + 1 + x r from the accumulators that the beat leaves, and share i of its lines is written at
U + 2 + x r + i; with OUT_FMT 0x1F nothing is. -/
def Sys2Proof.Claims.ReadoutOfABeat : Prop :=
  ∀ (vx : Vx) (vy : Vy) (s : State) (p : Nat) (j : Job), Claims.beatReady s (tileKey vx vy) p = true →
    let k := tileKey vx vy
    let t := s.tile k
    let b := t.beat
    let c := mxCfg j.words
    j ∈ t.mxJobs → c.outFmt ≠ 0x1F →
    ∃ u, exec (.beatComplete vx vy) s = .next u ∧
      (∀ x a, b = c.lastAdd j.go + 1 + x * c.rOut → x < c.used → a ∈ c.arrays →
        (∀ n < c.entryCols x, Claims.alone t j b (accKey a (c.accBase + x) n)) →
        ∃ j' ∈ (u.tile k).mxJobs, j'.words = j.words ∧ j'.go = j.go ∧
          smapFind j'.cap (outKey x a) = some ((List.range (c.entryCols x)).flatMap fun n =>
            (readColumn c.exact c.outFmt (c.baseW + c.baseA) (smapGet 0 (u.tile k).acc (accKey a (c.accBase + x) n))).1)) ∧
      (∀ x a i, b = c.lastAdd j.go + 2 + x * c.rOut + i → i < c.rOut → x < c.used → a ∈ c.arrays →
        ∀ w ∈ share (writeAccesses (j.rec! (5, 34)).hash (j.outBytes x a)) c.rOut i, w ∈ t.accesses b)

/-- A block's value (R92, R94, R95, R101): the products of a block's elements but for the channels of the stray map, summed exactly, times both scales; zero in
exact mode where a scale lies below its window, with the top offset 31 where it lies above, and zero in either mode under a NaN scale. -/
def Sys2Proof.Claims.BlockValues : Prop :=
  (∀ (exact : Bool) (base : Int) (w : Nat), w < 256 →
    let d := (w : Int) - 127 - base
    (w = 255 → scaleUse exact base w = (none, { nonfinite := 1 })) ∧
    (w ≠ 255 → exact = false → scaleUse exact base w = (some ((w : Int) - 127), {})) ∧
    (w ≠ 255 → exact = true → d > 31 → scaleUse exact base w = (some 31, { scaleOut := 1 })) ∧
    (w ≠ 255 → exact = true → d < 0 → scaleUse exact base w = (none, { scaleOut := 1 })) ∧
    (w ≠ 255 → exact = true → 0 ≤ d → d ≤ 31 → scaleUse exact base w = (some d, {}))) ∧
  (∀ (q : Nat) (sum w a : Int), blockValue false q sum (some w) (some a) = ⟨sum, w + a - q⟩ ∧
    (0 ≤ w → 0 ≤ a → q ≤ 12 → blockValue true q sum (some w) (some a) = ⟨sum * 2 ^ (w + a).toNat * 2 ^ (12 - q), 0⟩)) ∧
  ∀ (j : Job) (p n v a k0 : Nat),
    let c := mxCfg j.words
    let terms := ((List.range c.pb).map fun i => k0 + i).filter fun k => decide (k < c.k) &&
      !(decide (c.strayS > 0) && (j.mapOf p (k / 64)).contains (k % 64))
    (j.streamElem p v a k0).fill = false →
    j.mainBlock p n v a k0 = blockValue c.exact (fmtQ c.fmtW + fmtQ c.fmtA)
      ((terms.map fun k => (j.stageElem p n k).val * (j.streamElem p v a k).val).sum)
      (scaleUse c.exact j.staged.base (j.stageElem p n k0).scale).1 (scaleUse c.exact j.streamed.base (j.streamElem p v a k0).scale).1

/-- Accumulation and readout of one column (R96, R97, R99, R100, R103): one rounding per block in normal mode; in exact mode an integer sum clamped to ±(2^95 − 1), never
−2^95, each clamp counted; LONG is the integer's 12 bytes, FP32 and BF16 are rounded by R89, and a saturation counts in ACC_SAT. -/
def Sys2Proof.Claims.AccumulatorArithmetic : Prop :=
  (∀ (x : BitVec 96) (v : Dyad), accAdd true x v =
    (BitVec.ofInt 96 (max (-(2 ^ 95 - 1)) (min (2 ^ 95 - 1) (x.toInt + v.m))),
      if x.toInt + v.m > 2 ^ 95 - 1 ∨ x.toInt + v.m < -(2 ^ 95 - 1) then 1 else 0) ∧ (accAdd true x v).1 ≠ BitVec.ofInt 96 (-(2 ^ 95))) ∧
  (∀ (x : BitVec 96) (v d : Dyad), f32Val (x.setWidth 32) = .fin d →
    accAdd false x v = ((roundF32 (d.add v)).1.setWidth 96, if (roundF32 (d.add v)).2 then 1 else 0)) ∧
  (∀ (exact : Bool) (x : BitVec 96) (v : Dyad) (vs : List Dyad), accAddAll exact x [] = (x, 0) ∧
    (accAddAll exact x (vs ++ [v])).1 = (accAdd exact (accAddAll exact x vs).1 v).1) ∧
  (accAddAll false 0 [⟨1, 24⟩, ⟨1, 0⟩, ⟨-1, 24⟩]).1 = 0 ∧ (accAddAll false 0 [⟨1, 24⟩, ⟨-1, 24⟩, ⟨1, 0⟩]).1 = 0x3F800000 ∧
  ∀ (exact : Bool) (b : Int) (x : BitVec 96),
    let y := roundF32 ⟨x.toInt, b - 12⟩
    (readColumn exact 0x12 b x).1 = bytesOf 12 x.toNat ∧
    (exact = true → readColumn exact 0x11 b x = (bytesOf 4 y.1.toNat, { accSat := if y.2 then 1 else 0 })) ∧
    (exact = false → readColumn exact 0x11 b x = (bytesOf 4 (x.setWidth 32).toNat, {})) ∧
    (∀ d, f32Val (x.setWidth 32) = .fin d →
      readColumn exact 0x10 b x = (bytesOf 2 (roundBF16 d).1.toNat, { accSat := if (roundBF16 d).2 then 1 else 0 }))

/-- What the matrix unit adds, keeps and writes. Log entries 22, 24, 109, 137 and 138 are the model's choices. -/
def Obligations.MatrixUnitResults : Prop :=
  Claims.AccumulatorsOfABeat ∧ Claims.ReadoutOfABeat ∧ Claims.BlockValues ∧ Claims.AccumulatorArithmetic
end

