-- ==== Sys2Proof/Laws/SMap.lean ====
section
/-!
SUPPORT. Laws of sparse maps: reading what was put, reading beside it, and the canonical form.
-/
namespace Sys2Proof

variable {α : Type}

@[simp] theorem smapGet_put_same (d : α) (m : SMap α) (i : Nat) (v : α) : smapGet d (smapPut m i v) i = v := by
  induction m with
  | nil => simp [smapPut, smapGet]
  | cons kv m ih =>
    obtain ⟨k, w⟩ := kv
    by_cases h1 : i < k
    · simp [smapPut, smapGet, h1]
    · by_cases h2 : i = k <;> simp [smapPut, smapGet, h1, h2, ih]

theorem smapGet_put_other (d : α) (m : SMap α) (i j : Nat) (v : α) (h : j ≠ i) :
    smapGet d (smapPut m i v) j = smapGet d m j := by
  induction m with
  | nil => simp [smapPut, smapGet, h]
  | cons kv m ih =>
    obtain ⟨k, w⟩ := kv
    by_cases h1 : i < k
    · by_cases h3 : j < i
      · have : j ≠ k := by omega
        have : j < k := by omega
        simp [smapPut, smapGet, *]
      · simp [smapPut, smapGet, *]
    · by_cases h2 : i = k
      · subst h2; simp [smapPut, smapGet, h]
      · simp only [smapPut, h1, h2, if_false, smapGet]
        rw [ih]

/-- Reading a map after a put, at any key. -/
theorem smapGet_put (d : α) (m : SMap α) (i j : Nat) (v : α) :
    smapGet d (smapPut m i v) j = if j = i then v else smapGet d m j := by
  by_cases h : j = i
  · subst h; simp
  · simp [h, smapGet_put_other]

theorem smapAbove_put (m : SMap α) (k i : Nat) (v : α) (hk : k < i) (h : smapAbove k m = true) :
    smapAbove k (smapPut m i v) = true := by
  induction m with
  | nil => simp [smapPut, smapAbove, hk]
  | cons kv m ih =>
    obtain ⟨j, w⟩ := kv
    simp only [smapAbove, List.all_cons, Bool.and_eq_true, decide_eq_true_eq] at h ih ⊢
    unfold smapPut
    split
    · simp [hk, h.1, h.2]
    · split
      · simp [hk, h.2]
      · simp [h.1, ih h.2]

theorem smapAbove_drop (m : SMap α) (k i : Nat) (h : smapAbove k m = true) : smapAbove k (smapDrop m i) = true := by
  induction m with
  | nil => simp [smapDrop, smapAbove]
  | cons kv m ih =>
    obtain ⟨j, w⟩ := kv
    simp only [smapAbove, List.all_cons, Bool.and_eq_true, decide_eq_true_eq] at h ih ⊢
    unfold smapDrop
    split
    · simp [h.1, h.2]
    · split
      · exact h.2
      · simp [h.1, ih h.2]

theorem smapAbove_keep (p : Nat → Bool) (m : SMap α) (k : Nat) (h : smapAbove k m = true) :
    smapAbove k (smapKeep p m) = true := by
  simp only [smapAbove, smapKeep, List.all_eq_true, List.mem_filter] at h ⊢
  intro x hx; exact h x hx.1

theorem smapGet_above (d : α) (m : SMap α) (i : Nat) (h : smapAbove i m = true) : smapGet d m i = d := by
  cases m with
  | nil => rfl
  | cons kv m =>
    obtain ⟨k, w⟩ := kv
    simp only [smapAbove, List.all_cons, Bool.and_eq_true, decide_eq_true_eq] at h
    have : i ≠ k := by omega
    simp [smapGet, h.1, this]

theorem smapGet_mem (d : α) (m : SMap α) (i : Nat) : smapGet d m i = d ∨ (i, smapGet d m i) ∈ m := by
  induction m with
  | nil => exact .inl rfl
  | cons kv m ih =>
    obtain ⟨k, w⟩ := kv
    unfold smapGet
    split
    · rename_i h; exact .inr (h ▸ List.mem_cons_self)
    · split
      · exact .inl rfl
      · exact ih.imp id (List.mem_cons_of_mem _)

theorem smapPut_mem (m : SMap α) (i : Nat) (v : α) (kv : Nat × α) (h : kv ∈ smapPut m i v) : kv = (i, v) ∨ kv ∈ m := by
  induction m with
  | nil => exact .inl (List.mem_singleton.mp h)
  | cons kw m ih =>
    obtain ⟨k, w⟩ := kw
    unfold smapPut at h
    split at h
    · exact (List.mem_cons.mp h).imp id id
    · split at h
      · exact (List.mem_cons.mp h).imp id (List.mem_cons_of_mem _)
      · rcases List.mem_cons.mp h with e | e
        · exact .inr (e ▸ List.mem_cons_self)
        · exact (ih e).imp id (List.mem_cons_of_mem _)

theorem smapKeep_mem (p : Nat → Bool) (m : SMap α) (kv : Nat × α) (h : kv ∈ smapKeep p m) : kv ∈ m := (List.mem_filter.mp h).1

variable [DecidableEq α]

theorem smapWf_put (d : α) (m : SMap α) (i : Nat) (v : α) (hv : v ≠ d) (h : smapWf d m = true) :
    smapWf d (smapPut m i v) = true := by
  induction m with
  | nil => simp [smapPut, smapWf, smapAbove, hv]
  | cons kv m ih =>
    obtain ⟨k, w⟩ := kv
    have h0 := h
    simp only [smapWf, Bool.and_eq_true, decide_eq_true_eq] at h
    unfold smapPut
    split
    · rename_i hlt
      have : smapAbove i m = true := by
        have := h.1.2
        simp only [smapAbove, List.all_eq_true, decide_eq_true_eq] at this ⊢
        intro x hx; have := this x hx; omega
      simp only [smapWf, smapAbove, List.all_cons, Bool.and_eq_true, decide_eq_true_eq] at this ⊢
      exact ⟨⟨hv, hlt, this⟩, ⟨h.1.1, h.1.2⟩, h.2⟩
    · split
      · rename_i he
        subst he
        simp only [smapWf, Bool.and_eq_true, decide_eq_true_eq]
        exact ⟨⟨hv, h.1.2⟩, h.2⟩
      · simp only [smapWf, Bool.and_eq_true, decide_eq_true_eq]
        exact ⟨⟨h.1.1, smapAbove_put m k i v (by omega) h.1.2⟩, ih h.2⟩

theorem smapWf_drop (d : α) (m : SMap α) (i : Nat) (h : smapWf d m = true) : smapWf d (smapDrop m i) = true := by
  induction m with
  | nil => simp [smapDrop, smapWf]
  | cons kv m ih =>
    obtain ⟨k, w⟩ := kv
    have h0 := h
    simp only [smapWf, Bool.and_eq_true, decide_eq_true_eq] at h
    unfold smapDrop
    split
    · exact h0
    · split
      · exact h.2
      · simp only [smapWf, Bool.and_eq_true, decide_eq_true_eq]
        exact ⟨⟨h.1.1, smapAbove_drop m k i h.1.2⟩, ih h.2⟩

/-- Setting a key keeps the canonical form. -/
theorem smapWf_set (d : α) (m : SMap α) (i : Nat) (v : α) (h : smapWf d m = true) : smapWf d (smapSet d m i v) = true := by
  unfold smapSet
  split
  · exact smapWf_drop d m i h
  · exact smapWf_put d m i v (by assumption) h

/-- Keeping some of a map's keys keeps the canonical form. -/
theorem smapWf_keep (d : α) (p : Nat → Bool) (m : SMap α) (h : smapWf d m = true) : smapWf d (smapKeep p m) = true := by
  induction m with
  | nil => simp [smapKeep, smapWf]
  | cons kv m ih =>
    obtain ⟨k, w⟩ := kv
    simp only [smapWf, Bool.and_eq_true, decide_eq_true_eq] at h
    by_cases hp : p k = true
    · have e : smapKeep p ((k, w) :: m) = (k, w) :: smapKeep p m := by simp [smapKeep, hp]
      rw [e]
      simp only [smapWf, Bool.and_eq_true, decide_eq_true_eq]
      exact ⟨⟨h.1.1, smapAbove_keep p m k h.1.2⟩, ih h.2⟩
    · have e : smapKeep p ((k, w) :: m) = smapKeep p m := by simp [smapKeep, hp]
      rw [e]; exact ih h.2

/-- In canonical form, an unlisted key reads as the default. -/
theorem smapGet_drop_same (d : α) (m : SMap α) (i : Nat) (h : smapWf d m = true) : smapGet d (smapDrop m i) i = d := by
  induction m with
  | nil => rfl
  | cons kv m ih =>
    obtain ⟨k, w⟩ := kv
    simp only [smapWf, Bool.and_eq_true, decide_eq_true_eq] at h
    unfold smapDrop
    split
    · rename_i hlt
      have : i ≠ k := by omega
      simp [smapGet, hlt, this]
    · split
      · rename_i he
        subst he
        exact smapGet_above d m i h.1.2
      · rename_i h1 h2
        simp only [smapGet, h1, h2, if_false]
        exact ih h.2

theorem smapGet_drop_other (d : α) (m : SMap α) (i j : Nat) (hj : j ≠ i) (h : smapWf d m = true) :
    smapGet d (smapDrop m i) j = smapGet d m j := by
  induction m with
  | nil => rfl
  | cons kv m ih =>
    obtain ⟨k, w⟩ := kv
    simp only [smapWf, Bool.and_eq_true, decide_eq_true_eq] at h
    unfold smapDrop
    split
    · rfl
    · split
      · rename_i he
        subst he
        by_cases hl : j < i
        · have : smapAbove j m = true := by
            have := h.1.2
            simp only [smapAbove, List.all_eq_true, decide_eq_true_eq] at this ⊢
            intro x hx; have := this x hx; omega
          simp [smapGet, hj, hl, smapGet_above d m j this]
        · simp [smapGet, hj, hl]
      · simp only [smapGet]
        rw [ih h.2]

/-- Reading a canonical map after a set, at any key. -/
theorem smapGet_set (d : α) (m : SMap α) (i j : Nat) (v : α) (h : smapWf d m = true) :
    smapGet d (smapSet d m i v) j = if j = i then v else smapGet d m j := by
  unfold smapSet
  by_cases hv : v = d
  · rw [if_pos hv]
    by_cases hj : j = i
    · subst hj; simp [smapGet_drop_same d m _ h, hv]
    · simp [hj, smapGet_drop_other d m i j hj h]
  · rw [if_neg hv, smapGet_put]

end Sys2Proof
end

