-- ==== Sys2Proof/Laws/State.lean ====
section
/-!
SUPPORT. What every update of a part of the state leaves alone, field by field, and what it reads as afterwards.
-/
namespace Sys2Proof.Machine

variable (s : State)

/-! ### putTile -/

@[simp] theorem State.putTile_pending (k : Nat) (t : Tile) : (s.putTile k t).pending = s.pending := rfl
@[simp] theorem State.putTile_now (k : Nat) (t : Tile) : (s.putTile k t).now = s.now := rfl
@[simp] theorem State.putTile_epoch (k : Nat) (t : Tile) : (s.putTile k t).epoch = s.epoch := rfl
@[simp] theorem State.putTile_fresh (k : Nat) (t : Tile) : (s.putTile k t).fresh = s.fresh := rfl
@[simp] theorem State.putTile_facts (k : Nat) (t : Tile) : (s.putTile k t).facts = s.facts := rfl
@[simp] theorem State.putTile_pas (k : Nat) (t : Tile) : (s.putTile k t).pas = s.pas := rfl
@[simp] theorem State.putTile_fns (k : Nat) (t : Tile) : (s.putTile k t).fns = s.fns := rfl
@[simp] theorem State.putTile_stks (k : Nat) (t : Tile) : (s.putTile k t).stks = s.stks := rfl
@[simp] theorem State.putTile_folds (k : Nat) (t : Tile) : (s.putTile k t).folds = s.folds := rfl
@[simp] theorem State.putTile_ports (k : Nat) (t : Tile) : (s.putTile k t).ports = s.ports := rfl
@[simp] theorem State.putTile_net (k : Nat) (t : Tile) : (s.putTile k t).net = s.net := rfl
@[simp] theorem State.putTile_links (k : Nat) (t : Tile) : (s.putTile k t).links = s.links := rfl
@[simp] theorem State.putTile_fabric (k : Nat) (t : Tile) : (s.putTile k t).fabric = s.fabric := rfl
@[simp] theorem State.putTile_west (k : Nat) (t : Tile) : (s.putTile k t).west = s.west := rfl
@[simp] theorem State.putTile_east (k : Nat) (t : Tile) : (s.putTile k t).east = s.east := rfl
@[simp] theorem State.putTile_boot (k : Nat) (t : Tile) : (s.putTile k t).boot = s.boot := rfl
@[simp] theorem State.putTile_rel (k : Nat) (t : Tile) : (s.putTile k t).rel = s.rel := rfl
@[simp] theorem State.putTile_sec (k : Nat) (t : Tile) : (s.putTile k t).sec = s.sec := rfl
@[simp] theorem State.putTile_mgt (k : Nat) (t : Tile) : (s.putTile k t).mgt = s.mgt := rfl
@[simp] theorem State.putTile_power (k : Nat) (t : Tile) : (s.putTile k t).power = s.power := rfl
@[simp] theorem State.putTile_ownAuto (k : Nat) (t : Tile) : (s.putTile k t).ownAuto = s.ownAuto := rfl
@[simp] theorem State.putTile_stackMem (k : Nat) (t : Tile) : (s.putTile k t).stackMem = s.stackMem := rfl
@[simp] theorem State.putTile_bursts (k : Nat) (t : Tile) : (s.putTile k t).bursts = s.bursts := rfl
@[simp] theorem State.putTile_cmds (k : Nat) (t : Tile) : (s.putTile k t).cmds = s.cmds := rfl
@[simp] theorem State.putTile_xfers (k : Nat) (t : Tile) : (s.putTile k t).xfers = s.xfers := rfl
@[simp] theorem State.putTile_quarVx (k : Nat) (t : Tile) : (s.putTile k t).quarVx = s.quarVx := rfl
@[simp] theorem State.putTile_quarVy (k : Nat) (t : Tile) : (s.putTile k t).quarVy = s.quarVy := rfl
@[simp] theorem State.putTile_tileAcc (k : Nat) (t : Tile) : (s.putTile k t).tileAcc = s.tileAcc := rfl
@[simp] theorem State.putTile_tileData (k : Nat) (t : Tile) : (s.putTile k t).tileData = s.tileData := rfl
@[simp] theorem State.putTile_runCount (k : Nat) (t : Tile) : (s.putTile k t).runCount = s.runCount := rfl
@[simp] theorem State.putTile_hostMem (k : Nat) (t : Tile) : (s.putTile k t).hostMem = s.hostMem := rfl
@[simp] theorem State.putTile_pasture (k : Nat) (t : Tile) (j : Nat) : (s.putTile k t).pasture j = s.pasture j := rfl
@[simp] theorem State.putTile_func (k : Nat) (t : Tile) (j : Nat) : (s.putTile k t).func j = s.func j := rfl
@[simp] theorem State.putTile_stack (k : Nat) (t : Tile) (j : Nat) : (s.putTile k t).stack j = s.stack j := rfl
@[simp] theorem State.putTile_foldAt (k : Nat) (t : Tile) (j : Nat) : (s.putTile k t).foldAt j = s.foldAt j := rfl
@[simp] theorem State.putTile_port (k : Nat) (t : Tile) (j : Nat) : (s.putTile k t).port j = s.port j := rfl
@[simp] theorem State.putTile_tile_same (k : Nat) (t : Tile) : (s.putTile k t).tile k = t := smapGet_put_same ..
theorem State.putTile_tile_other (k : Nat) (t : Tile) (j : Nat) (h : j ≠ k) : (s.putTile k t).tile j = s.tile j := smapGet_put_other _ _ _ _ _ h
theorem State.putTile_tile_at (k : Nat) (t : Tile) (j : Nat) : (s.putTile k t).tile j = if j = k then t else s.tile j := smapGet_put ..

/-! ### modTile -/

@[simp] theorem State.modTile_pending (k : Nat) (f : Tile → Tile) : (s.modTile k f).pending = s.pending := rfl
@[simp] theorem State.modTile_now (k : Nat) (f : Tile → Tile) : (s.modTile k f).now = s.now := rfl
@[simp] theorem State.modTile_epoch (k : Nat) (f : Tile → Tile) : (s.modTile k f).epoch = s.epoch := rfl
@[simp] theorem State.modTile_fresh (k : Nat) (f : Tile → Tile) : (s.modTile k f).fresh = s.fresh := rfl
@[simp] theorem State.modTile_facts (k : Nat) (f : Tile → Tile) : (s.modTile k f).facts = s.facts := rfl
@[simp] theorem State.modTile_pas (k : Nat) (f : Tile → Tile) : (s.modTile k f).pas = s.pas := rfl
@[simp] theorem State.modTile_fns (k : Nat) (f : Tile → Tile) : (s.modTile k f).fns = s.fns := rfl
@[simp] theorem State.modTile_stks (k : Nat) (f : Tile → Tile) : (s.modTile k f).stks = s.stks := rfl
@[simp] theorem State.modTile_folds (k : Nat) (f : Tile → Tile) : (s.modTile k f).folds = s.folds := rfl
@[simp] theorem State.modTile_ports (k : Nat) (f : Tile → Tile) : (s.modTile k f).ports = s.ports := rfl
@[simp] theorem State.modTile_net (k : Nat) (f : Tile → Tile) : (s.modTile k f).net = s.net := rfl
@[simp] theorem State.modTile_links (k : Nat) (f : Tile → Tile) : (s.modTile k f).links = s.links := rfl
@[simp] theorem State.modTile_fabric (k : Nat) (f : Tile → Tile) : (s.modTile k f).fabric = s.fabric := rfl
@[simp] theorem State.modTile_west (k : Nat) (f : Tile → Tile) : (s.modTile k f).west = s.west := rfl
@[simp] theorem State.modTile_east (k : Nat) (f : Tile → Tile) : (s.modTile k f).east = s.east := rfl
@[simp] theorem State.modTile_boot (k : Nat) (f : Tile → Tile) : (s.modTile k f).boot = s.boot := rfl
@[simp] theorem State.modTile_rel (k : Nat) (f : Tile → Tile) : (s.modTile k f).rel = s.rel := rfl
@[simp] theorem State.modTile_sec (k : Nat) (f : Tile → Tile) : (s.modTile k f).sec = s.sec := rfl
@[simp] theorem State.modTile_mgt (k : Nat) (f : Tile → Tile) : (s.modTile k f).mgt = s.mgt := rfl
@[simp] theorem State.modTile_power (k : Nat) (f : Tile → Tile) : (s.modTile k f).power = s.power := rfl
@[simp] theorem State.modTile_ownAuto (k : Nat) (f : Tile → Tile) : (s.modTile k f).ownAuto = s.ownAuto := rfl
@[simp] theorem State.modTile_stackMem (k : Nat) (f : Tile → Tile) : (s.modTile k f).stackMem = s.stackMem := rfl
@[simp] theorem State.modTile_bursts (k : Nat) (f : Tile → Tile) : (s.modTile k f).bursts = s.bursts := rfl
@[simp] theorem State.modTile_cmds (k : Nat) (f : Tile → Tile) : (s.modTile k f).cmds = s.cmds := rfl
@[simp] theorem State.modTile_xfers (k : Nat) (f : Tile → Tile) : (s.modTile k f).xfers = s.xfers := rfl
@[simp] theorem State.modTile_quarVx (k : Nat) (f : Tile → Tile) : (s.modTile k f).quarVx = s.quarVx := rfl
@[simp] theorem State.modTile_quarVy (k : Nat) (f : Tile → Tile) : (s.modTile k f).quarVy = s.quarVy := rfl
@[simp] theorem State.modTile_tileAcc (k : Nat) (f : Tile → Tile) : (s.modTile k f).tileAcc = s.tileAcc := rfl
@[simp] theorem State.modTile_tileData (k : Nat) (f : Tile → Tile) : (s.modTile k f).tileData = s.tileData := rfl
@[simp] theorem State.modTile_runCount (k : Nat) (f : Tile → Tile) : (s.modTile k f).runCount = s.runCount := rfl
@[simp] theorem State.modTile_hostMem (k : Nat) (f : Tile → Tile) : (s.modTile k f).hostMem = s.hostMem := rfl
@[simp] theorem State.modTile_pasture (k : Nat) (f : Tile → Tile) (j : Nat) : (s.modTile k f).pasture j = s.pasture j := rfl
@[simp] theorem State.modTile_func (k : Nat) (f : Tile → Tile) (j : Nat) : (s.modTile k f).func j = s.func j := rfl
@[simp] theorem State.modTile_stack (k : Nat) (f : Tile → Tile) (j : Nat) : (s.modTile k f).stack j = s.stack j := rfl
@[simp] theorem State.modTile_foldAt (k : Nat) (f : Tile → Tile) (j : Nat) : (s.modTile k f).foldAt j = s.foldAt j := rfl
@[simp] theorem State.modTile_port (k : Nat) (f : Tile → Tile) (j : Nat) : (s.modTile k f).port j = s.port j := rfl
@[simp] theorem State.modTile_tile_same (k : Nat) (f : Tile → Tile) : (s.modTile k f).tile k = f (s.tile k) := smapGet_put_same ..
theorem State.modTile_tile_other (k : Nat) (f : Tile → Tile) (j : Nat) (h : j ≠ k) : (s.modTile k f).tile j = s.tile j := smapGet_put_other _ _ _ _ _ h
theorem State.modTile_tile_at (k : Nat) (f : Tile → Tile) (j : Nat) : (s.modTile k f).tile j = if j = k then f (s.tile k) else s.tile j := smapGet_put ..

/-! ### putPas -/

@[simp] theorem State.putPas_pending (k : Nat) (x : Pasture) : (s.putPas k x).pending = s.pending := rfl
@[simp] theorem State.putPas_now (k : Nat) (x : Pasture) : (s.putPas k x).now = s.now := rfl
@[simp] theorem State.putPas_epoch (k : Nat) (x : Pasture) : (s.putPas k x).epoch = s.epoch := rfl
@[simp] theorem State.putPas_fresh (k : Nat) (x : Pasture) : (s.putPas k x).fresh = s.fresh := rfl
@[simp] theorem State.putPas_facts (k : Nat) (x : Pasture) : (s.putPas k x).facts = s.facts := rfl
@[simp] theorem State.putPas_tiles (k : Nat) (x : Pasture) : (s.putPas k x).tiles = s.tiles := rfl
@[simp] theorem State.putPas_fns (k : Nat) (x : Pasture) : (s.putPas k x).fns = s.fns := rfl
@[simp] theorem State.putPas_stks (k : Nat) (x : Pasture) : (s.putPas k x).stks = s.stks := rfl
@[simp] theorem State.putPas_folds (k : Nat) (x : Pasture) : (s.putPas k x).folds = s.folds := rfl
@[simp] theorem State.putPas_ports (k : Nat) (x : Pasture) : (s.putPas k x).ports = s.ports := rfl
@[simp] theorem State.putPas_net (k : Nat) (x : Pasture) : (s.putPas k x).net = s.net := rfl
@[simp] theorem State.putPas_links (k : Nat) (x : Pasture) : (s.putPas k x).links = s.links := rfl
@[simp] theorem State.putPas_fabric (k : Nat) (x : Pasture) : (s.putPas k x).fabric = s.fabric := rfl
@[simp] theorem State.putPas_west (k : Nat) (x : Pasture) : (s.putPas k x).west = s.west := rfl
@[simp] theorem State.putPas_east (k : Nat) (x : Pasture) : (s.putPas k x).east = s.east := rfl
@[simp] theorem State.putPas_boot (k : Nat) (x : Pasture) : (s.putPas k x).boot = s.boot := rfl
@[simp] theorem State.putPas_rel (k : Nat) (x : Pasture) : (s.putPas k x).rel = s.rel := rfl
@[simp] theorem State.putPas_sec (k : Nat) (x : Pasture) : (s.putPas k x).sec = s.sec := rfl
@[simp] theorem State.putPas_mgt (k : Nat) (x : Pasture) : (s.putPas k x).mgt = s.mgt := rfl
@[simp] theorem State.putPas_power (k : Nat) (x : Pasture) : (s.putPas k x).power = s.power := rfl
@[simp] theorem State.putPas_ownAuto (k : Nat) (x : Pasture) : (s.putPas k x).ownAuto = s.ownAuto := rfl
@[simp] theorem State.putPas_stackMem (k : Nat) (x : Pasture) : (s.putPas k x).stackMem = s.stackMem := rfl
@[simp] theorem State.putPas_bursts (k : Nat) (x : Pasture) : (s.putPas k x).bursts = s.bursts := rfl
@[simp] theorem State.putPas_cmds (k : Nat) (x : Pasture) : (s.putPas k x).cmds = s.cmds := rfl
@[simp] theorem State.putPas_xfers (k : Nat) (x : Pasture) : (s.putPas k x).xfers = s.xfers := rfl
@[simp] theorem State.putPas_quarVx (k : Nat) (x : Pasture) : (s.putPas k x).quarVx = s.quarVx := rfl
@[simp] theorem State.putPas_quarVy (k : Nat) (x : Pasture) : (s.putPas k x).quarVy = s.quarVy := rfl
@[simp] theorem State.putPas_tileAcc (k : Nat) (x : Pasture) : (s.putPas k x).tileAcc = s.tileAcc := rfl
@[simp] theorem State.putPas_tileData (k : Nat) (x : Pasture) : (s.putPas k x).tileData = s.tileData := rfl
@[simp] theorem State.putPas_runCount (k : Nat) (x : Pasture) : (s.putPas k x).runCount = s.runCount := rfl
@[simp] theorem State.putPas_hostMem (k : Nat) (x : Pasture) : (s.putPas k x).hostMem = s.hostMem := rfl
@[simp] theorem State.putPas_tile (k : Nat) (x : Pasture) (j : Nat) : (s.putPas k x).tile j = s.tile j := rfl
@[simp] theorem State.putPas_func (k : Nat) (x : Pasture) (j : Nat) : (s.putPas k x).func j = s.func j := rfl
@[simp] theorem State.putPas_stack (k : Nat) (x : Pasture) (j : Nat) : (s.putPas k x).stack j = s.stack j := rfl
@[simp] theorem State.putPas_foldAt (k : Nat) (x : Pasture) (j : Nat) : (s.putPas k x).foldAt j = s.foldAt j := rfl
@[simp] theorem State.putPas_port (k : Nat) (x : Pasture) (j : Nat) : (s.putPas k x).port j = s.port j := rfl
@[simp] theorem State.putPas_pasture_same (k : Nat) (x : Pasture) : (s.putPas k x).pasture k = x := smapGet_put_same ..
theorem State.putPas_pasture_other (k : Nat) (x : Pasture) (j : Nat) (h : j ≠ k) : (s.putPas k x).pasture j = s.pasture j := smapGet_put_other _ _ _ _ _ h
theorem State.putPas_pasture_at (k : Nat) (x : Pasture) (j : Nat) : (s.putPas k x).pasture j = if j = k then x else s.pasture j := smapGet_put ..

/-! ### modPas -/

@[simp] theorem State.modPas_pending (k : Nat) (f : Pasture → Pasture) : (s.modPas k f).pending = s.pending := rfl
@[simp] theorem State.modPas_now (k : Nat) (f : Pasture → Pasture) : (s.modPas k f).now = s.now := rfl
@[simp] theorem State.modPas_epoch (k : Nat) (f : Pasture → Pasture) : (s.modPas k f).epoch = s.epoch := rfl
@[simp] theorem State.modPas_fresh (k : Nat) (f : Pasture → Pasture) : (s.modPas k f).fresh = s.fresh := rfl
@[simp] theorem State.modPas_facts (k : Nat) (f : Pasture → Pasture) : (s.modPas k f).facts = s.facts := rfl
@[simp] theorem State.modPas_tiles (k : Nat) (f : Pasture → Pasture) : (s.modPas k f).tiles = s.tiles := rfl
@[simp] theorem State.modPas_fns (k : Nat) (f : Pasture → Pasture) : (s.modPas k f).fns = s.fns := rfl
@[simp] theorem State.modPas_stks (k : Nat) (f : Pasture → Pasture) : (s.modPas k f).stks = s.stks := rfl
@[simp] theorem State.modPas_folds (k : Nat) (f : Pasture → Pasture) : (s.modPas k f).folds = s.folds := rfl
@[simp] theorem State.modPas_ports (k : Nat) (f : Pasture → Pasture) : (s.modPas k f).ports = s.ports := rfl
@[simp] theorem State.modPas_net (k : Nat) (f : Pasture → Pasture) : (s.modPas k f).net = s.net := rfl
@[simp] theorem State.modPas_links (k : Nat) (f : Pasture → Pasture) : (s.modPas k f).links = s.links := rfl
@[simp] theorem State.modPas_fabric (k : Nat) (f : Pasture → Pasture) : (s.modPas k f).fabric = s.fabric := rfl
@[simp] theorem State.modPas_west (k : Nat) (f : Pasture → Pasture) : (s.modPas k f).west = s.west := rfl
@[simp] theorem State.modPas_east (k : Nat) (f : Pasture → Pasture) : (s.modPas k f).east = s.east := rfl
@[simp] theorem State.modPas_boot (k : Nat) (f : Pasture → Pasture) : (s.modPas k f).boot = s.boot := rfl
@[simp] theorem State.modPas_rel (k : Nat) (f : Pasture → Pasture) : (s.modPas k f).rel = s.rel := rfl
@[simp] theorem State.modPas_sec (k : Nat) (f : Pasture → Pasture) : (s.modPas k f).sec = s.sec := rfl
@[simp] theorem State.modPas_mgt (k : Nat) (f : Pasture → Pasture) : (s.modPas k f).mgt = s.mgt := rfl
@[simp] theorem State.modPas_power (k : Nat) (f : Pasture → Pasture) : (s.modPas k f).power = s.power := rfl
@[simp] theorem State.modPas_ownAuto (k : Nat) (f : Pasture → Pasture) : (s.modPas k f).ownAuto = s.ownAuto := rfl
@[simp] theorem State.modPas_stackMem (k : Nat) (f : Pasture → Pasture) : (s.modPas k f).stackMem = s.stackMem := rfl
@[simp] theorem State.modPas_bursts (k : Nat) (f : Pasture → Pasture) : (s.modPas k f).bursts = s.bursts := rfl
@[simp] theorem State.modPas_cmds (k : Nat) (f : Pasture → Pasture) : (s.modPas k f).cmds = s.cmds := rfl
@[simp] theorem State.modPas_xfers (k : Nat) (f : Pasture → Pasture) : (s.modPas k f).xfers = s.xfers := rfl
@[simp] theorem State.modPas_quarVx (k : Nat) (f : Pasture → Pasture) : (s.modPas k f).quarVx = s.quarVx := rfl
@[simp] theorem State.modPas_quarVy (k : Nat) (f : Pasture → Pasture) : (s.modPas k f).quarVy = s.quarVy := rfl
@[simp] theorem State.modPas_tileAcc (k : Nat) (f : Pasture → Pasture) : (s.modPas k f).tileAcc = s.tileAcc := rfl
@[simp] theorem State.modPas_tileData (k : Nat) (f : Pasture → Pasture) : (s.modPas k f).tileData = s.tileData := rfl
@[simp] theorem State.modPas_runCount (k : Nat) (f : Pasture → Pasture) : (s.modPas k f).runCount = s.runCount := rfl
@[simp] theorem State.modPas_hostMem (k : Nat) (f : Pasture → Pasture) : (s.modPas k f).hostMem = s.hostMem := rfl
@[simp] theorem State.modPas_tile (k : Nat) (f : Pasture → Pasture) (j : Nat) : (s.modPas k f).tile j = s.tile j := rfl
@[simp] theorem State.modPas_func (k : Nat) (f : Pasture → Pasture) (j : Nat) : (s.modPas k f).func j = s.func j := rfl
@[simp] theorem State.modPas_stack (k : Nat) (f : Pasture → Pasture) (j : Nat) : (s.modPas k f).stack j = s.stack j := rfl
@[simp] theorem State.modPas_foldAt (k : Nat) (f : Pasture → Pasture) (j : Nat) : (s.modPas k f).foldAt j = s.foldAt j := rfl
@[simp] theorem State.modPas_port (k : Nat) (f : Pasture → Pasture) (j : Nat) : (s.modPas k f).port j = s.port j := rfl
@[simp] theorem State.modPas_pasture_same (k : Nat) (f : Pasture → Pasture) : (s.modPas k f).pasture k = f (s.pasture k) := smapGet_put_same ..
theorem State.modPas_pasture_other (k : Nat) (f : Pasture → Pasture) (j : Nat) (h : j ≠ k) : (s.modPas k f).pasture j = s.pasture j := smapGet_put_other _ _ _ _ _ h
theorem State.modPas_pasture_at (k : Nat) (f : Pasture → Pasture) (j : Nat) : (s.modPas k f).pasture j = if j = k then f (s.pasture k) else s.pasture j := smapGet_put ..

/-! ### putFn -/

@[simp] theorem State.putFn_pending (k : Nat) (x : Fn) : (s.putFn k x).pending = s.pending := rfl
@[simp] theorem State.putFn_now (k : Nat) (x : Fn) : (s.putFn k x).now = s.now := rfl
@[simp] theorem State.putFn_epoch (k : Nat) (x : Fn) : (s.putFn k x).epoch = s.epoch := rfl
@[simp] theorem State.putFn_fresh (k : Nat) (x : Fn) : (s.putFn k x).fresh = s.fresh := rfl
@[simp] theorem State.putFn_facts (k : Nat) (x : Fn) : (s.putFn k x).facts = s.facts := rfl
@[simp] theorem State.putFn_tiles (k : Nat) (x : Fn) : (s.putFn k x).tiles = s.tiles := rfl
@[simp] theorem State.putFn_pas (k : Nat) (x : Fn) : (s.putFn k x).pas = s.pas := rfl
@[simp] theorem State.putFn_stks (k : Nat) (x : Fn) : (s.putFn k x).stks = s.stks := rfl
@[simp] theorem State.putFn_folds (k : Nat) (x : Fn) : (s.putFn k x).folds = s.folds := rfl
@[simp] theorem State.putFn_ports (k : Nat) (x : Fn) : (s.putFn k x).ports = s.ports := rfl
@[simp] theorem State.putFn_net (k : Nat) (x : Fn) : (s.putFn k x).net = s.net := rfl
@[simp] theorem State.putFn_links (k : Nat) (x : Fn) : (s.putFn k x).links = s.links := rfl
@[simp] theorem State.putFn_fabric (k : Nat) (x : Fn) : (s.putFn k x).fabric = s.fabric := rfl
@[simp] theorem State.putFn_west (k : Nat) (x : Fn) : (s.putFn k x).west = s.west := rfl
@[simp] theorem State.putFn_east (k : Nat) (x : Fn) : (s.putFn k x).east = s.east := rfl
@[simp] theorem State.putFn_boot (k : Nat) (x : Fn) : (s.putFn k x).boot = s.boot := rfl
@[simp] theorem State.putFn_rel (k : Nat) (x : Fn) : (s.putFn k x).rel = s.rel := rfl
@[simp] theorem State.putFn_sec (k : Nat) (x : Fn) : (s.putFn k x).sec = s.sec := rfl
@[simp] theorem State.putFn_mgt (k : Nat) (x : Fn) : (s.putFn k x).mgt = s.mgt := rfl
@[simp] theorem State.putFn_power (k : Nat) (x : Fn) : (s.putFn k x).power = s.power := rfl
@[simp] theorem State.putFn_ownAuto (k : Nat) (x : Fn) : (s.putFn k x).ownAuto = s.ownAuto := rfl
@[simp] theorem State.putFn_stackMem (k : Nat) (x : Fn) : (s.putFn k x).stackMem = s.stackMem := rfl
@[simp] theorem State.putFn_bursts (k : Nat) (x : Fn) : (s.putFn k x).bursts = s.bursts := rfl
@[simp] theorem State.putFn_cmds (k : Nat) (x : Fn) : (s.putFn k x).cmds = s.cmds := rfl
@[simp] theorem State.putFn_xfers (k : Nat) (x : Fn) : (s.putFn k x).xfers = s.xfers := rfl
@[simp] theorem State.putFn_quarVx (k : Nat) (x : Fn) : (s.putFn k x).quarVx = s.quarVx := rfl
@[simp] theorem State.putFn_quarVy (k : Nat) (x : Fn) : (s.putFn k x).quarVy = s.quarVy := rfl
@[simp] theorem State.putFn_tileAcc (k : Nat) (x : Fn) : (s.putFn k x).tileAcc = s.tileAcc := rfl
@[simp] theorem State.putFn_tileData (k : Nat) (x : Fn) : (s.putFn k x).tileData = s.tileData := rfl
@[simp] theorem State.putFn_runCount (k : Nat) (x : Fn) : (s.putFn k x).runCount = s.runCount := rfl
@[simp] theorem State.putFn_hostMem (k : Nat) (x : Fn) : (s.putFn k x).hostMem = s.hostMem := rfl
@[simp] theorem State.putFn_tile (k : Nat) (x : Fn) (j : Nat) : (s.putFn k x).tile j = s.tile j := rfl
@[simp] theorem State.putFn_pasture (k : Nat) (x : Fn) (j : Nat) : (s.putFn k x).pasture j = s.pasture j := rfl
@[simp] theorem State.putFn_stack (k : Nat) (x : Fn) (j : Nat) : (s.putFn k x).stack j = s.stack j := rfl
@[simp] theorem State.putFn_foldAt (k : Nat) (x : Fn) (j : Nat) : (s.putFn k x).foldAt j = s.foldAt j := rfl
@[simp] theorem State.putFn_port (k : Nat) (x : Fn) (j : Nat) : (s.putFn k x).port j = s.port j := rfl
@[simp] theorem State.putFn_func_same (k : Nat) (x : Fn) : (s.putFn k x).func k = x := smapGet_put_same ..
theorem State.putFn_func_other (k : Nat) (x : Fn) (j : Nat) (h : j ≠ k) : (s.putFn k x).func j = s.func j := smapGet_put_other _ _ _ _ _ h
theorem State.putFn_func_at (k : Nat) (x : Fn) (j : Nat) : (s.putFn k x).func j = if j = k then x else s.func j := smapGet_put ..

/-! ### modFn -/

@[simp] theorem State.modFn_pending (k : Nat) (f : Fn → Fn) : (s.modFn k f).pending = s.pending := rfl
@[simp] theorem State.modFn_now (k : Nat) (f : Fn → Fn) : (s.modFn k f).now = s.now := rfl
@[simp] theorem State.modFn_epoch (k : Nat) (f : Fn → Fn) : (s.modFn k f).epoch = s.epoch := rfl
@[simp] theorem State.modFn_fresh (k : Nat) (f : Fn → Fn) : (s.modFn k f).fresh = s.fresh := rfl
@[simp] theorem State.modFn_facts (k : Nat) (f : Fn → Fn) : (s.modFn k f).facts = s.facts := rfl
@[simp] theorem State.modFn_tiles (k : Nat) (f : Fn → Fn) : (s.modFn k f).tiles = s.tiles := rfl
@[simp] theorem State.modFn_pas (k : Nat) (f : Fn → Fn) : (s.modFn k f).pas = s.pas := rfl
@[simp] theorem State.modFn_stks (k : Nat) (f : Fn → Fn) : (s.modFn k f).stks = s.stks := rfl
@[simp] theorem State.modFn_folds (k : Nat) (f : Fn → Fn) : (s.modFn k f).folds = s.folds := rfl
@[simp] theorem State.modFn_ports (k : Nat) (f : Fn → Fn) : (s.modFn k f).ports = s.ports := rfl
@[simp] theorem State.modFn_net (k : Nat) (f : Fn → Fn) : (s.modFn k f).net = s.net := rfl
@[simp] theorem State.modFn_links (k : Nat) (f : Fn → Fn) : (s.modFn k f).links = s.links := rfl
@[simp] theorem State.modFn_fabric (k : Nat) (f : Fn → Fn) : (s.modFn k f).fabric = s.fabric := rfl
@[simp] theorem State.modFn_west (k : Nat) (f : Fn → Fn) : (s.modFn k f).west = s.west := rfl
@[simp] theorem State.modFn_east (k : Nat) (f : Fn → Fn) : (s.modFn k f).east = s.east := rfl
@[simp] theorem State.modFn_boot (k : Nat) (f : Fn → Fn) : (s.modFn k f).boot = s.boot := rfl
@[simp] theorem State.modFn_rel (k : Nat) (f : Fn → Fn) : (s.modFn k f).rel = s.rel := rfl
@[simp] theorem State.modFn_sec (k : Nat) (f : Fn → Fn) : (s.modFn k f).sec = s.sec := rfl
@[simp] theorem State.modFn_mgt (k : Nat) (f : Fn → Fn) : (s.modFn k f).mgt = s.mgt := rfl
@[simp] theorem State.modFn_power (k : Nat) (f : Fn → Fn) : (s.modFn k f).power = s.power := rfl
@[simp] theorem State.modFn_ownAuto (k : Nat) (f : Fn → Fn) : (s.modFn k f).ownAuto = s.ownAuto := rfl
@[simp] theorem State.modFn_stackMem (k : Nat) (f : Fn → Fn) : (s.modFn k f).stackMem = s.stackMem := rfl
@[simp] theorem State.modFn_bursts (k : Nat) (f : Fn → Fn) : (s.modFn k f).bursts = s.bursts := rfl
@[simp] theorem State.modFn_cmds (k : Nat) (f : Fn → Fn) : (s.modFn k f).cmds = s.cmds := rfl
@[simp] theorem State.modFn_xfers (k : Nat) (f : Fn → Fn) : (s.modFn k f).xfers = s.xfers := rfl
@[simp] theorem State.modFn_quarVx (k : Nat) (f : Fn → Fn) : (s.modFn k f).quarVx = s.quarVx := rfl
@[simp] theorem State.modFn_quarVy (k : Nat) (f : Fn → Fn) : (s.modFn k f).quarVy = s.quarVy := rfl
@[simp] theorem State.modFn_tileAcc (k : Nat) (f : Fn → Fn) : (s.modFn k f).tileAcc = s.tileAcc := rfl
@[simp] theorem State.modFn_tileData (k : Nat) (f : Fn → Fn) : (s.modFn k f).tileData = s.tileData := rfl
@[simp] theorem State.modFn_runCount (k : Nat) (f : Fn → Fn) : (s.modFn k f).runCount = s.runCount := rfl
@[simp] theorem State.modFn_hostMem (k : Nat) (f : Fn → Fn) : (s.modFn k f).hostMem = s.hostMem := rfl
@[simp] theorem State.modFn_tile (k : Nat) (f : Fn → Fn) (j : Nat) : (s.modFn k f).tile j = s.tile j := rfl
@[simp] theorem State.modFn_pasture (k : Nat) (f : Fn → Fn) (j : Nat) : (s.modFn k f).pasture j = s.pasture j := rfl
@[simp] theorem State.modFn_stack (k : Nat) (f : Fn → Fn) (j : Nat) : (s.modFn k f).stack j = s.stack j := rfl
@[simp] theorem State.modFn_foldAt (k : Nat) (f : Fn → Fn) (j : Nat) : (s.modFn k f).foldAt j = s.foldAt j := rfl
@[simp] theorem State.modFn_port (k : Nat) (f : Fn → Fn) (j : Nat) : (s.modFn k f).port j = s.port j := rfl
@[simp] theorem State.modFn_func_same (k : Nat) (f : Fn → Fn) : (s.modFn k f).func k = f (s.func k) := smapGet_put_same ..
theorem State.modFn_func_other (k : Nat) (f : Fn → Fn) (j : Nat) (h : j ≠ k) : (s.modFn k f).func j = s.func j := smapGet_put_other _ _ _ _ _ h
theorem State.modFn_func_at (k : Nat) (f : Fn → Fn) (j : Nat) : (s.modFn k f).func j = if j = k then f (s.func k) else s.func j := smapGet_put ..

/-! ### putStack -/

@[simp] theorem State.putStack_pending (k : Nat) (x : Stack) : (s.putStack k x).pending = s.pending := rfl
@[simp] theorem State.putStack_now (k : Nat) (x : Stack) : (s.putStack k x).now = s.now := rfl
@[simp] theorem State.putStack_epoch (k : Nat) (x : Stack) : (s.putStack k x).epoch = s.epoch := rfl
@[simp] theorem State.putStack_fresh (k : Nat) (x : Stack) : (s.putStack k x).fresh = s.fresh := rfl
@[simp] theorem State.putStack_facts (k : Nat) (x : Stack) : (s.putStack k x).facts = s.facts := rfl
@[simp] theorem State.putStack_tiles (k : Nat) (x : Stack) : (s.putStack k x).tiles = s.tiles := rfl
@[simp] theorem State.putStack_pas (k : Nat) (x : Stack) : (s.putStack k x).pas = s.pas := rfl
@[simp] theorem State.putStack_fns (k : Nat) (x : Stack) : (s.putStack k x).fns = s.fns := rfl
@[simp] theorem State.putStack_folds (k : Nat) (x : Stack) : (s.putStack k x).folds = s.folds := rfl
@[simp] theorem State.putStack_ports (k : Nat) (x : Stack) : (s.putStack k x).ports = s.ports := rfl
@[simp] theorem State.putStack_net (k : Nat) (x : Stack) : (s.putStack k x).net = s.net := rfl
@[simp] theorem State.putStack_links (k : Nat) (x : Stack) : (s.putStack k x).links = s.links := rfl
@[simp] theorem State.putStack_fabric (k : Nat) (x : Stack) : (s.putStack k x).fabric = s.fabric := rfl
@[simp] theorem State.putStack_west (k : Nat) (x : Stack) : (s.putStack k x).west = s.west := rfl
@[simp] theorem State.putStack_east (k : Nat) (x : Stack) : (s.putStack k x).east = s.east := rfl
@[simp] theorem State.putStack_boot (k : Nat) (x : Stack) : (s.putStack k x).boot = s.boot := rfl
@[simp] theorem State.putStack_rel (k : Nat) (x : Stack) : (s.putStack k x).rel = s.rel := rfl
@[simp] theorem State.putStack_sec (k : Nat) (x : Stack) : (s.putStack k x).sec = s.sec := rfl
@[simp] theorem State.putStack_mgt (k : Nat) (x : Stack) : (s.putStack k x).mgt = s.mgt := rfl
@[simp] theorem State.putStack_power (k : Nat) (x : Stack) : (s.putStack k x).power = s.power := rfl
@[simp] theorem State.putStack_ownAuto (k : Nat) (x : Stack) : (s.putStack k x).ownAuto = s.ownAuto := rfl
@[simp] theorem State.putStack_stackMem (k : Nat) (x : Stack) : (s.putStack k x).stackMem = s.stackMem := rfl
@[simp] theorem State.putStack_bursts (k : Nat) (x : Stack) : (s.putStack k x).bursts = s.bursts := rfl
@[simp] theorem State.putStack_cmds (k : Nat) (x : Stack) : (s.putStack k x).cmds = s.cmds := rfl
@[simp] theorem State.putStack_xfers (k : Nat) (x : Stack) : (s.putStack k x).xfers = s.xfers := rfl
@[simp] theorem State.putStack_quarVx (k : Nat) (x : Stack) : (s.putStack k x).quarVx = s.quarVx := rfl
@[simp] theorem State.putStack_quarVy (k : Nat) (x : Stack) : (s.putStack k x).quarVy = s.quarVy := rfl
@[simp] theorem State.putStack_tileAcc (k : Nat) (x : Stack) : (s.putStack k x).tileAcc = s.tileAcc := rfl
@[simp] theorem State.putStack_tileData (k : Nat) (x : Stack) : (s.putStack k x).tileData = s.tileData := rfl
@[simp] theorem State.putStack_runCount (k : Nat) (x : Stack) : (s.putStack k x).runCount = s.runCount := rfl
@[simp] theorem State.putStack_hostMem (k : Nat) (x : Stack) : (s.putStack k x).hostMem = s.hostMem := rfl
@[simp] theorem State.putStack_tile (k : Nat) (x : Stack) (j : Nat) : (s.putStack k x).tile j = s.tile j := rfl
@[simp] theorem State.putStack_pasture (k : Nat) (x : Stack) (j : Nat) : (s.putStack k x).pasture j = s.pasture j := rfl
@[simp] theorem State.putStack_func (k : Nat) (x : Stack) (j : Nat) : (s.putStack k x).func j = s.func j := rfl
@[simp] theorem State.putStack_foldAt (k : Nat) (x : Stack) (j : Nat) : (s.putStack k x).foldAt j = s.foldAt j := rfl
@[simp] theorem State.putStack_port (k : Nat) (x : Stack) (j : Nat) : (s.putStack k x).port j = s.port j := rfl
@[simp] theorem State.putStack_stack_same (k : Nat) (x : Stack) : (s.putStack k x).stack k = x := smapGet_put_same ..
theorem State.putStack_stack_other (k : Nat) (x : Stack) (j : Nat) (h : j ≠ k) : (s.putStack k x).stack j = s.stack j := smapGet_put_other _ _ _ _ _ h
theorem State.putStack_stack_at (k : Nat) (x : Stack) (j : Nat) : (s.putStack k x).stack j = if j = k then x else s.stack j := smapGet_put ..

/-! ### modStack -/

@[simp] theorem State.modStack_pending (k : Nat) (f : Stack → Stack) : (s.modStack k f).pending = s.pending := rfl
@[simp] theorem State.modStack_now (k : Nat) (f : Stack → Stack) : (s.modStack k f).now = s.now := rfl
@[simp] theorem State.modStack_epoch (k : Nat) (f : Stack → Stack) : (s.modStack k f).epoch = s.epoch := rfl
@[simp] theorem State.modStack_fresh (k : Nat) (f : Stack → Stack) : (s.modStack k f).fresh = s.fresh := rfl
@[simp] theorem State.modStack_facts (k : Nat) (f : Stack → Stack) : (s.modStack k f).facts = s.facts := rfl
@[simp] theorem State.modStack_tiles (k : Nat) (f : Stack → Stack) : (s.modStack k f).tiles = s.tiles := rfl
@[simp] theorem State.modStack_pas (k : Nat) (f : Stack → Stack) : (s.modStack k f).pas = s.pas := rfl
@[simp] theorem State.modStack_fns (k : Nat) (f : Stack → Stack) : (s.modStack k f).fns = s.fns := rfl
@[simp] theorem State.modStack_folds (k : Nat) (f : Stack → Stack) : (s.modStack k f).folds = s.folds := rfl
@[simp] theorem State.modStack_ports (k : Nat) (f : Stack → Stack) : (s.modStack k f).ports = s.ports := rfl
@[simp] theorem State.modStack_net (k : Nat) (f : Stack → Stack) : (s.modStack k f).net = s.net := rfl
@[simp] theorem State.modStack_links (k : Nat) (f : Stack → Stack) : (s.modStack k f).links = s.links := rfl
@[simp] theorem State.modStack_fabric (k : Nat) (f : Stack → Stack) : (s.modStack k f).fabric = s.fabric := rfl
@[simp] theorem State.modStack_west (k : Nat) (f : Stack → Stack) : (s.modStack k f).west = s.west := rfl
@[simp] theorem State.modStack_east (k : Nat) (f : Stack → Stack) : (s.modStack k f).east = s.east := rfl
@[simp] theorem State.modStack_boot (k : Nat) (f : Stack → Stack) : (s.modStack k f).boot = s.boot := rfl
@[simp] theorem State.modStack_rel (k : Nat) (f : Stack → Stack) : (s.modStack k f).rel = s.rel := rfl
@[simp] theorem State.modStack_sec (k : Nat) (f : Stack → Stack) : (s.modStack k f).sec = s.sec := rfl
@[simp] theorem State.modStack_mgt (k : Nat) (f : Stack → Stack) : (s.modStack k f).mgt = s.mgt := rfl
@[simp] theorem State.modStack_power (k : Nat) (f : Stack → Stack) : (s.modStack k f).power = s.power := rfl
@[simp] theorem State.modStack_ownAuto (k : Nat) (f : Stack → Stack) : (s.modStack k f).ownAuto = s.ownAuto := rfl
@[simp] theorem State.modStack_stackMem (k : Nat) (f : Stack → Stack) : (s.modStack k f).stackMem = s.stackMem := rfl
@[simp] theorem State.modStack_bursts (k : Nat) (f : Stack → Stack) : (s.modStack k f).bursts = s.bursts := rfl
@[simp] theorem State.modStack_cmds (k : Nat) (f : Stack → Stack) : (s.modStack k f).cmds = s.cmds := rfl
@[simp] theorem State.modStack_xfers (k : Nat) (f : Stack → Stack) : (s.modStack k f).xfers = s.xfers := rfl
@[simp] theorem State.modStack_quarVx (k : Nat) (f : Stack → Stack) : (s.modStack k f).quarVx = s.quarVx := rfl
@[simp] theorem State.modStack_quarVy (k : Nat) (f : Stack → Stack) : (s.modStack k f).quarVy = s.quarVy := rfl
@[simp] theorem State.modStack_tileAcc (k : Nat) (f : Stack → Stack) : (s.modStack k f).tileAcc = s.tileAcc := rfl
@[simp] theorem State.modStack_tileData (k : Nat) (f : Stack → Stack) : (s.modStack k f).tileData = s.tileData := rfl
@[simp] theorem State.modStack_runCount (k : Nat) (f : Stack → Stack) : (s.modStack k f).runCount = s.runCount := rfl
@[simp] theorem State.modStack_hostMem (k : Nat) (f : Stack → Stack) : (s.modStack k f).hostMem = s.hostMem := rfl
@[simp] theorem State.modStack_tile (k : Nat) (f : Stack → Stack) (j : Nat) : (s.modStack k f).tile j = s.tile j := rfl
@[simp] theorem State.modStack_pasture (k : Nat) (f : Stack → Stack) (j : Nat) : (s.modStack k f).pasture j = s.pasture j := rfl
@[simp] theorem State.modStack_func (k : Nat) (f : Stack → Stack) (j : Nat) : (s.modStack k f).func j = s.func j := rfl
@[simp] theorem State.modStack_foldAt (k : Nat) (f : Stack → Stack) (j : Nat) : (s.modStack k f).foldAt j = s.foldAt j := rfl
@[simp] theorem State.modStack_port (k : Nat) (f : Stack → Stack) (j : Nat) : (s.modStack k f).port j = s.port j := rfl
@[simp] theorem State.modStack_stack_same (k : Nat) (f : Stack → Stack) : (s.modStack k f).stack k = f (s.stack k) := smapGet_put_same ..
theorem State.modStack_stack_other (k : Nat) (f : Stack → Stack) (j : Nat) (h : j ≠ k) : (s.modStack k f).stack j = s.stack j := smapGet_put_other _ _ _ _ _ h
theorem State.modStack_stack_at (k : Nat) (f : Stack → Stack) (j : Nat) : (s.modStack k f).stack j = if j = k then f (s.stack k) else s.stack j := smapGet_put ..

/-! ### putFold -/

@[simp] theorem State.putFold_pending (k : Nat) (x : Fold) : (s.putFold k x).pending = s.pending := rfl
@[simp] theorem State.putFold_now (k : Nat) (x : Fold) : (s.putFold k x).now = s.now := rfl
@[simp] theorem State.putFold_epoch (k : Nat) (x : Fold) : (s.putFold k x).epoch = s.epoch := rfl
@[simp] theorem State.putFold_fresh (k : Nat) (x : Fold) : (s.putFold k x).fresh = s.fresh := rfl
@[simp] theorem State.putFold_facts (k : Nat) (x : Fold) : (s.putFold k x).facts = s.facts := rfl
@[simp] theorem State.putFold_tiles (k : Nat) (x : Fold) : (s.putFold k x).tiles = s.tiles := rfl
@[simp] theorem State.putFold_pas (k : Nat) (x : Fold) : (s.putFold k x).pas = s.pas := rfl
@[simp] theorem State.putFold_fns (k : Nat) (x : Fold) : (s.putFold k x).fns = s.fns := rfl
@[simp] theorem State.putFold_stks (k : Nat) (x : Fold) : (s.putFold k x).stks = s.stks := rfl
@[simp] theorem State.putFold_ports (k : Nat) (x : Fold) : (s.putFold k x).ports = s.ports := rfl
@[simp] theorem State.putFold_net (k : Nat) (x : Fold) : (s.putFold k x).net = s.net := rfl
@[simp] theorem State.putFold_links (k : Nat) (x : Fold) : (s.putFold k x).links = s.links := rfl
@[simp] theorem State.putFold_fabric (k : Nat) (x : Fold) : (s.putFold k x).fabric = s.fabric := rfl
@[simp] theorem State.putFold_west (k : Nat) (x : Fold) : (s.putFold k x).west = s.west := rfl
@[simp] theorem State.putFold_east (k : Nat) (x : Fold) : (s.putFold k x).east = s.east := rfl
@[simp] theorem State.putFold_boot (k : Nat) (x : Fold) : (s.putFold k x).boot = s.boot := rfl
@[simp] theorem State.putFold_rel (k : Nat) (x : Fold) : (s.putFold k x).rel = s.rel := rfl
@[simp] theorem State.putFold_sec (k : Nat) (x : Fold) : (s.putFold k x).sec = s.sec := rfl
@[simp] theorem State.putFold_mgt (k : Nat) (x : Fold) : (s.putFold k x).mgt = s.mgt := rfl
@[simp] theorem State.putFold_power (k : Nat) (x : Fold) : (s.putFold k x).power = s.power := rfl
@[simp] theorem State.putFold_ownAuto (k : Nat) (x : Fold) : (s.putFold k x).ownAuto = s.ownAuto := rfl
@[simp] theorem State.putFold_stackMem (k : Nat) (x : Fold) : (s.putFold k x).stackMem = s.stackMem := rfl
@[simp] theorem State.putFold_bursts (k : Nat) (x : Fold) : (s.putFold k x).bursts = s.bursts := rfl
@[simp] theorem State.putFold_cmds (k : Nat) (x : Fold) : (s.putFold k x).cmds = s.cmds := rfl
@[simp] theorem State.putFold_xfers (k : Nat) (x : Fold) : (s.putFold k x).xfers = s.xfers := rfl
@[simp] theorem State.putFold_quarVx (k : Nat) (x : Fold) : (s.putFold k x).quarVx = s.quarVx := rfl
@[simp] theorem State.putFold_quarVy (k : Nat) (x : Fold) : (s.putFold k x).quarVy = s.quarVy := rfl
@[simp] theorem State.putFold_tileAcc (k : Nat) (x : Fold) : (s.putFold k x).tileAcc = s.tileAcc := rfl
@[simp] theorem State.putFold_tileData (k : Nat) (x : Fold) : (s.putFold k x).tileData = s.tileData := rfl
@[simp] theorem State.putFold_runCount (k : Nat) (x : Fold) : (s.putFold k x).runCount = s.runCount := rfl
@[simp] theorem State.putFold_hostMem (k : Nat) (x : Fold) : (s.putFold k x).hostMem = s.hostMem := rfl
@[simp] theorem State.putFold_tile (k : Nat) (x : Fold) (j : Nat) : (s.putFold k x).tile j = s.tile j := rfl
@[simp] theorem State.putFold_pasture (k : Nat) (x : Fold) (j : Nat) : (s.putFold k x).pasture j = s.pasture j := rfl
@[simp] theorem State.putFold_func (k : Nat) (x : Fold) (j : Nat) : (s.putFold k x).func j = s.func j := rfl
@[simp] theorem State.putFold_stack (k : Nat) (x : Fold) (j : Nat) : (s.putFold k x).stack j = s.stack j := rfl
@[simp] theorem State.putFold_port (k : Nat) (x : Fold) (j : Nat) : (s.putFold k x).port j = s.port j := rfl
@[simp] theorem State.putFold_foldAt_same (k : Nat) (x : Fold) : (s.putFold k x).foldAt k = x := smapGet_put_same ..
theorem State.putFold_foldAt_other (k : Nat) (x : Fold) (j : Nat) (h : j ≠ k) : (s.putFold k x).foldAt j = s.foldAt j := smapGet_put_other _ _ _ _ _ h
theorem State.putFold_foldAt_at (k : Nat) (x : Fold) (j : Nat) : (s.putFold k x).foldAt j = if j = k then x else s.foldAt j := smapGet_put ..

/-! ### putPort -/

@[simp] theorem State.putPort_pending (k : Nat) (x : Port) : (s.putPort k x).pending = s.pending := rfl
@[simp] theorem State.putPort_now (k : Nat) (x : Port) : (s.putPort k x).now = s.now := rfl
@[simp] theorem State.putPort_epoch (k : Nat) (x : Port) : (s.putPort k x).epoch = s.epoch := rfl
@[simp] theorem State.putPort_fresh (k : Nat) (x : Port) : (s.putPort k x).fresh = s.fresh := rfl
@[simp] theorem State.putPort_facts (k : Nat) (x : Port) : (s.putPort k x).facts = s.facts := rfl
@[simp] theorem State.putPort_tiles (k : Nat) (x : Port) : (s.putPort k x).tiles = s.tiles := rfl
@[simp] theorem State.putPort_pas (k : Nat) (x : Port) : (s.putPort k x).pas = s.pas := rfl
@[simp] theorem State.putPort_fns (k : Nat) (x : Port) : (s.putPort k x).fns = s.fns := rfl
@[simp] theorem State.putPort_stks (k : Nat) (x : Port) : (s.putPort k x).stks = s.stks := rfl
@[simp] theorem State.putPort_folds (k : Nat) (x : Port) : (s.putPort k x).folds = s.folds := rfl
@[simp] theorem State.putPort_net (k : Nat) (x : Port) : (s.putPort k x).net = s.net := rfl
@[simp] theorem State.putPort_links (k : Nat) (x : Port) : (s.putPort k x).links = s.links := rfl
@[simp] theorem State.putPort_fabric (k : Nat) (x : Port) : (s.putPort k x).fabric = s.fabric := rfl
@[simp] theorem State.putPort_west (k : Nat) (x : Port) : (s.putPort k x).west = s.west := rfl
@[simp] theorem State.putPort_east (k : Nat) (x : Port) : (s.putPort k x).east = s.east := rfl
@[simp] theorem State.putPort_boot (k : Nat) (x : Port) : (s.putPort k x).boot = s.boot := rfl
@[simp] theorem State.putPort_rel (k : Nat) (x : Port) : (s.putPort k x).rel = s.rel := rfl
@[simp] theorem State.putPort_sec (k : Nat) (x : Port) : (s.putPort k x).sec = s.sec := rfl
@[simp] theorem State.putPort_mgt (k : Nat) (x : Port) : (s.putPort k x).mgt = s.mgt := rfl
@[simp] theorem State.putPort_power (k : Nat) (x : Port) : (s.putPort k x).power = s.power := rfl
@[simp] theorem State.putPort_ownAuto (k : Nat) (x : Port) : (s.putPort k x).ownAuto = s.ownAuto := rfl
@[simp] theorem State.putPort_stackMem (k : Nat) (x : Port) : (s.putPort k x).stackMem = s.stackMem := rfl
@[simp] theorem State.putPort_bursts (k : Nat) (x : Port) : (s.putPort k x).bursts = s.bursts := rfl
@[simp] theorem State.putPort_cmds (k : Nat) (x : Port) : (s.putPort k x).cmds = s.cmds := rfl
@[simp] theorem State.putPort_xfers (k : Nat) (x : Port) : (s.putPort k x).xfers = s.xfers := rfl
@[simp] theorem State.putPort_quarVx (k : Nat) (x : Port) : (s.putPort k x).quarVx = s.quarVx := rfl
@[simp] theorem State.putPort_quarVy (k : Nat) (x : Port) : (s.putPort k x).quarVy = s.quarVy := rfl
@[simp] theorem State.putPort_tileAcc (k : Nat) (x : Port) : (s.putPort k x).tileAcc = s.tileAcc := rfl
@[simp] theorem State.putPort_tileData (k : Nat) (x : Port) : (s.putPort k x).tileData = s.tileData := rfl
@[simp] theorem State.putPort_runCount (k : Nat) (x : Port) : (s.putPort k x).runCount = s.runCount := rfl
@[simp] theorem State.putPort_hostMem (k : Nat) (x : Port) : (s.putPort k x).hostMem = s.hostMem := rfl
@[simp] theorem State.putPort_tile (k : Nat) (x : Port) (j : Nat) : (s.putPort k x).tile j = s.tile j := rfl
@[simp] theorem State.putPort_pasture (k : Nat) (x : Port) (j : Nat) : (s.putPort k x).pasture j = s.pasture j := rfl
@[simp] theorem State.putPort_func (k : Nat) (x : Port) (j : Nat) : (s.putPort k x).func j = s.func j := rfl
@[simp] theorem State.putPort_stack (k : Nat) (x : Port) (j : Nat) : (s.putPort k x).stack j = s.stack j := rfl
@[simp] theorem State.putPort_foldAt (k : Nat) (x : Port) (j : Nat) : (s.putPort k x).foldAt j = s.foldAt j := rfl
@[simp] theorem State.putPort_port_same (k : Nat) (x : Port) : (s.putPort k x).port k = x := smapGet_put_same ..
theorem State.putPort_port_other (k : Nat) (x : Port) (j : Nat) (h : j ≠ k) : (s.putPort k x).port j = s.port j := smapGet_put_other _ _ _ _ _ h
theorem State.putPort_port_at (k : Nat) (x : Port) (j : Nat) : (s.putPort k x).port j = if j = k then x else s.port j := smapGet_put ..

/-! ### modPort -/

@[simp] theorem State.modPort_pending (k : Nat) (f : Port → Port) : (s.modPort k f).pending = s.pending := rfl
@[simp] theorem State.modPort_now (k : Nat) (f : Port → Port) : (s.modPort k f).now = s.now := rfl
@[simp] theorem State.modPort_epoch (k : Nat) (f : Port → Port) : (s.modPort k f).epoch = s.epoch := rfl
@[simp] theorem State.modPort_fresh (k : Nat) (f : Port → Port) : (s.modPort k f).fresh = s.fresh := rfl
@[simp] theorem State.modPort_facts (k : Nat) (f : Port → Port) : (s.modPort k f).facts = s.facts := rfl
@[simp] theorem State.modPort_tiles (k : Nat) (f : Port → Port) : (s.modPort k f).tiles = s.tiles := rfl
@[simp] theorem State.modPort_pas (k : Nat) (f : Port → Port) : (s.modPort k f).pas = s.pas := rfl
@[simp] theorem State.modPort_fns (k : Nat) (f : Port → Port) : (s.modPort k f).fns = s.fns := rfl
@[simp] theorem State.modPort_stks (k : Nat) (f : Port → Port) : (s.modPort k f).stks = s.stks := rfl
@[simp] theorem State.modPort_folds (k : Nat) (f : Port → Port) : (s.modPort k f).folds = s.folds := rfl
@[simp] theorem State.modPort_net (k : Nat) (f : Port → Port) : (s.modPort k f).net = s.net := rfl
@[simp] theorem State.modPort_links (k : Nat) (f : Port → Port) : (s.modPort k f).links = s.links := rfl
@[simp] theorem State.modPort_fabric (k : Nat) (f : Port → Port) : (s.modPort k f).fabric = s.fabric := rfl
@[simp] theorem State.modPort_west (k : Nat) (f : Port → Port) : (s.modPort k f).west = s.west := rfl
@[simp] theorem State.modPort_east (k : Nat) (f : Port → Port) : (s.modPort k f).east = s.east := rfl
@[simp] theorem State.modPort_boot (k : Nat) (f : Port → Port) : (s.modPort k f).boot = s.boot := rfl
@[simp] theorem State.modPort_rel (k : Nat) (f : Port → Port) : (s.modPort k f).rel = s.rel := rfl
@[simp] theorem State.modPort_sec (k : Nat) (f : Port → Port) : (s.modPort k f).sec = s.sec := rfl
@[simp] theorem State.modPort_mgt (k : Nat) (f : Port → Port) : (s.modPort k f).mgt = s.mgt := rfl
@[simp] theorem State.modPort_power (k : Nat) (f : Port → Port) : (s.modPort k f).power = s.power := rfl
@[simp] theorem State.modPort_ownAuto (k : Nat) (f : Port → Port) : (s.modPort k f).ownAuto = s.ownAuto := rfl
@[simp] theorem State.modPort_stackMem (k : Nat) (f : Port → Port) : (s.modPort k f).stackMem = s.stackMem := rfl
@[simp] theorem State.modPort_bursts (k : Nat) (f : Port → Port) : (s.modPort k f).bursts = s.bursts := rfl
@[simp] theorem State.modPort_cmds (k : Nat) (f : Port → Port) : (s.modPort k f).cmds = s.cmds := rfl
@[simp] theorem State.modPort_xfers (k : Nat) (f : Port → Port) : (s.modPort k f).xfers = s.xfers := rfl
@[simp] theorem State.modPort_quarVx (k : Nat) (f : Port → Port) : (s.modPort k f).quarVx = s.quarVx := rfl
@[simp] theorem State.modPort_quarVy (k : Nat) (f : Port → Port) : (s.modPort k f).quarVy = s.quarVy := rfl
@[simp] theorem State.modPort_tileAcc (k : Nat) (f : Port → Port) : (s.modPort k f).tileAcc = s.tileAcc := rfl
@[simp] theorem State.modPort_tileData (k : Nat) (f : Port → Port) : (s.modPort k f).tileData = s.tileData := rfl
@[simp] theorem State.modPort_runCount (k : Nat) (f : Port → Port) : (s.modPort k f).runCount = s.runCount := rfl
@[simp] theorem State.modPort_hostMem (k : Nat) (f : Port → Port) : (s.modPort k f).hostMem = s.hostMem := rfl
@[simp] theorem State.modPort_tile (k : Nat) (f : Port → Port) (j : Nat) : (s.modPort k f).tile j = s.tile j := rfl
@[simp] theorem State.modPort_pasture (k : Nat) (f : Port → Port) (j : Nat) : (s.modPort k f).pasture j = s.pasture j := rfl
@[simp] theorem State.modPort_func (k : Nat) (f : Port → Port) (j : Nat) : (s.modPort k f).func j = s.func j := rfl
@[simp] theorem State.modPort_stack (k : Nat) (f : Port → Port) (j : Nat) : (s.modPort k f).stack j = s.stack j := rfl
@[simp] theorem State.modPort_foldAt (k : Nat) (f : Port → Port) (j : Nat) : (s.modPort k f).foldAt j = s.foldAt j := rfl
@[simp] theorem State.modPort_port_same (k : Nat) (f : Port → Port) : (s.modPort k f).port k = f (s.port k) := smapGet_put_same ..
theorem State.modPort_port_other (k : Nat) (f : Port → Port) (j : Nat) (h : j ≠ k) : (s.modPort k f).port j = s.port j := smapGet_put_other _ _ _ _ _ h
theorem State.modPort_port_at (k : Nat) (f : Port → Port) (j : Nat) : (s.modPort k f).port j = if j = k then f (s.port k) else s.port j := smapGet_put ..

/-! ### writeHost -/

@[simp] theorem State.writeHost_pending (k : Nat) (bs : List Byte) : (s.writeHost k bs).pending = s.pending := rfl
@[simp] theorem State.writeHost_now (k : Nat) (bs : List Byte) : (s.writeHost k bs).now = s.now := rfl
@[simp] theorem State.writeHost_epoch (k : Nat) (bs : List Byte) : (s.writeHost k bs).epoch = s.epoch := rfl
@[simp] theorem State.writeHost_fresh (k : Nat) (bs : List Byte) : (s.writeHost k bs).fresh = s.fresh := rfl
@[simp] theorem State.writeHost_facts (k : Nat) (bs : List Byte) : (s.writeHost k bs).facts = s.facts := rfl
@[simp] theorem State.writeHost_tiles (k : Nat) (bs : List Byte) : (s.writeHost k bs).tiles = s.tiles := rfl
@[simp] theorem State.writeHost_pas (k : Nat) (bs : List Byte) : (s.writeHost k bs).pas = s.pas := rfl
@[simp] theorem State.writeHost_fns (k : Nat) (bs : List Byte) : (s.writeHost k bs).fns = s.fns := rfl
@[simp] theorem State.writeHost_stks (k : Nat) (bs : List Byte) : (s.writeHost k bs).stks = s.stks := rfl
@[simp] theorem State.writeHost_folds (k : Nat) (bs : List Byte) : (s.writeHost k bs).folds = s.folds := rfl
@[simp] theorem State.writeHost_ports (k : Nat) (bs : List Byte) : (s.writeHost k bs).ports = s.ports := rfl
@[simp] theorem State.writeHost_net (k : Nat) (bs : List Byte) : (s.writeHost k bs).net = s.net := rfl
@[simp] theorem State.writeHost_links (k : Nat) (bs : List Byte) : (s.writeHost k bs).links = s.links := rfl
@[simp] theorem State.writeHost_fabric (k : Nat) (bs : List Byte) : (s.writeHost k bs).fabric = s.fabric := rfl
@[simp] theorem State.writeHost_west (k : Nat) (bs : List Byte) : (s.writeHost k bs).west = s.west := rfl
@[simp] theorem State.writeHost_east (k : Nat) (bs : List Byte) : (s.writeHost k bs).east = s.east := rfl
@[simp] theorem State.writeHost_boot (k : Nat) (bs : List Byte) : (s.writeHost k bs).boot = s.boot := rfl
@[simp] theorem State.writeHost_rel (k : Nat) (bs : List Byte) : (s.writeHost k bs).rel = s.rel := rfl
@[simp] theorem State.writeHost_sec (k : Nat) (bs : List Byte) : (s.writeHost k bs).sec = s.sec := rfl
@[simp] theorem State.writeHost_mgt (k : Nat) (bs : List Byte) : (s.writeHost k bs).mgt = s.mgt := rfl
@[simp] theorem State.writeHost_power (k : Nat) (bs : List Byte) : (s.writeHost k bs).power = s.power := rfl
@[simp] theorem State.writeHost_ownAuto (k : Nat) (bs : List Byte) : (s.writeHost k bs).ownAuto = s.ownAuto := rfl
@[simp] theorem State.writeHost_stackMem (k : Nat) (bs : List Byte) : (s.writeHost k bs).stackMem = s.stackMem := rfl
@[simp] theorem State.writeHost_bursts (k : Nat) (bs : List Byte) : (s.writeHost k bs).bursts = s.bursts := rfl
@[simp] theorem State.writeHost_cmds (k : Nat) (bs : List Byte) : (s.writeHost k bs).cmds = s.cmds := rfl
@[simp] theorem State.writeHost_xfers (k : Nat) (bs : List Byte) : (s.writeHost k bs).xfers = s.xfers := rfl
@[simp] theorem State.writeHost_quarVx (k : Nat) (bs : List Byte) : (s.writeHost k bs).quarVx = s.quarVx := rfl
@[simp] theorem State.writeHost_quarVy (k : Nat) (bs : List Byte) : (s.writeHost k bs).quarVy = s.quarVy := rfl
@[simp] theorem State.writeHost_tileAcc (k : Nat) (bs : List Byte) : (s.writeHost k bs).tileAcc = s.tileAcc := rfl
@[simp] theorem State.writeHost_tileData (k : Nat) (bs : List Byte) : (s.writeHost k bs).tileData = s.tileData := rfl
@[simp] theorem State.writeHost_runCount (k : Nat) (bs : List Byte) : (s.writeHost k bs).runCount = s.runCount := rfl
@[simp] theorem State.writeHost_tile (k : Nat) (bs : List Byte) (j : Nat) : (s.writeHost k bs).tile j = s.tile j := rfl
@[simp] theorem State.writeHost_pasture (k : Nat) (bs : List Byte) (j : Nat) : (s.writeHost k bs).pasture j = s.pasture j := rfl
@[simp] theorem State.writeHost_func (k : Nat) (bs : List Byte) (j : Nat) : (s.writeHost k bs).func j = s.func j := rfl
@[simp] theorem State.writeHost_stack (k : Nat) (bs : List Byte) (j : Nat) : (s.writeHost k bs).stack j = s.stack j := rfl
@[simp] theorem State.writeHost_foldAt (k : Nat) (bs : List Byte) (j : Nat) : (s.writeHost k bs).foldAt j = s.foldAt j := rfl
@[simp] theorem State.writeHost_port (k : Nat) (bs : List Byte) (j : Nat) : (s.writeHost k bs).port j = s.port j := rfl

/-! ### sendAt -/

@[simp] theorem State.sendAt_pending (r : Option Nat) (p : Packet) : (s.sendAt r p).pending = s.pending := rfl
@[simp] theorem State.sendAt_now (r : Option Nat) (p : Packet) : (s.sendAt r p).now = s.now := rfl
@[simp] theorem State.sendAt_epoch (r : Option Nat) (p : Packet) : (s.sendAt r p).epoch = s.epoch := rfl
@[simp] theorem State.sendAt_fresh (r : Option Nat) (p : Packet) : (s.sendAt r p).fresh = s.fresh := rfl
@[simp] theorem State.sendAt_facts (r : Option Nat) (p : Packet) : (s.sendAt r p).facts = s.facts := rfl
@[simp] theorem State.sendAt_tiles (r : Option Nat) (p : Packet) : (s.sendAt r p).tiles = s.tiles := rfl
@[simp] theorem State.sendAt_pas (r : Option Nat) (p : Packet) : (s.sendAt r p).pas = s.pas := rfl
@[simp] theorem State.sendAt_fns (r : Option Nat) (p : Packet) : (s.sendAt r p).fns = s.fns := rfl
@[simp] theorem State.sendAt_stks (r : Option Nat) (p : Packet) : (s.sendAt r p).stks = s.stks := rfl
@[simp] theorem State.sendAt_folds (r : Option Nat) (p : Packet) : (s.sendAt r p).folds = s.folds := rfl
@[simp] theorem State.sendAt_ports (r : Option Nat) (p : Packet) : (s.sendAt r p).ports = s.ports := rfl
@[simp] theorem State.sendAt_links (r : Option Nat) (p : Packet) : (s.sendAt r p).links = s.links := rfl
@[simp] theorem State.sendAt_fabric (r : Option Nat) (p : Packet) : (s.sendAt r p).fabric = s.fabric := rfl
@[simp] theorem State.sendAt_west (r : Option Nat) (p : Packet) : (s.sendAt r p).west = s.west := rfl
@[simp] theorem State.sendAt_east (r : Option Nat) (p : Packet) : (s.sendAt r p).east = s.east := rfl
@[simp] theorem State.sendAt_boot (r : Option Nat) (p : Packet) : (s.sendAt r p).boot = s.boot := rfl
@[simp] theorem State.sendAt_rel (r : Option Nat) (p : Packet) : (s.sendAt r p).rel = s.rel := rfl
@[simp] theorem State.sendAt_sec (r : Option Nat) (p : Packet) : (s.sendAt r p).sec = s.sec := rfl
@[simp] theorem State.sendAt_mgt (r : Option Nat) (p : Packet) : (s.sendAt r p).mgt = s.mgt := rfl
@[simp] theorem State.sendAt_power (r : Option Nat) (p : Packet) : (s.sendAt r p).power = s.power := rfl
@[simp] theorem State.sendAt_ownAuto (r : Option Nat) (p : Packet) : (s.sendAt r p).ownAuto = s.ownAuto := rfl
@[simp] theorem State.sendAt_stackMem (r : Option Nat) (p : Packet) : (s.sendAt r p).stackMem = s.stackMem := rfl
@[simp] theorem State.sendAt_bursts (r : Option Nat) (p : Packet) : (s.sendAt r p).bursts = s.bursts := rfl
@[simp] theorem State.sendAt_cmds (r : Option Nat) (p : Packet) : (s.sendAt r p).cmds = s.cmds := rfl
@[simp] theorem State.sendAt_xfers (r : Option Nat) (p : Packet) : (s.sendAt r p).xfers = s.xfers := rfl
@[simp] theorem State.sendAt_quarVx (r : Option Nat) (p : Packet) : (s.sendAt r p).quarVx = s.quarVx := rfl
@[simp] theorem State.sendAt_quarVy (r : Option Nat) (p : Packet) : (s.sendAt r p).quarVy = s.quarVy := rfl
@[simp] theorem State.sendAt_tileAcc (r : Option Nat) (p : Packet) : (s.sendAt r p).tileAcc = s.tileAcc := rfl
@[simp] theorem State.sendAt_tileData (r : Option Nat) (p : Packet) : (s.sendAt r p).tileData = s.tileData := rfl
@[simp] theorem State.sendAt_runCount (r : Option Nat) (p : Packet) : (s.sendAt r p).runCount = s.runCount := rfl
@[simp] theorem State.sendAt_hostMem (r : Option Nat) (p : Packet) : (s.sendAt r p).hostMem = s.hostMem := rfl
@[simp] theorem State.sendAt_tile (r : Option Nat) (p : Packet) (j : Nat) : (s.sendAt r p).tile j = s.tile j := rfl
@[simp] theorem State.sendAt_pasture (r : Option Nat) (p : Packet) (j : Nat) : (s.sendAt r p).pasture j = s.pasture j := rfl
@[simp] theorem State.sendAt_func (r : Option Nat) (p : Packet) (j : Nat) : (s.sendAt r p).func j = s.func j := rfl
@[simp] theorem State.sendAt_stack (r : Option Nat) (p : Packet) (j : Nat) : (s.sendAt r p).stack j = s.stack j := rfl
@[simp] theorem State.sendAt_foldAt (r : Option Nat) (p : Packet) (j : Nat) : (s.sendAt r p).foldAt j = s.foldAt j := rfl
@[simp] theorem State.sendAt_port (r : Option Nat) (p : Packet) (j : Nat) : (s.sendAt r p).port j = s.port j := rfl

/-! ### inject and send -/

@[simp] theorem State.inject_pending (p : Nat) (ff : Bool) (n : Nat) : (s.inject p ff n).2.pending = s.pending := by
  unfold State.inject; extract_lets; split <;> rfl
@[simp] theorem State.inject_now (p : Nat) (ff : Bool) (n : Nat) : (s.inject p ff n).2.now = s.now := by
  unfold State.inject; extract_lets; split <;> rfl
@[simp] theorem State.inject_epoch (p : Nat) (ff : Bool) (n : Nat) : (s.inject p ff n).2.epoch = s.epoch := by
  unfold State.inject; extract_lets; split <;> rfl
@[simp] theorem State.inject_fresh (p : Nat) (ff : Bool) (n : Nat) : (s.inject p ff n).2.fresh = s.fresh := by
  unfold State.inject; extract_lets; split <;> rfl
@[simp] theorem State.inject_facts (p : Nat) (ff : Bool) (n : Nat) : (s.inject p ff n).2.facts = s.facts := by
  unfold State.inject; extract_lets; split <;> rfl
@[simp] theorem State.inject_tiles (p : Nat) (ff : Bool) (n : Nat) : (s.inject p ff n).2.tiles = s.tiles := by
  unfold State.inject; extract_lets; split <;> rfl
@[simp] theorem State.inject_fns (p : Nat) (ff : Bool) (n : Nat) : (s.inject p ff n).2.fns = s.fns := by
  unfold State.inject; extract_lets; split <;> rfl
@[simp] theorem State.inject_stks (p : Nat) (ff : Bool) (n : Nat) : (s.inject p ff n).2.stks = s.stks := by
  unfold State.inject; extract_lets; split <;> rfl
@[simp] theorem State.inject_folds (p : Nat) (ff : Bool) (n : Nat) : (s.inject p ff n).2.folds = s.folds := by
  unfold State.inject; extract_lets; split <;> rfl
@[simp] theorem State.inject_ports (p : Nat) (ff : Bool) (n : Nat) : (s.inject p ff n).2.ports = s.ports := by
  unfold State.inject; extract_lets; split <;> rfl
@[simp] theorem State.inject_net (p : Nat) (ff : Bool) (n : Nat) : (s.inject p ff n).2.net = s.net := by
  unfold State.inject; extract_lets; split <;> rfl
@[simp] theorem State.inject_links (p : Nat) (ff : Bool) (n : Nat) : (s.inject p ff n).2.links = s.links := by
  unfold State.inject; extract_lets; split <;> rfl
@[simp] theorem State.inject_fabric (p : Nat) (ff : Bool) (n : Nat) : (s.inject p ff n).2.fabric = s.fabric := by
  unfold State.inject; extract_lets; split <;> rfl
@[simp] theorem State.inject_west (p : Nat) (ff : Bool) (n : Nat) : (s.inject p ff n).2.west = s.west := by
  unfold State.inject; extract_lets; split <;> rfl
@[simp] theorem State.inject_east (p : Nat) (ff : Bool) (n : Nat) : (s.inject p ff n).2.east = s.east := by
  unfold State.inject; extract_lets; split <;> rfl
@[simp] theorem State.inject_boot (p : Nat) (ff : Bool) (n : Nat) : (s.inject p ff n).2.boot = s.boot := by
  unfold State.inject; extract_lets; split <;> rfl
@[simp] theorem State.inject_rel (p : Nat) (ff : Bool) (n : Nat) : (s.inject p ff n).2.rel = s.rel := by
  unfold State.inject; extract_lets; split <;> rfl
@[simp] theorem State.inject_sec (p : Nat) (ff : Bool) (n : Nat) : (s.inject p ff n).2.sec = s.sec := by
  unfold State.inject; extract_lets; split <;> rfl
@[simp] theorem State.inject_mgt (p : Nat) (ff : Bool) (n : Nat) : (s.inject p ff n).2.mgt = s.mgt := by
  unfold State.inject; extract_lets; split <;> rfl
@[simp] theorem State.inject_power (p : Nat) (ff : Bool) (n : Nat) : (s.inject p ff n).2.power = s.power := by
  unfold State.inject; extract_lets; split <;> rfl
@[simp] theorem State.inject_ownAuto (p : Nat) (ff : Bool) (n : Nat) : (s.inject p ff n).2.ownAuto = s.ownAuto := by
  unfold State.inject; extract_lets; split <;> rfl
@[simp] theorem State.inject_stackMem (p : Nat) (ff : Bool) (n : Nat) : (s.inject p ff n).2.stackMem = s.stackMem := by
  unfold State.inject; extract_lets; split <;> rfl
@[simp] theorem State.inject_bursts (p : Nat) (ff : Bool) (n : Nat) : (s.inject p ff n).2.bursts = s.bursts := by
  unfold State.inject; extract_lets; split <;> rfl
@[simp] theorem State.inject_cmds (p : Nat) (ff : Bool) (n : Nat) : (s.inject p ff n).2.cmds = s.cmds := by
  unfold State.inject; extract_lets; split <;> rfl
@[simp] theorem State.inject_xfers (p : Nat) (ff : Bool) (n : Nat) : (s.inject p ff n).2.xfers = s.xfers := by
  unfold State.inject; extract_lets; split <;> rfl
@[simp] theorem State.inject_quarVx (p : Nat) (ff : Bool) (n : Nat) : (s.inject p ff n).2.quarVx = s.quarVx := by
  unfold State.inject; extract_lets; split <;> rfl
@[simp] theorem State.inject_quarVy (p : Nat) (ff : Bool) (n : Nat) : (s.inject p ff n).2.quarVy = s.quarVy := by
  unfold State.inject; extract_lets; split <;> rfl
@[simp] theorem State.inject_tileAcc (p : Nat) (ff : Bool) (n : Nat) : (s.inject p ff n).2.tileAcc = s.tileAcc := by
  unfold State.inject; extract_lets; split <;> rfl
@[simp] theorem State.inject_tileData (p : Nat) (ff : Bool) (n : Nat) : (s.inject p ff n).2.tileData = s.tileData := by
  unfold State.inject; extract_lets; split <;> rfl
@[simp] theorem State.inject_runCount (p : Nat) (ff : Bool) (n : Nat) : (s.inject p ff n).2.runCount = s.runCount := by
  unfold State.inject; extract_lets; split <;> rfl
@[simp] theorem State.inject_hostMem (p : Nat) (ff : Bool) (n : Nat) : (s.inject p ff n).2.hostMem = s.hostMem := by
  unfold State.inject; extract_lets; split <;> rfl
@[simp] theorem State.send_pending (p : Packet) : (s.send p).pending = s.pending := by unfold State.send; split <;> simp
@[simp] theorem State.send_now (p : Packet) : (s.send p).now = s.now := by unfold State.send; split <;> simp
@[simp] theorem State.send_epoch (p : Packet) : (s.send p).epoch = s.epoch := by unfold State.send; split <;> simp
@[simp] theorem State.send_fresh (p : Packet) : (s.send p).fresh = s.fresh := by unfold State.send; split <;> simp
@[simp] theorem State.send_facts (p : Packet) : (s.send p).facts = s.facts := by unfold State.send; split <;> simp
@[simp] theorem State.send_tiles (p : Packet) : (s.send p).tiles = s.tiles := by unfold State.send; split <;> simp
@[simp] theorem State.send_fns (p : Packet) : (s.send p).fns = s.fns := by unfold State.send; split <;> simp
@[simp] theorem State.send_stks (p : Packet) : (s.send p).stks = s.stks := by unfold State.send; split <;> simp
@[simp] theorem State.send_folds (p : Packet) : (s.send p).folds = s.folds := by unfold State.send; split <;> simp
@[simp] theorem State.send_ports (p : Packet) : (s.send p).ports = s.ports := by unfold State.send; split <;> simp
@[simp] theorem State.send_links (p : Packet) : (s.send p).links = s.links := by unfold State.send; split <;> simp
@[simp] theorem State.send_fabric (p : Packet) : (s.send p).fabric = s.fabric := by unfold State.send; split <;> simp
@[simp] theorem State.send_west (p : Packet) : (s.send p).west = s.west := by unfold State.send; split <;> simp
@[simp] theorem State.send_east (p : Packet) : (s.send p).east = s.east := by unfold State.send; split <;> simp
@[simp] theorem State.send_boot (p : Packet) : (s.send p).boot = s.boot := by unfold State.send; split <;> simp
@[simp] theorem State.send_rel (p : Packet) : (s.send p).rel = s.rel := by unfold State.send; split <;> simp
@[simp] theorem State.send_sec (p : Packet) : (s.send p).sec = s.sec := by unfold State.send; split <;> simp
@[simp] theorem State.send_mgt (p : Packet) : (s.send p).mgt = s.mgt := by unfold State.send; split <;> simp
@[simp] theorem State.send_power (p : Packet) : (s.send p).power = s.power := by unfold State.send; split <;> simp
@[simp] theorem State.send_ownAuto (p : Packet) : (s.send p).ownAuto = s.ownAuto := by unfold State.send; split <;> simp
@[simp] theorem State.send_stackMem (p : Packet) : (s.send p).stackMem = s.stackMem := by unfold State.send; split <;> simp
@[simp] theorem State.send_bursts (p : Packet) : (s.send p).bursts = s.bursts := by unfold State.send; split <;> simp
@[simp] theorem State.send_cmds (p : Packet) : (s.send p).cmds = s.cmds := by unfold State.send; split <;> simp
@[simp] theorem State.send_xfers (p : Packet) : (s.send p).xfers = s.xfers := by unfold State.send; split <;> simp
@[simp] theorem State.send_quarVx (p : Packet) : (s.send p).quarVx = s.quarVx := by unfold State.send; split <;> simp
@[simp] theorem State.send_quarVy (p : Packet) : (s.send p).quarVy = s.quarVy := by unfold State.send; split <;> simp
@[simp] theorem State.send_tileAcc (p : Packet) : (s.send p).tileAcc = s.tileAcc := by unfold State.send; split <;> simp
@[simp] theorem State.send_tileData (p : Packet) : (s.send p).tileData = s.tileData := by unfold State.send; split <;> simp
@[simp] theorem State.send_runCount (p : Packet) : (s.send p).runCount = s.runCount := by unfold State.send; split <;> simp
@[simp] theorem State.send_hostMem (p : Packet) : (s.send p).hostMem = s.hostMem := by unfold State.send; split <;> simp
@[simp] theorem State.send_tile (p : Packet) (j : Nat) : (s.send p).tile j = s.tile j := by simp [State.tile]
@[simp] theorem State.send_func (p : Packet) (j : Nat) : (s.send p).func j = s.func j := by simp [State.func]
@[simp] theorem State.send_stack (p : Packet) (j : Nat) : (s.send p).stack j = s.stack j := by simp [State.stack]
@[simp] theorem State.send_foldAt (p : Packet) (j : Nat) : (s.send p).foldAt j = s.foldAt j := by simp [State.foldAt]
@[simp] theorem State.send_port (p : Packet) (j : Nat) : (s.send p).port j = s.port j := by simp [State.port]

end Sys2Proof.Machine
end

