-- ==== Sys2Proof/Laws/Keeps.lean ====
section
/-!
SUPPORT. What every command keeps (the facts of manufacture, the queue, the time, canonical memories, disjoint pastures), and
that the basic updates of a state keep it.
-/
namespace Sys2Proof.Machine

/-- Enable bit e, first column c and width w are those of the pasture x, or the enable bit is clear. -/
def GeoP (x : Pasture) (e : Bool) (c w : Nat) : Prop := e = true → x.enable = true ∧ c = x.col0.toNat ∧ w = x.width.toNat

/-- The columns of a pasture stay, or it is disabled. -/
abbrev GeoLe (x y : Pasture) : Prop := GeoP x y.enable y.col0.toNat y.width.toNat

theorem geo_refl (x : Pasture) : GeoLe x x := fun e => ⟨e, rfl, rfl⟩
theorem geo_off (x : Pasture) (c w : Nat) : GeoP x false c w := fun e => nomatch e

/-- Whether a pasture is enabled and holds virtual column vx. -/
def Pasture.covers (x : Pasture) (vx : Nat) : Bool := x.enable && x.col0.toNat ≤ vx && vx < x.col0.toNat + x.width.toNat

/-- No two of the pastures P0 to P15 of a map hold one column. -/
def DisjointIn (pas : SMap Pasture) : Prop :=
  ∀ p q vx, p < 16 → q < 16 → (smapGet {} pas p).covers vx = true → (smapGet {} pas q).covers vx = true → p = q

/-- The scratchpad of every listed tile is in canonical form. -/
def SpadsWf (tiles : SMap Tile) : Prop := ∀ kt ∈ tiles, Memory.wf kt.2.spad = true

theorem spadsWf_get {tiles : SMap Tile} (w : SpadsWf tiles) (k : Nat) : Memory.wf (smapGet {} tiles k).spad = true := by
  rcases smapGet_mem ({} : Tile) tiles k with e | e
  · rw [e]; rfl
  · exact w _ e

theorem spadsWf_put {tiles : SMap Tile} {k : Nat} {t : Tile} (w : SpadsWf tiles) (ht : Memory.wf t.spad = true) :
    SpadsWf (smapPut tiles k t) := by
  intro kt h
  rcases smapPut_mem _ _ _ _ h with e | e
  · rw [e]; exact ht
  · exact w _ e

/-- What every command keeps of the state s, over the fields it is about. -/
structure GoodP (s : State) (facts : Facts) (pending : List Instr) (now : Nat) (tiles : SMap Tile) (pas : SMap Pasture)
    (stackMem hostMem : Memory) : Prop where
  facts_eq : facts = s.facts
  pending_eq : pending = s.pending
  now_eq : now = s.now
  hostWf : Memory.wf s.hostMem = true → Memory.wf hostMem = true
  stackWf : Memory.wf s.stackMem = true → Memory.wf stackMem = true
  spadWf : SpadsWf s.tiles → SpadsWf tiles
  disj : DisjointIn s.pas → DisjointIn pas

/-- The state t keeps of s what every command keeps. -/
abbrev Good (s t : State) : Prop := GoodP s t.facts t.pending t.now t.tiles t.pas t.stackMem t.hostMem

/-- An outcome keeps it, if it is a next state. -/
def GoodOut (s : State) (o : Out) : Prop := ∀ t, o = .next t → Good s t

theorem good_refl (s : State) : Good s s := ⟨rfl, rfl, rfl, id, id, id, id⟩

theorem good_trans {a b c : State} (h : Good a b) (g : Good b c) : Good a c :=
  ⟨g.1.trans h.1, g.2.trans h.2, g.3.trans h.3, fun m => g.4 (h.4 m), fun m => g.5 (h.5 m), fun m => g.6 (h.6 m), fun m => g.7 (h.7 m)⟩

theorem good_sameFrame {s t : State} (h : Good s t) : s.SameFrame t := ⟨h.1, h.2, h.3⟩
theorem good_memWf {s t : State} (h : Good s t) (w : s.MemWf) : t.MemWf := ⟨h.4 w.1, h.5 w.2.1, h.6 w.2.2⟩
theorem good_disjoint {s t : State} (h : Good s t) (w : s.Disjoint) : t.Disjoint := h.7 w

variable {s0 : State} {f : Facts} {q : List Instr} {n : Nat} {ts : SMap Tile} {ps : SMap Pasture} {sm hm : Memory}

theorem goodOut_next {t : State} (h : Good s0 t) : GoodOut s0 (.next t) := by
  intro u e; cases e; exact h
theorem goodOut_fault (e : Fault) : GoodOut s0 (.fault e) := by intro u h; cases h
theorem goodOut_refused (r : Refusal) : GoodOut s0 (.refused r) := by intro u h; cases h
theorem goodOut_nothing {s : State} (h : Good s0 s) : GoodOut s0 (nothing s) := goodOut_next h
theorem goodOut_eq {o : Out} {t : State} (h : GoodOut s0 o) (e : o = .next t) : Good s0 t := h t e

theorem good_fst {β : Type} {x : State × β} {s : State} {b : β} (e : x = (s, b)) (h : Good s0 x.1) : Good s0 s := by
  cases e; exact h
theorem good_snd {α : Type} {x : α × State} {s : State} {a : α} (e : x = (a, s)) (h : Good s0 x.2) : Good s0 s := by
  cases e; exact h

theorem good_foldl {α : Type} {g : State → α → State} {l : List α} {s : State} (hg : ∀ s x, Good s0 s → Good s0 (g s x))
    (h : Good s0 s) : Good s0 (l.foldl g s) := by
  induction l generalizing s with
  | nil => exact h
  | cons x l ih => exact ih (hg s x h)

theorem good_foldl_fst {α β : Type} {g : State × β → α → State × β} {l : List α} {a : State × β}
    (hg : ∀ a x, Good s0 a.1 → Good s0 (g a x).1) (h : Good s0 a.1) : Good s0 (l.foldl g a).1 := by
  induction l generalizing a with
  | nil => exact h
  | cons x l ih => exact ih (hg a x h)

theorem good_foldl_snd {α β : Type} {g : β × State → α → β × State} {l : List α} {a : β × State}
    (hg : ∀ a x, Good s0 a.2 → Good s0 (g a x).2) (h : Good s0 a.2) : Good s0 (l.foldl g a).2 := by
  induction l generalizing a with
  | nil => exact h
  | cons x l ih => exact ih (hg a x h)

theorem disjointIn_nil : DisjointIn [] := by
  intro a b vx _ _ ha
  exact absurd ha (by simp [smapGet, Pasture.covers])

/-! ### The memories -/

theorem memWrite_wf (m : Memory) (a : Nat) (bs : List Byte) (h : Memory.wf m = true) : Memory.wf (memWrite m a bs) = true := by
  induction bs generalizing m a with
  | nil => exact h
  | cons b bs ih => exact ih _ _ (smapWf_set 0 m a b h)

theorem memNil_wf : Memory.wf [] = true := rfl
theorem memKeep_wf (m : Memory) (p : Nat → Bool) (h : Memory.wf m = true) : Memory.wf (smapKeep p m) = true := smapWf_keep 0 p m h

theorem good_hostMem {m : Memory} (h : GoodP s0 f q n ts ps sm hm) (w : Memory.wf hm = true → Memory.wf m = true) :
    GoodP s0 f q n ts ps sm m := ⟨h.1, h.2, h.3, fun x => w (h.4 x), h.5, h.6, h.7⟩
theorem good_stackMem {m : Memory} (h : GoodP s0 f q n ts ps sm hm) (w : Memory.wf sm = true → Memory.wf m = true) :
    GoodP s0 f q n ts ps m hm := ⟨h.1, h.2, h.3, h.4, fun x => w (h.5 x), h.6, h.7⟩
theorem spadsWf_nil : SpadsWf [] := fun _ h => nomatch h
theorem good_noTiles (h : GoodP s0 f q n ts ps sm hm) : GoodP s0 f q n [] ps sm hm :=
  ⟨h.1, h.2, h.3, h.4, h.5, fun _ => spadsWf_nil, h.7⟩
theorem good_dropTiles {s : State} (h : Good s0 s) : Good s0 { s with tiles := [] } :=
  ⟨h.1, h.2, h.3, h.4, h.5, fun _ => spadsWf_nil, h.7⟩
theorem good_keepHost {s t : State} (h : Good s0 s) (g : Good s0 t) : Good s0 { t with hostMem := s.hostMem } :=
  ⟨g.1, g.2, g.3, h.4, g.5, g.6, g.7⟩
theorem good_keepTiles {p : Nat → Bool} (h : GoodP s0 f q n ts ps sm hm) : GoodP s0 f q n (smapKeep p ts) ps sm hm :=
  ⟨h.1, h.2, h.3, h.4, h.5, fun w kt hk => h.6 w kt (smapKeep_mem p ts kt hk), h.7⟩
theorem good_mapTiles {g : Nat → Tile → Tile} (hg : ∀ k t, Memory.wf t.spad = true → Memory.wf (g k t).spad = true)
    (h : GoodP s0 f q n ts ps sm hm) : GoodP s0 f q n (smapMap g ts) ps sm hm := by
  refine ⟨h.1, h.2, h.3, h.4, h.5, fun w kt hk => ?_, h.7⟩
  obtain ⟨x, hx, rfl⟩ := List.mem_map.mp hk
  exact hg _ _ (h.6 w x hx)
theorem good_pas {pas : SMap Pasture} (h : GoodP s0 f q n ts ps sm hm) (w : DisjointIn ps → DisjointIn pas) :
    GoodP s0 f q n ts pas sm hm := ⟨h.1, h.2, h.3, h.4, h.5, h.6, fun x => w (h.7 x)⟩

/-! ### The basic updates -/

theorem good_spad {s : State} {k : Nat} (h : Good s0 s) (w : SpadsWf s0.tiles) : Memory.wf (s.tile k).spad = true :=
  spadsWf_get (h.6 w) k

theorem putTile_good {s : State} {k : Nat} {t : Tile} (ht : SpadsWf s0.tiles → Memory.wf t.spad = true) (h : Good s0 s) :
    Good s0 (s.putTile k t) := ⟨h.1, h.2, h.3, h.4, h.5, fun w => spadsWf_put (h.6 w) (ht w), h.7⟩

theorem modTile_good {s : State} {k : Nat} {g : Tile → Tile}
    (hg : ∀ t : Tile, Memory.wf t.spad = true → Memory.wf (g t).spad = true) (h : Good s0 s) : Good s0 (s.modTile k g) :=
  putTile_good (fun w => hg _ (spadsWf_get (h.6 w) k)) h

theorem disjointIn_put {pas : SMap Pasture} {p : Nat} {x : Pasture} (hx : GeoLe (smapGet {} pas p) x) (w : DisjointIn pas) :
    DisjointIn (smapPut pas p x) := by
  have key : ∀ q vx, (smapGet {} (smapPut pas p x) q).covers vx = true → (smapGet {} pas q).covers vx = true := by
    intro q vx hq
    rw [smapGet_put] at hq
    split at hq
    · rename_i e
      subst e
      unfold Pasture.covers at hq ⊢
      simp only [Bool.and_eq_true, decide_eq_true_eq] at hq ⊢
      obtain ⟨h1, h2, h3⟩ := hx hq.1.1
      refine ⟨⟨h1, ?_⟩, ?_⟩ <;> omega
    · exact hq
  exact fun a b vx ha hb h1 h2 => w a b vx ha hb (key a vx h1) (key b vx h2)

theorem putPas_good {s : State} {p : Nat} {x : Pasture} (hx : GeoLe (s.pasture p) x) (h : Good s0 s) : Good s0 (s.putPas p x) :=
  good_pas h (disjointIn_put hx)

theorem modPas_good {s : State} {p : Nat} {g : Pasture → Pasture} (hg : ∀ x, GeoLe x (g x)) (h : Good s0 s) :
    Good s0 (s.modPas p g) := putPas_good (hg _) h

theorem putFn_good {s : State} {k : Nat} {x : Fn} (h : Good s0 s) : Good s0 (s.putFn k x) := h
theorem modFn_good {s : State} {k : Nat} {g : Fn → Fn} (h : Good s0 s) : Good s0 (s.modFn k g) := h
theorem putStack_good {s : State} {k : Nat} {x : Stack} (h : Good s0 s) : Good s0 (s.putStack k x) := h
theorem modStack_good {s : State} {k : Nat} {g : Stack → Stack} (h : Good s0 s) : Good s0 (s.modStack k g) := h
theorem putFold_good {s : State} {k : Nat} {x : Fold} (h : Good s0 s) : Good s0 (s.putFold k x) := h
theorem putPort_good {s : State} {k : Nat} {x : Port} (h : Good s0 s) : Good s0 (s.putPort k x) := h
theorem modPort_good {s : State} {k : Nat} {g : Port → Port} (h : Good s0 s) : Good s0 (s.modPort k g) := h

theorem whileLive_good {s : State} {k : Nat} {g : State → Out} (hr : Good s0 (s.revived k))
    (hk : ∀ t, Good s0 t → Good s0 (s.keepFaults t k)) (hg : ∀ s, Good s0 s → GoodOut s0 (g s)) (h : Good s0 s) :
    GoodOut s0 (s.whileLive k g) := by
  unfold State.whileLive
  split
  · exact hg s h
  · have := hg _ hr
    split
    · rename_i t e; exact goodOut_next (hk t (this t e))
    · exact goodOut_fault _
    · exact goodOut_refused _

end Sys2Proof.Machine
end

