-- ==== Sys2Proof/Laws/KeepsTile.lean ====
section
/-!
SUPPORT. What the updates of tiles, and the commands of their units, keep.
Each lemma says that an operation which starts from a state that keeps what every command keeps (Laws/Keeps.lean) ends in one.
-/
set_option linter.all false
namespace Sys2Proof.Machine

variable {s0 : State}

/-! ### Ops -/

theorem tile_foldl {α : Type} {g : Tile → α → Tile} {l : List α} {t : Tile}
    (hg : ∀ t x, Memory.wf t.spad = true → Memory.wf (g t x).spad = true) (h : Memory.wf t.spad = true) :
    Memory.wf (l.foldl g t).spad = true := by
  induction l generalizing t with
  | nil => exact h
  | cons x l ih => exact ih (hg t x h)

theorem tile_foldl_fst {α β : Type} {g : Tile × β → α → Tile × β} {l : List α} {a : Tile × β}
    (hg : ∀ a x, Memory.wf a.1.spad = true → Memory.wf (g a x).1.spad = true) (h : Memory.wf a.1.spad = true) :
    Memory.wf (l.foldl g a).1.spad = true := by
  induction l generalizing a with
  | nil => exact h
  | cons x l ih => exact ih (hg a x h)

theorem draw_good (s : State) (gd : Good s0 s) : Good s0 (State.draw s).2 := by
  unfold State.draw
  with_reducible repeat' (first | assumption)
theorem putHalf_good (s : State) (h : Half) (x : HalfReg) (gd : Good s0 s) : Good s0 (State.putHalf s h x) := by
  unfold State.putHalf
  with_reducible repeat' (first | assumption |  split)
theorem inject_good (s : State) (p : Nat) (ff : Bool) (n : Nat) (gd : Good s0 s) : Good s0 (s.inject p ff n).2 := by
  unfold State.inject
  extract_lets
  split
  · exact gd
  · exact modPas_good (fun x => by split <;> exact geo_refl _) gd
theorem sendAt_good (s : State) (ready : Option Nat) (p : Packet) (gd : Good s0 s) : Good s0 (State.sendAt s ready p) := by
  unfold State.sendAt
  with_reducible repeat' (first | assumption | split | (refine good_fst (by assumption) ?_)
                                | (refine good_snd (by assumption) ?_) | (refine goodOut_eq ?_ (by assumption)) | intro _
                                | dsimp only [id_eq])
theorem send_good (s : State) (p : Packet) (gd : Good s0 s) : Good s0 (s.send p) := by
  unfold State.send
  split
  · exact sendAt_good _ _ _ gd
  · exact sendAt_good _ _ _ (inject_good _ _ _ _ gd)
theorem injectWaiting_good (s : State) (gd : Good s0 s) : Good s0 (State.injectWaiting s) := by
  unfold State.injectWaiting
  with_reducible repeat' (first | assumption | apply send_good | (apply good_foldl; intro _ _ _)
                                | (apply good_foldl_fst; intro _ _ _) | (apply good_foldl_snd; intro _ _ _) | split
                                | (refine good_fst (by assumption) ?_) | (refine good_snd (by assumption) ?_)
                                | (refine goodOut_eq ?_ (by assumption)) | intro _ | dsimp only [id_eq])
theorem endStall_good (s : State) (p : Nat) (gd : Good s0 s) : Good s0 (State.endStall s p) := by
  unfold State.endStall
  with_reducible repeat' (first | assumption | apply modPas_good | exact geo_refl _ | exact geo_off _ _ _ | split
                                | (refine good_fst (by assumption) ?_) | (refine good_snd (by assumption) ?_)
                                | (refine goodOut_eq ?_ (by assumption)) | intro _ | dsimp only [id_eq])
theorem noteHolds_good (s : State) (p : Nat) (gd : Good s0 s) : Good s0 (State.noteHolds s p) := by
  unfold State.noteHolds
  with_reducible repeat' (first | assumption | apply modPas_good | apply modPas_good | exact geo_refl _ | split
                                | (refine good_fst (by assumption) ?_) | (refine good_snd (by assumption) ?_)
                                | (refine goodOut_eq ?_ (by assumption)) | intro _)
theorem noteHoldsAt_good (s : State) (k : Nat) (gd : Good s0 s) : Good s0 (State.noteHoldsAt s k) := by
  unfold State.noteHoldsAt
  with_reducible repeat' (first | assumption | apply noteHolds_good | split)
theorem writeHost_good (s : State) (a : Nat) (bs : List Byte) (gd : Good s0 s) : Good s0 (State.writeHost s a bs) := by
  unfold State.writeHost
  exact good_hostMem gd fun w => memWrite_wf _ _ _ w
theorem signal_good (s : State) (fn v : Nat) (gd : Good s0 s) : Good s0 (State.signal s fn v) := by
  unfold State.signal
  with_reducible repeat' (first | assumption | apply modFn_good)
theorem event_good (s : State) (fn : Nat) (st : Status) (pasture : Nat) (detail : Nat) (gd : Good s0 s) : Good s0
    (State.event s fn st pasture detail) := by
  unfold State.event
  with_reducible repeat' (first | assumption | apply modFn_good | apply signal_good)
theorem pasEvent_good (s : State) (p : Nat) (st : Status) (detail : Nat) (gd : Good s0 s) : Good s0
    (State.pasEvent s p st detail) := by
  unfold State.pasEvent
  with_reducible repeat' (first | assumption | apply event_good)
theorem pkgEvent_good (s : State) (st : Status) (detail : Nat) (gd : Good s0 s) : Good s0 (State.pkgEvent s st detail) := by
  unfold State.pkgEvent
  with_reducible repeat' (first | assumption | apply event_good)
theorem noteDma_good (s : State) (fn : Nat) (gd : Good s0 s) : Good s0 (State.noteDma s fn) := by
  unfold State.noteDma
  with_reducible repeat' (first | assumption | apply modFn_good | split | (refine good_fst (by assumption) ?_)
                                | (refine good_snd (by assumption) ?_) | (refine goodOut_eq ?_ (by assumption)) | intro _
                                | dsimp only [id_eq])
theorem alert_good (s : State) (bit : Nat) (gd : Good s0 s) : Good s0 (State.alert s bit) := by
  unfold State.alert
  with_reducible repeat' (first | assumption)
theorem noteCause_good (s : State) (p : Nat) (st : Status) (gd : Good s0 s) : Good s0 (State.noteCause s p st) := by
  unfold State.noteCause
  with_reducible repeat' (first | assumption | apply modPas_good | apply modPas_good | exact geo_refl _ | split
                                | (refine good_fst (by assumption) ?_) | (refine good_snd (by assumption) ?_) | intro _)
theorem noteCauseAll_good (s : State) (st : Status) (gd : Good s0 s) : Good s0 (State.noteCauseAll s st) := by
  unfold State.noteCauseAll
  with_reducible repeat' (first | assumption | apply noteCause_good | (apply good_foldl; intro _ _ _))
theorem writeCompletion_good (s : State) (fn : Nat) (c : Completion) (gd : Good s0 s) : Good s0
    (State.writeCompletion s fn c) := by
  unfold State.writeCompletion
  with_reducible repeat' (first | assumption | apply writeHost_good | apply modFn_good | apply signal_good)
theorem complete_good (s : State) (fn : Nat) (c : Completion) (gd : Good s0 s) : Good s0 (State.complete s fn c) := by
  unfold State.complete
  with_reducible repeat' (first | assumption | apply writeCompletion_good | apply modFn_good | apply modFn_good | split
                                | (refine good_fst (by assumption) ?_) | (refine good_snd (by assumption) ?_) | intro _
                                | dsimp only [id_eq])
theorem finish_good (s : State) (e : EntryId) (opcode pasture : Nat) (st : Status) (gd : Good s0 s) : Good s0
    (State.finish s e opcode pasture st) := by
  unfold State.finish
  with_reducible repeat' (first | assumption | apply complete_good)
theorem writeStamp_good (s : State) (p : Nat) (r : Run) (valid : Bool) (beats : Nat) (outDigest : Digest) (gd : Good s0 s) :
    Good s0 (State.writeStamp s p r valid beats outDigest) := by
  unfold State.writeStamp
  with_reducible repeat' (first | assumption | apply writeHost_good | apply modPas_good | exact geo_refl _
                                | exact geo_off _ _ _ | split | (refine good_fst (by assumption) ?_)
                                | (refine good_snd (by assumption) ?_) | (refine goodOut_eq ?_ (by assumption)) | intro _
                                | dsimp only [id_eq])
theorem failRun_good (s : State) (p : Nat) (r : Run) (cause : Status) (gd : Good s0 s) :
    Good s0 (State.failRun s p r cause) := by
  unfold State.failRun
  with_reducible repeat' (first | assumption | apply draw_good | apply writeStamp_good | apply complete_good
                                | apply modPas_good | exact geo_refl _ | exact geo_off _ _ _ | split
                                | (refine good_fst (by assumption) ?_) | (refine good_snd (by assumption) ?_)
                                | (refine goodOut_eq ?_ (by assumption)) | intro _ | dsimp only [id_eq])
theorem failRuns_good (s : State) (p : Nat) (cause queued : Status) (gd : Good s0 s) : Good s0
    (State.failRuns s p cause queued) := by
  unfold State.failRuns
  with_reducible repeat' (first | assumption | apply failRun_good | apply modPas_good | apply modPas_good | exact geo_refl _
                                | (apply good_foldl; intro _ _ _) | split | (refine good_fst (by assumption) ?_)
                                | (refine good_snd (by assumption) ?_) | (refine goodOut_eq ?_ (by assumption)) | intro _)
theorem stopPasture_good (s : State) (p : Nat) (cause : Status) (gd : Good s0 s) : Good s0 (State.stopPasture s p cause) := by
  unfold State.stopPasture
  with_reducible repeat' (first | assumption | apply endStall_good | apply alert_good | apply failRuns_good
                                | apply modPas_good | exact geo_refl _ | exact geo_off _ _ _ | split
                                | (refine good_fst (by assumption) ?_) | (refine good_snd (by assumption) ?_)
                                | (refine goodOut_eq ?_ (by assumption)) | intro _ | dsimp only [id_eq])
theorem stopAll_good (s : State) (cause : Status) (gd : Good s0 s) : Good s0 (State.stopAll s cause) := by
  unfold State.stopAll
  with_reducible repeat' (first | assumption | apply stopPasture_good | (apply good_foldl; intro _ _ _))
theorem stopTile_good (s : State) (k : Nat) (cause : Status) (gd : Good s0 s) : Good s0 (State.stopTile s k cause) := by
  unfold State.stopTile
  with_reducible repeat' (first | assumption | apply stopPasture_good | apply modPas_good | apply modPas_good
                                | apply good_spad | exact geo_refl _ | split | (refine good_fst (by assumption) ?_)
                                | (refine good_snd (by assumption) ?_) | (refine goodOut_eq ?_ (by assumption)) | intro _)
theorem revived_good (s : State) (k : Nat) (gd : Good s0 s) : Good s0 (State.revived s k) := by
  unfold State.revived
  with_reducible repeat' (first | assumption | apply modPas_good | apply modPas_good | exact geo_refl _ | split
                                | (refine good_fst (by assumption) ?_) | (refine good_snd (by assumption) ?_)
                                | (refine goodOut_eq ?_ (by assumption)) | intro _)
theorem keepFaults_good (s found : State) (k : Nat) (gd : Good s0 s) (gf : Good s0 found) : Good s0 (s.keepFaults found k) := by
  have g : Good s0 { s.putTile k (found.tile k) with stks := found.stks, fresh := found.fresh } :=
    ⟨gd.1, gd.2, gd.3, gd.4, gd.5, fun w => spadsWf_put (gd.6 w) (spadsWf_get (gf.6 w) k), gd.7⟩
  unfold State.keepFaults
  dsimp only
  split
  · exact gd
  · split
    · exact modPas_good (fun _ => geo_refl _) g
    · exact g
theorem nothing_good (s : State) (gd : Good s0 s) : GoodOut s0 (nothing s) := by
  unfold nothing
  with_reducible repeat' (first | assumption |  apply goodOut_next)

/-! ### Scratchpad -/

theorem Tile.setByte_ok (t : Tile) (mode addr : Nat) (b : Byte) (h : Memory.wf (t).spad = true) : Memory.wf
    (Tile.setByte t mode addr b).spad = true := by
  unfold Tile.setByte
  exact smapWf_set 0 _ _ _ h
theorem Tile.setTally_ok (t : Tile) (mode addr : Nat) (on : Bool) (h : Memory.wf (t).spad = true) : Memory.wf
    (Tile.setTally t mode addr on).spad = true := by
  unfold Tile.setTally
  with_reducible repeat' (first | assumption)
theorem Tile.writeLine_ok (t : Tile) (mode addr : Nat) (data : List (Nat × Byte)) (h : Memory.wf (t).spad = true) : Memory.wf
    (Tile.writeLine t mode addr data).spad = true := by
  unfold Tile.writeLine
  with_reducible repeat' (first | assumption | apply Tile.setByte_ok | apply Tile.setTally_ok | (apply tile_foldl; intro _ _ _))
theorem Tile.spadRecord_ok (t : Tile) (f : SpadFault) (port : Nat) (h : Memory.wf (t).spad = true) : Memory.wf
    (Tile.spadRecord t f port).spad = true := by
  unfold Tile.spadRecord
  with_reducible repeat' (first | assumption)
theorem Tile.spadFaulted_ok (t : Tile) (f : SpadFault) (port now period : Nat) (h : Memory.wf t.spad = true) :
    Memory.wf (Tile.spadFaulted t f port now period).spad = true := by
  unfold Tile.spadFaulted
  with_reducible repeat' (first | assumption | apply Tile.spadRecord_ok | split | intro _ | exact memNil_wf
                                | dsimp only [id_eq])
theorem spadFaulted_good (s : State) (k port : Nat) (f : SpadFault) (gd : Good s0 s) :
    Good s0 (State.spadFaulted s k port f) := by
  unfold State.spadFaulted
  with_reducible repeat' (first | assumption | apply Tile.spadFaulted_ok | apply modTile_good | apply good_spad | split
                                | (refine good_fst (by assumption) ?_) | (refine good_snd (by assumption) ?_)
                                | (refine goodOut_eq ?_ (by assumption)) | intro _ | dsimp only [id_eq])
theorem Tile.applyAccesses_ok (t : Tile) (accs : List Access) (h : Memory.wf (t).spad = true) : Memory.wf
    (Tile.applyAccesses t accs).spad = true := by
  unfold Tile.applyAccesses
  with_reducible repeat' (first | assumption | apply Tile.setTally_ok | apply Tile.writeLine_ok
                                | (apply tile_foldl; intro _ _ _) | split)
theorem countCorrected_good (s : State) (k n : Nat) (gd : Good s0 s) : Good s0 (State.countCorrected s k n) := by
  unfold State.countCorrected
  with_reducible repeat' (first | assumption | apply modTile_good | apply pasEvent_good | apply alert_good
                                | apply modTile_good | apply good_spad | split | (refine good_fst (by assumption) ?_)
                                | (refine good_snd (by assumption) ?_) | (refine goodOut_eq ?_ (by assumption)) | intro _
                                | dsimp only [id_eq])
theorem mainLine_good (s : State) (k mode : Nat) (w : Nat × List (Nat × Byte)) (gd : Good s0 s) :
    Good s0 (State.mainLine s k mode w) := by
  unfold State.mainLine
  with_reducible repeat' (first | assumption | apply Tile.spadFaulted_ok | apply spadFaulted_good | apply stopTile_good
                                | apply countCorrected_good | apply Tile.writeLine_ok | apply modTile_good | apply good_spad
                                | split | (refine good_fst (by assumption) ?_) | (refine good_snd (by assumption) ?_)
                                | (refine goodOut_eq ?_ (by assumption)) | intro _ | dsimp only [id_eq])
theorem mainWrite_good (s : State) (k mode addr : Nat) (bs : List Byte) (gd : Good s0 s) :
    Good s0 (State.mainWrite s k mode addr bs) := by
  unfold State.mainWrite
  with_reducible repeat' (first | assumption | apply mainLine_good | (apply good_foldl; intro _ _ _)
                                | (apply good_foldl_fst; intro _ _ _) | (apply good_foldl_snd; intro _ _ _) | split
                                | (refine good_fst (by assumption) ?_) | (refine good_snd (by assumption) ?_)
                                | (refine goodOut_eq ?_ (by assumption)) | intro _ | dsimp only [id_eq])

/-! ### Operands -/

theorem Tile.writeSlot_ok (t : Tile) (slot : Nat) (ws : List Word) (h : Memory.wf (t).spad = true) : Memory.wf
    (Tile.writeSlot t slot ws).spad = true := by
  unfold Tile.writeSlot
  with_reducible repeat' (first | assumption)
theorem Tile.writeStore_ok (t : Tile) (img : SMap Word) (h : Memory.wf (t).spad = true) : Memory.wf
    (Tile.writeStore t img).spad = true := by
  unfold Tile.writeStore
  with_reducible repeat' (first | assumption)
theorem Tile.rwAdd_ok (t : Tile) (tag : Nat) (c : RwCount) (h : Memory.wf (t).spad = true) : Memory.wf
    (Tile.rwAdd t tag c).spad = true := by
  unfold Tile.rwAdd
  with_reducible repeat' (first | assumption | split)

/-! ### Sequencer -/

theorem seqFault_good (s : State) (k : Nat) (st : Status) (slot op : Nat) (gd : Good s0 s) : Good s0
    (State.seqFault s k st slot op) := by
  unfold State.seqFault
  with_reducible repeat' (first | assumption | apply modTile_good | apply stopTile_good | apply modTile_good | split
                                | (refine good_fst (by assumption) ?_) | (refine good_snd (by assumption) ?_) | intro _)
theorem Tile.issued__ok (t : Tile) (ws : List Word) (h : Memory.wf (t).spad = true) : Memory.wf
    (Tile.issued_ t ws).spad = true := by
  unfold Tile.issued_
  with_reducible repeat' (first | assumption)
theorem issueDesc_good (s : State) (k : Nat) (isMine : List Word → Bool) (act : State → List Word → Out)
    (ha : ∀ s ws, Good s0 s → GoodOut s0 (act s ws)) (gd : Good s0 s) : GoodOut s0 (s.issueDesc k isMine act) := by
  unfold State.issueDesc
  dsimp only
  split
  · refine whileLive_good (revived_good s k gd) (fun t ht => keepFaults_good s t k gd ht) (fun s hs => ?_) gd
    split
    · exact goodOut_next (seqFault_good _ _ _ _ _ hs)
    · exact ha _ _ hs
  · exact goodOut_nothing gd
theorem descFault_good (s : State) (k : Nat) (ws : List Word) (st : Status) (gd : Good s0 s) : Good s0
    (State.descFault s k ws st) := by
  unfold State.descFault
  with_reducible repeat' (first | assumption | apply seqFault_good)
theorem issueTile_good (s : State) (k : Nat) (ws : List Word) (f : Tile → Tile)
    (hf : ∀ t : Tile, Memory.wf t.spad = true → Memory.wf (f t).spad = true) (gd : Good s0 s) : Good s0 (s.issueTile k ws f) :=
  modTile_good (fun t h => hf _ (Tile.issued__ok t ws h)) gd
theorem issueImmediate_good (s : State) (k op : Nat) (f : List Word → Tile → Tile)
    (hf : ∀ ws (t : Tile), Memory.wf t.spad = true → Memory.wf (f ws t).spad = true) (gd : Good s0 s) :
    GoodOut s0 (s.issueImmediate k op f) := by
  refine issueDesc_good s k _ _ (fun s ws hs => goodOut_next (issueTile_good s k ws _ (fun t h => ?_) hs)) gd
  split
  · exact hf ws t h
  · exact h
theorem Tile.loadShadow_ok (t : Tile) (slot : Nat) (ws : List Word) (h : Memory.wf t.spad = true) :
    Memory.wf (Tile.loadShadow t slot ws).spad = true := by
  unfold Tile.loadShadow
  with_reducible repeat' (first | assumption | split | intro _ | exact memNil_wf | dsimp only [id_eq])
theorem execDescLoad_good (vx : Vx) (vy : Vy) (s : State) (gd : Good s0 s) : GoodOut s0 (execDescLoad vx vy s) := by
  unfold execDescLoad
  with_reducible repeat' (first | assumption | apply issueDesc_good | apply descFault_good | apply issueTile_good
                                | apply Tile.loadShadow_ok | apply good_spad | apply goodOut_next | apply goodOut_nothing
                                | exact goodOut_fault _ | exact goodOut_refused _ | split
                                | (refine good_fst (by assumption) ?_) | (refine good_snd (by assumption) ?_) | intro _
                                | dsimp only [id_eq])
theorem Tile.readRecords_ok (t : Tile) (h : Memory.wf t.spad = true) : Memory.wf (Tile.readRecords t).1.spad = true := by
  unfold Tile.readRecords
  with_reducible repeat' (first | assumption | (apply tile_foldl; intro _ _ _) | (apply tile_foldl_fst; intro _ _ _) | split
                                | intro _ | exact memNil_wf | dsimp only [id_eq])
theorem issueGo_good (s : State) (k : Nat) (isMine : List Word → Shadow → Bool) (op : Nat)
    (busy : Tile → Shadow → Option Status) (config : State → Job → Option Status)
    (fault : State → Job → Status → State) (start : Tile → Job → Tile)
    (hf : ∀ s j st, Good s0 s → Good s0 (fault s j st))
    (hs : ∀ (t : Tile) (j : Job), Memory.wf t.spad = true → Memory.wf (start t j).spad = true) (gd : Good s0 s) :
    GoodOut s0 (s.issueGo k isMine op busy config fault start) := by
  refine issueDesc_good s k _ _ (fun s ws gs => ?_) gd
  with_reducible repeat' (first | assumption | apply hf | apply hs | apply descFault_good | apply issueTile_good
                                | apply stopTile_good | apply modTile_good | apply spadFaulted_good | apply goodOut_next
                                | apply goodOut_nothing | split | (refine good_fst (by assumption) ?_) | intro _
                                | dsimp only [id_eq])
theorem Tile.setCtr_ok (t : Tile) (n : Nat) (v : BitVec 24) (h : Memory.wf (t).spad = true) : Memory.wf
    (Tile.setCtr t n v).spad = true := by
  unfold Tile.setCtr
  with_reducible repeat' (first | assumption)
theorem execCtrset_good (vx : Vx) (vy : Vy) (s : State) (gd : Good s0 s) : GoodOut s0 (execCtrset vx vy s) := by
  unfold execCtrset
  with_reducible repeat' (first | assumption | apply issueImmediate_good | apply Tile.setCtr_ok | apply goodOut_next
                                | apply goodOut_nothing | exact goodOut_fault _ | exact goodOut_refused _ | split
                                | (refine good_fst (by assumption) ?_) | (refine good_snd (by assumption) ?_) | intro _)
theorem execCtradd_good (vx : Vx) (vy : Vy) (s : State) (gd : Good s0 s) : GoodOut s0 (execCtradd vx vy s) := by
  unfold execCtradd
  with_reducible repeat' (first | assumption | apply issueImmediate_good | apply Tile.setCtr_ok | apply goodOut_next
                                | apply goodOut_nothing | exact goodOut_fault _ | exact goodOut_refused _ | split
                                | (refine good_fst (by assumption) ?_) | (refine good_snd (by assumption) ?_) | intro _)
theorem execCmpset_good (vx : Vx) (vy : Vy) (s : State) (gd : Good s0 s) : GoodOut s0 (execCmpset vx vy s) := by
  unfold execCmpset
  with_reducible repeat' (first | assumption | apply issueImmediate_good | apply goodOut_next | apply goodOut_nothing
                                | exact goodOut_fault _ | exact goodOut_refused _ | split
                                | (refine good_fst (by assumption) ?_) | (refine good_snd (by assumption) ?_) | intro _)
theorem execNopb_good (vx : Vx) (vy : Vy) (s : State) (gd : Good s0 s) : GoodOut s0 (execNopb vx vy s) := by
  unfold execNopb
  with_reducible repeat' (first | assumption | apply issueDesc_good | apply issueTile_good | apply goodOut_next
                                | apply goodOut_nothing | exact goodOut_fault _ | exact goodOut_refused _ | split
                                | (refine good_fst (by assumption) ?_) | (refine good_snd (by assumption) ?_) | intro _)
theorem Tile.loopEnter_ok (t : Tile) (ws : List Word) (slot : BitVec 8) (h : Memory.wf (t).spad = true) : Memory.wf
    (Tile.loopEnter t ws slot).spad = true := by
  unfold Tile.loopEnter
  with_reducible repeat' (first | assumption | split | dsimp only [id_eq])
theorem execLoop_good (vx : Vx) (vy : Vy) (s : State) (gd : Good s0 s) : GoodOut s0 (execLoop vx vy s) := by
  unfold execLoop
  with_reducible repeat' (first | assumption | apply issueDesc_good | apply descFault_good | apply issueTile_good
                                | apply Tile.loopEnter_ok | apply good_spad | apply goodOut_next | apply goodOut_nothing
                                | exact goodOut_fault _ | exact goodOut_refused _ | split
                                | (refine good_fst (by assumption) ?_) | (refine good_snd (by assumption) ?_)
                                | (refine goodOut_eq ?_ (by assumption)) | intro _ | dsimp only [id_eq])
theorem Tile.loopNext_ok (t : Tile) (h : Memory.wf (t).spad = true) : Memory.wf (Tile.loopNext t).spad = true := by
  unfold Tile.loopNext
  with_reducible repeat' (first | assumption | split)
theorem execEndloop_good (vx : Vx) (vy : Vy) (s : State) (gd : Good s0 s) : GoodOut s0 (execEndloop vx vy s) := by
  unfold execEndloop
  with_reducible repeat' (first | assumption | apply issueDesc_good | apply descFault_good | apply issueTile_good
                                | apply Tile.loopNext_ok | apply good_spad | apply goodOut_next | apply goodOut_nothing
                                | exact goodOut_fault _ | exact goodOut_refused _ | split
                                | (refine good_fst (by assumption) ?_) | (refine good_snd (by assumption) ?_)
                                | (refine goodOut_eq ?_ (by assumption)) | intro _)
theorem execOverlay_good (vx : Vx) (vy : Vy) (s : State) (gd : Good s0 s) : GoodOut s0 (execOverlay vx vy s) := by
  unfold execOverlay
  with_reducible repeat' (first | assumption | apply issueImmediate_good | apply goodOut_next | apply goodOut_nothing
                                | exact goodOut_fault _ | exact goodOut_refused _ | split
                                | (refine good_fst (by assumption) ?_) | (refine good_snd (by assumption) ?_) | intro _)
theorem execHalt_good (vx : Vx) (vy : Vy) (s : State) (gd : Good s0 s) : GoodOut s0 (execHalt vx vy s) := by
  unfold execHalt
  with_reducible repeat' (first | assumption | apply issueImmediate_good | apply goodOut_next | apply goodOut_nothing
                                | exact goodOut_fault _ | exact goodOut_refused _ | split
                                | (refine good_fst (by assumption) ?_) | (refine good_snd (by assumption) ?_) | intro _)
theorem Tile.advanceFlow_ok (t : Tile) (ws : List Word) (g : Nat) (h : Memory.wf (t).spad = true) : Memory.wf
    (Tile.advanceFlow t ws g).spad = true := by
  unfold Tile.advanceFlow
  with_reducible repeat' (first | assumption | apply Tile.issued__ok | apply Tile.loopEnter_ok | apply Tile.loopNext_ok
                                | split | dsimp only [id_eq])

/-! ### Matrix -/

theorem mxuFault_good (s : State) (k slot mask : Nat) (st : Status) (gd : Good s0 s) : Good s0
    (State.mxuFault s k slot mask st) := by
  unfold State.mxuFault
  with_reducible repeat' (first | assumption | apply modTile_good | apply stopTile_good | apply modTile_good | split
                                | (refine good_fst (by assumption) ?_) | (refine good_snd (by assumption) ?_) | intro _)
theorem Tile.mxAdd_ok (t : Tile) (j : Job) (pvn : Nat × Nat × Nat) (h : Memory.wf t.spad = true) :
    Memory.wf (Tile.mxAdd t j pvn).spad = true := by
  unfold Tile.mxAdd
  with_reducible repeat' (first | assumption | apply Tile.rwAdd_ok | (apply tile_foldl; intro _ _ _)
                                | (apply tile_foldl_fst; intro _ _ _) | split | intro _ | exact memNil_wf
                                | dsimp only [id_eq])
theorem Tile.mxApplyC_ok (t : Tile) (j : Job) (x : Nat) (h : Memory.wf t.spad = true) :
    Memory.wf (Tile.mxApplyC t j x).spad = true := by
  unfold Tile.mxApplyC
  with_reducible repeat' (first | assumption | apply Tile.rwAdd_ok | (apply tile_foldl; intro _ _ _)
                                | (apply tile_foldl_fst; intro _ _ _) | split | intro _ | exact memNil_wf
                                | dsimp only [id_eq])
theorem Tile.loadCell_ok (t : Tile) (j : Job) (p : Nat) (yx : Nat × Nat) (h : Memory.wf t.spad = true) :
    Memory.wf (Tile.loadCell t j p yx).spad = true := by
  unfold Tile.loadCell
  with_reducible repeat' (first | assumption | (apply tile_foldl; intro _ _ _) | (apply tile_foldl_fst; intro _ _ _) | split
                                | intro _ | exact memNil_wf | dsimp only [id_eq])
theorem Tile.swapCell_ok (t : Tile) (j : Job) (yx : Nat × Nat) (h : Memory.wf t.spad = true) :
    Memory.wf (Tile.swapCell t j yx).spad = true := by
  unfold Tile.swapCell
  with_reducible repeat' (first | assumption | (apply tile_foldl; intro _ _ _) | (apply tile_foldl_fst; intro _ _ _) | split
                                | intro _ | exact memNil_wf | dsimp only [id_eq])
theorem Tile.mxCells_ok (t : Tile) (j : Job) (b : Nat) (h : Memory.wf t.spad = true) :
    Memory.wf (Tile.mxCells t j b).spad = true := by
  unfold Tile.mxCells
  with_reducible repeat' (first | assumption | apply Tile.swapCell_ok | apply Tile.loadCell_ok
                                | (apply tile_foldl; intro _ _ _) | (apply tile_foldl_fst; intro _ _ _) | split | intro _
                                | exact memNil_wf | dsimp only [id_eq])
theorem Tile.mxReadout_ok (t : Tile) (j : Job) (b : Nat) (h : Memory.wf t.spad = true) :
    Memory.wf (Tile.mxReadout t j b).1.spad = true := by
  unfold Tile.mxReadout
  with_reducible repeat' (first | assumption | apply Tile.rwAdd_ok | (apply tile_foldl; intro _ _ _)
                                | (apply tile_foldl_fst; intro _ _ _) | split | intro _ | exact memNil_wf
                                | dsimp only [id_eq])
theorem Tile.mxBeat_ok (t pre : Tile) (j : Job) (b : Nat) (h : Memory.wf t.spad = true) :
    Memory.wf (Tile.mxBeat t pre j b).1.spad = true := by
  unfold Tile.mxBeat
  with_reducible repeat' (first | assumption | apply Tile.rwAdd_ok | apply Tile.mxApplyC_ok | apply Tile.mxCells_ok
                                | apply Tile.mxAdd_ok | apply Tile.mxReadout_ok | (apply tile_foldl; intro _ _ _)
                                | (apply tile_foldl_fst; intro _ _ _) | split | intro _ | exact memNil_wf
                                | dsimp only [id_eq])
theorem Tile.mxStart_ok (t : Tile) (j : Job) (h : Memory.wf (t).spad = true) : Memory.wf (Tile.mxStart t j).spad = true := by
  unfold Tile.mxStart
  with_reducible repeat' (first | assumption)
theorem execMatmul_good (vx : Vx) (vy : Vy) (s : State) (gd : Good s0 s) : GoodOut s0 (execMatmul vx vy s) := by
  unfold execMatmul
  with_reducible repeat' (first | assumption | apply issueGo_good | apply mxuFault_good | apply Tile.mxStart_ok
                                | apply good_spad | apply goodOut_next | apply goodOut_nothing | exact goodOut_fault _
                                | exact goodOut_refused _ | split | (refine good_fst (by assumption) ?_)
                                | (refine good_snd (by assumption) ?_) | intro _)
theorem execConv_good (vx : Vx) (vy : Vy) (s : State) (gd : Good s0 s) : GoodOut s0 (execConv vx vy s) := by
  unfold execConv
  with_reducible repeat' (first | assumption | apply issueGo_good | apply mxuFault_good | apply Tile.mxStart_ok
                                | apply good_spad | apply goodOut_next | apply goodOut_nothing | exact goodOut_fault _
                                | exact goodOut_refused _ | split | (refine good_fst (by assumption) ?_)
                                | (refine good_snd (by assumption) ?_) | intro _)

/-! ### Vector -/

theorem vxuFault_good (s : State) (k slot : Nat) (st : Status) (gd : Good s0 s) : Good s0 (State.vxuFault s k slot st) := by
  unfold State.vxuFault
  with_reducible repeat' (first | assumption | apply modTile_good | apply stopTile_good | apply modTile_good | split
                                | (refine good_fst (by assumption) ?_) | (refine good_snd (by assumption) ?_) | intro _)
theorem Tile.vxBeat_ok (t pre : Tile) (j : Job) (b : Nat) (h : Memory.wf (t).spad = true) : Memory.wf
    (Tile.vxBeat t pre j b).1.spad = true := by
  unfold Tile.vxBeat
  with_reducible repeat' (first | assumption | apply Tile.rwAdd_ok | split)
theorem Tile.vxStart_ok (t : Tile) (j : Job) (h : Memory.wf (t).spad = true) : Memory.wf (Tile.vxStart t j).spad = true := by
  unfold Tile.vxStart
  with_reducible repeat' (first | assumption)
theorem vxGo_good (s : State) (vx : Vx) (vy : Vy) (op : Nat) (mine : Shadow → Bool) (gd : Good s0 s) : GoodOut s0
    (State.vxGo s vx vy op mine) := by
  unfold State.vxGo
  with_reducible repeat' (first | assumption | apply issueGo_good | apply vxuFault_good | apply Tile.vxStart_ok
                                | apply goodOut_next | apply goodOut_nothing | exact goodOut_fault _ | exact goodOut_refused _
                                | split | (refine good_fst (by assumption) ?_) | (refine good_snd (by assumption) ?_) | intro _)
theorem execVecopAdd_good (vx : Vx) (vy : Vy) (s : State) (gd : Good s0 s) : GoodOut s0 (execVecopAdd vx vy s) := by
  unfold execVecopAdd
  with_reducible repeat' (first | assumption | apply vxGo_good)
theorem execVecopSub_good (vx : Vx) (vy : Vy) (s : State) (gd : Good s0 s) : GoodOut s0 (execVecopSub vx vy s) := by
  unfold execVecopSub
  with_reducible repeat' (first | assumption | apply vxGo_good)
theorem execVecopMul_good (vx : Vx) (vy : Vy) (s : State) (gd : Good s0 s) : GoodOut s0 (execVecopMul vx vy s) := by
  unfold execVecopMul
  with_reducible repeat' (first | assumption | apply vxGo_good)
theorem execVecopFma_good (vx : Vx) (vy : Vy) (s : State) (gd : Good s0 s) : GoodOut s0 (execVecopFma vx vy s) := by
  unfold execVecopFma
  with_reducible repeat' (first | assumption | apply vxGo_good)
theorem execVecopMin_good (vx : Vx) (vy : Vy) (s : State) (gd : Good s0 s) : GoodOut s0 (execVecopMin vx vy s) := by
  unfold execVecopMin
  with_reducible repeat' (first | assumption | apply vxGo_good)
theorem execVecopMax_good (vx : Vx) (vy : Vy) (s : State) (gd : Good s0 s) : GoodOut s0 (execVecopMax vx vy s) := by
  unfold execVecopMax
  with_reducible repeat' (first | assumption | apply vxGo_good)
theorem execVecopAbs_good (vx : Vx) (vy : Vy) (s : State) (gd : Good s0 s) : GoodOut s0 (execVecopAbs vx vy s) := by
  unfold execVecopAbs
  with_reducible repeat' (first | assumption | apply vxGo_good)
theorem execVecopNeg_good (vx : Vx) (vy : Vy) (s : State) (gd : Good s0 s) : GoodOut s0 (execVecopNeg vx vy s) := by
  unfold execVecopNeg
  with_reducible repeat' (first | assumption | apply vxGo_good)
theorem execVecopCvt_good (vx : Vx) (vy : Vy) (s : State) (gd : Good s0 s) : GoodOut s0 (execVecopCvt vx vy s) := by
  unfold execVecopCvt
  with_reducible repeat' (first | assumption | apply vxGo_good)
theorem execVecopPairrot_good (vx : Vx) (vy : Vy) (s : State) (gd : Good s0 s) : GoodOut s0 (execVecopPairrot vx vy s) := by
  unfold execVecopPairrot
  with_reducible repeat' (first | assumption | apply vxGo_good)
theorem execVecopRsum_good (vx : Vx) (vy : Vy) (s : State) (gd : Good s0 s) : GoodOut s0 (execVecopRsum vx vy s) := by
  unfold execVecopRsum
  with_reducible repeat' (first | assumption | apply vxGo_good)
theorem execVecopRssq_good (vx : Vx) (vy : Vy) (s : State) (gd : Good s0 s) : GoodOut s0 (execVecopRssq vx vy s) := by
  unfold execVecopRssq
  with_reducible repeat' (first | assumption | apply vxGo_good)
theorem execVecopRmax_good (vx : Vx) (vy : Vy) (s : State) (gd : Good s0 s) : GoodOut s0 (execVecopRmax vx vy s) := by
  unfold execVecopRmax
  with_reducible repeat' (first | assumption | apply vxGo_good)
theorem execVecopRargmax_good (vx : Vx) (vy : Vy) (s : State) (gd : Good s0 s) : GoodOut s0 (execVecopRargmax vx vy s) := by
  unfold execVecopRargmax
  with_reducible repeat' (first | assumption | apply vxGo_good)
theorem execVecopExp2_good (vx : Vx) (vy : Vy) (s : State) (gd : Good s0 s) : GoodOut s0 (execVecopExp2 vx vy s) := by
  unfold execVecopExp2
  with_reducible repeat' (first | assumption | apply vxGo_good)
theorem execVecopLog2_good (vx : Vx) (vy : Vy) (s : State) (gd : Good s0 s) : GoodOut s0 (execVecopLog2 vx vy s) := by
  unfold execVecopLog2
  with_reducible repeat' (first | assumption | apply vxGo_good)
theorem execVecopRcp_good (vx : Vx) (vy : Vy) (s : State) (gd : Good s0 s) : GoodOut s0 (execVecopRcp vx vy s) := by
  unfold execVecopRcp
  with_reducible repeat' (first | assumption | apply vxGo_good)
theorem execVecopRsqrt_good (vx : Vx) (vy : Vy) (s : State) (gd : Good s0 s) : GoodOut s0 (execVecopRsqrt vx vy s) := by
  unfold execVecopRsqrt
  with_reducible repeat' (first | assumption | apply vxGo_good)
theorem execVecopTanh_good (vx : Vx) (vy : Vy) (s : State) (gd : Good s0 s) : GoodOut s0 (execVecopTanh vx vy s) := by
  unfold execVecopTanh
  with_reducible repeat' (first | assumption | apply vxGo_good)
theorem execVecopSigmoid_good (vx : Vx) (vy : Vy) (s : State) (gd : Good s0 s) : GoodOut s0 (execVecopSigmoid vx vy s) := by
  unfold execVecopSigmoid
  with_reducible repeat' (first | assumption | apply vxGo_good)
theorem execQuant_good (vx : Vx) (vy : Vy) (s : State) (gd : Good s0 s) : GoodOut s0 (execQuant vx vy s) := by
  unfold execQuant
  with_reducible repeat' (first | assumption | apply vxGo_good)
theorem execQuantDequantise_good (vx : Vx) (vy : Vy) (s : State) (gd : Good s0 s) : GoodOut s0 (execQuantDequantise vx vy s) := by
  unfold execQuantDequantise
  with_reducible repeat' (first | assumption | apply vxGo_good)
theorem execTopk_good (vx : Vx) (vy : Vy) (s : State) (gd : Good s0 s) : GoodOut s0 (execTopk vx vy s) := by
  unfold execTopk
  with_reducible repeat' (first | assumption | apply vxGo_good)

/-! ### Mover -/

theorem Tile.mvStart_ok (t : Tile) (j : Job) (h : Memory.wf (t).spad = true) : Memory.wf (Tile.mvStart t j).spad = true := by
  unfold Tile.mvStart
  with_reducible repeat' (first | assumption)
theorem goFault_good (s : State) (k : Nat) (j : Job) (st : Status) (gd : Good s0 s) : Good s0 (State.goFault s k j st) := by
  unfold State.goFault
  with_reducible repeat' (first | assumption | apply seqFault_good)
theorem mvGo_good (s : State) (vx : Vx) (vy : Vy) (op : Nat) (mine : Shadow → Bool) (gd : Good s0 s) : GoodOut s0
    (State.mvGo s vx vy op mine) := by
  unfold State.mvGo
  with_reducible repeat' (first | assumption | apply issueGo_good | apply goFault_good | apply Tile.mvStart_ok
                                | apply goodOut_next | apply goodOut_nothing | exact goodOut_fault _ | exact goodOut_refused _
                                | split | (refine good_fst (by assumption) ?_) | (refine good_snd (by assumption) ?_) | intro _)
theorem execCopy_good (vx : Vx) (vy : Vy) (s : State) (gd : Good s0 s) : GoodOut s0 (execCopy vx vy s) := by
  unfold execCopy
  with_reducible repeat' (first | assumption | apply mvGo_good)
theorem execTallyClear_good (vx : Vx) (vy : Vy) (s : State) (gd : Good s0 s) : GoodOut s0 (execTallyClear vx vy s) := by
  unfold execTallyClear
  with_reducible repeat' (first | assumption | apply mvGo_good)
theorem execGather_good (vx : Vx) (vy : Vy) (s : State) (gd : Good s0 s) : GoodOut s0 (execGather vx vy s) := by
  unfold execGather
  with_reducible repeat' (first | assumption | apply mvGo_good)
theorem execScatter_good (vx : Vx) (vy : Vy) (s : State) (gd : Good s0 s) : GoodOut s0 (execScatter vx vy s) := by
  unfold execScatter
  with_reducible repeat' (first | assumption | apply mvGo_good)

/-! ### DataNet -/

theorem dnwRecord_good (s : State) (k port : Nat) (st : Status) (gd : Good s0 s) : Good s0 (State.dnwRecord s k port st) := by
  unfold State.dnwRecord
  with_reducible repeat' (first | assumption | apply modTile_good | apply modTile_good | split
                                | (refine good_fst (by assumption) ?_) | (refine good_snd (by assumption) ?_) | intro _)
theorem sendToken_good (s : State) (k : Nat) (d : Dir) (b : Nat) (bs : List Byte) (gd : Good s0 s) :
    Good s0 (State.sendToken s k d b bs) := by
  unfold State.sendToken
  with_reducible repeat' (first | assumption | apply modTile_good | apply good_spad | split
                                | (refine good_fst (by assumption) ?_) | (refine good_snd (by assumption) ?_)
                                | (refine goodOut_eq ?_ (by assumption)) | intro _ | dsimp only [id_eq])
theorem mrFault_good (s : State) (k : Nat) (j : Job) (st : Status) (gd : Good s0 s) : Good s0 (State.mrFault s k j st) := by
  unfold State.mrFault
  with_reducible repeat' (first | assumption | apply dnwRecord_good | apply stopTile_good | apply goFault_good | split)
theorem Tile.moveStart_ok (t : Tile) (j : Job) (h : Memory.wf (t).spad = true) : Memory.wf (Tile.moveStart t j).spad = true := by
  unfold Tile.moveStart
  with_reducible repeat' (first | assumption)
theorem Tile.recvStart_ok (t : Tile) (j : Job) (h : Memory.wf (t).spad = true) : Memory.wf (Tile.recvStart t j).spad = true := by
  unfold Tile.recvStart
  with_reducible repeat' (first | assumption)
theorem execMove_good (vx : Vx) (vy : Vy) (s : State) (gd : Good s0 s) : GoodOut s0 (execMove vx vy s) := by
  unfold execMove
  with_reducible repeat' (first | assumption | apply issueGo_good | apply mrFault_good | apply Tile.moveStart_ok
                                | apply goodOut_next | apply goodOut_nothing | exact goodOut_fault _ | exact goodOut_refused _
                                | split | (refine good_fst (by assumption) ?_) | (refine good_snd (by assumption) ?_) | intro _)
theorem execRecv_good (vx : Vx) (vy : Vy) (s : State) (gd : Good s0 s) : GoodOut s0 (execRecv vx vy s) := by
  unfold execRecv
  with_reducible repeat' (first | assumption | apply issueGo_good | apply mrFault_good | apply Tile.recvStart_ok
                                | apply goodOut_next | apply goodOut_nothing | exact goodOut_fault _ | exact goodOut_refused _
                                | split | (refine good_fst (by assumption) ?_) | (refine good_snd (by assumption) ?_) | intro _)

/-! ### StackPort -/

theorem putOwn_good (s : State) (gid : Nat) (o : GroupOwn) (gd : Good s0 s) : Good s0 (State.putOwn s gid o) := by
  unfold State.putOwn
  with_reducible repeat' (first | assumption | apply modStack_good)
theorem stkRecord_good (s : State) (st p : Nat) (a : Int) (c : Status) (gd : Good s0 s) :
    Good s0 (State.stkRecord s st p a c) := by
  unfold State.stkRecord
  with_reducible repeat' (first | assumption | apply modStack_good | split | (refine good_fst (by assumption) ?_)
                                | (refine good_snd (by assumption) ?_) | (refine goodOut_eq ?_ (by assumption)) | intro _
                                | dsimp only [id_eq])
theorem stkCorrected_good (s : State) (st : Nat) (gd : Good s0 s) : Good s0 (State.stkCorrected s st) := by
  unfold State.stkCorrected
  with_reducible repeat' (first | assumption | apply modStack_good | apply pasEvent_good | apply alert_good
                                | apply modStack_good | (apply good_foldl; intro _ _ _) | split)
theorem countRead_good (s : State) (gid off : Nat) (r : PortRead) (gd : Good s0 s) : Good s0 (State.countRead s gid off r) := by
  unfold State.countRead
  with_reducible repeat' (first | assumption | apply modStack_good | split | (refine good_fst (by assumption) ?_)
                                | (refine good_snd (by assumption) ?_) | (refine goodOut_eq ?_ (by assumption)) | intro _
                                | dsimp only [id_eq])
theorem fetchBurst_good (s : State) (gid off : Nat) (gd : Good s0 s) : Good s0 (State.fetchBurst s gid off).1 := by
  unfold State.fetchBurst
  with_reducible repeat' (first | assumption | apply countRead_good | apply stkCorrected_good
                                | (refine good_stackMem ?_ (fun w => memWrite_wf _ _ _ w)) | split
                                | (refine good_fst (by assumption) ?_) | (refine good_snd (by assumption) ?_)
                                | (refine goodOut_eq ?_ (by assumption)) | intro _ | dsimp only [id_eq])
theorem stackFetch_good (s : State) (q a n : Nat) (gd : Good s0 s) : Good s0 (State.stackFetch s q a n).1 := by
  unfold State.stackFetch
  with_reducible repeat' (first | assumption | apply fetchBurst_good | (apply good_foldl; intro _ _ _)
                                | (apply good_foldl_fst; intro _ _ _) | (apply good_foldl_snd; intro _ _ _) | split
                                | (refine good_fst (by assumption) ?_) | (refine good_snd (by assumption) ?_)
                                | (refine goodOut_eq ?_ (by assumption)) | intro _ | dsimp only [id_eq])
theorem dropCmds_good (s : State) (past : BurstCmd → Bool) (gd : Good s0 s) : Good s0 (State.dropCmds s past) := by
  unfold State.dropCmds
  with_reducible repeat' (first | assumption | split | (refine good_fst (by assumption) ?_)
                                | (refine good_snd (by assumption) ?_) | (refine goodOut_eq ?_ (by assumption)) | intro _
                                | dsimp only [id_eq])
theorem acceptCmd_good (s : State) (c : BurstCmd) (gd : Good s0 s) : Good s0 (State.acceptCmd s c) := by
  unfold State.acceptCmd
  with_reducible repeat' (first | assumption)
theorem burstData_good (s : State) (k b port gid off : Nat) (gd : Good s0 s) :
    Good s0 (State.burstData s k b port gid off).1 := by
  unfold State.burstData
  with_reducible repeat' (first | assumption | apply draw_good | (refine good_stackMem ?_ (fun w => memWrite_wf _ _ _ w))
                                | split | (refine good_fst (by assumption) ?_) | (refine good_snd (by assumption) ?_)
                                | (refine goodOut_eq ?_ (by assumption)) | intro _ | dsimp only [id_eq])
theorem readUpset_good (s : State) (st gid off : Nat) (data : List Byte) (late : Bool) (gd : Good s0 s) :
    Good s0 (State.readUpset s st gid off data late).1 := by
  unfold State.readUpset
  with_reducible repeat' (first | assumption | apply countRead_good | apply stkCorrected_good | split
                                | (refine good_fst (by assumption) ?_) | (refine good_snd (by assumption) ?_)
                                | (refine goodOut_eq ?_ (by assumption)) | intro _ | dsimp only [id_eq])
theorem burstWrite_good (s : State) (k b p port gid off : Nat) (data : List Byte) (gd : Good s0 s) :
    Good s0 (State.burstWrite s k b p port gid off data) := by
  unfold State.burstWrite
  with_reducible repeat' (first | assumption | apply draw_good | apply acceptCmd_good
                                | (refine good_stackMem ?_ (fun w => memWrite_wf _ _ _ w)) | split
                                | (refine good_fst (by assumption) ?_) | (refine good_snd (by assumption) ?_)
                                | (refine goodOut_eq ?_ (by assumption)) | intro _ | dsimp only [id_eq])
theorem stkCommand_good (s : State) (k p : Nat) (j : Job) (i b : Nat) (line : List Byte) (gd : Good s0 s) :
    Good s0 (State.stkCommand s k p j i b line) := by
  unfold State.stkCommand
  with_reducible repeat' (first | assumption | apply burstWrite_good | apply burstData_good | apply readUpset_good
                                | apply acceptCmd_good | apply modTile_good | apply good_spad | split
                                | (refine good_fst (by assumption) ?_) | (refine good_snd (by assumption) ?_)
                                | (refine goodOut_eq ?_ (by assumption)) | intro _ | dsimp only [id_eq])
theorem Tile.stkStart_ok (t : Tile) (j : Job) (h : Memory.wf (t).spad = true) : Memory.wf (Tile.stkStart t j).spad = true := by
  unfold Tile.stkStart
  with_reducible repeat' (first | assumption)
theorem stkGo_good (s : State) (vx : Vx) (vy : Vy) (op : Nat) (gd : Good s0 s) : GoodOut s0 (State.stkGo s vx vy op) := by
  unfold State.stkGo
  with_reducible repeat' (first | assumption | apply issueGo_good | apply goFault_good | apply Tile.stkStart_ok
                                | apply goodOut_next | apply goodOut_nothing | exact goodOut_fault _ | exact goodOut_refused _
                                | split | (refine good_fst (by assumption) ?_) | (refine good_snd (by assumption) ?_) | intro _)
theorem execStkrd_good (vx : Vx) (vy : Vy) (s : State) (gd : Good s0 s) : GoodOut s0 (execStkrd vx vy s) := by
  unfold execStkrd
  with_reducible repeat' (first | assumption | apply stkGo_good)
theorem execStkwr_good (vx : Vx) (vy : Vy) (s : State) (gd : Good s0 s) : GoodOut s0 (execStkwr vx vy s) := by
  unfold execStkwr
  with_reducible repeat' (first | assumption | apply stkGo_good)

/-! ### Beat -/

theorem execPaceGateOpen_good (vx : Vx) (vy : Vy) (s : State) (gd : Good s0 s) : GoodOut s0 (execPaceGateOpen vx vy s) := by
  unfold execPaceGateOpen
  with_reducible repeat' (first | assumption | apply nothing_good | apply modTile_good | apply modTile_good | apply good_spad
                                | apply goodOut_next | apply goodOut_nothing | exact goodOut_fault _ | exact goodOut_refused _
                                | split | (refine good_fst (by assumption) ?_) | (refine good_snd (by assumption) ?_)
                                | (refine goodOut_eq ?_ (by assumption)) | intro _ | dsimp only [id_eq])
theorem Tile.overlaid_ok (t pre : Tile) (b : Nat) (h : Memory.wf t.spad = true) :
    Memory.wf (Tile.overlaid t pre b).spad = true := by
  unfold Tile.overlaid
  with_reducible repeat' (first | assumption | apply Tile.writeSlot_ok | (apply tile_foldl; intro _ _ _)
                                | (apply tile_foldl_fst; intro _ _ _) | split | intro _ | exact memNil_wf
                                | dsimp only [id_eq])
theorem recordFault_good (s : State) (k p : Nat) (y0 : BeatFault) (gd : Good s0 s) : Good s0 (State.recordFault s k p y0) := by
  unfold State.recordFault
  with_reducible repeat' (first | assumption | apply modTile_good | apply dnwRecord_good | apply stkRecord_good
                                | apply spadFaulted_good | apply modTile_good | split | (refine good_fst (by assumption) ?_)
                                | (refine good_snd (by assumption) ?_) | intro _)
theorem Tile.applyOverlays_ok (t pre : Tile) (b : Nat) (h : Memory.wf t.spad = true) :
    Memory.wf (Tile.applyOverlays t pre b).spad = true := by
  unfold Tile.applyOverlays
  with_reducible repeat' (first | assumption | apply Tile.overlaid_ok | split | intro _ | exact memNil_wf
                                | dsimp only [id_eq])
theorem Tile.applyEarly_ok (t pre : Tile) (b : Nat) (h : Memory.wf t.spad = true) :
    Memory.wf (Tile.applyEarly t pre b).spad = true := by
  unfold Tile.applyEarly
  with_reducible repeat' (first | assumption | (apply tile_foldl; intro _ _ _) | (apply tile_foldl_fst; intro _ _ _) | split
                                | intro _ | exact memNil_wf | dsimp only [id_eq])
theorem Tile.mxUnit_ok (t pre : Tile) (b : Nat) (h : Memory.wf (t).spad = true) : Memory.wf
    (Tile.mxUnit t pre b).spad = true := by
  unfold Tile.mxUnit
  with_reducible repeat' (first | assumption | apply Tile.mxBeat_ok | (apply tile_foldl_fst; intro _ _ _))
theorem Tile.vxUnit_ok (t pre : Tile) (b : Nat) (h : Memory.wf (t).spad = true) : Memory.wf
    (Tile.vxUnit t pre b).spad = true := by
  unfold Tile.vxUnit
  with_reducible repeat' (first | assumption | apply Tile.vxBeat_ok | (apply tile_foldl_fst; intro _ _ _))
theorem Tile.mvUnit_ok (t pre : Tile) (b : Nat) (h : Memory.wf (t).spad = true) : Memory.wf
    (Tile.mvUnit t pre b).spad = true := by
  unfold Tile.mvUnit
  with_reducible repeat' (first | assumption)
theorem Tile.dnUnit_ok (t pre : Tile) (b : Nat) (h : Memory.wf (t).spad = true) : Memory.wf
    (Tile.dnUnit t pre b).spad = true := by
  unfold Tile.dnUnit
  with_reducible repeat' (first | assumption)
theorem Tile.stkUnit_ok (t pre : Tile) (b : Nat) (h : Memory.wf (t).spad = true) : Memory.wf
    (Tile.stkUnit t pre b).spad = true := by
  unfold Tile.stkUnit
  with_reducible repeat' (first | assumption)
theorem Tile.beatEffect_ok (pre : Tile) (mode : BitVec 2) (b : Nat) (h : Memory.wf pre.spad = true) :
    Memory.wf (Tile.beatEffect pre mode b).spad = true := by
  unfold Tile.beatEffect
  with_reducible repeat' (first | assumption | apply Tile.applyAccesses_ok | apply Tile.readRecords_ok | apply Tile.mxUnit_ok
                                | apply Tile.vxUnit_ok | apply Tile.mvUnit_ok | apply Tile.dnUnit_ok | apply Tile.stkUnit_ok
                                | apply Tile.applyEarly_ok | apply Tile.applyOverlays_ok | split | intro _ | exact memNil_wf
                                | dsimp only [id_eq])
theorem Tile.startRun_ok (t : Tile) (entry first : Nat) (h : Memory.wf t.spad = true) :
    Memory.wf (Tile.startRun t entry first).spad = true := by
  unfold Tile.startRun
  with_reducible repeat' (first | assumption | split | intro _ | exact memNil_wf | dsimp only [id_eq])
theorem Pasture.modFirst_geo {z : Pasture} (x : Pasture) (f : Run → Run) (h : GeoLe z x) : GeoLe z (Pasture.modFirst x f) := by
  unfold Pasture.modFirst
  with_reducible repeat' (first | assumption | exact geo_off _ _ _ | split)
theorem stackCommands_good (s : State) (k p b : Nat) (pre : Tile) (gd : Good s0 s) : Good s0
    (State.stackCommands s k p b pre) := by
  unfold State.stackCommands
  with_reducible repeat' (first | assumption | apply stkCommand_good | (apply good_foldl; intro _ _ _) | split)
theorem sendTokens_good (s : State) (k b : Nat) (pre : Tile) (gd : Good s0 s) : Good s0 (State.sendTokens s k b pre) := by
  unfold State.sendTokens
  with_reducible repeat' (first | assumption | apply modTile_good | apply sendToken_good | apply modTile_good
                                | (apply good_foldl; intro _ _ _) | split | (refine good_fst (by assumption) ?_)
                                | (refine good_snd (by assumption) ?_) | (refine goodOut_eq ?_ (by assumption)) | intro _)
theorem rwFlush_good (s : State) (k p : Nat) (gd : Good s0 s) : Good s0 (State.rwFlush s k p) := by
  unfold State.rwFlush
  with_reducible repeat' (first | assumption | apply modPas_good | apply modTile_good | exact geo_refl _
                                | exact geo_off _ _ _ | apply good_spad | split | (refine good_fst (by assumption) ?_)
                                | (refine good_snd (by assumption) ?_) | (refine goodOut_eq ?_ (by assumption)) | intro _
                                | dsimp only [id_eq])
theorem haltTile_good (s : State) (k p b : Nat) (gd : Good s0 s) : Good s0 (State.haltTile s k p b) := by
  unfold State.haltTile
  with_reducible repeat' (first | assumption | apply rwFlush_good | apply send_good | apply modTile_good | apply good_spad
                                | split | (refine good_fst (by assumption) ?_) | (refine good_snd (by assumption) ?_)
                                | (refine goodOut_eq ?_ (by assumption)) | intro _ | dsimp only [id_eq])
theorem beginRun_good (s : State) (p : Nat) (gd : Good s0 s) : Good s0 (State.beginRun s p) := by
  unfold State.beginRun
  with_reducible repeat' (first | assumption | apply Pasture.modFirst_geo | apply modPas_good | exact geo_refl _
                                | exact geo_off _ _ _ | split | (refine good_fst (by assumption) ?_)
                                | (refine good_snd (by assumption) ?_) | (refine goodOut_eq ?_ (by assumption)) | intro _
                                | dsimp only [id_eq])
theorem Tile.beginAt_ok (t : Tile) (h : Memory.wf t.spad = true) : Memory.wf (Tile.beginAt t).spad = true := by
  unfold Tile.beginAt
  with_reducible repeat' (first | assumption | apply Tile.startRun_ok | split | intro _ | exact memNil_wf
                                | dsimp only [id_eq])
theorem Pasture.measure_geo {z : Pasture} (x : Pasture) (now b stall : Nat) (h : GeoLe z x) : GeoLe z
    (Pasture.measure x now b stall) := by
  unfold Pasture.measure
  with_reducible repeat' (first | assumption | exact geo_off _ _ _ | split | dsimp only [id_eq])
theorem beatAccount_good (s : State) (k p b : Nat) (held : Bool) (gd : Good s0 s) :
    Good s0 (State.beatAccount s k p b held) := by
  unfold State.beatAccount
  with_reducible repeat' (first | assumption | apply Pasture.measure_geo | apply modPas_good | exact geo_refl _
                                | exact geo_off _ _ _ | split | (refine good_fst (by assumption) ?_)
                                | (refine good_snd (by assumption) ?_) | (refine goodOut_eq ?_ (by assumption)) | intro _
                                | dsimp only [id_eq])
theorem completeBeat_good (s : State) (k p b : Nat) (gd : Good s0 s) : Good s0 (State.completeBeat s k p b) := by
  unfold State.completeBeat
  with_reducible repeat' (first | assumption | apply beatAccount_good | apply Tile.beatEffect_ok | apply stackCommands_good
                                | apply sendTokens_good | apply haltTile_good | apply Tile.beginAt_ok
                                | apply countCorrected_good | apply beginRun_good | apply noteHolds_good | apply modTile_good
                                | apply putTile_good | apply good_spad | split | (refine good_fst (by assumption) ?_)
                                | (refine good_snd (by assumption) ?_) | (refine goodOut_eq ?_ (by assumption)) | intro _
                                | dsimp only [id_eq])
theorem faultBeat_good (s : State) (k p b : Nat) (fs : List BeatFault) (gd : Good s0 s) : Good s0
    (State.faultBeat s k p b fs) := by
  unfold State.faultBeat
  with_reducible repeat' (first | assumption | apply modTile_good | apply recordFault_good | apply draw_good
                                | apply stopTile_good | apply modTile_good | (apply good_foldl; intro _ _ _) | split
                                | (refine good_fst (by assumption) ?_) | (refine good_snd (by assumption) ?_)
                                | (refine goodOut_eq ?_ (by assumption)) | intro _ | dsimp only [id_eq])
theorem checkLength_good (s : State) (k p : Nat) (gd : Good s0 s) : Good s0 (State.checkLength s k p) := by
  unfold State.checkLength
  with_reducible repeat' (first | assumption | apply stopPasture_good | apply good_spad | split)
theorem runBeat_good (s : State) (k p : Nat) (gd : Good s0 s) : Good s0 (State.runBeat s k p) := by
  unfold State.runBeat
  with_reducible repeat' (first | assumption | apply faultBeat_good | apply stkCommand_good | apply noteHolds_good
                                | apply completeBeat_good | apply checkLength_good | apply modTile_good | apply good_spad
                                | split | (refine good_fst (by assumption) ?_) | (refine good_snd (by assumption) ?_)
                                | (refine goodOut_eq ?_ (by assumption)) | intro _ | dsimp only [id_eq])
theorem tryBeat_good (s : State) (k : Nat) (gd : Good s0 s) : GoodOut s0 (State.tryBeat s k) := by
  unfold State.tryBeat
  with_reducible repeat' (first | assumption | apply nothing_good | apply whileLive_good | apply seqFault_good
                                | apply runBeat_good | apply good_spad | apply whileLive_good | apply revived_good
                                | apply keepFaults_good | apply goodOut_next | apply goodOut_nothing | exact goodOut_fault _
                                | exact goodOut_refused _ | split | (refine good_fst (by assumption) ?_)
                                | (refine good_snd (by assumption) ?_) | (refine goodOut_eq ?_ (by assumption)) | intro _)
theorem execBeatComplete_good (vx : Vx) (vy : Vy) (s : State) (gd : Good s0 s) : GoodOut s0 (execBeatComplete vx vy s) := by
  unfold execBeatComplete
  with_reducible repeat' (first | assumption | apply tryBeat_good)
theorem execItemArrival_good (vx : Vx) (vy : Vy) (s : State) (gd : Good s0 s) : GoodOut s0 (execItemArrival vx vy s) := by
  unfold execItemArrival
  with_reducible repeat' (first | assumption | apply modTile_good | apply noteHoldsAt_good | apply tryBeat_good
                                | apply nothing_good | apply modTile_good | apply good_spad | apply goodOut_next
                                | apply goodOut_nothing | exact goodOut_fault _ | exact goodOut_refused _ | split
                                | (refine good_fst (by assumption) ?_) | (refine good_snd (by assumption) ?_) | intro _
                                | dsimp only [id_eq])
theorem execStackReread_good (vx : Vx) (vy : Vy) (s : State) (gd : Good s0 s) : GoodOut s0 (execStackReread vx vy s) := by
  unfold execStackReread
  with_reducible repeat' (first | assumption | apply stkCorrected_good | apply stkRecord_good | apply nothing_good
                                | apply stopTile_good | apply noteHoldsAt_good | apply modTile_good | apply good_spad | split
                                | (refine good_fst (by assumption) ?_) | (refine good_snd (by assumption) ?_)
                                | apply goodOut_next | apply goodOut_nothing | exact goodOut_fault _
                                | exact goodOut_refused _ | (refine goodOut_eq ?_ (by assumption)) | intro _
                                | dsimp only [id_eq])
theorem execStallWatchdog_good (p : PasId) (s : State) (gd : Good s0 s) : GoodOut s0 (execStallWatchdog p s) := by
  unfold execStallWatchdog
  with_reducible repeat' (first | assumption | apply stopPasture_good | apply nothing_good | apply goodOut_next
                                | apply goodOut_nothing | exact goodOut_fault _ | exact goodOut_refused _ | split
                                | (refine good_fst (by assumption) ?_) | (refine good_snd (by assumption) ?_)
                                | (refine goodOut_eq ?_ (by assumption)) | intro _ | dsimp only [id_eq])

/-! ### SidePorts -/

theorem Tile.noteWait_ok (t : Tile) (w : Waiter) (addr : Nat) (h : Memory.wf t.spad = true) :
    Memory.wf (Tile.noteWait t w addr).spad = true := by
  unfold Tile.noteWait
  with_reducible repeat' (first | assumption | split | intro _ | exact memNil_wf | dsimp only [id_eq])
theorem dropWaits_good (s : State) (k : Nat) (w : Waiter) (gd : Good s0 s) : Good s0 (State.dropWaits s k w) := by
  unfold State.dropWaits
  with_reducible repeat' (first | assumption | apply modTile_good | apply good_spad | apply good_keepTiles | split
                                | (refine good_fst (by assumption) ?_) | (refine good_snd (by assumption) ?_)
                                | (refine goodOut_eq ?_ (by assumption)) | intro _ | dsimp only [id_eq])
theorem Tile.endWait_ok (t : Tile) (who : Waiter) (addr : Nat) (h : Memory.wf t.spad = true) :
    Memory.wf (Tile.endWait t who addr).spad = true := by
  unfold Tile.endWait
  with_reducible repeat' (first | assumption | split | intro _ | exact memNil_wf | dsimp only [id_eq])
theorem usePort_good (s : State) (k addr : Nat) (who : Waiter) (gd : Good s0 s) : Good s0 (State.usePort s k addr who) := by
  unfold State.usePort
  with_reducible repeat' (first | assumption | apply Tile.endWait_ok | apply modTile_good | apply good_spad | split
                                | (refine good_fst (by assumption) ?_) | (refine good_snd (by assumption) ?_)
                                | (refine goodOut_eq ?_ (by assumption)) | intro _ | dsimp only [id_eq])
theorem sideUncorr_good (s : State) (k port : Nat) (f : SpadFault) (gd : Good s0 s) :
    Good s0 (State.sideUncorr s k port f) := by
  unfold State.sideUncorr
  with_reducible repeat' (first | assumption | apply Tile.spadFaulted_ok | apply spadFaulted_good | apply stopTile_good
                                | split | (refine good_fst (by assumption) ?_) | (refine good_snd (by assumption) ?_)
                                | (refine goodOut_eq ?_ (by assumption)) | intro _ | dsimp only [id_eq])
theorem sideAccess_good (s : State) (k port addr n : Nat) (write : Option (List Byte)) (who : Waiter) (gd : Good s0 s) :
    Good s0 (State.sideAccess s k port addr n write who).1 := by
  unfold State.sideAccess
  with_reducible repeat' (first | assumption | apply usePort_good | apply Tile.spadRecord_ok | apply sideUncorr_good
                                | apply countCorrected_good | apply Tile.writeLine_ok | apply modTile_good | apply good_spad
                                | split | (refine good_fst (by assumption) ?_) | (refine good_snd (by assumption) ?_)
                                | (refine goodOut_eq ?_ (by assumption)) | intro _ | dsimp only [id_eq])
theorem viewAccess_good (s : State) (k : Nat) (v : View) (o n : Nat) (write : Option (List Byte)) (who : Waiter := .host)
    (gd : Good s0 s) :
    Good s0 (State.viewAccess s k v o n write who).1 := by
  unfold State.viewAccess
  with_reducible repeat' (first | assumption | apply sideAccess_good | split | (refine good_fst (by assumption) ?_)
                                | (refine good_snd (by assumption) ?_) | (refine goodOut_eq ?_ (by assumption)) | intro _
                                | dsimp only [id_eq])
theorem sideRead_good (s : State) (k : Nat) (v : View) (o n : Nat) (who : Waiter := .host) (gd : Good s0 s) :
    Good s0 (State.sideRead s k v o n who).1 := by
  unfold State.sideRead
  with_reducible repeat' (first | assumption | apply viewAccess_good | (apply good_foldl; intro _ _ _)
                                | (apply good_foldl_fst; intro _ _ _) | (apply good_foldl_snd; intro _ _ _) | split
                                | (refine good_fst (by assumption) ?_) | (refine good_snd (by assumption) ?_)
                                | (refine goodOut_eq ?_ (by assumption)) | intro _ | dsimp only [id_eq])
theorem sideWrite_good (s : State) (k : Nat) (v : View) (o : Nat) (bs : List Byte) (who : Waiter := .host) (gd : Good s0 s) :
    Good s0 (State.sideWrite s k v o bs who).1 := by
  unfold State.sideWrite
  with_reducible repeat' (first | assumption | apply viewAccess_good | (apply good_foldl; intro _ _ _)
                                | (apply good_foldl_fst; intro _ _ _) | (apply good_foldl_snd; intro _ _ _) | split
                                | (refine good_fst (by assumption) ?_) | (refine good_snd (by assumption) ?_)
                                | (refine goodOut_eq ?_ (by assumption)) | intro _ | dsimp only [id_eq])
theorem sideWriteWhole_good (s : State) (k : Nat) (v : View) (o : Nat) (bs : List Byte) (who : Waiter := .host)
    (gd : Good s0 s) :
    Good s0 (State.sideWriteWhole s k v o bs who).1 := by
  unfold State.sideWriteWhole
  with_reducible repeat' (first | assumption | apply viewAccess_good | apply sideWrite_good | split
                                | (refine good_fst (by assumption) ?_) | (refine good_snd (by assumption) ?_)
                                | (refine goodOut_eq ?_ (by assumption)) | intro _ | dsimp only [id_eq])
theorem noteRange_good (s : State) (k : Nat) (v : View) (o n : Nat) (who : Waiter) (gd : Good s0 s) :
    Good s0 (State.noteRange s k v o n who) := by
  unfold State.noteRange
  with_reducible repeat' (first | assumption | apply Tile.noteWait_ok | apply modTile_good | apply good_spad
                                | (apply good_foldl; intro _ _ _) | (apply good_foldl_fst; intro _ _ _)
                                | (apply good_foldl_snd; intro _ _ _) | split | (refine good_fst (by assumption) ?_)
                                | (refine good_snd (by assumption) ?_) | (refine goodOut_eq ?_ (by assumption)) | intro _
                                | dsimp only [id_eq])
theorem waitedAccess_good (s : State) (k : Nat) (v : View) (o n : Nat) (write : Option (List Byte)) (gd : Good s0 s) :
    Good s0 (State.waitedAccess s k v o n write).1 := by
  unfold State.waitedAccess
  with_reducible repeat' (first | assumption | apply Tile.noteWait_ok | apply sideAccess_good | apply modTile_good
                                | apply good_spad | split | (refine good_fst (by assumption) ?_)
                                | (refine good_snd (by assumption) ?_) | (refine goodOut_eq ?_ (by assumption)) | intro _
                                | dsimp only [id_eq])
theorem Tile.scrubbed_ok (t : Tile) (banks : List Nat) (now : Nat) (h : Memory.wf t.spad = true) :
    Memory.wf (Tile.scrubbed t banks now).spad = true := by
  unfold Tile.scrubbed
  with_reducible repeat' (first | assumption | (apply tile_foldl; intro _ _ _) | (apply tile_foldl_fst; intro _ _ _) | split
                                | intro _ | exact memNil_wf | dsimp only [id_eq])
theorem execScrubVisit_good (vx : Vx) (vy : Vy) (s : State) (gd : Good s0 s) : GoodOut s0 (execScrubVisit vx vy s) := by
  unfold execScrubVisit
  with_reducible repeat' (first | assumption | apply nothing_good | apply Tile.scrubbed_ok | apply countCorrected_good
                                | apply sideUncorr_good | apply modTile_good | apply good_spad | split
                                | (refine good_fst (by assumption) ?_) | (refine good_snd (by assumption) ?_)
                                | apply goodOut_next | apply goodOut_nothing | exact goodOut_fault _
                                | exact goodOut_refused _ | (refine goodOut_eq ?_ (by assumption)) | intro _
                                | dsimp only [id_eq])

end Sys2Proof.Machine
end

