-- ==== Sys2Proof/Laws/KeepsPackage.lean ====
section
/-!
SUPPORT. What the commands of the links, the fabric, the control network, the windows and the resets keep.
Each lemma says that an operation which starts from a state that keeps what every command keeps (Laws/Keeps.lean) ends in one.
-/
set_option linter.all false
namespace Sys2Proof.Machine

variable {s0 : State}

/-! ### LinkBase -/

theorem portEvent_good (s : State) (n : Nat) (st : Status) (gd : Good s0 s) : Good s0 (State.portEvent s n st) := by
  unfold State.portEvent
  with_reducible repeat' (first | assumption | apply modPort_good | apply pkgEvent_good)
theorem pumpPort_good (s : State) (n : Nat) (gd : Good s0 s) : Good s0 (State.pumpPort s n) := by
  unfold State.pumpPort
  with_reducible repeat' (first | assumption | apply modPort_good | split | (refine good_fst (by assumption) ?_)
                                | (refine good_snd (by assumption) ?_) | (refine goodOut_eq ?_ (by assumption)) | intro _
                                | dsimp only [id_eq])
theorem sendMgmt_good (s : State) (n : Nat) (m : MgmtFlit) (gd : Good s0 s) : Good s0 (State.sendMgmt s n m) := by
  unfold State.sendMgmt
  with_reducible repeat' (first | assumption | apply modPort_good | apply pumpPort_good)
theorem recheckOrd_good (s : State) (role : Nat) (gd : Good s0 s) : Good s0 (State.recheckOrd s role) := by
  unfold State.recheckOrd
  with_reducible repeat' (first | assumption | apply modPort_good | apply noteCauseAll_good | apply pkgEvent_good
                                | apply modPort_good | split | (refine good_fst (by assumption) ?_)
                                | (refine good_snd (by assumption) ?_) | intro _ | dsimp only [id_eq])

/-! ### Fabric -/

theorem routeEntry_good (s : State) (chip : BitVec 16) (gd : Good s0 s) : Good s0 (State.routeEntry s chip).1 := by
  unfold State.routeEntry
  with_reducible repeat' (first | assumption | apply pkgEvent_good | split | (refine good_fst (by assumption) ?_)
                                | (refine good_snd (by assumption) ?_) | intro _ | dsimp only [id_eq])
theorem rankChip_good (s : State) (p r : Nat) (gd : Good s0 s) : Good s0 (State.rankChip s p r).1 := by
  unfold State.rankChip
  with_reducible repeat' (first | assumption | apply modPas_good | apply pasEvent_good | apply modPas_good | exact geo_refl _
                                | split | (refine good_fst (by assumption) ?_) | (refine good_snd (by assumption) ?_)
                                | intro _ | dsimp only [id_eq])
theorem queueOn_good (s : State) (n : Nat) (p : FabPacket) (gd : Good s0 s) : Good s0 (State.queueOn s n p) := by
  unfold State.queueOn
  with_reducible repeat' (first | assumption | apply modPort_good | apply pumpPort_good | apply modPort_good | split)
theorem holdPacket_good (s : State) (since : Nat) (why : HoldReason) (p : FabPacket) (gd : Good s0 s) : Good s0
    (State.holdPacket s since why p) := by
  unfold State.holdPacket
  with_reducible repeat' (first | assumption)
theorem putOn_good (s : State) (n : Nat) (p : FabPacket) (gd : Good s0 s) : Good s0 (State.putOn s n p) := by
  unfold State.putOn
  with_reducible repeat' (first | assumption | apply queueOn_good | apply holdPacket_good | apply modPas_good
                                | exact geo_refl _ | exact geo_off _ _ _ | split | (refine good_fst (by assumption) ?_)
                                | (refine good_snd (by assumption) ?_) | (refine goodOut_eq ?_ (by assumption)) | intro _
                                | dsimp only [id_eq])
theorem dropNoRoute_good (s : State) (n : Nat) (gd : Good s0 s) : Good s0 (State.dropNoRoute s n) := by
  unfold State.dropNoRoute
  with_reducible repeat' (first | assumption | apply modPort_good | apply pkgEvent_good)
theorem dropBad_good (s : State) (gd : Good s0 s) : Good s0 (State.dropBad s) := by
  unfold State.dropBad
  with_reducible repeat' (first | assumption)
theorem accept_good (s : State) (pas : Option Nat) (n : Nat) (p : FabPacket) (gd : Good s0 s) : Good s0
    (State.accept s pas n p) := by
  unfold State.accept
  with_reducible repeat' (first | assumption | apply modPas_good | apply pkgEvent_good | apply modPas_good | exact geo_refl _
                                | split | (refine good_fst (by assumption) ?_) | (refine good_snd (by assumption) ?_)
                                | (refine goodOut_eq ?_ (by assumption)) | intro _)
theorem copyToRoles_good (s : State) (mask : BitVec 18) (arr : Option Nat) (p : FabPacket) (gd : Good s0 s) :
    Good s0 (State.copyToRoles s mask arr p) := by
  unfold State.copyToRoles
  with_reducible repeat' (first | assumption | apply putOn_good | apply holdPacket_good | (apply good_foldl; intro _ _ _)
                                | (apply good_foldl_fst; intro _ _ _) | (apply good_foldl_snd; intro _ _ _) | split
                                | (refine good_fst (by assumption) ?_) | (refine good_snd (by assumption) ?_)
                                | (refine goodOut_eq ?_ (by assumption)) | intro _ | dsimp only [id_eq])
theorem sendVia_good (s : State) (n : Nat) (p : FabPacket) (gd : Good s0 s) : Good s0 (State.sendVia s n p) := by
  unfold State.sendVia
  with_reducible repeat' (first | assumption | apply routeEntry_good | apply dropNoRoute_good | apply putOn_good
                                | apply holdPacket_good | apply accept_good | split | (refine good_fst (by assumption) ?_)
                                | (refine good_snd (by assumption) ?_) | (refine goodOut_eq ?_ (by assumption)) | intro _
                                | dsimp only [id_eq])
theorem arriveHere_good (s : State) (n : Nat) (p : FabPacket) (gd : Good s0 s) : Good s0 (State.arriveHere s n p) := by
  unfold State.arriveHere
  with_reducible repeat' (first | assumption | apply accept_good | apply pkgEvent_good | apply sendVia_good | split)
theorem forward_good (s : State) (arr : Option Nat) (n : Nat) (p : FabPacket) (gd : Good s0 s) :
    Good s0 (State.forward s arr n p) := by
  unfold State.forward
  with_reducible repeat' (first | assumption | apply dropBad_good | apply pkgEvent_good | apply dropNoRoute_good
                                | apply copyToRoles_good | apply accept_good | apply routeEntry_good | apply arriveHere_good
                                | apply putOn_good | apply holdPacket_good | apply modPort_good | split
                                | (refine good_fst (by assumption) ?_) | (refine good_snd (by assumption) ?_)
                                | (refine goodOut_eq ?_ (by assumption)) | intro _ | dsimp only [id_eq])
theorem emit_good (s : State) (p : FabPacket) (gd : Good s0 s) : Good s0 (State.emit s p) := by
  unfold State.emit
  with_reducible repeat' (first | assumption | apply draw_good | apply forward_good)
theorem execPacketForward_good (n : PortId) (lane : Fin 5) (s : State) (gd : Good s0 s) :
    GoodOut s0 (execPacketForward n lane s) := by
  unfold execPacketForward
  with_reducible repeat' (first | assumption | apply nothing_good | apply dropBad_good | apply forward_good
                                | apply modPort_good | split | (refine good_fst (by assumption) ?_)
                                | (refine good_snd (by assumption) ?_) | apply goodOut_next | apply goodOut_nothing
                                | exact goodOut_fault _ | exact goodOut_refused _ | (refine goodOut_eq ?_ (by assumption))
                                | intro _ | dsimp only [id_eq])
theorem retryPacket_good (s : State) (h : HeldPacket) (gd : Good s0 s) : Good s0 (State.retryPacket s h) := by
  unfold State.retryPacket
  with_reducible repeat' (first | assumption | apply holdPacket_good | apply putOn_good | apply routeEntry_good
                                | apply dropNoRoute_good | apply arriveHere_good | split
                                | (refine good_fst (by assumption) ?_) | (refine good_snd (by assumption) ?_)
                                | (refine goodOut_eq ?_ (by assumption)) | intro _ | dsimp only [id_eq])
theorem retryHeld_good (s : State) (p : HeldPacket → Bool) (gd : Good s0 s) : Good s0 (State.retryHeld s p) := by
  unfold State.retryHeld
  with_reducible repeat' (first | assumption | apply retryPacket_good | (apply good_foldl; intro _ _ _))
theorem retryMembers_good (s : State) (gd : Good s0 s) : Good s0 (State.retryMembers s) := by
  unfold State.retryMembers
  with_reducible repeat' (first | assumption | apply retryHeld_good | split | (refine good_fst (by assumption) ?_)
                                | (refine good_snd (by assumption) ?_) | (refine goodOut_eq ?_ (by assumption)) | intro _
                                | dsimp only [id_eq])
theorem retryPaced_good (s : State) (gd : Good s0 s) : Good s0 (State.retryPaced s) := by
  unfold State.retryPaced
  with_reducible repeat' (first | assumption | apply retryHeld_good | split | (refine good_fst (by assumption) ?_)
                                | (refine good_snd (by assumption) ?_) | (refine goodOut_eq ?_ (by assumption)) | intro _
                                | dsimp only [id_eq])
theorem rehome_good (s : State) (role : Nat) (ps : List FabPacket) (gd : Good s0 s) : Good s0 (State.rehome s role ps) := by
  unfold State.rehome
  with_reducible repeat' (first | assumption | apply holdPacket_good | apply sendVia_good | (apply good_foldl; intro _ _ _)
                                | split)
theorem execOrdHoldExpiry_good (n : PortId) (s : State) (gd : Good s0 s) : GoodOut s0 (execOrdHoldExpiry n s) := by
  unfold execOrdHoldExpiry
  with_reducible repeat' (first | assumption | apply nothing_good | apply modPort_good | apply pkgEvent_good
                                | apply modPort_good | apply goodOut_next | apply goodOut_nothing | exact goodOut_fault _
                                | exact goodOut_refused _ | (apply good_foldl; intro _ _ _) | split
                                | (refine good_fst (by assumption) ?_) | (refine good_snd (by assumption) ?_) | intro _
                                | dsimp only [id_eq])
theorem execOrdDrainExpiry_good (s : State) (gd : Good s0 s) : GoodOut s0 (execOrdDrainExpiry s) := by
  unfold execOrdDrainExpiry
  with_reducible repeat' (first | assumption | apply retryHeld_good | apply nothing_good | split
                                | (refine good_fst (by assumption) ?_) | (refine good_snd (by assumption) ?_)
                                | apply goodOut_next | apply goodOut_nothing | exact goodOut_fault _
                                | exact goodOut_refused _ | (refine goodOut_eq ?_ (by assumption)) | intro _
                                | dsimp only [id_eq])
theorem swapRoutes_good (s : State) (gd : Good s0 s) : Good s0 (State.swapRoutes s) := by
  unfold State.swapRoutes
  with_reducible repeat' (first | assumption | apply retryHeld_good | split)
theorem execRouteSwap_good (s : State) (gd : Good s0 s) : GoodOut s0 (execRouteSwap s) := by
  unfold execRouteSwap
  with_reducible repeat' (first | assumption | apply nothing_good | apply swapRoutes_good | split
                                | (refine good_fst (by assumption) ?_) | (refine good_snd (by assumption) ?_)
                                | apply goodOut_next | apply goodOut_nothing | exact goodOut_fault _
                                | exact goodOut_refused _ | (refine goodOut_eq ?_ (by assumption)) | intro _
                                | dsimp only [id_eq])
theorem swapRanks_good (s : State) (p : Nat) (gd : Good s0 s) : Good s0 (State.swapRanks s p) := by
  unfold State.swapRanks
  with_reducible repeat' (first | assumption | apply modPas_good | apply modPas_good | exact geo_refl _ | split
                                | (refine good_fst (by assumption) ?_) | (refine good_snd (by assumption) ?_) | intro _)
theorem execRankSwap_good (fn : FnId) (p : PasId) (s : State) (gd : Good s0 s) : GoodOut s0 (execRankSwap fn p s) := by
  unfold execRankSwap
  with_reducible repeat' (first | assumption | apply swapRanks_good | apply nothing_good | apply goodOut_next
                                | apply goodOut_nothing | exact goodOut_fault _ | exact goodOut_refused _ | split)
theorem checkRanks_good (s : State) (p : Nat) (rs : List Nat) (gd : Good s0 s) : Good s0 (State.checkRanks s p rs) := by
  unfold State.checkRanks
  with_reducible repeat' (first | assumption | apply rankChip_good | (apply good_foldl; intro _ _ _)
                                | (apply good_foldl_fst; intro _ _ _) | (apply good_foldl_snd; intro _ _ _) | split
                                | (refine good_fst (by assumption) ?_) | (refine good_snd (by assumption) ?_)
                                | (refine goodOut_eq ?_ (by assumption)) | intro _ | dsimp only [id_eq])
theorem execFlockStart_good (fn : FnId) (p : PasId) (s : State) (gd : Good s0 s) : GoodOut s0 (execFlockStart fn p s) := by
  unfold execFlockStart
  with_reducible repeat' (first | assumption | apply nothing_good | apply checkRanks_good | apply modPas_good
                                | exact geo_refl _ | exact geo_off _ _ _ | split | (refine good_fst (by assumption) ?_)
                                | (refine good_snd (by assumption) ?_) | apply goodOut_next | apply goodOut_nothing
                                | exact goodOut_fault _ | exact goodOut_refused _ | (refine goodOut_eq ?_ (by assumption))
                                | intro _ | dsimp only [id_eq])
theorem execFlockStop_good (fn : FnId) (p : PasId) (s : State) (gd : Good s0 s) : GoodOut s0 (execFlockStop fn p s) := by
  unfold execFlockStop
  with_reducible repeat' (first | assumption | apply nothing_good | apply modPas_good | apply modPas_good | exact geo_refl _
                                | apply goodOut_next | apply goodOut_nothing | exact goodOut_fault _ | exact goodOut_refused _
                                | split | (refine good_fst (by assumption) ?_) | (refine good_snd (by assumption) ?_) | intro _)
theorem execOrdReservationWrite_good (fn : FnId) (p : PasId) (k : Fin 3) (value : Word) (s : State) (gd : Good s0 s)
    : GoodOut s0 (execOrdReservationWrite fn p k value s) := by
  unfold execOrdReservationWrite
  with_reducible repeat' (first | assumption | apply nothing_good | apply modPas_good | apply recheckOrd_good
                                | apply modPas_good | exact geo_refl _ | apply goodOut_next | apply goodOut_nothing
                                | exact goodOut_fault _ | exact goodOut_refused _ | (apply good_foldl; intro _ _ _) | split
                                | (refine good_fst (by assumption) ?_) | (refine good_snd (by assumption) ?_) | intro _
                                | dsimp only [id_eq])

/-! ### TileRegs -/

theorem State.tileSet_ok (s : State) (t : Tile) (k off : Nat) (v : Word) (h : Memory.wf (t).spad = true) : Memory.wf
    (State.tileSet s t k off v).spad = true := by
  unfold State.tileSet
  with_reducible repeat' (first | assumption | split)

/-! ### ControlNet -/

theorem arrives_good {s t : State} {i : Nat} {p : Packet} (e : s.arrives i = some (p, t)) (gd : Good s0 s) : Good s0 t := by
  unfold State.arrives at e
  split at e
  · cases e
  · split at e
    · cases e
    · split at e
      · cases e
      · cases e; exact gd
theorem cnwRecord_good (s : State) (k : Nat) (st : Status) (chan : BitVec 3) (h : BitVec 4) (gd : Good s0 s) :
    Good s0 (State.cnwRecord s k st chan h) := by
  unfold State.cnwRecord
  with_reducible repeat' (first | assumption | apply modTile_good | apply good_spad | split
                                | (refine good_fst (by assumption) ?_) | (refine good_snd (by assumption) ?_)
                                | (refine goodOut_eq ?_ (by assumption)) | intro _ | dsimp only [id_eq])
theorem Tile.countSentNak_ok (t : Tile) (c : Nat) (h : Memory.wf t.spad = true) :
    Memory.wf (Tile.countSentNak t c).spad = true := by
  unfold Tile.countSentNak
  with_reducible repeat' (first | assumption | split | intro _ | exact memNil_wf | dsimp only [id_eq])
theorem nakRequest_good (s : State) (k : Nat) (r : Request) (st : Status) (byTile : Bool) (gd : Good s0 s) :
    Good s0 (State.nakRequest s k r st byTile) := by
  unfold State.nakRequest
  with_reducible repeat' (first | assumption | apply Tile.countSentNak_ok | apply send_good | apply modTile_good
                                | apply good_spad | split | (refine good_fst (by assumption) ?_)
                                | (refine good_snd (by assumption) ?_) | (refine goodOut_eq ?_ (by assumption)) | intro _
                                | dsimp only [id_eq])
theorem Tile.putChan_ok (t : Tile) (c : Nat) (ch : Channel) (h : Memory.wf (t).spad = true) : Memory.wf
    (Tile.putChan t c ch).spad = true := by
  unfold Tile.putChan
  with_reducible repeat' (first | assumption)
theorem grantSpace_good (s : State) (k c : Nat) (y0 : Nat) (gd : Good s0 s) : Good s0 (State.grantSpace s k c y0) := by
  induction y0 generalizing s with
  | zero => exact gd
  | succ n ih =>
    unfold State.grantSpace
    with_reducible repeat' (first | apply ih | assumption | apply modTile_good | apply send_good | apply Tile.putChan_ok
                                  | apply modTile_good | apply good_spad | split | (refine good_fst (by assumption) ?_)
                                  | (refine good_snd (by assumption) ?_) | (refine goodOut_eq ?_ (by assumption)) | intro _
                                  | dsimp only [id_eq])
theorem freeEntries_good (s : State) (k c : Nat) (gd : Good s0 s) : Good s0 (State.freeEntries s k c) := by
  unfold State.freeEntries
  with_reducible repeat' (first | assumption | apply grantSpace_good)
theorem queueRequest_good (s : State) (k : Nat) (r : Request) (gd : Good s0 s) : Good s0 (State.queueRequest s k r) := by
  unfold State.queueRequest
  with_reducible repeat' (first | assumption | apply modTile_good | apply send_good | apply Tile.putChan_ok
                                | apply modTile_good | apply good_spad | split | (refine good_fst (by assumption) ?_)
                                | (refine good_snd (by assumption) ?_) | intro _ | dsimp only [id_eq])
theorem dropReservation_good (s : State) (k : Nat) (r : Request) (gd : Good s0 s) : Good s0 (State.dropReservation s k r) := by
  unfold State.dropReservation
  with_reducible repeat' (first | assumption | apply Tile.putChan_ok | apply freeEntries_good | apply modTile_good
                                | apply good_spad | split | (refine good_fst (by assumption) ?_)
                                | (refine good_snd (by assumption) ?_) | (refine goodOut_eq ?_ (by assumption)) | intro _
                                | dsimp only [id_eq])
theorem execMsgRequestArrive_good (i : Nat) (s : State) (gd : Good s0 s) : GoodOut s0 (execMsgRequestArrive i s) := by
  unfold execMsgRequestArrive
  with_reducible repeat' (first | assumption | apply nothing_good | apply dropReservation_good | apply nakRequest_good
                                | apply queueRequest_good | (refine arrives_good (by assumption) ?_) | split
                                | (refine good_fst (by assumption) ?_) | (refine good_snd (by assumption) ?_)
                                | apply goodOut_next | apply goodOut_nothing | exact goodOut_fault _
                                | exact goodOut_refused _ | (refine goodOut_eq ?_ (by assumption)) | intro _
                                | dsimp only [id_eq])
theorem withdraw_good (s : State) (r : Request) (gd : Good s0 s) : Good s0 (State.withdraw s r) := by
  unfold State.withdraw
  with_reducible repeat' (first | assumption | apply modTile_good | apply freeEntries_good | apply Tile.putChan_ok
                                | apply modTile_good | apply good_spad | split | (refine good_fst (by assumption) ?_)
                                | (refine good_snd (by assumption) ?_) | intro _)
theorem Tile.unblock_ok (t : Tile) (slot : BitVec 6) (now : Nat) (h : Memory.wf (t).spad = true) : Memory.wf
    (Tile.unblock t slot now).spad = true := by
  unfold Tile.unblock
  with_reducible repeat' (first | assumption | split)
theorem Tile.freeSlot_ok (t : Tile) (slot : BitVec 6) (h : Memory.wf (t).spad = true) : Memory.wf
    (Tile.freeSlot t slot).spad = true := by
  unfold Tile.freeSlot
  with_reducible repeat' (first | assumption)
theorem Tile.countNak_ok (t : Tile) (c : Nat) (h : Memory.wf (t).spad = true) : Memory.wf (Tile.countNak t c).spad = true := by
  unfold Tile.countNak
  with_reducible repeat' (first | assumption)
theorem execHandlerDispatch_good (vx : Vx) (vy : Vy) (s : State) (gd : Good s0 s) : GoodOut s0 (execHandlerDispatch vx vy s) := by
  unfold execHandlerDispatch
  with_reducible repeat' (first | assumption | apply nothing_good | apply modTile_good | apply freeEntries_good
                                | apply Tile.putChan_ok | apply modTile_good | apply good_spad | apply goodOut_next
                                | apply goodOut_nothing | exact goodOut_fault _ | exact goodOut_refused _ | split
                                | (refine good_fst (by assumption) ?_) | (refine good_snd (by assumption) ?_)
                                | (refine goodOut_eq ?_ (by assumption)) | intro _ | dsimp only [id_eq])
theorem endHandler_good (s : State) (k : Nat) (h : HandlerRun) (st : Status) (payload : List Byte) (gd : Good s0 s) : Good s0
    (State.endHandler s k h st payload) := by
  unfold State.endHandler
  with_reducible repeat' (first | assumption | apply modTile_good | apply send_good | apply modTile_good | split
                                | (refine good_fst (by assumption) ?_) | (refine good_snd (by assumption) ?_) | intro _)
theorem refuseAction_good (s : State) (k : Nat) (h : HandlerRun) (st : Status) (gd : Good s0 s) : Good s0
    (State.refuseAction s k h st) := by
  unfold State.refuseAction
  with_reducible repeat' (first | assumption | apply modTile_good | apply nakRequest_good | apply cnwRecord_good
                                | apply endHandler_good | apply modTile_good | split | (refine good_fst (by assumption) ?_)
                                | (refine good_snd (by assumption) ?_) | intro _)
theorem nextAction_good (s : State) (k : Nat) (h : HandlerRun) (gd : Good s0 s) : Good s0 (State.nextAction s k h) := by
  unfold State.nextAction
  with_reducible repeat' (first | assumption | apply modTile_good | apply modTile_good | split
                                | (refine good_fst (by assumption) ?_) | (refine good_snd (by assumption) ?_) | intro _)
theorem onAction_good (s : State) (k op : Nat) (f : HandlerRun → BitVec 32 → State) (hf : ∀ h a, Good s0 (f h a))
    (gd : Good s0 s) : GoodOut s0 (s.onAction k op f) := by
  unfold State.onAction
  with_reducible repeat' (first | assumption | apply hf | apply goodOut_next | apply goodOut_nothing | split
                                | (refine good_fst (by assumption) ?_) | intro _ | dsimp only [id_eq])
theorem execHandlerEnd_good (vx : Vx) (vy : Vy) (s : State) (gd : Good s0 s) : GoodOut s0 (execHandlerEnd vx vy s) := by
  unfold execHandlerEnd
  with_reducible repeat' (first | assumption | apply nothing_good | apply endHandler_good | apply refuseAction_good
                                | apply good_spad | apply goodOut_next | apply goodOut_nothing | exact goodOut_fault _
                                | exact goodOut_refused _ | split | (refine good_fst (by assumption) ?_)
                                | (refine good_snd (by assumption) ?_) | (refine goodOut_eq ?_ (by assumption)) | intro _
                                | dsimp only [id_eq])
theorem accessLines_good (s : State) (k o : Nat) (write : Option (List Byte)) (n : Nat) (got : List Byte) (y0 : List
    (Nat × Nat)) (gd : Good s0 s) : Good s0 (State.accessLines s k o write n got y0).1 := by
  induction y0 generalizing s n got with
  | nil => exact gd
  | cons a rest ih =>
    unfold State.accessLines
    with_reducible repeat' (first | apply ih | assumption | apply waitedAccess_good | apply Pasture.write_geo | split
                                  | (refine good_fst (by assumption) ?_) | (refine good_snd (by assumption) ?_)
                                  | (refine goodOut_eq ?_ (by assumption)) | intro _ | dsimp only [id_eq])
theorem afterLines_good (s : State) (k : Nat) (h : HandlerRun) (l : Lines) (done : State → List Byte → State)
    (hd : ∀ s b, Good s0 s → Good s0 (done s b)) (gd : Good s0 s) : Good s0 (s.afterLines k h l done) := by
  unfold State.afterLines
  with_reducible repeat' (first | assumption | apply hd | apply refuseAction_good | apply modTile_good | apply goodOut_next
                                | apply goodOut_nothing | split | (refine good_fst (by assumption) ?_) | intro _)
theorem execHandlerWrite_good (vx : Vx) (vy : Vy) (s : State) (gd : Good s0 s) : GoodOut s0 (execHandlerWrite vx vy s) := by
  unfold execHandlerWrite
  with_reducible repeat' (first | assumption | apply onAction_good | apply accessLines_good | apply afterLines_good
                                | apply nextAction_good | apply goodOut_next | apply goodOut_nothing | exact goodOut_fault _
                                | exact goodOut_refused _ | split | (refine good_fst (by assumption) ?_)
                                | (refine good_snd (by assumption) ?_) | intro _)
theorem updateWord_good (s : State) (k : Nat) (h : HandlerRun) (o : Nat) (f : BitVec 32 → BitVec 32) (gd : Good s0 s) : Good s0
    (State.updateWord s k h o f) := by
  unfold State.updateWord
  with_reducible repeat' (first | assumption | apply refuseAction_good | apply waitedAccess_good | apply nextAction_good
                                | apply good_spad | split | (refine good_fst (by assumption) ?_)
                                | (refine good_snd (by assumption) ?_) | (refine goodOut_eq ?_ (by assumption)) | intro _
                                | dsimp only [id_eq])
theorem execHandlerAdd_good (vx : Vx) (vy : Vy) (s : State) (gd : Good s0 s) : GoodOut s0 (execHandlerAdd vx vy s) := by
  unfold execHandlerAdd
  with_reducible repeat' (first | assumption | apply onAction_good | apply updateWord_good | apply goodOut_next
                                | apply goodOut_nothing | exact goodOut_fault _ | exact goodOut_refused _ | split
                                | (refine good_fst (by assumption) ?_) | (refine good_snd (by assumption) ?_) | intro _)
theorem execHandlerBump_good (vx : Vx) (vy : Vy) (s : State) (gd : Good s0 s) : GoodOut s0 (execHandlerBump vx vy s) := by
  unfold execHandlerBump
  with_reducible repeat' (first | assumption | apply onAction_good | apply updateWord_good | apply goodOut_next
                                | apply goodOut_nothing | exact goodOut_fault _ | exact goodOut_refused _ | split
                                | (refine good_fst (by assumption) ?_) | (refine good_snd (by assumption) ?_) | intro _)
theorem sendFlag_good (s : State) (k n : Nat) (on : Bool) (gd : Good s0 s) : Good s0 (State.sendFlag s k n on) := by
  unfold State.sendFlag
  with_reducible repeat' (first | assumption | apply send_good | split)
theorem execHandlerFlagset_good (vx : Vx) (vy : Vy) (s : State) (gd : Good s0 s) : GoodOut s0 (execHandlerFlagset vx vy s) := by
  unfold execHandlerFlagset
  with_reducible repeat' (first | assumption | apply onAction_good | apply sendFlag_good | apply nextAction_good
                                | apply goodOut_next | apply goodOut_nothing | exact goodOut_fault _ | exact goodOut_refused _
                                | split | (refine good_fst (by assumption) ?_) | (refine good_snd (by assumption) ?_) | intro _)
theorem execHandlerFlagclr_good (vx : Vx) (vy : Vy) (s : State) (gd : Good s0 s) : GoodOut s0 (execHandlerFlagclr vx vy s) := by
  unfold execHandlerFlagclr
  with_reducible repeat' (first | assumption | apply onAction_good | apply sendFlag_good | apply nextAction_good
                                | apply goodOut_next | apply goodOut_nothing | exact goodOut_fault _ | exact goodOut_refused _
                                | split | (refine good_fst (by assumption) ?_) | (refine good_snd (by assumption) ?_) | intro _)
theorem execHandlerReply_good (vx : Vx) (vy : Vy) (s : State) (gd : Good s0 s) : GoodOut s0 (execHandlerReply vx vy s) := by
  unfold execHandlerReply
  with_reducible repeat' (first | assumption | apply onAction_good | apply refuseAction_good | apply accessLines_good
                                | apply afterLines_good | apply endHandler_good | apply goodOut_next | apply goodOut_nothing
                                | exact goodOut_fault _ | exact goodOut_refused _ | split
                                | (refine good_fst (by assumption) ?_) | (refine good_snd (by assumption) ?_) | intro _)
theorem execHandlerSend_good (vx : Vx) (vy : Vy) (s : State) (gd : Good s0 s) : GoodOut s0 (execHandlerSend vx vy s) := by
  unfold execHandlerSend
  with_reducible repeat' (first | assumption | apply onAction_good | apply refuseAction_good | apply modTile_good
                                | apply nextAction_good | apply send_good | apply modTile_good | apply good_spad
                                | apply goodOut_next | apply goodOut_nothing | exact goodOut_fault _ | exact goodOut_refused _
                                | split | (refine good_fst (by assumption) ?_) | (refine good_snd (by assumption) ?_)
                                | (refine goodOut_eq ?_ (by assumption)) | intro _)
theorem endHostMsg_good (s : State) (f : Nat) (m : HostMsg) (st : Status) (payload : List Byte) (gd : Good s0 s) : Good s0
    (State.endHostMsg s f m st payload) := by
  unfold State.endHostMsg
  with_reducible repeat' (first | assumption | apply modFn_good | apply complete_good)
theorem execReplyArrive_good (i : Nat) (s : State) (gd : Good s0 s) : GoodOut s0 (execReplyArrive i s) := by
  unfold execReplyArrive
  with_reducible repeat' (first | assumption | apply Tile.freeSlot_ok | apply Tile.countNak_ok | apply endHostMsg_good
                                | apply nothing_good | apply modTile_good | apply good_spad
                                | (refine arrives_good (by assumption) ?_) | split | (refine good_fst (by assumption) ?_)
                                | (refine good_snd (by assumption) ?_) | apply goodOut_next | apply goodOut_nothing
                                | exact goodOut_fault _ | exact goodOut_refused _ | (refine goodOut_eq ?_ (by assumption))
                                | intro _ | dsimp only [id_eq])
theorem execNakArrive_good (i : Nat) (s : State) (gd : Good s0 s) : GoodOut s0 (execNakArrive i s) := by
  unfold execNakArrive
  with_reducible repeat' (first | assumption | apply Tile.unblock_ok | apply Tile.freeSlot_ok | apply Tile.countNak_ok
                                | apply endHostMsg_good | apply nothing_good | apply modTile_good | apply good_spad
                                | (refine arrives_good (by assumption) ?_) | split | (refine good_fst (by assumption) ?_)
                                | (refine good_snd (by assumption) ?_) | apply goodOut_next | apply goodOut_nothing
                                | exact goodOut_fault _ | exact goodOut_refused _ | (refine goodOut_eq ?_ (by assumption))
                                | intro _ | dsimp only [id_eq])
theorem execFullBounce_good (i : Nat) (s : State) (gd : Good s0 s) : GoodOut s0 (execFullBounce i s) := by
  unfold execFullBounce
  with_reducible repeat' (first | assumption | apply nothing_good | apply modFn_good | apply modTile_good | apply good_spad
                                | (refine arrives_good (by assumption) ?_) | split | (refine good_fst (by assumption) ?_)
                                | (refine good_snd (by assumption) ?_) | apply goodOut_next | apply goodOut_nothing
                                | exact goodOut_fault _ | exact goodOut_refused _ | (refine goodOut_eq ?_ (by assumption))
                                | intro _ | dsimp only [id_eq])
theorem execSpaceSignal_good (i : Nat) (s : State) (gd : Good s0 s) : GoodOut s0 (execSpaceSignal i s) := by
  unfold execSpaceSignal
  with_reducible repeat' (first | assumption | apply Tile.unblock_ok | apply send_good | apply nothing_good
                                | apply modFn_good | apply modTile_good | apply good_spad
                                | (refine arrives_good (by assumption) ?_) | split | (refine good_fst (by assumption) ?_)
                                | (refine good_snd (by assumption) ?_) | apply goodOut_next | apply goodOut_nothing
                                | exact goodOut_fault _ | exact goodOut_refused _ | (refine goodOut_eq ?_ (by assumption))
                                | intro _ | dsimp only [id_eq])
theorem execSendWatchdog_good (who : Sender) (s : State) (gd : Good s0 s) : GoodOut s0 (execSendWatchdog who s) := by
  unfold execSendWatchdog
  with_reducible repeat' (first | assumption | apply nothing_good | apply pasEvent_good | apply modFn_good
                                | apply modTile_good | apply good_spad | split | (refine good_fst (by assumption) ?_)
                                | (refine good_snd (by assumption) ?_) | apply goodOut_next | apply goodOut_nothing
                                | exact goodOut_fault _ | exact goodOut_refused _ | (refine goodOut_eq ?_ (by assumption))
                                | intro _ | dsimp only [id_eq])
theorem cancelSend_good (s : State) (k : Nat) (gd : Good s0 s) : Good s0 (State.cancelSend s k) := by
  unfold State.cancelSend
  with_reducible repeat' (first | assumption | apply modTile_good | apply withdraw_good | apply refuseAction_good
                                | apply Tile.unblock_ok | apply Tile.freeSlot_ok | apply modTile_good | apply good_spad
                                | split | (refine good_fst (by assumption) ?_) | (refine good_snd (by assumption) ?_)
                                | (refine goodOut_eq ?_ (by assumption)) | intro _ | dsimp only [id_eq])
theorem execCancel_good (vx : Vx) (vy : Vy) (s : State) (gd : Good s0 s) : GoodOut s0 (execCancel vx vy s) := by
  unfold execCancel
  with_reducible repeat' (first | assumption | apply cancelSend_good | apply nothing_good | split
                                | (refine good_fst (by assumption) ?_) | (refine good_snd (by assumption) ?_)
                                | apply goodOut_next | apply goodOut_nothing | exact goodOut_fault _
                                | exact goodOut_refused _ | (refine goodOut_eq ?_ (by assumption)) | intro _
                                | dsimp only [id_eq])
theorem emptyChannel_good (s : State) (k c : Nat) (st : Status) (gd : Good s0 s) : Good s0 (State.emptyChannel s k c st) := by
  unfold State.emptyChannel
  with_reducible repeat' (first | assumption | apply modTile_good | apply nakRequest_good | apply freeEntries_good
                                | apply Tile.putChan_ok | apply modTile_good | apply good_spad
                                | (apply good_foldl; intro _ _ _) | split | (refine good_fst (by assumption) ?_)
                                | (refine good_snd (by assumption) ?_) | intro _)
theorem writeOpen_good (s : State) (k : Nat) (mask : Byte) (gd : Good s0 s) : Good s0 (State.writeOpen s k mask) := by
  unfold State.writeOpen
  with_reducible repeat' (first | assumption | apply modTile_good | apply emptyChannel_good | apply modTile_good
                                | apply good_spad | (apply good_foldl; intro _ _ _) | split
                                | (refine good_fst (by assumption) ?_) | (refine good_snd (by assumption) ?_) | intro _)
theorem execChannelClose_good (vx : Vx) (vy : Vy) (openMask : Byte) (s : State) (gd : Good s0 s) :
    GoodOut s0 (execChannelClose vx vy openMask s) := by
  unfold execChannelClose
  with_reducible repeat' (first | assumption | apply writeOpen_good | apply nothing_good | split
                                | (refine good_fst (by assumption) ?_) | (refine good_snd (by assumption) ?_)
                                | apply goodOut_next | apply goodOut_nothing | exact goodOut_fault _
                                | exact goodOut_refused _ | (refine goodOut_eq ?_ (by assumption)) | intro _
                                | dsimp only [id_eq])
theorem tileWrite_good (s : State) (k off : Nat) (v : Word) (gd : Good s0 s) : Good s0 (State.tileWrite s k off v) := by
  unfold State.tileWrite
  with_reducible repeat' (first | assumption | apply writeOpen_good | apply cancelSend_good | apply modTile_good
                                | apply State.tileSet_ok | apply modTile_good | split | (refine good_fst (by assumption) ?_)
                                | (refine good_snd (by assumption) ?_) | intro _)
theorem serveAccess_good (s : State) (k off : Nat) (write : Option Word) (gd : Good s0 s) : Good s0
    (State.serveAccess s k off write).1 := by
  unfold State.serveAccess
  with_reducible repeat' (first | assumption | apply tileWrite_good | apply Pasture.write_geo | split)
theorem execRegisterAccess_good (i : Nat) (s : State) (gd : Good s0 s) : GoodOut s0 (execRegisterAccess i s) := by
  unfold execRegisterAccess
  with_reducible repeat' (first | assumption | (refine arrives_good (by assumption) ?_) | apply nothing_good
                                | apply nakRequest_good | apply serveAccess_good | apply send_good | apply Pasture.write_geo
                                | apply goodOut_next | apply goodOut_nothing | exact goodOut_fault _ | exact goodOut_refused _
                                | split)
theorem execTileWindowAccess_good (vx : Vx) (vy : Vy) (offset : BitVec 12) (write : Option Word) (s : State)
    (gd : Good s0 s) :
    GoodOut s0 (execTileWindowAccess vx vy offset write s) := by
  unfold execTileWindowAccess
  with_reducible repeat' (first | assumption | apply serveAccess_good | split | (refine good_fst (by assumption) ?_)
                                | (refine good_snd (by assumption) ?_) | apply goodOut_next | apply goodOut_nothing
                                | exact goodOut_fault _ | exact goodOut_refused _ | (refine goodOut_eq ?_ (by assumption))
                                | intro _ | dsimp only [id_eq])
theorem resetChannel_good (s : State) (k c : Nat) (gd : Good s0 s) : Good s0 (State.resetChannel s k c) := by
  unfold State.resetChannel
  with_reducible repeat' (first | assumption | apply Tile.putChan_ok | apply nakRequest_good | apply modTile_good
                                | apply good_spad | (apply good_foldl; intro _ _ _) | (apply good_foldl_fst; intro _ _ _)
                                | (apply good_foldl_snd; intro _ _ _) | split | (refine good_fst (by assumption) ?_)
                                | (refine good_snd (by assumption) ?_) | (refine goodOut_eq ?_ (by assumption)) | intro _
                                | dsimp only [id_eq])
theorem resetEngine_good (s : State) (k : Nat) (gd : Good s0 s) : Good s0 (State.resetEngine s k) := by
  unfold State.resetEngine
  with_reducible repeat' (first | assumption | apply withdraw_good | apply nakRequest_good | apply resetChannel_good
                                | apply modTile_good | apply good_spad | (apply good_foldl; intro _ _ _)
                                | (apply good_foldl_fst; intro _ _ _) | (apply good_foldl_snd; intro _ _ _) | split
                                | (refine good_fst (by assumption) ?_) | (refine good_snd (by assumption) ?_)
                                | (refine goodOut_eq ?_ (by assumption)) | intro _ | dsimp only [id_eq])
theorem resetInFlight_good (s : State) (inReset : Nat → Bool) (gd : Good s0 s) : Good s0 (State.resetInFlight s inReset) := by
  unfold State.resetInFlight
  with_reducible repeat' (first | assumption | apply Tile.countSentNak_ok | apply Tile.countNak_ok | apply nakRequest_good
                                | apply modTile_good | apply good_spad | (apply good_foldl; intro _ _ _)
                                | (apply good_foldl_fst; intro _ _ _) | (apply good_foldl_snd; intro _ _ _) | split
                                | (refine good_fst (by assumption) ?_) | (refine good_snd (by assumption) ?_)
                                | (refine goodOut_eq ?_ (by assumption)) | intro _ | dsimp only [id_eq])
theorem execFlitCheckFail_good (vx : Vx) (vy : Vy) (d : Dir) (resend : Fin 4) (s : State) (gd : Good s0 s) :
    GoodOut s0 (execFlitCheckFail vx vy d resend s) := by
  unfold execFlitCheckFail
  with_reducible repeat' (first | assumption | apply nothing_good | apply cnwRecord_good | apply alert_good
                                | apply stopAll_good | apply modTile_good | apply good_spad | split
                                | (refine good_fst (by assumption) ?_) | (refine good_snd (by assumption) ?_)
                                | apply goodOut_next | apply goodOut_nothing | exact goodOut_fault _
                                | exact goodOut_refused _ | (refine goodOut_eq ?_ (by assumption)) | intro _
                                | dsimp only [id_eq])

/-! ### Windows -/

theorem putWindow_good (s : State) (p w : Nat) (y : Window) (gd : Good s0 s) : Good s0 (State.putWindow s p w y) := by
  unfold State.putWindow
  with_reducible repeat' (first | assumption | apply modPas_good | apply modPas_good | exact geo_refl _ | split
                                | (refine good_fst (by assumption) ?_) | (refine good_snd (by assumption) ?_) | intro _)
theorem modWindow_good (s : State) (p w : Nat) (f : Window → Window) (gd : Good s0 s) : Good s0 (State.modWindow s p w f) := by
  unfold State.modWindow
  with_reducible repeat' (first | assumption | apply putWindow_good)
theorem emitControl_good (s : State) (p : Nat) (ptype : Byte) (dst : BitVec 16) (w : BitVec 6) (xfer count : BitVec 32) (gd
    : Good s0 s) : Good s0 (State.emitControl s p ptype dst w xfer count) := by
  unfold State.emitControl
  with_reducible repeat' (first | assumption | apply emit_good)
theorem serveQueue_good (s : State) (p w : Nat) (y0 : Nat) (gd : Good s0 s) : Good s0 (State.serveQueue s p w y0) := by
  induction y0 generalizing s with
  | zero => exact gd
  | succ n ih =>
    unfold State.serveQueue
    with_reducible repeat' (first | apply ih | assumption | apply putWindow_good | apply modPas_good | apply emitControl_good
                                  | apply modPas_good | exact geo_refl _ | split | (refine good_fst (by assumption) ?_)
                                  | (refine good_snd (by assumption) ?_) | (refine goodOut_eq ?_ (by assumption)) | intro _
                                  | dsimp only [id_eq])
theorem serveWindow_good (s : State) (p w : Nat) (gd : Good s0 s) : Good s0 (State.serveWindow s p w) := by
  unfold State.serveWindow
  with_reducible repeat' (first | assumption | apply serveQueue_good)
theorem serveWindows_good (s : State) (p : Nat) (gd : Good s0 s) : Good s0 (State.serveWindows s p) := by
  unfold State.serveWindows
  with_reducible repeat' (first | assumption | apply serveWindow_good | (apply good_foldl; intro _ _ _)
                                | (apply good_foldl_fst; intro _ _ _) | (apply good_foldl_snd; intro _ _ _) | split
                                | (refine good_fst (by assumption) ?_) | (refine good_snd (by assumption) ?_)
                                | (refine goodOut_eq ?_ (by assumption)) | intro _ | dsimp only [id_eq])
theorem winOpen_good (s : State) (p w : Nat) (new : Window) (gd : Good s0 s) : Good s0 (State.winOpen s p w new) := by
  unfold State.winOpen
  with_reducible repeat' (first | assumption | apply putWindow_good | apply serveWindow_good | split
                                | (refine good_fst (by assumption) ?_) | (refine good_snd (by assumption) ?_) | intro _
                                | dsimp only [id_eq])
theorem execWinopen_good (vx : Vx) (vy : Vy) (s : State) (gd : Good s0 s) : GoodOut s0 (execWinopen vx vy s) := by
  unfold execWinopen
  with_reducible repeat' (first | assumption | apply issueDesc_good | apply issueTile_good | apply nothing_good
                                | apply stopTile_good | apply winOpen_good | apply good_spad | apply goodOut_next
                                | apply goodOut_nothing | exact goodOut_fault _ | exact goodOut_refused _ | split
                                | (refine good_fst (by assumption) ?_) | (refine good_snd (by assumption) ?_)
                                | (refine goodOut_eq ?_ (by assumption)) | intro _ | dsimp only [id_eq])
theorem winClose_good (s : State) (p w : Nat) (state : BitVec 2) (gd : Good s0 s) : Good s0 (State.winClose s p w state) := by
  unfold State.winClose
  with_reducible repeat' (first | assumption | apply putWindow_good | apply serveWindows_good | apply modPas_good
                                | exact geo_refl _ | exact geo_off _ _ _ | split | (refine good_fst (by assumption) ?_)
                                | (refine good_snd (by assumption) ?_) | (refine goodOut_eq ?_ (by assumption)) | intro _
                                | dsimp only [id_eq])
theorem execWinclose_good (vx : Vx) (vy : Vy) (s : State) (gd : Good s0 s) : GoodOut s0 (execWinclose vx vy s) := by
  unfold execWinclose
  with_reducible repeat' (first | assumption | apply issueDesc_good | apply nothing_good | apply issueTile_good
                                | apply winClose_good | apply good_spad | apply goodOut_next | apply goodOut_nothing
                                | exact goodOut_fault _ | exact goodOut_refused _ | split
                                | (refine good_fst (by assumption) ?_) | (refine good_snd (by assumption) ?_)
                                | (refine goodOut_eq ?_ (by assumption)) | intro _ | dsimp only [id_eq])
theorem resetWindows_good (s : State) (p : Nat) (gd : Good s0 s) : Good s0 (State.resetWindows s p) := by
  unfold State.resetWindows
  with_reducible repeat' (first | assumption | apply modPas_good | apply modPas_good | exact geo_refl _ | split
                                | (refine good_fst (by assumption) ?_) | (refine good_snd (by assumption) ?_) | intro _)
theorem takePacket_good {s t : State} {i : Nat} {b : Byte} {p : FabPacket} (e : s.takePacket i b = some (p, t)) (gd : Good s0 s) :
    Good s0 t := by
  unfold State.takePacket at e
  split at e
  · cases e
  · split at e
    · cases e
    · cases e; exact gd
theorem windowNak_good (s : State) (q : Nat) (p : FabPacket) (st : Status) (gd : Good s0 s) : Good s0
    (State.windowNak s q p st) := by
  unfold State.windowNak
  with_reducible repeat' (first | assumption | apply modPas_good | apply emit_good | apply modPas_good | exact geo_refl _
                                | split | (refine good_fst (by assumption) ?_) | (refine good_snd (by assumption) ?_) | intro _)
theorem Pasture.modTracker_geo {z : Pasture} (x : Pasture) (t : Tracker) (f : Tracker → Tracker) (h : GeoLe z x) : GeoLe z
    (Pasture.modTracker x t f) := by
  unfold Pasture.modTracker
  with_reducible repeat' (first | assumption)
theorem Pasture.dropTracker_geo {z : Pasture} (x : Pasture) (t : Tracker) (h : GeoLe z x) : GeoLe z
    (Pasture.dropTracker x t) := by
  unfold Pasture.dropTracker
  with_reducible repeat' (first | assumption)
theorem checkOseq_good (s : State) (q : Nat) (p : FabPacket) (gd : Good s0 s) : Good s0 (State.checkOseq s q p).1 := by
  unfold State.checkOseq
  with_reducible repeat' (first | assumption | apply modPas_good | apply pasEvent_good | apply modPas_good | exact geo_refl _
                                | split | (refine good_fst (by assumption) ?_) | (refine good_snd (by assumption) ?_)
                                | intro _ | dsimp only [id_eq])
theorem stackWrite_good (s : State) (q a : Nat) (bs : List Byte) (gd : Good s0 s) : Good s0 (State.stackWrite s q a bs) := by
  unfold State.stackWrite
  with_reducible repeat' (first | assumption | apply dropCmds_good | (refine good_stackMem ?_ (fun w => memWrite_wf _ _ _ w))
                                | (apply good_foldl; intro _ _ _) | (apply good_foldl_fst; intro _ _ _)
                                | (apply good_foldl_snd; intro _ _ _) | split | (refine good_fst (by assumption) ?_)
                                | (refine good_snd (by assumption) ?_) | (refine goodOut_eq ?_ (by assumption)) | intro _
                                | dsimp only [id_eq])
theorem landData_good (s : State) (q : Nat) (y : Window) (p : FabPacket) (gd : Good s0 s) :
    Good s0 (State.landData s q y p).1 := by
  unfold State.landData
  with_reducible repeat' (first | assumption | apply sideWrite_good | apply stackWrite_good | split
                                | (refine good_fst (by assumption) ?_) | (refine good_snd (by assumption) ?_)
                                | (refine goodOut_eq ?_ (by assumption)) | intro _ | dsimp only [id_eq])
theorem receiveData_good (s : State) (q : Nat) (p : FabPacket) (gd : Good s0 s) : Good s0 (State.receiveData s q p) := by
  unfold State.receiveData
  with_reducible repeat' (first | assumption | apply checkOseq_good | apply modPas_good | apply windowNak_good
                                | apply accepted_good | apply landData_good | apply send_good | apply Pasture.modTracker_geo
                                | apply modPas_good | exact geo_refl _ | split | (refine good_fst (by assumption) ?_)
                                | (refine good_snd (by assumption) ?_) | (refine goodOut_eq ?_ (by assumption)) | intro _
                                | dsimp only [id_eq])
theorem execData_good (i : Nat) (s : State) (gd : Good s0 s) : GoodOut s0 (execData i s) := by
  unfold execData
  with_reducible repeat' (first | assumption | apply nothing_good | apply noteRange_good | apply receiveData_good
                                | apply dropWaits_good | (refine takePacket_good (by assumption) ?_) | split
                                | (refine good_fst (by assumption) ?_) | (refine good_snd (by assumption) ?_)
                                | apply goodOut_next | apply goodOut_nothing | exact goodOut_fault _
                                | exact goodOut_refused _ | (refine goodOut_eq ?_ (by assumption)) | intro _
                                | dsimp only [id_eq])
theorem releaseWaiters_good (s : State) (q w : Nat) (gd : Good s0 s) : Good s0 (State.releaseWaiters s q w) := by
  unfold State.releaseWaiters
  with_reducible repeat' (first | assumption | apply send_good | apply modPas_good | apply modPas_good | apply good_spad
                                | exact geo_refl _ | (apply good_foldl; intro _ _ _) | split
                                | (refine good_fst (by assumption) ?_) | (refine good_snd (by assumption) ?_) | intro _)
theorem completeTransfer_good (s : State) (q : Nat) (t : Tracker) (gd : Good s0 s) : Good s0 (State.completeTransfer s q t) := by
  unfold State.completeTransfer
  with_reducible repeat' (first | assumption | apply modWindow_good | apply modPas_good | apply emitControl_good
                                | apply releaseWaiters_good | apply Pasture.dropTracker_geo | apply modPas_good
                                | exact geo_refl _ | split | (refine good_fst (by assumption) ?_)
                                | (refine good_snd (by assumption) ?_) | intro _)
theorem ackData_good (s : State) (q : Nat) (t : Tracker) (gd : Good s0 s) : Good s0 (State.ackData s q t) := by
  unfold State.ackData
  with_reducible repeat' (first | assumption | apply modPas_good | apply emitControl_good | apply Pasture.modTracker_geo
                                | apply modPas_good | exact geo_refl _ | split | (refine good_fst (by assumption) ?_)
                                | (refine good_snd (by assumption) ?_) | intro _)
theorem execLandingNotice_good (i : Nat) (s : State) (gd : Good s0 s) : GoodOut s0 (execLandingNotice i s) := by
  unfold execLandingNotice
  with_reducible repeat' (first | assumption | apply Pasture.modTracker_geo | apply completeTransfer_good
                                | apply serveWindows_good | apply ackData_good | apply nothing_good | apply modPas_good
                                | exact geo_refl _ | exact geo_off _ _ _ | (refine arrives_good (by assumption) ?_) | split
                                | (refine good_fst (by assumption) ?_) | (refine good_snd (by assumption) ?_)
                                | apply goodOut_next | apply goodOut_nothing | exact goodOut_fault _
                                | exact goodOut_refused _ | (refine goodOut_eq ?_ (by assumption)) | intro _
                                | dsimp only [id_eq])
theorem creditRequest_good (s : State) (q : Nat) (p : FabPacket) (gd : Good s0 s) : Good s0 (State.creditRequest s q p) := by
  unfold State.creditRequest
  with_reducible repeat' (first | assumption | apply windowNak_good | apply emitControl_good | apply putWindow_good
                                | apply serveWindow_good | split | (refine good_fst (by assumption) ?_)
                                | (refine good_snd (by assumption) ?_) | (refine goodOut_eq ?_ (by assumption)) | intro _
                                | dsimp only [id_eq])
theorem execCreditReq_good (i : Nat) (s : State) (gd : Good s0 s) : GoodOut s0 (execCreditReq i s) := by
  unfold execCreditReq
  with_reducible repeat' (first | assumption | (refine takePacket_good (by assumption) ?_) | apply nothing_good
                                | apply creditRequest_good | apply goodOut_next | apply goodOut_nothing
                                | exact goodOut_fault _ | exact goodOut_refused _ | split)
theorem returnUnits_good (s : State) (q : Nat) (t : Tracker) (gd : Good s0 s) : Good s0 (State.returnUnits s q t) := by
  unfold State.returnUnits
  with_reducible repeat' (first | assumption | apply modWindow_good | apply Pasture.dropTracker_geo | apply serveWindows_good
                                | apply modPas_good | exact geo_refl _ | exact geo_off _ _ _ | split
                                | (refine good_fst (by assumption) ?_) | (refine good_snd (by assumption) ?_)
                                | (refine goodOut_eq ?_ (by assumption)) | intro _ | dsimp only [id_eq])
theorem execCreditReturn_good (i : Nat) (s : State) (gd : Good s0 s) : GoodOut s0 (execCreditReturn i s) := by
  unfold execCreditReturn
  with_reducible repeat' (first | assumption | (refine takePacket_good (by assumption) ?_) | apply nothing_good
                                | apply returnUnits_good | apply goodOut_next | apply goodOut_nothing | exact goodOut_fault _
                                | exact goodOut_refused _ | split)
theorem execTrackerAbandon_good (p : PasId) (win : BitVec 6) (rank : BitVec 12) (xfer : BitVec 32) (s : State) (gd
    : Good s0 s) : GoodOut s0 (execTrackerAbandon p win rank xfer s) := by
  unfold execTrackerAbandon
  with_reducible repeat' (first | assumption | apply nothing_good | apply modPas_good | apply returnUnits_good
                                | apply modPas_good | exact geo_refl _ | apply goodOut_next | apply goodOut_nothing
                                | exact goodOut_fault _ | exact goodOut_refused _ | split
                                | (refine good_fst (by assumption) ?_) | (refine good_snd (by assumption) ?_)
                                | (refine goodOut_eq ?_ (by assumption)) | intro _ | dsimp only [id_eq])
theorem execWait_good (vx : Vx) (vy : Vy) (s : State) (gd : Good s0 s) : GoodOut s0 (execWait vx vy s) := by
  unfold execWait
  with_reducible repeat' (first | assumption | apply issueDesc_good | apply issueTile_good | apply nothing_good
                                | apply stopTile_good | apply send_good | apply noteHolds_good | apply good_spad
                                | apply goodOut_next | apply goodOut_nothing | exact goodOut_fault _ | exact goodOut_refused _
                                | split | (refine good_fst (by assumption) ?_) | (refine good_snd (by assumption) ?_)
                                | (refine goodOut_eq ?_ (by assumption)) | intro _ | dsimp only [id_eq])
theorem execWaitArrive_good (i : Nat) (s : State) (gd : Good s0 s) : GoodOut s0 (execWaitArrive i s) := by
  unfold execWaitArrive
  with_reducible repeat' (first | assumption | (refine arrives_good (by assumption) ?_) | apply send_good | apply modPas_good
                                | apply nothing_good | apply modPas_good | exact geo_refl _ | apply goodOut_next
                                | apply goodOut_nothing | exact goodOut_fault _ | exact goodOut_refused _ | split
                                | (refine good_fst (by assumption) ?_) | (refine good_snd (by assumption) ?_)
                                | (refine goodOut_eq ?_ (by assumption)) | intro _)
theorem execWaitRelease_good (i : Nat) (s : State) (gd : Good s0 s) : GoodOut s0 (execWaitRelease i s) := by
  unfold execWaitRelease
  with_reducible repeat' (first | assumption | (refine arrives_good (by assumption) ?_) | apply modTile_good
                                | apply noteHolds_good | apply nothing_good | apply modTile_good | apply goodOut_next
                                | apply goodOut_nothing | exact goodOut_fault _ | exact goodOut_refused _ | split
                                | (refine good_fst (by assumption) ?_) | (refine good_snd (by assumption) ?_)
                                | (refine goodOut_eq ?_ (by assumption)) | intro _)
theorem execWptLate_good (p : PasId) (vx : Vx) (vy : Vy) (s : State) (gd : Good s0 s) : GoodOut s0 (execWptLate p vx vy s) := by
  unfold execWptLate
  with_reducible repeat' (first | assumption | apply nothing_good | apply noteCause_good | apply pasEvent_good
                                | apply modPas_good | exact geo_refl _ | exact geo_off _ _ _ | split
                                | (refine good_fst (by assumption) ?_) | (refine good_snd (by assumption) ?_)
                                | apply goodOut_next | apply goodOut_nothing | exact goodOut_fault _
                                | exact goodOut_refused _ | (refine goodOut_eq ?_ (by assumption)) | intro _
                                | dsimp only [id_eq])
theorem execWptTimeout_good (p : PasId) (vx : Vx) (vy : Vy) (s : State) (gd : Good s0 s) : GoodOut s0
    (execWptTimeout p vx vy s) := by
  unfold execWptTimeout
  with_reducible repeat' (first | assumption | apply nothing_good | apply stopPasture_good | apply goodOut_next
                                | apply goodOut_nothing | exact goodOut_fault _ | exact goodOut_refused _ | split
                                | (refine good_fst (by assumption) ?_) | (refine good_snd (by assumption) ?_)
                                | (refine goodOut_eq ?_ (by assumption)) | intro _ | dsimp only [id_eq])

/-! ### Sends -/

theorem setSendStatus_good (s : State) (p n : Nat) (st : Status) (gd : Good s0 s) : Good s0 (State.setSendStatus s p n st) := by
  unfold State.setSendStatus
  with_reducible repeat' (first | assumption | apply modPas_good | apply modPas_good | exact geo_refl _ | split
                                | (refine good_fst (by assumption) ?_) | (refine good_snd (by assumption) ?_) | intro _)
theorem setBalance_good (s : State) (p n v : Nat) (gd : Good s0 s) : Good s0 (State.setBalance s p n v) := by
  unfold State.setBalance
  with_reducible repeat' (first | assumption | apply modPas_good | apply modPas_good | exact geo_refl _ | split
                                | (refine good_fst (by assumption) ?_) | (refine good_snd (by assumption) ?_) | intro _)
theorem doneFlag_good (s : State) (p : Nat) (w : BitVec 256) (gd : Good s0 s) : Good s0 (State.doneFlag s p w) := by
  unfold State.doneFlag
  with_reducible repeat' (first | assumption | apply send_good | split)
theorem failSend_good (s : State) (p n : Nat) (w : BitVec 256) (st : Status) (gd : Good s0 s) : Good s0
    (State.failSend s p n w st) := by
  unfold State.failSend
  with_reducible repeat' (first | assumption | apply setSendStatus_good | apply doneFlag_good | apply modPas_good
                                | apply pasEvent_good | apply modPas_good | exact geo_refl _ | split
                                | (refine good_fst (by assumption) ?_) | (refine good_snd (by assumption) ?_) | intro _)
theorem modSending_good (s : State) (p : Nat) (xfer : BitVec 32) (f : Sending → Sending) (gd : Good s0 s) : Good s0
    (State.modSending s p xfer f) := by
  unfold State.modSending
  with_reducible repeat' (first | assumption | apply modPas_good | apply modPas_good | exact geo_refl _ | split
                                | (refine good_fst (by assumption) ?_) | (refine good_snd (by assumption) ?_) | intro _)
theorem dropSending_good (s : State) (p : Nat) (xfer : BitVec 32) (gd : Good s0 s) : Good s0 (State.dropSending s p xfer) := by
  unfold State.dropSending
  with_reducible repeat' (first | assumption | apply dropWaits_good | apply send_good | apply modPas_good | exact geo_refl _
                                | exact geo_off _ _ _ | split | (refine good_fst (by assumption) ?_)
                                | (refine good_snd (by assumption) ?_) | (refine goodOut_eq ?_ (by assumption)) | intro _
                                | dsimp only [id_eq])
theorem readSource_good (s : State) (p : Nat) (w : BitVec 256) (o n : Nat) (xfer : BitVec 32) (gd : Good s0 s) :
    Good s0 (State.readSource s p w o n xfer).1 := by
  unfold State.readSource
  with_reducible repeat' (first | assumption | apply stackFetch_good | apply sideRead_good | apply send_good | split
                                | (refine good_fst (by assumption) ?_) | (refine good_snd (by assumption) ?_)
                                | (refine goodOut_eq ?_ (by assumption)) | intro _ | dsimp only [id_eq])
theorem takeOseq_good (s : State) (p : Nat) (w : BitVec 256) (gd : Good s0 s) : Good s0 (State.takeOseq s p w).1 := by
  unfold State.takeOseq
  with_reducible repeat' (first | assumption | apply modPas_good | apply modPas_good | exact geo_refl _ | split
                                | (refine good_fst (by assumption) ?_) | (refine good_snd (by assumption) ?_) | intro _)
theorem sendData_good (s : State) (p : Nat) (d : Sending) (o : Nat) (data : List Byte) (gd : Good s0 s) :
    Good s0 (State.sendData s p d o data) := by
  unfold State.sendData
  with_reducible repeat' (first | assumption | apply rankChip_good | apply takeOseq_good | apply emit_good | split
                                | (refine good_fst (by assumption) ?_) | (refine good_snd (by assumption) ?_)
                                | (refine goodOut_eq ?_ (by assumption)) | intro _ | dsimp only [id_eq])
theorem pumpSend_good (s : State) (p : Nat) (xfer : BitVec 32) (y0 : Nat) (gd : Good s0 s) : Good s0
    (State.pumpSend s p xfer y0) := by
  induction y0 generalizing s with
  | zero => exact gd
  | succ n ih =>
    unfold State.pumpSend
    with_reducible repeat' (first | apply ih | assumption | apply modSending_good | apply readSource_good | apply noteRange_good
                                  | apply dropSending_good | apply failSend_good | apply sendData_good | split
                                  | (refine good_fst (by assumption) ?_) | (refine good_snd (by assumption) ?_)
                                  | (refine goodOut_eq ?_ (by assumption)) | intro _ | dsimp only [id_eq])
theorem runSend_good (s : State) (p : Nat) (xfer : BitVec 32) (gd : Good s0 s) : Good s0 (State.runSend s p xfer) := by
  unfold State.runSend
  with_reducible repeat' (first | assumption | apply pumpSend_good | split)
theorem runSends_good (s : State) (p : Nat) (gd : Good s0 s) : Good s0 (State.runSends s p) := by
  unfold State.runSends
  with_reducible repeat' (first | assumption | apply runSend_good | (apply good_foldl; intro _ _ _))
theorem requestCredit_good (s : State) (p : Nat) (d : Sending) (rank units : Nat) (gd : Good s0 s) : Good s0
    (State.requestCredit s p d rank units) := by
  unfold State.requestCredit
  with_reducible repeat' (first | assumption | apply rankChip_good | apply emitControl_good | split
                                | (refine good_fst (by assumption) ?_))
theorem droveRecord_good (s : State) (p : Nat) (r : DroveRecord) (gd : Good s0 s) : Good s0 (State.droveRecord s p r) := by
  unfold State.droveRecord
  with_reducible repeat' (first | assumption | apply modPas_good | apply modPas_good | exact geo_refl _ | split
                                | (refine good_fst (by assumption) ?_) | (refine good_snd (by assumption) ?_) | intro _)
theorem settleDrove_good (s : State) (p : Nat) (d : Sending) (delivered failed : List (BitVec 12)) (fails : Option Status) (gd
    : Good s0 s) : Good s0 (State.settleDrove s p d delivered failed fails) := by
  unfold State.settleDrove
  with_reducible repeat' (first | assumption | apply dropSending_good | apply droveRecord_good | apply pasEvent_good
                                | apply failSend_good | apply setSendStatus_good | apply doneFlag_good | split)
theorem failDrove_good (s : State) (p : Nat) (d : Sending) (gd : Good s0 s) : Good s0 (State.failDrove s p d) := by
  unfold State.failDrove
  with_reducible repeat' (first | assumption | apply rankChip_good | apply emitControl_good | apply settleDrove_good
                                | (apply good_foldl; intro _ _ _) | split | (refine good_fst (by assumption) ?_))
theorem grantBalance_good (s : State) (p : Nat) (d : Sending) (units : Nat) (gd : Good s0 s) : Good s0
    (State.grantBalance s p d units) := by
  unfold State.grantBalance
  with_reducible repeat' (first | assumption | apply setBalance_good | apply modPas_good | apply dropSending_good
                                | apply setSendStatus_good | apply doneFlag_good | apply send_good | apply modPas_good
                                | exact geo_refl _ | split | (refine good_fst (by assumption) ?_)
                                | (refine good_snd (by assumption) ?_) | intro _)
theorem goDrove_good (s : State) (p : Nat) (d : Sending) (gd : Good s0 s) : Good s0 (State.goDrove s p d) := by
  unfold State.goDrove
  with_reducible repeat' (first | assumption | apply settleDrove_good | apply grantBalance_good | apply modSending_good
                                | apply runSend_good | split | (refine good_fst (by assumption) ?_)
                                | (refine good_snd (by assumption) ?_) | (refine goodOut_eq ?_ (by assumption)) | intro _
                                | dsimp only [id_eq])
theorem checkDrove_good (s : State) (p : Nat) (xfer : BitVec 32) (gd : Good s0 s) : Good s0 (State.checkDrove s p xfer) := by
  unfold State.checkDrove
  with_reducible repeat' (first | assumption | apply failDrove_good | apply goDrove_good | split
                                | (refine good_fst (by assumption) ?_) | (refine good_snd (by assumption) ?_)
                                | (refine goodOut_eq ?_ (by assumption)) | intro _ | dsimp only [id_eq])
theorem checkDone_good (s : State) (p : Nat) (xfer : BitVec 32) (gd : Good s0 s) : Good s0 (State.checkDone s p xfer) := by
  unfold State.checkDone
  with_reducible repeat' (first | assumption | apply settleDrove_good | split)
theorem takeTag_good (s : State) (p : Nat) (gd : Good s0 s) : Good s0 (State.takeTag s p).1 := by
  unfold State.takeTag
  with_reducible repeat' (first | assumption | apply modPas_good | apply modPas_good | exact geo_refl _ | split
                                | (refine good_fst (by assumption) ?_) | (refine good_snd (by assumption) ?_) | intro _)
theorem addSending_good (s : State) (p : Nat) (d : Sending) (gd : Good s0 s) : Good s0 (State.addSending s p d) := by
  unfold State.addSending
  with_reducible repeat' (first | assumption | apply modPas_good | apply modPas_good | exact geo_refl _ | split
                                | (refine good_fst (by assumption) ?_) | (refine good_snd (by assumption) ?_) | intro _)
theorem startDrove_good (s : State) (p n : Nat) (w : BitVec 256) (gd : Good s0 s) : Good s0 (State.startDrove s p n w) := by
  unfold State.startDrove
  with_reducible repeat' (first | assumption | apply takeTag_good | apply addSending_good | apply requestCredit_good
                                | apply checkDrove_good | (apply good_foldl; intro _ _ _)
                                | (apply good_foldl_fst; intro _ _ _) | (apply good_foldl_snd; intro _ _ _) | split
                                | (refine good_fst (by assumption) ?_) | (refine good_snd (by assumption) ?_)
                                | (refine goodOut_eq ?_ (by assumption)) | intro _ | dsimp only [id_eq])
theorem startPrepaid_good (s : State) (p n : Nat) (w : BitVec 256) (gd : Good s0 s) : Good s0 (State.startPrepaid s p n w) := by
  unfold State.startPrepaid
  with_reducible repeat' (first | assumption | apply stopPasture_good | apply takeTag_good | apply setBalance_good
                                | apply addSending_good | apply settleDrove_good | apply runSend_good | apply modPas_good
                                | exact geo_refl _ | exact geo_off _ _ _ | split | (refine good_fst (by assumption) ?_)
                                | (refine good_snd (by assumption) ?_) | (refine goodOut_eq ?_ (by assumption)) | intro _
                                | dsimp only [id_eq])
theorem startSend_good (s : State) (p n : Nat) (gd : Good s0 s) : Good s0 (State.startSend s p n) := by
  unfold State.startSend
  with_reducible repeat' (first | assumption | apply failSend_good | apply startPrepaid_good | apply startDrove_good
                                | apply rankChip_good | apply takeTag_good | apply addSending_good | apply requestCredit_good
                                | split | (refine good_fst (by assumption) ?_) | (refine good_snd (by assumption) ?_)
                                | (refine goodOut_eq ?_ (by assumption)) | intro _ | dsimp only [id_eq])
theorem execCreditGrant_good (i : Nat) (s : State) (gd : Good s0 s) : GoodOut s0 (execCreditGrant i s) := by
  unfold execCreditGrant
  with_reducible repeat' (first | assumption | (refine takePacket_good (by assumption) ?_) | apply nothing_good
                                | apply modSending_good | apply checkDrove_good | apply grantBalance_good | apply runSend_good
                                | apply goodOut_next | apply goodOut_nothing | exact goodOut_fault _ | exact goodOut_refused _
                                | split)
theorem failMember_good (s : State) (p : Nat) (d : Sending) (r : BitVec 12) (gd : Good s0 s) : Good s0
    (State.failMember s p d r) := by
  unfold State.failMember
  with_reducible repeat' (first | assumption | apply modSending_good | apply checkDrove_good | apply checkDone_good)
theorem execNak_good (i : Nat) (s : State) (gd : Good s0 s) : GoodOut s0 (execNak i s) := by
  unfold execNak
  with_reducible repeat' (first | assumption | apply nothing_good | apply failMember_good | apply runSends_good
                                | apply dropSending_good | apply failSend_good | (refine takePacket_good (by assumption) ?_)
                                | split | (refine good_fst (by assumption) ?_) | (refine good_snd (by assumption) ?_)
                                | apply goodOut_next | apply goodOut_nothing | exact goodOut_fault _
                                | exact goodOut_refused _ | (refine goodOut_eq ?_ (by assumption)) | intro _
                                | dsimp only [id_eq])
theorem execDone_good (i : Nat) (s : State) (gd : Good s0 s) : GoodOut s0 (execDone i s) := by
  unfold execDone
  with_reducible repeat' (first | assumption | (refine takePacket_good (by assumption) ?_) | apply nothing_good
                                | apply modSending_good | apply runSends_good | apply checkDone_good | apply dropSending_good
                                | apply setSendStatus_good | apply doneFlag_good | apply goodOut_next | apply goodOut_nothing
                                | exact goodOut_fault _ | exact goodOut_refused _ | split)
theorem execDataAck_good (i : Nat) (s : State) (gd : Good s0 s) : GoodOut s0 (execDataAck i s) := by
  unfold execDataAck
  with_reducible repeat' (first | assumption | (refine takePacket_good (by assumption) ?_) | apply nothing_good
                                | apply modSending_good | apply runSends_good | apply goodOut_next | apply goodOut_nothing
                                | exact goodOut_fault _ | exact goodOut_refused _ | split)
theorem execCreditReqRepeat_good (p : PasId) (n : Byte) (s : State) (gd : Good s0 s) : GoodOut s0
    (execCreditReqRepeat p n s) := by
  unfold execCreditReqRepeat
  with_reducible repeat' (first | assumption | apply nothing_good | apply requestCredit_good | apply modSending_good
                                | apply goodOut_next | apply goodOut_nothing | exact goodOut_fault _ | exact goodOut_refused _
                                | (apply good_foldl; intro _ _ _) | split | (refine good_fst (by assumption) ?_)
                                | (refine good_snd (by assumption) ?_) | (refine goodOut_eq ?_ (by assumption)) | intro _
                                | dsimp only [id_eq])
theorem execSendSourceDone_good (p : PasId) (n : Byte) (s : State) (gd : Good s0 s) : GoodOut s0 (execSendSourceDone p n s) := by
  unfold execSendSourceDone
  with_reducible repeat' (first | assumption | apply nothing_good | apply modSending_good | apply send_good
                                | apply goodOut_next | apply goodOut_nothing | exact goodOut_fault _ | exact goodOut_refused _
                                | split)
theorem execDoneTimeout_good (p : PasId) (n : Byte) (s : State) (gd : Good s0 s) : GoodOut s0 (execDoneTimeout p n s) := by
  unfold execDoneTimeout
  with_reducible repeat' (first | assumption | apply nothing_good | apply settleDrove_good | apply runSends_good
                                | apply dropSending_good | apply failSend_good | split | (refine good_fst (by assumption) ?_)
                                | (refine good_snd (by assumption) ?_) | apply goodOut_next | apply goodOut_nothing
                                | exact goodOut_fault _ | exact goodOut_refused _ | (refine goodOut_eq ?_ (by assumption))
                                | intro _ | dsimp only [id_eq])
theorem execDroveTimeout_good (p : PasId) (n : Byte) (s : State) (gd : Good s0 s) : GoodOut s0 (execDroveTimeout p n s) := by
  unfold execDroveTimeout
  with_reducible repeat' (first | assumption | apply nothing_good | apply failDrove_good | apply modSending_good
                                | apply goDrove_good | apply goodOut_next | apply goodOut_nothing | exact goodOut_fault _
                                | exact goodOut_refused _ | split | (refine good_fst (by assumption) ?_)
                                | (refine good_snd (by assumption) ?_) | (refine goodOut_eq ?_ (by assumption)) | intro _
                                | dsimp only [id_eq])
theorem resetSends_good (s : State) (p : Nat) (gd : Good s0 s) : Good s0 (State.resetSends s p) := by
  unfold State.resetSends
  with_reducible repeat' (first | assumption | apply modPas_good | apply modPas_good | exact geo_refl _ | split
                                | (refine good_fst (by assumption) ?_) | (refine good_snd (by assumption) ?_) | intro _)

/-! ### Flags -/

theorem issueFlag_good (s : State) (k a : Nat) (act : State → Nat → Nat → State)
    (ha : ∀ s p n, Good s0 s → Good s0 (act s p n)) (gd : Good s0 s) : GoodOut s0 (s.issueFlag k a act) := by
  refine issueDesc_good s k _ _ (fun s ws gs => ?_) gd
  with_reducible repeat' (first | assumption | apply ha | apply issueTile_good | apply goodOut_next | apply goodOut_nothing
                                | split | (refine good_fst (by assumption) ?_) | intro _ | dsimp only [id_eq])
theorem execFlagSet_good (vx : Vx) (vy : Vy) (s : State) (gd : Good s0 s) : GoodOut s0 (execFlagSet vx vy s) := by
  unfold execFlagSet
  with_reducible repeat' (first | assumption | apply issueFlag_good | apply send_good | apply goodOut_next
                                | apply goodOut_nothing | exact goodOut_fault _ | exact goodOut_refused _ | split
                                | (refine good_fst (by assumption) ?_) | (refine good_snd (by assumption) ?_) | intro _)
theorem execFlagClear_good (vx : Vx) (vy : Vy) (s : State) (gd : Good s0 s) : GoodOut s0 (execFlagClear vx vy s) := by
  unfold execFlagClear
  with_reducible repeat' (first | assumption | apply issueFlag_good | apply send_good | apply goodOut_next
                                | apply goodOut_nothing | exact goodOut_fault _ | exact goodOut_refused _ | split
                                | (refine good_fst (by assumption) ?_) | (refine good_snd (by assumption) ?_) | intro _)
theorem holdFlag_good (s : State) (k p n : Nat) (wantSet : Bool) (gd : Good s0 s) : Good s0 (State.holdFlag s k p n wantSet) := by
  unfold State.holdFlag
  with_reducible repeat' (first | assumption | apply modTile_good | apply send_good | apply noteHolds_good
                                | apply modTile_good | split | (refine good_fst (by assumption) ?_)
                                | (refine good_snd (by assumption) ?_) | intro _)
theorem execFlagHoldSet_good (vx : Vx) (vy : Vy) (s : State) (gd : Good s0 s) : GoodOut s0 (execFlagHoldSet vx vy s) := by
  unfold execFlagHoldSet
  with_reducible repeat' (first | assumption | apply issueFlag_good | apply holdFlag_good | apply goodOut_next
                                | apply goodOut_nothing | exact goodOut_fault _ | exact goodOut_refused _ | split
                                | (refine good_fst (by assumption) ?_) | (refine good_snd (by assumption) ?_) | intro _)
theorem execFlagHoldClear_good (vx : Vx) (vy : Vy) (s : State) (gd : Good s0 s) : GoodOut s0 (execFlagHoldClear vx vy s) := by
  unfold execFlagHoldClear
  with_reducible repeat' (first | assumption | apply issueFlag_good | apply holdFlag_good | apply goodOut_next
                                | apply goodOut_nothing | exact goodOut_fault _ | exact goodOut_refused _ | split
                                | (refine good_fst (by assumption) ?_) | (refine good_snd (by assumption) ?_) | intro _)
theorem Pasture.setFlag_geo {z : Pasture} (x : Pasture) (n : Nat) (on : Bool) (h : GeoLe z x) : GeoLe z
    (Pasture.setFlag x n on) := by
  unfold Pasture.setFlag
  with_reducible repeat' (first | assumption)
theorem releaseFlag_good (s : State) (p n : Nat) (on : Bool) (gd : Good s0 s) : Good s0 (State.releaseFlag s p n on) := by
  unfold State.releaseFlag
  with_reducible repeat' (first | assumption | apply send_good | apply modPas_good | apply modPas_good | exact geo_refl _
                                | (apply good_foldl; intro _ _ _) | split | (refine good_fst (by assumption) ?_)
                                | (refine good_snd (by assumption) ?_) | intro _)
theorem tileFlag_good (s : State) (p n : Nat) (on : Bool) (gd : Good s0 s) : Good s0 (State.tileFlag s p n on) := by
  unfold State.tileFlag
  with_reducible repeat' (first | assumption | apply modPas_good | apply signal_good | apply swapRanks_good
                                | apply swapRoutes_good | apply modPas_good | exact geo_refl _ | split
                                | (refine good_fst (by assumption) ?_) | (refine good_snd (by assumption) ?_) | intro _
                                | dsimp only [id_eq])
theorem changeFlag_good (s : State) (p n : Nat) (on byTile : Bool) (gd : Good s0 s) : Good s0
    (State.changeFlag s p n on byTile) := by
  unfold State.changeFlag
  with_reducible repeat' (first | assumption | apply modPas_good | apply releaseFlag_good | apply tileFlag_good
                                | apply startSend_good | apply Pasture.setFlag_geo | apply modPas_good | exact geo_refl _
                                | split | (refine good_fst (by assumption) ?_) | (refine good_snd (by assumption) ?_) | intro _)
theorem execFlagChange_good (i : Nat) (s : State) (gd : Good s0 s) : GoodOut s0 (execFlagChange i s) := by
  unfold execFlagChange
  with_reducible repeat' (first | assumption | (refine arrives_good (by assumption) ?_) | apply changeFlag_good
                                | apply nothing_good | apply goodOut_next | apply goodOut_nothing | exact goodOut_fault _
                                | exact goodOut_refused _ | split)
theorem execFlagWaitArrive_good (i : Nat) (s : State) (gd : Good s0 s) : GoodOut s0 (execFlagWaitArrive i s) := by
  unfold execFlagWaitArrive
  with_reducible repeat' (first | assumption | (refine arrives_good (by assumption) ?_) | apply send_good | apply modPas_good
                                | apply nothing_good | apply modPas_good | exact geo_refl _ | apply goodOut_next
                                | apply goodOut_nothing | exact goodOut_fault _ | exact goodOut_refused _ | split
                                | (refine good_fst (by assumption) ?_) | (refine good_snd (by assumption) ?_)
                                | (refine goodOut_eq ?_ (by assumption)) | intro _)
theorem execFlagRelease_good (i : Nat) (s : State) (gd : Good s0 s) : GoodOut s0 (execFlagRelease i s) := by
  unfold execFlagRelease
  with_reducible repeat' (first | assumption | (refine arrives_good (by assumption) ?_) | apply modTile_good
                                | apply noteHolds_good | apply nothing_good | apply modTile_good | apply goodOut_next
                                | apply goodOut_nothing | exact goodOut_fault _ | exact goodOut_refused _ | split
                                | (refine good_fst (by assumption) ?_) | (refine good_snd (by assumption) ?_)
                                | (refine goodOut_eq ?_ (by assumption)) | intro _)
theorem hostFlags_good (s : State) (p n : Nat) (value : Word) (on : Bool) (gd : Good s0 s) : Good s0
    (State.hostFlags s p n value on) := by
  unfold State.hostFlags
  with_reducible repeat' (first | assumption | apply send_good | (apply good_foldl; intro _ _ _))
theorem execHostFlagSet_good (fn : FnId) (p : PasId) (n : Fin 4) (value : Word) (s : State) (gd : Good s0 s) : GoodOut s0
    (execHostFlagSet fn p n value s) := by
  unfold execHostFlagSet
  with_reducible repeat' (first | assumption | apply hostFlags_good | apply nothing_good | apply goodOut_next
                                | apply goodOut_nothing | exact goodOut_fault _ | exact goodOut_refused _ | split)
theorem execHostFlagClr_good (fn : FnId) (p : PasId) (n : Fin 4) (value : Word) (s : State) (gd : Good s0 s) : GoodOut s0
    (execHostFlagClr fn p n value s) := by
  unfold execHostFlagClr
  with_reducible repeat' (first | assumption | apply hostFlags_good | apply nothing_good | apply goodOut_next
                                | apply goodOut_nothing | exact goodOut_fault _ | exact goodOut_refused _ | split)

/-! ### LinkTrain -/

theorem markSent_good (s : State) (r : Nat) (gd : Good s0 s) : Good s0 (State.markSent s r) := by
  unfold State.markSent
  with_reducible repeat' (first | assumption | apply modPort_good | (apply good_foldl; intro _ _ _)
                                | (apply good_foldl_fst; intro _ _ _) | (apply good_foldl_snd; intro _ _ _) | split
                                | (refine good_fst (by assumption) ?_) | (refine good_snd (by assumption) ?_)
                                | (refine goodOut_eq ?_ (by assumption)) | intro _ | dsimp only [id_eq])
theorem markMembers_good (s : State) (old new : BitVec 20) (gd : Good s0 s) : Good s0 (State.markMembers s old new) := by
  unfold State.markMembers
  with_reducible repeat' (first | assumption | apply markSent_good | (apply good_foldl; intro _ _ _)
                                | (apply good_foldl_fst; intro _ _ _) | (apply good_foldl_snd; intro _ _ _) | split
                                | (refine good_fst (by assumption) ?_) | (refine good_snd (by assumption) ?_)
                                | (refine goodOut_eq ?_ (by assumption)) | intro _ | dsimp only [id_eq])
theorem settlePlan_good (s : State) (gd : Good s0 s) : Good s0 (State.settlePlan s) := by
  unfold State.settlePlan
  with_reducible repeat' (first | assumption | apply markMembers_good | apply alert_good | (apply good_foldl; intro _ _ _)
                                | (apply good_foldl_fst; intro _ _ _) | (apply good_foldl_snd; intro _ _ _) | split
                                | (refine good_fst (by assumption) ?_) | (refine good_snd (by assumption) ?_)
                                | (refine goodOut_eq ?_ (by assumption)) | intro _ | dsimp only [id_eq])
theorem noteLost_good (s : State) (role : Nat) (gd : Good s0 s) : Good s0 (State.noteLost s role) := by
  unfold State.noteLost
  with_reducible repeat' (first | assumption | apply alert_good | split | (refine good_fst (by assumption) ?_)
                                | (refine good_snd (by assumption) ?_) | (refine goodOut_eq ?_ (by assumption)) | intro _
                                | dsimp only [id_eq])
theorem releaseRole_good (s : State) (n role : Nat) (gd : Good s0 s) : Good s0 (State.releaseRole s n role) := by
  unfold State.releaseRole
  with_reducible repeat' (first | assumption | apply settlePlan_good | apply noteLost_good | apply rehome_good
                                | apply recheckOrd_good | apply retryMembers_good | apply modPort_good | split
                                | (refine good_fst (by assumption) ?_) | (refine good_snd (by assumption) ?_)
                                | (refine goodOut_eq ?_ (by assumption)) | intro _ | dsimp only [id_eq])
theorem pagesLost_good (s : State) (link : Nat) (gd : Good s0 s) : Good s0 (State.pagesLost s link) := by
  unfold State.pagesLost
  with_reducible repeat' (first | assumption | split | (refine good_fst (by assumption) ?_)
                                | (refine good_snd (by assumption) ?_) | (refine goodOut_eq ?_ (by assumption)) | intro _
                                | dsimp only [id_eq])
theorem downPort_good (s : State) (n : Nat) (gd : Good s0 s) : Good s0 (State.downPort s n) := by
  unfold State.downPort
  with_reducible repeat' (first | assumption | apply portEvent_good | apply noteCauseAll_good | apply settlePlan_good
                                | apply noteLost_good | apply pagesLost_good | apply rehome_good | apply recheckOrd_good
                                | apply retryMembers_good | apply putPort_good | split | (refine good_fst (by assumption) ?_)
                                | (refine good_snd (by assumption) ?_) | (refine goodOut_eq ?_ (by assumption)) | intro _
                                | dsimp only [id_eq])
theorem moveXfers_good (s : State) (n : Nat) (gd : Good s0 s) : Good s0 (State.moveXfers s n) := by
  unfold State.moveXfers
  with_reducible repeat' (first | assumption | apply pumpPort_good | apply modPort_good | split
                                | (refine good_fst (by assumption) ?_) | (refine good_snd (by assumption) ?_)
                                | (refine goodOut_eq ?_ (by assumption)) | intro _ | dsimp only [id_eq])
theorem askRetrain_good (s : State) (n : Nat) (gd : Good s0 s) : Good s0 (State.askRetrain s n) := by
  unfold State.askRetrain
  with_reducible repeat' (first | assumption | apply modPort_good | split | (refine good_fst (by assumption) ?_)
                                | (refine good_snd (by assumption) ?_) | (refine goodOut_eq ?_ (by assumption)) | intro _
                                | dsimp only [id_eq])
theorem startRetrain_good (s : State) (n : Nat) (gd : Good s0 s) : Good s0 (State.startRetrain s n) := by
  unfold State.startRetrain
  with_reducible repeat' (first | assumption | apply moveXfers_good | apply settlePlan_good | apply modPort_good | split
                                | (refine good_fst (by assumption) ?_) | (refine good_snd (by assumption) ?_)
                                | (refine goodOut_eq ?_ (by assumption)) | intro _ | dsimp only [id_eq])
theorem execLinkRetrain_good (n : PortId) (s : State) (gd : Good s0 s) : GoodOut s0 (execLinkRetrain n s) := by
  unfold execLinkRetrain
  with_reducible repeat' (first | assumption | apply askRetrain_good | apply startRetrain_good | split
                                | (refine good_fst (by assumption) ?_) | (refine good_snd (by assumption) ?_)
                                | apply goodOut_next | apply goodOut_nothing | exact goodOut_fault _
                                | exact goodOut_refused _ | (refine goodOut_eq ?_ (by assumption)) | intro _
                                | dsimp only [id_eq])
theorem execRetrainRequest_good (n : PortId) (s : State) (gd : Good s0 s) : GoodOut s0 (execRetrainRequest n s) := by
  unfold execRetrainRequest
  with_reducible repeat' (first | assumption | apply startRetrain_good | apply nothing_good | apply goodOut_next
                                | apply goodOut_nothing | exact goodOut_fault _ | exact goodOut_refused _ | split)
theorem trainFail_good (s : State) (n : Nat) (gd : Good s0 s) : Good s0 (State.trainFail s n) := by
  unfold State.trainFail
  with_reducible repeat' (first | assumption | apply putPort_good | apply step_good | apply portEvent_good
                                | apply downPort_good | apply modPort_good | apply modPort_good | apply putPort_good | split
                                | (refine good_fst (by assumption) ?_) | (refine good_snd (by assumption) ?_) | intro _
                                | dsimp only [id_eq])
theorem execLinkDetect_good (n : PortId) (signal : Byte) (s : State) (gd : Good s0 s) : GoodOut s0
    (execLinkDetect n signal s) := by
  unfold execLinkDetect
  with_reducible repeat' (first | assumption | apply step_good | apply nothing_good | apply modPort_good | apply downPort_good
                                | apply modPort_good | apply goodOut_next | apply goodOut_nothing | exact goodOut_fault _
                                | exact goodOut_refused _ | split | (refine good_fst (by assumption) ?_)
                                | (refine good_snd (by assumption) ?_) | intro _ | dsimp only [id_eq])
theorem execLinkLanes_good (n : PortId) (failed polInv : Byte) (reversed : Bool) (s : State) (gd : Good s0 s) :
    GoodOut s0 (execLinkLanes n failed polInv reversed s) := by
  unfold execLinkLanes
  with_reducible repeat' (first | assumption | apply nothing_good | apply modPort_good | split
                                | (refine good_fst (by assumption) ?_) | (refine good_snd (by assumption) ?_)
                                | apply goodOut_next | apply goodOut_nothing | exact goodOut_fault _
                                | exact goodOut_refused _ | (refine goodOut_eq ?_ (by assumption)) | intro _
                                | dsimp only [id_eq])
theorem execLinkEqualise_good (n : PortId) (failed : Byte) (s : State) (gd : Good s0 s) : GoodOut s0
    (execLinkEqualise n failed s) := by
  unfold execLinkEqualise
  with_reducible repeat' (first | assumption | apply step_good | apply nothing_good | apply modPort_good | apply modPort_good
                                | apply goodOut_next | apply goodOut_nothing | exact goodOut_fault _ | exact goodOut_refused _
                                | split | (refine good_fst (by assumption) ?_) | (refine good_snd (by assumption) ?_)
                                | intro _ | dsimp only [id_eq])
theorem execLinkWidth_good (n : PortId) (checkOk : Bool) (s : State) (gd : Good s0 s) : GoodOut s0
    (execLinkWidth n checkOk s) := by
  unfold execLinkWidth
  with_reducible repeat' (first | assumption | apply step_good | apply nothing_good | apply trainFail_good
                                | apply modPort_good | apply modPort_good | apply goodOut_next | apply goodOut_nothing
                                | exact goodOut_fault _ | exact goodOut_refused _ | split
                                | (refine good_fst (by assumption) ?_) | (refine good_snd (by assumption) ?_)
                                | (refine goodOut_eq ?_ (by assumption)) | intro _ | dsimp only [id_eq])
theorem execLinkIdentify_good (n : PortId) (record : Option (List Byte)) (s : State) (gd : Good s0 s) :
    GoodOut s0 (execLinkIdentify n record s) := by
  unfold execLinkIdentify
  with_reducible repeat' (first | assumption | apply nothing_good | apply trainFail_good | apply modPort_good | split
                                | (refine good_fst (by assumption) ?_) | (refine good_snd (by assumption) ?_)
                                | apply goodOut_next | apply goodOut_nothing | exact goodOut_fault _
                                | exact goodOut_refused _ | (refine goodOut_eq ?_ (by assumption)) | intro _
                                | dsimp only [id_eq])
theorem takeRole_good (s : State) (n r : Nat) (gd : Good s0 s) : Good s0 (State.takeRole s n r) := by
  unfold State.takeRole
  with_reducible repeat' (first | assumption | apply modPort_good | apply noteCauseAll_good | apply portEvent_good
                                | apply modPort_good | split | (refine good_fst (by assumption) ?_)
                                | (refine good_snd (by assumption) ?_) | intro _ | dsimp only [id_eq])
theorem withoutRole_good (s : State) (n : Nat) (st : PortState) (ev : Status) (gd : Good s0 s) : Good s0
    (State.withoutRole s n st ev) := by
  unfold State.withoutRole
  with_reducible repeat' (first | assumption | apply modPort_good | apply portEvent_good)
theorem evict_good (s : State) (n r : Nat) (gd : Good s0 s) : Good s0 (State.evict s n r) := by
  unfold State.evict
  with_reducible repeat' (first | assumption | apply withoutRole_good | apply modPort_good | apply modPort_good | split)
theorem compareFrom_good (s : State) (n before : Nat) (gd : Good s0 s) : Good s0 (State.compareFrom s n before) := by
  unfold State.compareFrom
  with_reducible repeat' (first | assumption | apply withoutRole_good | apply evict_good | apply takeRole_good
                                | apply portEvent_good | apply releaseRole_good | apply settlePlan_good | apply pumpPort_good
                                | apply retryHeld_good | apply recheckOrd_good | apply modPort_good | split
                                | (refine good_fst (by assumption) ?_) | (refine good_snd (by assumption) ?_)
                                | (refine goodOut_eq ?_ (by assumption)) | intro _ | dsimp only [id_eq])
theorem compare_good (s : State) (n : Nat) (gd : Good s0 s) : Good s0 (State.compare s n) := by
  unfold State.compare
  with_reducible repeat' (first | assumption | apply compareFrom_good | split | (refine good_fst (by assumption) ?_)
                                | (refine good_snd (by assumption) ?_) | (refine goodOut_eq ?_ (by assumption)) | intro _
                                | dsimp only [id_eq])
theorem compareAll_good (s : State) (gd : Good s0 s) : Good s0 (State.compareAll s) := by
  unfold State.compareAll
  with_reducible repeat' (first | assumption | apply compareFrom_good | apply sendMgmt_good | apply modPort_good
                                | (apply good_foldl; intro _ _ _) | (apply good_foldl_fst; intro _ _ _)
                                | (apply good_foldl_snd; intro _ _ _) | split | (refine good_fst (by assumption) ?_)
                                | (refine good_snd (by assumption) ?_) | (refine goodOut_eq ?_ (by assumption)) | intro _
                                | dsimp only [id_eq])
theorem execLinkCompare_good (n : PortId) (s : State) (gd : Good s0 s) : GoodOut s0 (execLinkCompare n s) := by
  unfold execLinkCompare
  with_reducible repeat' (first | assumption | apply compare_good | apply nothing_good | apply modPort_good | split
                                | (refine good_fst (by assumption) ?_) | (refine good_snd (by assumption) ?_)
                                | apply goodOut_next | apply goodOut_nothing | exact goodOut_fault _
                                | exact goodOut_refused _ | (refine goodOut_eq ?_ (by assumption)) | intro _
                                | dsimp only [id_eq])
theorem execPlanCommit_good (s : State) (gd : Good s0 s) : GoodOut s0 (execPlanCommit s) := by
  unfold execPlanCommit
  with_reducible repeat' (first | assumption | apply pkgEvent_good | apply compareAll_good | apply settlePlan_good | split
                                | (refine good_fst (by assumption) ?_) | (refine good_snd (by assumption) ?_)
                                | apply goodOut_next | apply goodOut_nothing | exact goodOut_fault _
                                | exact goodOut_refused _ | (refine goodOut_eq ?_ (by assumption)) | intro _
                                | dsimp only [id_eq])
theorem execPlanWaitExpiry_good (s : State) (gd : Good s0 s) : GoodOut s0 (execPlanWaitExpiry s) := by
  unfold execPlanWaitExpiry
  with_reducible repeat' (first | assumption | apply nothing_good | apply pkgEvent_good | apply alert_good
                                | apply goodOut_next | apply goodOut_nothing | exact goodOut_fault _ | exact goodOut_refused _
                                | (apply good_foldl; intro _ _ _) | split)
theorem execLportWrite_good (m : Fin 16) (value : BitVec 18) (s : State) (gd : Good s0 s) :
    GoodOut s0 (execLportWrite m value s) := by
  unfold execLportWrite
  with_reducible repeat' (first | assumption | apply pkgEvent_good | apply markSent_good | apply retryHeld_good
                                | (apply good_foldl; intro _ _ _) | (apply good_foldl_fst; intro _ _ _)
                                | (apply good_foldl_snd; intro _ _ _) | split | (refine good_fst (by assumption) ?_)
                                | (refine good_snd (by assumption) ?_) | apply goodOut_next | apply goodOut_nothing
                                | exact goodOut_fault _ | exact goodOut_refused _ | (refine goodOut_eq ?_ (by assumption))
                                | intro _ | dsimp only [id_eq])
theorem disablePort_good (s : State) (n : Nat) (on : Bool) (gd : Good s0 s) : Good s0 (State.disablePort s n on) := by
  unfold State.disablePort
  with_reducible repeat' (first | assumption | apply downPort_good | apply modPort_good | split
                                | (refine good_fst (by assumption) ?_) | (refine good_snd (by assumption) ?_)
                                | (refine goodOut_eq ?_ (by assumption)) | intro _ | dsimp only [id_eq])

/-! ### Links -/

theorem replay_good (s : State) (n : Nat) (gd : Good s0 s) : Good s0 (State.replay s n) := by
  unfold State.replay
  with_reducible repeat' (first | assumption | apply portEvent_good | apply askRetrain_good | apply startRetrain_good
                                | apply putPort_good | split | (refine good_fst (by assumption) ?_)
                                | (refine good_snd (by assumption) ?_) | (refine goodOut_eq ?_ (by assumption)) | intro _
                                | dsimp only [id_eq])
theorem nakked_good (s : State) (n : Nat) (ack : BitVec 10) (gd : Good s0 s) : Good s0 (State.nakked s n ack) := by
  unfold State.nakked
  with_reducible repeat' (first | assumption | apply modPort_good | apply replay_good | apply modPort_good | split
                                | (refine good_fst (by assumption) ?_) | (refine good_snd (by assumption) ?_) | intro _
                                | dsimp only [id_eq])
theorem execLinkNak_good (n : PortId) (ack : BitVec 10) (s : State) (gd : Good s0 s) : GoodOut s0 (execLinkNak n ack s) := by
  unfold execLinkNak
  with_reducible repeat' (first | assumption | apply nakked_good | apply pumpPort_good | apply retryMembers_good
                                | apply nothing_good | split | (refine good_fst (by assumption) ?_)
                                | (refine good_snd (by assumption) ?_) | apply goodOut_next | apply goodOut_nothing
                                | exact goodOut_fault _ | exact goodOut_refused _ | (refine goodOut_eq ?_ (by assumption))
                                | intro _ | dsimp only [id_eq])
theorem execAckTimeout_good (n : PortId) (s : State) (gd : Good s0 s) : GoodOut s0 (execAckTimeout n s) := by
  unfold execAckTimeout
  with_reducible repeat' (first | assumption | apply replay_good | apply nothing_good | apply goodOut_next
                                | apply goodOut_nothing | exact goodOut_fault _ | exact goodOut_refused _ | split
                                | (refine good_fst (by assumption) ?_) | (refine good_snd (by assumption) ?_) | intro _
                                | dsimp only [id_eq])
theorem setWidth_good (s : State) (n : Nat) (g : Byte) (gd : Good s0 s) : Good s0 (State.setWidth s n g) := by
  unfold State.setWidth
  with_reducible repeat' (first | assumption | apply portEvent_good | apply noteCauseAll_good | apply recheckOrd_good
                                | apply modPort_good | apply putPort_good | apply good_keepTiles
                                | (apply good_foldl; intro _ _ _) | (apply good_foldl_fst; intro _ _ _)
                                | (apply good_foldl_snd; intro _ _ _) | split | (refine good_fst (by assumption) ?_)
                                | (refine good_snd (by assumption) ?_) | (refine goodOut_eq ?_ (by assumption)) | intro _
                                | dsimp only [id_eq])
theorem execLaneLost_good (n : PortId) (lane : Fin 8) (bothDirections : Bool) (s : State) (gd : Good s0 s) :
    GoodOut s0 (execLaneLost n lane bothDirections s) := by
  unfold execLaneLost
  with_reducible repeat' (first | assumption | apply nothing_good | apply downPort_good | apply startRetrain_good
                                | apply setWidth_good | apply putPort_good | apply modPort_good | split
                                | (refine good_fst (by assumption) ?_) | (refine good_snd (by assumption) ?_)
                                | apply goodOut_next | apply goodOut_nothing | exact goodOut_fault _
                                | exact goodOut_refused _ | (refine goodOut_eq ?_ (by assumption)) | intro _
                                | dsimp only [id_eq])
theorem degradeTo_good (s : State) (n : Nat) (g : Byte) (gd : Good s0 s) : Good s0 (State.degradeTo s n g) := by
  unfold State.degradeTo
  with_reducible repeat' (first | assumption | apply setWidth_good | apply modPort_good | split
                                | (refine good_fst (by assumption) ?_) | (refine good_snd (by assumption) ?_)
                                | (refine goodOut_eq ?_ (by assumption)) | intro _ | dsimp only [id_eq])
theorem execDegrade_good (n : PortId) (lanes : Byte) (s : State) (gd : Good s0 s) : GoodOut s0 (execDegrade n lanes s) := by
  unfold execDegrade
  with_reducible repeat' (first | assumption | apply degradeTo_good | apply nothing_good | apply goodOut_next
                                | apply goodOut_nothing | exact goodOut_fault _ | exact goodOut_refused _ | split)
theorem execWidthProposal_good (n : PortId) (lanes : Byte) (s : State) (gd : Good s0 s) : GoodOut s0
    (execWidthProposal n lanes s) := by
  unfold execWidthProposal
  with_reducible repeat' (first | assumption | apply modPort_good | apply nothing_good | apply modPort_good
                                | apply goodOut_next | apply goodOut_nothing | exact goodOut_fault _ | exact goodOut_refused _
                                | split)
theorem accepted_good (s : State) (n : Nat) (g : Byte) (gd : Good s0 s) : Good s0 (State.accepted s n g) := by
  unfold State.accepted
  with_reducible repeat' (first | assumption | apply setWidth_good | split)
theorem execWidthAccept_good (n : PortId) (lanes : Byte) (s : State) (gd : Good s0 s) : GoodOut s0
    (execWidthAccept n lanes s) := by
  unfold execWidthAccept
  with_reducible repeat' (first | assumption | apply accepted_good | apply nothing_good | apply goodOut_next
                                | apply goodOut_nothing | exact goodOut_fault _ | exact goodOut_refused _ | split)
theorem laneAlarm_good (s : State) (n : Nat) (gd : Good s0 s) : Good s0 (State.laneAlarm s n) := by
  unfold State.laneAlarm
  with_reducible repeat' (first | assumption | apply alert_good | apply pkgEvent_good | apply draw_good)
theorem execLaneHealthWindow_good (n : PortId) (s : State) (gd : Good s0 s) : GoodOut s0 (execLaneHealthWindow n s) := by
  unfold execLaneHealthWindow
  with_reducible repeat' (first | assumption | apply nothing_good | apply putPort_good | apply laneAlarm_good
                                | (apply good_foldl; intro _ _ _)
                                | apply goodOut_next | apply goodOut_nothing | exact goodOut_fault _ | exact goodOut_refused _
                                | split | (refine good_fst (by assumption) ?_) | (refine good_snd (by assumption) ?_)
                                | intro _ | dsimp only [id_eq])
theorem execCalibrationOpportunity_good (n : PortId) (clean : Byte) (s : State) (gd : Good s0 s) :
    GoodOut s0 (execCalibrationOpportunity n clean s) := by
  unfold execCalibrationOpportunity
  with_reducible repeat' (first | assumption | apply nothing_good | apply setWidth_good | apply sendMgmt_good
                                | apply putPort_good | apply modPort_good | split | (refine good_fst (by assumption) ?_)
                                | (refine good_snd (by assumption) ?_) | apply goodOut_next | apply goodOut_nothing
                                | exact goodOut_fault _ | exact goodOut_refused _ | (refine goodOut_eq ?_ (by assumption))
                                | intro _ | dsimp only [id_eq])
theorem receivePacket_good (s : State) (n : Nat) (p : FabPacket) (gd : Good s0 s) : Good s0 (State.receivePacket s n p) := by
  unfold State.receivePacket
  with_reducible repeat' (first | assumption | apply pkgEvent_good | apply askRetrain_good | apply startRetrain_good
                                | apply putPort_good | split | (refine good_fst (by assumption) ?_)
                                | (refine good_snd (by assumption) ?_) | (refine goodOut_eq ?_ (by assumption)) | intro _
                                | dsimp only [id_eq])
theorem receiveMgmt_good (s : State) (n : Nat) (m : MgmtFlit) (gd : Good s0 s) : Good s0 (State.receiveMgmt s n m) := by
  unfold State.receiveMgmt
  with_reducible repeat' (first | assumption | apply compare_good | apply degradeTo_good | apply accepted_good
                                | apply startRetrain_good | apply modPort_good | split | (refine good_fst (by assumption) ?_)
                                | (refine good_snd (by assumption) ?_) | (refine goodOut_eq ?_ (by assumption)) | intro _
                                | dsimp only [id_eq])
theorem lostInBuffer_good (s : State) (n : Nat) (m : FlitPayload) (gd : Good s0 s) : Good s0 (State.lostInBuffer s n m) := by
  unfold State.lostInBuffer
  with_reducible repeat' (first | assumption | apply pkgEvent_good | apply modPort_good | split)
theorem bufferFault_good (s : State) (n : Nat) (gd : Good s0 s) : Good s0 (State.bufferFault s n) := by
  unfold State.bufferFault
  with_reducible repeat' (first | assumption | apply startRetrain_good | apply askRetrain_good | apply portEvent_good)
theorem spoilReplay_good (s : State) (n i : Nat) (gd : Good s0 s) : Good s0 (State.spoilReplay s n i) := by
  unfold State.spoilReplay
  with_reducible repeat' (first | assumption | apply bufferFault_good | apply lostInBuffer_good | apply modPort_good | split)
theorem receiveFlit_good (s : State) (n : Nat) (f : LinkFlit) (bufferOk : Bool) (gd : Good s0 s) :
    Good s0 (State.receiveFlit s n f bufferOk) := by
  unfold State.receiveFlit
  with_reducible repeat' (first | assumption | apply nakked_good | apply pumpPort_good | apply retryMembers_good
                                | apply receiveMgmt_good | apply receivePacket_good | apply lostInBuffer_good
                                | apply bufferFault_good | apply modPort_good | apply putPort_good
                                | split | (refine good_fst (by assumption) ?_) | (refine good_snd (by assumption) ?_)
                                | (refine goodOut_eq ?_ (by assumption)) | intro _ | dsimp only [id_eq])
theorem execLinkFlitReceive_good (n : PortId) (raw : List Byte) (r : FlitReception) (s : State) (gd : Good s0 s) :
    GoodOut s0 (execLinkFlitReceive n raw r s) := by
  unfold execLinkFlitReceive
  with_reducible repeat' (first | assumption | apply nothing_good | apply receiveFlit_good | apply putPort_good | split
                                | (refine good_fst (by assumption) ?_) | (refine good_snd (by assumption) ?_)
                                | apply goodOut_next | apply goodOut_nothing | exact goodOut_fault _
                                | exact goodOut_refused _ | (refine goodOut_eq ?_ (by assumption)) | intro _
                                | dsimp only [id_eq])

/-! ### BootBase -/

theorem bootEvent_good (s : State) (st : Status) (detail : Nat) (gd : Good s0 s) : Good s0 (State.bootEvent s st detail) := by
  unfold State.bootEvent
  with_reducible repeat' (first | assumption | apply pkgEvent_good)
theorem enterMgmtOnly_good (s : State) (gd : Good s0 s) : Good s0 (State.enterMgmtOnly s) := by
  unfold State.enterMgmtOnly
  with_reducible repeat' (first | assumption | apply alert_good | split | (refine good_fst (by assumption) ?_)
                                | (refine good_snd (by assumption) ?_) | (refine goodOut_eq ?_ (by assumption)) | intro _
                                | dsimp only [id_eq])
theorem addDefect_good (s : State) (kind px py cause : Nat) (test : BitVec 16) (gd : Good s0 s) :
    Good s0 (State.addDefect s kind px py cause test) := by
  unfold State.addDefect
  with_reducible repeat' (first | assumption | apply bootEvent_good | apply alert_good | split
                                | (refine good_fst (by assumption) ?_) | (refine good_snd (by assumption) ?_)
                                | (refine goodOut_eq ?_ (by assumption)) | intro _ | dsimp only [id_eq])
theorem noteFailure_good (s : State) (isPort : Bool) (px py cause : Nat) (test : BitVec 16) (gd : Good s0 s) : Good s0
    (State.noteFailure s isPort px py cause test) := by
  unfold State.noteFailure
  with_reducible repeat' (first | assumption | apply addDefect_good | apply bootEvent_good | split
                                | (refine good_fst (by assumption) ?_) | (refine good_snd (by assumption) ?_) | intro _
                                | dsimp only [id_eq])
theorem formDefects_good (s : State) (gd : Good s0 s) : Good s0 (State.formDefects s) := by
  unfold State.formDefects
  with_reducible repeat' (first | assumption | apply noteFailure_good | apply bootEvent_good | apply modPort_good
                                | (apply good_foldl; intro _ _ _) | (apply good_foldl_fst; intro _ _ _)
                                | (apply good_foldl_snd; intro _ _ _) | split | (refine good_fst (by assumption) ?_)
                                | (refine good_snd (by assumption) ?_) | (refine goodOut_eq ?_ (by assumption)) | intro _
                                | dsimp only [id_eq])
theorem present_good (s : State) (cols : List Nat) (gd : Good s0 s) : Good s0 (State.present s cols) := by
  unfold State.present
  with_reducible repeat' (first | assumption | (apply good_foldl; intro _ _ _) | (apply good_foldl_fst; intro _ _ _)
                                | (apply good_foldl_snd; intro _ _ _) | split | (refine good_fst (by assumption) ?_)
                                | (refine good_snd (by assumption) ?_) | (refine goodOut_eq ?_ (by assumption)) | intro _
                                | dsimp only [id_eq])
theorem State.reaches_ok (s : State) (k : Nat) (t : Tile) (h : Memory.wf (t).spad = true) : Memory.wf
    (State.reaches s k t).spad = true := by
  unfold State.reaches
  with_reducible repeat' (first | assumption)
theorem gateColumns_good (s : State) (gd : Good s0 s) : Good s0 (State.gateColumns s) := by
  unfold State.gateColumns
  with_reducible repeat' (first | assumption | split | (refine good_fst (by assumption) ?_)
                                | (refine good_snd (by assumption) ?_) | (refine goodOut_eq ?_ (by assumption)) | intro _
                                | dsimp only [id_eq])
theorem writeReaches_good (s : State) (gd : Good s0 s) : Good s0 (State.writeReaches s) := by
  unfold State.writeReaches
  with_reducible repeat' (first | assumption | apply modTile_good | apply State.reaches_ok | apply modTile_good
                                | (apply good_foldl; intro _ _ _))
theorem mapColumns_good (s : State) (gd : Good s0 s) : Good s0 (State.mapColumns s) := by
  unfold State.mapColumns
  with_reducible repeat' (first | assumption | apply present_good | apply writeReaches_good | apply bootEvent_good
                                | apply enterMgmtOnly_good | split | (refine good_fst (by assumption) ?_)
                                | (refine good_snd (by assumption) ?_) | (refine goodOut_eq ?_ (by assumption)) | intro _
                                | dsimp only [id_eq])
theorem formColumns_good (s : State) (gd : Good s0 s) : Good s0 (State.formColumns s) := by
  unfold State.formColumns
  with_reducible repeat' (first | assumption | apply mapColumns_good | apply gateColumns_good | split
                                | (refine good_fst (by assumption) ?_) | (refine good_snd (by assumption) ?_)
                                | (refine goodOut_eq ?_ (by assumption)) | intro _ | dsimp only [id_eq])
theorem writeRegion_good (s : State) (gd : Good s0 s) : Good s0 (State.writeRegion s) := by
  unfold State.writeRegion
  with_reducible repeat' (first | assumption | split | (refine good_fst (by assumption) ?_)
                                | (refine good_snd (by assumption) ?_) | (refine goodOut_eq ?_ (by assumption)) | intro _
                                | dsimp only [id_eq])
theorem checkRegion_good (s : State) (gd : Good s0 s) : Good s0 (State.checkRegion s) := by
  unfold State.checkRegion
  with_reducible repeat' (first | assumption | apply writeRegion_good | split | (refine good_fst (by assumption) ?_)
                                | (refine good_snd (by assumption) ?_) | (refine goodOut_eq ?_ (by assumption)) | intro _
                                | dsimp only [id_eq])
theorem Tile.startEngine_ok (t : Tile) (image : List Byte) (h : Memory.wf t.spad = true) :
    Memory.wf (Tile.startEngine t image).spad = true := by
  unfold Tile.startEngine
  with_reducible repeat' (first | assumption | split | intro _ | exact memNil_wf | dsimp only [id_eq])
theorem fetchPass_good (s : State) (ks : List Nat) (us : List FetchUpset) (gd : Good s0 s) :
    Good s0 (State.fetchPass s ks us).2 := by
  unfold State.fetchPass
  with_reducible repeat' (first | assumption | apply checkRegion_good | apply Tile.startEngine_ok | apply modTile_good
                                | apply good_spad | (apply good_foldl; intro _ _ _) | (apply good_foldl_fst; intro _ _ _)
                                | (apply good_foldl_snd; intro _ _ _) | split | (refine good_fst (by assumption) ?_)
                                | (refine good_snd (by assumption) ?_) | (refine goodOut_eq ?_ (by assumption)) | intro _
                                | dsimp only [id_eq])
theorem fetchFailed_good (s : State) (ks : List Nat) (gd : Good s0 s) : Good s0 (State.fetchFailed s ks) := by
  unfold State.fetchFailed
  with_reducible repeat' (first | assumption | apply bootEvent_good | apply alert_good | apply addDefect_good
                                | (apply good_foldl; intro _ _ _) | split | (refine good_fst (by assumption) ?_)
                                | (refine good_snd (by assumption) ?_) | intro _ | dsimp only [id_eq])
theorem fetchFirmware_good (s : State) (which : State → List Nat) (v : FirmwareVerdict) (gd : Good s0 s) :
    Good s0 (State.fetchFirmware s which v) := by
  unfold State.fetchFirmware
  with_reducible repeat' (first | assumption | apply fetchPass_good | apply fetchFailed_good | apply formDefects_good
                                | apply formColumns_good | apply enterMgmtOnly_good | split
                                | (refine good_fst (by assumption) ?_) | (refine good_snd (by assumption) ?_)
                                | (refine goodOut_eq ?_ (by assumption)) | intro _ | dsimp only [id_eq])

/-! ### Context -/

theorem Tile.atBeat0_ok (t : Tile) (now : Nat) (h : Memory.wf t.spad = true) : Memory.wf (Tile.atBeat0 t now).spad = true := by
  unfold Tile.atBeat0
  with_reducible repeat' (first | assumption | split | intro _ | exact memNil_wf | dsimp only [id_eq])
theorem beginBeats_good (s : State) (p : Nat) (gd : Good s0 s) : Good s0 (State.beginBeats s p) := by
  unfold State.beginBeats
  with_reducible repeat' (first | assumption | apply modTile_good | apply modPas_good | apply Tile.atBeat0_ok
                                | apply modTile_good | apply modPas_good | exact geo_refl _ | (apply good_foldl; intro _ _ _)
                                | split | (refine good_fst (by assumption) ?_) | (refine good_snd (by assumption) ?_) | intro _)
theorem assignGroup_good (s : State) (gid : Nat) (owner : Option Nat) (gd : Good s0 s) :
    Good s0 (State.assignGroup s gid owner) := by
  unfold State.assignGroup
  with_reducible repeat' (first | assumption | apply dropCmds_good | apply putOwn_good | split
                                | (refine good_fst (by assumption) ?_) | (refine good_snd (by assumption) ?_)
                                | (refine goodOut_eq ?_ (by assumption)) | intro _ | dsimp only [id_eq])
theorem applyAuto_good (s : State) (gd : Good s0 s) : Good s0 (State.applyAuto s) := by
  unfold State.applyAuto
  with_reducible repeat' (first | assumption | apply assignGroup_good | (apply good_foldl; intro _ _ _) | split)
theorem ownRefused_good (s : State) (gid : Nat) (gd : Good s0 s) : Good s0 (State.ownRefused s gid) := by
  unfold State.ownRefused
  with_reducible repeat' (first | assumption | apply stkRecord_good)
theorem ownWriteGroup_good (s : State) (st : Nat) (v : Word) (g : Nat) (gd : Good s0 s) : Good s0
    (State.ownWriteGroup s st v g) := by
  unfold State.ownWriteGroup
  with_reducible repeat' (first | assumption | apply assignGroup_good | apply putOwn_good | split)
theorem execOwnershipWrite_good (fn : FnId) (st : StackId) (value : Word) (s : State) (gd : Good s0 s) : GoodOut s0
    (execOwnershipWrite fn st value s) := by
  unfold execOwnershipWrite
  with_reducible repeat' (first | assumption | apply nothing_good | apply ownRefused_good | apply ownWriteGroup_good
                                | apply goodOut_next | apply goodOut_nothing | exact goodOut_fault _ | exact goodOut_refused _
                                | (apply good_foldl; intro _ _ _) | split)
theorem execAutoEnable_good (s : State) (gd : Good s0 s) : GoodOut s0 (execAutoEnable s) := by
  unfold execAutoEnable
  with_reducible repeat' (first | assumption | apply nothing_good | apply ownRefused_good | apply applyAuto_good
                                | apply goodOut_next | apply goodOut_nothing | exact goodOut_fault _ | exact goodOut_refused _
                                | split)
theorem execGroupXferWrite_good (fn : FnId) (st : StackId) (g : Fin 8) (on : Bool) (s : State) (gd : Good s0 s) : GoodOut s0
    (execGroupXferWrite fn st g on s) := by
  unfold execGroupXferWrite
  with_reducible repeat' (first | assumption | apply nothing_good | apply ownRefused_good | apply putOwn_good
                                | apply goodOut_next | apply goodOut_nothing | exact goodOut_fault _ | exact goodOut_refused _
                                | split | (refine good_fst (by assumption) ?_) | (refine good_snd (by assumption) ?_)
                                | intro _ | dsimp only [id_eq])
theorem zeroGroup_good (s : State) (gid : Nat) (gd : Good s0 s) : Good s0 (State.zeroGroup s gid) := by
  unfold State.zeroGroup
  apply dropCmds_good
  with_reducible repeat' (first | assumption | (refine good_stackMem ?_ (fun w => memKeep_wf _ _ w)))
theorem startAwaiting_good (s : State) (gd : Good s0 s) : Good s0 (State.startAwaiting s) := by
  unfold State.startAwaiting
  with_reducible repeat' (first | assumption | apply beginBeats_good | apply modPas_good | exact geo_refl _
                                | exact geo_off _ _ _ | (apply good_foldl; intro _ _ _) | (apply good_foldl_fst; intro _ _ _)
                                | (apply good_foldl_snd; intro _ _ _) | split | (refine good_fst (by assumption) ?_)
                                | (refine good_snd (by assumption) ?_) | (refine goodOut_eq ?_ (by assumption)) | intro _
                                | dsimp only [id_eq])
theorem execGroupClearDone_good (st : StackId) (g : Fin 8) (s : State) (gd : Good s0 s) : GoodOut s0
    (execGroupClearDone st g s) := by
  unfold execGroupClearDone
  with_reducible repeat' (first | assumption | apply zeroGroup_good | apply putOwn_good | apply startAwaiting_good
                                | apply nothing_good | apply goodOut_next | apply goodOut_nothing | exact goodOut_fault _
                                | exact goodOut_refused _ | split | (refine good_fst (by assumption) ?_)
                                | (refine good_snd (by assumption) ?_) | intro _ | dsimp only [id_eq])
theorem scrubUncorr_good (s : State) (gid off : Nat) (gd : Good s0 s) : Good s0 (State.scrubUncorr s gid off) := by
  unfold State.scrubUncorr
  with_reducible repeat' (first | assumption | apply stkRecord_good | apply pasEvent_good | apply pkgEvent_good | split)
theorem scrubBurst_good (s : State) (gid off : Nat) (gd : Good s0 s) : Good s0 (State.scrubBurst s gid off) := by
  unfold State.scrubBurst
  with_reducible repeat' (first | assumption | apply countRead_good | apply scrubUncorr_good | apply stkCorrected_good
                                | apply modStack_good | (refine good_stackMem ?_ (fun w => memWrite_wf _ _ _ w)) | split
                                | (refine good_fst (by assumption) ?_) | (refine good_snd (by assumption) ?_)
                                | (refine goodOut_eq ?_ (by assumption)) | intro _ | dsimp only [id_eq])
theorem scrubGroup_good (s : State) (gid : Nat) (gd : Good s0 s) : Good s0 (State.scrubGroup s gid) := by
  unfold State.scrubGroup
  with_reducible repeat' (first | assumption | apply scrubBurst_good | apply modStack_good | apply modStack_good
                                | (apply good_foldl; intro _ _ _))
theorem execWatchStart_good (p : PasId) (s : State) (gd : Good s0 s) : GoodOut s0 (execWatchStart p s) := by
  unfold execWatchStart
  with_reducible repeat' (first | assumption | apply scrubGroup_good | apply rwFlush_good | apply modPas_good
                                | apply nothing_good | apply modPas_good | exact geo_refl _ | apply goodOut_next
                                | apply goodOut_nothing | exact goodOut_fault _ | exact goodOut_refused _
                                | (apply good_foldl; intro _ _ _) | split | (refine good_fst (by assumption) ?_)
                                | (refine good_snd (by assumption) ?_) | intro _ | dsimp only [id_eq])
theorem delayLandings_good (s : State) (p : Nat) (sts : List Nat) (gd : Good s0 s) : Good s0 (State.delayLandings s p sts) := by
  unfold State.delayLandings
  with_reducible repeat' (first | assumption | apply draw_good | apply noteHolds_good | apply modTile_good | apply good_spad
                                | (apply good_foldl; intro _ _ _) | (apply good_foldl_fst; intro _ _ _)
                                | (apply good_foldl_snd; intro _ _ _) | split | (refine good_fst (by assumption) ?_)
                                | (refine good_snd (by assumption) ?_) | (refine goodOut_eq ?_ (by assumption)) | intro _
                                | dsimp only [id_eq])
theorem execLateRefresh_good (p : PasId) (s : State) (gd : Good s0 s) : GoodOut s0 (execLateRefresh p s) := by
  unfold execLateRefresh
  with_reducible repeat' (first | assumption | apply scrubGroup_good | apply modStack_good | apply delayLandings_good
                                | apply modPas_good | apply nothing_good | apply modPas_good | apply modStack_good
                                | exact geo_refl _ | apply goodOut_next | apply goodOut_nothing | exact goodOut_fault _
                                | exact goodOut_refused _ | (apply good_foldl; intro _ _ _) | split
                                | (refine good_fst (by assumption) ?_) | (refine good_snd (by assumption) ?_) | intro _
                                | dsimp only [id_eq])
theorem execUnownedGroupMaint_good (st : StackId) (g : Fin 8) (s : State) (gd : Good s0 s) : GoodOut s0
    (execUnownedGroupMaint st g s) := by
  unfold execUnownedGroupMaint
  with_reducible repeat' (first | assumption | apply scrubGroup_good | apply modStack_good | apply nothing_good
                                | apply modStack_good | apply goodOut_next | apply goodOut_nothing | exact goodOut_fault _
                                | exact goodOut_refused _ | split | (refine good_fst (by assumption) ?_)
                                | (refine good_snd (by assumption) ?_) | intro _ | dsimp only [id_eq])
theorem execStackWriteRetry_good (vx : Vx) (vy : Vy) (ok : Bool) (s : State) (gd : Good s0 s) :
    GoodOut s0 (execStackWriteRetry vx vy ok s) := by
  unfold execStackWriteRetry
  with_reducible repeat' (first | assumption | apply nothing_good | apply draw_good | apply stkRecord_good
                                | apply stopTile_good | apply modStack_good
                                | (refine good_stackMem ?_ (fun w => memWrite_wf _ _ _ w)) | split
                                | (refine good_fst (by assumption) ?_) | (refine good_snd (by assumption) ?_)
                                | apply goodOut_next | apply goodOut_nothing | exact goodOut_fault _
                                | exact goodOut_refused _ | (refine goodOut_eq ?_ (by assumption)) | intro _
                                | dsimp only [id_eq])

/-! ### Resets -/

theorem Tile.afterPasture_ok (t : Tile) (now : Nat) (h : Memory.wf t.spad = true) :
    Memory.wf (Tile.afterPasture t now).spad = true := by
  unfold Tile.afterPasture
  with_reducible repeat' (first | assumption | apply Tile.atBeat0_ok | split | intro _ | exact memNil_wf | dsimp only [id_eq])
theorem Tile.afterQuarantine_ok (t : Tile) (now : Nat) (h : Memory.wf (t).spad = true) : Memory.wf
    (Tile.afterQuarantine t now).spad = true := memNil_wf
theorem resetTiles_good (s : State) (ks : List Nat) (f : Tile → Tile)
    (hf : ∀ t : Tile, Memory.wf t.spad = true → Memory.wf (f t).spad = true) (gd : Good s0 s) : Good s0 (s.resetTiles ks f) := by
  unfold State.resetTiles
  exact good_foldl (fun s k gs => modTile_good hf gs) (resetInFlight_good _ _ (good_foldl (fun s k gs => resetEngine_good _ _ gs) gd))
theorem dropFf_good (s : State) (p : Nat) (gd : Good s0 s) : Good s0 (State.dropFf s p) := by
  unfold State.dropFf
  with_reducible repeat' (first | assumption | split | (refine good_fst (by assumption) ?_)
                                | (refine good_snd (by assumption) ?_) | (refine goodOut_eq ?_ (by assumption)) | intro _
                                | dsimp only [id_eq])
theorem resetFolds_good (s : State) (p : Nat) (gd : Good s0 s) : Good s0 (State.resetFolds s p) := by
  unfold State.resetFolds
  with_reducible repeat' (first | assumption)
theorem rewriteStore_good (s : State) (p : Nat) (gd : Good s0 s) : Good s0 (State.rewriteStore s p) := by
  unfold State.rewriteStore
  with_reducible repeat' (first | assumption | apply Tile.writeStore_ok | apply modPas_good | apply modTile_good
                                | exact geo_refl _ | exact geo_off _ _ _ | apply good_spad | (apply good_foldl; intro _ _ _)
                                | (apply good_foldl_fst; intro _ _ _) | (apply good_foldl_snd; intro _ _ _) | split
                                | (refine good_fst (by assumption) ?_) | (refine good_snd (by assumption) ?_)
                                | (refine goodOut_eq ?_ (by assumption)) | intro _ | dsimp only [id_eq])
theorem refreshStore_good (s : State) (p : Nat) (gd : Good s0 s) : Good s0 (State.refreshStore s p) := by
  unfold State.refreshStore
  with_reducible repeat' (first | assumption | apply rewriteStore_good | split | (refine good_fst (by assumption) ?_)
                                | (refine good_snd (by assumption) ?_) | (refine goodOut_eq ?_ (by assumption)) | intro _
                                | dsimp only [id_eq])
theorem resetUnits_good (s : State) (p : Nat) (gd : Good s0 s) : Good s0 (State.resetUnits s p) := by
  unfold State.resetUnits
  with_reducible repeat' (first | assumption | apply resetTiles_good | apply dropFf_good | apply resetFolds_good
                                | apply resetWindows_good | apply resetSends_good | apply modPas_good
                                | apply rewriteStore_good | apply Tile.afterPasture_ok | apply modPas_good | exact geo_refl _
                                | split | (refine good_fst (by assumption) ?_) | (refine good_snd (by assumption) ?_) | intro _)
theorem abortLoad_good (s : State) (p : Nat) (post : Bool) (gd : Good s0 s) : Good s0 (State.abortLoad s p post) := by
  unfold State.abortLoad
  with_reducible repeat' (first | assumption | apply modPas_good | apply finish_good | apply modPas_good | exact geo_refl _
                                | split | (refine good_fst (by assumption) ?_) | (refine good_snd (by assumption) ?_)
                                | (refine goodOut_eq ?_ (by assumption)) | intro _)
theorem finishXfer_good (s : State) (x : Transfer) (st : Status) (gd : Good s0 s) : Good s0 (State.finishXfer s x st) := by
  unfold State.finishXfer
  with_reducible repeat' (first | assumption | apply complete_good)
theorem stackWrites_good (u : Nat → List Byte) (q a d : Nat) (l : List Nat) (s : State) (gd : Good s0 s) :
    Good s0 (l.foldl (fun s i => s.stackWrite q (a + 32768 * i) (u d)) s) :=
  good_foldl (fun s i gs => stackWrite_good _ _ _ _ gs) gd
theorem spoilPages_good (s : State) (x : Transfer) (n : Nat) (gd : Good s0 s) : Good s0 (State.spoilPages s x n) := by
  unfold State.spoilPages
  split
  · exact gd
  · exact stackWrites_good undefinedPage _ _ _ _ _ (draw_good s gd)
theorem failXfer_good (s : State) (x : Transfer) (st : Status) (post : Bool) (gd : Good s0 s) : Good s0
    (State.failXfer s x st post) := by
  unfold State.failXfer
  with_reducible repeat' (first | assumption | apply spoilPages_good | apply finishXfer_good | split)
theorem abortXfers_good (s : State) (p : Nat) (post : Bool) (gd : Good s0 s) : Good s0 (State.abortXfers s p post) := by
  unfold State.abortXfers
  with_reducible repeat' (first | assumption | apply failXfer_good | (apply good_foldl; intro _ _ _))
theorem endOutage_good (s : State) (p : Nat) (gd : Good s0 s) : Good s0 (State.endOutage s p) := by
  unfold State.endOutage
  with_reducible repeat' (first | assumption |  exact geo_off _ _ _ | split | (refine good_fst (by assumption) ?_)
                                | (refine good_snd (by assumption) ?_) | intro _ | dsimp only [id_eq])
theorem Pasture.afterReset_geo {z : Pasture} (x : Pasture) (h : GeoLe z x) : GeoLe z (Pasture.afterReset x) := by
  unfold Pasture.afterReset
  with_reducible repeat' (first | assumption | split | intro _ | exact geo_refl _)
theorem resumeBeats_good (s : State) (p : Nat) (gd : Good s0 s) : Good s0 (State.resumeBeats s p) := by
  unfold State.resumeBeats
  with_reducible repeat' (first | assumption | apply beginBeats_good | apply modPas_good | exact geo_refl _
                                | exact geo_off _ _ _ | split | (refine good_fst (by assumption) ?_)
                                | (refine good_snd (by assumption) ?_) | (refine goodOut_eq ?_ (by assumption)) | intro _
                                | dsimp only [id_eq])
theorem noteTest_good (s : State) (t : SelfTest) (st : Byte) (gd : Good s0 s) : Good s0 (State.noteTest s t st) := by
  unfold State.noteTest
  with_reducible repeat' (first | assumption |  split)
theorem endTest_good (s : State) (t : SelfTest) (st : Status) (gd : Good s0 s) : Good s0 (State.endTest s t st) := by
  unfold State.endTest
  with_reducible repeat' (first | assumption | apply noteTest_good | split | (refine good_fst (by assumption) ?_)
                                | (refine good_snd (by assumption) ?_) | intro _ | dsimp only [id_eq])
theorem leaveTest_good (s : State) (p : Nat) (gd : Good s0 s) : Good s0 (State.leaveTest s p) := by
  unfold State.leaveTest
  with_reducible repeat' (first | assumption | apply modPas_good | apply modPas_good | exact geo_refl _ | exact geo_off _ _ _
                                | split | (refine good_fst (by assumption) ?_) | (refine good_snd (by assumption) ?_)
                                | intro _ | dsimp only [id_eq])
theorem resetTests_good (s : State) (p : Nat) (gd : Good s0 s) : Good s0 (State.resetTests s p) := by
  unfold State.resetTests
  with_reducible repeat' (first | assumption | apply endTest_good | apply leaveTest_good | apply modPas_good
                                | exact geo_refl _ | exact geo_off _ _ _ | (apply good_foldl; intro _ _ _)
                                | (apply good_foldl_fst; intro _ _ _) | (apply good_foldl_snd; intro _ _ _) | split
                                | (refine good_fst (by assumption) ?_) | (refine good_snd (by assumption) ?_)
                                | (refine goodOut_eq ?_ (by assumption)) | intro _ | dsimp only [id_eq])
theorem endRuns_good (s : State) (p : Nat) (cause : Status) (post : Bool) (gd : Good s0 s) : Good s0
    (State.endRuns s p cause post) := by
  unfold State.endRuns
  with_reducible repeat' (first | assumption | apply failRun_good | apply modPas_good | apply modPas_good | exact geo_refl _
                                | (apply good_foldl; intro _ _ _) | split | (refine good_fst (by assumption) ?_)
                                | (refine good_snd (by assumption) ?_) | intro _)
theorem resetPasture_good (s : State) (p : Nat) (post : Bool) (gd : Good s0 s) : Good s0 (State.resetPasture s p post) := by
  unfold State.resetPasture
  with_reducible repeat' (first | assumption | apply endOutage_good | apply endRuns_good | apply abortLoad_good
                                | apply abortXfers_good | apply resetTests_good | apply resetUnits_good
                                | apply Pasture.afterReset_geo | apply resumeBeats_good | apply modPas_good
                                | exact geo_refl _ | exact geo_off _ _ _ | split | (refine good_fst (by assumption) ?_)
                                | (refine good_snd (by assumption) ?_) | (refine goodOut_eq ?_ (by assumption)) | intro _
                                | dsimp only [id_eq])
theorem execPastureReset_good (fn : FnId) (p : PasId) (s : State) (gd : Good s0 s) : GoodOut s0 (execPastureReset fn p s) := by
  unfold execPastureReset
  with_reducible repeat' (first | assumption | apply resetPasture_good | apply nothing_good | apply goodOut_next
                                | apply goodOut_nothing | exact goodOut_fault _ | exact goodOut_refused _ | split)
theorem haltPasture_good (s : State) (p : Nat) (asked : Bool) (gd : Good s0 s) : Good s0 (State.haltPasture s p asked) := by
  unfold State.haltPasture
  with_reducible repeat' (first | assumption | apply endStall_good | apply modPas_good | exact geo_refl _
                                | exact geo_off _ _ _ | split | (refine good_fst (by assumption) ?_)
                                | (refine good_snd (by assumption) ?_) | (refine goodOut_eq ?_ (by assumption)) | intro _
                                | dsimp only [id_eq])
theorem quarantine_good (s : State) (k cause : Nat) (gd : Good s0 s) : Good s0 (State.quarantine s k cause) := by
  unfold State.quarantine
  with_reducible repeat' (first | assumption | apply modPas_good | apply endRuns_good | apply abortLoad_good
                                | apply haltPasture_good | apply resetWindows_good | apply resetSends_good
                                | apply resetTiles_good | apply addDefect_good | apply Tile.afterQuarantine_ok
                                | apply modPas_good | exact geo_refl _ | split | (refine good_fst (by assumption) ?_)
                                | (refine good_snd (by assumption) ?_) | (refine goodOut_eq ?_ (by assumption)) | intro _)
theorem execTileQuarantine_good (vx : Vx) (vy : Vy) (s : State) (gd : Good s0 s) : GoodOut s0 (execTileQuarantine vx vy s) := by
  unfold execTileQuarantine
  with_reducible repeat' (first | assumption | apply nothing_good | apply quarantine_good | apply good_spad
                                | apply goodOut_next | apply goodOut_nothing | exact goodOut_fault _ | exact goodOut_refused _
                                | split | (refine good_fst (by assumption) ?_) | (refine good_snd (by assumption) ?_)
                                | intro _ | dsimp only [id_eq])
theorem Pasture.afterWarm_geo {z : Pasture} (x : Pasture) (h : GeoLe z x) : GeoLe z (Pasture.afterWarm x) := by
  unfold Pasture.afterWarm
  with_reducible repeat' (first | assumption)
theorem resetMsgs_good (s : State) (f : Nat) (gd : Good s0 s) : Good s0 (State.resetMsgs s f) := by
  unfold State.resetMsgs
  with_reducible repeat' (first | assumption | apply endHostMsg_good | (apply good_foldl; intro _ _ _))
theorem clearXferBits_good (s : State) (gd : Good s0 s) : Good s0 (State.clearXferBits s) := by
  unfold State.clearXferBits
  with_reducible repeat' (first | assumption | split | (refine good_fst (by assumption) ?_)
                                | (refine good_snd (by assumption) ?_) | (refine goodOut_eq ?_ (by assumption)) | intro _
                                | dsimp only [id_eq])
theorem warmClear_good (s : State) (post : Bool) (gd : Good s0 s) : Good s0 (State.warmClear s post) := by
  unfold State.warmClear
  with_reducible repeat' (first | assumption | apply endOutage_good | apply endRuns_good | apply abortLoad_good
                                | apply abortXfers_good | apply resetTests_good | apply resetMsgs_good
                                | apply Pasture.afterWarm_geo | apply resetWindows_good | apply resetSends_good
                                | apply clearXferBits_good | apply modFn_good | apply modPas_good | exact geo_refl _
                                | exact geo_off _ _ _ | (apply good_foldl; intro _ _ _) | (apply good_foldl_fst; intro _ _ _)
                                | (apply good_foldl_snd; intro _ _ _) | split | (refine good_fst (by assumption) ?_)
                                | (refine good_snd (by assumption) ?_) | (refine goodOut_eq ?_ (by assumption)) | intro _
                                | dsimp only [id_eq])
theorem remap_good (s : State) (qs : List Nat) (gd : Good s0 s) : Good s0 (State.remap s qs) := by
  unfold State.remap
  with_reducible repeat' (first | assumption | apply writeReaches_good | apply formColumns_good | split)
theorem warmEnd_good (s : State) (qs : List Nat) (w : WarmOutcome) (gd : Good s0 s) : Good s0 (State.warmEnd s qs w) := by
  unfold State.warmEnd
  with_reducible repeat' (first | assumption | apply remap_good | apply fetchFirmware_good | apply modPas_good
                                | apply resumeBeats_good | apply modPas_good | exact geo_refl _
                                | (apply good_foldl; intro _ _ _) | split | (refine good_fst (by assumption) ?_)
                                | (refine good_snd (by assumption) ?_) | intro _ | dsimp only [id_eq])
theorem warmReset_good (s : State) (post : Bool) (w : WarmOutcome) (gd : Good s0 s) : Good s0 (State.warmReset s post w) := by
  unfold State.warmReset
  with_reducible apply warmEnd_good
  with_reducible apply good_dropTiles
  with_reducible exact warmClear_good _ _ gd
theorem warmTrigger_good (s : State) (post : Bool) (w : WarmOutcome) (gd : Good s0 s) : Good s0 (State.warmTrigger s post w) := by
  unfold State.warmTrigger
  with_reducible repeat' (first | assumption | apply warmReset_good | split)
theorem execWarmComputeReset_good (w : WarmOutcome) (s : State) (gd : Good s0 s) : GoodOut s0 (execWarmComputeReset w s) := by
  unfold execWarmComputeReset
  with_reducible repeat' (first | assumption | apply warmTrigger_good | apply goodOut_next)
theorem hostReset_good (s : State) (w : WarmOutcome) (gd : Good s0 s) : Good s0 (State.hostReset s w) := by
  unfold State.hostReset
  with_reducible repeat' (first | assumption | apply warmTrigger_good | apply modFn_good | (apply good_foldl; intro _ _ _)
                                | (apply good_foldl_fst; intro _ _ _) | (apply good_foldl_snd; intro _ _ _) | split
                                | (refine good_fst (by assumption) ?_) | (refine good_snd (by assumption) ?_)
                                | (refine goodOut_eq ?_ (by assumption)) | intro _ | dsimp only [id_eq])
theorem execFlrPf0_good (w : WarmOutcome) (s : State) (gd : Good s0 s) : GoodOut s0 (execFlrPf0 w s) := by
  unfold execFlrPf0
  with_reducible repeat' (first | assumption | apply hostReset_good | apply goodOut_next)
theorem execPerstN_good (w : WarmOutcome) (s : State) (gd : Good s0 s) : GoodOut s0 (execPerstN w s) := by
  unfold execPerstN
  with_reducible repeat' (first | assumption | apply hostReset_good | apply goodOut_next)
theorem execHotReset_good (w : WarmOutcome) (s : State) (gd : Good s0 s) : GoodOut s0 (execHotReset w s) := by
  unfold execHotReset
  with_reducible repeat' (first | assumption | apply hostReset_good | apply goodOut_next)
theorem execPcieLinkDown_good (w : WarmOutcome) (s : State) (gd : Good s0 s) : GoodOut s0 (execPcieLinkDown w s) := by
  unfold execPcieLinkDown
  with_reducible repeat' (first | assumption | apply hostReset_good | apply goodOut_next)
theorem discardFn_good (s : State) (f : Nat) (gd : Good s0 s) : Good s0 (State.discardFn s f) := by
  unfold State.discardFn
  with_reducible repeat' (first | assumption | apply withdraw_good | apply modFn_good | apply modFn_good | exact geo_off _ _ _
                                | (apply good_foldl; intro _ _ _) | split)
theorem execFlrVf_good (fn : FnId) (s : State) (gd : Good s0 s) : GoodOut s0 (execFlrVf fn s) := by
  unfold execFlrVf
  with_reducible repeat' (first | assumption | apply nothing_good | apply discardFn_good | apply resetPasture_good
                                | apply modPas_good | apply modPas_good | exact geo_refl _ | exact geo_off _ _ _
                                | apply goodOut_next | apply goodOut_nothing | exact goodOut_fault _ | exact goodOut_refused _
                                | split | (refine good_fst (by assumption) ?_) | (refine good_snd (by assumption) ?_) | intro _)

end Sys2Proof.Machine
end

