-- ==== Sys2Proof/Laws/KeepsHost.lean ====
section
/-!
SUPPORT. What the commands of the host, the loader, security, bring-up, power and management keep.
Each lemma says that an operation which starts from a state that keeps what every command keeps (Laws/Keeps.lean) ends in one.
-/
set_option linter.all false
namespace Sys2Proof.Machine

variable {s0 : State}

/-! ### Rings -/

theorem fetched_good (s : State) (fn : FnId) (r : Fin 16) (gd : Good s0 s) : Good s0 (State.fetched s fn r) := by
  unfold State.fetched
  with_reducible repeat' (first | assumption | apply modFn_good)
theorem execDoorbell_good (fn : FnId) (ring : Fin 16) (tail : Byte) (s : State) (gd : Good s0 s) : GoodOut s0
    (execDoorbell fn ring tail s) := by
  unfold execDoorbell
  with_reducible repeat' (first | assumption | apply nothing_good | apply modFn_good | apply modFn_good | apply goodOut_next
                                | apply goodOut_nothing | exact goodOut_fault _ | exact goodOut_refused _ | split)
theorem answer_good (s : State) (id : EntryId) (e : List Byte) (st : Status) (gd : Good s0 s) : Good s0
    (State.answer s id e st) := by
  unfold State.answer
  with_reducible repeat' (first | assumption | apply complete_good)
theorem onEntry_good (s : State) (fn : FnId) (r : Fin 16) (mine : List Byte → Bool)
    (act : State → EntryId → List Byte → State) (ha : ∀ s i e, Good s0 s → Good s0 (act s i e)) (gd : Good s0 s) :
    GoodOut s0 (s.onEntry fn r mine act) := by
  unfold State.onEntry
  with_reducible repeat' (first | assumption | apply ha | apply answer_good | apply fetched_good | apply goodOut_next
                                | apply goodOut_nothing | split)
theorem execRun_good (fn : FnId) (ring : Fin 16) (s : State) (gd : Good s0 s) : GoodOut s0 (execRun fn ring s) := by
  unfold execRun
  with_reducible repeat' (first | assumption | apply onEntry_good | apply modPas_good | apply complete_good
                                | apply modPas_good | exact geo_refl _ | apply goodOut_next | apply goodOut_nothing
                                | exact goodOut_fault _ | exact goodOut_refused _ | split
                                | (refine good_fst (by assumption) ?_) | (refine good_snd (by assumption) ?_)
                                | (refine goodOut_eq ?_ (by assumption)) | intro _ | dsimp only [id_eq])
theorem unstart_good (s : State) (p : Nat) (gd : Good s0 s) : Good s0 (State.unstart s p) := by
  unfold State.unstart
  with_reducible repeat' (first | assumption | apply modPas_good | apply modTile_good | exact geo_refl _
                                | exact geo_off _ _ _ | apply good_spad | (apply good_foldl; intro _ _ _)
                                | (apply good_foldl_fst; intro _ _ _) | (apply good_foldl_snd; intro _ _ _) | split
                                | (refine good_fst (by assumption) ?_) | (refine good_snd (by assumption) ?_)
                                | (refine goodOut_eq ?_ (by assumption)) | intro _ | dsimp only [id_eq])
theorem Pasture.removeRun_geo {z : Pasture} (x : Pasture) (r : Run) (h : GeoLe z x) : GeoLe z (Pasture.removeRun x r) := by
  unfold Pasture.removeRun
  with_reducible repeat' (first | assumption)
theorem answerAbort_good (s : State) (id : EntryId) (p : Nat) (st : Status) (runId : Word) (gd : Good s0 s) : Good s0
    (State.answerAbort s id p st runId) := by
  unfold State.answerAbort
  with_reducible repeat' (first | assumption | apply complete_good)
theorem abortRun_good (s : State) (id : EntryId) (p : Nat) (r : Run) (gd : Good s0 s) : Good s0 (State.abortRun s id p r) := by
  unfold State.abortRun
  with_reducible repeat' (first | assumption | apply answerAbort_good | apply Pasture.removeRun_geo | apply endStall_good
                                | apply resetUnits_good | apply resumeBeats_good | apply unstart_good | apply modPas_good
                                | exact geo_refl _ | exact geo_off _ _ _ | split | (refine good_fst (by assumption) ?_)
                                | (refine good_snd (by assumption) ?_) | (refine goodOut_eq ?_ (by assumption)) | intro _
                                | dsimp only [id_eq])
theorem execAbort_good (fn : FnId) (ring : Fin 16) (s : State) (gd : Good s0 s) : GoodOut s0 (execAbort fn ring s) := by
  unfold execAbort
  with_reducible repeat' (first | assumption | apply onEntry_good | apply answerAbort_good | apply abortRun_good | split
                                | (refine good_fst (by assumption) ?_) | (refine good_snd (by assumption) ?_)
                                | apply goodOut_next | apply goodOut_nothing | exact goodOut_fault _
                                | exact goodOut_refused _ | (refine goodOut_eq ?_ (by assumption)) | intro _
                                | dsimp only [id_eq])
theorem execMsg_good (fn : FnId) (ring : Fin 16) (s : State) (gd : Good s0 s) : GoodOut s0 (execMsg fn ring s) := by
  unfold execMsg
  with_reducible repeat' (first | assumption | apply onEntry_good | apply answer_good | apply modFn_good | apply send_good
                                | apply Tile.freeSlot_ok | apply modFn_good | apply goodOut_next | apply goodOut_nothing
                                | exact goodOut_fault _ | exact goodOut_refused _ | split
                                | (refine good_fst (by assumption) ?_) | (refine good_snd (by assumption) ?_)
                                | (refine goodOut_eq ?_ (by assumption)) | intro _)
theorem execCancelMsg_good (fn : FnId) (ring : Fin 16) (s : State) (gd : Good s0 s) : GoodOut s0 (execCancelMsg fn ring s) := by
  unfold execCancelMsg
  with_reducible repeat' (first | assumption | apply onEntry_good | apply answer_good | apply withdraw_good
                                | apply endHostMsg_good | apply goodOut_next | apply goodOut_nothing | exact goodOut_fault _
                                | exact goodOut_refused _ | split | (refine good_fst (by assumption) ?_)
                                | (refine good_snd (by assumption) ?_) | (refine goodOut_eq ?_ (by assumption)) | intro _)
theorem Pasture.deliver_geo {z : Pasture} (x : Pasture) (runId : Word) (h : GeoLe z x) : GeoLe z (Pasture.deliver x runId) := by
  unfold Pasture.deliver
  with_reducible repeat' (first | assumption)
theorem execCompletionWrite_good (fn : FnId) (s : State) (gd : Good s0 s) : GoodOut s0 (execCompletionWrite fn s) := by
  unfold execCompletionWrite
  with_reducible repeat' (first | assumption | apply nothing_good | apply writeCompletion_good | apply Pasture.deliver_geo
                                | apply modFn_good | apply modPas_good | exact geo_refl _ | exact geo_off _ _ _ | split
                                | (refine good_fst (by assumption) ?_) | (refine good_snd (by assumption) ?_)
                                | apply goodOut_next | apply goodOut_nothing | exact goodOut_fault _
                                | exact goodOut_refused _ | (refine goodOut_eq ?_ (by assumption)) | intro _
                                | dsimp only [id_eq])
theorem execDeadlineExpiry_good (p : PasId) (k : Fin 64) (s : State) (gd : Good s0 s) : GoodOut s0
    (execDeadlineExpiry p k s) := by
  unfold execDeadlineExpiry
  with_reducible repeat' (first | assumption | apply nothing_good | apply putPas_good | apply modFn_good | apply signal_good
                                | apply modFn_good | apply putPas_good | exact geo_refl _ | apply goodOut_next
                                | apply goodOut_nothing | exact goodOut_fault _ | exact goodOut_refused _ | split
                                | (refine good_fst (by assumption) ?_) | (refine good_snd (by assumption) ?_)
                                | (refine goodOut_eq ?_ (by assumption)) | intro _ | dsimp only [id_eq])
theorem execVectorFire_good (fn : FnId) (v : Fin 64) (s : State) (gd : Good s0 s) : GoodOut s0 (execVectorFire fn v s) := by
  unfold execVectorFire
  with_reducible repeat' (first | assumption | apply modFn_good | apply nothing_good | apply modFn_good | apply goodOut_next
                                | apply goodOut_nothing | exact goodOut_fault _ | exact goodOut_refused _ | split
                                | (refine good_fst (by assumption) ?_) | (refine good_snd (by assumption) ?_) | intro _
                                | dsimp only [id_eq])

/-! ### Runs -/

theorem putElem_good (s : State) (p : Nat) (e : IoElem) (bs : List Byte) (gd : Good s0 s) : Good s0
    (State.putElem s p e bs).1 := by
  unfold State.putElem
  with_reducible repeat' (first | assumption | apply sideWrite_good | apply stackWrite_good | split
                                | (refine good_fst (by assumption) ?_))
theorem ingress_good (s : State) (p : Nat) (es : List IoElem) (gd : Good s0 s) : Good s0 (State.ingress s p es).1 := by
  unfold State.ingress
  with_reducible repeat' (first | assumption | apply putElem_good | (apply good_foldl_fst; intro _ _ _) | split)
theorem getElem_good (s : State) (p : Nat) (e : IoElem) (gd : Good s0 s) : Good s0 (State.getElem s p e).1 := by
  unfold State.getElem
  with_reducible repeat' (first | assumption | apply sideRead_good | apply stackFetch_good | split
                                | (refine good_fst (by assumption) ?_) | (refine good_snd (by assumption) ?_)
                                | (refine goodOut_eq ?_ (by assumption)) | intro _ | dsimp only [id_eq])
theorem egress_good (s : State) (p : Nat) (es : List IoElem) (gd : Good s0 s) : Good s0 (State.egress s p es).1 := by
  unfold State.egress
  with_reducible repeat' (first | assumption | apply getElem_good | apply writeHost_good | (apply good_foldl_fst; intro _ _ _)
                                | split | (refine good_fst (by assumption) ?_))
theorem failFirst_good (s : State) (p : Nat) (st : Status) (gd : Good s0 s) : Good s0 (State.failFirst s p st) := by
  unfold State.failFirst
  with_reducible repeat' (first | assumption | apply failRun_good | apply modPas_good | apply modPas_good | exact geo_refl _
                                | split | (refine good_fst (by assumption) ?_) | (refine good_snd (by assumption) ?_)
                                | (refine goodOut_eq ?_ (by assumption)) | intro _)
theorem execRunIngress_good (p : PasId) (env : IoOutcome) (s : State) (gd : Good s0 s) :
    GoodOut s0 (execRunIngress p env s) := by
  unfold execRunIngress
  with_reducible repeat' (first | assumption | apply nothing_good | apply refreshStore_good | apply noteCause_good
                                | apply noteDma_good | apply failFirst_good | apply ingress_good | apply Pasture.modFirst_geo
                                | apply modPas_good | exact geo_refl _ | exact geo_off _ _ _ | split
                                | (refine good_fst (by assumption) ?_) | (refine good_snd (by assumption) ?_)
                                | apply goodOut_next | apply goodOut_nothing | exact goodOut_fault _
                                | exact goodOut_refused _ | (refine goodOut_eq ?_ (by assumption)) | intro _
                                | dsimp only [id_eq])
theorem execRunStart_good (p : PasId) (s : State) (gd : Good s0 s) : GoodOut s0 (execRunStart p s) := by
  unfold execRunStart
  with_reducible repeat' (first | assumption | apply nothing_good | apply Tile.beginAt_ok | apply Pasture.modFirst_geo
                                | apply beginRun_good | apply modPas_good | apply modTile_good | exact geo_refl _
                                | exact geo_off _ _ _ | apply good_spad | (apply good_foldl; intro _ _ _)
                                | (apply good_foldl_fst; intro _ _ _) | (apply good_foldl_snd; intro _ _ _) | split
                                | (refine good_fst (by assumption) ?_) | (refine good_snd (by assumption) ?_)
                                | apply goodOut_next | apply goodOut_nothing | exact goodOut_fault _
                                | exact goodOut_refused _ | (refine goodOut_eq ?_ (by assumption)) | intro _
                                | dsimp only [id_eq])
theorem deliverFirst_good (s : State) (p : Nat) (r : Run) (gd : Good s0 s) : Good s0 (State.deliverFirst s p r) := by
  unfold State.deliverFirst
  with_reducible repeat' (first | assumption | apply writeCompletion_good | apply Pasture.deliver_geo | apply noteCause_good
                                | apply complete_good | apply Pasture.modFirst_geo | apply modPas_good | exact geo_refl _
                                | exact geo_off _ _ _ | split | (refine good_fst (by assumption) ?_)
                                | (refine good_snd (by assumption) ?_) | (refine goodOut_eq ?_ (by assumption)) | intro _
                                | dsimp only [id_eq])
theorem execRunCompletion_good (p : PasId) (env : IoOutcome) (s : State) (gd : Good s0 s) : GoodOut s0
    (execRunCompletion p env s) := by
  unfold execRunCompletion
  dsimp only
  split
  · exact goodOut_nothing gd
  · rename_i r _ _
    split
    · exact goodOut_nothing gd
    · split
      · exact goodOut_next (failFirst_good _ _ _ (noteDma_good _ _ gd))
      · split
        · exact goodOut_next (failFirst_good _ _ _ gd)
        · split
          · exact goodOut_next (failFirst_good _ _ _ gd)
          · have ge := egress_good s p.val (s.ioList r.outList r.outN) gd
            split
            · rename_i e
              rw [e] at ge
              exact goodOut_next (failFirst_good _ _ _ (good_keepHost gd ge))
            · rename_i e
              rw [e] at ge
              exact goodOut_next (deliverFirst_good _ _ _ (writeStamp_good _ _ _ _ _ _ ge))
theorem geomResult_good (s : State) (p : Nat) (st : Status) (gd : Good s0 s) : Good s0 (State.geomResult s p st) := by
  unfold State.geomResult
  with_reducible repeat' (first | assumption | apply modPas_good | apply modPas_good | exact geo_refl _ | split
                                | (refine good_fst (by assumption) ?_) | (refine good_snd (by assumption) ?_) | intro _)
theorem enabledAt_good (s : State) (p : Nat) (c w : Byte)
    (hn : ∀ q vx, q < 16 → q ≠ p → s.holdsCol q vx = true → ¬ (c.toNat ≤ vx ∧ vx < c.toNat + w.toNat))
    (gd : Good s0 s) : Good s0 (s.enabledAt p c w) := by
  have key : ∀ q vx, q ≠ p → (s.enabledAt p c w).holdsCol q vx = s.holdsCol q vx := by
    intro q vx e
    unfold State.holdsCol State.enabledAt
    rw [State.modPas_pasture_other _ _ _ _ e]
  have at_p : ∀ vx, (s.enabledAt p c w).holdsCol p vx = true → c.toNat ≤ vx ∧ vx < c.toNat + w.toNat := by
    intro vx e
    unfold State.holdsCol State.enabledAt at e
    simpa using e
  refine ⟨gd.1, gd.2, gd.3, gd.4, gd.5, gd.6, fun d => ?_⟩
  have d' := gd.7 d
  intro a b vx ha hb h1 h2
  by_cases ea : a = p <;> by_cases eb : b = p
  · rw [ea, eb]
  · subst ea
    rw [show (smapGet {} (s.enabledAt a c w).pas b).covers vx = (s.enabledAt a c w).holdsCol b vx from rfl, key b vx eb] at h2
    exact absurd (at_p vx h1) (hn b vx hb eb h2)
  · subst eb
    rw [show (smapGet {} (s.enabledAt b c w).pas a).covers vx = (s.enabledAt b c w).holdsCol a vx from rfl, key a vx ea] at h1
    exact absurd (at_p vx h2) (hn a vx ha ea h1)
  · rw [show (smapGet {} (s.enabledAt p c w).pas a).covers vx = (s.enabledAt p c w).holdsCol a vx from rfl, key a vx ea] at h1
    rw [show (smapGet {} (s.enabledAt p c w).pas b).covers vx = (s.enabledAt p c w).holdsCol b vx from rfl, key b vx eb] at h2
    exact d' a b vx ha hb h1 h2
theorem start_free {s : State} {p : Nat} {c w : Byte} {st : Status} (e : s.startRefusal p c w = none) :
    ∀ q vx, q < 16 → q ≠ p → (s.geomResult p st).holdsCol q vx = true → ¬ (c.toNat ≤ vx ∧ vx < c.toNat + w.toNat) := by
  intro q vx hq hqp hh hr
  have hh' : s.holdsCol q vx = true := by
    unfold State.holdsCol State.geomResult at hh
    rw [State.modPas_pasture_other _ _ _ _ hqp] at hh
    exact hh
  unfold State.startRefusal at e
  dsimp only at e
  split at e
  · cases e
  · split at e
    · cases e
    · rename_i ho
      refine ho (List.any_eq_true.mpr ⟨vx, ?_, List.any_eq_true.mpr ⟨q, List.mem_range.mpr hq, ?_⟩⟩)
      · exact List.mem_map.mpr ⟨vx - c.toNat, List.mem_range.mpr (by omega), by omega⟩
      · simp [hqp, hh']
theorem execPastureStart_good (p : PasId) (col0 width : Byte) (s : State) (gd : Good s0 s) :
    GoodOut s0 (execPastureStart p col0 width s) := by
  unfold execPastureStart
  with_reducible repeat' (first | assumption | apply nothing_good | apply geomResult_good | apply enabledAt_good
                                | apply modPas_good | apply applyAuto_good | apply resumeBeats_good | apply modPas_good
                                | exact start_free (by assumption) | exact geo_refl _ | exact geo_off _ _ _
                                | apply goodOut_next | apply goodOut_nothing | exact goodOut_fault _ | exact goodOut_refused _
                                | split | (refine good_fst (by assumption) ?_) | (refine good_snd (by assumption) ?_)
                                | (refine goodOut_eq ?_ (by assumption)) | intro _ | dsimp only [id_eq])
theorem execPastureStop_good (p : PasId) (s : State) (gd : Good s0 s) : GoodOut s0 (execPastureStop p s) := by
  unfold execPastureStop
  with_reducible repeat' (first | assumption | apply geomResult_good | apply endOutage_good | apply endStall_good
                                | apply applyAuto_good | apply modPas_good | exact geo_refl _ | exact geo_off _ _ _ | split
                                | (refine good_fst (by assumption) ?_) | (refine good_snd (by assumption) ?_)
                                | apply goodOut_next | apply goodOut_nothing | exact goodOut_fault _
                                | exact goodOut_refused _ | (refine goodOut_eq ?_ (by assumption)) | intro _
                                | dsimp only [id_eq])
theorem execQosWrite_good (p : PasId) (value : BitVec 32) (s : State) (gd : Good s0 s) : GoodOut s0 (execQosWrite p value s) := by
  unfold execQosWrite
  with_reducible repeat' (first | assumption | apply modPas_good | apply nothing_good | apply modPas_good | exact geo_refl _
                                | apply goodOut_next | apply goodOut_nothing | exact goodOut_fault _ | exact goodOut_refused _
                                | split | (refine good_fst (by assumption) ?_) | (refine good_snd (by assumption) ?_)
                                | intro _ | dsimp only [id_eq])

/-! ### Transfers -/

theorem sendService_good (s : State) (link : Nat) (ps : List FabPacket) (gd : Good s0 s) :
    Good s0 (State.sendService s link ps) := by
  unfold State.sendService
  with_reducible repeat' (first | assumption | apply pumpPort_good | apply modPort_good | split
                                | (refine good_fst (by assumption) ?_) | (refine good_snd (by assumption) ?_)
                                | (refine goodOut_eq ?_ (by assumption)) | intro _ | dsimp only [id_eq])
theorem putXfer_good (s : State) (old new : Transfer) (gd : Good s0 s) : Good s0 (State.putXfer s old new) := by
  unfold State.putXfer
  with_reducible repeat' (first | assumption)
theorem sendPage_good (s : State) (x : Transfer) (gd : Good s0 s) : Good s0 (State.sendPage s x) := by
  unfold State.sendPage
  with_reducible repeat' (first | assumption | apply stackFetch_good | apply putXfer_good | apply sendService_good
                                | apply failXfer_good | split | (refine good_fst (by assumption) ?_)
                                | (refine good_snd (by assumption) ?_) | (refine goodOut_eq ?_ (by assumption)) | intro _
                                | dsimp only [id_eq])
theorem execXfer_good (fn : FnId) (ring : Fin 16) (s : State) (gd : Good s0 s) : GoodOut s0 (execXfer fn ring s) := by
  unfold execXfer
  with_reducible repeat' (first | assumption | apply onEntry_good | apply answer_good | apply sendPage_good
                                | apply goodOut_next | apply goodOut_nothing | exact goodOut_fault _ | exact goodOut_refused _
                                | split | (refine good_fst (by assumption) ?_) | (refine good_snd (by assumption) ?_)
                                | intro _ | dsimp only [id_eq])
theorem takeService_good (s : State) (n : Nat) (p : FabPacket) (gd : Good s0 s) : Good s0 (State.takeService s n p) := by
  unfold State.takeService
  with_reducible repeat' (first | assumption | apply modPort_good | apply modPort_good | split)
theorem serviceBad_good (s : State) (n : Nat) (p : FabPacket) (gd : Good s0 s) : Good s0 (State.serviceBad s n p) := by
  unfold State.serviceBad
  with_reducible repeat' (first | assumption | apply pkgEvent_good | apply modPas_good | exact geo_refl _
                                | exact geo_off _ _ _ | split | (refine good_fst (by assumption) ?_)
                                | (refine good_snd (by assumption) ?_) | (refine goodOut_eq ?_ (by assumption)) | intro _
                                | dsimp only [id_eq])
theorem pageDone_good (s : State) (x : Transfer) (gd : Good s0 s) : Good s0 (State.pageDone s x) := by
  unfold State.pageDone
  with_reducible repeat' (first | assumption | apply finishXfer_good | apply putXfer_good | apply sendPage_good | split
                                | (refine good_fst (by assumption) ?_) | (refine good_snd (by assumption) ?_)
                                | (refine goodOut_eq ?_ (by assumption)) | intro _ | dsimp only [id_eq])
theorem ackPage_good (s : State) (x : Transfer) (gd : Good s0 s) : Good s0 (State.ackPage s x) := by
  unfold State.ackPage
  with_reducible repeat' (first | assumption | apply sendService_good | split | (refine good_fst (by assumption) ?_)
                                | (refine good_snd (by assumption) ?_) | (refine goodOut_eq ?_ (by assumption)) | intro _
                                | dsimp only [id_eq])
theorem pageUnwritten_good (s : State) (x : Transfer) (gd : Good s0 s) : Good s0 (State.pageUnwritten s x) := by
  unfold State.pageUnwritten
  with_reducible repeat' (first | assumption | apply stopPasture_good | apply failXfer_good | apply stkRecord_good | apply modStack_good
                                | split | intro _ | dsimp only [id_eq])
theorem execSvcData_good (link : Fin 2) (pkt : FabPacket) (stackOk : Bool) (s : State) (gd : Good s0 s) :
    GoodOut s0 (execSvcData link pkt stackOk s) := by
  unfold execSvcData
  with_reducible repeat' (first | assumption | apply nothing_good | apply takeService_good | apply serviceBad_good
                                | apply putXfer_good | apply failXfer_good | apply stackWrite_good | apply ackPage_good
                                | apply pageDone_good | apply pageUnwritten_good | split | (refine good_fst (by assumption) ?_)
                                | (refine good_snd (by assumption) ?_) | apply goodOut_next | apply goodOut_nothing
                                | exact goodOut_fault _ | exact goodOut_refused _ | (refine goodOut_eq ?_ (by assumption))
                                | intro _ | dsimp only [id_eq])
theorem execSvcAck_good (link : Fin 2) (pkt : FabPacket) (s : State) (gd : Good s0 s) : GoodOut s0 (execSvcAck link pkt s) := by
  unfold execSvcAck
  with_reducible repeat' (first | assumption | apply nothing_good | apply takeService_good | apply serviceBad_good
                                | apply pageDone_good | split | (refine good_fst (by assumption) ?_)
                                | (refine good_snd (by assumption) ?_) | apply goodOut_next | apply goodOut_nothing
                                | exact goodOut_fault _ | exact goodOut_refused _ | (refine goodOut_eq ?_ (by assumption))
                                | intro _ | dsimp only [id_eq])
theorem runXfers_good (s : State) (gd : Good s0 s) : Good s0 (State.runXfers s) := by
  unfold State.runXfers
  with_reducible repeat' (first | assumption | apply sendPage_good | (apply good_foldl; intro _ _ _)
                                | (apply good_foldl_fst; intro _ _ _) | (apply good_foldl_snd; intro _ _ _) | split
                                | (refine good_fst (by assumption) ?_) | (refine good_snd (by assumption) ?_)
                                | (refine goodOut_eq ?_ (by assumption)) | intro _ | dsimp only [id_eq])
theorem execXferLinkTimeout_good (link : Fin 2) (s : State) (gd : Good s0 s) : GoodOut s0 (execXferLinkTimeout link s) := by
  unfold execXferLinkTimeout
  with_reducible repeat' (first | assumption | apply nothing_good | apply failXfer_good | apply goodOut_next
                                | apply goodOut_nothing | exact goodOut_fault _ | exact goodOut_refused _ | split)

/-! ### Loader -/

theorem restartChain_good (s : State) (p : Nat) (prog weights : Digest) (gd : Good s0 s) : Good s0
    (State.restartChain s p prog weights) := by
  unfold State.restartChain
  with_reducible repeat' (first | assumption | apply modPas_good | apply modPas_good | exact geo_refl _ | split
                                | (refine good_fst (by assumption) ?_) | (refine good_snd (by assumption) ?_) | intro _)
theorem Pasture.unloaded_geo {z : Pasture} (x : Pasture) (h : GeoLe z x) : GeoLe z (Pasture.unloaded x) := by
  unfold Pasture.unloaded
  with_reducible repeat' (first | assumption)
theorem acceptLoad_good (s : State) (p : Nat) (j : LoadJob) (gd : Good s0 s) : Good s0 (State.acceptLoad s p j) := by
  unfold State.acceptLoad
  with_reducible repeat' (first | assumption | apply restartChain_good | apply endStall_good | apply Pasture.unloaded_geo
                                | apply modPas_good | exact geo_refl _ | exact geo_off _ _ _ | split
                                | (refine good_fst (by assumption) ?_) | (refine good_snd (by assumption) ?_)
                                | (refine goodOut_eq ?_ (by assumption)) | intro _ | dsimp only [id_eq])
theorem refuseLoad_good (s : State) (id : EntryId) (p : Nat) (st : Status) (gd : Good s0 s) : Good s0
    (State.refuseLoad s id p st) := by
  unfold State.refuseLoad
  with_reducible repeat' (first | assumption | apply modPas_good | apply finish_good | apply modPas_good | exact geo_refl _
                                | split | (refine good_fst (by assumption) ?_) | (refine good_snd (by assumption) ?_) | intro _)
theorem loadRequest_good (s : State) (id : EntryId) (e : List Byte) (weights dmaOk : Bool) (gd : Good s0 s) :
    Good s0 (State.loadRequest s id e weights dmaOk) := by
  unfold State.loadRequest
  with_reducible repeat' (first | assumption | apply noteDma_good | apply refuseLoad_good | apply acceptLoad_good | split
                                | (refine good_fst (by assumption) ?_) | (refine good_snd (by assumption) ?_)
                                | (refine goodOut_eq ?_ (by assumption)) | intro _ | dsimp only [id_eq])
theorem execLoadProgram_good (fn : FnId) (ring : Fin 16) (dmaOk : Bool) (s : State) (gd : Good s0 s) :
    GoodOut s0 (execLoadProgram fn ring dmaOk s) := by
  unfold execLoadProgram
  with_reducible repeat' (first | assumption | apply onEntry_good | apply loadRequest_good | split
                                | (refine good_fst (by assumption) ?_) | (refine good_snd (by assumption) ?_)
                                | apply goodOut_next | apply goodOut_nothing | exact goodOut_fault _
                                | exact goodOut_refused _ | (refine goodOut_eq ?_ (by assumption)) | intro _
                                | dsimp only [id_eq])
theorem execLoadWeights_good (fn : FnId) (ring : Fin 16) (dmaOk : Bool) (s : State) (gd : Good s0 s) :
    GoodOut s0 (execLoadWeights fn ring dmaOk s) := by
  unfold execLoadWeights
  with_reducible repeat' (first | assumption | apply onEntry_good | apply loadRequest_good | split
                                | (refine good_fst (by assumption) ?_) | (refine good_snd (by assumption) ?_)
                                | apply goodOut_next | apply goodOut_nothing | exact goodOut_fault _
                                | exact goodOut_refused _ | (refine goodOut_eq ?_ (by assumption)) | intro _
                                | dsimp only [id_eq])
theorem zeroRegion_good (s : State) (p : Nat) (r : Region) (gd : Good s0 s) : Good s0 (State.zeroRegion s p r) := by
  unfold State.zeroRegion
  with_reducible repeat' (first | assumption | apply modTile_good | apply stackWrite_good | apply mainWrite_good
                                | apply Tile.writeSlot_ok | apply modTile_good | (apply tile_foldl; intro _ _ _)
                                | (apply good_foldl; intro _ _ _) | split | (refine good_fst (by assumption) ?_)
                                | (refine good_snd (by assumption) ?_) | intro _)
theorem writeSegment_good (s : State) (k : Nat) (rs : List Region) (g : Segment) (gd : Good s0 s) :
    Good s0 (s.writeSegment k rs g) := by
  unfold State.writeSegment
  with_reducible repeat' (first | assumption | apply mainWrite_good | apply modTile_good | apply Tile.writeSlot_ok
                                | (apply tile_foldl; intro _ _ _) | split | intro _)
theorem writeSection_good (s : State) (rs : List Region) (t : TileSection) (gd : Good s0 s) :
    Good s0 (State.writeSection s rs t) := by
  unfold State.writeSection
  with_reducible repeat' (first | assumption | apply writeSegment_good | (apply good_foldl; intro _ _ _)
                                | (apply good_foldl_fst; intro _ _ _) | (apply good_foldl_snd; intro _ _ _) | split
                                | (refine good_fst (by assumption) ?_) | (refine good_snd (by assumption) ?_)
                                | (refine goodOut_eq ?_ (by assumption)) | intro _ | dsimp only [id_eq])
theorem writeConfig_good (s : State) (t : TileSection) (gd : Good s0 s) : Good s0 (State.writeConfig s t) := by
  unfold State.writeConfig
  with_reducible repeat' (first | assumption | apply modTile_good | apply writeOpen_good | apply modTile_good | split
                                | (refine good_fst (by assumption) ?_) | (refine good_snd (by assumption) ?_)
                                | (refine goodOut_eq ?_ (by assumption)) | intro _)
theorem writeTileCfg_good (s : State) (all : List Region) (ltv k : Nat) (gd : Good s0 s) : Good s0
    (State.writeTileCfg s all ltv k) := by
  unfold State.writeTileCfg
  with_reducible repeat' (first | assumption | apply modTile_good | apply State.reaches_ok | apply modTile_good | split
                                | (refine good_fst (by assumption) ?_) | (refine good_snd (by assumption) ?_) | intro _)
theorem mapFolds_good (s : State) (p : Nat) (b : Binary) (gd : Good s0 s) : Good s0 (State.mapFolds s p b) := by
  unfold State.mapFolds
  with_reducible repeat' (first | assumption | apply modTile_good | apply modPas_good | apply putFold_good
                                | apply Pasture.afterReset_geo | apply modTile_good | apply modPas_good | apply putFold_good
                                | exact geo_refl _ | (apply good_foldl; intro _ _ _) | split
                                | (refine good_fst (by assumption) ?_) | (refine good_snd (by assumption) ?_) | intro _)
theorem writeWeights_good (s : State) (p : Nat) (b : Binary) (place : List (Nat × Nat × Nat)) (gd : Good s0 s) : Good s0
    (State.writeWeights s p b place) := by
  unfold State.writeWeights
  with_reducible repeat' (first | assumption | apply zeroRegion_good | apply writeSection_good | apply modPas_good
                                | apply modPas_good | exact geo_refl _ | (apply good_foldl; intro _ _ _) | split
                                | (refine good_fst (by assumption) ?_) | (refine good_snd (by assumption) ?_) | intro _)
theorem writeProgram_good (s : State) (p : Nat) (b : Binary) (place : List (Nat × Nat × Nat)) (gd : Good s0 s) : Good s0
    (State.writeProgram s p b place) := by
  unfold State.writeProgram
  with_reducible repeat' (first | assumption | apply writeConfig_good | apply zeroRegion_good | apply writeSection_good
                                | apply writeTileCfg_good | apply mapFolds_good | apply modPas_good | apply modPas_good
                                | exact geo_refl _ | (apply good_foldl; intro _ _ _) | split
                                | (refine good_fst (by assumption) ?_) | (refine good_snd (by assumption) ?_) | intro _)
theorem execLoadComplete_good (p : PasId) (s : State) (gd : Good s0 s) : GoodOut s0 (execLoadComplete p s) := by
  unfold execLoadComplete
  with_reducible repeat' (first | assumption | apply nothing_good | apply writeWeights_good | apply writeProgram_good
                                | apply modPas_good | apply resumeBeats_good | apply finish_good | apply modPas_good
                                | exact geo_refl _ | apply goodOut_next | apply goodOut_nothing | exact goodOut_fault _
                                | exact goodOut_refused _ | split | (refine good_fst (by assumption) ?_)
                                | (refine good_snd (by assumption) ?_) | (refine goodOut_eq ?_ (by assumption)) | intro _)

/-! ### Security -/

theorem secDone_good (s : State) (id : EntryId) (e : List Byte) (st : Status) (n : Nat) (gd : Good s0 s) : Good s0
    (State.secDone s id e st n) := by
  unfold State.secDone
  with_reducible repeat' (first | assumption | apply complete_good)
theorem respond_good (s : State) (id : EntryId) (e : List Byte) (bs : List Byte) (gd : Good s0 s) : Good s0
    (State.respond s id e bs) := by
  unfold State.respond
  with_reducible repeat' (first | assumption | apply writeHost_good | apply secDone_good)
theorem onSecurity_good (s : State) (fn : FnId) (ring : Fin 16) (kind : Nat) (mine : List Byte → Bool)
    (act : State → EntryId → List Byte → State) (ha : ∀ s i e, Good s0 s → Good s0 (act s i e)) (gd : Good s0 s) :
    GoodOut s0 (s.onSecurity fn ring kind mine act) := by
  unfold State.onSecurity
  split
  · exact goodOut_nothing gd
  · refine onEntry_good s fn ring _ _ (fun s i e gs => ?_) gd
    with_reducible repeat' (first | assumption | apply ha | apply secDone_good | split)
theorem bufferFailed_good (s : State) (id : EntryId) (e : List Byte) (gd : Good s0 s) : Good s0 (s.bufferFailed id e) := by
  unfold State.bufferFailed
  with_reducible repeat' (first | assumption | apply secDone_good | apply noteDma_good)
theorem readBuffer_good (s : State) (id : EntryId) (e : List Byte) (act : State → List Byte → State)
    (ha : ∀ s c, Good s0 s → Good s0 (act s c)) (gd : Good s0 s) : Good s0 (s.readBuffer id e act) := by
  unfold State.readBuffer
  with_reducible repeat' (first | assumption | apply ha | apply bufferFailed_good | apply modFn_good | split)
theorem execAttest_good (fn : FnId) (ring : Fin 16) (s : State) (gd : Good s0 s) : GoodOut s0 (execAttest fn ring s) := by
  unfold execAttest
  with_reducible repeat' (first | assumption | apply onSecurity_good | apply readBuffer_good | apply respond_good | split
                                | (refine good_fst (by assumption) ?_) | (refine good_snd (by assumption) ?_)
                                | apply goodOut_next | apply goodOut_nothing | exact goodOut_fault _
                                | exact goodOut_refused _ | (refine goodOut_eq ?_ (by assumption)) | intro _
                                | dsimp only [id_eq])
theorem execCerts_good (fn : FnId) (ring : Fin 16) (s : State) (gd : Good s0 s) : GoodOut s0 (execCerts fn ring s) := by
  unfold execCerts
  with_reducible repeat' (first | assumption | apply onSecurity_good | apply respond_good | split
                                | (refine good_fst (by assumption) ?_) | (refine good_snd (by assumption) ?_)
                                | apply goodOut_next | apply goodOut_nothing | exact goodOut_fault _
                                | exact goodOut_refused _ | (refine goodOut_eq ?_ (by assumption)) | intro _
                                | dsimp only [id_eq])
theorem execChainSign_good (fn : FnId) (ring : Fin 16) (s : State) (gd : Good s0 s) : GoodOut s0 (execChainSign fn ring s) := by
  unfold execChainSign
  with_reducible repeat' (first | assumption | apply onSecurity_good | apply readBuffer_good | apply secDone_good
                                | apply respond_good | split | (refine good_fst (by assumption) ?_)
                                | (refine good_snd (by assumption) ?_) | apply goodOut_next | apply goodOut_nothing
                                | exact goodOut_fault _ | exact goodOut_refused _ | (refine goodOut_eq ?_ (by assumption))
                                | intro _ | dsimp only [id_eq])
theorem execPeriodicRecordSign_good (p : PasId) (s : State) (gd : Good s0 s) : GoodOut s0 (execPeriodicRecordSign p s) := by
  unfold execPeriodicRecordSign
  with_reducible repeat' (first | assumption | apply nothing_good | apply modPas_good | apply modPas_good | exact geo_refl _
                                | apply goodOut_next | apply goodOut_nothing | exact goodOut_fault _ | exact goodOut_refused _
                                | split | (refine good_fst (by assumption) ?_) | (refine good_snd (by assumption) ?_)
                                | (refine goodOut_eq ?_ (by assumption)) | intro _)
theorem signedCommand_good (s : State) (id : EntryId) (e : List Byte) (env : CommandOutcome) (ownership : Option Status)
    (act : State → List Byte → State) (ha : ∀ s c, Good s0 s → Good s0 (act s c)) (gd : Good s0 s) :
    Good s0 (s.signedCommand id e env ownership act) := by
  unfold State.signedCommand
  with_reducible repeat' (first | assumption | apply ha | apply secDone_good | apply bufferFailed_good | apply goodOut_next | apply goodOut_nothing
                                | split | (refine good_fst (by assumption) ?_) | intro _ | dsimp only [id_eq])
theorem noteDebug_good (s : State) (gd : Good s0 s) : Good s0 (State.noteDebug s) := by
  unfold State.noteDebug
  with_reducible repeat' (first | assumption | apply modPas_good | apply modPas_good | exact geo_refl _
                                | (apply good_foldl; intro _ _ _) | split | (refine good_fst (by assumption) ?_)
                                | (refine good_snd (by assumption) ?_) | intro _)
theorem lockJtag_good (s : State) (gd : Good s0 s) : Good s0 (State.lockJtag s) := by
  unfold State.lockJtag
  with_reducible repeat' (first | assumption | apply noteDebug_good | apply draw_good)
theorem setOwner_good (s : State) (c : List Byte) (key : Option (List Byte)) (gd : Good s0 s) : Good s0
    (State.setOwner s c key) := by
  unfold State.setOwner
  with_reducible repeat' (first | assumption)
theorem execOwnerTake_good (fn : FnId) (ring : Fin 16) (env : CommandOutcome) (s : State) (gd : Good s0 s) :
    GoodOut s0 (execOwnerTake fn ring env s) := by
  unfold execOwnerTake
  with_reducible repeat' (first | assumption | apply onSecurity_good | apply signedCommand_good | apply setOwner_good | split
                                | (refine good_fst (by assumption) ?_) | (refine good_snd (by assumption) ?_)
                                | apply goodOut_next | apply goodOut_nothing | exact goodOut_fault _
                                | exact goodOut_refused _ | (refine goodOut_eq ?_ (by assumption)) | intro _
                                | dsimp only [id_eq])
theorem execOwnerChange_good (fn : FnId) (ring : Fin 16) (env : CommandOutcome) (s : State) (gd : Good s0 s) :
    GoodOut s0 (execOwnerChange fn ring env s) := by
  unfold execOwnerChange
  with_reducible repeat' (first | assumption | apply onSecurity_good | apply signedCommand_good | apply setOwner_good | split
                                | (refine good_fst (by assumption) ?_) | (refine good_snd (by assumption) ?_)
                                | apply goodOut_next | apply goodOut_nothing | exact goodOut_fault _
                                | exact goodOut_refused _ | (refine goodOut_eq ?_ (by assumption)) | intro _
                                | dsimp only [id_eq])
theorem execOwnerRelease_good (fn : FnId) (ring : Fin 16) (env : CommandOutcome) (s : State) (gd : Good s0 s) :
    GoodOut s0 (execOwnerRelease fn ring env s) := by
  unfold execOwnerRelease
  with_reducible repeat' (first | assumption | apply onSecurity_good | apply signedCommand_good | apply setOwner_good
                                | apply lockJtag_good | split | (refine good_fst (by assumption) ?_)
                                | (refine good_snd (by assumption) ?_) | apply goodOut_next | apply goodOut_nothing
                                | exact goodOut_fault _ | exact goodOut_refused _ | (refine goodOut_eq ?_ (by assumption))
                                | intro _ | dsimp only [id_eq])
theorem execSigners_good (fn : FnId) (ring : Fin 16) (env : CommandOutcome) (s : State) (gd : Good s0 s) :
    GoodOut s0 (execSigners fn ring env s) := by
  unfold execSigners
  with_reducible repeat' (first | assumption | apply onSecurity_good | apply signedCommand_good | split
                                | (refine good_fst (by assumption) ?_) | (refine good_snd (by assumption) ?_)
                                | apply goodOut_next | apply goodOut_nothing | exact goodOut_fault _
                                | exact goodOut_refused _ | (refine goodOut_eq ?_ (by assumption)) | intro _
                                | dsimp only [id_eq])
theorem execUnlock_good (fn : FnId) (ring : Fin 16) (dmaOk : Bool) (s : State) (gd : Good s0 s) :
    GoodOut s0 (execUnlock fn ring dmaOk s) := by
  unfold execUnlock
  with_reducible repeat' (first | assumption | apply onSecurity_good | apply secDone_good | apply noteDebug_good
                                | apply bufferFailed_good | split
                                | (refine good_fst (by assumption) ?_) | (refine good_snd (by assumption) ?_)
                                | apply goodOut_next | apply goodOut_nothing | exact goodOut_fault _
                                | exact goodOut_refused _ | (refine goodOut_eq ?_ (by assumption)) | intro _
                                | dsimp only [id_eq])
theorem execRelock_good (fn : FnId) (ring : Fin 16) (s : State) (gd : Good s0 s) : GoodOut s0 (execRelock fn ring s) := by
  unfold execRelock
  with_reducible repeat' (first | assumption | apply onSecurity_good | apply lockJtag_good | apply secDone_good
                                | apply goodOut_next | apply goodOut_nothing | exact goodOut_fault _ | exact goodOut_refused _
                                | split | (refine good_fst (by assumption) ?_) | (refine good_snd (by assumption) ?_) | intro _)
theorem execSvnCommit_good (fn : FnId) (ring : Fin 16) (flashOk : Bool) (s : State) (gd : Good s0 s) : GoodOut s0
    (execSvnCommit fn ring flashOk s) := by
  unfold execSvnCommit
  with_reducible repeat' (first | assumption | apply onSecurity_good | apply secDone_good | apply goodOut_next
                                | apply goodOut_nothing | exact goodOut_fault _ | exact goodOut_refused _ | split
                                | (refine good_fst (by assumption) ?_) | (refine good_snd (by assumption) ?_) | intro _)

/-! ### Jtag -/

theorem clockJtag_good (s : State) (trst tms tdi : Bool) (gd : Good s0 s) : Good s0 (State.clockJtag s trst tms tdi) := by
  unfold State.clockJtag
  with_reducible repeat' (first | assumption | split | (refine good_fst (by assumption) ?_)
                                | (refine good_snd (by assumption) ?_) | (refine goodOut_eq ?_ (by assumption)) | intro _
                                | dsimp only [id_eq])

/-! ### Boot -/

theorem runStep_good (s : State) (n : Nat) (gd : Good s0 s) : Good s0 (State.runStep s n) := by
  unfold State.runStep
  with_reducible repeat' (first | assumption)
theorem endStep_good (s : State) (ns : List Nat) (gd : Good s0 s) : Good s0 (State.endStep s ns) := by
  unfold State.endStep
  with_reducible repeat' (first | assumption |  split)
theorem failStep_good (s : State) (gd : Good s0 s) : Good s0 (State.failStep s) := by
  unfold State.failStep
  with_reducible repeat' (first | assumption)
theorem stepToMgmt_good (s : State) (st : Status) (gd : Good s0 s) : Good s0 (State.stepToMgmt s st) := by
  unfold State.stepToMgmt
  with_reducible repeat' (first | assumption | apply bootEvent_good | apply enterMgmtOnly_good)
theorem useImage_good (s : State) (slot : Nat) (v : ImageVerdict) (gd : Good s0 s) : Good s0 (State.useImage s slot v) := by
  unfold State.useImage
  with_reducible repeat' (first | assumption | split | (refine good_fst (by assumption) ?_)
                                | (refine good_snd (by assumption) ?_) | (refine goodOut_eq ?_ (by assumption)) | intro _
                                | dsimp only [id_eq])
theorem raiseReports_good (s : State) (gd : Good s0 s) : Good s0 (State.raiseReports s) := by
  unfold State.raiseReports
  with_reducible repeat' (first | assumption | apply pkgEvent_good | (apply good_foldl; intro _ _ _))
theorem clearOverride_good (s : State) (gd : Good s0 s) : Good s0 (State.clearOverride s) := by
  unfold State.clearOverride
  with_reducible repeat' (first | assumption)
theorem fuseOffPorts_good (s : State) (gd : Good s0 s) : Good s0 (State.fuseOffPorts s) := by
  unfold State.fuseOffPorts
  with_reducible repeat' (first | assumption | apply modPort_good | (apply good_foldl; intro _ _ _)
                                | (apply good_foldl_fst; intro _ _ _) | (apply good_foldl_snd; intro _ _ _) | split
                                | (refine good_fst (by assumption) ?_) | (refine good_snd (by assumption) ?_)
                                | (refine goodOut_eq ?_ (by assumption)) | intro _ | dsimp only [id_eq])
theorem hostStepped_good (s : State) (gd : Good s0 s) : Good s0 (State.hostStepped s) := by
  unfold State.hostStepped
  with_reducible repeat' (first | assumption)
theorem flashBoot_good (s : State) (a b : Nat × ImageVerdict) (gd : Good s0 s) : Good s0 (State.flashBoot s a b) := by
  unfold State.flashBoot
  with_reducible repeat' (first | assumption | apply useImage_good | apply endStep_good | apply bootEvent_good
                                | apply hostStepped_good | split | (refine good_fst (by assumption) ?_)
                                | (refine good_snd (by assumption) ?_) | intro _ | dsimp only [id_eq])
theorem execBootShepherdVerify_good (v : ShepherdVerdict) (s : State) (gd : Good s0 s) :
    GoodOut s0 (execBootShepherdVerify v s) := by
  unfold execBootShepherdVerify
  with_reducible repeat' (first | assumption | apply nothing_good | apply runStep_good | apply clearOverride_good
                                | apply hostStepped_good | apply raiseReports_good | apply stepToMgmt_good
                                | apply endStep_good | apply enterMgmtOnly_good | apply fuseOffPorts_good
                                | apply flashBoot_good | split | (refine good_fst (by assumption) ?_)
                                | (refine good_snd (by assumption) ?_) | apply goodOut_next | apply goodOut_nothing
                                | exact goodOut_fault _ | exact goodOut_refused _ | (refine goodOut_eq ?_ (by assumption))
                                | intro _ | dsimp only [id_eq])
theorem execBootHifStart_good (s : State) (gd : Good s0 s) : GoodOut s0 (execBootHifStart s) := by
  unfold execBootHifStart
  with_reducible repeat' (first | assumption | apply step_good | apply nothing_good | apply goodOut_next
                                | apply goodOut_nothing | exact goodOut_fault _ | exact goodOut_refused _ | split)
theorem halvesLive_good (s : State) (gd : Good s0 s) : Good s0 (State.halvesLive s) := by
  unfold State.halvesLive
  with_reducible repeat' (first | assumption | split | (refine good_fst (by assumption) ?_)
                                | (refine good_snd (by assumption) ?_) | (refine goodOut_eq ?_ (by assumption)) | intro _
                                | dsimp only [id_eq])
theorem tryReady_good (s : State) (gd : Good s0 s) : Good s0 (State.tryReady s) := by
  unfold State.tryReady
  with_reducible repeat' (first | assumption |  split)
theorem stageFirmware_good (s : State) (fallback : Bool) (gd : Good s0 s) : Good s0 (State.stageFirmware s fallback) := by
  unfold State.stageFirmware
  with_reducible repeat' (first | assumption | apply writeRegion_good | split | (refine good_fst (by assumption) ?_)
                                | (refine good_snd (by assumption) ?_) | (refine goodOut_eq ?_ (by assumption)) | intro _
                                | dsimp only [id_eq])
theorem trainStacks_good (s : State) (v : StackVerdict) (gd : Good s0 s) : Good s0 (State.trainStacks s v) := by
  unfold State.trainStacks
  with_reducible repeat' (first | assumption | apply stepToMgmt_good | apply stageFirmware_good | apply bootEvent_good
                                | split | (refine good_fst (by assumption) ?_) | (refine good_snd (by assumption) ?_)
                                | (refine goodOut_eq ?_ (by assumption)) | intro _ | dsimp only [id_eq])
theorem clearStacks_good (s : State) (ok : Bool) (gd : Good s0 s) : Good s0 (State.clearStacks s ok) := by
  unfold State.clearStacks
  split
  · exact ⟨gd.1, gd.2, gd.3, gd.4, fun _ => memNil_wf, gd.6, gd.7⟩
  · exact stepToMgmt_good _ _ gd
theorem powerWave_good (s : State) (w : Nat) (v : WaveVerdict) (gd : Good s0 s) : Good s0 (State.powerWave s w v) := by
  unfold State.powerWave
  with_reducible repeat' (first | assumption | apply putHalf_good | apply bootEvent_good | (apply good_foldl; intro _ _ _)
                                | (apply good_foldl_fst; intro _ _ _) | (apply good_foldl_snd; intro _ _ _) | split
                                | (refine good_fst (by assumption) ?_) | (refine good_snd (by assumption) ?_)
                                | (refine goodOut_eq ?_ (by assumption)) | intro _ | dsimp only [id_eq])
theorem endWave_good (s : State) (gd : Good s0 s) : Good s0 (State.endWave s) := by
  unfold State.endWave
  with_reducible repeat' (first | assumption | apply endStep_good | split)
theorem runBist_good (s : State) (failures : List BistFailure) (gd : Good s0 s) : Good s0 (State.runBist s failures) := by
  unfold State.runBist
  with_reducible repeat' (first | assumption | apply good_noTiles)
theorem buildColumns_good (s : State) (gd : Good s0 s) : Good s0 (State.buildColumns s) := by
  unfold State.buildColumns
  with_reducible repeat' (first | assumption | apply formColumns_good)
theorem runFirmware_good (s : State) (v : FirmwareVerdict) (gd : Good s0 s) : Good s0 (State.runFirmware s v) := by
  unfold State.runFirmware
  with_reducible repeat' (first | assumption | apply fetchFirmware_good | apply halvesLive_good | split
                                | (refine good_fst (by assumption) ?_) | (refine good_snd (by assumption) ?_) | intro _
                                | dsimp only [id_eq])
theorem execBootStackTrain_good (v : StackVerdict) (s : State) (gd : Good s0 s) : GoodOut s0 (execBootStackTrain v s) := by
  unfold execBootStackTrain
  with_reducible repeat' (first | assumption | apply runStep_good | apply trainStacks_good | apply endStep_good
                                | apply nothing_good | apply goodOut_next | apply goodOut_nothing | exact goodOut_fault _
                                | exact goodOut_refused _ | split)
theorem execBootStackClear_good (ok : Bool) (s : State) (gd : Good s0 s) : GoodOut s0 (execBootStackClear ok s) := by
  unfold execBootStackClear
  with_reducible repeat' (first | assumption | apply runStep_good | apply clearStacks_good | apply endStep_good
                                | apply tryReady_good | apply nothing_good | apply goodOut_next | apply goodOut_nothing
                                | exact goodOut_fault _ | exact goodOut_refused _ | split)
theorem execBootWave_good (wave : Fin 17) (v : WaveVerdict) (s : State) (gd : Good s0 s) : GoodOut s0
    (execBootWave wave v s) := by
  unfold execBootWave
  with_reducible repeat' (first | assumption | apply runStep_good | apply powerWave_good | apply endWave_good
                                | apply nothing_good | apply goodOut_next | apply goodOut_nothing | exact goodOut_fault _
                                | exact goodOut_refused _ | split)
theorem execBootBist_good (failures : List BistFailure) (s : State) (gd : Good s0 s) : GoodOut s0 (execBootBist failures s) := by
  unfold execBootBist
  with_reducible repeat' (first | assumption | apply runStep_good | apply runBist_good | apply endStep_good
                                | apply nothing_good | apply goodOut_next | apply goodOut_nothing | exact goodOut_fault _
                                | exact goodOut_refused _ | split)
theorem execBootDefectMap_good (s : State) (gd : Good s0 s) : GoodOut s0 (execBootDefectMap s) := by
  unfold execBootDefectMap
  with_reducible repeat' (first | assumption | apply runStep_good | apply formDefects_good | apply endStep_good
                                | apply nothing_good | apply goodOut_next | apply goodOut_nothing | exact goodOut_fault _
                                | exact goodOut_refused _ | split)
theorem execBootColumnMap_good (s : State) (gd : Good s0 s) : GoodOut s0 (execBootColumnMap s) := by
  unfold execBootColumnMap
  with_reducible repeat' (first | assumption | apply runStep_good | apply buildColumns_good | apply endStep_good
                                | apply nothing_good | apply goodOut_next | apply goodOut_nothing | exact goodOut_fault _
                                | exact goodOut_refused _ | split)
theorem execBootTileFw_good (v : FirmwareVerdict) (s : State) (gd : Good s0 s) : GoodOut s0 (execBootTileFw v s) := by
  unfold execBootTileFw
  with_reducible repeat' (first | assumption | apply runStep_good | apply runFirmware_good | apply endStep_good
                                | apply tryReady_good | apply nothing_good | apply goodOut_next | apply goodOut_nothing
                                | exact goodOut_fault _ | exact goodOut_refused _ | split)
theorem stepRequest_good (s : State) (n : Nat) (arg : Byte) (inOrder : Bool) (run : State → State)
    (hr : ∀ s, Good s0 s → Good s0 (run s)) (gd : Good s0 s) : GoodOut s0 (s.stepRequest n arg inOrder run) := by
  unfold State.stepRequest
  with_reducible repeat' (first | assumption | apply hr | apply bootEvent_good | apply runStep_good | apply goodOut_next
                                | apply goodOut_nothing | split | (refine good_fst (by assumption) ?_) | intro _
                                | dsimp only [id_eq])
theorem execBootStepRequest2_good (arg : Byte) (v : ShepherdVerdict) (s : State) (gd : Good s0 s) : GoodOut s0
    (execBootStepRequest2 arg v s) := by
  unfold execBootStepRequest2
  with_reducible repeat' (first | assumption | apply stepRequest_good | apply raiseReports_good | apply stepToMgmt_good
                                | apply endStep_good | apply useImage_good | apply bootEvent_good | apply failStep_good
                                | apply goodOut_next | apply goodOut_nothing | exact goodOut_fault _ | exact goodOut_refused _
                                | split | (refine good_fst (by assumption) ?_) | (refine good_snd (by assumption) ?_)
                                | intro _ | dsimp only [id_eq])
theorem execBootStepRequest4_good (arg : Byte) (v : StackVerdict) (clearOk : Bool) (s : State) (gd : Good s0 s) : GoodOut s0
    (execBootStepRequest4 arg v clearOk s) := by
  unfold execBootStepRequest4
  with_reducible repeat' (first | assumption | apply stepRequest_good | apply trainStacks_good | apply clearStacks_good
                                | apply endStep_good | apply tryReady_good | apply goodOut_next | apply goodOut_nothing
                                | exact goodOut_fault _ | exact goodOut_refused _ | split
                                | (refine good_fst (by assumption) ?_) | (refine good_snd (by assumption) ?_) | intro _)
theorem execBootStepRequest5_good (arg : Byte) (v : WaveVerdict) (s : State) (gd : Good s0 s) : GoodOut s0
    (execBootStepRequest5 arg v s) := by
  unfold execBootStepRequest5
  with_reducible repeat' (first | assumption | apply stepRequest_good | apply powerWave_good | apply endWave_good
                                | apply goodOut_next | apply goodOut_nothing | exact goodOut_fault _ | exact goodOut_refused _
                                | split | (refine good_fst (by assumption) ?_) | (refine good_snd (by assumption) ?_) | intro _)
theorem execBootStepRequest6_good (arg : Byte) (failures : List BistFailure) (s : State) (gd : Good s0 s) : GoodOut s0
    (execBootStepRequest6 arg failures s) := by
  unfold execBootStepRequest6
  with_reducible repeat' (first | assumption | apply stepRequest_good | apply runBist_good | apply endStep_good
                                | apply goodOut_next | apply goodOut_nothing | exact goodOut_fault _ | exact goodOut_refused _
                                | split | (refine good_fst (by assumption) ?_) | (refine good_snd (by assumption) ?_) | intro _)
theorem execBootStepRequest7_good (arg : Byte) (s : State) (gd : Good s0 s) : GoodOut s0 (execBootStepRequest7 arg s) := by
  unfold execBootStepRequest7
  with_reducible repeat' (first | assumption | apply stepRequest_good | apply formDefects_good | apply endStep_good
                                | apply goodOut_next | apply goodOut_nothing | exact goodOut_fault _ | exact goodOut_refused _
                                | split | (refine good_fst (by assumption) ?_) | (refine good_snd (by assumption) ?_) | intro _)
theorem execBootStepRequest8_good (arg : Byte) (s : State) (gd : Good s0 s) : GoodOut s0 (execBootStepRequest8 arg s) := by
  unfold execBootStepRequest8
  with_reducible repeat' (first | assumption | apply stepRequest_good | apply buildColumns_good | apply endStep_good
                                | apply goodOut_next | apply goodOut_nothing | exact goodOut_fault _ | exact goodOut_refused _
                                | split | (refine good_fst (by assumption) ?_) | (refine good_snd (by assumption) ?_) | intro _)
theorem execBootStepRequest9_good (arg : Byte) (v : FirmwareVerdict) (s : State) (gd : Good s0 s) : GoodOut s0
    (execBootStepRequest9 arg v s) := by
  unfold execBootStepRequest9
  with_reducible repeat' (first | assumption | apply stepRequest_good | apply runFirmware_good | apply endStep_good
                                | apply tryReady_good | apply goodOut_next | apply goodOut_nothing | exact goodOut_fault _
                                | exact goodOut_refused _ | split | (refine good_fst (by assumption) ?_)
                                | (refine good_snd (by assumption) ?_) | intro _)

/-! ### Folds -/

theorem contribute_good (s : State) (k p f : Nat) (ws : List Word) (gd : Good s0 s) : Good s0 (State.contribute s k p f ws) := by
  unfold State.contribute
  with_reducible repeat' (first | assumption | apply modTile_good | apply send_good | apply modTile_good | apply good_spad
                                | split | (refine good_fst (by assumption) ?_) | (refine good_snd (by assumption) ?_) | intro _)
theorem enterFold_good (s : State) (k p f : Nat) (ws : List Word) (gd : Good s0 s) : Good s0 (State.enterFold s k p f ws) := by
  unfold State.enterFold
  with_reducible repeat' (first | assumption | apply modTile_good | apply contribute_good | apply modTile_good
                                | apply good_spad | split | (refine good_fst (by assumption) ?_)
                                | (refine good_snd (by assumption) ?_) | intro _)
theorem cnwFault_good (s : State) (k : Nat) (st : Status) (gd : Good s0 s) : Good s0 (State.cnwFault s k st) := by
  unfold State.cnwFault
  with_reducible repeat' (first | assumption | apply cnwRecord_good | apply stopTile_good)
theorem execFold_good (vx : Vx) (vy : Vy) (s : State) (gd : Good s0 s) : GoodOut s0 (execFold vx vy s) := by
  unfold execFold
  with_reducible repeat' (first | assumption | apply issueDesc_good | apply issueTile_good | apply nothing_good
                                | apply enterFold_good | apply noteHolds_good | apply cnwFault_good | apply good_spad
                                | apply goodOut_next | apply goodOut_nothing | exact goodOut_fault _ | exact goodOut_refused _
                                | split | (refine good_fst (by assumption) ?_) | (refine good_snd (by assumption) ?_)
                                | (refine goodOut_eq ?_ (by assumption)) | intro _ | dsimp only [id_eq])
theorem closeFold_good (s : State) (p f : Nat) (x : Fold) (gd : Good s0 s) : Good s0 (State.closeFold s p f x) := by
  unfold State.closeFold
  with_reducible repeat' (first | assumption | apply inject_good | apply sendAt_good | apply signal_good | apply putFold_good
                                | (apply good_foldl; intro _ _ _) | (apply good_foldl_fst; intro _ _ _)
                                | (apply good_foldl_snd; intro _ _ _) | split | (refine good_fst (by assumption) ?_)
                                | (refine good_snd (by assumption) ?_) | (refine goodOut_eq ?_ (by assumption)) | intro _
                                | dsimp only [id_eq])
theorem execFoldContribution_good (i : Nat) (s : State) (gd : Good s0 s) : GoodOut s0 (execFoldContribution i s) := by
  unfold execFoldContribution
  with_reducible repeat' (first | assumption | (refine arrives_good (by assumption) ?_) | apply cnwRecord_good
                                | apply stopPasture_good | apply closeFold_good | apply putFold_good | apply nothing_good
                                | apply putFold_good | apply goodOut_next | apply goodOut_nothing | exact goodOut_fault _
                                | exact goodOut_refused _ | split)
theorem Tile.releaseFold_ok (t : Tile) (f : Nat) (gen : Bool) (v : BitVec 32) (now : Nat) (h : Memory.wf (t).spad = true)
    : Memory.wf (Tile.releaseFold t f gen v now).spad = true := by
  unfold Tile.releaseFold
  with_reducible repeat' (first | assumption | apply Tile.setCtr_ok | (apply tile_foldl; intro _ _ _) | split)
theorem writeResult_good (s : State) (k p f : Nat) (addr : BitVec 16) (wrote : Nat) (v : BitVec 32) (gd : Good s0 s) :
    Good s0 (State.writeResult s k p f addr wrote v) := by
  unfold State.writeResult
  with_reducible repeat' (first | assumption | apply sideWriteWhole_good | apply cnwRecord_good | apply pasEvent_good | split
                                | (refine good_fst (by assumption) ?_) | (refine good_snd (by assumption) ?_)
                                | (refine goodOut_eq ?_ (by assumption)) | intro _ | dsimp only [id_eq])
theorem retryFold_good (s : State) (k p f : Nat) (gd : Good s0 s) : Good s0 (State.retryFold s k p f) := by
  unfold State.retryFold
  with_reducible repeat' (first | assumption | apply modTile_good | apply enterFold_good | apply modTile_good
                                | apply good_spad | split | (refine good_fst (by assumption) ?_)
                                | (refine good_snd (by assumption) ?_) | intro _ | dsimp only [id_eq])
theorem writeFirst_good (s : State) (k : Nat) (x : FoldPending) (v : BitVec 32) (gd : Good s0 s) :
    Good s0 (State.writeFirst s k x v) := by
  unfold State.writeFirst
  with_reducible repeat' (first | assumption | apply sideWrite_good | apply modTile_good | apply good_spad | split
                                | (refine good_fst (by assumption) ?_) | (refine good_snd (by assumption) ?_)
                                | (refine goodOut_eq ?_ (by assumption)) | intro _ | dsimp only [id_eq])
theorem execFoldResult_good (i : Nat) (s : State) (gd : Good s0 s) : GoodOut s0 (execFoldResult i s) := by
  unfold execFoldResult
  with_reducible repeat' (first | assumption | apply noteRange_good | apply writeFirst_good | apply Tile.releaseFold_ok
                                | apply writeResult_good | apply retryFold_good | apply noteHolds_good | apply nothing_good
                                | apply modTile_good | apply good_spad | (refine arrives_good (by assumption) ?_) | split
                                | (refine good_fst (by assumption) ?_) | (refine good_snd (by assumption) ?_)
                                | apply goodOut_next | apply goodOut_nothing | exact goodOut_fault _
                                | exact goodOut_refused _ | (refine goodOut_eq ?_ (by assumption)) | intro _
                                | dsimp only [id_eq])
theorem Pasture.recordHalt_geo {z : Pasture} (x : Pasture) (log : Nat) (h : GeoLe z x) : GeoLe z (Pasture.recordHalt x log) := by
  unfold Pasture.recordHalt
  with_reducible repeat' (first | assumption)
theorem execHaltNotice_good (i : Nat) (s : State) (gd : Good s0 s) : GoodOut s0 (execHaltNotice i s) := by
  unfold execHaltNotice
  with_reducible repeat' (first | assumption | (refine arrives_good (by assumption) ?_) | apply modPas_good
                                | apply nothing_good | apply Pasture.recordHalt_geo | apply modPas_good | exact geo_refl _
                                | apply goodOut_next | apply goodOut_nothing | exact goodOut_fault _ | exact goodOut_refused _
                                | split | (refine good_fst (by assumption) ?_) | (refine good_snd (by assumption) ?_)
                                | (refine goodOut_eq ?_ (by assumption)) | intro _ | dsimp only [id_eq])

/-! ### Power -/

theorem Pasture.repace_geo {z : Pasture} (x : Pasture) (h : GeoLe z x) : GeoLe z (Pasture.repace x) := by
  unfold Pasture.repace
  with_reducible repeat' (first | assumption)
theorem paceStep_good (s : State) (gd : Good s0 s) : Good s0 (State.paceStep s).2 := by
  unfold State.paceStep
  with_reducible repeat' (first | assumption | apply draw_good)
theorem lowerForCap_good (s : State) (gd : Good s0 s) : Good s0 (State.lowerForCap s) := by
  unfold State.lowerForCap
  with_reducible repeat' (first | assumption | apply paceStep_good | apply modPas_good | apply Pasture.repace_geo
                                | apply modPas_good | exact geo_refl _ | (apply good_foldl; intro _ _ _) | split
                                | (refine good_fst (by assumption) ?_) | (refine good_snd (by assumption) ?_) | intro _)
theorem raiseForCap_good (s : State) (gd : Good s0 s) : Good s0 (State.raiseForCap s) := by
  unfold State.raiseForCap
  with_reducible repeat' (first | assumption | apply paceStep_good | apply modPas_good | apply Pasture.repace_geo
                                | apply modPas_good | exact geo_refl _ | (apply good_foldl; intro _ _ _) | split
                                | (refine good_fst (by assumption) ?_) | (refine good_snd (by assumption) ?_) | intro _)
theorem measureInput_good (s : State) (m : InputReading) (gd : Good s0 s) : Good s0 (State.measureInput s m) := by
  unfold State.measureInput
  with_reducible repeat' (first | assumption)
theorem capEvent_good (s : State) (atFloor : Bool) (gd : Good s0 s) : Good s0 (State.capEvent s atFloor) := by
  unfold State.capEvent
  with_reducible repeat' (first | assumption | apply pkgEvent_good | apply alert_good | apply noteCauseAll_good | split
                                | (refine good_fst (by assumption) ?_) | (refine good_snd (by assumption) ?_)
                                | (refine goodOut_eq ?_ (by assumption)) | intro _ | dsimp only [id_eq])
theorem applyCap_good (s : State) (gd : Good s0 s) : Good s0 (State.applyCap s) := by
  unfold State.applyCap
  with_reducible repeat' (first | assumption | apply lowerForCap_good | apply raiseForCap_good | apply capEvent_good | split
                                | (refine good_fst (by assumption) ?_) | (refine good_snd (by assumption) ?_)
                                | (refine goodOut_eq ?_ (by assumption)) | intro _ | dsimp only [id_eq])
theorem execPowerCapReached_good (m : InputReading) (s : State) (gd : Good s0 s) : GoodOut s0 (execPowerCapReached m s) := by
  unfold execPowerCapReached
  with_reducible repeat' (first | assumption | apply measureInput_good | apply applyCap_good | apply nothing_good
                                | apply goodOut_next | apply goodOut_nothing | exact goodOut_fault _ | exact goodOut_refused _
                                | split)
theorem execPaceLimitWrite_good (fn : FnId) (p : PasId) (value : BitVec 12) (s : State) (gd : Good s0 s) : GoodOut s0
    (execPaceLimitWrite fn p value s) := by
  unfold execPaceLimitWrite
  with_reducible repeat' (first | assumption | apply modPas_good | apply nothing_good | apply Pasture.repace_geo
                                | apply modPas_good | exact geo_refl _ | apply goodOut_next | apply goodOut_nothing
                                | exact goodOut_fault _ | exact goodOut_refused _ | split
                                | (refine good_fst (by assumption) ?_) | (refine good_snd (by assumption) ?_) | intro _)
theorem steer_good (s : State) (h : Half) (gd : Good s0 s) : Good s0 (State.steer s h) := by
  unfold State.steer
  with_reducible repeat' (first | assumption | apply putHalf_good | split | (refine good_fst (by assumption) ?_)
                                | (refine good_snd (by assumption) ?_) | (refine goodOut_eq ?_ (by assumption)) | intro _
                                | dsimp only [id_eq])
theorem execHelmUpdate_good (h : Half) (m : InputReading) (s : State) (gd : Good s0 s) : GoodOut s0 (execHelmUpdate h m s) := by
  unfold execHelmUpdate
  with_reducible repeat' (first | assumption | apply measureInput_good | apply applyCap_good | apply steer_good
                                | apply nothing_good | apply goodOut_next | apply goodOut_nothing | exact goodOut_fault _
                                | exact goodOut_refused _ | split)
theorem execFloorBreach_good (p : PasId) (rate : BitVec 12) (s : State) (gd : Good s0 s) : GoodOut s0
    (execFloorBreach p rate s) := by
  unfold execFloorBreach
  with_reducible repeat' (first | assumption | apply modPas_good | apply pasEvent_good | apply alert_good
                                | apply noteCause_good | apply nothing_good | apply modPas_good | exact geo_refl _
                                | apply goodOut_next | apply goodOut_nothing | exact goodOut_fault _ | exact goodOut_refused _
                                | split | (refine good_fst (by assumption) ?_) | (refine good_snd (by assumption) ?_) | intro _)
theorem throttleHalf_good (s : State) (h : Half) (gd : Good s0 s) : Good s0 (State.throttleHalf s h) := by
  unfold State.throttleHalf
  with_reducible repeat' (first | assumption | apply paceStep_good | apply modPas_good | apply pkgEvent_good
                                | apply alert_good | apply Pasture.repace_geo | apply modPas_good | exact geo_refl _
                                | (apply good_foldl; intro _ _ _) | split | (refine good_fst (by assumption) ?_)
                                | (refine good_snd (by assumption) ?_) | intro _ | dsimp only [id_eq])
theorem releaseHalf_good (s : State) (h : Half) (gd : Good s0 s) : Good s0 (State.releaseHalf s h) := by
  unfold State.releaseHalf
  with_reducible repeat' (first | assumption | apply modPas_good | apply Pasture.repace_geo | apply modPas_good
                                | exact geo_refl _ | (apply good_foldl; intro _ _ _) | split
                                | (refine good_fst (by assumption) ?_) | (refine good_snd (by assumption) ?_) | intro _)
theorem execSextantReport_good (n : Fin 64) (period temp : BitVec 16) (s : State) (gd : Good s0 s) : GoodOut s0
    (execSextantReport n period temp s) := by
  unfold execSextantReport
  with_reducible repeat' (first | assumption | apply nothing_good | apply throttleHalf_good | apply releaseHalf_good
                                | apply goodOut_next | apply goodOut_nothing | exact goodOut_fault _ | exact goodOut_refused _
                                | split | (refine good_fst (by assumption) ?_) | (refine good_snd (by assumption) ?_)
                                | intro _ | dsimp only [id_eq])
theorem throttleStack_good (s : State) (st : Nat) (gd : Good s0 s) : Good s0 (State.throttleStack s st) := by
  unfold State.throttleStack
  with_reducible repeat' (first | assumption | apply paceStep_good | apply modPas_good | apply Pasture.repace_geo
                                | apply modPas_good | exact geo_refl _ | (apply good_foldl; intro _ _ _) | split
                                | (refine good_fst (by assumption) ?_) | (refine good_snd (by assumption) ?_) | intro _)
theorem releaseStack_good (s : State) (gd : Good s0 s) : Good s0 (State.releaseStack s) := by
  unfold State.releaseStack
  with_reducible repeat' (first | assumption | apply modPas_good | apply Pasture.repace_geo | apply modPas_good
                                | exact geo_refl _ | (apply good_foldl; intro _ _ _) | split
                                | (refine good_fst (by assumption) ?_) | (refine good_snd (by assumption) ?_) | intro _)
theorem execStackTempReport_good (st : StackId) (temp : BitVec 16) (s : State) (gd : Good s0 s) : GoodOut s0
    (execStackTempReport st temp s) := by
  unfold execStackTempReport
  with_reducible repeat' (first | assumption | apply nothing_good | apply modStack_good | apply pkgEvent_good
                                | apply alert_good | apply throttleStack_good | apply releaseStack_good
                                | apply stopPasture_good | apply modStack_good | apply goodOut_next | apply goodOut_nothing
                                | exact goodOut_fault _ | exact goodOut_refused _ | (apply good_foldl; intro _ _ _) | split)
theorem execStackHotRefresh_good (st : StackId) (s : State) (gd : Good s0 s) : GoodOut s0 (execStackHotRefresh st s) := by
  unfold execStackHotRefresh
  with_reducible repeat' (first | assumption | apply nothing_good | apply delayLandings_good | apply modStack_good
                                | apply modStack_good | apply goodOut_next | apply goodOut_nothing | exact goodOut_fault _
                                | exact goodOut_refused _ | (apply good_foldl; intro _ _ _) | split
                                | (refine good_fst (by assumption) ?_) | (refine good_snd (by assumption) ?_) | intro _
                                | dsimp only [id_eq])
theorem Tile.parked_ok (t : Tile) (h : Memory.wf t.spad = true) : Memory.wf (Tile.parked t).spad = true := by
  unfold Tile.parked
  with_reducible repeat' (first | assumption | split | intro _ | exact memNil_wf | dsimp only [id_eq])
theorem park_good (s : State) (h : Half) (gd : Good s0 s) : Good s0 (State.park s h) := by
  have hk : ∀ (ks : List Nat) (k : Nat) (t : Tile), Memory.wf t.spad = true →
      Memory.wf (if ks.contains k then t.parked else t).spad = true := fun ks k t h => by split; exacts [rfl, h]
  unfold State.park
  with_reducible repeat' (first | assumption | apply putHalf_good | apply gateColumns_good | exact hk _
                                | refine good_mapTiles ?_ ?_ | apply good_keepTiles | dsimp only [id_eq])
theorem execParkHalf_good (h : Half) (s : State) (gd : Good s0 s) : GoodOut s0 (execParkHalf h s) := by
  unfold execParkHalf
  with_reducible repeat' (first | assumption | apply park_good | apply nothing_good | apply goodOut_next
                                | apply goodOut_nothing | exact goodOut_fault _ | exact goodOut_refused _ | split)
theorem railUp_good (s : State) (gd : Good s0 s) : Good s0 (State.railUp s).2 := by
  unfold State.railUp
  with_reducible repeat' (first | assumption | apply draw_good | split | (refine good_fst (by assumption) ?_)
                                | (refine good_snd (by assumption) ?_) | (refine goodOut_eq ?_ (by assumption)) | intro _
                                | dsimp only [id_eq])
theorem unpark_good (s : State) (h : Half) (gd : Good s0 s) : Good s0 (State.unpark s h) := by
  unfold State.unpark
  with_reducible repeat' (first | assumption | apply railUp_good | apply putHalf_good | split
                                | (refine good_fst (by assumption) ?_) | (refine good_snd (by assumption) ?_)
                                | (refine goodOut_eq ?_ (by assumption)) | intro _ | dsimp only [id_eq])
theorem execUnparkHalf_good (h : Half) (s : State) (gd : Good s0 s) : GoodOut s0 (execUnparkHalf h s) := by
  unfold execUnparkHalf
  with_reducible repeat' (first | assumption | apply unpark_good | apply nothing_good | apply goodOut_next
                                | apply goodOut_nothing | exact goodOut_fault _ | exact goodOut_refused _ | split)
theorem quarantineUnit_good (s : State) (k cause : Nat) (test : BitVec 16) (gd : Good s0 s) : Good s0
    (State.quarantineUnit s k cause test) := by
  unfold State.quarantineUnit
  with_reducible repeat' (first | assumption | apply resetTiles_good | apply addDefect_good | apply Tile.afterQuarantine_ok
                                | split | (refine good_fst (by assumption) ?_) | (refine good_snd (by assumption) ?_) | intro _)
theorem unparkFail_good (s : State) (h : Half) (f : BistFailure) (gd : Good s0 s) : Good s0 (State.unparkFail s h f) := by
  unfold State.unparkFail
  with_reducible repeat' (first | assumption | apply quarantineUnit_good | apply noteFailure_good | split
                                | (refine good_fst (by assumption) ?_) | (refine good_snd (by assumption) ?_)
                                | (refine goodOut_eq ?_ (by assumption)) | intro _ | dsimp only [id_eq])
theorem execUnparkDone_good (h : Half) (failures : List BistFailure) (v : FirmwareVerdict) (s : State) (gd : Good s0 s) :
    GoodOut s0 (execUnparkDone h failures v s) := by
  unfold execUnparkDone
  with_reducible repeat' (first | assumption | apply nothing_good | apply writeReaches_good | apply unparkFail_good
                                | apply fetchPass_good | apply fetchFailed_good | apply resetTiles_good
                                | apply Tile.afterQuarantine_ok | apply putHalf_good | apply gateColumns_good
                                | apply resumeBeats_good | (apply good_foldl; intro _ _ _)
                                | (apply good_foldl_fst; intro _ _ _) | (apply good_foldl_snd; intro _ _ _) | split
                                | (refine good_fst (by assumption) ?_) | (refine good_snd (by assumption) ?_)
                                | apply goodOut_next | apply goodOut_nothing | exact goodOut_fault _
                                | exact goodOut_refused _ | (refine goodOut_eq ?_ (by assumption)) | intro _
                                | dsimp only [id_eq])
theorem settleFlash_good (s : State) (gd : Good s0 s) : Good s0 (State.settleFlash s).2 := good_foldl_snd
    (fun a _ ga => draw_good a.2 ga) gd
theorem powerOff_good (s : State) (gd : Good s0 s) : Good s0 (State.powerOff s) := by
  have g := settleFlash_good s gd
  exact ⟨g.1, g.2, g.3, g.4, fun _ => memNil_wf, fun _ => spadsWf_nil, fun _ => disjointIn_nil⟩
theorem loseGood_good (s : State) (gd : Good s0 s) : Good s0 (State.loseGood s) := by
  unfold State.loseGood
  with_reducible repeat' (first | assumption | apply powerOff_good | split)
theorem execPowerGood_good (bootMode : BitVec 2) (nodeId : BitVec 5) (s : State) (gd : Good s0 s) : GoodOut s0
    (execPowerGood bootMode nodeId s) := by
  unfold execPowerGood
  with_reducible repeat' (first | assumption | apply nothing_good | apply draw_good | apply railUp_good | (refine good_snd (by assumption) ?_)
                                | apply goodOut_next
                                | apply goodOut_nothing | exact goodOut_fault _ | exact goodOut_refused _ | split)
theorem execPowerLoss_good (s : State) (gd : Good s0 s) : GoodOut s0 (execPowerLoss s) := by
  unfold execPowerLoss
  with_reducible repeat' (first | assumption | apply loseGood_good | apply goodOut_next)
theorem execInputReversed_good (s : State) (gd : Good s0 s) : GoodOut s0 (execInputReversed s) := by
  unfold execInputReversed
  with_reducible repeat' (first | assumption | apply nothing_good | apply goodOut_next | apply goodOut_nothing
                                | exact goodOut_fault _ | exact goodOut_refused _ | split)
theorem inputEvent_good (s : State) (st : Status) (gd : Good s0 s) : GoodOut s0 (State.inputEvent s st) := by
  unfold State.inputEvent
  with_reducible repeat' (first | assumption | apply pkgEvent_good | apply alert_good | apply nothing_good
                                | apply goodOut_next | apply goodOut_nothing | exact goodOut_fault _ | exact goodOut_refused _
                                | split)
theorem execInputHigh_good (s : State) (gd : Good s0 s) : GoodOut s0 (execInputHigh s) := by
  unfold execInputHigh
  with_reducible repeat' (first | assumption | apply inputEvent_good)
theorem execInputLow_good (s : State) (gd : Good s0 s) : GoodOut s0 (execInputLow s) := by
  unfold execInputLow
  with_reducible repeat' (first | assumption | apply inputEvent_good)
theorem execInputOvercurrent_good (s : State) (gd : Good s0 s) : GoodOut s0 (execInputOvercurrent s) := by
  unfold execInputOvercurrent
  with_reducible repeat' (first | assumption | apply inputEvent_good)
theorem openFuse_good (s : State) (gd : Good s0 s) : Good s0 (State.openFuse s) := by
  unfold State.openFuse
  with_reducible repeat' (first | assumption | apply loseGood_good)
theorem trip_good (s : State) (gd : Good s0 s) : GoodOut s0 (State.trip s) := by
  unfold State.trip
  with_reducible repeat' (first | assumption | apply nothing_good | apply openFuse_good | split
                                | (refine good_fst (by assumption) ?_) | (refine good_snd (by assumption) ?_)
                                | apply goodOut_next | apply goodOut_nothing | exact goodOut_fault _
                                | exact goodOut_refused _ | (refine goodOut_eq ?_ (by assumption)) | intro _
                                | dsimp only [id_eq])
theorem execInputOvervoltage_good (s : State) (gd : Good s0 s) : GoodOut s0 (execInputOvervoltage s) := by
  unfold execInputOvervoltage
  with_reducible repeat' (first | assumption | apply nothing_good | apply openFuse_good | apply goodOut_next
                                | apply goodOut_nothing | exact goodOut_fault _ | exact goodOut_refused _ | split)
theorem execEfuseTrip_good (s : State) (gd : Good s0 s) : GoodOut s0 (execEfuseTrip s) := by
  unfold execEfuseTrip
  with_reducible repeat' (first | assumption | apply trip_good)
theorem execRailOutOfRegulation_good (s : State) (gd : Good s0 s) : GoodOut s0 (execRailOutOfRegulation s) := by
  unfold execRailOutOfRegulation
  with_reducible repeat' (first | assumption | apply trip_good)
theorem execEfuseRetry_good (s : State) (gd : Good s0 s) : GoodOut s0 (execEfuseRetry s) := by
  unfold execEfuseRetry
  with_reducible repeat' (first | assumption | apply nothing_good | apply goodOut_next | apply goodOut_nothing
                                | exact goodOut_fault _ | exact goodOut_refused _ | split
                                | (refine good_fst (by assumption) ?_) | (refine good_snd (by assumption) ?_) | intro _
                                | dsimp only [id_eq])
theorem dropRails_good (s : State) (gd : Good s0 s) : Good s0
    (State.dropRails s) := ⟨gd.1, gd.2, gd.3, gd.4, fun _ => memNil_wf, fun _ => spadsWf_nil, fun _ => disjointIn_nil⟩
theorem execThermtrip_good (s : State) (gd : Good s0 s) : GoodOut s0 (execThermtrip s) := by
  unfold execThermtrip
  with_reducible repeat' (first | assumption | apply nothing_good | apply dropRails_good | split
                                | (refine good_fst (by assumption) ?_) | (refine good_snd (by assumption) ?_)
                                | apply goodOut_next | apply goodOut_nothing | exact goodOut_fault _
                                | exact goodOut_refused _ | (refine goodOut_eq ?_ (by assumption)) | intro _
                                | dsimp only [id_eq])

/-! ### Reliability -/

theorem dropLoad_good (s : State) (p : Nat) (gd : Good s0 s) : Good s0 (State.dropLoad s p) := by
  unfold State.dropLoad
  with_reducible repeat' (first | assumption | apply abortLoad_good | apply resumeBeats_good | split)
theorem execShepherdWatchdog_good (s : State) (gd : Good s0 s) : GoodOut s0 (execShepherdWatchdog s) := by
  unfold execShepherdWatchdog
  split
  · exact goodOut_next (good_foldl (fun _ _ gs => dropLoad_good _ _ gs)
      (pkgEvent_good _ _ _ (alert_good { s.draw.2 with rel := _ } _ (draw_good s gd))))
  · exact goodOut_nothing gd
theorem execRingCrcFail_good (resend : Fin 4) (s : State) (gd : Good s0 s) : GoodOut s0 (execRingCrcFail resend s) := by
  unfold execRingCrcFail
  with_reducible repeat' (first | assumption | apply nothing_good | apply alert_good | apply stopAll_good
                                | apply enterMgmtOnly_good | split | (refine good_fst (by assumption) ?_)
                                | (refine good_snd (by assumption) ?_) | apply goodOut_next | apply goodOut_nothing
                                | exact goodOut_fault _ | exact goodOut_refused _ | (refine goodOut_eq ?_ (by assumption))
                                | intro _ | dsimp only [id_eq])
theorem Tile.loseUnits_ok (t : Tile) (draw k : Nat) (h : Memory.wf (t).spad = true) : Memory.wf
    (Tile.loseUnits t draw k).spad = true := by
  unfold Tile.loseUnits
  with_reducible repeat' (first | assumption)
theorem pause_good (s : State) (p : Nat) (gd : Good s0 s) : Good s0 (State.pause s p) := by
  unfold State.pause
  with_reducible repeat' (first | assumption | apply draw_good | apply Tile.loseUnits_ok | apply endStall_good
                                | apply modPas_good | apply modTile_good | exact geo_refl _ | exact geo_off _ _ _
                                | apply good_spad | (apply good_foldl; intro _ _ _) | (apply good_foldl_fst; intro _ _ _)
                                | (apply good_foldl_snd; intro _ _ _) | split | (refine good_fst (by assumption) ?_)
                                | (refine good_snd (by assumption) ?_) | (refine goodOut_eq ?_ (by assumption)) | intro _
                                | dsimp only [id_eq])
theorem startTest_good (s : State) (t : SelfTest) (gd : Good s0 s) : Good s0 (State.startTest s t) := by
  unfold State.startTest
  with_reducible repeat' (first | assumption | apply noteTest_good | apply pause_good | (apply good_foldl; intro _ _ _))
theorem requestTest_good (s : State) (kind : SelfTestKind) (target : Byte) (nowait : Bool) (gd : Good s0 s) : Good s0
    (State.requestTest s kind target nowait) := by
  unfold State.requestTest
  with_reducible repeat' (first | assumption | apply endTest_good | apply startTest_good | apply noteTest_good | split
                                | (refine good_fst (by assumption) ?_) | (refine good_snd (by assumption) ?_) | intro _
                                | dsimp only [id_eq])
theorem execSelftestTileBist_good (p : PasId) (nowait : Bool) (s : State) (gd : Good s0 s) : GoodOut s0
    (execSelftestTileBist p nowait s) := by
  unfold execSelftestTileBist
  with_reducible repeat' (first | assumption | apply requestTest_good | apply nothing_good | apply goodOut_next
                                | apply goodOut_nothing | exact goodOut_fault _ | exact goodOut_refused _ | split)
theorem execSelftestSextant_good (h : Half) (nowait : Bool) (s : State) (gd : Good s0 s) : GoodOut s0
    (execSelftestSextant h nowait s) := by
  unfold execSelftestSextant
  with_reducible repeat' (first | assumption | apply requestTest_good | apply nothing_good | apply goodOut_next
                                | apply goodOut_nothing | exact goodOut_fault _ | exact goodOut_refused _ | split)
theorem execSelftestStackScrub_good (st : StackId) (s : State) (gd : Good s0 s) : GoodOut s0 (execSelftestStackScrub st s) := by
  unfold execSelftestStackScrub
  with_reducible repeat' (first | assumption | apply requestTest_good | apply nothing_good | apply goodOut_next
                                | apply goodOut_nothing | exact goodOut_fault _ | exact goodOut_refused _ | split)
theorem execSelftestEyeScan_good (n : PortId) (s : State) (gd : Good s0 s) : GoodOut s0 (execSelftestEyeScan n s) := by
  unfold execSelftestEyeScan
  with_reducible repeat' (first | assumption | apply requestTest_good | apply nothing_good | apply goodOut_next
                                | apply goodOut_nothing | exact goodOut_fault _ | exact goodOut_refused _ | split)
theorem execSelftestSlotCheck_good (s : State) (gd : Good s0 s) : GoodOut s0 (execSelftestSlotCheck s) := by
  unfold execSelftestSlotCheck
  with_reducible repeat' (first | assumption | apply requestTest_good | apply nothing_good | apply goodOut_next
                                | apply goodOut_nothing | exact goodOut_fault _ | exact goodOut_refused _ | split)
theorem execSelftestStart_good (kind : SelfTestKind) (target : Byte) (s : State) (gd : Good s0 s) :
    GoodOut s0 (execSelftestStart kind target s) := by
  unfold execSelftestStart
  with_reducible repeat' (first | assumption | apply nothing_good | apply startTest_good | split
                                | (refine good_fst (by assumption) ?_) | (refine good_snd (by assumption) ?_)
                                | apply goodOut_next | apply goodOut_nothing | exact goodOut_fault _
                                | exact goodOut_refused _ | (refine goodOut_eq ?_ (by assumption)) | intro _
                                | dsimp only [id_eq])
theorem execSelftestDeferTimeout_good (kind : SelfTestKind) (target : Byte) (s : State) (gd : Good s0 s) : GoodOut s0
    (execSelftestDeferTimeout kind target s) := by
  unfold execSelftestDeferTimeout
  with_reducible repeat' (first | assumption | apply nothing_good | apply endTest_good | apply goodOut_next
                                | apply goodOut_nothing | exact goodOut_fault _ | exact goodOut_refused _ | split)
theorem failTile_good (s : State) (k : Nat) (gd : Good s0 s) : Good s0 (State.failTile s k) := by
  unfold State.failTile
  with_reducible repeat' (first | assumption | apply quarantine_good | apply pkgEvent_good)
theorem execSelftestDone_good (kind : SelfTestKind) (target : Byte) (v : SelfTestVerdict) (s : State) (gd : Good s0 s)
    : GoodOut s0 (execSelftestDone kind target v s) := by
  unfold execSelftestDone
  with_reducible repeat' (first | assumption | apply nothing_good | apply failTile_good | apply endTest_good
                                | apply leaveTest_good | apply startAwaiting_good | apply goodOut_next | apply goodOut_nothing
                                | exact goodOut_fault _ | exact goodOut_refused _ | (apply good_foldl; intro _ _ _) | split)
theorem clearAlerts_good (s : State) (value : BitVec 10) (gd : Good s0 s) : Good s0 (State.clearAlerts s value) := by
  unfold State.clearAlerts
  with_reducible repeat' (first | assumption)
theorem execAlertClear_good (value : BitVec 32) (s : State) (gd : Good s0 s) : GoodOut s0 (execAlertClear value s) := by
  unfold execAlertClear
  with_reducible repeat' (first | assumption | apply clearAlerts_good | apply setWidth_good | apply nothing_good
                                | apply goodOut_next | apply goodOut_nothing | exact goodOut_fault _ | exact goodOut_refused _
                                | split)

/-! ### Management -/

theorem answerReq_good (s : State) (q : MgtReq) (rsp : List Byte) (gd : Good s0 s) : Good s0 (State.answerReq s q rsp) := by
  unfold State.answerReq
  with_reducible repeat' (first | assumption | apply signal_good | split | (refine good_fst (by assumption) ?_)
                                | (refine good_snd (by assumption) ?_) | (refine goodOut_eq ?_ (by assumption)) | intro _
                                | dsimp only [id_eq])
theorem violation_good (s : State) (n : Nat) (gd : Good s0 s) : Good s0 (State.violation s n) := by
  unfold State.violation
  with_reducible repeat' (first | assumption)
theorem rejectReq_good (s : State) (q : MgtReq) (type n : Nat) (st : Status) (gd : Good s0 s) :
    Good s0 (State.rejectReq s q type n st) := by
  unfold State.rejectReq
  with_reducible repeat' (first | assumption | apply violation_good | apply answerReq_good | split
                                | (refine good_fst (by assumption) ?_) | (refine good_snd (by assumption) ?_)
                                | (refine goodOut_eq ?_ (by assumption)) | intro _ | dsimp only [id_eq])
theorem execMgtDatagram_good (source : MgtEnds) (multicast : Bool) (bytes : List Byte) (s : State) (gd : Good s0 s) :
    GoodOut s0 (execMgtDatagram source multicast bytes s) := by
  unfold execMgtDatagram
  with_reducible repeat' (first | assumption | apply nothing_good | split | (refine good_fst (by assumption) ?_)
                                | (refine good_snd (by assumption) ?_) | apply goodOut_next | apply goodOut_nothing
                                | exact goodOut_fault _ | exact goodOut_refused _ | (refine goodOut_eq ?_ (by assumption))
                                | intro _ | dsimp only [id_eq])
theorem execMbxGo_good (s : State) (gd : Good s0 s) : GoodOut s0 (execMbxGo s) := by
  unfold execMbxGo
  with_reducible repeat' (first | assumption | apply nothing_good | apply goodOut_next | apply goodOut_nothing
                                | exact goodOut_fault _ | exact goodOut_refused _ | split
                                | (refine good_fst (by assumption) ?_) | (refine good_snd (by assumption) ?_) | intro _
                                | dsimp only [id_eq])
theorem takeReq_good {s t : State} {mine : Nat → Bool} {r : MgtReq} (e : s.takeReq mine = some (r, t)) (gd : Good s0 s) :
    Good s0 t := by
  unfold State.takeReq at e
  split at e
  · cases e
  · split at e
    · cases e; exact gd
    · cases e
theorem malformed_good (s : State) (q : MgtReq) (gd : Good s0 s) : Good s0 (State.malformed s q) := by
  unfold State.malformed
  with_reducible repeat' (first | assumption | apply rejectReq_good)
theorem readObject_good (s : State) (q : MgtReq) (gd : Good s0 s) : Good s0 (State.readObject s q) := by
  unfold State.readObject
  with_reducible repeat' (first | assumption | apply rejectReq_good | apply answerReq_good | split
                                | (refine good_fst (by assumption) ?_) | (refine good_snd (by assumption) ?_)
                                | (refine goodOut_eq ?_ (by assumption)) | intro _ | dsimp only [id_eq])
theorem execRead_good (s : State) (gd : Good s0 s) : GoodOut s0 (execRead s) := by
  unfold execRead
  with_reducible repeat' (first | assumption | (refine takeReq_good (by assumption) ?_) | apply nothing_good
                                | apply readObject_good | apply malformed_good | apply goodOut_next | apply goodOut_nothing
                                | exact goodOut_fault _ | exact goodOut_refused _ | split)
theorem persisted_good (s : State) (item : PersistItem) (f : Mgt → Mgt) (gd : Good s0 s) : Good s0
    (State.persisted s item f) := by
  unfold State.persisted
  with_reducible repeat' (first | assumption)
theorem parkWrite_good {s t : State} {h : Half} {v : Nat} (e : s.parkWrite h v = .inl t) (gd : Good s0 s) : Good s0 t := by
  have g : Good s0 { s with mgt := s.mgt.setPark h (BitVec.ofNat 8 v) } := gd
  unfold State.parkWrite at e
  dsimp only at e
  split at e
  · split at e
    · cases e
    · cases e
      split
      · exact park_good _ _ g
      · exact g
  · cases e
    split
    · exact unpark_good _ _ g
    · exact g
theorem writeObject_good {s t : State} {index sub : Nat} {data : List Byte} (e : s.writeObject index sub data = .inl t)
    (gd : Good s0 s) : Good s0 t := by
  unfold State.writeObject at e
  dsimp only at e
  split at e
  all_goals first
    | exact parkWrite_good e gd
    | (injection e with e; subst e
       first
         | exact gd
         | exact persisted_good _ _ _ gd
         | exact clearAlerts_good _ _ gd
         | exact requestTest_good _ _ _ _ gd)
theorem journalWrite_good (s : State) (q : MgtReq) (type : Nat) (old new : List Byte) (gd : Good s0 s) : Good s0
    (State.journalWrite s q type old new) := by
  unfold State.journalWrite
  with_reducible repeat' (first | assumption)
theorem writeRequest_good (s : State) (q : MgtReq) (gd : Good s0 s) : Good s0 (State.writeRequest s q) := by
  unfold State.writeRequest
  with_reducible repeat' (first | assumption | apply rejectReq_good | (refine writeObject_good (by assumption) ?_)
                                | apply answerReq_good | apply journalWrite_good | split
                                | (refine good_fst (by assumption) ?_) | (refine good_snd (by assumption) ?_)
                                | (refine goodOut_eq ?_ (by assumption)) | intro _ | dsimp only [id_eq])
theorem execWrite_good (s : State) (gd : Good s0 s) : GoodOut s0 (execWrite s) := by
  unfold execWrite
  with_reducible repeat' (first | assumption | (refine takeReq_good (by assumption) ?_) | apply nothing_good
                                | apply writeRequest_good | apply malformed_good | apply goodOut_next | apply goodOut_nothing
                                | exact goodOut_fault _ | exact goodOut_refused _ | split)
theorem execIdentify_good (s : State) (gd : Good s0 s) : GoodOut s0 (execIdentify s) := by
  unfold execIdentify
  with_reducible repeat' (first | assumption | (refine takeReq_good (by assumption) ?_) | apply nothing_good
                                | apply answerReq_good | apply malformed_good | apply goodOut_next | apply goodOut_nothing
                                | exact goodOut_fault _ | exact goodOut_refused _ | split)
theorem execPersistWrite_good (item : PersistItem) (ok : Bool) (s : State) (gd : Good s0 s) : GoodOut s0
    (execPersistWrite item ok s) := by
  unfold execPersistWrite
  with_reducible repeat' (first | assumption | apply nothing_good | apply pkgEvent_good | apply goodOut_next
                                | apply goodOut_nothing | exact goodOut_fault _ | exact goodOut_refused _ | split)
theorem lineOnset_good (s : State) (code : Byte) (f : Mgt → Mgt) (st : Status) (gd : Good s0 s) : Good s0
    (State.lineOnset s code f st) := by
  unfold State.lineOnset
  with_reducible repeat' (first | assumption | apply pkgEvent_good | split)
theorem execLineCheck_good (fault : LineFault) (s : State) (gd : Good s0 s) : GoodOut s0 (execLineCheck fault s) := by
  unfold execLineCheck
  with_reducible repeat' (first | assumption | apply nothing_good | apply lineOnset_good | apply pkgEvent_good
                                | apply goodOut_next | apply goodOut_nothing | exact goodOut_fault _ | exact goodOut_refused _
                                | split)
theorem execLineRecover_good (s : State) (gd : Good s0 s) : GoodOut s0 (execLineRecover s) := by
  unfold execLineRecover
  with_reducible repeat' (first | assumption | apply nothing_good | apply goodOut_next | apply goodOut_nothing
                                | exact goodOut_fault _ | exact goodOut_refused _ | split)
theorem execNodeConflictRetry_good (s : State) (gd : Good s0 s) : GoodOut s0 (execNodeConflictRetry s) := by
  unfold execNodeConflictRetry
  with_reducible repeat' (first | assumption | apply nothing_good | apply goodOut_next | apply goodOut_nothing
                                | exact goodOut_fault _ | exact goodOut_refused _ | split)

/-! ### Registers -/

theorem writeBeatCtl_good (s : State) (p : Nat) (v : Word) (gd : Good s0 s) : Good s0 (State.writeBeatCtl s p v) := by
  unfold State.writeBeatCtl
  with_reducible repeat' (first | assumption | apply modPas_good | apply Pasture.repace_geo | apply modPas_good
                                | exact geo_refl _ | split | (refine good_fst (by assumption) ?_)
                                | (refine good_snd (by assumption) ?_) | intro _)
theorem Pasture.writeCnwCfg_geo {z : Pasture} (x : Pasture) (pf0 : Bool) (v : Word) (h : GeoLe z x) :
    GeoLe z (Pasture.writeCnwCfg x pf0 v) := by
  unfold Pasture.writeCnwCfg
  with_reducible repeat' (first | assumption | split | intro _ | exact geo_refl _)
theorem Pasture.writeFoldMap_geo {z : Pasture} (x : Pasture) (n : Nat) (v : Word) (h : GeoLe z x) : GeoLe z
    (Pasture.writeFoldMap x n v) := by
  unfold Pasture.writeFoldMap
  with_reducible repeat' (first | assumption)
theorem Pasture.writeFlock_geo {z : Pasture} (x : Pasture) (v : Word) (h : GeoLe z x) : GeoLe z (Pasture.writeFlock x v) := by
  unfold Pasture.writeFlock
  with_reducible repeat' (first | assumption | exact geo_off _ _ _ | split)
theorem Pasture.writeFabCfg_geo {z : Pasture} (x : Pasture) (v : Word) (h : GeoLe z x) : GeoLe z (Pasture.writeFabCfg x v) := by
  unfold Pasture.writeFabCfg
  with_reducible repeat' (first | assumption)
theorem Pasture.writeTbl_geo {z : Pasture} (x : Pasture) (v : Word) (h : GeoLe z x) : GeoLe z (Pasture.writeTbl x v) := by
  unfold Pasture.writeTbl
  with_reducible repeat' (first | assumption)
theorem Pasture.writeSend_geo {z : Pasture} (x : Pasture) (n i : Nat) (v : Word) (h : GeoLe z x) : GeoLe z
    (Pasture.writeSend x n i v) := by
  unfold Pasture.writeSend
  with_reducible repeat' (first | assumption | exact geo_off _ _ _ | split)
theorem Pasture.writeRanks_geo {z : Pasture} (x : Pasture) (i : Nat) (v : Word) (h : GeoLe z x) :
    GeoLe z (Pasture.writeRanks x i v) := by
  unfold Pasture.writeRanks
  with_reducible repeat' (first | assumption | split | intro _ | exact geo_refl _)
theorem Pasture.write_geo {z : Pasture} (x : Pasture) (pf0 inRun : Bool) (off : Nat) (v : Word) (h : GeoLe z x) :
    GeoLe z (Pasture.write x pf0 inRun off v) := by
  unfold Pasture.write
  with_reducible repeat' (first | assumption | apply Pasture.writeCnwCfg_geo | apply Pasture.writeFabCfg_geo
                                | apply Pasture.writeFoldMap_geo | apply Pasture.writeSend_geo | apply Pasture.writeRanks_geo
                                | split | intro _ | exact geo_refl _)
theorem writeFlockReg_good (s : State) (fn : FnId) (p : PasId) (v : Word) (gd : Good s0 s) : GoodOut s0
    (State.writeFlockReg s fn p v) := by
  unfold State.writeFlockReg
  with_reducible repeat' (first | assumption | apply modPas_good | apply execFlockStart_good | apply execFlockStop_good
                                | apply Pasture.writeFlock_geo | apply modPas_good | exact geo_refl _ | apply goodOut_next
                                | apply goodOut_nothing | exact goodOut_fault _ | exact goodOut_refused _ | split
                                | (refine good_fst (by assumption) ?_) | (refine good_snd (by assumption) ?_) | intro _)
theorem writeTblReg_good (s : State) (fn : FnId) (p : PasId) (v : Word) (gd : Good s0 s) : GoodOut s0
    (State.writeTblReg s fn p v) := by
  unfold State.writeTblReg
  with_reducible repeat' (first | assumption | apply modPas_good | apply execRankSwap_good | apply Pasture.writeTbl_geo
                                | apply modPas_good | exact geo_refl _ | apply goodOut_next | apply goodOut_nothing
                                | exact goodOut_fault _ | exact goodOut_refused _ | split
                                | (refine good_fst (by assumption) ?_) | (refine good_snd (by assumption) ?_) | intro _)
theorem writePage_good (s : State) (fn : FnId) (p : PasId) (own : Bool) (off : Nat) (v : Word) (gd : Good s0 s) :
    GoodOut s0 (State.writePage s fn p own off v) := by
  unfold State.writePage
  with_reducible repeat' (first | assumption | apply execPastureReset_good | apply writeBeatCtl_good
                                | apply writeFlockReg_good | apply writeTblReg_good | apply execDoorbell_good
                                | apply execHostFlagSet_good | apply execHostFlagClr_good
                                | apply execOrdReservationWrite_good | apply Pasture.write_geo | apply checkRanks_good
                                | apply modFn_good | apply modPas_good | exact geo_refl _ | exact geo_off _ _ _ | split
                                | (refine good_fst (by assumption) ?_) | (refine good_snd (by assumption) ?_)
                                | apply goodOut_next | apply goodOut_nothing | exact goodOut_fault _
                                | exact goodOut_refused _ | (refine goodOut_eq ?_ (by assumption)) | intro _
                                | dsimp only [id_eq])
theorem writeGeom_good (s : State) (p : PasId) (v : Word) (gd : Good s0 s) : GoodOut s0 (State.writeGeom s p v) := by
  unfold State.writeGeom
  dsimp only
  split
  · exact execPastureStart_good _ _ _ _ gd
  · split
    · exact goodOut_next (geomResult_good _ _ _ gd)
    · split
      · exact execPastureStop_good p s gd
      · rename_i h
        refine goodOut_next (putPas_good (fun e => absurd ?_ h) (geomResult_good _ _ _ gd))
        simpa [State.geomResult] using e
theorem writeComputeReset_good (s : State) (v : Word) (gd : Good s0 s) : GoodOut s0 (State.writeComputeReset s v) := by
  unfold State.writeComputeReset
  with_reducible repeat' (first | assumption | apply execWarmComputeReset_good | apply draw_good | split
                                | (refine good_fst (by assumption) ?_) | (refine good_snd (by assumption) ?_)
                                | apply goodOut_next | apply goodOut_nothing | exact goodOut_fault _
                                | exact goodOut_refused _ | (refine goodOut_eq ?_ (by assumption)) | intro _
                                | dsimp only [id_eq])
theorem writeQuarantine_good (s : State) (v : Word) (gd : Good s0 s) : GoodOut s0 (State.writeQuarantine s v) := by
  unfold State.writeQuarantine
  with_reducible repeat' (first | assumption | apply execTileQuarantine_good | apply goodOut_next | apply goodOut_nothing
                                | exact goodOut_fault _ | exact goodOut_refused _ | split)
theorem writeLinkCfg_good (s : State) (n : PortId) (v : Word) (gd : Good s0 s) : GoodOut s0 (State.writeLinkCfg s n v) := by
  unfold State.writeLinkCfg
  with_reducible repeat' (first | assumption | apply modPort_good | apply disablePort_good | apply execLinkRetrain_good
                                | apply modPort_good | apply goodOut_next | apply goodOut_nothing | exact goodOut_fault _
                                | exact goodOut_refused _ | split)
theorem writeFold_good (s : State) (n : Nat) (v : Word) (gd : Good s0 s) : Good s0 (State.writeFold s n v) := by
  unfold State.writeFold
  with_reducible repeat' (first | assumption | apply putFold_good | split | (refine good_fst (by assumption) ?_)
                                | (refine good_snd (by assumption) ?_) | (refine goodOut_eq ?_ (by assumption)) | intro _
                                | dsimp only [id_eq])
theorem writeRouteCtl_good (s : State) (v : Word) (gd : Good s0 s) : GoodOut s0 (State.writeRouteCtl s v) := by
  unfold State.writeRouteCtl
  with_reducible repeat' (first | assumption | apply execRouteSwap_good | apply goodOut_next | apply goodOut_nothing
                                | exact goodOut_fault _ | exact goodOut_refused _ | split)
theorem modDrove_good (s : State) (d : Nat) (g : Drove → Drove) (gd : Good s0 s) : Good s0 (State.modDrove s d g) := by
  unfold State.modDrove
  with_reducible repeat' (first | assumption |  split)
theorem writeLow_good (s : State) (off : Nat) (v : Word) (gd : Good s0 s) : GoodOut s0 (State.writeLow s off v) := by
  unfold State.writeLow
  with_reducible repeat' (first | assumption | apply writeGeom_good | apply execQosWrite_good | apply execOwnershipWrite_good
                                | apply execLportWrite_good | apply writeComputeReset_good | apply writeQuarantine_good
                                | apply execAutoEnable_good | apply execPlanCommit_good | apply writeLinkCfg_good
                                | apply writeFold_good | split | (refine good_fst (by assumption) ?_)
                                | (refine good_snd (by assumption) ?_) | apply goodOut_next | apply goodOut_nothing
                                | exact goodOut_fault _ | exact goodOut_refused _ | (refine goodOut_eq ?_ (by assumption))
                                | intro _ | dsimp only [id_eq])
theorem writeHigh_good (s : State) (off : Nat) (v : Word) (gd : Good s0 s) : GoodOut s0 (State.writeHigh s off v) := by
  unfold State.writeHigh
  with_reducible repeat' (first | assumption | apply writeRouteCtl_good | apply modDrove_good | apply routeEntry_good
                                | apply modPort_good | split | (refine good_fst (by assumption) ?_)
                                | (refine good_snd (by assumption) ?_) | apply goodOut_next | apply goodOut_nothing
                                | exact goodOut_fault _ | exact goodOut_refused _ | (refine goodOut_eq ?_ (by assumption))
                                | intro _ | dsimp only [id_eq])
theorem writeWindow_good (s : State) (off : Nat) (v : Word) (gd : Good s0 s) : GoodOut s0 (State.writeWindow s off v) := by
  unfold State.writeWindow
  with_reducible repeat' (first | assumption | apply execTileWindowAccess_good | apply goodOut_next | apply goodOut_nothing
                                | exact goodOut_fault _ | exact goodOut_refused _ | split
                                | (refine good_fst (by assumption) ?_) | (refine good_snd (by assumption) ?_) | intro _
                                | dsimp only [id_eq])
theorem writeBar0_good (s : State) (off : Nat) (v : Word) (gd : Good s0 s) : GoodOut s0 (State.writeBar0 s off v) := by
  unfold State.writeBar0
  with_reducible repeat' (first | assumption | apply writePage_good | apply writeLow_good | apply writeHigh_good
                                | apply writeWindow_good | apply goodOut_next | apply goodOut_nothing | exact goodOut_fault _
                                | exact goodOut_refused _ | split)
theorem writeStepCtl_good (s : State) (v : Word) (gd : Good s0 s) : Good s0 (State.writeStepCtl s v) := by
  unfold State.writeStepCtl
  dsimp only
  with_reducible repeat' (first | assumption | apply bootEvent_good | split)
theorem writeBar2_good (s : State) (off : Nat) (v : Word) (gd : Good s0 s) : GoodOut s0 (State.writeBar2 s off v) := by
  unfold State.writeBar2
  with_reducible repeat' (first | assumption | apply execMbxGo_good | apply writeStepCtl_good | split | (refine good_fst (by assumption) ?_)
                                | (refine good_snd (by assumption) ?_) | apply goodOut_next | apply goodOut_nothing
                                | exact goodOut_fault _ | exact goodOut_refused _ | (refine goodOut_eq ?_ (by assumption))
                                | intro _ | dsimp only [id_eq])
theorem enableVfs_good (s : State) (n : Nat) (gd : Good s0 s) : Good s0 (State.enableVfs s n) := by
  unfold State.enableVfs
  with_reducible repeat' (first | assumption | apply modFn_good | apply discardFn_good | apply modFn_good
                                | exact geo_off _ _ _ | (apply good_foldl; intro _ _ _) | split)
theorem execRegisterWrite_good (fn : FnId) (space : RegSpace) (offset : BitVec 26) (value : Word) (s : State) (gd : Good s0 s)
    : GoodOut s0 (execRegisterWrite fn space offset value s) := by
  unfold execRegisterWrite
  with_reducible repeat' (first | assumption | apply nothing_good | apply enableVfs_good | apply writeBar2_good
                                | apply writeBar0_good | apply writePage_good | exact geo_off _ _ _ | apply goodOut_next
                                | apply goodOut_nothing | exact goodOut_fault _ | exact goodOut_refused _ | split
                                | (refine good_fst (by assumption) ?_) | (refine good_snd (by assumption) ?_)
                                | (refine goodOut_eq ?_ (by assumption)) | intro _ | dsimp only [id_eq])

/-! ### Idle -/

theorem disturbed_good (s : State) (d : Config.Disturbance) (gd : Good s0 s) : Good s0 (State.disturbed s d) := by
  unfold State.disturbed
  with_reducible repeat' (first | assumption | apply spoilReplay_good | apply noteDma_good
                                | apply modPas_good | apply modFn_good | apply modTile_good | apply modStack_good
                                | exact geo_refl _ | exact geo_off _ _ _ | apply good_spad | split
                                | (refine good_fst (by assumption) ?_) | (refine good_snd (by assumption) ?_)
                                | (refine goodOut_eq ?_ (by assumption)) | intro _ | dsimp only [id_eq])
theorem tickPort_good (s : State) (n : Nat) (gd : Good s0 s) : Good s0 (State.tickPort s n) := by
  unfold State.tickPort
  with_reducible repeat' (first | assumption | apply pumpPort_good | apply modPort_good | split
                                | (refine good_fst (by assumption) ?_) | (refine good_snd (by assumption) ?_)
                                | (refine goodOut_eq ?_ (by assumption)) | intro _ | dsimp only [id_eq])
/-- A picosecond without a command keeps it too, but for the time, which goes on. -/
theorem idle_good (s : State) : Good { s with now := s.now + 1 } s.idle := by
  have h0 : Good { s with now := s.now + 1 } { s with now := s.now + 1 } := good_refl _
  unfold State.idle
  with_reducible repeat' (first | assumption | apply disturbed_good | apply clockJtag_good | apply runXfers_good
                                | apply injectWaiting_good | apply runSends_good
                                | apply retryPaced_good | apply tickPort_good | (apply good_foldl; intro _ _ _) | split | exact h0)

end Sys2Proof.Machine
end

