-- ==== Sys2Proof/Laws/Ops.lean ====
section
/-!
SUPPORT. What the shared operations do, once each: keys of tiles, work in a beat of a running pasture, issue of a descriptor, the
stop of a pasture, and entries of a ring.
-/
namespace Sys2Proof.Machine

@[simp] theorem keyVx_tileKey (vx : Vx) (vy : Nat) : keyVx (tileKey vx vy) = vx := by
  simp only [keyVx, tileKey]; omega
@[simp] theorem keyVy_tileKey (vx : Vx) (vy : Nat) : keyVy (tileKey vx vy) = vy := by
  simp only [keyVy, tileKey]; omega
theorem keyVx_tileKey_nat (vx vy : Nat) (h : vx < 64) : keyVx (tileKey vx vy) = vx := by
  simp only [keyVx, tileKey]; omega
theorem keyVy_tileKey_nat (vx vy : Nat) (h : vx < 64) : keyVy (tileKey vx vy) = vy := by
  simp only [keyVy, tileKey]; omega

/-- In a running pasture a tile does its whole beat. -/
theorem whileLive_live {s : State} {k : Nat} {f : State → Out} (h : s.live k = true) : s.whileLive k f = f s := by
  simp only [State.whileLive, h, if_true]

/-- A tile of a running pasture is in its beat. -/
theorem inBeat_live {s : State} {k : Nat} (h : s.live k = true) : s.inBeat k = true := by
  simp only [State.inBeat, h, Bool.true_or]

/-- A descriptor that issues without a fault of its issue does its own effect. -/
theorem issueDesc_acts {s : State} {k : Nat} {mine : List Word → Bool} {act : State → List Word → Out}
    (hl : s.live k = true) (hd : s.issueDue k = true) (hm : mine ((s.tile k).slotWords (s.tile k).ip.toNat) = true)
    (hf : s.issueFault k ((s.tile k).slotWords (s.tile k).ip.toNat) = none) :
    s.issueDesc k mine act = act s ((s.tile k).slotWords (s.tile k).ip.toNat) := by
  simp only [State.issueDesc, hd, hm, Bool.and_self, if_true, whileLive_live hl, hf]

/-- A GO whose shadow is ready, whose unit is free and whose configuration is good starts the unit. -/
theorem issueGo_starts {s : State} {k : Nat} {mine : List Word → Shadow → Bool} {op : Nat} {busy : Tile → Shadow → Option Status}
    {config : State → Job → Option Status} {fault : State → Job → Status → State} {start : Tile → Job → Tile} {sh : Shadow}
    (hl : s.live k = true) (hd : s.issueDue k = true)
    (hf : s.issueFault k ((s.tile k).slotWords (s.tile k).ip.toNat) = none)
    (ho : opOf ((s.tile k).slotWords (s.tile k).ip.toNat) = op) (ha : actionOf ((s.tile k).slotWords (s.tile k).ip.toNat) = 2)
    (hs : (s.tile k).goShadow ((s.tile k).slotWords (s.tile k).ip.toNat) = some sh)
    (hm : mine ((s.tile k).slotWords (s.tile k).ip.toNat) sh = true)
    (hb : busy (s.tile k) sh = none) (hp : (s.tile k).acts ((s.tile k).slotWords (s.tile k).ip.toNat) = true)
    (hh : sh.hashFault = none)
    (hc : config s ((s.tile k).goJob ((s.tile k).slotWords (s.tile k).ip.toNat) sh) = none) :
    s.issueGo k mine op busy config fault start =
      .next (s.issueTile k ((s.tile k).slotWords (s.tile k).ip.toNat) fun t =>
        start t ((s.tile k).goJob ((s.tile k).slotWords (s.tile k).ip.toNat) sh)) := by
  have hfind : smapFind (s.tile k).shadows (shadowUnit ((s.tile k).slotWords (s.tile k).ip.toNat)) = some sh := by
    unfold Tile.goShadow at hs
    cases hx : smapFind (s.tile k).shadows (shadowUnit ((s.tile k).slotWords (s.tile k).ip.toNat)) with
    | none => rw [hx] at hs; cases hs
    | some x =>
      rw [hx] at hs
      simp only at hs
      split at hs
      · exact hs
      · cases hs
  unfold State.issueGo
  rw [issueDesc_acts hl hd _ hf]
  · simp only [hs, hb, hp, hh, hc, Bool.not_true, Bool.false_eq_true, if_false]
  · simp only [ho, ha, hfind, hm]; decide

/-! ## The stop of a pasture leaves the tiles alone -/

@[simp] theorem writeStamp_tiles (s : State) (p : Nat) (r : Run) (v : Bool) (n : Nat) (d : Digest) :
    (s.writeStamp p r v n d).tiles = s.tiles := by
  unfold State.writeStamp
  extract_lets
  rw [State.modPas_tiles]
  exact State.writeHost_tiles _ _ _

@[simp] theorem draw_tiles (s : State) : s.draw.2.tiles = s.tiles := rfl

@[simp] theorem signal_tiles (s : State) (fn v : Nat) : (s.signal fn v).tiles = s.tiles := by
  simp only [State.signal, State.modFn_tiles]

@[simp] theorem complete_tiles (s : State) (fn : Nat) (c : Completion) : (s.complete fn c).tiles = s.tiles := by
  unfold State.complete State.writeCompletion
  extract_lets
  split
  · rw [signal_tiles, State.modFn_tiles]
    exact State.writeHost_tiles _ _ _
  · simp only [State.modFn_tiles]

@[simp] theorem failRun_tiles (s : State) (p : Nat) (r : Run) (c : Status) : (s.failRun p r c).tiles = s.tiles := by
  unfold State.failRun
  simp only [complete_tiles, draw_tiles, writeStamp_tiles, State.modPas_tiles]

@[simp] theorem failRuns_tiles (s : State) (p : Nat) (a b : Status) : (s.failRuns p a b).tiles = s.tiles := by
  have h : ∀ (l : List Run) (s : State), (l.foldl (fun s r =>
      match r.stage with
      | .recorded | .held => s
      | .running => s.failRun p r a
      | .queued | .ingressed => s.failRun p r b) s).tiles = s.tiles := by
    intro l
    induction l with
    | nil => intro s; rfl
    | cons r l ih => intro s; rw [List.foldl_cons, ih]; split <;> simp only [failRun_tiles]
  unfold State.failRuns
  rw [State.modPas_tiles]
  exact h _ s

@[simp] theorem stopPasture_tiles (s : State) (p : Nat) (c : Status) : (s.stopPasture p c).tiles = s.tiles := by
  simp only [State.stopPasture]
  split
  · rfl
  · simp only [failRuns_tiles, State.alert, State.endStall, State.modPas_tiles]

theorem stopPasture_tile (s : State) (p : Nat) (c : Status) (k : Nat) : (s.stopPasture p c).tile k = s.tile k := by
  simp only [State.tile, stopPasture_tiles]

end Sys2Proof.Machine
end

