-- ==== Sys2Proof/Laws/PerInstr.lean ====
section
/-!
SUPPORT. What Instr.wellFormed says of each command's operands, in plain arithmetic, with one lemma for each command.
-/
namespace Sys2Proof.Laws

/-- A fabric packet's data are at most three whole 64-byte flits (R344). -/
def Operand.FabData (p : FabPacket) : Prop := p.data.length ≤ 192 ∧ 64 ∣ p.data.length

/-- A failure names one of the 20 ports, or a tile of the die's 68 columns and 40 rows. -/
def Operand.OnDie (f : BistFailure) : Prop :=
  (f.isPort = true → f.px.toNat < 20) ∧ (f.isPort = false → f.px.toNat < 68 ∧ f.py.toNat < 40)

/-- An image carries 64 KiB of tile firmware (R418), and a key and a signature of 64 bytes (R446). -/
def Operand.Image (v : ImageVerdict) : Prop := v.tileFw.length = 65536 ∧ v.key.length = 64 ∧ v.signature.length = 64

/-- The symbols of a codeword in error are among its 544, each named once (R325). -/
def Operand.Symbols (r : FlitReception) : Prop := (∀ e ∈ r.errors, e < 544) ∧ r.errors.Nodup

/-- Every segment that arrives is 4 KiB long (R418). -/
def Operand.Segments (v : FirmwareVerdict) : Prop := ∀ u, u ∈ v.first ∨ u ∈ v.again → ∀ g ∈ u.received, g.data.length = 4096

/-- The bound on a command's operands beyond what their types bound already. -/
def Operand.Bounded : Instr → Prop
  | .svcData _ p _ | .svcAck _ p => FabData p
  | .linkFlitReceive _ raw r => raw.length = 256 ∧ Symbols r
  | .linkIdentify _ record => ∀ b, record = some b → b.length = 64
  | .bootBist fs | .bootStepRequest6 _ fs => ∀ f ∈ fs, OnDie f
  | .unparkDone _ fs v => (∀ f ∈ fs, OnDie f) ∧ Segments v
  | .bootShepherdVerify v | .bootStepRequest2 _ v => Image v.slotA ∧ Image v.slotB ∧ Image v.host
  | .bootTileFw v | .bootStepRequest9 _ v => Segments v
  | .warmComputeReset w | .flrPf0 w | .perstN w | .hotReset w | .pcieLinkDown w => Segments w.firmware
  | .flrVf fn => fn ≠ 0
  | .mgtDatagram e multicast _ => multicast = true ↔ e.dstAddr.toNat / 2 ^ 120 = 255
  | _ => True

/-- The family: a command is well-formed exactly when its operands are bounded so. -/
def Operand.Statement (i : Instr) : Prop := i.wellFormed = true ↔ Operand.Bounded i

theorem Operand.fabData_iff (p : FabPacket) : p.wf = true ↔ Operand.FabData p := by
  simp only [FabPacket.wf, Operand.FabData, Bool.and_eq_true, decide_eq_true_eq, beq_iff_eq]; omega

theorem Operand.onDie_iff (f : BistFailure) : f.wf = true ↔ Operand.OnDie f := by
  unfold BistFailure.wf Operand.OnDie
  cases f.isPort <;> simp

theorem Operand.allOnDie_iff (fs : List BistFailure) : fs.all BistFailure.wf = true ↔ ∀ f ∈ fs, Operand.OnDie f := by
  simp [List.all_eq_true, Operand.onDie_iff]

theorem Operand.image_iff (v : ImageVerdict) : v.wf = true ↔ Operand.Image v := by
  simp only [ImageVerdict.wf, Operand.Image, Bool.and_eq_true, beq_iff_eq, and_assoc]

theorem Operand.symbols_iff (r : FlitReception) : r.wf = true ↔ Operand.Symbols r := by
  simp only [FlitReception.wf, Operand.Symbols, Bool.and_eq_true, List.all_eq_true, decide_eq_true_eq]

theorem Operand.images_iff (v : ShepherdVerdict) :
    v.wf = true ↔ Operand.Image v.slotA ∧ Operand.Image v.slotB ∧ Operand.Image v.host := by
  simp only [ShepherdVerdict.wf, Bool.and_eq_true, Operand.image_iff, and_assoc]

theorem Operand.segments_iff (v : FirmwareVerdict) : v.wf = true ↔ Operand.Segments v := by
  simp only [FirmwareVerdict.wf, FetchUpset.wf, Operand.Segments, List.all_eq_true, List.mem_append, beq_iff_eq]

theorem Operand.beatComplete : ∀ a b, Operand.Statement (.beatComplete a b) := by intros; exact iff_of_true rfl trivial
theorem Operand.itemArrival : ∀ a b, Operand.Statement (.itemArrival a b) := by intros; exact iff_of_true rfl trivial
theorem Operand.paceGateOpen : ∀ a b, Operand.Statement (.paceGateOpen a b) := by intros; exact iff_of_true rfl trivial
theorem Operand.stallWatchdog : ∀ a, Operand.Statement (.stallWatchdog a) := by intros; exact iff_of_true rfl trivial
theorem Operand.watchStart : ∀ a, Operand.Statement (.watchStart a) := by intros; exact iff_of_true rfl trivial
theorem Operand.lateRefresh : ∀ a, Operand.Statement (.lateRefresh a) := by intros; exact iff_of_true rfl trivial
theorem Operand.scrubVisit : ∀ a b, Operand.Statement (.scrubVisit a b) := by intros; exact iff_of_true rfl trivial
theorem Operand.sextantReport : ∀ a b c, Operand.Statement (.sextantReport a b c) := by intros; exact iff_of_true rfl trivial
theorem Operand.helmUpdate : ∀ a b, Operand.Statement (.helmUpdate a b) := by intros; exact iff_of_true rfl trivial
theorem Operand.floorBreach : ∀ a b, Operand.Statement (.floorBreach a b) := by intros; exact iff_of_true rfl trivial
theorem Operand.descLoad : ∀ a b, Operand.Statement (.descLoad a b) := by intros; exact iff_of_true rfl trivial
theorem Operand.matmul : ∀ a b, Operand.Statement (.matmul a b) := by intros; exact iff_of_true rfl trivial
theorem Operand.conv : ∀ a b, Operand.Statement (.conv a b) := by intros; exact iff_of_true rfl trivial
theorem Operand.vecopAdd : ∀ a b, Operand.Statement (.vecopAdd a b) := by intros; exact iff_of_true rfl trivial
theorem Operand.vecopSub : ∀ a b, Operand.Statement (.vecopSub a b) := by intros; exact iff_of_true rfl trivial
theorem Operand.vecopMul : ∀ a b, Operand.Statement (.vecopMul a b) := by intros; exact iff_of_true rfl trivial
theorem Operand.vecopFma : ∀ a b, Operand.Statement (.vecopFma a b) := by intros; exact iff_of_true rfl trivial
theorem Operand.vecopMin : ∀ a b, Operand.Statement (.vecopMin a b) := by intros; exact iff_of_true rfl trivial
theorem Operand.vecopMax : ∀ a b, Operand.Statement (.vecopMax a b) := by intros; exact iff_of_true rfl trivial
theorem Operand.vecopAbs : ∀ a b, Operand.Statement (.vecopAbs a b) := by intros; exact iff_of_true rfl trivial
theorem Operand.vecopNeg : ∀ a b, Operand.Statement (.vecopNeg a b) := by intros; exact iff_of_true rfl trivial
theorem Operand.vecopCvt : ∀ a b, Operand.Statement (.vecopCvt a b) := by intros; exact iff_of_true rfl trivial
theorem Operand.vecopPairrot : ∀ a b, Operand.Statement (.vecopPairrot a b) := by intros; exact iff_of_true rfl trivial
theorem Operand.vecopRsum : ∀ a b, Operand.Statement (.vecopRsum a b) := by intros; exact iff_of_true rfl trivial
theorem Operand.vecopRssq : ∀ a b, Operand.Statement (.vecopRssq a b) := by intros; exact iff_of_true rfl trivial
theorem Operand.vecopRmax : ∀ a b, Operand.Statement (.vecopRmax a b) := by intros; exact iff_of_true rfl trivial
theorem Operand.vecopRargmax : ∀ a b, Operand.Statement (.vecopRargmax a b) := by intros; exact iff_of_true rfl trivial
theorem Operand.vecopExp2 : ∀ a b, Operand.Statement (.vecopExp2 a b) := by intros; exact iff_of_true rfl trivial
theorem Operand.vecopLog2 : ∀ a b, Operand.Statement (.vecopLog2 a b) := by intros; exact iff_of_true rfl trivial
theorem Operand.vecopRcp : ∀ a b, Operand.Statement (.vecopRcp a b) := by intros; exact iff_of_true rfl trivial
theorem Operand.vecopRsqrt : ∀ a b, Operand.Statement (.vecopRsqrt a b) := by intros; exact iff_of_true rfl trivial
theorem Operand.vecopTanh : ∀ a b, Operand.Statement (.vecopTanh a b) := by intros; exact iff_of_true rfl trivial
theorem Operand.vecopSigmoid : ∀ a b, Operand.Statement (.vecopSigmoid a b) := by intros; exact iff_of_true rfl trivial
theorem Operand.quant : ∀ a b, Operand.Statement (.quant a b) := by intros; exact iff_of_true rfl trivial
theorem Operand.quantDequantise : ∀ a b, Operand.Statement (.quantDequantise a b) := by intros; exact iff_of_true rfl trivial
theorem Operand.topk : ∀ a b, Operand.Statement (.topk a b) := by intros; exact iff_of_true rfl trivial
theorem Operand.move : ∀ a b, Operand.Statement (.move a b) := by intros; exact iff_of_true rfl trivial
theorem Operand.recv : ∀ a b, Operand.Statement (.recv a b) := by intros; exact iff_of_true rfl trivial
theorem Operand.copy : ∀ a b, Operand.Statement (.copy a b) := by intros; exact iff_of_true rfl trivial
theorem Operand.tallyClear : ∀ a b, Operand.Statement (.tallyClear a b) := by intros; exact iff_of_true rfl trivial
theorem Operand.gather : ∀ a b, Operand.Statement (.gather a b) := by intros; exact iff_of_true rfl trivial
theorem Operand.scatter : ∀ a b, Operand.Statement (.scatter a b) := by intros; exact iff_of_true rfl trivial
theorem Operand.stkrd : ∀ a b, Operand.Statement (.stkrd a b) := by intros; exact iff_of_true rfl trivial
theorem Operand.stkwr : ∀ a b, Operand.Statement (.stkwr a b) := by intros; exact iff_of_true rfl trivial
theorem Operand.winopen : ∀ a b, Operand.Statement (.winopen a b) := by intros; exact iff_of_true rfl trivial
theorem Operand.winclose : ∀ a b, Operand.Statement (.winclose a b) := by intros; exact iff_of_true rfl trivial
theorem Operand.wait : ∀ a b, Operand.Statement (.wait a b) := by intros; exact iff_of_true rfl trivial
theorem Operand.fold : ∀ a b, Operand.Statement (.fold a b) := by intros; exact iff_of_true rfl trivial
theorem Operand.flagSet : ∀ a b, Operand.Statement (.flagSet a b) := by intros; exact iff_of_true rfl trivial
theorem Operand.flagClear : ∀ a b, Operand.Statement (.flagClear a b) := by intros; exact iff_of_true rfl trivial
theorem Operand.flagHoldSet : ∀ a b, Operand.Statement (.flagHoldSet a b) := by intros; exact iff_of_true rfl trivial
theorem Operand.flagHoldClear : ∀ a b, Operand.Statement (.flagHoldClear a b) := by intros; exact iff_of_true rfl trivial
theorem Operand.loop : ∀ a b, Operand.Statement (.loop a b) := by intros; exact iff_of_true rfl trivial
theorem Operand.endloop : ∀ a b, Operand.Statement (.endloop a b) := by intros; exact iff_of_true rfl trivial
theorem Operand.ctrset : ∀ a b, Operand.Statement (.ctrset a b) := by intros; exact iff_of_true rfl trivial
theorem Operand.ctradd : ∀ a b, Operand.Statement (.ctradd a b) := by intros; exact iff_of_true rfl trivial
theorem Operand.cmpset : ∀ a b, Operand.Statement (.cmpset a b) := by intros; exact iff_of_true rfl trivial
theorem Operand.nopb : ∀ a b, Operand.Statement (.nopb a b) := by intros; exact iff_of_true rfl trivial
theorem Operand.overlay : ∀ a b, Operand.Statement (.overlay a b) := by intros; exact iff_of_true rfl trivial
theorem Operand.halt : ∀ a b, Operand.Statement (.halt a b) := by intros; exact iff_of_true rfl trivial
theorem Operand.stackReread : ∀ a b, Operand.Statement (.stackReread a b) := by intros; exact iff_of_true rfl trivial
theorem Operand.groupClearDone : ∀ a b, Operand.Statement (.groupClearDone a b) := by intros; exact iff_of_true rfl trivial
theorem Operand.unownedGroupMaint : ∀ a b, Operand.Statement (.unownedGroupMaint a b) := by intros; exact iff_of_true rfl trivial
theorem Operand.stackTempReport : ∀ a b, Operand.Statement (.stackTempReport a b) := by intros; exact iff_of_true rfl trivial
theorem Operand.stackHotRefresh : ∀ a, Operand.Statement (.stackHotRefresh a) := by intros; exact iff_of_true rfl trivial
theorem Operand.xferLinkTimeout : ∀ a, Operand.Statement (.xferLinkTimeout a) := by intros; exact iff_of_true rfl trivial
theorem Operand.msgRequestArrive : ∀ a, Operand.Statement (.msgRequestArrive a) := by intros; exact iff_of_true rfl trivial
theorem Operand.registerAccess : ∀ a, Operand.Statement (.registerAccess a) := by intros; exact iff_of_true rfl trivial
theorem Operand.handlerDispatch : ∀ a b, Operand.Statement (.handlerDispatch a b) := by intros; exact iff_of_true rfl trivial
theorem Operand.handlerEnd : ∀ a b, Operand.Statement (.handlerEnd a b) := by intros; exact iff_of_true rfl trivial
theorem Operand.handlerWrite : ∀ a b, Operand.Statement (.handlerWrite a b) := by intros; exact iff_of_true rfl trivial
theorem Operand.handlerAdd : ∀ a b, Operand.Statement (.handlerAdd a b) := by intros; exact iff_of_true rfl trivial
theorem Operand.handlerBump : ∀ a b, Operand.Statement (.handlerBump a b) := by intros; exact iff_of_true rfl trivial
theorem Operand.handlerFlagset : ∀ a b, Operand.Statement (.handlerFlagset a b) := by intros; exact iff_of_true rfl trivial
theorem Operand.handlerFlagclr : ∀ a b, Operand.Statement (.handlerFlagclr a b) := by intros; exact iff_of_true rfl trivial
theorem Operand.handlerReply : ∀ a b, Operand.Statement (.handlerReply a b) := by intros; exact iff_of_true rfl trivial
theorem Operand.handlerSend : ∀ a b, Operand.Statement (.handlerSend a b) := by intros; exact iff_of_true rfl trivial
theorem Operand.replyArrive : ∀ a, Operand.Statement (.replyArrive a) := by intros; exact iff_of_true rfl trivial
theorem Operand.nakArrive : ∀ a, Operand.Statement (.nakArrive a) := by intros; exact iff_of_true rfl trivial
theorem Operand.fullBounce : ∀ a, Operand.Statement (.fullBounce a) := by intros; exact iff_of_true rfl trivial
theorem Operand.spaceSignal : ∀ a, Operand.Statement (.spaceSignal a) := by intros; exact iff_of_true rfl trivial
theorem Operand.sendWatchdog : ∀ a, Operand.Statement (.sendWatchdog a) := by intros; exact iff_of_true rfl trivial
theorem Operand.cancel : ∀ a b, Operand.Statement (.cancel a b) := by intros; exact iff_of_true rfl trivial
theorem Operand.channelClose : ∀ a b c, Operand.Statement (.channelClose a b c) := by intros; exact iff_of_true rfl trivial
theorem Operand.flitCheckFail : ∀ a b c d, Operand.Statement (.flitCheckFail a b c d) := by intros; exact iff_of_true rfl trivial
theorem Operand.foldContribution : ∀ a, Operand.Statement (.foldContribution a) := by intros; exact iff_of_true rfl trivial
theorem Operand.foldResult : ∀ a, Operand.Statement (.foldResult a) := by intros; exact iff_of_true rfl trivial
theorem Operand.flagChange : ∀ a, Operand.Statement (.flagChange a) := by intros; exact iff_of_true rfl trivial
theorem Operand.flagWaitArrive : ∀ a, Operand.Statement (.flagWaitArrive a) := by intros; exact iff_of_true rfl trivial
theorem Operand.flagRelease : ∀ a, Operand.Statement (.flagRelease a) := by intros; exact iff_of_true rfl trivial
theorem Operand.haltNotice : ∀ a, Operand.Statement (.haltNotice a) := by intros; exact iff_of_true rfl trivial
theorem Operand.waitArrive : ∀ a, Operand.Statement (.waitArrive a) := by intros; exact iff_of_true rfl trivial
theorem Operand.waitRelease : ∀ a, Operand.Statement (.waitRelease a) := by intros; exact iff_of_true rfl trivial
theorem Operand.doorbell : ∀ a b c, Operand.Statement (.doorbell a b c) := by intros; exact iff_of_true rfl trivial
theorem Operand.run : ∀ a b, Operand.Statement (.run a b) := by intros; exact iff_of_true rfl trivial
theorem Operand.abort : ∀ a b, Operand.Statement (.abort a b) := by intros; exact iff_of_true rfl trivial
theorem Operand.loadProgram : ∀ a b c, Operand.Statement (.loadProgram a b c) := by intros; exact iff_of_true rfl trivial
theorem Operand.loadWeights : ∀ a b c, Operand.Statement (.loadWeights a b c) := by intros; exact iff_of_true rfl trivial
theorem Operand.loadComplete : ∀ a, Operand.Statement (.loadComplete a) := by intros; exact iff_of_true rfl trivial
theorem Operand.xfer : ∀ a b, Operand.Statement (.xfer a b) := by intros; exact iff_of_true rfl trivial
theorem Operand.msg : ∀ a b, Operand.Statement (.msg a b) := by intros; exact iff_of_true rfl trivial
theorem Operand.cancelMsg : ∀ a b, Operand.Statement (.cancelMsg a b) := by intros; exact iff_of_true rfl trivial
theorem Operand.attest : ∀ a b, Operand.Statement (.attest a b) := by intros; exact iff_of_true rfl trivial
theorem Operand.certs : ∀ a b, Operand.Statement (.certs a b) := by intros; exact iff_of_true rfl trivial
theorem Operand.chainSign : ∀ a b, Operand.Statement (.chainSign a b) := by intros; exact iff_of_true rfl trivial
theorem Operand.ownerTake : ∀ a b c, Operand.Statement (.ownerTake a b c) := by intros; exact iff_of_true rfl trivial
theorem Operand.ownerChange : ∀ a b c, Operand.Statement (.ownerChange a b c) := by intros; exact iff_of_true rfl trivial
theorem Operand.ownerRelease : ∀ a b c, Operand.Statement (.ownerRelease a b c) := by intros; exact iff_of_true rfl trivial
theorem Operand.signers : ∀ a b c, Operand.Statement (.signers a b c) := by intros; exact iff_of_true rfl trivial
theorem Operand.unlock : ∀ a b c, Operand.Statement (.unlock a b c) := by intros; exact iff_of_true rfl trivial
theorem Operand.relock : ∀ a b, Operand.Statement (.relock a b) := by intros; exact iff_of_true rfl trivial
theorem Operand.svnCommit : ∀ a b c, Operand.Statement (.svnCommit a b c) := by intros; exact iff_of_true rfl trivial
theorem Operand.runIngress : ∀ a b, Operand.Statement (.runIngress a b) := by intros; exact iff_of_true rfl trivial
theorem Operand.runStart : ∀ a, Operand.Statement (.runStart a) := by intros; exact iff_of_true rfl trivial
theorem Operand.runCompletion : ∀ a b, Operand.Statement (.runCompletion a b) := by intros; exact iff_of_true rfl trivial
theorem Operand.completionWrite : ∀ a, Operand.Statement (.completionWrite a) := by intros; exact iff_of_true rfl trivial
theorem Operand.deadlineExpiry : ∀ a b, Operand.Statement (.deadlineExpiry a b) := by intros; exact iff_of_true rfl trivial
theorem Operand.vectorFire : ∀ a b, Operand.Statement (.vectorFire a b) := by intros; exact iff_of_true rfl trivial
theorem Operand.periodicRecordSign : ∀ a, Operand.Statement (.periodicRecordSign a) := by intros; exact iff_of_true rfl trivial
theorem Operand.pastureStart : ∀ a b c, Operand.Statement (.pastureStart a b c) := by intros; exact iff_of_true rfl trivial
theorem Operand.pastureStop : ∀ a, Operand.Statement (.pastureStop a) := by intros; exact iff_of_true rfl trivial
theorem Operand.pastureReset : ∀ a b, Operand.Statement (.pastureReset a b) := by intros; exact iff_of_true rfl trivial
theorem Operand.warmComputeReset : ∀ a, Operand.Statement (.warmComputeReset a) := by intros; exact segments_iff _
theorem Operand.tileQuarantine : ∀ a b, Operand.Statement (.tileQuarantine a b) := by intros; exact iff_of_true rfl trivial
theorem Operand.qosWrite : ∀ a b, Operand.Statement (.qosWrite a b) := by intros; exact iff_of_true rfl trivial
theorem Operand.flrVf : ∀ a, Operand.Statement (.flrVf a) := by intros; simp [Operand.Statement, Operand.Bounded, Instr.wellFormed]
theorem Operand.flrPf0 : ∀ a, Operand.Statement (.flrPf0 a) := by intros; exact segments_iff _
theorem Operand.perstN : ∀ a, Operand.Statement (.perstN a) := by intros; exact segments_iff _
theorem Operand.hotReset : ∀ a, Operand.Statement (.hotReset a) := by intros; exact segments_iff _
theorem Operand.pcieLinkDown : ∀ a, Operand.Statement (.pcieLinkDown a) := by intros; exact segments_iff _
theorem Operand.ownershipWrite : ∀ a b c, Operand.Statement (.ownershipWrite a b c) := by intros; exact iff_of_true rfl trivial
theorem Operand.autoEnable : Operand.Statement (.autoEnable) := iff_of_true rfl trivial
theorem Operand.groupXferWrite : ∀ a b c d, Operand.Statement (.groupXferWrite a b c d) := by intros; exact iff_of_true rfl trivial
theorem Operand.paceLimitWrite : ∀ a b c, Operand.Statement (.paceLimitWrite a b c) := by intros; exact iff_of_true rfl trivial
theorem Operand.hostFlagSet : ∀ a b c d, Operand.Statement (.hostFlagSet a b c d) := by intros; exact iff_of_true rfl trivial
theorem Operand.hostFlagClr : ∀ a b c d, Operand.Statement (.hostFlagClr a b c d) := by intros; exact iff_of_true rfl trivial
theorem Operand.tileWindowAccess : ∀ a b c d, Operand.Statement (.tileWindowAccess a b c d) := by intros; exact iff_of_true rfl trivial
theorem Operand.registerWrite : ∀ a b c d, Operand.Statement (.registerWrite a b c d) := by intros; exact iff_of_true rfl trivial
theorem Operand.linkRetrain : ∀ a, Operand.Statement (.linkRetrain a) := by intros; exact iff_of_true rfl trivial
theorem Operand.planCommit : Operand.Statement (.planCommit) := iff_of_true rfl trivial
theorem Operand.lportWrite : ∀ a b, Operand.Statement (.lportWrite a b) := by intros; exact iff_of_true rfl trivial
theorem Operand.flockStart : ∀ a b, Operand.Statement (.flockStart a b) := by intros; exact iff_of_true rfl trivial
theorem Operand.flockStop : ∀ a b, Operand.Statement (.flockStop a b) := by intros; exact iff_of_true rfl trivial
theorem Operand.rankSwap : ∀ a b, Operand.Statement (.rankSwap a b) := by intros; exact iff_of_true rfl trivial
theorem Operand.routeSwap : Operand.Statement (.routeSwap) := iff_of_true rfl trivial
theorem Operand.ordReservationWrite : ∀ a b c d, Operand.Statement (.ordReservationWrite a b c d) := by intros; exact iff_of_true rfl trivial
theorem Operand.linkDetect : ∀ a b, Operand.Statement (.linkDetect a b) := by intros; exact iff_of_true rfl trivial
theorem Operand.linkLanes : ∀ a b c d, Operand.Statement (.linkLanes a b c d) := by intros; exact iff_of_true rfl trivial
theorem Operand.linkEqualise : ∀ a b, Operand.Statement (.linkEqualise a b) := by intros; exact iff_of_true rfl trivial
theorem Operand.linkWidth : ∀ a b, Operand.Statement (.linkWidth a b) := by intros; exact iff_of_true rfl trivial
theorem Operand.linkIdentify : ∀ a b, Operand.Statement (.linkIdentify a b) := by intro n r; cases r <;> simp [Operand.Statement, Operand.Bounded, Instr.wellFormed]
theorem Operand.linkCompare : ∀ a, Operand.Statement (.linkCompare a) := by intros; exact iff_of_true rfl trivial
theorem Operand.linkFlitReceive : ∀ a b c, Operand.Statement (.linkFlitReceive a b c) := by
  intros; simp [Operand.Statement, Operand.Bounded, Instr.wellFormed, Operand.symbols_iff]
theorem Operand.linkNak : ∀ a b, Operand.Statement (.linkNak a b) := by intros; exact iff_of_true rfl trivial
theorem Operand.ackTimeout : ∀ a, Operand.Statement (.ackTimeout a) := by intros; exact iff_of_true rfl trivial
theorem Operand.laneLost : ∀ a b c, Operand.Statement (.laneLost a b c) := by intros; exact iff_of_true rfl trivial
theorem Operand.degrade : ∀ a b, Operand.Statement (.degrade a b) := by intros; exact iff_of_true rfl trivial
theorem Operand.widthProposal : ∀ a b, Operand.Statement (.widthProposal a b) := by intros; exact iff_of_true rfl trivial
theorem Operand.widthAccept : ∀ a b, Operand.Statement (.widthAccept a b) := by intros; exact iff_of_true rfl trivial
theorem Operand.retrainRequest : ∀ a, Operand.Statement (.retrainRequest a) := by intros; exact iff_of_true rfl trivial
theorem Operand.laneHealthWindow : ∀ a, Operand.Statement (.laneHealthWindow a) := by intros; exact iff_of_true rfl trivial
theorem Operand.calibrationOpportunity : ∀ a b, Operand.Statement (.calibrationOpportunity a b) := by intros; exact iff_of_true rfl trivial
theorem Operand.planWaitExpiry : Operand.Statement (.planWaitExpiry) := iff_of_true rfl trivial
theorem Operand.packetForward : ∀ a b, Operand.Statement (.packetForward a b) := by intros; exact iff_of_true rfl trivial
theorem Operand.data : ∀ a, Operand.Statement (.data a) := by intros; exact iff_of_true rfl trivial
theorem Operand.landingNotice : ∀ a, Operand.Statement (.landingNotice a) := by intros; exact iff_of_true rfl trivial
theorem Operand.creditReq : ∀ a, Operand.Statement (.creditReq a) := by intros; exact iff_of_true rfl trivial
theorem Operand.creditGrant : ∀ a, Operand.Statement (.creditGrant a) := by intros; exact iff_of_true rfl trivial
theorem Operand.creditReturn : ∀ a, Operand.Statement (.creditReturn a) := by intros; exact iff_of_true rfl trivial
theorem Operand.nak : ∀ a, Operand.Statement (.nak a) := by intros; exact iff_of_true rfl trivial
theorem Operand.done : ∀ a, Operand.Statement (.done a) := by intros; exact iff_of_true rfl trivial
theorem Operand.dataAck : ∀ a, Operand.Statement (.dataAck a) := by intros; exact iff_of_true rfl trivial
theorem Operand.svcData : ∀ a b c, Operand.Statement (.svcData a b c) := by intros; exact fabData_iff _
theorem Operand.svcAck : ∀ a b, Operand.Statement (.svcAck a b) := by intros; exact fabData_iff _
theorem Operand.creditReqRepeat : ∀ a b, Operand.Statement (.creditReqRepeat a b) := by intros; exact iff_of_true rfl trivial
theorem Operand.sendSourceDone : ∀ a b, Operand.Statement (.sendSourceDone a b) := by intros; exact iff_of_true rfl trivial
theorem Operand.doneTimeout : ∀ a b, Operand.Statement (.doneTimeout a b) := by intros; exact iff_of_true rfl trivial
theorem Operand.trackerAbandon : ∀ a b c d, Operand.Statement (.trackerAbandon a b c d) := by intros; exact iff_of_true rfl trivial
theorem Operand.droveTimeout : ∀ a b, Operand.Statement (.droveTimeout a b) := by intros; exact iff_of_true rfl trivial
theorem Operand.ordDrainExpiry : Operand.Statement (.ordDrainExpiry) := iff_of_true rfl trivial
theorem Operand.ordHoldExpiry : ∀ a, Operand.Statement (.ordHoldExpiry a) := by intros; exact iff_of_true rfl trivial
theorem Operand.wptLate : ∀ a b c, Operand.Statement (.wptLate a b c) := by intros; exact iff_of_true rfl trivial
theorem Operand.wptTimeout : ∀ a b c, Operand.Statement (.wptTimeout a b c) := by intros; exact iff_of_true rfl trivial
theorem Operand.powerGood : ∀ a b, Operand.Statement (.powerGood a b) := by intros; exact iff_of_true rfl trivial
theorem Operand.powerLoss : Operand.Statement (.powerLoss) := iff_of_true rfl trivial
theorem Operand.inputReversed : Operand.Statement (.inputReversed) := iff_of_true rfl trivial
theorem Operand.inputHigh : Operand.Statement (.inputHigh) := iff_of_true rfl trivial
theorem Operand.inputOvervoltage : Operand.Statement (.inputOvervoltage) := iff_of_true rfl trivial
theorem Operand.inputLow : Operand.Statement (.inputLow) := iff_of_true rfl trivial
theorem Operand.inputOvercurrent : Operand.Statement (.inputOvercurrent) := iff_of_true rfl trivial
theorem Operand.efuseTrip : Operand.Statement (.efuseTrip) := iff_of_true rfl trivial
theorem Operand.railOutOfRegulation : Operand.Statement (.railOutOfRegulation) := iff_of_true rfl trivial
theorem Operand.efuseRetry : Operand.Statement (.efuseRetry) := iff_of_true rfl trivial
theorem Operand.thermtrip : Operand.Statement (.thermtrip) := iff_of_true rfl trivial
theorem Operand.bootShepherdVerify : ∀ a, Operand.Statement (.bootShepherdVerify a) := by intros; exact images_iff _
theorem Operand.bootHifStart : Operand.Statement (.bootHifStart) := iff_of_true rfl trivial
theorem Operand.bootStackTrain : ∀ a, Operand.Statement (.bootStackTrain a) := by intros; exact iff_of_true rfl trivial
theorem Operand.bootStackClear : ∀ a, Operand.Statement (.bootStackClear a) := by intros; exact iff_of_true rfl trivial
theorem Operand.bootWave : ∀ a b, Operand.Statement (.bootWave a b) := by intros; exact iff_of_true rfl trivial
theorem Operand.bootBist : ∀ a, Operand.Statement (.bootBist a) := by intros; exact allOnDie_iff _
theorem Operand.bootDefectMap : Operand.Statement (.bootDefectMap) := iff_of_true rfl trivial
theorem Operand.bootColumnMap : Operand.Statement (.bootColumnMap) := iff_of_true rfl trivial
theorem Operand.bootTileFw : ∀ a, Operand.Statement (.bootTileFw a) := by intros; exact segments_iff _
theorem Operand.bootStepRequest2 : ∀ a b, Operand.Statement (.bootStepRequest2 a b) := by intros; exact images_iff _
theorem Operand.bootStepRequest4 : ∀ a b c, Operand.Statement (.bootStepRequest4 a b c) := by intros; exact iff_of_true rfl trivial
theorem Operand.bootStepRequest5 : ∀ a b, Operand.Statement (.bootStepRequest5 a b) := by intros; exact iff_of_true rfl trivial
theorem Operand.bootStepRequest6 : ∀ a b, Operand.Statement (.bootStepRequest6 a b) := by intros; exact allOnDie_iff _
theorem Operand.bootStepRequest7 : ∀ a, Operand.Statement (.bootStepRequest7 a) := by intros; exact iff_of_true rfl trivial
theorem Operand.bootStepRequest8 : ∀ a, Operand.Statement (.bootStepRequest8 a) := by intros; exact iff_of_true rfl trivial
theorem Operand.bootStepRequest9 : ∀ a b, Operand.Statement (.bootStepRequest9 a b) := by intros; exact segments_iff _
theorem Operand.shepherdWatchdog : Operand.Statement (.shepherdWatchdog) := iff_of_true rfl trivial
theorem Operand.ringCrcFail : ∀ a, Operand.Statement (.ringCrcFail a) := by intros; exact iff_of_true rfl trivial
theorem Operand.parkHalf : ∀ a, Operand.Statement (.parkHalf a) := by intros; exact iff_of_true rfl trivial
theorem Operand.unparkHalf : ∀ a, Operand.Statement (.unparkHalf a) := by intros; exact iff_of_true rfl trivial
theorem Operand.unparkDone : ∀ a b c, Operand.Statement (.unparkDone a b c) := by
  intros; simp only [Operand.Statement, Operand.Bounded, Instr.wellFormed, Bool.and_eq_true, Operand.allOnDie_iff, Operand.segments_iff]
theorem Operand.selftestTileBist : ∀ a b, Operand.Statement (.selftestTileBist a b) := by intros; exact iff_of_true rfl trivial
theorem Operand.selftestSextant : ∀ a b, Operand.Statement (.selftestSextant a b) := by intros; exact iff_of_true rfl trivial
theorem Operand.selftestStackScrub : ∀ a, Operand.Statement (.selftestStackScrub a) := by intros; exact iff_of_true rfl trivial
theorem Operand.selftestEyeScan : ∀ a, Operand.Statement (.selftestEyeScan a) := by intros; exact iff_of_true rfl trivial
theorem Operand.selftestSlotCheck : Operand.Statement (.selftestSlotCheck) := iff_of_true rfl trivial
theorem Operand.selftestStart : ∀ a b, Operand.Statement (.selftestStart a b) := by intros; exact iff_of_true rfl trivial
theorem Operand.selftestDeferTimeout : ∀ a b, Operand.Statement (.selftestDeferTimeout a b) := by intros; exact iff_of_true rfl trivial
theorem Operand.selftestDone : ∀ a b c, Operand.Statement (.selftestDone a b c) := by intros; exact iff_of_true rfl trivial
theorem Operand.mgtDatagram : ∀ a b c, Operand.Statement (.mgtDatagram a b c) := by
  intro a b c; cases b <;> simp [Operand.Statement, Operand.Bounded, Instr.wellFormed]
theorem Operand.mbxGo : Operand.Statement (.mbxGo) := iff_of_true rfl trivial
theorem Operand.read : Operand.Statement (.read) := iff_of_true rfl trivial
theorem Operand.write : Operand.Statement (.write) := iff_of_true rfl trivial
theorem Operand.identify : Operand.Statement (.identify) := iff_of_true rfl trivial
theorem Operand.alertClear : ∀ a, Operand.Statement (.alertClear a) := by intros; exact iff_of_true rfl trivial
theorem Operand.persistWrite : ∀ a b, Operand.Statement (.persistWrite a b) := by intros; exact iff_of_true rfl trivial
theorem Operand.lineCheck : ∀ a, Operand.Statement (.lineCheck a) := by intros; exact iff_of_true rfl trivial
theorem Operand.lineRecover : Operand.Statement (.lineRecover) := iff_of_true rfl trivial
theorem Operand.nodeConflictRetry : Operand.Statement (.nodeConflictRetry) := iff_of_true rfl trivial
theorem Operand.powerCapReached : ∀ a, Operand.Statement (.powerCapReached a) := by intros; exact iff_of_true rfl trivial
theorem Operand.stackWriteRetry : ∀ a b c, Operand.Statement (.stackWriteRetry a b c) := by intros; exact iff_of_true rfl trivial

end Sys2Proof.Laws
end

