-- ==== Sys2Proof/Tests/Slice0.lean ====
section
/-!
SUPPORT. Tests: ill-formed commands that WellFormed refuses, the standards' vectors of the algorithms, a few results worked out from the spec,
and for every statement states and operands that meet its hypotheses, clause by clause.
-/
namespace Sys2Proof.Tests
open Sys2Proof Sys2Proof.Machine
set_option Elab.async false
set_option maxRecDepth 100000

/-- A package that is ready: 64 columns, both halves live. -/
def ready : State :=
  { power := { good := true, rails := true, serviceRail := true }, now := 10 ^ 15
    west := { state := .live, vcore := 700 }, east := { state := .live, vcore := 700 }
    boot := { ready := true, everReady := true, gridW := 64, done := [2, 3, 4, 14, 5, 6, 7, 8, 9], step := 9, state := 2, waves := 17,
              colMap := (List.range 64).map fun v => (v, v + 2) } }
/-- Pasture 0 enabled on columns 0 and 1, and beating. -/
def pas0 : Pasture := { enable := true, width := 2, col0 := 0, beating := true, loaded := true }
/-- ... with one tile's state given. -/
def live (t : Tile) : State := { ready with pas := [(0, pas0)], tiles := [(0, t)] }
/-- A tile that runs, with its first descriptor's words in slot 0. -/
def prog (t : Tile) (ws : List Word) : Tile :=
  { t with running := true, store := (List.range 16).filterMap fun i => if ws.getD i 0 = 0 then none else some (i, ws.getD i 0) }
def w0 (op act : Nat) : Word := BitVec.ofNat 64 (op * 2 ^ 56 + act * 2 ^ 54)
def f (v lo : Nat) : Nat := v * 2 ^ lo
def wd (xs : List Nat) : Word := BitVec.ofNat 64 (xs.foldl (· + ·) 0)
def at_ (t : Tile) (ws : List Word) : State := live (prog t ws)
/-- An immediate descriptor with word 1. -/
def imm (op : Nat) (xs : List Nat) : List Word := [w0 op 2, wd xs]
def off (op : Nat) (xs : List Nat) : List Word := [w0 op 2 ||| BitVec.ofNat 64 (2 ^ 53), wd xs]
/-- A live package with pasture 0 changed. -/
def livep (g : Pasture → Pasture) (t : Tile) : State := { ready with pas := [(0, g pas0)], tiles := [(0, t)] }
def win1 : Window := { state := 1, landing := true, opener := 0, base := 0, size := 1, rankLo := 0, rankHi := 9, pool := 4 }
def sent (p : Packet) (s : State) : State := { s with net := [{ pkt := p }] }

/-! Numbers of functions, pastures, tiles and units. -/
def fin16_0 : Fin 16 := 0
def fin2_0 : Fin 2 := 0
def fin3_0 : Fin 3 := 0
def fin5_2 : Fin 5 := 2
def fin64_0 : Fin 64 := 0
def fin64_63 : Fin 64 := 63
def fin8_0 : Fin 8 := 0
def fin8_7 : Fin 8 := 7
def fin_170 : Fin 17 := 0
def fin_1716 : Fin 17 := 16
def fin_40 : Fin 4 := 0
def fin_42 : Fin 4 := 2
def fin_43 : Fin 4 := 3
def fn_0 : FnId := 0
def fn_1 : FnId := 1
def pas_0 : PasId := 0
def pas_1 : PasId := 1
def pas_3 : PasId := 3
def port_18 : PortId := 18
def port_3 : PortId := 3
def stack_0 : StackId := 0
def vx_0 : Vx := 0
def vx_1 : Vx := 1
def vy_0 : Vy := 0
def vy_1 : Vy := 1

/-! ## Beats, holds and stops -/

namespace Beats

def late : Tile := { landings := [{ due := 0, addr := 1792, arrival := .late }] }
def closed : Tile := { gateOpen := false, doneTime := 0 }

def c1_2 : State := (live {})
theorem witness_BeatCompletes :
    Claims.beatReady c1_2 (tileKey ↑vx_0 ↑vy_0) 0 = true := by decide +kernel
def c1_3 : State := (live {gateOpen := false})
theorem witness_BeatWaitsForItsConditions :
    c1_3.mayComplete (tileKey ↑vx_0 ↑vy_0) = false := by decide +kernel
def c1_4 : State := (live late)
def c1_5 : State := (live closed)
theorem witness_BeatEvents :
    (c1_4.live (tileKey ↑vx_0 ↑vy_0) = true ∧ (((c1_4.tile (tileKey ↑vx_0 ↑vy_0)).landings.any fun l => decide (l.due = (c1_4.tile (tileKey ↑vx_0
      ↑vy_0)).beat) && decide (l.arrival = Arrival.late)) = true) ∧ Claims.beatReady (Claims.itemThere c1_4 (tileKey ↑vx_0 ↑vy_0)) (tileKey ↑vx_0
      ↑vy_0) 0 = true) ∧
    (c1_5.pasOf ↑vx_0 = some 0 ∧ c1_5.live (tileKey ↑vx_0 ↑vy_0) = true ∧ (c1_5.tile (tileKey ↑vx_0 ↑vy_0)).gateOpen = false ∧ usT ≤ (c1_5.now -
      (c1_5.tile (tileKey ↑vx_0 ↑vy_0)).doneTime) * c1_5.paceOf 0) ∧
    ((c1_2.pasture ↑pas_0).beating = true ∧ (c1_2.pasture ↑pas_0).stopped = false ∧ (c1_2.pasture ↑pas_0).waitSince = none ∧ (c1_2.pasture
      ↑pas_0).stallLimit.toNat * usT + (c1_2.pasture ↑pas_0).waitTime ≤ c1_2.now - (c1_2.pasture ↑pas_0).lastBeatTime) := by decide +kernel
def c1_7 : State := { live {} with pas := [(0, { pas0 with stopped := true })] }
theorem witness_StopOfAPasture :
    ((c1_7.pasture 0).stopped = true) ∧
    ((c1_2.pasture 0).stopped = false ∧ 1 ≠ 0) := by decide +kernel

def recvJob (store : Nat) : Job := { opcode := 9, words := [w0 9 1, wd [f store 58, f 1 42], wd [f 4 54]], recs := [(4, BitVec.ofNat 256 (2 ^ 64 * 64))] }
def chunk (bs : List Byte) : Chunk := { bytes := bs, parity := tokenParity bs }
def noChunk : Tile := { recvJobs := [(0, recvJob 0)] }
def badParity : Tile := { inbox := [(0, { bytes := [1], parity := 0 })] }
def wrongSize : Tile := { inbox := [(0, chunk [1])], recvJobs := [(0, recvJob 1)] }
def stray : Tile := { inbox := [(0, chunk [1])] }
def clash : Tile := { landings := [{ addr := 2048, data := [1] }, { addr := 4096, data := [1] }] }
def mayFault (s : State) : Bool := decide (s.pasOf 0 = some 0) && s.live 0 && s.mayComplete 0 && !s.issueDue 0
theorem witness_FaultsOfABeat :
    ([noChunk, badParity, wrongSize, stray, clash].all fun t => mayFault (live t) && !((live t).beatFaults 0 0 0).isEmpty) = true ∧
    (mayFault (live {}) = true ∧ (live {}).beatFaults 0 0 0 = [] ∧ ({} : Tile).selfDue = none ∧ ({} : Tile).starts = none) ∧
    (clash.spadFault 0 (clash.accesses 0)).isSome = true ∧ (0, PortEvent.parity) ∈ badParity.portEvents 0 ∧
    (0, PortEvent.size) ∈ wrongSize.portEvents 0 ∧ ((live {}).pasture 0).strict = true ∧ (0, PortEvent.orphan) ∈ stray.portEvents 0 ∧
    (0, PortEvent.empty) ∈ noChunk.portEvents 0 ∧ ((livep (fun x => { x with strict := false }) {}).pasture 0).strict = false ∧
    mayFault (livep (fun x => { x with strict := false }) {}) = true := by decide +kernel
def rd (a : Int) : Access := { addr := a }
def wr (a : Int) : Access := { addr := a, write := true, data := [(0, 1)] }
def guarded : Tile := { wp := [{ enable := true, base := 0, limit := 0 }], upset2 := [0] }
theorem witness_ScratchpadFaultOrder :
    ({} : Tile).spadFault 2 [] = none ∧ (({} : Tile).spadFault 2 [rd (-1), rd 0, rd 0]).isSome = true ∧
    ((guarded.spadFault 2 [wr 0, wr 0]).isSome = true ∧ [wr 0, wr 0].filter Access.outside = [] ∧ collisions 0 [wr 0, wr 0] ≠ []) ∧
    ((guarded.spadFault 2 [wr 0]).isSome = true ∧ collisions 0 [wr 0] = [] ∧ guarded.protectedLine 0 = true) ∧
    ((guarded.spadFault 2 [rd 0]).isSome = true ∧ guarded.doubleError 0 (checkedWords false []) = true) ∧
    ((({} : Tile).spadFault 2 [{ rd 0 with check := true }]).isSome = true ∧ ({} : Tile).misses { rd 0 with check := true } = true) := by
  decide +kernel
def runOf (st : RunStage) : Run := { runId := 1, id := { tag := 9 }, stage := st }
theorem witness_StopsFailTheRuns : let s := livep (fun x => { x with runs := [runOf .running, runOf .queued, runOf .ingressed] }) {}
    (s.pasture 0).stopped = false ∧ (s.pasture 0).runs = runOf .running :: [runOf .queued, runOf .ingressed] ∧
      ∀ o ∈ [runOf .queued, runOf .ingressed], o.stage = .queued ∨ o.stage = .ingressed := by decide +kernel

end Beats

/-! ## The results of a beat -/

namespace Results

def rec4 (fmt base n st0 : Nat) : BitVec 256 := BitVec.ofNat 256 (base + fmt * 2 ^ 21 + n * 2 ^ 64 + st0 * 2 ^ 84)
/-- A COPY that clears the tally bit of the line at 0x1000 in beat 5. -/
def clears : Job := { opcode := 12, words := [w0 12 1, wd [f 1 63], wd [f 0x3FF 54, f 4 44]], recs := [(4, rec4 0 0x1000 64 1)] }
/-- Tile 0 in a beat that its neighbours have reached. -/
def at3 (t : Tile) : State := { live t with tiles := [(0, t), (1, { beat := t.beat }), (64, { beat := t.beat })] }
def writes : Tile := { beat := 5, mvJobs := [clears], landings := [{ due := 5, addr := 1792, data := [7, 8] }], tally := [(64, true)] }
theorem witness_ScratchpadOfABeat :
    Claims.beatReady (at3 writes) (tileKey ↑vx_0 ↑vy_0) 0 = true ∧ Memory.wf writes.spad = true ∧ smapWf false writes.tally = true ∧
    ((writes.accesses 5).any (·.clear)) = true ∧ (Claims.written 0 (writes.accesses 5)).map (·.2) = [7, 8] ∧
    ((Claims.written 0 (writes.accesses 5)).map (·.1)).Nodup := by decide +kernel
/-- The step that writes a line and clears another's tally bit. -/
theorem test_beat_writes : (match exec (.beatComplete 0 0) (at3 writes) with
    | .next u => (u.tile 0).bytes 0 1792 3 == [7, 8, 0] && smapGet false (u.tile 0).tally 28 && !smapGet false (u.tile 0).tally 64
    | _ => false) = true := by decide +kernel
def moving : Job :=
  { opcode := 8, go := 2, words := [w0 8 1, wd [f 1 62, f 3 42], wd [f 4 54]], recs := [(4, rec4 0 0x40 2 1)], cap := [(1, [5, 6])] }
def sends : Tile := { beat := 3, moveJobs := [(1, moving)], spad := [(64, 9)] }
def silent : Tile := { sends with moveJobs := sends.moveJobs.map fun x => (x.1, { x.2 with cap := [] }) }
def recvs : Tile := { recvJobs := [(0, Beats.recvJob 0)], inbox := [(0, Beats.chunk [1])] }
def stores : Tile := { recvJobs := [(0, { Beats.recvJob 1 with recs := [(4, rec4 0 0 1 1)] })], inbox := [(0, Beats.chunk [1])] }
def ready0 (s : State) : Bool := Claims.beatReady s 0 0
theorem witness_TokensOfABeat :
    ([sends, silent, recvs, stores, {}].all fun t => ready0 (at3 t) && decide (t.moveJobs.map (·.1)).Nodup && t.moveJobs.all fun x => decide (x.1 < 4)) = true ∧
    (at3 sends).neighbour 0 (Dir.ofNum 1) = some (tileKey 1 0, false) ∧ (sends.moveJobs.map fun x => (sends.moveOut x.2 3).1) = [some [5, 6]] ∧
    (silent.moveJobs.map fun x => (silent.moveOut x.2 3).1) = [none] ∧ ((sends.moveJobs.map fun x => (x.2.moveRead 3).isSome) = [true]) ∧
    smapFind recvs.inbox (inboxKey 0 0) = some (Beats.chunk [1]) ∧ recvs.recvAt 0 0 = some (Beats.recvJob 0, 0) ∧
    (stores.recvAt 0 0).any (fun x => recvStores x.1.words && x.1.mrRec.isSome) = true ∧
    (ready0 (livep (fun x => { x with strict := false }) { recvs with inbox := [] }) = true ∧ (recvs.recvAt 0 0).isSome = true) ∧
    ({} : Tile).recvAt 0 0 = none := by decide +kernel
theorem test_token_arrives : (match exec (.beatComplete 0 0) (at3 sends) with
    | .next u => decide (smapFind (u.tile (tileKey 1 0)).inbox (inboxKey 4 (Dir.ofNum 1).opposite.num) = some (Beats.chunk [5, 6])) | _ => false) = true := by
  decide +kernel
def forwards (c : Nat) (bs : List Byte) : Tile := { latched := [(0, (c, bs))] }
def forward : Job := { words := [w0 8 1, wd [f 4 59, f 3 42]] }
theorem witness_ForwardedChunks : forward.mrChunk 1 = some 1 ∧ moveSel forward.words ≠ 0 ∧
    smapFind (forwards 0 [1]).latched (moveSel forward.words - 4) = some (0, [1]) ∧
    smapFind (forwards 0 []).latched (moveSel forward.words - 4) = some (0, []) ∧
    smapFind (forwards 7 []).latched (moveSel forward.words - 4) = some (7, []) ∧
    smapFind ({} : Tile).latched (moveSel forward.words - 4) = none := by decide +kernel

/-- A vector descriptor whose A, B, DST_0 and DST_1 lie at 0, 256, 512 and 1024. -/
def vjob (op : Nat) (w1 : List Nat) (fmt : Nat) : Job :=
  { opcode := BitVec.ofNat 8 op, words := [w0 op 1, wd w1, 0, wd [f 4 54, f 5 44, f 6 24, f 7 14, f 0x3FF 34, f 0x3FF 4], wd [f 0x3FF 54]]
    recs := [(4, rec4 fmt 0 64 4), (5, rec4 0x11 256 64 4), (6, rec4 0x11 512 64 4), (7, rec4 0 1024 64 4)] }
def vtile (b : Nat) (j : Job) : Tile := { beat := b, vxJobs := [j] }
def addJob : Job := vjob 3 [f 1 58] 0x11
def sumJob : Job := vjob 3 [f 0x10 58] 0x11
def quantJob : Job := vjob 4 [f 0x11 49] 0x11
def dequantJob : Job := vjob 4 [f 1 54, f 0x11 44, f 0x0C 49] 0x0C
def topkJob : Job := vjob 5 [f 2 34] 0x11
def vwrites (j : Job) (l : Nat) : Bool :=
  ready0 (at3 (vtile (1 + l) j)) && decide ((vxCfg j.words).lat 1 = l) && decide (0 < j.vxVectors) && !(vxCfg j.words).reduces
theorem witness_VectorBeats :
    (ready0 (at3 (vtile 1 addJob)) = true ∧ 0 < addJob.vxVectors ∧ addJob ∈ (vtile 1 addJob).vxJobs) ∧
    (ready0 (at3 (vtile 0 addJob)) = true ∧ 0 < addJob.vxLast 1) ∧ (ready0 (at3 (vtile 3 addJob)) = true ∧ addJob.vxLastRead < 3 ∧ 3 < addJob.vxLast 1) ∧
    (vwrites addJob 4 = true ∧ (vxCfg addJob.words).isOp = true) ∧
    (vwrites dequantJob 3 = true ∧ (vxCfg dequantJob.words).isQuant = true ∧ (vxCfg dequantJob.words).dequant = true) ∧
    (vwrites quantJob 6 = true ∧ (vxCfg quantJob.words).isQuant = true ∧ (vxCfg quantJob.words).dequant = false) ∧
    (vwrites topkJob 10 = true ∧ (vxCfg topkJob.words).isTopk = true) ∧
    (ready0 (at3 (vtile 10 sumJob)) = true ∧ (vxCfg sumJob.words).reduces = true ∧ sumJob.groupsAt 1 10 = [0]) := by decide +kernel
theorem witness_RoundingKeepsCodes : f32Val 0x80000000 = .fin ⟨0, -149⟩ ∧ f32Val 0x7F7FFFFF = .fin ⟨2 ^ 24 - 1, 104⟩ := by decide +kernel
theorem witness_LaneResults : (∀ op ∈ (List.range 10).map (· + 1) ++ (List.range 6).map (· + 32),
    let c : VxCfg := { desc := 3, op := op }; 1 < ([0x3F800000, 0x40000000] : List (BitVec 32)).length ∧ c.isOp = true ∧ c.op = op) ∧
    ({ desc := 3, op := 0x20, bf16 := true } : VxCfg).bf16 = true ∧ 0 / 2 * 2 + 1 < ([0x3F800000, 0x40000000] : List (BitVec 32)).length := by
  decide +kernel
/-- MAX of 1 and 2 is 2, the lane pair of PAIRROT with c = 1 and s = 2, and an FMA. -/
theorem test_lanes : let one : BitVec 32 := 0x3F800000; let two : BitVec 32 := 0x40000000; let no := fun _ : Nat => false
    (({ desc := 3, op := 6 } : VxCfg).laneResults [one] [two] [] no).1 = [two] ∧
    (({ desc := 3, op := 10 } : VxCfg).laneResults [two, one] [one, 0] [two, 0] no).1 = [0, 0x40A00000] ∧
    (({ desc := 3, op := 4 } : VxCfg).laneResults [two] [two] [one] no).1 = [0x40A00000] := by decide +kernel
/-- RCP of 1 counts nothing, whichever code within its error the pipe gives. -/
theorem rcp_one : (sfuValue 0x22 0x3F800000).2 = {} := by
  unfold sfuValue
  rw [if_neg (by decide +kernel), if_neg (by decide +kernel), if_neg (by decide +kernel), if_neg (by decide +kernel), if_neg (by decide +kernel),
    if_neg (by decide +kernel), if_neg (by decide +kernel)]
  dsimp only
  split
  · split <;> rfl
  · rfl
theorem witness_SpecialFunctions : f32Val 0x40000000 = .fin ⟨2 ^ 23, -22⟩ ∧ (f32Dyad 0x43000000).lt ⟨128, 0⟩ = false ∧
    (f32Dyad 0xC3160000).lt ⟨-149, 0⟩ = true ∧ ((f32Dyad 0xC3150000).lt ⟨-149, 0⟩ = false ∧ (⟨-149, 0⟩ : Dyad).lt (f32Dyad 0xC3150000) = false) ∧
    ((f32Dyad 0x42FE0000).lt ⟨127, 0⟩ = false ∧ (⟨127, 0⟩ : Dyad).lt (f32Dyad 0x42FE0000) = false) ∧
    (f32Dyad 0x80000000).m = 0 ∧ (f32Dyad 0xBF800000).m < 0 ∧ (sfuValue 0x22 0x3F800000).2 = {} :=
  ⟨by decide +kernel, by decide +kernel, by decide +kernel, by decide +kernel, by decide +kernel, by decide +kernel, by decide +kernel, rcp_one⟩
theorem witness_Reductions : let xs : List (BitVec 32 × Bool) := [(0x3F800000, false), (0x40000000, false), (0, false)]
    2 * 0 + 1 < xs.length ∧ 2 * 1 + 1 = xs.length ∧ 1 < xs.length ∧ xs.length ≤ 128 ∧ (xs.take 1).length = 1 ∧
    ([[0x3F800000]] : List (List (BitVec 32))) ≠ [] ∧ (∀ op ∈ [0x10, 0x11, 0x12, 0x13], ({ op := op } : VxCfg).bf16 = false) ∧
    ({ op := 0x10, bf16 := true } : VxCfg).bf16 = true ∧ ([[0x3F800000]] : List (List (BitVec 32))).flatten ≠ [] := by decide +kernel
/-- 03_number_formats.md, R97: the order of a sum of 2^24, 1 and -2^24 matters; in a tree (2^24 + 1) + (-2^24) is 0. And RARGMAX takes the first of
equal maxima. -/
theorem test_reductions : (rowSum false [[0x4B800000, 0x3F800000, 0xCB800000]]).1 = 0 ∧ (rowSum false [[0x4B800000, 0xCB800000, 0x3F800000]]).1 = 0x3F800000 ∧
    (({ op := 0x13 } : VxCfg).reduceRow [[0x3F800000, 0x40000000], [0x40000000]]).1 = 1 := by decide +kernel
def mixed : List (BitVec 32) := [0x7F800000, 0x7FC00000, 0x3F800000, 0xFF800000]
theorem witness_QuantisedBlocks : (∀ l < 4, l < mixed.length) ∧ f32Val (mixed.getD 0 0) = .inf false ∧ f32Val (mixed.getD 1 0) = .nan ∧
    f32Val (mixed.getD 2 0) = .fin ⟨2 ^ 23, -23⟩ ∧ f32Val (mixed.getD 3 0) = .inf true ∧ ((⟨2 ^ 23, -23⟩ : Dyad).abs.lt (⟨2 ^ 23, -23⟩ : Dyad).abs = false) ∧
    ((narrow 0 ⟨53, -2⟩ 2 0).2 = false ∧ (narrow 0 ⟨53, -2⟩ 1 0).2 = true ∧ 7 ≤ maxCode 0 ∧ 0 ≤ maxCode 0x0C) := by decide +kernel
theorem test_quantised : (quantBlock 0 false mixed (fun l => l = 2) fun _ => false).1 = [7, 0, 0, 15] ∧
    (quantBlock 0 false mixed (fun _ => false) fun _ => false).2.1 = [125] := by decide +kernel
theorem witness_DequantisedValues : ({ fmtIn := 0x12 } : VxCfg).fmtIn = 0x12 ∧ (byteAt [255] 0).toNat = 255 ∧ ({ fmtIn := 0x0C } : VxCfg).fmtIn ≤ 0x0C ∧
    (byteAt [127, 3, 0] 0).toNat ≠ 255 ∧ ¬(({ fmtIn := 0x0C } : VxCfg).fmtIn = 5 ∧ (1 : Nat) = 3) ∧ ({ fmtIn := 2 } : VxCfg).fmtIn = 2 := by decide +kernel
/-- An LF4 element of code 0b0111 with nudge 0b11 is 10.5 times its scale. -/
theorem test_dequantised : ({ fmtIn := 2 } : VxCfg).dequantVal 7 [127, 3, 0] 0 = ⟨84, -3⟩ := by decide +kernel
/-- Equal values by ascending index; a place beyond the row takes the fill. -/
theorem test_topk : ({ k := 3 } : VxCfg).topRow [0x3F800000, 0x40000000, 0x40000000] [] = [(0x40000000, 1, false), (0x40000000, 2, false), (0x3F800000, 0, false)] ∧
    ({ k := 2, idxBase := 65536 } : VxCfg).topRow [0x3F800000] [] = [(0x3F800000, 0xFFFF, true), (0xFF7FFFFF, 0xFFFF, false)] := by decide +kernel
theorem witness_TopkRows : (({ k := 2 } : VxCfg).k = 2) ∧ (0 < 2 ∧ 1 < 2) ∧ ([0x3F800000] : List (BitVec 32)).length ≤ 1 := by decide +kernel

/-! The matrix unit: a MATMUL of one column and one vector, whose addition falls at beat 139 and whose readout at beat 203. -/
def mjob (accIn outFmt : Nat) : Job :=
  { opcode := 1, words := [w0 1 1, wd [f 1 56, f 64 17, f 1 1], wd [f 1 55, f accIn 45, f outFmt 40], 0,
      wd [f 0x3FF 54, f 0x3FF 44, f 0x3FF 34, f 0x3FF 24, f 0x3FF 14, f 0x3FF 4], wd [f 0x3FF 54, f 0x3FF 44, f 0x3FF 34]] }
/-- The OS flow with K = 0. -/
def empty : Job := { mjob 0 0x1F with words := [w0 1 1, wd [f 2 62, f 1 56, f 1 1], wd [f 1 55, f 0x1F 40], 0] }
def mtile (b : Nat) (j : Job) : Tile := { beat := b, mxJobs := [j] }
theorem alone_one (b : Nat) (j : Job) (key : Nat) : Claims.alone (mtile b j) j b key := ⟨[], [], rfl, by simp⟩
theorem witness_AccumulatorsOfABeat :
    (ready0 (at3 (mtile 139 (mjob 0 0x1F))) = true ∧ (mxCfg (mjob 0 0x1F).words).accBase + (mxCfg (mjob 0 0x1F).words).used ≤ 256 ∧
      0 ∈ (mxCfg (mjob 0 0x1F).words).arrays ∧ 0 < (mxCfg (mjob 0 0x1F).words).passes ∧ 0 < (mxCfg (mjob 0 0x1F).words).nv ∧
      0 < (mxCfg (mjob 0 0x1F).words).cp ∧ ((mxCfg (mjob 0 0x1F).words).colSpan 0) = (0, 1) ∧ 139 = Claims.addBeat (mjob 0 0x1F) 0 0 0 ∧
      accKey 0 0 0 ∉ Claims.entryKeys (mjob 0 0x1F) 139 ∧ (mxCfg (mjob 0 0x1F).words).firstPass 0 = true) ∧
    (∀ a ∈ [2, 3], ready0 (at3 (mtile 1 (mjob a 0x1F))) = true ∧ Claims.entryAt (mjob a 0x1F) 1 = some 0 ∧
      0 < (mxCfg (mjob a 0x1F).words).entryCols 0 ∧ accKey 0 0 0 ∉ Claims.addKeys (mjob a 0x1F) 1 ∧ (mxCfg (mjob a 0x1F).words).accIn = a) ∧
    (ready0 (at3 (mtile 1 empty)) = true ∧ Claims.entryAt empty 1 = some 0 ∧ 0 < (mxCfg empty.words).entryCols 0 ∧ accKey 0 0 0 ∉ Claims.addKeys empty 1) ∧
    5 ∉ Claims.addKeys (mjob 0 0x1F) 0 := by decide +kernel
theorem witness_ReadoutOfABeat : let c := mxCfg (mjob 0 0x11).words
    (ready0 (at3 (mtile 203 (mjob 0 0x11))) = true ∧ c.outFmt ≠ 0x1F ∧ 203 = c.lastAdd 0 + 1 + 0 * c.rOut ∧ 0 < c.used ∧ 0 ∈ c.arrays) ∧
    (ready0 (at3 (mtile 204 (mjob 0 0x11))) = true ∧ 204 = c.lastAdd 0 + 2 + 0 * c.rOut + 0 ∧ 0 < c.rOut) := by decide +kernel
/-- One addition in a beat: an accumulator of 1.0 keeps it when a block of zeros is added. -/
theorem test_addition : (match exec (.beatComplete 0 0) (at3 { mtile 139 (mjob 1 0x1F) with acc := [(0, 0x3F800000)] }) with
    | .next u => decide (smapGet 0 (u.tile 0).acc 0 = 0x3F800000) | _ => false) = true := by decide +kernel
theorem witness_BlockValues : (255 < 256 ∧ (127 : Int) - 127 - 0 = 0 ∧ (200 : Int) - 127 - 0 > 31 ∧ (3 : Int) - 127 - 0 < 0) ∧
    (0 : Int) ≤ 1 ∧ ((mjob 0 0x1F).streamElem 0 0 0 0).fill = false := by decide +kernel
theorem witness_AccumulatorArithmetic : f32Val ((0x3F800000 : BitVec 96).setWidth 32) = .fin ⟨2 ^ 23, -23⟩ := by decide +kernel

end Results

/-! ## Immediate descriptors, loops and faults of issue -/

namespace Immediates

def le1 : LoopEntry := { body := 3, endSlot := 0, remaining := 1 }
def le2 : LoopEntry := { body := 3, endSlot := 0, remaining := 2 }
def four : List LoopEntry := [le1, le1, le1, le1]
/-- LOOP with count 0 whose END is slot 2, where an ENDLOOP stands. -/
def skip : State := live { prog {} (imm 0x20 [f 2 48]) with store := [(0, w0 0x20 2), (1, wd [f 2 48]), (32, w0 0x21 2)] }

def c2_2 : State := (at_ {} (imm 0x22 [f 7 61, 0xFFFFFF]))
def c2_3 : State := (at_ {} (imm 0x23 [f 7 61, f 1 60, f 3 57, f 5 24]))
def c2_4 : State := (at_ {} (imm 0x23 [f 7 61, f 5 24, 7]))
def c2_5 : State := (at_ {} (imm 0x24 [f 3 62, f 2 59, f 3 56, 7]))
def c2_6 : State := (at_ {} (imm 0x24 [f 3 62, f 2 59, f 3 56, f 1 55, f 4 52]))
def c2_7 : State := (at_ {} (imm 0x25 [12]))
def c2_8 : State := (at_ {} (imm 0x26 [f 255 56, f 256 47, 1920]))
def c2_9 : State := (at_ {} (imm 0x27 []))
theorem witness_ImmediateDescriptors :
    (Claims.acting c2_2 (tileKey ↑vx_0 ↑vy_0) 34 = true) ∧
    (Claims.acting c2_3 (tileKey ↑vx_0 ↑vy_0) 35 = true ∧ dBit (Claims.words c2_3 (tileKey ↑vx_0 ↑vy_0)) 1 60 = true) ∧
    (Claims.acting c2_4 (tileKey ↑vx_0 ↑vy_0) 35 = true ∧ dBit (Claims.words c2_4 (tileKey ↑vx_0 ↑vy_0)) 1 60 = false) ∧
    (Claims.acting c2_5 (tileKey ↑vx_0 ↑vy_0) 36 = true ∧ dBit (Claims.words c2_5 (tileKey ↑vx_0 ↑vy_0)) 1 55 = false) ∧
    (Claims.acting c2_6 (tileKey ↑vx_0 ↑vy_0) 36 = true ∧ dBit (Claims.words c2_6 (tileKey ↑vx_0 ↑vy_0)) 1 55 = true) ∧
    (Claims.issues c2_7 (tileKey ↑vx_0 ↑vy_0) = true ∧ opOf (Claims.words c2_7 (tileKey ↑vx_0 ↑vy_0)) = 37) ∧
    (Claims.acting c2_8 (tileKey ↑vx_0 ↑vy_0) 38 = true) ∧
    (Claims.acting c2_9 (tileKey ↑vx_0 ↑vy_0) 39 = true) := by decide +kernel
def c2_10 : State := (at_ {} (imm 0x20 [f 2 48, 5]))
def c2_11 : State := (at_ {loops := [le1]} (imm 0x21 []))
def c2_12 : State := (at_ {loops := [le1, le2]} (imm 0x21 []))
theorem witness_LoopDescriptors :
    (Claims.issues c2_10 (tileKey ↑vx_0 ↑vy_0) = true ∧ opOf (Claims.words c2_10 (tileKey ↑vx_0 ↑vy_0)) = 32 ∧ (c2_10.tile (tileKey ↑vx_0 ↑vy_0)).countOf
      (Claims.words c2_10 (tileKey ↑vx_0 ↑vy_0)) ≠ 0 ∧ (c2_10.tile (tileKey ↑vx_0 ↑vy_0)).loops.length < 4) ∧
    (Claims.issues skip (tileKey ↑vx_0 ↑vy_0) = true ∧ opOf (Claims.words skip (tileKey ↑vx_0 ↑vy_0)) = 32 ∧ (skip.tile (tileKey ↑vx_0 ↑vy_0)).countOf
      (Claims.words skip (tileKey ↑vx_0 ↑vy_0)) = 0 ∧ opOf ((skip.tile (tileKey ↑vx_0 ↑vy_0)).slotWords (dField (Claims.words skip (tileKey ↑vx_0
      ↑vy_0)) 1 55 48)) = 33) ∧
    (Claims.issues c2_11 (tileKey ↑vx_0 ↑vy_0) = true ∧ opOf (Claims.words c2_11 (tileKey ↑vx_0 ↑vy_0)) = 33 ∧ (c2_11.tile (tileKey ↑vx_0
      ↑vy_0)).loops.getLast? = some le1 ∧ le1.endSlot = (c2_11.tile (tileKey ↑vx_0 ↑vy_0)).ip ∧ le1.remaining ≤ 1) ∧
    (Claims.issues c2_12 (tileKey ↑vx_0 ↑vy_0) = true ∧ opOf (Claims.words c2_12 (tileKey ↑vx_0 ↑vy_0)) = 33 ∧ (c2_12.tile (tileKey ↑vx_0
      ↑vy_0)).loops.getLast? = some le2 ∧ le2.endSlot = (c2_12.tile (tileKey ↑vx_0 ↑vy_0)).ip ∧ 1 < le2.remaining) := by decide +kernel
def c2_13 : State := (at_ {loops := four} (imm 0x20 [f 2 48, 5]))
def c2_14 : State := (at_ {} (imm 0x21 []))
def c2_15 : State := (at_ {loops := [{le1 with endSlot := 1}]} (imm 0x21 []))
def c2_16 : LoopEntry := {le1 with endSlot := 1}
theorem witness_LoopFaults :
    (Claims.issues c2_13 (tileKey ↑vx_0 ↑vy_0) = true ∧ opOf (Claims.words c2_13 (tileKey ↑vx_0 ↑vy_0)) = 32 ∧ (c2_13.tile (tileKey ↑vx_0 ↑vy_0)).countOf
      (Claims.words c2_13 (tileKey ↑vx_0 ↑vy_0)) ≠ 0 ∧ 4 ≤ (c2_13.tile (tileKey ↑vx_0 ↑vy_0)).loops.length) ∧
    (Claims.issues c2_14 (tileKey ↑vx_0 ↑vy_0) = true ∧ opOf (Claims.words c2_14 (tileKey ↑vx_0 ↑vy_0)) = 33 ∧ (c2_14.tile (tileKey ↑vx_0 ↑vy_0)).loops =
      []) ∧
    (Claims.issues c2_15 (tileKey ↑vx_0 ↑vy_0) = true ∧ opOf (Claims.words c2_15 (tileKey ↑vx_0 ↑vy_0)) = 33 ∧ (c2_15.tile (tileKey ↑vx_0
      ↑vy_0)).loops.getLast? = some c2_16 ∧ c2_16.endSlot ≠ (c2_15.tile (tileKey ↑vx_0 ↑vy_0)).ip) := by decide +kernel
theorem witness_CounterSumWraps :
    (0 = 0) ∧
    (3 + 4 < 2 ^ 24 ∧ 3 + 4 < 8 ∧ 3 < 8 ∧ 4 < 8) ∧
    (3 + 5 < 2 ^ 24 ∧ 0 < 8 ∧ 8 ≤ 3 + 5) := by decide +kernel
def c2_17 : State := (at_ {} (off 0x22 []))
def c2_18 : State := (at_ {} (off 0x23 []))
def c2_19 : State := (at_ {} (off 0x24 []))
def c2_20 : State := (at_ {} (off 0x26 [f 1 47]))
def c2_21 : State := (at_ {} (off 0x27 []))
def c2_22 : State := (at_ {} [w0 0x09 1 ||| BitVec.ofNat 64 (2^53), wd [f 1 42], wd [f 0x3FF 54]])
def c2_23 : State := (at_ {} (off 0x14 []))
def c2_24 : State := (at_ {} (off 0x15 []))
def c2_25 : State := (at_ {} (off 0x18 []))
def c2_26 : State := (at_ {} (off 0x19 []))
def c2_27 : State := (at_ {} (off 0x1A []))
def c2_28 : State := (at_ {} (off 0x1A [f 1 54]))
def c2_29 : State := (at_ {} (off 0x1A [f 2 54]))
def c2_30 : State := (at_ {} (off 0x1A [f 3 54]))
theorem witness_PredicatedOffOnlyIssues_1 :
    (Claims.issues c2_17 (tileKey ↑vx_0 ↑vy_0) = true ∧ (c2_17.tile (tileKey ↑vx_0 ↑vy_0)).acts (Claims.words c2_17 (tileKey ↑vx_0 ↑vy_0)) = false ∧
      (c2_17.pasOf ↑vx_0).isSome = true ∧ opOf (Claims.words c2_17 (tileKey ↑vx_0 ↑vy_0)) = 34) ∧
    (Claims.issues c2_18 (tileKey ↑vx_0 ↑vy_0) = true ∧ (c2_18.tile (tileKey ↑vx_0 ↑vy_0)).acts (Claims.words c2_18 (tileKey ↑vx_0 ↑vy_0)) = false ∧
      (c2_18.pasOf ↑vx_0).isSome = true ∧ opOf (Claims.words c2_18 (tileKey ↑vx_0 ↑vy_0)) = 35) ∧
    (Claims.issues c2_19 (tileKey ↑vx_0 ↑vy_0) = true ∧ (c2_19.tile (tileKey ↑vx_0 ↑vy_0)).acts (Claims.words c2_19 (tileKey ↑vx_0 ↑vy_0)) = false ∧
      (c2_19.pasOf ↑vx_0).isSome = true ∧ opOf (Claims.words c2_19 (tileKey ↑vx_0 ↑vy_0)) = 36) ∧
    (Claims.issues c2_20 (tileKey ↑vx_0 ↑vy_0) = true ∧ (c2_20.tile (tileKey ↑vx_0 ↑vy_0)).acts (Claims.words c2_20 (tileKey ↑vx_0 ↑vy_0)) = false ∧
      (c2_20.pasOf ↑vx_0).isSome = true ∧ opOf (Claims.words c2_20 (tileKey ↑vx_0 ↑vy_0)) = 38) ∧
    (Claims.issues c2_21 (tileKey ↑vx_0 ↑vy_0) = true ∧ (c2_21.tile (tileKey ↑vx_0 ↑vy_0)).acts (Claims.words c2_21 (tileKey ↑vx_0 ↑vy_0)) = false ∧
      (c2_21.pasOf ↑vx_0).isSome = true ∧ opOf (Claims.words c2_21 (tileKey ↑vx_0 ↑vy_0)) = 39) ∧
    (Claims.issues c2_22 (tileKey ↑vx_0 ↑vy_0) = true ∧ (c2_22.tile (tileKey ↑vx_0 ↑vy_0)).acts (Claims.words c2_22 (tileKey ↑vx_0 ↑vy_0)) = false ∧
      (c2_22.pasOf ↑vx_0).isSome = true ∧ isLoad (Claims.words c2_22 (tileKey ↑vx_0 ↑vy_0)) = true) := by decide +kernel
theorem witness_PredicatedOffOnlyIssues_2 :
    (Claims.issues c2_23 (tileKey ↑vx_0 ↑vy_0) = true ∧ (c2_23.tile (tileKey ↑vx_0 ↑vy_0)).acts (Claims.words c2_23 (tileKey ↑vx_0 ↑vy_0)) = false ∧
      (c2_23.pasOf ↑vx_0).isSome = true ∧ opOf (Claims.words c2_23 (tileKey ↑vx_0 ↑vy_0)) = 20) ∧
    (Claims.issues c2_24 (tileKey ↑vx_0 ↑vy_0) = true ∧ (c2_24.tile (tileKey ↑vx_0 ↑vy_0)).acts (Claims.words c2_24 (tileKey ↑vx_0 ↑vy_0)) = false ∧
      (c2_24.pasOf ↑vx_0).isSome = true ∧ opOf (Claims.words c2_24 (tileKey ↑vx_0 ↑vy_0)) = 21) ∧
    (Claims.issues c2_25 (tileKey ↑vx_0 ↑vy_0) = true ∧ (c2_25.tile (tileKey ↑vx_0 ↑vy_0)).acts (Claims.words c2_25 (tileKey ↑vx_0 ↑vy_0)) = false ∧
      (c2_25.pasOf ↑vx_0).isSome = true ∧ opOf (Claims.words c2_25 (tileKey ↑vx_0 ↑vy_0)) = 24) ∧
    (Claims.issues c2_26 (tileKey ↑vx_0 ↑vy_0) = true ∧ (c2_26.tile (tileKey ↑vx_0 ↑vy_0)).acts (Claims.words c2_26 (tileKey ↑vx_0 ↑vy_0)) = false ∧
      (c2_26.pasOf ↑vx_0).isSome = true ∧ opOf (Claims.words c2_26 (tileKey ↑vx_0 ↑vy_0)) = 25) ∧
    (Claims.issues c2_27 (tileKey ↑vx_0 ↑vy_0) = true ∧ (c2_27.tile (tileKey ↑vx_0 ↑vy_0)).acts (Claims.words c2_27 (tileKey ↑vx_0 ↑vy_0)) = false ∧
      (c2_27.pasOf ↑vx_0).isSome = true ∧ opOf (Claims.words c2_27 (tileKey ↑vx_0 ↑vy_0)) = 26 ∧ flagAct (Claims.words c2_27 (tileKey ↑vx_0 ↑vy_0)) =
      0) := by decide +kernel
theorem witness_PredicatedOffOnlyIssues_3 :
    (Claims.issues c2_28 (tileKey ↑vx_0 ↑vy_0) = true ∧ (c2_28.tile (tileKey ↑vx_0 ↑vy_0)).acts (Claims.words c2_28 (tileKey ↑vx_0 ↑vy_0)) = false ∧
      (c2_28.pasOf ↑vx_0).isSome = true ∧ opOf (Claims.words c2_28 (tileKey ↑vx_0 ↑vy_0)) = 26 ∧ flagAct (Claims.words c2_28 (tileKey ↑vx_0 ↑vy_0)) =
      1) ∧
    (Claims.issues c2_29 (tileKey ↑vx_0 ↑vy_0) = true ∧ (c2_29.tile (tileKey ↑vx_0 ↑vy_0)).acts (Claims.words c2_29 (tileKey ↑vx_0 ↑vy_0)) = false ∧
      (c2_29.pasOf ↑vx_0).isSome = true ∧ opOf (Claims.words c2_29 (tileKey ↑vx_0 ↑vy_0)) = 26 ∧ flagAct (Claims.words c2_29 (tileKey ↑vx_0 ↑vy_0)) =
      2) ∧
    (Claims.issues c2_30 (tileKey ↑vx_0 ↑vy_0) = true ∧ (c2_30.tile (tileKey ↑vx_0 ↑vy_0)).acts (Claims.words c2_30 (tileKey ↑vx_0 ↑vy_0)) = false ∧
      (c2_30.pasOf ↑vx_0).isSome = true ∧ opOf (Claims.words c2_30 (tileKey ↑vx_0 ↑vy_0)) = 26 ∧ flagAct (Claims.words c2_30 (tileKey ↑vx_0 ↑vy_0)) =
      3) := by decide +kernel
def c2_31 : State := (at_ {} [w0 0x08 1])
def c2_32 : State := (at_ {} [w0 0x20 1])
def c2_33 : State := (at_ {} [w0 0x21 1])
def c2_34 : State := (at_ {badParity := [1]} (imm 0x22 []))
def c2_35 : State := (at_ {beat := 1, prevIssue := some 0} (imm 0x25 []))
def c2_38 : State := { live {} with tiles := [(65, prog {} (imm 0x14 []))] }
def c2_39 : State := (at_ {overlays := [{go := 0, dstSlot := 0, count := 1}]} (imm 0x19 []))
def c2_40 : State := (at_ {} [w0 0x30 1])
theorem witness_IssueFaultsStop_1 :
    (c2_31.live (tileKey ↑vx_0 ↑vy_0) = true ∧ c2_31.issueDue (tileKey ↑vx_0 ↑vy_0) = true ∧ c2_31.issueFault (tileKey ↑vx_0 ↑vy_0) (Claims.words c2_31
      (tileKey ↑vx_0 ↑vy_0)) = some St.SEQ_CONFIG ∧ isLoad (Claims.words c2_31 (tileKey ↑vx_0 ↑vy_0)) = true) ∧
    (c2_32.live (tileKey ↑vx_0 ↑vy_0) = true ∧ c2_32.issueDue (tileKey ↑vx_0 ↑vy_0) = true ∧ c2_32.issueFault (tileKey ↑vx_0 ↑vy_0) (Claims.words c2_32
      (tileKey ↑vx_0 ↑vy_0)) = some St.SEQ_CONFIG ∧ opOf (Claims.words c2_32 (tileKey ↑vx_0 ↑vy_0)) = 32) ∧
    (c2_33.live (tileKey ↑vx_0 ↑vy_0) = true ∧ c2_33.issueDue (tileKey ↑vx_0 ↑vy_0) = true ∧ c2_33.issueFault (tileKey ↑vx_0 ↑vy_0) (Claims.words c2_33
      (tileKey ↑vx_0 ↑vy_0)) = some St.SEQ_CONFIG ∧ opOf (Claims.words c2_33 (tileKey ↑vx_0 ↑vy_0)) = 33) ∧
    (c2_34.live (tileKey ↑vx_0 ↑vy_0) = true ∧ c2_34.issueDue (tileKey ↑vx_0 ↑vy_0) = true ∧ c2_34.issueFault (tileKey ↑vx_0 ↑vy_0) (Claims.words c2_34
      (tileKey ↑vx_0 ↑vy_0)) = some St.SEQ_DESC_PARITY ∧ opOf (Claims.words c2_34 (tileKey ↑vx_0 ↑vy_0)) = 34) ∧
    (c2_35.live (tileKey ↑vx_0 ↑vy_0) = true ∧ c2_35.issueDue (tileKey ↑vx_0 ↑vy_0) = true ∧ c2_35.issueFault (tileKey ↑vx_0 ↑vy_0) (Claims.words c2_35
      (tileKey ↑vx_0 ↑vy_0)) = some St.SEQ_ISSUE_ORDER ∧ opOf (Claims.words c2_35 (tileKey ↑vx_0 ↑vy_0)) = 37) ∧
    (c2_38.live (tileKey ↑vx_1 ↑vy_1) = true ∧ c2_38.issueDue (tileKey ↑vx_1 ↑vy_1) = true ∧ c2_38.issueFault (tileKey ↑vx_1 ↑vy_1) (Claims.words c2_38
      (tileKey ↑vx_1 ↑vy_1)) = some St.SEQ_UNIT_ABSENT ∧ opOf (Claims.words c2_38 (tileKey ↑vx_1 ↑vy_1)) = 20) := by decide +kernel
theorem witness_IssueFaultsStop_2 :
    (c2_39.live (tileKey ↑vx_0 ↑vy_0) = true ∧ c2_39.issueDue (tileKey ↑vx_0 ↑vy_0) = true ∧ c2_39.issueFault (tileKey ↑vx_0 ↑vy_0) (Claims.words c2_39
      (tileKey ↑vx_0 ↑vy_0)) = some St.SEQ_OVERLAY_PENDING ∧ opOf (Claims.words c2_39 (tileKey ↑vx_0 ↑vy_0)) = 25) ∧
    (c2_40.live (tileKey ↑vx_0 ↑vy_0) = true ∧ c2_40.issueDue (tileKey ↑vx_0 ↑vy_0) = true ∧ c2_40.issueFault (tileKey ↑vx_0 ↑vy_0) (Claims.words c2_40
      (tileKey ↑vx_0 ↑vy_0)) = some St.SEQ_OPCODE ∧ opValid (opOf (Claims.words c2_40 (tileKey ↑vx_0 ↑vy_0))) = false ∧ c2_40.mayComplete (tileKey
      ↑vx_0 ↑vy_0) = true) := by decide +kernel

end Immediates

/-! ## LOAD and GO -/

namespace Goes

def recvLoad : List Word := [w0 0x09 1, wd [f 1 42], wd [f 0x3FF 54]]
def moveLoad : List Word := [w0 0x08 1, wd [f 1 42], wd [f 4 54]]
def rec0 (fmt n : Nat) : BitVec 256 := BitVec.ofNat 256 (fmt * 2 ^ 21 + 2 ^ 64 * n)
def sh (ws : List Word) (recs : SMap (BitVec 256)) : Shadow := { opcode := BitVec.ofNat 8 (opOf ws), words := ws, recs := recs }
def unitNo (ws : List Word) : Nat := shadowUnit ws
def goAt (ws : List Word) (recs : SMap (BitVec 256)) : State :=
  live { prog {} [w0 (opOf ws) 2, wd [f (dField ws 1 63 62) 62]] with beat := 9, rho := 9, shadows := [(shadowUnit ws, sh ws recs)] }
def mm : List Word := [w0 1 1, wd [f 1 56, f 64 17, f 1 1], wd [f 1 55, f 0x1F 40], 0, wd [f 0x3FF 54,f 0x3FF 44,f 0x3FF 34,f 0x3FF 24,f 0x3FF 14,f 0x3FF 4], wd [f 0x3FF 54,f 0x3FF 44,f 0x3FF 34]]
def cv : List Word := [w0 2 1, wd [f 1 56, f 64 17, f 1 1], wd [f 1 55, f 0x1F 40], 0, wd [f 0x3FF 54,f 0x3FF 44,f 0x3FF 34,f 0x3FF 24,f 0x3FF 14,f 0x3FF 4], wd [f 0x3FF 54,f 0x3FF 44,f 0x3FF 34], wd [f 64 16, 1]]
def vx (op : Nat) : List Word := [w0 3 1, wd [f op 58], 0, wd [f 4 54, f 4 44, f 4 34, f 4 24, f 0x3FF 14, f 0x3FF 4], wd [f 0x3FF 54]]
def qz (dir : Nat) : List Word := [w0 4 1, wd [f dir 54, f (if dir = 1 then 0x12 else 0x10) 49], 0, wd [f 4 54], 0]
def tk : List Word := [w0 5 1, wd [f 1 34], 0, wd [f 4 54]]
def vrec (fmt : Nat) : SMap (BitVec 256) := [(4, rec0 fmt 64)]
def two (op : Nat) (w1 : Nat) : List Word := [w0 op 1, wd [w1], wd [f 4 54, f 4 44]]

def c3_2 : State := (at_ {} recvLoad)
def c3_3 : State := (at_ {shadows := [(8, {todo := [1]})]} recvLoad)
def c3_4 : State := (live { prog {} moveLoad with store := [(0, w0 0x08 1), (1, wd [f 1 42]), (2, wd [f 4 54]), (17, 64)] })
theorem witness_LoadFillsTheShadow :
    (Claims.issues c3_2 (tileKey ↑vx_0 ↑vy_0) = true ∧ isLoad (Claims.words c3_2 (tileKey ↑vx_0 ↑vy_0)) = true ∧ (c3_2.tile (tileKey ↑vx_0 ↑vy_0)).acts
      (Claims.words c3_2 (tileKey ↑vx_0 ↑vy_0)) = true ∧ (smapGet { } (c3_2.tile (tileKey ↑vx_0 ↑vy_0)).shadows (shadowUnit (Claims.words c3_2
      (tileKey ↑vx_0 ↑vy_0)))).todo = []) ∧
    (Claims.issues c3_3 (tileKey ↑vx_0 ↑vy_0) = true ∧ isLoad (Claims.words c3_3 (tileKey ↑vx_0 ↑vy_0)) = true ∧ (c3_3.tile (tileKey ↑vx_0 ↑vy_0)).acts
      (Claims.words c3_3 (tileKey ↑vx_0 ↑vy_0)) = true ∧ (smapGet { } (c3_3.tile (tileKey ↑vx_0 ↑vy_0)).shadows (shadowUnit (Claims.words c3_3
      (tileKey ↑vx_0 ↑vy_0)))).todo ≠ []) := by decide +kernel
def c3_5 : State := (goAt mm [])
def c3_6 : Shadow := (sh mm [])
def c3_7 : State := (goAt cv [])
def c3_8 : Shadow := (sh cv [])
theorem witness_MatrixGoStarts :
    ((c3_5.tile (tileKey ↑vx_0 ↑vy_0)).mxBusy c3_6 = none ∧ (c3_5.tile (tileKey ↑vx_0 ↑vy_0)).mxFault (Claims.job c3_5 (tileKey ↑vx_0 ↑vy_0) c3_6) = none
      ∧ Claims.goReady c3_5 (tileKey ↑vx_0 ↑vy_0) 1 c3_6 = true) ∧
    ((c3_7.tile (tileKey ↑vx_0 ↑vy_0)).mxBusy c3_8 = none ∧ (c3_7.tile (tileKey ↑vx_0 ↑vy_0)).mxFault (Claims.job c3_7 (tileKey ↑vx_0 ↑vy_0) c3_8) = none
      ∧ Claims.goReady c3_7 (tileKey ↑vx_0 ↑vy_0) 2 c3_8 = true) := by decide +kernel
def c3_55 : State := (goAt (two 8 (f 1 62 + f 1 42)) (vrec 0))
def c3_56 : Shadow := (sh (two 8 (f 1 62 + f 1 42)) (vrec 0))
def c3_57 : State := (goAt (two 9 (f 1 62 + f 1 42)) (vrec 0))
def c3_58 : Shadow := (sh (two 9 (f 1 62 + f 1 42)) (vrec 0))
def c3_59 : State := (goAt (two 12 (0)) (vrec 0))
def c3_60 : Shadow := (sh (two 12 (0)) (vrec 0))
def c3_61 : State := (goAt (two 12 (f 1 63)) (vrec 0))
def c3_62 : Shadow := (sh (two 12 (f 1 63)) (vrec 0))
def c3_63 : State := (goAt (two 13 (0)) (vrec 0))
def c3_64 : Shadow := (sh (two 13 (0)) (vrec 0))
def c3_65 : State := (goAt (two 14 (0)) (vrec 0))
def c3_66 : Shadow := (sh (two 14 (0)) (vrec 0))
def c3_67 : State := (goAt (two 16 (f 1 34)) (vrec 0))
def c3_68 : Shadow := (sh (two 16 (f 1 34)) (vrec 0))
def c3_69 : State := (goAt (two 17 (f 1 34)) (vrec 0))
def c3_70 : Shadow := (sh (two 17 (f 1 34)) (vrec 0))
theorem witness_TransferGoStarts :
    (Claims.goReady c3_55 (tileKey ↑vx_0 ↑vy_0) 8 c3_56 = true ∧ (c3_55.tile (tileKey ↑vx_0 ↑vy_0)).mrBusy c3_56.words 8 = none ∧ c3_55.mrConfig (tileKey
      ↑vx_0 ↑vy_0) (Claims.job c3_55 (tileKey ↑vx_0 ↑vy_0) c3_56) = none) ∧
    (Claims.goReady c3_57 (tileKey ↑vx_0 ↑vy_0) 9 c3_58 = true ∧ (c3_57.tile (tileKey ↑vx_0 ↑vy_0)).mrBusy c3_58.words 9 = none ∧ c3_57.mrConfig (tileKey
      ↑vx_0 ↑vy_0) (Claims.job c3_57 (tileKey ↑vx_0 ↑vy_0) c3_58) = none) ∧
    (Claims.goReady c3_59 (tileKey ↑vx_0 ↑vy_0) 12 c3_60 = true ∧ (c3_59.tile (tileKey ↑vx_0 ↑vy_0)).mvBusy c3_60 = none ∧ (Claims.job c3_59 (tileKey
      ↑vx_0 ↑vy_0) c3_60).mvConfig = none ∧ dBit c3_60.words 1 63 = false) ∧
    (Claims.goReady c3_61 (tileKey ↑vx_0 ↑vy_0) 12 c3_62 = true ∧ (c3_61.tile (tileKey ↑vx_0 ↑vy_0)).mvBusy c3_62 = none ∧ (Claims.job c3_61 (tileKey
      ↑vx_0 ↑vy_0) c3_62).mvConfig = none ∧ dBit c3_62.words 1 63 = true) ∧
    (Claims.goReady c3_63 (tileKey ↑vx_0 ↑vy_0) 13 c3_64 = true ∧ (c3_63.tile (tileKey ↑vx_0 ↑vy_0)).mvBusy c3_64 = none ∧ (Claims.job c3_63 (tileKey
      ↑vx_0 ↑vy_0) c3_64).mvConfig = none) ∧
    (Claims.goReady c3_65 (tileKey ↑vx_0 ↑vy_0) 14 c3_66 = true ∧ (c3_65.tile (tileKey ↑vx_0 ↑vy_0)).mvBusy c3_66 = none ∧ (Claims.job c3_65 (tileKey
      ↑vx_0 ↑vy_0) c3_66).mvConfig = none) ∧
    (Claims.goReady c3_67 (tileKey ↑vx_0 ↑vy_0) 16 c3_68 = true ∧ (c3_67.tile (tileKey ↑vx_0 ↑vy_0)).stkBusy c3_68 = none) ∧
    (Claims.goReady c3_69 (tileKey ↑vx_0 ↑vy_0) 17 c3_70 = true ∧ (c3_69.tile (tileKey ↑vx_0 ↑vy_0)).stkBusy c3_70 = none) := by decide +kernel
theorem witness_VectorGoStarts :
    (∀ oc ∈ Claims.vecops, let j := sh (vx oc.1) (vrec 0x10); let s := goAt (vx oc.1) (vrec 0x10)
      (s.tile 0).vxBusy j = none ∧ (Claims.job s 0 j).vxFault = none ∧ Claims.goReady s 0 0x03 j = true ∧ (vxCfg j.words).op = oc.1) ∧
    (let j := sh (qz 0) (vrec 0x10); let s := goAt (qz 0) (vrec 0x10)
      (s.tile 0).vxBusy j = none ∧ (Claims.job s 0 j).vxFault = none ∧ Claims.goReady s 0 0x04 j = true ∧ (vxCfg j.words).dequant = false) ∧
    (let j := sh (qz 1) (vrec 0x12); let s := goAt (qz 1) (vrec 0x12)
      (s.tile 0).vxBusy j = none ∧ (Claims.job s 0 j).vxFault = none ∧ Claims.goReady s 0 0x04 j = true ∧ (vxCfg j.words).dequant = true) ∧
    (let j := sh tk (vrec 0x10); let s := goAt tk (vrec 0x10)
      (s.tile 0).vxBusy j = none ∧ (Claims.job s 0 j).vxFault = none ∧ Claims.goReady s 0 0x05 j = true) := by decide +kernel
theorem witness_GoWithoutLoadFaults : ∀ op ∈ [1, 2, 3, 4, 5, 8, 9, 12, 13, 14, 16, 17], let s := at_ {} [w0 op 2]
    Claims.issues s 0 = true ∧ actionOf (Claims.words s 0) = 2 ∧ opOf (Claims.words s 0) = op ∧
      smapFind (s.tile 0).shadows (shadowUnit (Claims.words s 0)) = none := by decide +kernel

end Goes

/-! ## Window, fold and flag descriptors -/

namespace Windows

def winWs : List Word := [w0 0x14 2, wd [f 1 57, f 9 44], wd [f 1 44], 0, wd [f 4 44]]
def wpt1 : WptRec := { wpt := 0, boundNs := 100, timeoutUs := 10 }
def withWpt (x : Pasture) : Pasture := { x with program := some { wpts := [wpt1] }, windows := [(0, { win1 with arrivals := 3 })] }
def foldS (t : Tile) : State := { livep (fun x => { x with foldMap := [(0, 0x85)] }) (prog t (imm 0x19 [f 1 54])) with folds := [(5, { valid := true, owner := 0, members := 2 })] }
def g0 : Fold := { members := 2 }

def c4_2 : State := (at_ {} winWs)
def c4_3 : State := (livep (fun x => {x with windows := [(0, win1)]}) (prog {} winWs))
def c4_4 : State := (at_ {} (imm 0x14 [f 1 57]))
def c4_5 : State := (livep (fun x => {x with windows := [(0, win1)], trackers := [{win := 0}, {win := 1}]}) (prog {} (imm 0x15 [])))
def c4_6 : State := (livep withWpt (prog {} (imm 0x18 [3])))
def c4_7 : State := (livep withWpt (prog {} (imm 0x18 [4])))
def c4_8 : State := (at_ {} (imm 0x18 [4]))
theorem witness_WindowDescriptors_1 :
    (c4_2.pasOf ↑vx_0 = some 0 ∧ Claims.acting c4_2 (tileKey ↑vx_0 ↑vy_0) 20 = true ∧ c4_2.winFault 0 ((c4_2.pasture 0).window (dField (Claims.words c4_2
      (tileKey ↑vx_0 ↑vy_0)) 1 63 58)) (openWindow (Claims.words c4_2 (tileKey ↑vx_0 ↑vy_0)) (tileKey ↑vx_0 ↑vy_0)) = none ∧ ((c4_2.pasture 0).window
      (dField (Claims.words c4_2 (tileKey ↑vx_0 ↑vy_0)) 1 63 58)).isOpen = false) ∧
    (c4_3.pasOf ↑vx_0 = some 0 ∧ Claims.acting c4_3 (tileKey ↑vx_0 ↑vy_0) 20 = true ∧ c4_3.winFault 0 ((c4_3.pasture 0).window (dField (Claims.words c4_3
      (tileKey ↑vx_0 ↑vy_0)) 1 63 58)) (openWindow (Claims.words c4_3 (tileKey ↑vx_0 ↑vy_0)) (tileKey ↑vx_0 ↑vy_0)) = none ∧ ((c4_3.pasture 0).window
      (dField (Claims.words c4_3 (tileKey ↑vx_0 ↑vy_0)) 1 63 58)).isOpen = true ∧ ((c4_3.pasture 0).window (dField (Claims.words c4_3 (tileKey ↑vx_0
      ↑vy_0)) 1 63 58)).queue = []) ∧
    (c4_4.pasOf ↑vx_0 = some 0 ∧ Claims.acting c4_4 (tileKey ↑vx_0 ↑vy_0) 20 = true ∧ c4_4.winFault 0 ((c4_4.pasture 0).window (dField (Claims.words c4_4
      (tileKey ↑vx_0 ↑vy_0)) 1 63 58)) (openWindow (Claims.words c4_4 (tileKey ↑vx_0 ↑vy_0)) (tileKey ↑vx_0 ↑vy_0)) = some St.FAB_WIN_RANGE) ∧
    (c4_5.pasOf ↑vx_0 = some 0 ∧ Claims.acting c4_5 (tileKey ↑vx_0 ↑vy_0) 21 = true ∧ ((c4_5.pasture 0).window (dField (Claims.words c4_5 (tileKey ↑vx_0
      ↑vy_0)) 1 63 58)).isOpen = true) ∧
    (c4_6.pasOf ↑vx_0 = some 0 ∧ Claims.acting c4_6 (tileKey ↑vx_0 ↑vy_0) 24 = true ∧ (c4_6.pasture 0).waitFault (Claims.words c4_6 (tileKey ↑vx_0 ↑vy_0))
      = none ∧ BitVec.ofNat 32 (dField (Claims.words c4_6 (tileKey ↑vx_0 ↑vy_0)) 1 31 0) ≤ ((c4_6.pasture 0).window (dField (Claims.words c4_6
      (tileKey ↑vx_0 ↑vy_0)) 1 63 58)).arrivals) ∧
    (c4_7.pasOf ↑vx_0 = some 0 ∧ Claims.acting c4_7 (tileKey ↑vx_0 ↑vy_0) 24 = true ∧ (c4_7.pasture 0).waitFault (Claims.words c4_7 (tileKey ↑vx_0 ↑vy_0))
      = none ∧ (¬BitVec.ofNat 32 (dField (Claims.words c4_7 (tileKey ↑vx_0 ↑vy_0)) 1 31 0) ≤ ((c4_7.pasture 0).window (dField (Claims.words c4_7
      (tileKey ↑vx_0 ↑vy_0)) 1 63 58)).arrivals)) := by decide +kernel
theorem witness_WindowDescriptors_2 :
    c4_8.pasOf ↑vx_0 = some 0 ∧ Claims.acting c4_8 (tileKey ↑vx_0 ↑vy_0) 24 = true ∧ (c4_8.pasture 0).waitFault (Claims.words c4_8 (tileKey ↑vx_0 ↑vy_0))
      = some St.FAB_WIN_NOT_OPEN := by decide +kernel
def c4_9 : State := (foldS { foldMask := 1 })
def c4_10 : State := (foldS { foldMask := 1, foldPend := [{fold := 5},{fold := 5, gen := true}] })
def c4_11 : State := (at_ {} (imm 0x19 [f 1 54]))
def c4_12 : State := (foldS {})
theorem witness_FoldDescriptor :
    (c4_9.pasOf ↑vx_0 = some 0 ∧ Claims.acting c4_9 (tileKey ↑vx_0 ↑vy_0) 25 = true ∧ c4_9.foldOf 0 (foldId (Claims.words c4_9 (tileKey ↑vx_0 ↑vy_0))) =
      some 5 ∧ bitAt (c4_9.tile (tileKey ↑vx_0 ↑vy_0)).foldMask (foldId (Claims.words c4_9 (tileKey ↑vx_0 ↑vy_0))) = true ∧ (c4_9.tile (tileKey ↑vx_0
      ↑vy_0)).pendingFolds 5 < 2) ∧
    (c4_10.pasOf ↑vx_0 = some 0 ∧ Claims.acting c4_10 (tileKey ↑vx_0 ↑vy_0) 25 = true ∧ c4_10.foldOf 0 (foldId (Claims.words c4_10 (tileKey ↑vx_0 ↑vy_0)))
      = some 5 ∧ bitAt (c4_10.tile (tileKey ↑vx_0 ↑vy_0)).foldMask (foldId (Claims.words c4_10 (tileKey ↑vx_0 ↑vy_0))) = true ∧ 2 ≤ (c4_10.tile
      (tileKey ↑vx_0 ↑vy_0)).pendingFolds 5) ∧
    (c4_11.pasOf ↑vx_0 = some 0 ∧ Claims.acting c4_11 (tileKey ↑vx_0 ↑vy_0) 25 = true ∧ c4_11.foldOf 0 (foldId (Claims.words c4_11 (tileKey ↑vx_0 ↑vy_0)))
      = none) ∧
    (c4_12.pasOf ↑vx_0 = some 0 ∧ Claims.acting c4_12 (tileKey ↑vx_0 ↑vy_0) 25 = true ∧ c4_12.foldOf 0 (foldId (Claims.words c4_12 (tileKey ↑vx_0 ↑vy_0)))
      = some 5 ∧ bitAt (c4_12.tile (tileKey ↑vx_0 ↑vy_0)).foldMask (foldId (Claims.words c4_12 (tileKey ↑vx_0 ↑vy_0))) = false) := by decide +kernel
def c4_13 : Tile := {ctrs := [0,0xFFFFFF]}
def c4_14 : List Word := [0, wd [f 1 53, f 1 50]]
def c4_15 : State := (sent (.foldIn 0 5 0 false 1 7) { live {} with folds := [(5, {members := 2, op := some 2})] })
def c4_16 : State := { live {} with folds := [(5, {members := 2, op := some 2})] }
def c4_17 : State := (sent (.foldIn 0 5 0 true 1 7) { live {} with folds := [(5, {members := 2, nextOp := some 2})] })
def c4_18 : State := { live {} with folds := [(5, {members := 2, nextOp := some 2})] }
theorem witness_FoldContributions :
    (dBit c4_14 1 53 = true) ∧
    (c4_15.arrives 0 = some (Packet.foldIn 0 5 0 false 1 7, c4_16) ∧ (false = (c4_16.foldAt 5).gen ∧ (c4_16.foldAt 5).op = some 2 ∨ false ≠ (c4_16.foldAt
      5).gen ∧ (c4_16.foldAt 5).nextOp = some 2) ∧ 2 ≠ 1) := by decide +kernel
def c4_19 : State := (at_ {} (imm 0x1A [f 255 56]))
def c4_20 : State := (at_ {} (imm 0x1A [f 255 56, f 1 54]))
def c4_21 : State := (at_ {} (imm 0x1A [f 255 56, f 2 54]))
def c4_22 : State := (at_ {} (imm 0x1A [f 255 56, f 3 54]))
theorem witness_FlagDescriptors :
    (c4_19.pasOf ↑vx_0 = some 0 ∧ Claims.acting c4_19 (tileKey ↑vx_0 ↑vy_0) 26 = true ∧ dField (Claims.words c4_19 (tileKey ↑vx_0 ↑vy_0)) 1 55 54 = 0) ∧
    (c4_20.pasOf ↑vx_0 = some 0 ∧ Claims.acting c4_20 (tileKey ↑vx_0 ↑vy_0) 26 = true ∧ dField (Claims.words c4_20 (tileKey ↑vx_0 ↑vy_0)) 1 55 54 = 1) ∧
    (c4_21.pasOf ↑vx_0 = some 0 ∧ Claims.acting c4_21 (tileKey ↑vx_0 ↑vy_0) 26 = true ∧ dField (Claims.words c4_21 (tileKey ↑vx_0 ↑vy_0)) 1 55 54 = 2) ∧
    (c4_22.pasOf ↑vx_0 = some 0 ∧ Claims.acting c4_22 (tileKey ↑vx_0 ↑vy_0) 26 = true ∧ dField (Claims.words c4_22 (tileKey ↑vx_0 ↑vy_0)) 1 55 54 = 3) := by decide +kernel

def flagged (b : Bool) (g : Pasture → Pasture) (x : Fabric) : State :=
  { livep (fun x => g { x with flags := if b then BitVec.twoPow 256 255 else 0 }) {} with fabric := x }
def trigger : Fabric := { routeTrigEn := true, routeTrigPas := 0, routeTrigFlag := 255 }
/-- Clear and set flags, with notification, with the rank table's trigger, and with the routing tables', whose swap is refused where a logical
port has members of several peers. -/
theorem witness_FlagNotices :
    ((flagged true id {}).pasture 0).flag 255 = true ∧ ((flagged false id {}).pasture 0).flag 255 = false ∧
    bitAt ((flagged false (fun x => { x with notify := BitVec.twoPow 256 255 }) {}).pasture 0).notify 255 = true ∧
    (let x := (flagged false (fun x => { x with rankTrigEn := true, rankTrigFlag := 255 }) {}).pasture 0;
      (x.rankTrigEn && decide (x.rankTrigFlag.toNat = 255)) = true ∧ x.flag 255 = false) ∧
    (flagged false id trigger).swapBad = false ∧ (flagged false id { trigger with route1 := [(0, 0xA0000000)] }).swapBad = false := by decide +kernel
/-- An entry of the send table: enabled, with an OP, a length, a destination, a balance and whether it sends to a drove. -/
def entry (op len dst bal dv : Nat) : BitVec 256 := BitVec.ofNat 256 (2 ^ 255 + op * 2 ^ 253 + dv * 2 ^ 247 + dst * 2 ^ 232 + len * 2 ^ 72 + bal * 2 ^ 32)
def sender (w : BitVec 256) (g : Pasture → Pasture) : Pasture :=
  g { pas0 with sends := [(5, w)], started := true, rank0 := [(2, 0x80000007)] }
def noRank : Pasture := sender (entry 0 64 3 0 0) id
def isSome (s : State) (r : Nat) : Bool := (s.rankChip 0 r).2.isSome
theorem witness_SendsStart :
    (sendEnabled ((sender 0 id).sendEntry 5) = false ∧ (sender (entry 0 64 2 0 0) fun x => { x with stopped := true }).stopped = true) ∧
    ([entry 3 64 2 0 0, entry 0 0 2 0 0].all fun w => sendEnabled w && (sendOp w = 3 || (sendOp w ≠ 2 && sendLen w = 0))) = true ∧
    (let w := entry 0 64 2 0 0;
      sendEnabled w = true ∧ sendOp w ≠ 3 ∧ sendLen w ≠ 0 ∧ (sender w fun x => { x with started := false }).started = false ∧
      (sender w id).started = true ∧ (sender w id).stopped = false ∧ sendDrove w = false ∧ (sender w id).fenced (BitVec.ofNat 12 (sendDst w)) = false ∧
      isSome { ready with pas := [(0, sender w id)] } (sendDst w) = true ∧ isSome { ready with pas := [(0, noRank)] } 3 = false ∧
      (sender w fun x => { x with fence := [(0, 4)] }).fenced (BitVec.ofNat 12 (sendDst w)) = true) ∧
    (sendOp (entry 1 64 0 0 1) = 1 ∧ sendBalance (entry 1 64 0 0 1) < sendUnits (entry 1 64 0 0 1) ∧ sendDrove (entry 1 64 0 0 1) = true) ∧
    (sendOp (entry 2 0 0 0 1) ≠ 1 ∧ sendDrove (entry 2 0 0 0 1) = true) ∧
    (sendOp (entry 1 64 2 0 0) = 1 ∧ sendBalance (entry 1 64 2 0 0) < sendUnits (entry 1 64 2 0 0)) ∧
    (sendUnits (entry 1 64 2 1 0) ≤ sendBalance (entry 1 64 2 1 0) ∧ smapGet [] (sender (entry 1 64 2 1 0) id).grantTags 5 = []) := by decide +kernel

end Windows

/-! ## Folds and notices that arrive -/

namespace Notices

def fs (x : Fold) : State := { live {} with folds := [(5, x)] }
def k0 : Fold := { valid := true, members := 2 }
def fp (a : BitVec 16) : State := live { foldPend := [{ fold := 5, gen := true, resAddr := a }], holds := [.fold 5 true none] }
def run0 : Run := { runId := 1, stage := .running }
def hs (n : Nat) : State := livep (fun x => {x with runs := [run0], haltCount := n}) {}
def late1 : WinWaiter := { tile := 0, win := 0, wpt := 0, thresh := 4, since := 0 }
def wp (x : Pasture) : Pasture := { x with program := some { wpts := [{ wpt := 0, boundNs := 100, timeoutUs := 10 }] }, windows := [(0, { win1 with arrivals := 3 })], winWaiters := [late1] }

def c5_0 : State := (sent (.foldIn 0 5 0 false 1 7) (fs k0))
def c5_1 : State := (fs k0)
def c5_2 : Fold := { k0 with op := some 1, acc := 7, arrived := 1 }
def c5_3 : FoldPending := {}
def c5_4 : State := (sent (.foldIn 0 5 0 false 1 7) (fs {k0 with arrived := 1, op := some 1, acc := 3}))
def c5_5 : State := (fs {k0 with arrived := 1, op := some 1, acc := 3})
def c5_6 : Fold := { k0 with op := some 1, acc := 3, arrived := 2 }
def c5_7 : State := (sent (.foldIn 0 5 0 false 1 7) (fs {k0 with op := some 2}))
def c5_8 : State := (fs {k0 with op := some 2})
def c5_9 : Fold := {}
def c5_10 : State := (sent (.foldOut 0 5 0 true 7) (fp 0xFFFF))
def c5_11 : State := (fp 0xFFFF)
def c5_12 : FoldPending := { fold := 5, gen := true, resAddr := 0xFFFF }
def c5_13 : State := (sent (.foldOut 0 5 0 true 7) (fp 0x40))
def c5_14 : State := (fp 0x40)
def c5_15 : FoldPending := { fold := 5, gen := true, resAddr := 0x40 }
def c5_39 : State := (sent (.foldOut 0 5 0 true 7) (live { foldPend := [{ fold := 5, gen := true, resAddr := 0x40 }], holds := [.fold 5 true none], sideUse := [(0, (0, 10^15))] }))
def c5_40 : State := (live { foldPend := [{ fold := 5, gen := true, resAddr := 0x40 }], holds := [.fold 5 true none], sideUse := [(0, (0, 10^15))] })
theorem witness_FoldArrivals :
    (c5_0.arrives 0 = some (Packet.foldIn 0 5 0 false 1 7, c5_1) ∧ (c5_1.foldAt 5).take false 1 7 = some c5_2 ∧ c5_2.arrived < c5_2.members) ∧
    (c5_4.arrives 0 = some (Packet.foldIn 0 5 0 false 1 7, c5_5) ∧ (c5_5.foldAt 5).take false 1 7 = some c5_6 ∧ c5_6.members ≤ c5_6.arrived) ∧
    (c5_7.arrives 0 = some (Packet.foldIn 0 5 0 false 1 7, c5_8) ∧ (c5_8.foldAt 5).take false 1 7 = none) ∧
    (c5_10.arrives 0 = some (Packet.foldOut 0 5 0 true 7, c5_11) ∧ (List.find? (fun x => decide (x.fold = 5) && decide (x.gen = true)) (c5_11.tile
      0).foldPend = some c5_12) ∧ c5_12.resAddr = 65535) ∧
    (c5_13.arrives 0 = some (Packet.foldOut 0 5 0 true 7, c5_14) ∧ (List.find? (fun x => decide (x.fold = 5) && decide (x.gen = true)) (c5_14.tile
      0).foldPend = some c5_15) ∧ c5_15.resAddr ≠ 65535 ∧ c5_14.rangeWaits 0 View.service c5_15.resAddr.toNat 4 = false) ∧
    (c5_39.arrives 0 = some (Packet.foldOut 0 5 0 true 7, c5_40) ∧ (List.find? (fun x => decide (x.fold = 5) && decide (x.gen = true)) (c5_40.tile
      0).foldPend = some c5_15) ∧ c5_15.resAddr ≠ 65535 ∧ c5_40.rangeWaits 0 View.service c5_15.resAddr.toNat 4 = true) := by decide +kernel
def c5_16 : Option ℕ := (some 0)
def c5_17 : State := (sent (.flag 0 255 true (some 0)) (live {}))
def c5_18 : State := (live {})
def c5_19 : Option ℕ := none
def c5_20 : State := (sent (.flagWait 0 0 255 false) (live {}))
def c5_21 : State := (sent (.flagWait 0 0 255 true) (live {}))
def c5_22 : State := (sent (.flagRelease 0 0 255) (live {holds := [.flag 255 true]}))
def c5_23 : State := (live {holds := [.flag 255 true]})
def c5_24 : State := (sent (.winWait 0 0 0 0 3 5) (livep wp {}))
def c5_25 : State := (livep wp {})
def c5_26 : State := (sent (.winWait 0 0 0 0 4 5) (livep wp {}))
def c5_27 : State := (sent (.winRelease 0 0 0) (live {holds := [.wait 0]}))
def c5_28 : State := (live {holds := [.wait 0]})
def c5_29 : State := (sent (.halt 0 0 9) (hs 0))
def c5_30 : State := (hs 0)
def c5_31 : State := (sent (.halt 0 0 9) (hs 79))
def c5_32 : State := (hs 79)
theorem witness_NoticesAtTheBellwether :
    (c5_17.arrives 0 = some (Packet.flag 0 255 true c5_16, c5_18)) ∧
    (c5_20.arrives 0 = some (Packet.flagWait 0 0 255 false, c5_18) ∧ (c5_18.pasture 0).flag 255 = false) ∧
    (c5_21.arrives 0 = some (Packet.flagWait 0 0 255 true, c5_18) ∧ (c5_18.pasture 0).flag 255 ≠ true) ∧
    (c5_22.arrives 0 = some (Packet.flagRelease 0 0 255, c5_23) ∧ (c5_23.tile 0).holds = [Hold.flag 255 true]) ∧
    (c5_24.arrives 0 = some (Packet.winWait 0 0 0 0 3 5, c5_25) ∧ 3 ≤ ((c5_25.pasture 0).window 0).arrivals) ∧
    (c5_26.arrives 0 = some (Packet.winWait 0 0 0 0 4 5, c5_25) ∧ (¬4 ≤ ((c5_25.pasture 0).window 0).arrivals)) ∧
    (c5_27.arrives 0 = some (Packet.winRelease 0 0 0, c5_28)) ∧
    (c5_29.arrives 0 = some (Packet.halt 0 0 9, c5_30) ∧ (c5_30.pasture 0).running = true ∧ (c5_30.pasture 0).haltCount + 1 < (c5_30.tilesOf 0).length) ∧
    (c5_31.arrives 0 = some (Packet.halt 0 0 9, c5_32) ∧ (c5_32.pasture 0).running = true ∧ (c5_32.tilesOf 0).length ≤ (c5_32.pasture 0).haltCount + 1) := by decide +kernel
def c5_38 : WptRec := { wpt := 0, boundNs := 100, timeoutUs := 10 }
theorem witness_HostFlagsAndWaypoints :
    (c5_18.mayWrite ↑fn_0 ↑pas_0 = true) ∧
    ((c5_25.pasture ↑pas_0).waiterOf (tileKey ↑vx_0 ↑vy_0) = some late1 ∧ (c5_25.pasture ↑pas_0).wpt late1.wpt = some c5_38 ∧ late1.late = false ∧
      c5_38.boundNs * nsT ≤ c5_25.now - late1.since ∧ (c5_25.pasture ↑pas_0).beating = true ∧ c5_38.timeoutUs * usT ≤ c5_25.now - late1.since) := by decide +kernel

/-- A result across two lines: its first piece, the rest once the first line is written, and one that a write-protect range bars. -/
def two : FoldPending := { fold := 5, gen := true, resAddr := 0x3E }
def fp2 (t : Tile) (e : FoldPending) : State := live { t with foldPend := [e], holds := [.fold 5 true none] }
def noBar (s : State) (e : FoldPending) : Bool := (s.barredPiece 0 .service e.piece.1 (4 - e.wrote)).isNone
theorem witness_FoldArrivals_lines :
    (∀ e ∈ [two, { two with wrote := 2 }, c5_15], let s := sent (.foldOut 0 5 0 true 7) (fp2 {} e);
      (s.arrives 0).map (·.1) = some (.foldOut 0 5 0 true 7) ∧ e.resAddr ≠ 0xFFFF ∧ (fp2 {} e).rangeWaits 0 .service e.piece.1 e.piece.2 = false ∧
        noBar s e = true) ∧
    two.piece.2 < 4 - two.wrote ∧ ({ two with wrote := 2 } : FoldPending).piece.2 = 4 - 2 ∧ c5_15.piece.2 = 4 - c5_15.wrote ∧
    noBar (fp2 { wp := [{ enable := true, base := 0, limit := 0x7FFF }] } two) two = false := by decide +kernel

end Notices

/-! ## The control network -/

namespace Engine

def on (t : Tile) : Tile := { t with fwRunning := true }
def rq : Request := { src := .fn 0, vx := 0, vy := 0, chan := 7, handler := 3, slot := 5, payload := [1, 2, 3, 4] }
def mk (t : Tile) : State := live (on t)
def full16 : Tile := { chans := [(7, { queue := List.replicate 16 rq })] }
def rgr : Request := { reg := true, src := .fn 0, payload := [0, 0, 0, 0, 0, 0, 0, 0] ++ List.replicate 8 0 }
def rgw : Request := { reg := true, src := .fn 0, payload := [0x10, 0, 0, 0, 1, 0, 0, 0, 7] ++ List.replicate 7 0 }
def rgn : Request := { reg := true, src := .fn 0, payload := [0xF8, 0xFF, 0, 0, 0, 0, 0, 0] ++ List.replicate 8 0 }
def act (op : Nat) (n ad : Nat) : Tile := { fwRunning := true, handler := some { req := { rq with payload := [0x40, 0, 3, 4, 5, 6, 7, 8, 9, 10, 11, 12, 13, 14, 15, 16] } }, handlers := [(12, BitVec.ofNat 32 (op * 2 ^ 28 + n * 2 ^ 16 + ad))] }
def hr : HandlerRun := { req := { rq with payload := [0x40, 0, 3, 4, 5, 6, 7, 8, 9, 10, 11, 12, 13, 14, 15, 16] } }
def okS (s : State) : SideResult → Bool | .ok _ => true | _ => false
def side (s : State) (o n : Nat) (w : Option (List Byte)) : State × List Byte := match s.waitedAccess 0 .service o n w with | (s, some (.ok g)) => (s, g) | (s, _) => (s, [])
def st0 (op n ad : Nat) : State := live (act op n ad)
def old (s : State) (o : Nat) : BitVec 32 := BitVec.ofNat 32 (ofBytes ((s.tile 0).bytes 0 (serviceAddr o) 4))
def wr : State × List Byte := side (st0 1 4 0x100) 0x100 4 (some (writeData (BitVec.ofNat 32 (1 * 2 ^ 28 + 4 * 2 ^ 16 + 0x100)) hr.req.payload))
def rp : State × List Byte := side (st0 6 4 0x100) 0x100 4 none
def ad : State × List Byte := side (st0 2 4 0x100) 0x100 4 (some (bytesOf 4 (old (st0 2 4 0x100) 0x100 + BitVec.ofNat 32 (leAt hr.req.payload (actDoff (BitVec.ofNat 32 (2 * 2 ^ 28 + 4 * 2 ^ 16 + 0x100))) 4)).toNat))
def bp : State × List Byte := side (st0 3 4 0x100) 0x100 4 (some (bytesOf 4 (satInc (old (st0 3 4 0x100) 0x100)).toNat))
def noslots (t : Tile) : Tile := { t with slots := (List.range 8).map fun n => (BitVec.ofNat 6 n, rq) }
def hm : HostMsg := { slot := 5, req := rq }
def fnS (m : HostMsg) : State := { live {} with fns := [(0, { msgs := [m] })] }
def rt : Request := { rq with src := .tile 0 0 }
def bl : Blocked := { req := rt, since := 0 }

def c6_0 : State := (sent (.request rq) (mk {openMask := 0x7F}))
def c6_1 : State := (mk {openMask := 0x7F})
def c6_2 : State := (sent (.request rq) (mk {}))
def c6_3 : State := (mk {})
def c6_4 : State := (sent (.request rq) (mk { chans := [(7, {queue := List.replicate 15 rq, reserved := [rq]})] }))
def c6_5 : State := (mk { chans := [(7, {queue := List.replicate 15 rq, reserved := [rq]})] })
def c6_6 : State := (sent (.request rq) (mk full16))
def c6_7 : State := (mk full16)
theorem witness_MessageArrives :
    (c6_0.arrives 0 = some (Packet.request rq, c6_1) ∧ rq.reg = false ∧ c6_1.requestNak rq = some (St.CNW_CHANNEL_CLOSED, true) ∧ ((c6_1.tile (tileKey
      rq.vx rq.vy)).chan rq.chan.toNat).reserved.contains rq = false) ∧
    (c6_2.arrives 0 = some (Packet.request rq, c6_3) ∧ rq.reg = false ∧ c6_3.requestNak rq = none ∧ ((c6_3.tile (tileKey rq.vx rq.vy)).chan
      rq.chan.toNat).reserved = [] ∧ ((c6_3.tile (tileKey rq.vx rq.vy)).chan rq.chan.toNat).queue.length < 16) ∧
    (c6_4.arrives 0 = some (Packet.request rq, c6_5) ∧ rq.reg = false ∧ c6_5.requestNak rq = none ∧ ((c6_5.tile (tileKey rq.vx rq.vy)).chan
      rq.chan.toNat).reserved.contains rq = true) ∧
    (c6_6.arrives 0 = some (Packet.request rq, c6_7) ∧ rq.reg = false ∧ c6_7.requestNak rq = none ∧ ((c6_7.tile (tileKey rq.vx rq.vy)).chan
      rq.chan.toNat).reserved.contains rq = false ∧ 16 ≤ ((c6_7.tile (tileKey rq.vx rq.vy)).chan rq.chan.toNat).queue.length + ((c6_7.tile (tileKey
      rq.vx rq.vy)).chan rq.chan.toNat).reserved.length) := by decide +kernel
def c6_8 : Request := { rq with vx := 64 }
def c6_9 : State := { mk {} with west := {} }
def c6_10 : Request := { rq with src := .fn 3 }
def c6_11 : State := (live {})
theorem witness_RequestRefusals :
    (c6_3.offGrid c6_8.vx c6_8.vy = true) ∧
    (c6_9.offGrid rq.vx rq.vy = false ∧ c6_9.parked (c6_9.halfOf rq.vx) = true) ∧
    (c6_3.offGrid c6_10.vx c6_10.vy = false ∧ c6_3.parked (c6_3.halfOf c6_10.vx) = false ∧ c6_3.permitted c6_10 = false) ∧
    (c6_1.offGrid rq.vx rq.vy = false ∧ c6_1.parked (c6_1.halfOf rq.vx) = false ∧ c6_1.permitted rq = true ∧ rq.reg = false ∧ (c6_1.tile (tileKey rq.vx
      rq.vy)).engineOff = false ∧ bitAt (c6_1.tile (tileKey rq.vx rq.vy)).openMask rq.chan.toNat = false) := by decide +kernel
def c6_12 : State := (sent (.request rgr) (mk {}))
def c6_13 : State := (sent (.request rgw) (mk {}))
def c6_14 : State := (sent (.request rgn) (mk {}))
theorem witness_RegisterAccesses :
    (c6_12.arrives 0 = some (Packet.request rgr, c6_3) ∧ rgr.reg = true ∧ c6_3.requestNak rgr = none ∧ bitAt (byteAt rgr.payload 4) 0 = false ∧
      c6_3.tileRead (tileKey rgr.vx rgr.vy) (leAt rgr.payload 0 4) = some 0) ∧
    (c6_13.arrives 0 = some (Packet.request rgw, c6_3) ∧ rgw.reg = true ∧ c6_3.requestNak rgw = none ∧ bitAt (byteAt rgw.payload 4) 0 = true ∧
      c6_3.tileRead (tileKey rgw.vx rgw.vy) (leAt rgw.payload 0 4) = some 0 ∧ 7 = BitVec.ofNat 64 (leAt rgw.payload 8 8)) ∧
    (c6_14.arrives 0 = some (Packet.request rgn, c6_3) ∧ rgn.reg = true ∧ c6_3.requestNak rgn = none ∧ bitAt (byteAt rgn.payload 4) 0 = false ∧
      c6_3.tileRead (tileKey rgn.vx rgn.vy) (leAt rgn.payload 0 4) = none) ∧
    (c6_3.offGrid ↑vx_0 ↑vy_0 = false ∧ c6_3.parked (c6_3.halfOf ↑vx_0) = false ∧ c6_3.tileRead (tileKey ↑vx_0 ↑vy_0) (0 / 8 * 8) = some 0) := by decide +kernel
def c6_17 : State := (mk {chans := [(7, {queue := [rq, rq]})]})
def c6_18 : List Request := [rq]
theorem witness_HandlerDispatches :
    c6_17.engineFree (tileKey ↑vx_0 ↑vy_0) = true ∧ (c6_17.tile (tileKey ↑vx_0 ↑vy_0)).handler = none ∧ (c6_17.tile (tileKey ↑vx_0 ↑vy_0)).nextChan = some
      7 ∧ ((c6_17.tile (tileKey ↑vx_0 ↑vy_0)).chan 7).queue = rq :: c6_18 := by decide +kernel
def c6_19 : State := (live { act 1 4 0x100 with handler := some { hr with action := 4 } })
def c6_20 : HandlerRun := { hr with action := 4 }
def c6_21 : List Byte := []
def c6_22 : State := (live { act 1 4 0x100 with handler := some { hr with action := 3 } })
def c6_23 : HandlerRun := { hr with action := 3 }
def c6_24 : State := (st0 0 4 0x100)
def c6_25 : State := (st0 8 4 0x100)
def c6_26 : State := (st0 1 4 0x100)
def c6_27 : State := wr.1
def c6_28 : List Byte := wr.2
def c6_29 : State := (st0 6 4 0x100)
def c6_30 : State := rp.1
def c6_31 : List Byte := rp.2
def c6_32 : State := (st0 2 4 0x100)
def c6_33 : State := ad.1
def c6_34 : List Byte := ad.2
def c6_35 : State := (st0 3 4 0x100)
def c6_36 : State := bp.1
def c6_37 : List Byte := bp.2
def c6_38 : State := (st0 2 4 0x102)
def c6_39 : State := (st0 4 4 0x102)
def c6_40 : State := (st0 5 4 0x102)
def c6_41 : State := (st0 7 4 0x102)
def c6_42 : State := (live (noslots (act 7 4 0x102)))
theorem witness_HandlerActions_1 :
    ((c6_19.tile (tileKey ↑vx_0 ↑vy_0)).handler = some c6_20 ∧ c6_19.engineFree (tileKey ↑vx_0 ↑vy_0) = true ∧ 4 ≤ c6_20.action) ∧
    ((c6_22.tile (tileKey ↑vx_0 ↑vy_0)).handler = some c6_23 ∧ c6_22.engineFree (tileKey ↑vx_0 ↑vy_0) = true ∧ c6_23.action < 4 ∧ actOp ((c6_22.tile
      (tileKey ↑vx_0 ↑vy_0)).action c6_23.req.handler.toNat c6_23.action) = 0 ∧ c6_23.action ≠ 0) ∧
    ((c6_24.tile (tileKey ↑vx_0 ↑vy_0)).handler = some hr ∧ c6_24.engineFree (tileKey ↑vx_0 ↑vy_0) = true ∧ hr.action = 0 ∧ actOp ((c6_24.tile (tileKey
      ↑vx_0 ↑vy_0)).action hr.req.handler.toNat hr.action) = 0) ∧
    ((c6_25.tile (tileKey ↑vx_0 ↑vy_0)).handler = some hr ∧ c6_25.engineFree (tileKey ↑vx_0 ↑vy_0) = true ∧ hr.action < 4 ∧ 8 ≤ actOp ((c6_25.tile
      (tileKey ↑vx_0 ↑vy_0)).action hr.req.handler.toNat hr.action)) ∧
    (Claims.atAction c6_26 (tileKey ↑vx_0 ↑vy_0) 1 hr = true ∧ hr.pos = 0 ∧ linePieces 64 (actAddr ((c6_26.tile (tileKey ↑vx_0 ↑vy_0)).action
      hr.req.handler.toNat hr.action) hr.req.payload) (writeData ((c6_26.tile (tileKey ↑vx_0 ↑vy_0)).action hr.req.handler.toNat hr.action)
      hr.req.payload).length = [(actAddr ((c6_26.tile (tileKey ↑vx_0 ↑vy_0)).action hr.req.handler.toNat hr.action) hr.req.payload, (writeData
      ((c6_26.tile (tileKey ↑vx_0 ↑vy_0)).action hr.req.handler.toNat hr.action) hr.req.payload).length)] ∧ c6_26.waitedAccess (tileKey ↑vx_0 ↑vy_0)
      View.service (actAddr ((c6_26.tile (tileKey ↑vx_0 ↑vy_0)).action hr.req.handler.toNat hr.action) hr.req.payload) (writeData ((c6_26.tile
      (tileKey ↑vx_0 ↑vy_0)).action hr.req.handler.toNat hr.action) hr.req.payload).length (some (writeData ((c6_26.tile (tileKey ↑vx_0 ↑vy_0)).action
      hr.req.handler.toNat hr.action) hr.req.payload)) = (c6_27, some (SideResult.ok c6_28))) := by decide +kernel
theorem witness_HandlerActions_2 :
    (Claims.atAction c6_29 (tileKey ↑vx_0 ↑vy_0) 6 hr = true ∧ hr.pos = 0 ∧ hr.got = [] ∧ actN ((c6_29.tile (tileKey ↑vx_0 ↑vy_0)).action
      hr.req.handler.toNat hr.action) ≤ 32 ∧ linePieces 64 (actAddr ((c6_29.tile (tileKey ↑vx_0 ↑vy_0)).action hr.req.handler.toNat hr.action)
      hr.req.payload) (actN ((c6_29.tile (tileKey ↑vx_0 ↑vy_0)).action hr.req.handler.toNat hr.action)) = [(actAddr ((c6_29.tile (tileKey ↑vx_0
      ↑vy_0)).action hr.req.handler.toNat hr.action) hr.req.payload, actN ((c6_29.tile (tileKey ↑vx_0 ↑vy_0)).action hr.req.handler.toNat hr.action))]
      ∧ c6_29.waitedAccess (tileKey ↑vx_0 ↑vy_0) View.service (actAddr ((c6_29.tile (tileKey ↑vx_0 ↑vy_0)).action hr.req.handler.toNat hr.action)
      hr.req.payload) (actN ((c6_29.tile (tileKey ↑vx_0 ↑vy_0)).action hr.req.handler.toNat hr.action)) none = (c6_30, some (SideResult.ok c6_31))) ∧
    (Claims.atAction c6_32 (tileKey ↑vx_0 ↑vy_0) 2 hr = true ∧ actAddr ((c6_32.tile (tileKey ↑vx_0 ↑vy_0)).action hr.req.handler.toNat hr.action)
      hr.req.payload % 4 = 0 ∧ c6_32.waitedAccess (tileKey ↑vx_0 ↑vy_0) View.service (actAddr ((c6_32.tile (tileKey ↑vx_0 ↑vy_0)).action
      hr.req.handler.toNat hr.action) hr.req.payload) 4 (some (bytesOf 4 (BitVec.ofNat 32 (ofBytes ((c6_32.tile (tileKey ↑vx_0 ↑vy_0)).bytes 0
      (↑(serviceAddr (actAddr ((c6_32.tile (tileKey ↑vx_0 ↑vy_0)).action hr.req.handler.toNat hr.action) hr.req.payload))) 4)) + BitVec.ofNat 32 (leAt
      hr.req.payload (actDoff ((c6_32.tile (tileKey ↑vx_0 ↑vy_0)).action hr.req.handler.toNat hr.action)) 4)).toNat)) = (c6_33, some (SideResult.ok
      c6_34))) ∧
    (Claims.atAction c6_35 (tileKey ↑vx_0 ↑vy_0) 3 hr = true ∧ actAddr ((c6_35.tile (tileKey ↑vx_0 ↑vy_0)).action hr.req.handler.toNat hr.action)
      hr.req.payload % 4 = 0 ∧ c6_35.waitedAccess (tileKey ↑vx_0 ↑vy_0) View.service (actAddr ((c6_35.tile (tileKey ↑vx_0 ↑vy_0)).action
      hr.req.handler.toNat hr.action) hr.req.payload) 4 (some (bytesOf 4 (satInc (BitVec.ofNat 32 (ofBytes ((c6_35.tile (tileKey ↑vx_0 ↑vy_0)).bytes 0
      (↑(serviceAddr (actAddr ((c6_35.tile (tileKey ↑vx_0 ↑vy_0)).action hr.req.handler.toNat hr.action) hr.req.payload))) 4)))).toNat)) = (c6_36,
      some (SideResult.ok c6_37))) ∧
    (Claims.atAction c6_38 (tileKey ↑vx_0 ↑vy_0) 2 hr = true ∧ actAddr ((c6_38.tile (tileKey ↑vx_0 ↑vy_0)).action hr.req.handler.toNat hr.action)
      hr.req.payload % 4 ≠ 0) ∧
    (Claims.atAction c6_39 (tileKey ↑vx_0 ↑vy_0) 4 hr = true ∧ c6_39.pasOf ↑vx_0 = some 0) ∧
    (Claims.atAction c6_40 (tileKey ↑vx_0 ↑vy_0) 5 hr = true ∧ c6_40.pasOf ↑vx_0 = some 0) ∧
    (Claims.atAction c6_41 (tileKey ↑vx_0 ↑vy_0) 7 hr = true ∧ (c6_41.tile (tileKey ↑vx_0 ↑vy_0)).freeSlotNo = some 0) ∧
    (Claims.atAction c6_42 (tileKey ↑vx_0 ↑vy_0) 7 hr = true ∧ (c6_42.tile (tileKey ↑vx_0 ↑vy_0)).freeSlotNo = none) := by decide +kernel
def c6_44 : List Byte := [1]
def c6_45 : State := (sent (.reply 0 (.tile 0 0) 7 5 St.OK [1]) (mk {slots := [(5, rq)]}))
def c6_46 : State := (mk {slots := [(5, rq)]})
def c6_47 : State := (sent (.reply 0 (.tile 0 0) 7 5 St.CNW_ACTION_ALIGN [1]) (mk {slots := [(5, rq)]}))
def c6_48 : State := (sent (.reply 0 (.fn 0) 7 5 0 [1]) (fnS hm))
def c6_49 : State := (fnS hm)
def c6_50 : State := (sent (.nak 0 (.tile 0 0) 7 5 9) (mk {slots := [(5, rq)]}))
def c6_51 : State := (sent (.nak 0 (.fn 0) 7 5 9) (fnS hm))
def c6_52 : State := (sent (.full (.tile 0 0) rt) (mk {slots := [(5, rt)]}))
def c6_53 : State := (mk {slots := [(5, rt)]})
def c6_54 : State := (sent (.full (.fn 0) rq) (fnS hm))
def c6_55 : State := (sent (.space (.tile 0 0) rt) (mk {slots := [(5, rt)], blocked := [bl]}))
def c6_56 : State := (mk {slots := [(5, rt)], blocked := [bl]})
def c6_57 : HostMsg := {hm with blocked := some 0}
def c6_58 : State := (sent (.space (.fn 0) rq) (fnS {hm with blocked := some 0}))
def c6_59 : State := (fnS {hm with blocked := some 0})
theorem witness_SendersHear :
    (c6_45.arrives 0 = some (Packet.reply 0 (Sender.tile vx_0 vy_0) 7 5 St.OK c6_44, c6_46)) ∧
    (c6_47.arrives 0 = some (Packet.reply 0 (Sender.tile vx_0 vy_0) 7 5 St.CNW_ACTION_ALIGN c6_44, c6_46) ∧ St.CNW_ACTION_ALIGN ≠ St.OK) ∧
    (c6_48.arrives 0 = some (Packet.reply 0 (Sender.fn fn_0) 7 5 0 c6_44, c6_49) ∧ ((c6_49.func ↑fn_0).msgAt 5 = some hm)) ∧
    (c6_50.arrives 0 = some (Packet.nak 0 (Sender.tile vx_0 vy_0) 7 5 9, c6_46)) ∧
    (c6_51.arrives 0 = some (Packet.nak 0 (Sender.fn fn_0) 7 5 9, c6_49) ∧ ((c6_49.func ↑fn_0).msgAt 5 = some hm)) ∧
    (c6_52.arrives 0 = some (Packet.full (Sender.tile vx_0 vy_0) rt, c6_53)) ∧
    (c6_54.arrives 0 = some (Packet.full (Sender.fn fn_0) rq, c6_49)) ∧
    (c6_55.arrives 0 = some (Packet.space (Sender.tile vx_0 vy_0) rt, c6_56) ∧ (((c6_55.tile (tileKey ↑vx_0 ↑vy_0)).blocked.any fun b => decide (b.req =
      rt)) = true)) ∧
    (c6_58.arrives 0 = some (Packet.space (Sender.fn fn_0) rq, c6_59) ∧ ((c6_58.func ↑fn_0).msgAt rq.slot = some c6_57) ∧ c6_57.blocked.isSome = true ∧
      c6_57.req = rq) := by decide +kernel
theorem witness_ControlNetworkUpkeep :
    (c6_56.pasOf ↑vx_0 = some 0 ∧ (c6_56.tile (tileKey ↑vx_0 ↑vy_0)).blocked = [bl] ∧ bl.raised = false ∧ (c6_56.pasture 0).sendWd.toNat * usT ≤ c6_56.now
      - bl.since ∧ c6_56.reachable (tileKey ↑vx_0 ↑vy_0) = true ∧ (c6_56.tile (tileKey ↑vx_0 ↑vy_0)).handler = none ∧ (c6_56.tile (tileKey ↑vx_0
      ↑vy_0)).linkOut.contains Dir.east = false ∧ ↑fin_40 < 3) ∧
    (((c6_59.func ↑fn_0).msgs = [c6_57]) ∧ c6_57.raised = false ∧ c6_57.blocked = some 0 ∧ (c6_59.pasture c6_57.pas).sendWd.toNat * usT ≤ c6_59.now - 0) ∧
    (c6_7.reachable (tileKey ↑vx_0 ↑vy_0) = true ∧ (c6_7.tile (tileKey ↑vx_0 ↑vy_0)).linkOut.contains Dir.east = false ∧ ↑fin_43 = 3) := by decide +kernel

def still : State := mk { fwRunning := false }
theorem witness_RequestRefusals_engine : c6_11.offGrid rq.vx rq.vy = false ∧ c6_11.parked (c6_11.halfOf rq.vx) = false ∧ c6_11.permitted rq = true ∧
    rq.reg = false ∧ (c6_11.tile (tileKey rq.vx rq.vy)).engineOff = true ∧ c6_3.requestNak rq = none := by decide +kernel
/-- A link out of use on the way down column 0, and one that only the way back uses. -/
def cut (d : Dir) : State := { ready with pas := [(0, pas0)], tiles := [(tileKey 0 5, { linkOut := [d] })] }
theorem witness_RegisterAccesses_window :
    (c6_3.hostCutOff 0 false = false ∧ c6_3.hostCutOff 0 true = false) ∧
    (cut .north).hostCutOff 0 false = true ∧ (cut .south).hostCutOff 0 false = false ∧ (cut .south).hostCutOff 0 true = true ∧
    (cut .south).offGrid 0 0 = false ∧ (cut .south).parked ((cut .south).halfOf 0) = false ∧ (cut .south).tileRead 0 0 = some 0 ∧ (cut .north).tileRead 0 0 = some 0 := by decide +kernel
theorem witness_ControlNetworkUpkeep_cancel :
    (c6_56.hostCutOff 0 false = false ∧ (mk { slots := [(5, rt)], blocked := [bl], handler := some { hr with sent := [5] } }).reachable 0 = true ∧
      ({ hr with sent := [5] } : HandlerRun).sent.contains bl.req.slot = true ∧ hr.sent.contains bl.req.slot = false) ∧ c6_7.hostCutOff 0 false = false := by
  decide +kernel

end Engine

/-! ## Stacks, power and halves -/

namespace Stacks

def own1 (o : GroupOwn) : State := { live {} with stks := [(0, { own := [o, {}, {}, {}, {}, {}, {}, {}] })] }
def o0 : GroupOwn := { valid := true, pas := 1 }
def quiet (s : State) : State := { s with pas := [] }
def upp : State := { own1 { valid := true, pas := 0 } with pas := [(0, { pas0 with log := 8192, watchSeen := 2 })] }
def cmd0 : BurstCmd := { tile := 0, write := true, group := 3, off := 64, old := [1] }
def cw : State := { live {} with cmds := [cmd0] }
def ld (a : Arrival) : Landing := { due := 0, addr := 1792, arrival := a, stack := 2 }
def sw (t : Tile) : State := live { t with beat := 64, scrubPos := [(0, 1023)], scrubWin := [(1,1)] }
def hotS (t : Int) : State := { own1 { valid := true, pas := 0 } with power := ready.power }
def rd0 : InputReading := { vin := 48000, iin := 1000, pin := 600 }
def rdBig : InputReading := { vin := 48000, iin := 1000, pin := 65535 }
def dark : State := {}
def openF : State := { dark with now := 10 ^ 15, power := { eFuseOpen := true, tripTime := 0 } }
def bf : BistFailure := { isPort := false, px := 2, py := 0, inconclusive := false, test := 1 }
def fv0 : FirmwareVerdict := { first := [], again := [] }
def o1 : State := { quiet (own1 { valid := true, pas := 1 }) with ownAuto := false }
def noPas : State := { ready with tiles := [(0, { ceCount := 3 }), (40, { ceCount := 4 })] }
def puW : State := {noPas with west := {state := .poweringUp, vcore := 600}}
def puE : State := {noPas with east := {state := .poweringUp, vcore := 600}}

def sextantTemps (s : State) (n : Fin 64) (period temp : BitVec 16) : List (BitVec 16) :=
  let seen : State := { s with power := { s.power with
    sxtTemp := smapPut s.power.sxtTemp n temp, sxtPeriod := smapPut s.power.sxtPeriod n period } }
  (sextantsOf (sextantHalf n)).filterMap fun i => smapFind seen.power.sxtTemp i
def c7_3 : State := { quiet (own1 {}) with ownAuto := false }
def c7_4 : State := { own1 { valid := true, pas := 0 } with ownAuto := false }
def c7_6 : State := (own1 {})
def c7_7 : State := { own1 { valid := true, pas := 0, clearing := true } with ownAuto := false }
def c7_8 : State := { own1 { valid := true, pas := 0, xfer := true } with xfers := [{ pas := 0, pages := 1 }] }
def c7_9 : State := { ready with ownAuto := false}
def c7_10 : State := { own1 {} with ownAuto := false}
theorem witness_OwnershipCommands :
    (↑fn_0 = 0 ∧ (∀ h < 8, c7_3.ownWriteRefused (↑stack_0) 129 h = false) ∧ c7_3.ownAuto = false ∧ (∀ h ∈ c7_3.autoChanges, c7_3.ownBusy h (c7_3.autoOwner
      h) = false) ∧ (↑fn_0 = 0 ∨ (c7_3.groupOwn (8 * ↑stack_0 + ↑fin8_0)).owner = some ↑fn_0 ∧ c7_3.fnOn ↑fn_0 = true) ∧ ((c7_3.groupOwn (8 * ↑stack_0
      + ↑fin8_0)).xfer = false ∨ true = true ∨ c7_3.xferBusy (8 * ↑stack_0 + ↑fin8_0) = false)) ∧
    (↑fn_0 = 0 ∧ List.find? (c7_4.ownWriteRefused (↑stack_0) 129) (List.range 8) = some 0) ∧
    (↑fn_1 ≠ 0) ∧
    ((↑fn_0 = 0 ∨ (c7_8.groupOwn (8 * ↑stack_0 + ↑fin8_0)).owner = some ↑fn_0 ∧ c7_8.fnOn ↑fn_0 = true) ∧ (c7_8.groupOwn (8 * ↑stack_0 + ↑fin8_0)).xfer =
      true ∧ false = false ∧ c7_8.xferBusy (8 * ↑stack_0 + ↑fin8_0) = true) ∧
    (c7_10.ownAuto = false ∧ (List.find? (fun h => c7_10.ownBusy h (c7_10.autoOwner h)) c7_10.autoChanges = some 0)) := by decide +kernel
def c7_12 : State := { live {} with stks := [(0, { own := [{}, {}, {}, {}, {}, {}, {}, {clearing := true}] })], stackMem := [(stackKey 6 (2^33-1), 5), (stackKey 7 0, 1), (stackKey 7 (2^33-1), 2), (stackKey 8 0, 3)] }
def c7_13 : State := {own1 {valid := true, pas := 3} with fns := [(3,{enabled := true})]}
theorem witness_GroupCommandsComplete :
    ((c7_12.groupOwn (8 * ↑stack_0 + ↑fin8_7)).clearing = true ∧ c7_12.ownAuto = true ∧ ((c7_12.groupOwn (8 * ↑stack_0 + ↑fin8_7)).xfer = false ∨ true =
      true ∨ c7_12.xferBusy (8 * ↑stack_0 + ↑fin8_7) = false)) ∧
    ((c7_3.groupOwn (8 * ↑stack_0 + ↑fin8_7)).clearing = false ∧ c7_3.ownAuto = false ∧ (∀ h < 8, c7_3.ownWriteRefused (↑stack_0) 33089 h = false) ∧ (∀ h
      ∈ c7_3.autoChanges, c7_3.ownBusy h (c7_3.autoOwner h) = false)) := by decide +kernel
def c7_16 : State := (sw {upset1 := [1023*256+255], scrubWin := (List.range 32).map fun i => (i,1)})
def c7_26 : State := (sw {upset1 := [1023*256+255]})
def c7_27 : State := (sw {upset2 := [1023*256+255]})
def c7_28 : ℕ := (1023*256+255)
theorem witness_GroupClearZeroesItsGroup :
    (c7_12.groupOwn (8 * ↑stack_0 + ↑fin8_7)).clearing = true := by decide +kernel
def c7_18 : Landing := (ld .ready)
def c7_19 : State := (live {landings := [ld (.reread false true)]})
def c7_20 : Landing := (ld (.reread false true))
def c7_21 : State := (live {landings := [ld (.reread false false)]})
def c7_22 : Landing := (ld (.reread false false))
def c7_23 : State := (live {landings := [ld (.reread true false)]})
def c7_24 : Landing := (ld (.reread true false))
theorem witness_StackUpkeep :
    ((upp.pasture ↑pas_0).beating = true ∧ 3500 * nsT ≤ upp.now - max (upp.pasture ↑pas_0).lastWatch (upp.pasture ↑pas_0).lastLate) ∧
    ((cw.pasture ↑pas_0).beating = true ∧ cw.logOf ↑pas_0 % 4096 = 0 ∧ (cw.pasture ↑pas_0).watchSeen ≤ cw.logOf ↑pas_0 / 4096 ∧ cw.beatsAt (cw.groupOwn (8
      * ↑stack_0 + ↑fin8_0)).owner = false ∧ cw.maintInterval ↑stack_0 ≤ cw.now - smapGet 0 (cw.stack ↑stack_0).maintTime ↑fin8_0 ∧ (List.find? (fun c
      => c.write && decide (c.tile = tileKey ↑vx_0 ↑vy_0)) cw.cmds = some cmd0) ∧ cw.pasOf ↑vx_0 = some 0 ∧ cw.live (tileKey ↑vx_0 ↑vy_0) = true) ∧
    (c7_19.live (tileKey ↑vx_0 ↑vy_0) = true ∧ c7_19.pasOf ↑vx_0 = some 0 ∧ (c7_19.tile (tileKey ↑vx_0 ↑vy_0)).landings = [c7_20] ∧ c7_20.arrival =
      Arrival.reread false true) ∧
    (c7_23.live (tileKey ↑vx_0 ↑vy_0) = true ∧ c7_23.pasOf ↑vx_0 = some 0 ∧ (c7_23.tile (tileKey ↑vx_0 ↑vy_0)).landings = [c7_24] ∧ c7_24.arrival =
      Arrival.reread true false ∧ c7_24.due = (c7_23.tile (tileKey ↑vx_0 ↑vy_0)).beat) := by decide +kernel
def halted (t : Tile) : State := livep (fun x => { x with stopped := true }) t
theorem witness_StackUpkeep_stopped :
    ((halted { landings := [c7_20] }).live 0 = false ∧ (halted { landings := [c7_20] }).pasOf 0 = some 0 ∧
      ((halted { landings := [c7_20] }).pasture 0).stopped = true ∧ ((halted { landings := [c7_20] }).tile 0).landings = [c7_20] ∧
      c7_20.arrival = .reread false true) ∧
    ({ halted {} with cmds := [cmd0] }.live 0 = false ∧ { halted {} with cmds := [cmd0] }.pasOf 0 = some 0 ∧
      { halted {} with cmds := [cmd0] }.cmds.find? (fun c => c.write && decide (c.tile = 0)) = some cmd0) := by decide +kernel
def c7_29 : BitVec 16 := (BitVec.ofInt 16 (101*8))
def c7_30 : State := (hotS 0)
def c7_31 : BitVec 16 := (BitVec.ofInt 16 (94*8))
def c7_32 : BitVec 16 := (BitVec.ofInt 16 (-8))
def c7_33 : State := {hotS 0 with stks := [(0,{hot := true, overtemp := true})]}
theorem witness_StackTemperature :
    c7_30.railsUp = true := by decide +kernel
def c7_34 : State := { live {landings := [{ld .ready with stack := 0, due := 7}], beat := 5} with stks := [(0, {hot := true})] }
theorem witness_HotStackRefresh :
    (c7_34.stack ↑stack_0).hot = true ∧ 1500 * nsT ≤ c7_34.now - (c7_34.stack ↑stack_0).hotTime := by decide +kernel
def c7_35 : State := (live {})
def c7_36 : State := (livep (fun x => {x with capLimit := some 900}) {})
theorem witness_PaceLimitInForce :
    c7_35.mayWrite ↑fn_0 ↑pas_0 = true := by decide +kernel
def c7_37 : State := {live {} with west := { state := .live, vcore := 850 }}
def c7_38 : State := {live {} with west := { state := .live, vcore := 550 }}
theorem witness_HelmMovesTenMillivolts :
    c7_35.railsUp = true ∧ 550 ≤ (c7_35.half Half.west).vcore.toNat ∧ (c7_35.half Half.west).vcore.toNat ≤ 850 := by decide +kernel
def c7_40 : BitVec 16 := (BitVec.ofInt 16 (106*8))
def c7_42 : State := {live {} with power := {ready.power with throttleE := true}}
theorem witness_PowerMeasurements :
    (c7_35.railsUp = true ∧ c7_35.facts.grade.cap ≤ rdBig.pin.toNat ∧ (c7_35.pasture ↑pas_0).beating = true ∧ (5 : BitVec 12).toNat <
      c7_35.facts.grade.floor ∧ (sextantTemps c7_35 fin64_0 1000 c7_40).any (hotter · 105) = true) ∧
    (c7_42.railsUp = true ∧ (sextantTemps c7_42 fin64_63 1000 (BitVec.ofInt 16 (101 * 8))).any (hotter · 105) = false ∧ c7_42.power.throttle (sextantHalf
      ↑fin64_63) = true ∧ (sextantTemps c7_42 fin64_63 1000 (BitVec.ofInt 16 (101 * 8))).all (cooler · 102) = true) ∧
    (c7_35.railsUp = true ∧ (sextantTemps c7_35 fin64_63 1000 (BitVec.ofInt 16 (101 * 8))).any (hotter · 105) = false ∧ c7_35.power.throttle (sextantHalf
      ↑fin64_63) = false) := by decide +kernel
def c7_43 : State := { live {} with power := {ready.power with trips := 2}}
theorem witness_InputStage :
    (dark.power.good = false ∧ dark.power.eFuseOpen = false ∧ dark.lowSecond = false) ∧
    (c7_35.power.good = true ∧ c7_35.railsUp = true) ∧
    (openF.power.eFuseOpen = true ∧ openF.power.overV = false ∧ openF.power.stayOpen = false ∧ 1000 * msT ≤ openF.now - openF.power.tripTime) := by decide +kernel
def c7_44 : List BistFailure := [bf]
def c7_45 : State := {noPas with west := {}}
theorem witness_ParkingHalves :
    (noPas.boot.ready = true ∧ (noPas.half Half.west).state = HalfState.live ∧ (((List.range 16).any fun p => (noPas.pasture p).enable && noPas.usesHalf p
      Half.west) = false)) ∧
    (c7_35.boot.ready = true ∧ (((List.range 16).any fun p => (c7_35.pasture p).enable && c7_35.usesHalf p Half.west) = true)) ∧
    (c7_45.boot.ready = true ∧ (c7_45.half Half.west).state = HalfState.parked) := by decide +kernel
theorem groups_of_c7_12 (n : Nat) : (c7_12.stack n).own.length = 8 := by
  simp only [State.stack, c7_12, live, smapGet, smapFind]; split <;> rfl
theorem groups_of_c7_3 (n : Nat) : (c7_3.stack n).own.length = 8 := by
  simp only [State.stack, c7_3, o1, quiet, own1, live, smapGet, smapFind]; split <;> rfl
theorem witness_GroupCommandsComplete_owner : (c7_13.groupOwn 0).owner = some 3 ∧ c7_13.fnOn 3 = true ∧ (c7_13.groupOwn 0).xfer = false := by
  decide +kernel

theorem witness_StackUpkeep_stopped_uncorrectable :
    (halted { landings := [c7_24] }).live 0 = false ∧ (halted { landings := [c7_24] }).pasOf 0 = some 0 ∧
      ((halted { landings := [c7_24] }).pasture 0).stopped = true ∧ c7_24.arrival = .reread true false ∧
      c7_24.due = ((halted { landings := [c7_24] }).tile 0).beat := by decide +kernel
def bad2 : State := sw { upset2 := [261888] }
/-- A sweep of every bank, one whose window is done, and one that finds a word that cannot be corrected. -/
theorem witness_ScrubVisits :
    ((live { beat := 64, scrubWin := (List.range 32).map fun i => (i, 1) }).scrubBanks 0 = [] ∧ c7_26.live 0 = true ∧ 0 ∈ c7_26.scrubBanks 0 ∧ 1 ∉ c7_26.scrubBanks 0 ∧ c7_26.mainFault 0 = none ∧
      (((c7_26.scrubBanks 0).flatMap (c7_26.tile 0).scrubWords).all fun w => !(c7_26.tile 0).upset2.contains w) = true) ∧
    (bad2.live 0 = true ∧ bad2.mainFault 0 = none ∧ 261888 ∈ (bad2.scrubBanks 0).flatMap (bad2.tile 0).scrubWords ∧
      (bad2.tile 0).upset2 = [261888]) := by decide +kernel
theorem test_scrub_stops : (match exec (.scrubVisit 0 0) bad2 with | .next t => (t.pasture 0).stopped && !(bad2.pasture 0).stopped | _ => false) = true := by decide +kernel
theorem witness_ParkingHalves_up :
    puW.boot.ready = true ∧ (puW.half .west).state = .poweringUp ∧ 0 ∈ noPas.halfTiles .west ∧ 40 ∉ noPas.halfTiles .west := by decide +kernel

end Stacks

/-! ## Bring-up -/

namespace BringUp

/-- The public key of the private key 7, and its hash. -/
def rootKey : List Byte := bytesBe 64 0xddf092555409c19dfdbe86a75c139906a80198337744ee78cd27e384d9fcaf15847d18ffb38e87065cd6b6e9c12d2922037937707d6a49a2223b949657e52bc1
def up : State := { power := { good := true, rails := true, serviceRail := true }, now := 10 ^ 15
                    facts := { rootKeyHash := 0x43289246207a3415198f1b148916ece03f86d8318699d3d29f9c8374e6288ea5#256 } }
def bt (done : List Nat) (b : Boot) : State := { up with boot := { b with done := done, step := 3, state := 2 } }
/-- An image of nothing but its header, signed with the key 7, or not signed. -/
def img (ok : Bool) : ImageVerdict :=
  { svn := 3, shepherdFw := [], tileFw := [], stackCode := [], linkCode := [], key := rootKey
    signature := if ok then bytesBe 64 0x6ffa02be8212b02b72d58c41ec40478f762e9bb3902fa80b05790392bc9288b8de053d980e2fa5d9fb8525465147c161c71c0f08cc0dd36c83e10deb234a59cb else [] }
def sv (fu fl a b h : Bool) : ShepherdVerdict := { fusesOk := fu, flashOk := fl, slotA := img a, slotB := img b, host := img h }
def tr : StackVerdict := { trained := true, regionOk := false, fallbackOk := true }
def wv : WaveVerdict := { firstTripped := true, secondTripped := true }
def bf : BistFailure := { isPort := false, px := 67, py := 39, inconclusive := true, test := 7 }
def bp : BistFailure := { isPort := true, px := 19, py := 0, inconclusive := false, test := 1 }
def fv : FirmwareVerdict := { first := [], again := [] }
def hb (done : List Nat) : State := { bt done {} with boot := { done := done, step := 3, state := 2, mode := 1 } }
def d1 : Defect := { kind := 1, px := 5, py := 6, cause := 1 }

def c9_1 : List BistFailure := [bf, bp]
def c9_2 : State := (bt [2, 3] {})
def c9_4 : State := (bt [2, 3, 4] {waves := 16})
def c9_5 : State := (bt [2, 3, 4, 5] {waves := 17, mgmtOnly := false})
def c9_6 : State := (bt [2, 3, 4, 5, 6] {waves := 17, waveBad := [16], failed := [bf, bp], fdr := [d1]})
def c9_7 : State := (bt [2, 3, 4, 5, 6, 7] {waves := 17, badTiles := [5]})
def c9_8 : State := (bt [2, 3, 4, 5, 6, 7, 8, 14] {waves := 17, gridW := 0})
theorem witness_FlashBootSteps :
    (c9_2.flashStep 4 [3] = true ∧ c9_2.flashStep 5 [3] = true ∧ c9_2.boot.waves = ↑fin_170) ∧
    (c9_4.flashStep 14 [4] = true ∧ false = false) ∧
    (c9_5.flashStep 6 [5] = true) ∧
    (c9_6.flashStep 7 [6] = true) ∧
    (c9_7.flashStep 8 [7] = true) ∧
    (c9_8.flashStep 9 [8, 4] = true) := by decide +kernel
def c9_9 : ShepherdVerdict := (sv true true true true true)
def c9_10 : ShepherdVerdict := (sv true true false true true)
def c9_11 : ShepherdVerdict := (sv true true false false true)
def c9_12 : State := { up with boot := { bootMode := 1 } }
def c9_13 : ShepherdVerdict := (sv false true false false true)
def c9_14 : ShepherdVerdict := (sv true false false false true)
def c9_15 : State := { up with boot := { step := 2, done := [2] } }
def first (s : State) : State := (s.runStep 2).clearOverride.fuseOffPorts.raiseReports
def c9_26 : State := { up with boot := { bootMode := 2 } }
theorem witness_FirstBootSteps_1 :
    (up.railsUp = true ∧ up.boot.step = 0 ∧ c9_9.fusesOk = true ∧ c9_9.flashOk = true ∧ up.bootChoice = 0 ∧ (first up).imageOk c9_9.slotA = true) ∧
    (c9_10.fusesOk = true ∧ c9_10.flashOk = true ∧ (first up).imageOk c9_10.slotA = false ∧ (first up).imageOk c9_10.slotB = true) ∧
    (c9_11.fusesOk = true ∧ c9_11.flashOk = true ∧ (first up).imageOk c9_11.slotA = false ∧ (first up).imageOk c9_11.slotB = false) ∧
    (c9_26.railsUp = true ∧ c9_26.boot.step = 0 ∧ c9_26.bootChoice = 2 ∧ (first c9_26).imageOk c9_9.slotB = true ∧
      (first c9_26).imageOk c9_10.slotA = false) := by decide +kernel
theorem witness_FirstBootSteps_2 :
    (c9_12.railsUp = true ∧ c9_12.boot.step = 0 ∧ c9_11.fusesOk = true ∧ c9_11.flashOk = true ∧ c9_12.bootChoice = 1) ∧
    (up.railsUp = true ∧ up.boot.step = 0 ∧ c9_13.fusesOk = false) ∧
    (up.railsUp = true ∧ up.boot.step = 0 ∧ c9_14.fusesOk = true ∧ c9_14.flashOk = false) ∧
    (c9_15.railsUp = true ∧ c9_15.boot.step ≠ 0 ∧ c9_15.boot.done.contains 3 = false) := by decide +kernel
def c9_16 : List BistFailure := [bf]
def c9_17 : State := (hb [3])
def c9_18 : ShepherdVerdict := (sv true true true false true)
def c9_19 : State := (hb [2, 3])
def c9_20 : State := (hb [2, 3, 4, 14, 5])
def c9_21 : State := (hb [2, 3, 4, 14, 5, 6])
def c9_22 : State := (hb [2, 3, 4, 14, 5, 6, 7])
def c9_23 : State := (hb [2, 3, 4, 14, 5, 6, 7, 8])
theorem witness_HostSteppedPath_1 :
    (Claims.hostPath c9_17 = true ∧ c9_17.boot.done.contains 2 = false ∧ 2 < 3 ∧ c9_11.fusesOk = true ∧ (((fun n => Claims.atHostStep c9_17 n 2)
      2).raiseReports.imageOk (if 2 = 0 then c9_11.slotA else if 2 = 1 then c9_11.slotB else c9_11.host) = true) ∧ c9_17.boot.done.contains 6 = false) ∧
    (Claims.hostPath c9_19 = true ∧ c9_19.boot.done.contains 2 = true ∧ c9_19.boot.done.contains 4 = false ∧ ((((fun n => Claims.atHostStep c9_19 n 0)
      4).trainStacks tr).boot.mgmtOnly = false) ∧ c9_19.boot.done.contains 5 = false ∧ c9_19.boot.waves = 0) ∧
    (Claims.hostPath c9_20 = true ∧ c9_20.boot.done.contains 5 = true ∧ c9_20.boot.done.contains 6 = false) ∧
    (Claims.hostPath c9_21 = true ∧ c9_21.boot.done.contains 6 = true ∧ c9_21.boot.done.contains 7 = false) ∧
    (Claims.hostPath c9_22 = true ∧ c9_22.boot.done.contains 7 = true ∧ c9_22.boot.done.contains 8 = false) := by decide +kernel
/-- A step asked for in a flash boot, in management-only mode, out of order, and with an image that does not pass. -/
def c9_27 : State := { c9_17 with boot := { c9_17.boot with mgmtOnly := true } }
theorem witness_HostSteppedPath_refused : c9_2.boot.mode = 0 ∧
    (c9_27.railsUp = true ∧ c9_27.boot.done.contains 3 = true ∧ c9_27.boot.mode = 1 ∧ c9_27.boot.mgmtOnly = true) ∧
    (Claims.hostPath c9_19 = true ∧ c9_19.boot.done.contains 2 = true ∧ c9_19.boot.waves ≠ (1 : Byte).toNat ∧ (c9_19.boot.done.contains 5 = false) ∧
      c9_19.boot.done.contains 6 = false ∧ c9_19.boot.done.contains 7 = false ∧ c9_19.boot.done.contains 8 = false) ∧
    (Claims.hostPath c9_20 = true ∧ c9_20.boot.done.contains 4 = true) ∧
    ((Claims.atHostStep c9_17 2 2).raiseReports.imageOk (sv true true true true false).host = false) := by decide +kernel
theorem witness_HostSteppedPath_2 :
    Claims.hostPath c9_23 = true ∧ c9_23.boot.done.contains 8 = true ∧ c9_23.boot.done.contains 4 = true ∧ c9_23.boot.done.contains 9 = false := by decide +kernel
def c9_24 : State := (bt [2, 3, 4, 14, 5, 6, 7, 8, 9] {})
def c9_25 : State := (bt [2, 3, 4, 5, 6, 7, 8, 9] {})
theorem witness_ReadyAfterSteps9And4b :
    c9_24.boot.ready = false ∧ c9_24.tryReady.boot.ready = true := by decide +kernel

end BringUp

namespace Rows

/-! ## Resets, self-tests, rings and events -/

def wo : WarmOutcome := { firmware := { first := [], again := [] } }
/-- A small ready package without columns, so that step 9 has no tile to serve. -/
def bare : State := { ready with boot := { ready.boot with gridW := 0, colMap := [] } }
def runA : Run := { runId := 1, id := { tag := 9 }, deadline := 5, entry := { declBeats := 9 } }
def busy : State := { live {} with pas := [(0, { pas0 with runs := [runA], flags := 5, flagWaiters := [(0, 0, true)], haltCount := 3, rejects := 4, trackers := [{}], inTest := true }), (1, { enable := true, col0 := 2, width := 2, rejects := 2 })], net := [{ pkt := .flag 0 1 true none }], fns := [(0, { enabled := true }), (1, { enabled := true })] }
def tst (t : SelfTest) (s : State) : State := { s with rel := { s.rel with tests := [t], testSeq := 1 } }
def eye : SelfTest := { kind := .eyeScan, target := 3, seq := 0, since := 0 }
def hmem (e : List (Nat × Nat)) : SMap Byte := e.map fun x => (0x1000 + x.1, BitVec.ofNat 8 x.2)
def fn1 : Fn := { enabled := true, sqBase := [(0, 0x1001)], sqTail := [(0, 1)], cqBase := 0x4001 }
def ring (fn : Nat) (e : List (Nat × Nat)) (x : Pasture) : State :=
  { ready with fns := [(fn, fn1)], hostMem := hmem e, pas := [(fn, x)], tiles := [], boot := { ready.boot with gridW := 2, colMap := [(0,0),(1,1)] } }
def idOf (tag : Nat) (fn : FnId) : EntryId := { fn := fn, tag := BitVec.ofNat 32 tag, sqHead := 1 }
def ent (s : State) (fn : FnId) : List Byte := s.readHost 0x1000 64
def prg : Program := { entries := [{ entry := 0, declBeats := 100, inBytes := 10, outBytes := 20 }] }
def adm : Pasture := { enable := true, width := 2, loaded := true, program := some prg, beating := true }
def runE : List (Nat × Nat) := [(0, 1), (4, 7)]
def s1 := ring 0 runE adm
def e1 := ent s1 0
def s2 := ring 0 [(0, 1), (1, 1), (4, 7)] adm
def s3 := ring 0 [(0, 1), (4, 7)] {}
def ab (x : Pasture) := ring 0 [(0, 2), (4, 7), (8, 9)] x
def rs (st : RunStage) (f : Nat) : Run := { runId := 1, id := { tag := 9 }, stage := st, first := f }
def comp : Completion := { opcode := 1, tag := 9, runId := 1 }
def hc (s : State) (c : Completion) : State := s.modFn 0 fun f => { f with held := [c] }
def bad := ring 0 [(0, 1), (3, 1), (4, 7)] adm
def badN (n : Nat) := ring 0 [(0, n), (3, 1), (4, 7)] adm
def msgS := ring 0 [(0, 5), (4, 7), (12, 4), (16, 3)] adm
def blk : HostMsg := { id := { tag := 9 }, slot := 0, req := { src := .fn 0 }, blocked := some 0 }
def canS := (ring 0 [(0, 6), (4, 7), (8, 9)] adm).modFn 0 fun f => { f with msgs := [blk] }
def xf (dir n : Nat) := { ring 0 [(0, 4), (4, 7), (8, dir), (10, n)] adm with stks := [(0, { own := [{ valid := true, xfer := true }, {}, {}, {}, {}, {}, {}, {}] })], ports := [(18, { state := .active })] }

theorem witness_PastureResets :
    busy.boot.everReady = true ∧ busy.mayWrite ↑fn_0 ↑pas_0 = true := by decide +kernel
theorem witness_TileQuarantines :
    busy.boot.everReady = true ∧ busy.offGrid ↑vx_0 ↑vy_0 = false ∧ (busy.tile (tileKey ↑vx_0 ↑vy_0)).quarantined = false ∧ busy.pasOf ↑vx_0 = some 0 := by decide +kernel
def c10_5 : State := { bare with fns := [(1, { enabled := true })] }
def c10_6 : State := { bare with fns := [(1, { enabled := true })], boot := { bare.boot with everReady := false } }
theorem witness_PackageResets :
    (bare.boot.everReady = true ∧ bare.boot.mgmtOnly = false) ∧
    (fn_1 ≠ 0 ∧ ((c10_5.func ↑fn_1).enabled = true) ∧ c10_5.boot.everReady = true) ∧
    (fn_1 ≠ 0 ∧ ((c10_6.func ↑fn_1).enabled = true) ∧ c10_6.boot.everReady = false) := by decide +kernel
theorem witness_WarmResetLeavesNothingInFlight :
    bare.boot.everReady = true ∧ bare.boot.mgmtOnly = false := by decide +kernel
def c10_9 : State := { bare with rel := {} }
theorem witness_SelfTestRequests :
    c10_9.mgtUp = true := by decide +kernel
def c10_10 : SelfTestVerdict := { failing := [], ok := true }
def c10_11 : State := (tst eye bare)
def c10_12 : State := (tst { eye with running := true } bare)
def c10_13 : SelfTest := { eye with running := true }
theorem witness_SelfTestEnds :
    (c10_11.testUnderWay SelfTestKind.eyeScan 3 = some eye ∧ eye.running = false ∧ c10_11.testIdle eye = true ∧ eye.since + 1000 * msT ≤ c10_11.now) ∧
    (c10_12.testUnderWay SelfTestKind.eyeScan 3 = some c10_13 ∧ c10_13.running = true ∧ c10_12.scrubbed c10_13 = true ∧ c10_12.testFailing c10_13 c10_10 =
      [] ∧ c10_10.ok = true) := by decide +kernel
def c10_15 : State := (live {})
theorem witness_ShepherdRingAndAlert :
    (c10_15.mgtUp = true ∧ c10_15.railsUp = true ∧ c10_15.boot.ringFailed = false ∧ ↑fin_42 < 3) ∧
    (c10_15.railsUp = true ∧ c10_15.boot.ringFailed = false ∧ ↑fin_43 = 3) := by decide +kernel
def c10_18 : EntryId := (idOf 7 0)
def c10_19 : List Byte := (ent bad 0)
def c10_20 : State := (badN 2)
def c10_21 : List Byte := (ent (badN 2) 0)
def c10_22 : State := (badN 4)
def c10_23 : List Byte := (ent (badN 4) 0)
def c10_24 : State := (badN 5)
def c10_25 : List Byte := (ent (badN 5) 0)
def c10_26 : State := (badN 6)
def c10_27 : List Byte := (ent (badN 6) 0)
theorem witness_DoorbellsAndRefusedEntries :
    (bad.hifUp = true ∧ bad.fnOn ↑fn_0 = true ∧ bad.headEntry fn_0 fin16_0 = some (c10_18, c10_19) ∧ entryRefusal fn_0 c10_19 = some St.HOST_ENTRY_FORMAT
      ∧ entOp c10_19 = 1) ∧
    (c10_20.headEntry fn_0 fin16_0 = some (c10_18, c10_21) ∧ entryRefusal fn_0 c10_21 = some St.HOST_ENTRY_FORMAT ∧ entOp c10_21 = 2) ∧
    (c10_22.headEntry fn_0 fin16_0 = some (c10_18, c10_23) ∧ entryRefusal fn_0 c10_23 = some St.HOST_ENTRY_FORMAT ∧ entOp c10_23 = 4) ∧
    (c10_24.headEntry fn_0 fin16_0 = some (c10_18, c10_25) ∧ entryRefusal fn_0 c10_25 = some St.HOST_ENTRY_FORMAT ∧ entOp c10_25 = 5) ∧
    (c10_26.headEntry fn_0 fin16_0 = some (c10_18, c10_27) ∧ entryRefusal fn_0 c10_27 = some St.HOST_ENTRY_FORMAT ∧ entOp c10_27 = 6) := by decide +kernel
def c10_28 : EntryRec := { entry := 0, declBeats := 100, inBytes := 10, outBytes := 20 }
def c10_29 : ℕ := (s1.deadline 0 { entry := 0, declBeats := 100, inBytes := 10, outBytes := 20 })
def c10_30 : List Byte := (ent s2 0)
def c10_31 : EntryRec := {}
theorem witness_RunAdmission :
    (Claims.entry s1 fn_0 fin16_0 c10_18 e1 = true ∧ entOp e1 = 1 ∧ (s1.fetched fn_0 fin16_0).admission (entPas e1) e1 (s1.doorbellTime fn_0 fin16_0) =
      Sum.inr (c10_28, c10_29) ∧ entFlags e1 % 2 = 0) ∧
    (Claims.entry s2 fn_0 fin16_0 c10_18 c10_30 = true ∧ entOp c10_30 = 1 ∧ (s2.fetched fn_0 fin16_0).admission (entPas c10_30) c10_30 (s2.doorbellTime
      fn_0 fin16_0) = Sum.inr (c10_28, c10_29) ∧ entFlags c10_30 % 2 = 1) ∧
    (Claims.entry s3 fn_0 fin16_0 c10_18 e1 = true ∧ entOp e1 = 1 ∧ (s3.fetched fn_0 fin16_0).admission (entPas e1) e1 (s3.doorbellTime fn_0 fin16_0) =
      Sum.inl St.HOST_NOT_ENABLED) := by decide +kernel
theorem witness_AdmissionPromises :
    s1.admission 0 e1 0 = Sum.inr (c10_28, c10_29) := by decide +kernel
def c10_32 : State := (ab { adm with runs := [rs .queued 0] })
def c10_33 : List Byte := (ent (ab {}) 0)
def c10_34 : Run := (rs .queued 0)
def c10_35 : Completion := {}
def c10_36 : HostMsg := {}
def c10_37 : State := (ab { adm with runs := [rs .running 5000] })
def c10_38 : Run := (rs .running 5000)
def c10_39 : State := (ab { adm with runs := [rs .running 0] })
def c10_40 : Run := (rs .running 0)
def c10_41 : State := (ab { adm with runs := [rs .recorded 0] })
def c10_42 : Run := (rs .recorded 0)
def c10_43 : State := (ab {})
def c10_44 : State := (hc (ab {}) comp)
def c10_45 : List Byte := (ent msgS 0)
def c10_46 : List Byte := (ent canS 0)
def c10_47 : State := (xf 0 1)
def c10_48 : List Byte := (ent (xf 0 1) 0)
def c10_49 : State := (xf 1 1)
def c10_50 : List Byte := (ent (xf 1 1) 0)
def c10_51 : State := (xf 0 0)
def c10_52 : List Byte := (ent (xf 0 0) 0)
theorem witness_RingEntries_1 :
    (Claims.entry c10_32 fn_0 fin16_0 c10_18 c10_33 = true ∧ entOp c10_33 = 2 ∧ (List.find? (fun r => targets c10_18 c10_33 r.id) ((c10_32.fetched fn_0
      fin16_0).pasture (entPas c10_33)).runs = some c10_34) ∧ (((c10_32.fetched fn_0 fin16_0).func ↑fn_0).heldTarget (entPas c10_33) c10_33 = none) ∧
      (c10_34.stage = RunStage.queued ∨ c10_34.stage = RunStage.ingressed)) ∧
    (Claims.entry c10_37 fn_0 fin16_0 c10_18 c10_33 = true ∧ entOp c10_33 = 2 ∧ (List.find? (fun r => targets c10_18 c10_33 r.id) ((c10_37.fetched fn_0
      fin16_0).pasture (entPas c10_33)).runs = some c10_38) ∧ (((c10_37.fetched fn_0 fin16_0).func ↑fn_0).heldTarget (entPas c10_33) c10_33 = none) ∧
      c10_38.stage = RunStage.running ∧ (c10_37.fetched fn_0 fin16_0).started (entPas c10_33) c10_38 = false) ∧
    (Claims.entry c10_39 fn_0 fin16_0 c10_18 c10_33 = true ∧ entOp c10_33 = 2 ∧ (List.find? (fun r => targets c10_18 c10_33 r.id) ((c10_39.fetched fn_0
      fin16_0).pasture (entPas c10_33)).runs = some c10_40) ∧ (((c10_39.fetched fn_0 fin16_0).func ↑fn_0).heldTarget (entPas c10_33) c10_33 = none) ∧
      (c10_39.fetched fn_0 fin16_0).started (entPas c10_33) c10_40 = true) ∧
    (Claims.entry c10_41 fn_0 fin16_0 c10_18 c10_33 = true ∧ entOp c10_33 = 2 ∧ (List.find? (fun r => targets c10_18 c10_33 r.id) ((c10_41.fetched fn_0
      fin16_0).pasture (entPas c10_33)).runs = some c10_42) ∧ (((c10_41.fetched fn_0 fin16_0).func ↑fn_0).heldTarget (entPas c10_33) c10_33 = none) ∧
      (c10_42.stage = RunStage.recorded ∨ c10_42.stage = RunStage.held)) := by decide +kernel
theorem witness_RingEntries_2 :
    (Claims.entry c10_43 fn_0 fin16_0 c10_18 c10_33 = true ∧ entOp c10_33 = 2 ∧ (List.find? (fun r => targets c10_18 c10_33 r.id) ((c10_43.fetched fn_0
      fin16_0).pasture (entPas c10_33)).runs = none) ∧ (((c10_43.fetched fn_0 fin16_0).func ↑fn_0).heldTarget (entPas c10_33) c10_33 = none)) ∧
    (Claims.entry c10_44 fn_0 fin16_0 c10_18 c10_33 = true ∧ entOp c10_33 = 2 ∧ (((c10_44.fetched fn_0 fin16_0).func ↑fn_0).heldTarget (entPas c10_33)
      c10_33 = some comp) ∧ (∀ (o : Run), List.find? (fun r => targets c10_18 c10_33 r.id) ((c10_44.fetched fn_0 fin16_0).pasture (entPas
      c10_33)).runs = some o → comp.runId ≤ o.runId)) ∧
    (Claims.entry msgS fn_0 fin16_0 c10_18 c10_45 = true ∧ entOp c10_45 = 5 ∧ (((msgS.fetched fn_0 fin16_0).func ↑fn_0).freeSlot = some 0)) ∧
    (Claims.entry canS fn_0 fin16_0 c10_18 c10_46 = true ∧ entOp c10_46 = 6 ∧ (List.find? (fun m => m.blocked.isSome && decide (m.pas = entPas c10_46) &&
      targets c10_18 c10_46 m.id) ((canS.fetched fn_0 fin16_0).func ↑fn_0).msgs = some blk)) ∧
    (Claims.entry c10_47 fn_0 fin16_0 c10_18 c10_48 = true ∧ entOp c10_48 = 4 ∧ (c10_47.fetched fn_0 fin16_0).xferOk (transferOf c10_18 c10_48
      (c10_47.fetched fn_0 fin16_0).now) = true ∧ (transferOf c10_18 c10_48 (c10_47.fetched fn_0 fin16_0).now).restore = false) ∧
    (Claims.entry c10_49 fn_0 fin16_0 c10_18 c10_50 = true ∧ entOp c10_50 = 4 ∧ (c10_49.fetched fn_0 fin16_0).xferOk (transferOf c10_18 c10_50
      (c10_49.fetched fn_0 fin16_0).now) = true ∧ (transferOf c10_18 c10_50 (c10_49.fetched fn_0 fin16_0).now).restore = true) := by decide +kernel
theorem witness_RingEntries_3 :
    Claims.entry c10_51 fn_0 fin16_0 c10_18 c10_52 = true ∧ entOp c10_52 = 4 ∧ (c10_51.fetched fn_0 fin16_0).xferOk (transferOf c10_18 c10_52
      (c10_51.fetched fn_0 fin16_0).now) = false := by decide +kernel
def c10_53 : List Completion := []
def c10_54 : State := (hc s1 comp)
def c10_55 : Completion := {comp with runId := 0}
def c10_56 : State := (hc s1 {comp with runId := 0})
def c10_57 : State := (s1.modFn 0 fun f => { f with cqTail := 255 })
theorem witness_CompletionRing :
    (((s1.func ↑fn_0).held = [] ∧ (s1.func ↑fn_0).cqRoom = true) ∧ ((s1.func ↑fn_0).cqTail.toNat + 1 < (s1.func ↑fn_0).cqSize) ∧ (∀ r ∈ (s1.pasture
      (BitVec.toNat comp.pasture)).runs, r.runId = comp.runId → BitVec.toNat s1.hifTime ≤ r.deadline)) ∧
    ((¬((c10_54.func ↑fn_0).held = [] ∧ (c10_54.func ↑fn_0).cqRoom = true)) ∧ ((c10_54.func ↑fn_0).held = comp :: c10_53) ∧ ((c10_54.func ↑fn_0).cqRoom =
      true) ∧ c10_54.fnOn ↑fn_0 = true ∧ (comp.opcode = 1 ∧ comp.kind = 0 ∧ comp.runId ≠ 0)) ∧
    (((c10_56.func ↑fn_0).held = c10_55 :: c10_53) ∧ ((c10_56.func ↑fn_0).cqRoom = true) ∧ c10_56.fnOn ↑fn_0 = true ∧ (¬(c10_55.opcode = 1 ∧ c10_55.kind =
      0 ∧ c10_55.runId ≠ 0))) ∧
    (((c10_57.func ↑fn_0).cqSize ≤ (c10_57.func ↑fn_0).cqTail.toNat + 1)) := by decide +kernel
def c10_58 : Vec := { masked := false, count := 3, pending := 2 }
def c10_59 : Vec := { masked := false, count := 3, pending := 1 }
def c10_60 : Vec := { masked := true, count := 3, pending := 0 }
def c10_62 : State := { ready with fns := [(0, { vecs := [(63, { masked := false, timeUs := 1, pending := 1 })] })] }
theorem witness_VectorModeration :
    (c10_58.masked = false ∧ c10_58.count.toNat ≤ c10_58.pending + 1 ∧ c10_58.pending ≠ 0) ∧
    (c10_59.masked = false ∧ c10_59.pending + 1 < c10_59.count.toNat) ∧
    (c10_60.masked = true ∧ c10_60.pending = 0) ∧
    (((smapGet { } (c10_62.func ↑fn_0).vecs ↑fin64_63).masked = false) ∧ ((smapGet { } (c10_62.func ↑fn_0).vecs ↑fin64_63).timeUs ≠ 0) ∧ (0 < (smapGet { }
      (c10_62.func ↑fn_0).vecs ↑fin64_63).pending) ∧ ((smapGet { } (c10_62.func ↑fn_0).vecs ↑fin64_63).timeUs.toNat * usT ≤ c10_62.now - (smapGet { }
      (c10_62.func ↑fn_0).vecs ↑fin64_63).since)) := by decide +kernel
def c10_64 : State := { busy with now := 0 }
theorem witness_DeadlineBreach :
    ((busy.pasture ↑pas_0).runs[↑fin64_0]? = some runA ∧ runA.breached = false ∧ runA.deadline ≤ BitVec.toNat busy.hifTime) ∧
    ((c10_64.pasture ↑pas_0).runs[↑fin64_0]? = some runA ∧ (runA.breached = true ∨ BitVec.toNat c10_64.hifTime < runA.deadline)) := by decide +kernel
def c10_65 : State := { busy with fns := [(0, { evtCount := 64, evtLost := 255 })] }
theorem witness_EventLog :
    (((busy.func 0).evtCount < 64)) ∧
    ((64 ≤ (c10_65.func 0).evtCount)) := by decide +kernel

/-! ## Loads, runs and pastures -/

/-- The public keys of the private keys 7, 8 and 9. -/
def pub7 : List Byte := bytesBe 64 0xddf092555409c19dfdbe86a75c139906a80198337744ee78cd27e384d9fcaf15847d18ffb38e87065cd6b6e9c12d2922037937707d6a49a2223b949657e52bc1
def pub8 : List Byte := bytesBe 64 0xb9c3faeb4b1610713db4333d4e860e64d4ea35d60c1c29bb675d822ded0bb916c519b309ecf7269c2491d2de9accf2be0366a8a03024b3e03c286da2cfd31a3e
def pub9 : List Byte := bytesBe 64 0xa27233f3a59595080b4a2444a46a74c5fe8d59cb43619e4f173472a58cca247e379e72f63722c924768f7689b210f45fc3a8433140d1ebca85227940922c02e9
/-- A weight package for a pasture of one column of a package of two: one region of 64 bytes and 40 empty sections, signed with key 7. -/
@[irreducible] def wplain : List Byte :=
  ([0x4c5446420001010100000228000100000000010028000000a0030000000000000000000000000000000000000000000000000000000000000000,
   0x00000000000095d4664159ab08d52b6cf2bb6fb20ea788787e93f696a980d9f29b213a46ad620000000000000000000000000000000000000000,
   0x000000000000000000000000a58e28e674839c9fd2d3998631d8863fe0ec1689141b8f1915347a20469228439e3ae6f8efe541c68145a897325d,
   0xa025153fbe43eeacbcf3f2451c22371e2d2cb58c75e4ee1766724ee30c7bb3ee13dedbed10ca79606120b4ae786d981029e60000000000000000,
   0x00000000000000000000000000000000000000000000000005000101000000270000000000000000400000000000000000000000000000000000,
   0x00000000000010000000000000000001000000000000100000000000000000020000000000001000000000000000000300000000000010000000,
   0x00000000000400000000000010000000000000000005000000000000100000000000000000060000000000001000000000000000000700000000,
   0x000010000000000000000008000000000000100000000000000000090000000000001000000000000000000a0000000000001000000000000000,
   0x000b0000000000001000000000000000000c0000000000001000000000000000000d0000000000001000000000000000000e0000000000001000,
   0x000000000000000f0000000000001000000000000000001000000000000010000000000000000011000000000000100000000000000000120000,
   0x00000000100000000000000000130000000000001000000000000000001400000000000010000000000000000015000000000000100000000000,
   0x00000016000000000000100000000000000000170000000000001000000000000000001800000000000010000000000000000019000000000000,
   0x1000000000000000001a0000000000001000000000000000001b0000000000001000000000000000001c0000000000001000000000000000001d,
   0x0000000000001000000000000000001e0000000000001000000000000000001f0000000000001000000000000000002000000000000010000000,
   0x00000000002100000000000010000000000000000022000000000000100000000000000000230000000000001000000000000000002400000000,
   0x00001000000000000000002500000000000010000000000000000026000000000000100000000000000000270000000000001000000000000000] : List Nat).flatMap (bytesBe 58)
/-- The same in an envelope for a package whose SEED is 0, under the content key of bytes 0 to 15. -/
@[irreducible] def sealedPkg : List Byte :=
  ([0x564e455300010000b1721c7bc683b971bb477dabb296de5008651babee702af28e44efe49c4374baa27233f3a59595080b4a2444a46a74c5fe8d59cb,
   0x43619e4f173472a58cca247e379e72f63722c924768f7689b210f45fc3a8433140d1ebca85227940922c02e947111a89e9e3af0d19a2df0d4c5f57bc,
   0x274ff47a940d5bc1000102030405060708090a0b00000000a00300000000000000000000000000000000000000000000000000000000000000000000,
   0x000000000000000000000000000000000000000000000000000000000000000000000000000000000000000000000000000000000000000000000000,
   0x00000000000000000000000000000000db1298b9c96b8401ff9c7665d1baf966219700cb190915f757ebc24c02de8ed18be25ebd6f6c2d892a999b2e,
   0x4f0ba6a1b44fdd30e04b88e8465ec20e58d93addc65d37a2bc5a4b35aabf195ebc06b505711c03e5161a762731374c4fe42e5ced414fcbb769c6f6dc,
   0x0ebcab9d5ac90aca478cc4aaf36d655952bcff4864370fe12eb917bfad4c76d966bb5b4ed9cea92dd88e7f08c1290fae557556a81eebcb874827da7b,
   0xb99346244862020303506a31467b0ad92b4a1ec89cdad90cdefd401dac4e06203c59dcbac1936657a542e986cc418f25d6af3ff6b4ccb3e43edca21c,
   0x9d73faf511b40d96be3bb0a5f12ec82ec0c27ea0e4f59bce05fc1d3a69e203f69fbe513c5b2ae38ce5beb485d037a143c06507f2df92543dd18776ea,
   0xc0b06496fd51ae909342667739aea5b7c8d4eb4c6f59b87f8abf94af242b11cbb2b7d8cba936f4e693fe149ad9987f7f886eae0de7b49aa433d30d76,
   0x6828e991c23911bd9fd276186030fc42d1721f9af86b08f0d70aad2e04dc3774e16af0612a4c49ebb04106d7d665111e7b64f6738498a49c0a07efdd,
   0x146c5877fd3d7a668fefd60345701b4f5160dc24a09ae58dda82359f030cd574e8ec0635e122de99f54136e37f1a353705016c36d361ec59284e90b1,
   0xfa4635e55c5e6f3ebc711d2c0ebde4c763c0ac9a2addd33d9e4ebeceb9c3dd067d94dbb8bdd634f7d0e5f27e2b5cf57330c1390189254d1d77080a83,
   0x83f6cb22aaae5df73c734f6771911cf24bc39015c6fc2d1ea553f2ab0684367d16a57920173ea3a0bac36acb1342e0f63093c2ef3c57bfb8fbe0e72a,
   0x7096125b5ba7ab6702ed1852399b13e39e5a477f33adf3939f2daf5b1fbc764adec5c0597307e942fdfd438d6f58058a0536cf82962b2ef102279d38,
   0xab0cb3f395703b3d8706a145067777e16cae6395b719c1a3bf5e16734001f8cd6ebe87e45e214730aaa03b3265ae875c66e14a2ff506e84dea1d6d99,
   0xdc267ade555a858e27ccb07834e4d02678f2983ee7b73d18623803f9489567fc8c3d5a8aaf6e3a28566d5b4dc887ce0d3e3724e3ca98a18d4518ef48,
   0x3d167eae3e9383877099fe542de86764abb820522920af79a4c73ba801203e38538cbd869c806d45f2a52d478e42aba74d3af51c0888b42a22c561a7,
   0x85d56b6151eab58d3c5c14b619249c9c72216c1ca1fafd17cb63f6b8290b6a55e7fdc6d3d94413aec450ced17c685731eb4c3018d0a57954e14d1152,
   0x9877ab780430819482c7e0296cdbd7439a67af2df51ed1e12bc5a0dc89e44bf061353dba40bfec263f186b487ea01968719939f3d905f531d6090aa5] : List Nat).flatMap (bytesBe 60)
/-- An envelope of the 16 bytes 0 to 15. -/
@[irreducible] def tinyPkg : List Byte :=
  ([0x564e455300010000b1721c7bc683b971bb477dabb296de5008651babee702af28e44efe49c4374baa27233f3a5959508,
   0x0b4a2444a46a74c5fe8d59cb43619e4f173472a58cca247e379e72f63722c924768f7689b210f45fc3a8433140d1ebca,
   0x85227940922c02e947111a89e9e3af0d19a2df0d4c5f57bc274ff47a940d5bc1000102030405060708090a0b00000000,
   0x100000000000000000000000000000000000000000000000000000000000000000000000000000000000000000000000,
   0x000000000000000000000000000000000000000000000000000000000000000000000000000000000000000000000000,
   0x000000000000000000000000000000009747dcf8cd6f8307f7957e46ddb6f769bbf37f7cfb9c16dd8aea5976ba68efa6] : List Nat).flatMap (bytesBe 48)
def tinyPlain : List Byte := (List.range 16).map (BitVec.ofNat 8 ·)
def ckey : List Byte := (List.range 16).map (BitVec.ofNat 8 ·)

def le (n x : Nat) : List (Nat) := (bytesOf n x).map (·.toNat)
def ix (o : Nat) (l : List Nat) : List (Nat × Nat) := (List.range l.length).map fun i => (o + i, l.getD i 0)
def ldent (kind len : Nat) : List (Nat × Nat) := [(0, 3), (4, 7), (8, kind)] ++ ix 16 (le 8 0x9000) ++ ix 24 (le 8 len)
/-- Bytes listed at an address and after it. -/
def listed : Nat → List Byte → SMap Byte
  | _, [] => []
  | a, b :: bs => (a, b) :: listed (a + 1) bs
def put (s : State) (a : Nat) (bs : List Byte) : State := { s with hostMem := s.hostMem ++ listed a bs }
def envS (kind : Nat) (x : Pasture) (bs : List Byte) : State :=
  put { (ring 0 (ldent kind bs.length) x) with sec := { signers := [pub7] } } 0x9000 bs
def e0 (s : State) := ent s 0
def en1 : Pasture := { enable := true, width := 1 }
def wS : State := envS 1 en1 sealedPkg
/-- An envelope of 16 bytes of plaintext, with byte i given. -/
def tinyWith (i : Nat) (b : Byte) : State := envS 1 en1 (tinyPkg.take i ++ [b] ++ tinyPkg.drop (i + 1))
def tS : State := envS 1 en1 tinyPkg
def jobW : LoadJob := { id := idOf 7 0, weights := true, plain := wplain, place := [] }
def runC (st : RunStage) : Run := { runId := 1, id := { tag := 9 }, stage := st, entry := { declBeats := 9 } }
def runS (x : Run) : State := { live {} with fns := [(0, { enabled := true })], pas := [(0, { pas0 with runs := [x] })] }
def envOk : IoOutcome := { dmaOk := true, stackOk := true, slow := false }
def g4 : State := { ready with boot := { ready.boot with gridW := 4 }, ownAuto := false }
def pS : State := envS 0 en1 tinyPkg
def g := runS (runC .queued)
def rio : Run := { runC .queued with inN := 2000 }
def qs : State := { (runS (runC .queued)) with pas := [(0, { pas0 with runs := [runC .queued], pcieW := 9 }), (1, { enable := true, col0 := 2, width := 2, runs := [runC .queued] })] }

def opened (p : PasId) (col0 width : Byte) (s : State) : State :=
  ((s.geomResult p St.OK).enabledAt p col0 width).modPas p fun x =>
    { x with stopped := x.stopped && x.qAnchor.isNone, qAnchor := none, stopTime := s.now }
def weighted (s : State) (p : PasId) (v : Nat) : State :=
  let w (old : Byte) (n : Nat) : Byte := if n % 256 = 0 then old else BitVec.ofNat 8 n
  s.modPas p fun x =>
    { x with pcieW := w x.pcieW v, svcW := w x.svcW (v / 2 ^ 8), cnwW := w x.cnwW (v / 2 ^ 16), ringW := w x.ringW (v / 2 ^ 24) }
def c11_2 : EntryId := (idOf 7 0)
def c11_3 : List Byte := (e0 wS)
def c11_5 : List Byte := (e0 tS)
def c11_6 : List Byte := (e0 pS)
def c11_7 : State := (tS.modPas 0 fun x => { x with loading := some jobW})
theorem witness_LoadService :
    (Claims.entry wS fn_0 fin16_0 c11_2 c11_3 = true ∧ entOp c11_3 = 3 ∧ entKind c11_3 = 1) ∧
    (Claims.entry tS fn_0 fin16_0 c11_2 c11_5 = true ∧ entOp c11_5 = 3 ∧ entKind c11_5 = 1 ∧ (tS.fetched fn_0 fin16_0).checkLoad c11_5 true false =
      Sum.inl St.HOST_DMA) ∧
    (Claims.entry pS fn_0 fin16_0 c11_2 c11_6 = true ∧ entOp c11_6 = 3 ∧ entKind c11_6 = 0 ∧ (pS.fetched fn_0 fin16_0).checkLoad c11_6 false true =
      Sum.inl St.HOST_BIN_FORMAT) ∧
    ((c11_7.pasture ↑pas_0).loading = some jobW) := by decide +kernel
def c11_8 : State := (put { ready with pas := [(0, { en1 with loading := some jobW })] } 0x9000 [1])
def c11_9 : State := (put { ready with pas := [(0, { en1 with awaitClear := true })] } 0x9000 [1])
def c11_10 : State := (put { ready with pas := [(0, en1)] } 0x9000 [1])
def c11_11 : State := (tinyWith 0x08 0)
def c11_12 : State := (tinyWith 0x68 0)
def c11_13 : State := (tinyWith 0x108 0)
theorem witness_LoadRefusalsInOrder :
    (((c11_8.pasture (entPas c11_5)).runs ≠ [] ∨ (c11_8.pasture (entPas c11_5)).loading.isSome = true ∨ (c11_8.pasture (entPas c11_5)).inTest = true) ∧
      envelopeOk (c11_8.readHost (entSrc c11_5) 256) (entLen c11_5) = false) ∧
    ((c11_9.pasture (entPas c11_5)).runs = [] ∧ (c11_9.pasture (entPas c11_5)).loading = none ∧ (c11_9.pasture (entPas c11_5)).inTest = false ∧
      (c11_9.pasture (entPas c11_5)).awaitClear = true) ∧
    ((c11_10.pasture (entPas c11_5)).runs = [] ∧ (c11_10.pasture (entPas c11_5)).loading = none ∧ (c11_10.pasture (entPas c11_5)).inTest = false ∧
      (c11_10.pasture (entPas c11_5)).awaitClear = false ∧ c11_10.openEnvelope c11_5 false = Sum.inl St.HOST_DMA) := by decide +kernel
def c11_14 : State := (g.refreshStore 0)
def c11_15 : Run := (runC .queued)
def c11_16 : List Run := []
def c11_17 : List Byte := []
def c11_18 : IoOutcome := { envOk with dmaOk := false }
def c11_19 : IoOutcome := { envOk with dmaOk := false, slow := true }
def c11_20 : State := (runS rio)
def c11_21 : State := (runS (runC .ingressed))
def c11_22 : Run := (runC .ingressed)
def c11_23 : State := (runS (runC .recorded))
def c11_24 : Run := (runC .recorded)
theorem witness_RunStages_1 :
    ((g.pasture ↑pas_0).runs = c11_15 :: c11_16 ∧ c11_15.stage = RunStage.queued ∧ (g.pasture ↑pas_0).takesRun = true ∧ envOk.dmaOk = true ∧ (if
      envOk.slow = true then (g.refreshStore ↑pas_0).noteCause (↑pas_0) St.HOST_BREACH_HOST else g.refreshStore ↑pas_0).listOk (↑pas_0) (g.ioList
      c11_15.inList c11_15.inN) c11_15.entry.inBytes = true ∧ envOk.stackOk = true ∧ (if envOk.slow = true then (g.refreshStore ↑pas_0).noteCause
      (↑pas_0) St.HOST_BREACH_HOST else g.refreshStore ↑pas_0).ingress (↑pas_0) (g.ioList c11_15.inList c11_15.inN) = (c11_14, none, c11_17)) ∧
    ((g.pasture ↑pas_0).runs = c11_15 :: c11_16 ∧ c11_15.stage = RunStage.queued ∧ (g.pasture ↑pas_0).takesRun = true ∧ c11_18.dmaOk = false) ∧
    ((c11_20.pasture ↑pas_0).runs = rio :: c11_16 ∧ rio.stage = RunStage.queued ∧ (c11_20.pasture ↑pas_0).takesRun = true ∧ envOk.dmaOk = true ∧ (if
      envOk.slow = true then (c11_20.refreshStore ↑pas_0).noteCause (↑pas_0) St.HOST_BREACH_HOST else c11_20.refreshStore ↑pas_0).listOk (↑pas_0)
      (c11_20.ioList rio.inList rio.inN) rio.entry.inBytes = false) ∧
    ((c11_21.pasture ↑pas_0).runs = c11_22 :: c11_16 ∧ c11_22.stage = RunStage.ingressed ∧ (c11_21.pasture ↑pas_0).takesRun = true) := by decide +kernel
theorem witness_RunStages_2 :
    ((c11_23.pasture ↑pas_0).runs = c11_24 :: c11_16 ∧ c11_24.stage = RunStage.recorded ∧ envOk.dmaOk = true ∧ c11_23.listOk (↑pas_0) (c11_23.ioList
      c11_24.outList c11_24.outN) c11_24.entry.outBytes = true ∧ envOk.stackOk = true ∧ c11_23.egress (↑pas_0) (c11_23.ioList c11_24.outList
      c11_24.outN) = (c11_23, none, c11_17)) ∧
    ((c11_23.pasture ↑pas_0).runs = c11_24 :: c11_16 ∧ c11_24.stage = RunStage.recorded ∧ c11_18.dmaOk = false) := by decide +kernel
def c11_25 : State := { g4 with ownAuto := true }
def c11_26 : Status := ((g4.startRefusal 0 0 200).getD 0)
def c11_27 : State := (runS (runC .queued))
def c11_28 : State := (live {})
theorem witness_PastureStartAndStop :
    (g4.boot.ready = true ∧ (g4.pasture ↑pas_0).enable = false ∧ g4.startRefusal (↑pas_0) 0 4 = none ∧ (opened pas_0 0 4 g4).applyAuto.hasQuarantine pas_0
      = false ∧ (opened pas_0 0 4 g4).applyAuto.clearingFor pas_0 = false ∧ (g4.pasture ↑pas_0).runs = [] ∧ (g4.pasture ↑pas_0).loading = none) ∧
    (c11_25.boot.ready = true ∧ (c11_25.pasture ↑pas_0).enable = false ∧ c11_25.startRefusal (↑pas_0) 0 4 = none ∧ (opened pas_0 0 4
      c11_25).applyAuto.hasQuarantine pas_0 = false ∧ (opened pas_0 0 4 c11_25).applyAuto.clearingFor pas_0 = true) ∧
    (g4.boot.ready = true ∧ (g4.pasture ↑pas_0).enable = false ∧ g4.startRefusal (↑pas_0) 0 200 = some c11_26) ∧
    (((c11_27.pasture ↑pas_0).runs ≠ [] ∨ (c11_27.pasture ↑pas_0).loading.isSome = true)) := by decide +kernel
theorem witness_QosWeights :
    (c11_28.shareFalls (weighted c11_28 pas_0 0x01020304) = false) ∧
    (g4.startRefusal (↑pas_0) 0 4 = none) ∧
    (qs.shareFalls (weighted qs pas_0 0x01020301) = true) := by decide +kernel
theorem witness_QosWeights_shares : qs.shareFalls (weighted qs pas_0 0x01020309) = false ∧ (qs.pasture 0).enable = true ∧
    (qs.pasture 0).runs ≠ [] ∧ g4.startRefusal pas_0 0 4 = none := by decide +kernel
theorem memRead_above (m : SMap Byte) (k : Nat) (b : Byte) (n : Nat) : ∀ a, k < a → memRead ((k, b) :: m) a n = memRead m a n := by
  induction n with
  | zero => intro a _; rfl
  | succ n ih =>
    intro a h
    have h1 : ¬ a = k := by omega
    have h2 : ¬ a < k := by omega
    simp only [memRead, smapGet, h1, h2, if_false, ih (a + 1) (by omega)]
theorem memRead_listed (bs : List Byte) : ∀ a k n, k + n ≤ bs.length → memRead (listed a bs) (a + k) n = (bs.drop k).take n := by
  induction bs with
  | nil =>
    intro a k n h
    have : n = 0 := by simp only [List.length_nil] at h; omega
    subst this; simp [memRead]
  | cons b bs ih =>
    intro a k n h
    rw [List.length_cons] at h
    cases k with
    | zero =>
      cases n with
      | zero => rfl
      | succ n =>
        have h0 := ih (a + 1) 0 n (by omega)
        simp only [Nat.add_zero, List.drop_zero] at h0
        simp [listed, memRead, smapGet, memRead_above _ _ _ _ (a + 1) (Nat.lt_succ_self a), h0]
    | succ k =>
      rw [listed, memRead_above _ _ _ _ _ (by omega), show a + (k + 1) = a + 1 + k by omega, ih (a + 1) k n (by omega)]; rfl
theorem memRead_behind (pre m : SMap Byte) (a n : Nat) (h : ∀ kv ∈ pre, kv.1 < a) : memRead (pre ++ m) a n = memRead m a n := by
  induction pre with
  | nil => rfl
  | cons x pre ih =>
    rw [List.cons_append, memRead_above _ _ _ _ _ (h x (by simp)), ih fun kv hk => h kv (by simp [hk])]
/-- What a load's envelope and ciphertext read as. -/
theorem reads (s : State) (kind len : Nat) (bs : List Byte) (hm : s.hostMem = (ring 0 (ldent kind len) en1).hostMem ++ listed 0x9000 bs)
    (hp : ((ring 0 (ldent kind len) en1).hostMem.all fun kv => decide (kv.1 < 0x9000)) = true) (k n : Nat) (h : k + n ≤ bs.length)
    (hb : bs.length < 2 ^ 32) : s.readHost (0x9000 + k) n = (bs.drop k).take n := by
  rw [State.readHost, hm, Nat.mod_eq_of_lt (by omega), memRead_behind _ _ _ _ fun kv hk => by
    have := List.all_eq_true.mp hp kv hk
    simp only [decide_eq_true_eq] at this; omega]
  exact memRead_listed _ _ _ _ h
theorem wS_entry : entSrc c11_3 = 0x9000 ∧ entLen c11_3 = 1200 ∧ entPas c11_3 = 0 ∧ entPlaces c11_3 = 0 ∧ sealedPkg.length = 1200 := by
  decide +kernel
theorem wS_reads (k n : Nat) (h : k + n ≤ 1200) : (wS.fetched fn_0 fin16_0).readHost (0x9000 + k) n = (sealedPkg.drop k).take n :=
  reads _ 1 sealedPkg.length sealedPkg rfl (by rw [wS_entry.2.2.2.2]; decide +kernel) k n (by rw [wS_entry.2.2.2.2]; exact h)
    (by rw [wS_entry.2.2.2.2]; decide)
def envW : List Byte := sealedPkg.take 256
theorem wS_env : (wS.fetched fn_0 fin16_0).readHost (entSrc c11_3) 256 = envW := by
  rw [wS_entry.1]; exact wS_reads 0 256 (by omega)
theorem wS_form : envelopeOk envW 1200 = true := by decide +kernel
theorem wS_identity : digestOf (slice envW 8 32) = (wS.fetched fn_0 fin16_0).facts.identity := by decide +kernel
theorem wS_key : (wS.fetched fn_0 fin16_0).contentKey envW = some ckey := by decide +kernel
theorem wS_chunk : gcmOpen ckey (chunkIv envW 0) (chunkAad envW 0) ((sealedPkg.drop 256).take 928) ((sealedPkg.drop 1184).take 16) = some wplain := by
  decide +kernel
/-- The plaintext of one chunk. -/
theorem openChunks_one (s : State) (e env key ct tag plain : List Byte) (n : Nat) (h : leAt env 0x90 8 = n) (h0 : ceilDiv n 65536 = 1)
    (hn : n ≤ 65536) (hc : s.readHost (entSrc e + 256) n = ct) (ht : s.readHost (entSrc e + 256 + n) 16 = tag)
    (hg : gcmOpen key (chunkIv env 0) (chunkAad env 0) ct tag = some plain) : s.openChunks e env key = some plain := by
  subst hc ht
  simp only [State.openChunks, h, h0, List.range_succ, List.range_zero, List.nil_append, List.foldl, State.openChunk, Nat.zero_mul,
    Nat.mul_zero, Nat.sub_zero, Nat.add_zero, Nat.min_eq_right hn, hg]
theorem wS_chunks : (wS.fetched fn_0 fin16_0).openChunks c11_3 envW ckey = some wplain :=
  openChunks_one _ _ _ _ _ _ _ 928 (by decide +kernel) (by decide) (by decide) (by rw [wS_entry.1]; exact wS_reads 256 928 (by omega))
    (by rw [wS_entry.1]; exact wS_reads 1184 16 (by omega)) wS_chunk
theorem wS_passes : (wS.fetched fn_0 fin16_0).weightsRefusal 0 [] wplain = none := by decide +kernel
theorem wS_checked : (wS.fetched fn_0 fin16_0).weightsRefusal 0 ((wS.fetched fn_0 fin16_0).placeList c11_3) wplain = none ∧
    (wS.fetched fn_0 fin16_0).loadBusy 0 = none := by
  refine ⟨?_, by decide +kernel⟩
  have h : (wS.fetched fn_0 fin16_0).placeList c11_3 = [] := by simp only [State.placeList, wS_entry.2.2.2.1, List.range_zero, List.map_nil]
  rw [h]; exact wS_passes
/-- An envelope that every check of R457 passes. -/
theorem openEnvelope_plain (s : State) (e env key plain : List Byte) (h0 : s.readHost (entSrc e) 256 = env)
    (h1 : envelopeOk env (entLen e) = true) (h2 : digestOf (slice env 8 32) = s.facts.identity) (h3 : s.contentKey env = some key)
    (h4 : s.openChunks e env key = some plain) : s.openEnvelope e true = .inr plain := by
  subst h0; simp [State.openEnvelope, h1, h2, h3, h4]
/-- A load of weights that every check passes. -/
theorem checkLoad_plain (s : State) (e plain : List Byte) (hb : s.loadBusy (entPas e) = none) (ho : s.openEnvelope e true = .inr plain)
    (hr : s.weightsRefusal (entPas e) (s.placeList e) plain = none) : s.checkLoad e true true = .inr plain := by
  simp [State.checkLoad, hb, ho, hr]
/-- A load of weights that passes every check. A program's chart digest is that of the package's own chart, whose latencies are opaque, so no
state written out here can have an accepted program. -/
theorem witness_LoadService_accepted : (wS.fetched fn_0 fin16_0).checkLoad c11_3 true true = .inr wplain :=
  checkLoad_plain _ _ _ (by rw [wS_entry.2.2.1]; exact wS_checked.2)
    (openEnvelope_plain _ _ envW ckey _ wS_env (by rw [wS_entry.2.1]; exact wS_form) wS_identity wS_key wS_chunks)
    (by rw [wS_entry.2.2.1]; exact wS_checked.1)
theorem tS_entry : entSrc c11_5 = 0x9000 ∧ entLen c11_5 = 288 := by decide +kernel
/-- The envelope of 16 bytes with byte i replaced. -/
def tinyBytes (i : Nat) (b : Byte) : List Byte := tinyPkg.take i ++ [b] ++ tinyPkg.drop (i + 1)
def envT (i : Nat) (b : Byte) : List Byte := (tinyBytes i b).take 256
theorem tiny_env (i : Nat) (b : Byte) (h : (tinyBytes i b).length = 288) : (tinyWith i b).readHost (entSrc c11_5) 256 = envT i b := by
  rw [tS_entry.1]
  exact reads _ 1 (tinyBytes i b).length (tinyBytes i b) rfl (by rw [h]; decide +kernel) 0 256 (by rw [h]; decide) (by rw [h]; decide)
theorem witness_LoadRefusalsInOrder_recipient : envelopeOk (envT 0x08 0) (entLen c11_5) = true ∧
    ¬digestOf (slice (envT 0x08 0) 8 32) = (tinyWith 0x08 0).facts.identity ∧
    (tinyWith 0x08 0).readHost (entSrc c11_5) 256 = envT 0x08 0 := by
  refine ⟨?_, by decide +kernel, tiny_env _ _ (by decide +kernel)⟩
  rw [tS_entry.2]; decide +kernel
theorem witness_LoadRefusalsInOrder_unwrap : envelopeOk (envT 0x68 0) (entLen c11_5) = true ∧
    digestOf (slice (envT 0x68 0) 8 32) = (tinyWith 0x68 0).facts.identity ∧ (tinyWith 0x68 0).contentKey (envT 0x68 0) = none ∧
    (tinyWith 0x68 0).readHost (entSrc c11_5) 256 = envT 0x68 0 := by
  refine ⟨?_, by decide +kernel, by decide +kernel, tiny_env _ _ (by decide +kernel)⟩
  rw [tS_entry.2]; decide +kernel

/-! ## Context transfers and security requests -/

/-! family 10 rest -/
def pk0 : FabPacket := { ptype := 0x10, cls := 2, chan := 0, last := true, drove := false, hops := 32, dstChip := 0, srcChip := 5, flock := 0, srcRank := 0, win := 0, drv := 0, oseq := 0, xfer := 7, offset := 0, count := 0, status := 0, e2e := 0, dateline := false, data := [] }
def svcp (dat : List Byte) (off : Nat) (count : BitVec 32) (ty : Byte) : FabPacket :=
  FabPacket.sealed { pk0 with ptype := ty, data := dat, offset := BitVec.ofNat 32 off, count := count }
def tr (restore : Bool) (got : List Byte) : Transfer := { id := idOf 7 0, pas := 0, restore := restore, link := 0, pages := 1, storeId := 5, got := got }
def xfS (x : Transfer) : State := { (live {}) with ports := [(18, { state := .active, role := 18 })], xfers := [x], fns := [(0, { enabled := true })], stks := [(0, { own := [{ valid := true, xfer := true }, {}, {}, {}, {}, {}, {}, {}] })] }
def dat192 : List Byte := List.replicate 192 7
def pg : List Byte := List.replicate (32768 - 192) 9
def whole := pg ++ dat192
def at32 : Transfer := tr true pg
def secent (kind len : Nat) : List (Nat × Nat) := [(0, 3), (4, 7), (8, kind)] ++ ix 16 (le 8 0x9000) ++ ix 24 (le 8 len) ++ ix 32 (le 8 0x8000)
def secS (kind : Nat) (bs : List Byte) (x : Security := {}) : State :=
  put { (ring 0 (secent kind bs.length) en1) with sec := x } 0x9000 bs
def chn : Pasture := { en1 with chain := { valid := true, nextSeq := 3, signDue := some (2, 5, 1), periodic := none } }
def secSp (kind : Nat) (bs : List Byte) (p : Pasture) : State := put (ring 0 (secent kind bs.length) p) 0x9000 bs
/-- A signed command with the signature that key 7 gives it. -/
def cmd (kind op seq : Nat) (body : List Byte) (sig : Nat) : List Byte :=
  bytesOf 4 0x53434D44 ++ [BitVec.ofNat 8 kind, BitVec.ofNat 8 op, 0, 0] ++ bytesOf 8 0 ++ bytesOf 8 seq ++ bytesOf 4 body.length
    ++ bytesOf 4 0 ++ body ++ bytesBe 64 sig
def own7 : Security := { owner := some pub7 }
def oneKey : List Byte := [1, 0, 0, 0, 0, 0, 0, 0] ++ pub9
def takeCmd : List Byte := cmd 5 0 1 pub7
  0x3c8cff0f5ac81852e8ba5ad24874232ebba317b4e61472d911c15a47dfd8b9a32b04a0d23090eab7745cf088009a6136e692bf09e3585d724fdd4c8491d255ff
def sOwn : State := secS 5 takeCmd
def sOwned : State := secS 5 takeCmd own7
def sChange : State := secS 5 (cmd 5 1 1 pub8
  0xe84f0c81631e99b60dd7c9b60dfe4a2eed8d753581e857481b3e54fa4fe1b4d8b4bad50d49453980b3e32f80b3c17f161b2a0891e0fdbb61e5c363b2d0da6378) own7
def sRel : State := secS 5 (cmd 5 2 1 []
  0x6a3146a9736b324eafea4d51057b19ac7c95269c3b302a8dfec7d492c24afafca314e22abb0233fb2612fc591b34498885015da26dfbdfef14cd1a08cfd3a587) own7
def sSign : State := secS 6 (cmd 6 0 1 oneKey
  0xe50c9017c89eb320931b4cdf182a9ebe19c302c1dae1db2028b499ac2ba8bfcaf79501e9707523437f481cbccadab518b0fc2491db94e94faeeae4997f018a2d) own7
def sSignBad : State := secS 6 (cmd 6 0 2 oneKey 0) own7
def sUn (ch : Digest) : State := secS 7 (cmd 7 0 0 (List.replicate 32 0 ++ [1] ++ List.replicate 31 0)
  0x6c4a0c643cb230be4e3627f81e37d8c39af295bed4a48d6186cbdf5ce22d5275413f3527aae415597b909d06e58f22547fae289bfb0bc785be6315147e3da090) { own7 with challenge := ch }
def sRelock := secS 8 [] { own7 with scope := 2 }
def sSvn (slot : BitVec 2) (img : BitVec 7) : State := let s := secS 9 [] { fwSvn := 1, imageSvn := img }; { s with boot := { s.boot with slot := slot } }

def c12_1 : FabPacket := (svcp dat192 0 0 0x10)
def c12_2 : State := (xfS (tr true []))
def c12_3 : Transfer := (tr true [])
def c12_4 : FabPacket := (svcp dat192 (32768-192) (crc32c whole) 0x10)
def c12_5 : State := (xfS at32)
def c12_6 : FabPacket := (svcp dat192 (32768-192) 1 0x10)
def c12_7 : FabPacket := (svcp [] 0 0 0x11)
def c12_8 : State := (xfS (tr false []))
def c12_9 : Transfer := (tr false [])
theorem witness_ContextTransfers :
    (c12_1.cls = 2 ∧ c12_1.e2eOk = true ∧ (c12_2.port (18 + ↑fin2_0)).state.carries = true ∧ c12_1.ptype = 16 ∧ (c12_2.takeService (18 + ↑fin2_0)
      c12_1).xferOf fin2_0 c12_1 true = some c12_3 ∧ c12_1.offset.toNat = (32768 * c12_3.done + c12_3.got.length) % 2 ^ 32 ∧ (c12_3.got ++
      c12_1.data).length < 32768 ∧ (List.find? (fun x => decide (x.link = fin2_0) && decide (x.time + 10 * msT ≤ c12_2.now)) c12_2.xfers = some
      c12_3)) ∧
    (c12_7.cls = 2 ∧ c12_7.e2eOk = true ∧ (c12_8.port (18 + ↑fin2_0)).state.carries = true ∧ c12_7.ptype = 17 ∧ (c12_8.takeService (18 + ↑fin2_0)
      c12_7).xferOf fin2_0 c12_7 false = some c12_9 ∧ c12_7.offset.toNat = 32768 * c12_9.done % 2 ^ 32) := by decide +kernel
def c12_13 : State := (secS 2 (List.replicate 32 1))
def c12_14 : EntryId := (idOf 7 0)
def c12_15 : List Byte := (ent (secS 2 (List.replicate 32 1)) 0)
def c12_16 : List Byte := []
def c12_17 : State := (secS 3 [])
def c12_18 : List Byte := (ent (secS 3 []) 0)
def c12_19 : State := (secSp 4 [0] chn)
def c12_20 : List Byte := (ent (secSp 4 [0] chn) 0)
def c12_21 : List Byte := ((secSp 4 [0] chn).chainRecord 0 (some 2) 0)
def c12_22 : State := (secSp 4 [1] chn)
def c12_23 : List Byte := (ent (secSp 4 [1] chn) 0)
theorem witness_AttestationAndRecords :
    (Claims.security c12_13 fn_0 fin16_0 c12_14 c12_15 2 = true) ∧
    (Claims.security c12_17 fn_0 fin16_0 c12_14 c12_18 3 = true) ∧
    (Claims.security c12_19 fn_0 fin16_0 c12_14 c12_20 4 = true ∧ (c12_19.pasture ↑pas_0).chain.signDue = some (2, 5, 1)) ∧
    (Claims.security c12_22 fn_0 fin16_0 c12_14 c12_23 4 = true ∧ (c12_22.fetched fn_0 fin16_0).chainAnswer (entPas c12_23) (leAt ((c12_22.fetched fn_0
      fin16_0).readHost (entSrc c12_23) (entLen c12_23)) 0 1) = Sum.inl St.SEC_NO_RECORD) := by decide +kernel
def c12_24 : List Byte := (ent sOwn 0)
def c12_25 : List Byte := (ent sOwned 0)
def c12_26 : List Byte := (ent sChange 0)
def c12_27 : List Byte := (ent sRel 0)
def c12_28 : List Byte := (ent sSign 0)
def c12_29 : List Byte := (ent sSignBad 0)
def c12_30 : State := (sUn 0)
def c12_31 : List Byte := (ent (sUn 0) 0)
def c12_32 : State := (sUn 1)
def c12_33 : List Byte := (ent (sUn 1) 0)
def c12_34 : List Byte := (ent sRelock 0)
def c12_35 : State := (sSvn 0 2)
def c12_36 : List Byte := (ent (sSvn 0 2) 0)
def c12_37 : State := (sSvn 0 1)
def c12_38 : List Byte := (ent (sSvn 0 1) 0)
def c12_39 : State := (sSvn 2 1)
def c12_40 : List Byte := (ent (sSvn 2 1) 0)
theorem witness_OwnerCommands_1 :
    (Claims.security sOwn fn_0 fin16_0 c12_14 c12_24 5 = true ∧ cmdOp (sOwn.readHost (entSrc c12_24) (entLen c12_24)) = 0 ∧ (sOwn.fetched fn_0
      fin16_0).cmdRefusal 5 ((sOwn.fetched fn_0 fin16_0).readHost (entSrc c12_24) (entLen c12_24)) (if (sOwn.fetched fn_0 fin16_0).sec.owner.isSome =
      true then some St.SEC_OWNED else none) = none ∧ true = true) ∧
    (Claims.security sOwn fn_0 fin16_0 c12_14 c12_24 5 = true ∧ cmdOp (sOwn.readHost (entSrc c12_24) (entLen c12_24)) = 0 ∧ (sOwn.fetched fn_0
      fin16_0).cmdRefusal 5 ((sOwn.fetched fn_0 fin16_0).readHost (entSrc c12_24) (entLen c12_24)) (if (sOwn.fetched fn_0 fin16_0).sec.owner.isSome =
      true then some St.SEC_OWNED else none) = none ∧ false = false) ∧
    (Claims.security sOwned fn_0 fin16_0 c12_14 c12_25 5 = true ∧ cmdOp (sOwned.readHost (entSrc c12_25) (entLen c12_25)) = 0 ∧ (sOwned.fetched fn_0
      fin16_0).cmdRefusal 5 ((sOwned.fetched fn_0 fin16_0).readHost (entSrc c12_25) (entLen c12_25)) (if (sOwned.fetched fn_0
      fin16_0).sec.owner.isSome = true then some St.SEC_OWNED else none) = some St.SEC_OWNED) ∧
    (Claims.security sChange fn_0 fin16_0 c12_14 c12_26 5 = true ∧ (sChange.fetched fn_0 fin16_0).cmdRefusal 5 ((sChange.fetched fn_0 fin16_0).readHost
      (entSrc c12_26) (entLen c12_26)) (sChange.fetched fn_0 fin16_0).sec.needsOwner = none ∧ true = true ∧ cmdOp (sChange.readHost (entSrc c12_26)
      (entLen c12_26)) = 1) ∧
    (Claims.security sRel fn_0 fin16_0 c12_14 c12_27 5 = true ∧ (sRel.fetched fn_0 fin16_0).cmdRefusal 5 ((sRel.fetched fn_0 fin16_0).readHost (entSrc
      c12_27) (entLen c12_27)) (sRel.fetched fn_0 fin16_0).sec.needsOwner = none ∧ true = true ∧ cmdOp (sRel.readHost (entSrc c12_27) (entLen c12_27))
      = 2) ∧
    (Claims.security sSign fn_0 fin16_0 c12_14 c12_28 6 = true ∧ (sSign.fetched fn_0 fin16_0).cmdRefusal 6 ((sSign.fetched fn_0 fin16_0).readHost (entSrc
      c12_28) (entLen c12_28)) (sSign.fetched fn_0 fin16_0).sec.needsOwner = none ∧ true = true) := by decide +kernel
theorem witness_OwnerCommands_2 :
    (Claims.security sSign fn_0 fin16_0 c12_14 c12_28 6 = true ∧ (sSign.fetched fn_0 fin16_0).cmdRefusal 6 ((sSign.fetched fn_0 fin16_0).readHost (entSrc
      c12_28) (entLen c12_28)) (sSign.fetched fn_0 fin16_0).sec.needsOwner = none ∧ false = false) ∧
    (Claims.security sSignBad fn_0 fin16_0 c12_14 c12_29 6 = true ∧ (sSignBad.fetched fn_0 fin16_0).cmdRefusal 6 ((sSignBad.fetched fn_0 fin16_0).readHost
      (entSrc c12_29) (entLen c12_29)) (sSignBad.fetched fn_0 fin16_0).sec.needsOwner = some St.SEC_CMD_SEQ) ∧
    (Claims.security c12_30 fn_0 fin16_0 c12_14 c12_31 7 = true ∧ (c12_30.fetched fn_0 fin16_0).cmdRefusal 7 ((c12_30.fetched fn_0 fin16_0).readHost
      (entSrc c12_31) (entLen c12_31)) (c12_30.fetched fn_0 fin16_0).sec.needsOwner = none ∧ digestOf (cmdBody ((c12_30.fetched fn_0 fin16_0).readHost
      (entSrc c12_31) (entLen c12_31))) = (c12_30.fetched fn_0 fin16_0).sec.challenge) ∧
    (Claims.security c12_32 fn_0 fin16_0 c12_14 c12_33 7 = true ∧ (c12_32.fetched fn_0 fin16_0).cmdRefusal 7 ((c12_32.fetched fn_0 fin16_0).readHost
      (entSrc c12_33) (entLen c12_33)) (c12_32.fetched fn_0 fin16_0).sec.needsOwner = none ∧ digestOf (cmdBody ((c12_32.fetched fn_0 fin16_0).readHost
      (entSrc c12_33) (entLen c12_33))) ≠ (c12_32.fetched fn_0 fin16_0).sec.challenge) ∧
    (Claims.security sRelock fn_0 fin16_0 c12_14 c12_34 8 = true) ∧
    (Claims.security c12_35 fn_0 fin16_0 c12_14 c12_36 9 = true ∧ (c12_35.fetched fn_0 fin16_0).boot.slot ≠ 2 ∧ (c12_35.fetched fn_0 fin16_0).sec.fwSvn <
      (c12_35.fetched fn_0 fin16_0).sec.imageSvn) ∧
    (Claims.security c12_37 fn_0 fin16_0 c12_14 c12_38 9 = true ∧ (c12_37.fetched fn_0 fin16_0).boot.slot ≠ 2 ∧ (c12_37.fetched fn_0 fin16_0).sec.imageSvn
      ≤ (c12_37.fetched fn_0 fin16_0).sec.fwSvn) ∧
    (Claims.security c12_39 fn_0 fin16_0 c12_14 c12_40 9 = true ∧ (c12_39.fetched fn_0 fin16_0).boot.slot = 2) := by decide +kernel
/-- A signed command whose buffer cannot be read (R376): the operands of the clause, and what UNLOCK does. -/
theorem witness_OwnerCommands_unread : ({ dmaOk := false, flashOk := true } : CommandOutcome).dmaOk = false ∧
    (Claims.security sOwn fn_0 fin16_0 c12_14 c12_24 5 = true ∧ cmdOp (sOwn.readHost (entSrc c12_24) (entLen c12_24)) = 0) ∧
    (Claims.security sChange fn_0 fin16_0 c12_14 c12_26 5 = true ∧ cmdOp (sChange.readHost (entSrc c12_26) (entLen c12_26)) = 1) ∧
    (Claims.security sRel fn_0 fin16_0 c12_14 c12_27 5 = true ∧ cmdOp (sRel.readHost (entSrc c12_27) (entLen c12_27)) = 2) := by
  decide +kernel
theorem test_unlock_unread : (match exec (.unlock fn_0 fin16_0 false) c12_30 with
    | .next t => (t.func fn_0).aer && decide (t.sec.scope = c12_30.sec.scope) | _ => false) = true := by decide +kernel
theorem witness_chainAnswer : leAt ((c12_19.fetched 0 0).readHost (entSrc c12_20) (entLen c12_20)) 0 1 = 0 ∧ entPas c12_20 = 0 ∧
    (c12_19.fetched 0 0).chainAnswer 0 0 = .inr ((c12_19.fetched 0 0).chainRecord 0 (some 2) 0) := by
  have h : ((c12_19.fetched 0 0).pasture 0).chain = chn.chain := by decide +kernel
  refine ⟨by decide +kernel, by decide +kernel, ?_⟩
  simp only [State.chainAnswer, h]; rfl
theorem sealed_sum (p : FabPacket) : p.sealed.e2eSum = p.e2eSum := rfl
theorem sealed_ok (p : FabPacket) : p.sealed.e2eOk = true := decide_eq_true (sealed_sum p).symm
theorem complement_differs (x : BitVec 32) : ~~~x ≠ x := by
  intro h
  have := congrArg BitVec.toNat h
  rw [BitVec.toNat_not] at this
  omega
/-- The last packet of a page, with a COUNT. -/
def pageEnd (n : BitVec 32) : FabPacket := svcp dat192 (32768 - 192) n 0x10
theorem page_length : (at32.got ++ dat192).length = 32768 := by
  rw [List.length_append]; simp only [at32, tr, pg, dat192, List.length_replicate]
theorem witness_ContextTransfers_page (n : BitVec 32) : (pageEnd n).cls = 2 ∧ (pageEnd n).e2eOk = true ∧
    ((xfS at32).port 18).state.carries = true ∧ (pageEnd n).ptype = 0x10 ∧
    ((xfS at32).takeService 18 (pageEnd n)).xferOf 0 (pageEnd n) true = some at32 ∧
    (pageEnd n).offset.toNat = (32768 * at32.done + at32.got.length) % 2 ^ 32 ∧ 32768 ≤ (at32.got ++ (pageEnd n).data).length := by
  refine ⟨rfl, sealed_ok _, rfl, rfl, rfl, ?_, Nat.le_of_eq page_length.symm⟩
  rw [show at32.got.length = 32576 from List.length_replicate]; rfl
theorem witness_ContextTransfers_unwritten (n : BitVec 32) : ((xfS at32).takeService 18 (pageEnd n)).stackPlace at32.pas
    ((at32.saddr + 32768 * at32.done : Nat) : Int) = some (0, 0) := rfl
theorem witness_ContextTransfers_crc :
    (pageEnd (crc32c ((at32.got ++ dat192).take 32768))).count = crc32c ((at32.got ++ (pageEnd 0).data).take 32768) ∧
    (pageEnd (~~~crc32c ((at32.got ++ dat192).take 32768))).count ≠ crc32c ((at32.got ++ (pageEnd 0).data).take 32768) :=
  ⟨rfl, complement_differs _⟩

/-! ## Links -/

/-! links -/
def up (x : Port) : Port := { x with state := .active, role := 3, lanes := 0xFF, healthy := 0xFF, width := 8, step := .trained }
def lk (x : Port) : State := { ready with ports := [(3, x)], boot := { ready.boot with gridW := 4, badPorts := [] } }
def trn (st : TrainStep) : Port := { state := .training, step := st, healthy := 0x0F }
def rec1 : PeerRecord := { vmin := 1, vmax := 1, chipId := 9, port := 2, kind := 0, stepping := 0, serial := 4, flockDigest := 0 }
def plan1 : Plan := { selfChip := 1, digest := 5, waitMs := 1, entries := [{}, {}, {}, { use := 1, peerChip := 9, peerPort := 2, width := 8 }, { use := 1, required := false, peerChip := 10, peerPort := 2, width := 8 }] }
def lp (x : Port) : State := { lk x with links := { plan := some plan1, planState := 1 } }
def peer (x : Port) (chip : BitVec 16) (d : Digest) : Port := { x with peerVmin := 1, peerVmax := 1, peerChip := chip, peerPort := 2, peerDigest := d }
def okR : FlitReception := { errors := [], bufferOk := true, dateline := false }
def fl (p : FlitPayload) : List Byte := LinkFlit.bytes { seq := 0, ack := 0, nak := false, credit := 0, payload := p }
def rp : Port := { (up {}) with replayBuf := [(0, .mgmt .retrainRequest), (1, .mgmt .retrainRequest)], txSeq := 2 }

def shad : SMap Byte := [(2, 1), (4, 1), (8, 7), (0x30, 1)]
def goodPlan : State := { lp (peer (up {}) 9 0) with links := { (lp {}).links with shadow := shad }, facts := { serial := 7 } }
def wc (x : Port) (h : Byte) : State → Prop := fun s =>
    (s.calDue 3 = true → x.peerProposal = none → ({ x with calTime := s.now, cleanSince := smapMap (fun i t => if bitAt (0:Byte) i then t else s.now) x.cleanSince } : Port).wish s.now = some h → x.proposal ≠ some h → h ≠ x.lanes → True)

def calibrated (x : Port) (g : Byte) (now : Nat) : Port :=
  { x with calTime := now, cleanSince := smapMap (fun i t => if bitAt g i then t else now) x.cleanSince }
def c13_1 : List Byte := []
def c13_2 : Option (List Byte) := none
def c13_3 : State := (lk (trn .detect))
def c13_4 : State := (lk (trn .lanes))
def c13_5 : State := (lk { trn .lanes with fast := true })
def c13_6 : State := (lk (trn .equalise))
def c13_7 : State := (lk (trn .width))
def c13_8 : List Byte := rec1.bytes
def c13_9 : State := (lk (trn .identify))
def c13_10 : Option (List Byte) := (some [1])
def c13_11 : State := (lk (trn .compare))
theorem witness_LinkTrainingSteps_1 :
    (c13_3.mayTrain ↑port_3 = true ∧ (c13_3.port ↑port_3).step = TrainStep.detect ∧ (c13_3.port ↑port_3).stepTime ≤ c13_3.now ∧ 15 ≠ 0 ∧ (c13_3.port
      ↑port_3).state ≠ PortState.retraining) ∧
    (c13_4.mayTrain ↑port_3 = true ∧ (c13_4.port ↑port_3).step = TrainStep.lanes ∧ (c13_4.port ↑port_3).fast = false) ∧
    (c13_5.mayTrain ↑port_3 = true ∧ (c13_5.port ↑port_3).step = TrainStep.lanes ∧ (c13_5.port ↑port_3).fast = true) ∧
    (c13_6.mayTrain ↑port_3 = true ∧ (c13_6.port ↑port_3).step = TrainStep.equalise) ∧
    (c13_7.mayTrain ↑port_3 = true ∧ (c13_7.port ↑port_3).step = TrainStep.width ∧ chooseGroup (c13_7.port ↑port_3).healthy = some 15) ∧
    (c13_7.mayTrain ↑port_3 = true ∧ (c13_7.port ↑port_3).step = TrainStep.width ∧ (chooseGroup (c13_7.port ↑port_3).healthy = none ∨ false = false)) ∧
    (c13_9.mayTrain ↑port_3 = true ∧ (c13_9.port ↑port_3).step = TrainStep.identify ∧ PeerRecord.ofBytes c13_8 = some rec1 ∧ c13_2.bind PeerRecord.ofBytes
      = none) := by decide +kernel
theorem witness_LinkTrainingSteps_2 :
    c13_11.mayTrain ↑port_3 = true ∧ (c13_11.port ↑port_3).step = TrainStep.compare := by decide +kernel
def c13_12 : State := (lk (up {}))
def c13_13 : State := (lk (peer (up {}) 9 6))
def c13_14 : State := (lp (peer (up {}) 9 5))
def c13_15 : State := (lp (peer (up {}) 10 5))
theorem witness_RolesFollowThePlan :
    (3 < 20 ∧ (¬(c13_12.port 3).peerVmin ≤ 1 ∨ ¬1 ≤ (c13_12.port 3).peerVmax)) ∧
    (3 < 20 ∧ (c13_13.port 3).peerVmin ≤ 1 ∧ 1 ≤ (c13_13.port 3).peerVmax ∧ (c13_13.port 3).peerDigest ≠ c13_13.flockDigest) ∧
    (3 < 20 ∧ c13_14.finding 3 = Finding.own) ∧
    (3 < 20 ∧ c13_15.finding 3 = Finding.swapped 4) := by decide +kernel
def c13_17 : State := (lp (trn .detect))
def c13_18 : State := (lp { (up {}) with state := .off })
def c13_19 : State := { lp (peer (up {}) 9 5) with links := { (lp {}).links with lports := [(0, 0xFFFF), (1, 1)] } }
theorem witness_PlanAndRetrain :
    ((c13_14.port ↑port_3).state.up = true ∧ c13_14.portDead ↑port_3 = false ∧ c13_14.links.plan = some plan1 ∧ c13_14.links.waited = false ∧
      c13_14.links.planTime + plan1.waitMs * msT ≤ c13_14.now ∧ (∀ r ∈ List.filter (fun r => decide ((c13_14.planEntry r).use ≠ 0) &&
      !c13_14.roleMatched r) (List.range 20), (c13_14.planEntry r).required = false) ∧ (((List.range 16).any fun j => decide (j ≠ ↑fin16_0) && decide
      (smapGet 0 c13_14.links.lports j &&& 3 ≠ 0)) = false) ∧ (c13_14.lportUsed ↑fin16_0 = false ∨ smapGet 0 c13_14.links.lports ↑fin16_0 = 3)) ∧
    (((c13_17.port ↑port_3).state = PortState.down ∨ (c13_17.port ↑port_3).state = PortState.training) ∧ c13_17.portDead ↑port_3 = false) ∧
    (((c13_18.port ↑port_3).state = PortState.off ∨ c13_18.portDead ↑port_3 = true) ∧ c13_18.planRefusal = some St.LNK_PLAN_FORMAT) ∧
    ((c13_19.lportUsed ↑fin16_0 = true ∧ smapGet 0 c13_19.links.lports ↑fin16_0 ≠ 3 ∨ ((List.range 16).any fun j => decide (j ≠ ↑fin16_0) && decide
      (smapGet 0 c13_19.links.lports j &&& 3 ≠ 0)) = true)) ∧
    (goodPlan.planRefusal = none) := by decide +kernel
def c13_20 : List Byte := (fl .idle)
def c13_21 : FlitReception := { okR with errors := List.range 16 }
def c13_22 : List Byte := (fl .reserved)
def c13_23 : List Byte := (fl (.mgmt .retrainRequest))
def c13_24 : State := (lk rp)
def c13_25 : List Byte := (fl (.fabric (FabPacket.sealed pk0)))
def c13_26 : State := (lk { rp with noProgress := 7 })
/-- A port at flit 1, the first flit of a second codeword in view, and at a flit that no codeword ends with. -/
def after (x : Port) (r : FlitReception) : Port := x.nextReceived r.errors
theorem witness_FlitsAndReplay :
    (((c13_12.port 3).state.up = true ∧ flitCrcOk c13_1 = false)) ∧
    ((after (c13_12.port 3) okR).badUntil ≤ (c13_12.port 3).rxFlits ∧ flitCrcOk c13_22 = true ∧
      (LinkFlit.ofBytes c13_22 okR.dateline).payload = FlitPayload.reserved) ∧
    ((after (c13_12.port 3) okR).badUntil ≤ (c13_12.port 3).rxFlits ∧ flitCrcOk c13_20 = true ∧
      (LinkFlit.ofBytes c13_20 okR.dateline).payload ≠ FlitPayload.reserved) ∧
    ((c13_24.port 3).state.up = true ∧ (c13_24.port 3).replayBuf ≠ [] ∧ usT ≤ c13_24.now - (c13_24.port 3).progressTime ∧ (c13_24.port
      3).noProgress < 7) ∧
    ((c13_26.port 3).state.up = true ∧ (c13_26.port 3).replayBuf ≠ [] ∧ usT ≤ c13_26.now - (c13_26.port 3).progressTime ∧ 7 ≤
      (c13_26.port 3).noProgress) := by decide +kernel
/-- The flits that end a codeword and the one that ends none, and a codeword of 16 symbols in error that drops the flit. -/
theorem witness_FlitsAndReplay_codewords :
    (codewordIn 0 ≠ none ∧ okR.errors.length ≤ 15 ∧ 15 < c13_21.errors.length) ∧
    ((List.range 64).any fun n => decide (codewordIn n = none)) = true ∧
    (after (c13_12.port 3) c13_21).badUntil > (c13_12.port 3).rxFlits := by decide +kernel
def c13_27 : FlitPayload := (.mgmt .retrainRequest)
def c13_28 : List (BitVec 10 × FlitPayload) := [(1, .mgmt .retrainRequest)]
theorem witness_AcknowledgmentReleasesInOrder :
    (rp.replayBuf = (0, c13_27) :: c13_28 ∧ rp.replayBuf.length ≤ 64 ∧ 1 ≤ rp.replayBuf.length ∧ 1 = 0 + 1#10) ∧
    (rp.replayBuf = (0, c13_27) :: c13_28 ∧ rp.replayBuf.length ≤ 64 ∧ rp.replayBuf.length < ((3 : BitVec 10) - 0).toNat) := by decide +kernel
def c13_31 : State := (lk { (up {}) with lanes := 1, healthy := 1 })
def c13_32 : State := (lk { (up {}) with proposal := some 0x0F, laneCorr := [(2, 300000)] , laneBad := [(2, 2)] })
def c13_33 : State := (lk { (up {}) with proposal := some 0x0F })
def c13_34 : State := (lk { (up {}) with failing := 0x80 })
def c13_35 : State := (lk { (up {}) with peerProposal := some 0x0F })
theorem witness_WidthChanges :
    ((c13_12.port ↑port_3).state.up = true ∧ bitAt (c13_12.port ↑port_3).lanes ↑fin8_0 = true ∧ chooseGroup ((c13_12.port ↑port_3).healthy &&&
      ~~~BitVec.twoPow 8 ↑fin8_0) = some 240 ∧ 240 ∈ laneGroups ∧ (c13_12.port ↑port_3).winTime + msT ≤ c13_12.now ∧ c13_12.calDue ↑port_3 = true ∧
      (c13_12.port ↑port_3).peerProposal = none ∧ (calibrated (c13_12.port port_3) 0xF0 c13_12.now).wish c13_12.now = none) ∧
    ((c13_31.port ↑port_3).state.up = true ∧ bitAt (c13_31.port ↑port_3).lanes ↑fin8_0 = true ∧ (c13_31.port ↑port_3).healthy &&& ~~~BitVec.twoPow 8
      ↑fin8_0 = 0) ∧
    ((c13_32.port ↑port_3).state.up = true ∧ (c13_32.port ↑port_3).proposal = some 15) ∧
    ((c13_33.port ↑port_3).state.up = true ∧ bitAt (c13_33.port ↑port_3).lanes ↑fin8_7 = true ∧ chooseGroup ((c13_33.port ↑port_3).healthy &&&
      ~~~BitVec.twoPow 8 ↑fin8_7) = some 15 ∧ 15 ∈ laneGroups ∧ (c13_33.port ↑port_3).proposal = some 15 ∧ (c13_33.port ↑port_3).winTime + msT ≤
      c13_33.now ∧ c13_33.calDue ↑port_3 = true ∧ (c13_33.port ↑port_3).peerProposal = none ∧ (calibrated (c13_33.port port_3) 0x0F c13_33.now).wish
      c13_33.now = none) := by decide +kernel
def failing7 : State := lk { (up {}) with failing := 0x80 }
def proposed : State := lk { (up {}) with peerProposal := some 0x0F }
theorem witness_WidthChanges_proposals :
    (failing7.calDue 3 = true ∧ (failing7.port 3).peerProposal = none ∧
      (calibrated (failing7.port 3) 0x0F failing7.now).wish failing7.now = some 0x0F ∧ (failing7.port 3).proposal ≠ some 0x0F ∧
      (0x0F : Byte) ≠ (failing7.port 3).lanes) ∧
    (proposed.calDue 3 = true ∧ (proposed.port 3).peerProposal = some 0x0F) := by decide +kernel

/-! ## Fabric transport -/

/-! fabric -/
def fp (ty : Byte) (cls : BitVec 2) : FabPacket := { pk0 with ptype := ty, cls := cls, flock := 1, srcRank := 2, win := 0, dstChip := 0, srcChip := 5 }
def fpas : Pasture := { pas0 with started := true, flockId := 1, rank0 := [(0, 0x80000000)] }
def fab (q : List FabPacket) (x : Pasture) : State := { (livep (fun _ => x) {}) with fabric := { inq := q }, ports := [(3, { (up {}) with lastRole := 0x1F })] }
def rx (n : Nat) (p : FabPacket) (routes : SMap (BitVec 32)) : State := { (fab [] fpas) with ports := [(n, { (up {}) with rxLanes := [(2, [p])] })], fabric := { route0 := routes } }
def winS : Window := { state := 1, landing := false, base := 0, size := 16, rankLo := 0, rankHi := 9, pool := 4, held := 1 }
def trk : Tracker := { win := 0, rank := 2, xfer := 7, units := 1, chip := 5 }
def wpas (t : List Tracker) : Pasture := { fpas with windows := [(0, winS)], trackers := t }
def dpk : FabPacket := FabPacket.sealed { fp 0x01 1 with data := List.replicate 64 1, last := true, count := 1 }
def wfab (q : List FabPacket) (t : List Tracker) : State := fab q (wpas t)
def landedE (last : Option Nat) : State := { wfab [] [trk] with net := [{ pkt := .landed 0 0 2 7 64 last, ready := some 0 }] }
def snd (st : SendStage) (w : BitVec 256) : Sending := { entry := 2, words := w, stage := st, xfer := 7 }
def spas (d : Sending) : Pasture := { fpas with sending := [d], rank0 := [(0, 0x80000000), (2, 0x80000005)] }
def sfab (ty : Byte) (d : Sending) : State := fab [FabPacket.sealed (fp ty 1)] (spas d)
def wLen : BitVec 256 := BitVec.ofNat 256 (2^255 + 2 * 2^232 + 64 * 2^72)

def fl0 : State := { (fab [] { fpas with started := false, flockSize := 1, rank0 := [(0, 0x80000001)] }) with links := { plan := some { selfChip := 1 }, planState := 2 } }
def crq := FabPacket.sealed (fp 2 1)
def crt := FabPacket.sealed (fp 4 1)
def wAcq : BitVec 256 := wLen ||| BitVec.ofNat 256 (2 * 2^253)
def nb : FabPacket := FabPacket.sealed { fp 5 1 with status := St.FAB_WIN_BUSY }
def wOrd : BitVec 256 := wLen ||| BitVec.ofNat 256 (2^252)
def dr (d : Sending) : Sending := { d with drove := true }
def hp : HeldPacket := { since := 0, why := .lost 3, pkt := fp 1 0 }

def stk0 := (xfS (tr true [])).stks
def sx (s : State) : State := { s with stks := stk0 }
def bt := (((sx (wfab [] [trk])).modPas 0 fun x => x.modTracker trk fun o => { o with accepted := o.accepted + 64, time := 10^15 }).landData 0 winS dpk).1
def flk (n : Nat) : State := (fab [] fpas)

def asked (s : State) (p : PasId) (k : Fin 3) (value : Word) : State :=
  s.modPas p fun x => { x with ordRes := (ordRoles k).foldl (fun m r => smapPut m r (BitVec.ofNat 8 (value.toNat / 2 ^ (8 * (r % 8))))) x.ordRes }
def raised (s : State) (p : PasId) (value : Word) (r : Nat) : Bool :=
  decide (smapGet 0 (s.pasture p).ordRes r < (BitVec.ofNat 8 (value.toNat / 2 ^ (8 * (r % 8))) : Byte))
def noted (t : Tracker) (last : Option Nat) (now : Nat) : Tracker :=
  { t with landed := t.landed + 1, bytes := t.bytes + 64, time := now
           count := match last with | some n => some n | none => t.count }
def c14_2 : State := (rx 18 (fp 1 1) [])
def c14_3 : FabPacket := (fp 1 1)
def c14_4 : List FabPacket := []
def c14_5 : State := (rx 18 (fp 0x10 2) [])
def c14_6 : FabPacket := (fp 0x10 2)
def c14_8 : State := (rx 3 (fp 1 1) [])
def c14_9 : State := (rx 3 (fp 9 1) [])
def c14_10 : FabPacket := (fp 9 1)
def c14_11 : State := (rx 3 { fp 1 1 with hops := 1 } [])
def c14_12 : FabPacket := { fp 1 1 with hops := 1 }
def c14_13 : State := (rx 3 (fp 1 1) [(0, 0xC0000000)])
def c14_14 : State := (rx 3 (fp 1 1) [(0, 0x80000008)])
def c14_15 : State := (rx 3 (fp 1 1) [(0, 0x80000010)])
def c14_16 : HoldReason := (.lost 4)
theorem witness_PacketForwarding_1 :
    (18 ≤ ↑port_18 ∧ smapGet [] (c14_2.port ↑port_18).rxLanes ↑fin5_2 = c14_3 :: c14_4 ∧ (c14_3.isBad = true ∨ c14_3.cls ≠ 2) ∧ c14_3.isBad = false ∧
      c14_3.cls ≠ 2 ∧ c14_3.hops ≠ 1 ∧ c14_3.drove = false ∧ c14_2.routeEntry c14_3.dstChip = (c14_2, 0) ∧ c14_2.routeOf 0 (c14_3.withHops (c14_3.hops
      - 1)) = Route.noRoute) ∧
    (18 ≤ ↑port_18 ∧ smapGet [] (c14_5.port ↑port_18).rxLanes ↑fin5_2 = c14_6 :: c14_4 ∧ c14_6.isBad = false ∧ c14_6.cls = 2 ∧ (c14_6.isBad = true ∨
      c14_6.cls = 2)) ∧
    (↑port_3 < 18 ∧ smapGet [] (c14_8.port ↑port_3).rxLanes ↑fin5_2 = c14_3 :: c14_4) ∧
    (c14_12.isBad = false ∧ c14_12.cls ≠ 2 ∧ c14_12.hops = 1) := by decide +kernel
theorem witness_PacketForwarding_2 :
    (c14_3.isBad = false ∧ c14_3.cls ≠ 2 ∧ c14_3.hops ≠ 1 ∧ c14_3.drove = false ∧ c14_13.routeEntry c14_3.dstChip = (c14_13, 3221225472) ∧ c14_13.routeOf
      3221225472 (c14_3.withHops (c14_3.hops - 1)) = Route.deliver) ∧
    (c14_3.isBad = false ∧ c14_3.cls ≠ 2 ∧ c14_3.hops ≠ 1 ∧ c14_3.drove = false ∧ c14_15.routeEntry c14_3.dstChip = (c14_15, 2147483664) ∧ c14_15.routeOf
      2147483664 (c14_3.withHops (c14_3.hops - 1)) = Route.hold c14_16) := by decide +kernel
def c14_17 : State := (rx 3 (fp 1 0) [])
def c14_18 : FabPacket := (fp 1 0)
theorem witness_RouteChoice :
    (bitAt (0 : BitVec 32) 31 = false) ∧
    (bitAt (3221225472 : BitVec 32) 31 = true ∧ bitAt (3221225472 : BitVec 32) 30 = true) ∧
    (bitAt (2197815296 : BitVec 32) 31 = true ∧ bitAt (2197815296 : BitVec 32) 30 = false ∧ c14_18.cls = 0 ∧ c14_17.fabric.draining = false ∧ bitAt
      (2197815296 : BitVec 32) 29 = false) ∧
    (bitAt (2147483656 : BitVec 32) 31 = true ∧ bitAt (2147483656 : BitVec 32) 30 = false ∧ c14_3.cls = 1 ∧ c14_8.routeOf 2147483656 c14_3 = Route.port 3) := by decide +kernel
def c14_22 : State := { fl0 with links := {} , fabric := { routeTrigEn := true } }
def c14_23 : State := { (fab [] { fpas with runs := [runC .queued] }) with fabric := { route1 := [(4, 0x20000000)] }, links := { plan := some { entries := [{ peerChip := 1 }, { peerChip := 2 }] }, lports := [(0, 3)] } }
def c14_24 : State := (fab [] fpas)
theorem witness_FlocksAndTables :
    (fl0.mayWrite ↑fn_0 ↑pas_0 = true ∧ fl0.flockOk ↑pas_0 = true ∧ (fl0.pasture ↑pas_0).runs = [] ∧ fl0.fabric.routeTrigEn = false ∧ fl0.swapBad = false
      ∧ (∀ r ∈ ordRoles fin3_0, raised fl0 pas_0 0 r = true → 40 * (asked fl0 pas_0 fin3_0 0).reserved r ≤ 3 * fl0.roleRate r)) ∧
    (c14_22.mayWrite ↑fn_0 ↑pas_0 = true ∧ c14_22.flockOk ↑pas_0 = false ∧ c14_22.fabric.routeTrigEn = true ∧ (∃ r ∈ ordRoles fin3_0, raised c14_22 pas_0
      0x0100000000 r = true ∧ 3 * c14_22.roleRate r < 40 * (asked c14_22 pas_0 fin3_0 0x0100000000).reserved r)) ∧
    (c14_23.mayWrite ↑fn_0 ↑pas_0 = true ∧ (c14_23.pasture ↑pas_0).runs ≠ [] ∧ c14_23.fabric.routeTrigEn = false ∧ c14_23.swapBad = true) := by decide +kernel
def c14_25 : Option ℕ := none
def c14_26 : State := (wfab [dpk] [trk])
def c14_27 : State := (wfab [] [trk])
def c14_28 : State := (((wfab [] [{ trk with accepted := 64, time := 10^15 }]).stackWrite 0 0 dpk.data))
def c14_29 : List Byte := []
def c14_30 : Option ℕ := (some 1)
def c14_31 : State := (landedE (some 1))
def c14_32 : State := (landedE none)
def c14_33 : State := (wfab [crq] [trk])
def c14_34 : State := (wfab [crt] [trk])
theorem witness_WindowTraffic :
    ((c14_26.pasture ↑pas_0).tracker (0) 2 7 = some trk ∧ (c14_26.pasture ↑pas_0).trackIdleUs.toNat * usT ≤ c14_26.now - trk.time) ∧
    (c14_31.arrives 0 = some (Packet.landed 0 0 2 7 64 c14_30, c14_27) ∧ (c14_27.pasture 0).tracker 0 (2#12) 7 = some trk ∧ (noted trk c14_30
      c14_27.now).count = some (noted trk c14_30 c14_27.now).landed ∧ (noted trk c14_30 c14_27.now).broken = false) ∧
    (c14_32.arrives 0 = some (Packet.landed 0 0 2 7 64 c14_25, c14_27) ∧ (c14_27.pasture 0).tracker 0 (2#12) 7 = some trk ∧ (noted trk c14_25
      c14_27.now).count ≠ some (noted trk c14_25 c14_27.now).landed) ∧
    (c14_33.takePacket 0 2 = some (crq, c14_27) ∧ c14_27.pasOfFlock crq.flock = some 0) ∧
    (c14_34.takePacket 0 4 = some (crt, c14_27) ∧ c14_27.pasOfFlock crt.flock = some 0 ∧ (c14_27.pasture 0).tracker crt.win.toNat crt.srcRank crt.xfer =
      some trk) := by decide +kernel
def c14_35 : State := (wfab [] [])
def c14_36 : State := (fab [] { fpas with windows := [(0, { winS with state := 2 })] })
def c14_37 : State := (fab [] { fpas with windows := [(0, { winS with rankLo := 5 })] })
def c14_38 : State := (fab [] { fpas with windows := [(0, { winS with queue := (List.range 64).map fun i => (9, BitVec.ofNat 32 i, 100, 5) })] })
theorem witness_CreditRequests :
    (((c14_27.pasture 0).window crq.win.toNat).state = 1 ∧ ((c14_27.pasture 0).window crq.win.toNat).allows crq.srcRank.toNat = true ∧ (c14_27.pasture
      0).tracker crq.win.toNat crq.srcRank crq.xfer = some trk) ∧
    (((c14_35.pasture 0).window crq.win.toNat).state = 1 ∧ ((c14_35.pasture 0).window crq.win.toNat).allows crq.srcRank.toNat = true ∧ (c14_35.pasture
      0).tracker crq.win.toNat crq.srcRank crq.xfer = none ∧ (∀ e ∈ ((c14_35.pasture 0).window crq.win.toNat).queue, ¬(e.1 = crq.srcRank ∧ e.2.1 =
      crq.xfer)) ∧ ((c14_35.pasture 0).window crq.win.toNat).queue.length < 64) ∧
    (((c14_24.pasture 0).window crq.win.toNat).state = 0) ∧
    (((c14_36.pasture 0).window crq.win.toNat).state = 2) ∧
    (((c14_37.pasture 0).window crq.win.toNat).state = 1 ∧ ((c14_37.pasture 0).window crq.win.toNat).allows crq.srcRank.toNat = false) ∧
    (((c14_38.pasture 0).window crq.win.toNat).state = 1 ∧ ((c14_38.pasture 0).window crq.win.toNat).allows crq.srcRank.toNat = true ∧ (c14_38.pasture
      0).tracker crq.win.toNat crq.srcRank crq.xfer = none ∧ (∀ e ∈ ((c14_38.pasture 0).window crq.win.toNat).queue, ¬(e.1 = crq.srcRank ∧ e.2.1 =
      crq.xfer)) ∧ 64 ≤ ((c14_38.pasture 0).window crq.win.toNat).queue.length) := by decide +kernel
def c14_39 : FabPacket := (FabPacket.sealed (fp 3 1))
def c14_40 : State := (sfab 3 (snd .waitCredit wLen))
def c14_41 : State := (fab [] (spas (snd .waitCredit wLen)))
def c14_42 : Sending := (snd .waitCredit wLen)
def c14_43 : State := (sfab 3 (snd .waitCredit wAcq))
def c14_44 : State := (fab [] (spas (snd .waitCredit wAcq)))
def c14_45 : Sending := (snd .waitCredit wAcq)
def c14_46 : FabPacket := (FabPacket.sealed (fp 5 1))
def c14_47 : State := (sfab 5 (snd .waitCredit wLen))
def c14_48 : State := (fab [nb] (spas (snd .waitCredit wLen)))
def c14_49 : FabPacket := (FabPacket.sealed (fp 6 1))
def c14_50 : State := (sfab 6 (snd .waitCredit wLen))
def c14_51 : FabPacket := (FabPacket.sealed (fp 7 1))
def c14_52 : State := (sfab 7 (snd .waitCredit wLen))
theorem witness_SendReplies_1 :
    (c14_41.pasOfFlock c14_39.flock = some 0 ∧ (c14_41.pasture 0).sendingAt c14_39.xfer = some c14_42 ∧ c14_40.takePacket 0 3 = some (c14_39, c14_41) ∧
      c14_42.stage = SendStage.waitCredit ∧ c14_42.drove = false ∧ sendOp c14_42.words ≠ 2) ∧
    (c14_44.pasOfFlock c14_39.flock = some 0 ∧ (c14_44.pasture 0).sendingAt c14_39.xfer = some c14_45 ∧ c14_43.takePacket 0 3 = some (c14_39, c14_44) ∧
      c14_45.stage = SendStage.waitCredit ∧ c14_45.drove = false ∧ sendOp c14_45.words = 2) ∧
    (c14_41.pasOfFlock c14_46.flock = some 0 ∧ (c14_41.pasture 0).sendingAt c14_46.xfer = some c14_42 ∧ c14_47.takePacket 0 5 = some (c14_46, c14_41) ∧
      c14_46.status ≠ St.FAB_WIN_BUSY ∧ c14_42.drove = false) ∧
    (c14_41.pasOfFlock nb.flock = some 0 ∧ (c14_41.pasture 0).sendingAt nb.xfer = some c14_42 ∧ c14_48.takePacket 0 5 = some (nb, c14_41) ∧ nb.status =
      St.FAB_WIN_BUSY) := by decide +kernel
theorem witness_SendReplies_2 :
    (c14_41.pasOfFlock c14_49.flock = some 0 ∧ (c14_41.pasture 0).sendingAt c14_49.xfer = some c14_42 ∧ c14_50.takePacket 0 6 = some (c14_49, c14_41) ∧
      c14_42.drove = false) ∧
    (c14_41.pasOfFlock c14_51.flock = some 0 ∧ (c14_41.pasture 0).sendingAt c14_51.xfer = some c14_42 ∧ c14_52.takePacket 0 7 = some (c14_51, c14_41)) := by decide +kernel
def c14_53 : State := (fab [] (spas (snd .waitDone wLen)))
def c14_54 : Sending := (snd .waitDone wLen)
def c14_55 : State := (fab [] (spas (dr (snd .waitCredit wLen))))
def c14_56 : Sending := (dr (snd .waitCredit wLen))
def c14_57 : State := (fab [] (spas (dr (snd .waitCredit wOrd))))
def c14_58 : Sending := (dr (snd .waitCredit wOrd))
def c14_59 : State := { (fab [] fpas) with fabric := { draining := true, held := [hp] } }
theorem witness_FabricTimers_1 :
    ((c14_41.pasture ↑pas_0).sending = [c14_42] ∧ c14_42.entry = 2 ∧ c14_42.stage = SendStage.waitCredit ∧ c14_42.drove = false ∧ (c14_41.pasture
      ↑pas_0).creditUs.toNat * usT ≤ c14_41.now - c14_42.reqTime) ∧
    ((c14_53.pasture ↑pas_0).sending = [c14_54] ∧ c14_54.entry = 2 ∧ c14_54.stage = SendStage.waitDone ∧ c14_54.srcDone = false ∧ c14_54.drove = false ∧
      (c14_53.pasture ↑pas_0).doneUs.toNat * usT ≤ c14_53.now - c14_54.lastTime) ∧
    ((c14_55.pasture ↑pas_0).sending = [c14_56] ∧ c14_56.entry = 2 ∧ c14_56.stage = SendStage.waitCredit ∧ c14_56.drove = true ∧ (c14_55.pasture
      ↑pas_0).droveUs.toNat * usT ≤ c14_55.now - c14_56.start ∧ sendOrdered c14_56.words = false) ∧
    ((c14_57.pasture ↑pas_0).sending = [c14_58] ∧ c14_58.entry = 2 ∧ c14_58.stage = SendStage.waitCredit ∧ c14_58.drove = true ∧ (c14_57.pasture
      ↑pas_0).droveUs.toNat * usT ≤ c14_57.now - c14_58.start ∧ sendOrdered c14_58.words = true) := by decide +kernel
theorem witness_FabricTimers_2 :
    c14_59.fabric.draining = true ∧ c14_59.fabric.ordDrain.toNat * usT ≤ c14_59.now - c14_59.fabric.swapTime ∧ c14_59.fabric.held = [hp] ∧ hp.why =
      HoldReason.lost ↑port_3 ∧ c14_59.fabric.ordHoldUs.toNat * usT ≤ c14_59.now - hp.since := by decide +kernel
def c14_60 : State := (fab [] { wpas [trk] with windows := [(0, { winS with queue := [(3, 1, 2, 5)] , doneUnits := 5}), (1, winS)] })
theorem witness_WindowUnitsAreConserved :
    ((c14_27.pasture 0).window 0).isOpen = true := by decide +kernel
def routed : State := rx 3 (fp 1 1) [(0, 0x80000008)]
theorem witness_PacketForwarding_port : routed.routeEntry (fp 1 1).dstChip = (routed, 0x80000008) ∧
    routed.routeOf 0x80000008 ((fp 1 1).withHops ((fp 1 1).hops - 1)) = .port 3 := by decide +kernel

def c15_0 : Option ℕ := none
def c15_2 : State := (sx (wfab [dpk] [trk]))
def c15_3 : State := (sx (wfab [] [trk]))
def c15_4 : List Byte := []
theorem witness_WindowTraffic_data :
    c15_2.takePacket 0 1 = some (dpk, c15_3) ∧ c15_3.pasOfFlock dpk.flock = some 0 ∧ c15_3.dataNak 0 ((c15_3.pasture 0).window dpk.win.toNat) dpk = none ∧
      c15_3.landBusy ((c15_3.pasture 0).window dpk.win.toNat) dpk = false ∧ dpk.cls = 1 ∧ dpk.drove = false ∧ (c15_3.pasture 0).tracker dpk.win.toNat
      dpk.srcRank dpk.xfer = some trk ∧ trk.accepted + dpk.data.length ≤ trk.units * 4096 ∧ ((c15_3.modPas 0 fun x => x.modTracker trk fun o => { o
      with accepted := o.accepted + dpk.data.length, time := c15_3.now }).landData 0 ((c15_3.pasture 0).window dpk.win.toNat) dpk = (bt, .ok c15_4)) ∧
      (c15_2.pasture ↑pas_0).tracker (0) 2 7 = some trk ∧ (c15_2.pasture ↑pas_0).trackIdleUs.toNat * usT ≤ c15_2.now - trk.time := by decide +kernel

/-! ## Management and registers -/

/-! management -/
def rq (op idx sub ty : Nat) (d : List Byte) : List Byte := [1, BitVec.ofNat 8 op, 0, 0] ++ bytesOf 2 idx ++ [BitVec.ofNat 8 sub, BitVec.ofNat 8 ty] ++ bytesOf 4 0 ++ bytesOf 2 d.length ++ bytesOf 2 0 ++ d
def mq (b : List Byte) : MgtReq := { source := 5, time := 3, bytes := b }
def mS (m : Mgt) : State := { ready with mgt := m, boot := { ready.boot with gridW := 0, colMap := [] }, fns := [(0, { enabled := true })] }
def m1 (b : List Byte) : State := mS { queue := [mq b] }

def obj (s : State) (i j : Nat) : Obj := (s.object i j).getD { type := 0, access := .ro, value := [] }
def ident := rq 3 0 0 0 []
def oo := obj (mS {}) 0x1010 2
def rd := rq 1 0x1010 2 0 []
def rdx := rq 1 0x1FFF 2 0 []
def wr := rq 2 0x1010 2 oo.type [9]
def wrx := rq 2 0x1010 2 7 [9]
def po := obj (mS {}) 0x6010 1
def wp := rq 2 0x6010 1 po.type [1]
def busyW : State := { (m1 wp) with pas := [(0, pas0)], boot := { ready.boot with gridW := 4, colMap := [(0,0),(1,1),(2,2),(3,3)] } }
def vs : State := { (mS {}) with fns := [(0, { enabled := true }), (1, { enabled := true })] }
def nx (o : Out) : State := match o with | .next t => t | _ => vs

def dequeued (s : State) : State := { s with mgt := { s.mgt with queue := [] } }
def ends (o : Out) (t : State) : Bool := match o with | .next u => decide (u = t) | .fault _ | .refused _ => false
def c16_0 : State := (mS {})
def c16_1 : MgtReq := (mq ident)
def c16_2 : List MgtReq := []
def c16_3 : State := (mS { queue := List.replicate 16 (mq ident) })
def c16_4 : State := (mS { busy := true })
def c16_5 : State := (m1 rd)
def c16_6 : MgtReq := (mq rd)
def c16_7 : State := (m1 rdx)
def c16_8 : MgtReq := (mq rdx)
def c16_9 : State := (m1 wr)
def c16_10 : State := ((mS {}).persisted .nodeCount fun m => { m with nodeCount := 9 })
def c16_11 : MgtReq := (mq wr)
def c16_12 : State := (m1 wrx)
def c16_13 : MgtReq := (mq wrx)
def c16_14 : State := (m1 ident)
theorem witness_ManagementRequests :
    (c16_0.mgtUp = true ∧ c16_0.mgt.line ≠ 1 ∧ (true = true → mgtOp ident = 3) ∧ ((List.filter (fun q => !q.mailbox) c16_0.mgt.queue).length < 16) ∧
      c16_0.mgt.busy = false) ∧
    (c16_3.mgtUp = true ∧ c16_3.mgt.line ≠ 1 ∧ (true = true → mgtOp ident = 3) ∧ (16 ≤ (List.filter (fun q => !q.mailbox) c16_3.mgt.queue).length)) ∧
    (c16_4.mgtUp = true ∧ c16_4.mgt.busy = true) ∧
    (Claims.request c16_5 1 c16_6 c16_2 = true ∧ (dequeued c16_5).object (mgtIndex c16_6.bytes) (mgtSub c16_6.bytes) = some oo ∧ (mgtType c16_6.bytes = 0
      ∨ mgtType c16_6.bytes = oo.type)) ∧
    (Claims.request c16_7 1 c16_8 c16_2 = true ∧ (dequeued c16_7).object (mgtIndex c16_8.bytes) (mgtSub c16_8.bytes) = none) ∧
    (Claims.request c16_9 2 c16_11 c16_2 = true ∧ (dequeued c16_9).object (mgtIndex c16_11.bytes) (mgtSub c16_11.bytes) = some oo ∧ oo.writeRejection
      (mgtIndex c16_11.bytes) (mgtSub c16_11.bytes) (mgtType c16_11.bytes) (List.drop 16 c16_11.bytes) = none ∧ (dequeued c16_9).writeObject (mgtIndex
      c16_11.bytes) (mgtSub c16_11.bytes) (c16_11.bytes.drop 16) = .inl c16_10) ∧
    (Claims.request c16_12 2 c16_13 c16_2 = true ∧ (dequeued c16_12).object (mgtIndex c16_13.bytes) (mgtSub c16_13.bytes) = some oo ∧ oo.writeRejection
      (mgtIndex c16_13.bytes) (mgtSub c16_13.bytes) (mgtType c16_13.bytes) (List.drop 16 c16_13.bytes) = some (2, St.MGT_TYPE)) ∧
    (Claims.request c16_14 3 c16_1 c16_2 = true) := by decide +kernel
def c16_15 : MgtReq := (mq wp)
def c16_16 : Status := ((busyW.parkRefusal .west).getD 0)
theorem witness_RefusedManagementWrites :
    Claims.request busyW 2 c16_15 c16_2 = true ∧ (dequeued busyW).object (mgtIndex c16_15.bytes) (mgtSub c16_15.bytes) = some po ∧ po.writeRejection
      (mgtIndex c16_15.bytes) (mgtSub c16_15.bytes) (mgtType c16_15.bytes) (List.drop 16 c16_15.bytes) = none ∧ (dequeued busyW).writeObject (mgtIndex
      c16_15.bytes) (mgtSub c16_15.bytes) (c16_15.bytes.drop 16) = .inr c16_16 := by decide +kernel
def c16_17 : State := (mS { dirty := [(.nodeCount, 3)] })
def c16_18 : State := (mS { line := 1, lineGone := some 0, conflict := some 0 })
theorem witness_ManagementUpkeep :
    (c16_17.mgtUp = true ∧ ((c16_17.mgt.dirty.any fun d => decide (d.1 = PersistItem.nodeCount)) = true) ∧ c16_17.mgt.line ≠ 1 ∧ c16_17.mgt.line ≠ 2 ∧
      c16_17.mgt.line ≠ 3) ∧
    (c16_18.mgtUp = true ∧ c16_18.mgt.line ≠ 0 ∧ c16_18.mgt.lineGone = some 0 ∧ 0 + 1000 * msT ≤ c16_18.now ∧ c16_18.mgt.conflict = some 0) := by decide +kernel
def c16_21 : State := { (mS {}) with pas := [(0, pas0)] }
def c16_23 : State := { (mS {}) with pas := [(0, pas0)], boot := { (mS {}).boot with mode := 1, ready := false } }
def c16_26 : State := { (mS {}) with fns := [(0, { enabled := true }), (1, { enabled := true })] }
def c16_27 : State := { (mS {}) with fns := [(0, { enabled := true }), (1, { enabled := true })], boot := { (mS {}).boot with crs := false } }
theorem witness_RegisterWrites :
    (c16_21.hostUp = true ∧ c16_21.fnOn ↑fn_0 = true ∧ bitAt (1 : Word) 0 = true ∧ c16_21.boot.mode = 0 ∧ c16_21.boot.crs = false) ∧
    (c16_23.hostUp = true ∧ c16_23.fnOn ↑fn_0 = true ∧ bitAt (20015998343868 : Word) 0 = false ∧ c16_23.boot.mode ≠ 0) ∧
    (c16_26.hostUp = true ∧ c16_26.fnOn ↑fn_1 = true ∧ fn_1 ≠ 0) := by decide +kernel
def goOf (step : Nat) : Word := BitVec.ofNat 64 (2 ^ 63 + step)
theorem witness_RegisterWrites_step :
    (c16_23.hostUp = true ∧ c16_23.fnOn ↑fn_0 = true ∧ c16_23.boot.mode ≠ 0 ∧ bitAt (goOf 9) 63 = true ∧ field (goOf 9) 7 0 ∈ [2, 4, 5, 6, 7, 8, 9]) ∧
    (bitAt (goOf 3) 63 = true ∧ field (goOf 3) 7 0 ∉ [2, 4, 5, 6, 7, 8, 9] ∧ c16_23.boot.done.contains 3 = true ∧ c16_23.boot.mgmtOnly = false) ∧
    bitAt (goOf 3 &&& 0x7FFF) 63 = false := by decide +kernel
/-- GO with a step that bring-up does not have is refused as out of order (R422). -/
theorem test_go_without_step : (nx (exec (.registerWrite 0 .bar2 0xF008 (goOf 3)) c16_23)).boot.lastStatus = St.BOOT_STEP_ORDER := by decide +kernel
def c16_28 : State := (nx (exec (.registerWrite 1 .bar0 0x1418 0xFF) vs))
def c16_29 : State := (nx (exec (.registerWrite 1 .bar0 0x11418 0xFF) vs))
def c16_30 : State := (nx (exec (.registerWrite 1 .bar2 0x10 0xFF) vs))
theorem witness_VirtualFunctionsKeepToTheirPasture :
    (fn_1 ≠ 0 ∧ ends (exec (Instr.registerWrite fn_1 RegSpace.bar0 5144 255) vs) c16_28 = true) ∧
    (fn_1 ≠ 0 ∧ ends (exec (Instr.registerWrite fn_1 RegSpace.bar0 70680 255) vs) c16_29 = true ∧ (RegSpace.bar0 ≠ RegSpace.bar0 ∨ 65536 ≤ 70680 ∨ 70680 %
      8 ≠ 0 ∨ (vs.func ↑fn_1).enabled = false)) := by decide +kernel

/-- A self-test of pasture 1 that a reset of pasture 0 leaves. -/
def tested : State := { busy with
  pas := [(0, pas0), (1, { enable := true, col0 := 2, width := 2, inTest := true })]
  rel := { busy.rel with tests := [{ kind := .tileBist, target := 1, seq := 0, since := 0, running := true }] } }
theorem witness_PastureResets_tests :
    (tested.boot.everReady = true ∧ tested.mayWrite 0 0 = true ∧ ((tested.resetPasture 0 true).pasture 1).inTest = true) ∧
    ((busy.pasture 0).loading = none ∧ busy.xfers = [] ∧ busy.rel.tests = []) ∧ 0 ∈ busy.ownTiles 0 := by decide +kernel
def soon : State := tst { eye with since := 10 ^ 15 } bare
theorem witness_SelfTestEnds_starts :
    (c10_11.testUnderWay .eyeScan 3 = some eye ∧ eye.since + 1000 * msT < c10_11.now) ∧
    (soon.testUnderWay .eyeScan 3 = some { eye with since := 10 ^ 15 } ∧ soon.testIdle { eye with since := 10 ^ 15 } = true ∧
      soon.now ≤ 10 ^ 15 + 1000 * msT) := by decide +kernel
/-- A run with an I/O element of KIND 0, at tile (0, 0), or of KIND 1, for its inputs and outputs. -/
def ioRun (stage : RunStage) : Run :=
  { runC stage with inN := 1, outN := 1, entry := { declBeats := 9, inBytes := 64, outBytes := 64 } }
def ioS (stage : RunStage) (kind : Byte) (t : Tile) : State := { runS (ioRun stage) with
  hostMem := [(8, 64)] ++ (if kind = 1 then [(12, 1)] else []), tiles := [(0, t)]
  stks := [(0, { own := [{ valid := true, pas := 0 }, {}, {}, {}, {}, {}, {}, {}] })] }
def elems (s : State) : List IoElem := s.ioList 0 1
def off1 : Tile := { quarantined := true }
theorem witness_RunStages_3 :
    (((ioS .queued 1 {}).pasture 0).runs = [ioRun .queued] ∧ ((ioS .queued 1 {}).pasture 0).takesRun = true ∧
      ((ioS .queued 1 {}).refreshStore 0).listOk 0 (elems (ioS .queued 1 {})) 64 = true ∧ ∃ e ∈ elems (ioS .queued 1 {}), e.kind = 1) ∧
    (((ioS .queued 0 off1).pasture 0).takesRun = true ∧ ((ioS .queued 0 off1).refreshStore 0).listOk 0 (elems (ioS .queued 0 off1)) 64 = true ∧
      (∀ e ∈ elems (ioS .queued 0 off1), e.kind ≠ 1) ∧
      (((ioS .queued 0 off1).refreshStore 0).ingress 0 (elems (ioS .queued 0 off1))).2.1.isSome = true) ∧
    ((ioS .recorded 1 {}).listOk 0 (elems (ioS .recorded 1 {})) 64 = true ∧ ∃ e ∈ elems (ioS .recorded 1 {}), e.kind = 1) ∧
    ((ioS .recorded 0 off1).listOk 0 (elems (ioS .recorded 0 off1)) 64 = true ∧
      ((ioS .recorded 0 off1).egress 0 (elems (ioS .recorded 0 off1))).2.1.isSome = true) ∧
    (ioS .recorded 0 {}).listOk 0 (elems (ioS .recorded 0 {})) 63 = false := by decide +kernel
def held4 : State := { g4 with tiles := [(0, off1)] }
theorem witness_PastureStartAndStop_quarantined :
    held4.boot.ready = true ∧ (held4.pasture 0).enable = false ∧ held4.startRefusal 0 0 4 = none ∧
      (opened 0 0 4 held4).applyAuto.hasQuarantine 0 = true ∧ (c11_27.pasture 0).enable = true ∧ (c11_27.pasture 0).col0 ≠ 9 ∧
      ({ g4 with boot := { g4.boot with ready := false } } : State).boot.ready = false := by decide +kernel
/-- A spill whose page can be read, with its store on the link, and the same link down. -/
def spill (st : PortState) : State := { xfS (tr false []) with ports := [(18, { state := st, role := 18, peerChip := 5 })] }
theorem witness_ContextTransfers_pages :
    (c12_2.xferOf 0 c12_1 true = some c12_3) ∧ (c12_2.storeReachable c12_3 = false) ∧ ((spill .down).port 18).state.carries = false ∧
    (spill .active).storeReachable (tr false []) = true ∧ ((spill .active).port 18).state.carries = true ∧
    ((spill .active).fetchBurst 0 0).2.isSome = true := by decide +kernel
def unread (s : State) : State := { s with fns := s.fns.map fun kf => (kf.1, { kf.2 with bufferFails := true }) }
def restarts (s : State) : State := { s with rel := { s.rel with restartEnd := s.now + 1 } }
theorem witness_AttestationAndRecords_reads :
    (restarts c12_13).restarting = true ∧ (c12_13.restarting = false ∧ ((c12_13.fetched 0 0).func 0).bufferFails = false) ∧
    (Claims.security (unread c12_13) 0 0 c12_14 c12_15 2 = true ∧ (((unread c12_13).fetched 0 0).func 0).bufferFails = true) ∧
    (Claims.security (unread c12_19) 0 0 c12_14 c12_20 4 = true ∧ (((unread c12_19).fetched 0 0).func 0).bufferFails = true) ∧
    (((c12_19.fetched 0 0).chainAnswer (entPas c12_20) (leAt ((c12_19.fetched 0 0).readHost (entSrc c12_20) (entLen c12_20)) 0 1)).isRight = true) := by
  decide +kernel

def noPlanPeer : State := lk (up { peerVmin := 1, peerVmax := 1, peerChip := 0xFFFF })
def trains (s : State) : Bool := !s.portDead 3 && s.facts.hasReference 3 && s.power.rails
theorem witness_PlanAndRetrain_trains :
    ((noPlanPeer.port 3).peerChip = 0xFFFF ∧ (noPlanPeer.port 3).peerVmin ≤ 1 ∧ 1 ≤ (noPlanPeer.port 3).peerVmax) ∧
    (trains c13_14 = true ∧ trains c13_17 = true ∧ trains { c13_14 with power := { c13_14.power with rails := false } } = false) := by decide +kernel
/-- A drove's packet, whose drove has a member here, none here, and no entry. -/
def droveP : FabPacket := { fp 1 1 with drove := true, drv := 2 }
def droves (d : Drove) : State := { fab [] fpas with fabric := { droves := [(2, d)] } }
theorem witness_PacketForwarding_drove :
    (droveP.isBad = false ∧ droveP.cls ≠ 2 ∧ droveP.hops ≠ 1) ∧
    (smapGet {} (droves {}).fabric.droves 2).valid = false ∧ (smapGet {} (droves { valid := true, fwd := 8 }).fabric.droves 2).valid = true ∧
    (droves {}).portOfRole 3 = some 3 ∧ (droves {}).portOfRole 4 = none := by decide +kernel
/-- Logical port 2 with role 3 as its member, with a flow's last member given, and an entry that names it. -/
def lport (x : Fabric) : State := { fab [] fpas with fabric := x, links := { lports := [(2, 8)] } }
def viaLp : BitVec 32 := 0xA2000000
theorem witness_RouteChoice_ordLp :
    (bitAt viaLp 31 = true ∧ bitAt viaLp 30 = false ∧ bitAt viaLp 29 = true ∧ field viaLp 28 24 = 2 ∧ (lport {}).fabric.draining = false) ∧
    (lport {}).lportMembers 2 = [3] ∧ (lport {}).portOfRole 3 = some 3 ∧ (fab [] fpas).lportMembers 2 = [] ∧
    smapFind (lport {}).fabric.ordMember (fp 1 0).flowKey = none ∧
    smapFind (lport { ordMember := [((fp 1 0).flowKey, 4)] }).fabric.ordMember (fp 1 0).flowKey = some 4 ∧
    ((lport { draining := true }).fabric.draining = true ∧ field viaLp 29 24 ≠ field ((lport { draining := true }).otherEntry 0) 29 24) ∧
    (∀ r < 18, bitAt (0x80000010 : BitVec 32) r = true → (lport {}).portOfRole r = none) := by decide +kernel
def spoilt : State := { fl0 with pas := fl0.pas.map fun kp => (kp.1, { kp.2 with badRanks := [7] }) }
theorem witness_FlocksAndTables_reads :
    (spoilt.pasture 0).badRanks.contains 7 = true ∧ (fl0.pasture 0).badRanks = [] ∧
    (let s := fl0.checkRanks 0 ((fl0.pasture 0).selfRank.toNat :: List.range (fl0.pasture 0).flockSize.toNat); s.flockOk 0 = true) ∧
    (let s := c14_22.checkRanks 0 ((c14_22.pasture 0).selfRank.toNat :: List.range (c14_22.pasture 0).flockSize.toNat); s.flockOk 0 = false) := by decide +kernel
/-- A window with a packet's ordered or drove form, and its states that refuse. -/
def withWin (y : Window) (t : List Tracker) (q : List FabPacket) : State := sx (fab q { fpas with windows := [(0, y)], trackers := t })
def naks (y : Window) : Option Status := (withWin y [trk] []).dataNak 0 y dpk
def ordP : FabPacket := FabPacket.sealed { dpk with cls := 0 }
def drvP : FabPacket := FabPacket.sealed { dpk with drove := true, drv := 2 }
def member (s : State) : State := { s with fabric := { s.fabric with droves := [(2, { valid := true, isLocal := true, localPas := 0 })] } }
def took (i : Nat) (p : FabPacket) (s : State) : Bool := (s.takePacket i 0x01).map (·.1) = some p
theorem witness_DataAtItsWindow :
    (took 0 dpk c15_2 = true ∧ c15_3.destPas dpk = some 0 ∧ c15_3.dataNak 0 winS dpk = none ∧ c15_3.landBusy winS dpk = false ∧
      (c15_3.pasture 0).tracker 0 2 7 = some trk ∧ trk.accepted + 64 ≤ trk.units * 4096 ∧ dpk.drove = false ∧ dpk.cls ≠ 0) ∧
    ((withWin winS [] []).pasture 0).tracker 0 2 7 = none ∧ 4096 < ({ trk with accepted := 4096 } : Tracker).accepted + 64 ∧
    naks { winS with state := 2 } = some St.FAB_TARGET_RESETTING ∧ naks { winS with state := 0 } = some St.FAB_WIN_CLOSED ∧
    naks { winS with rankLo := 5 } = some St.FAB_WIN_RANK ∧ naks { winS with size := 0 } = some St.FAB_WIN_BOUNDS ∧
    ({ c15_3 with stks := [] } : State).dataNak 0 winS dpk = some St.FAB_WIN_XFER := by decide +kernel
theorem witness_DataAtItsWindow_drove :
    (took 0 drvP (member (withWin winS [] [drvP])) = true ∧ (member (withWin winS [] [])).destPas drvP = some 0 ∧
      drvP.drove = true ∧ ((member (withWin winS [] [])).pasture 0).tracker 0 2 7 = none ∧
      (member (withWin winS [] [])).dataNak 0 winS drvP = none ∧ (member (withWin winS [] [])).landBusy winS drvP = false) ∧
    (took 0 ordP (withWin winS [trk] [ordP]) = true ∧ ordP.cls = 0 ∧ (withWin winS [trk] []).destPas ordP = some 0) := by decide +kernel
/-- A landing window at a tile whose side ports have made their access of the beat. -/
def busyPort : State := { c15_3 with tiles := [(0, { sideUse := (List.range 32).map fun i => (i, (0, c15_3.now)) })] }
theorem witness_DataAtItsWindow_busy :
    busyPort.dataNak 0 { winS with landing := true } dpk = none ∧ busyPort.landBusy { winS with landing := true } dpk = true := by decide +kernel
theorem witness_CreditRequests_queued :
    let y := ((withWin { winS with queue := [(2, 0, 100, 5)] } [] []).pasture 0).window 0
    y.state = 1 ∧ y.allows 2 = true ∧ ((withWin { winS with queue := [(2, 0, 100, 5)] } [] []).pasture 0).tracker 0 crq.srcRank crq.xfer = none ∧
      (2 : BitVec 12) = crq.srcRank ∧ y.queue = [(crq.srcRank, 0, 100, 5)] := by decide +kernel
/-- A datagram to the port, one to another UDP port, an IDENTIFY to all nodes, and a solicitation of the port's address. -/
def toPort (s : State) : MgtEnds := { addr := 5, port := 9, dstAddr := s.facts.mgtAddr, dstPort := 48213, solicits := none }
def solicit (s : State) : MgtEnds := { toPort s with dstPort := 0, solicits := some s.facts.mgtAddr }
def ours (s : State) (ends : MgtEnds) (multicast : Bool) (bytes : List Byte) : Bool :=
  ends.solicits.isNone && decide (ends.dstPort.toNat = 48213) && decide (ends.dstAddr = if multicast then allNodes else s.facts.mgtAddr)
    && (!multicast || decide (mgtOp bytes = 3))
theorem witness_ManagementRequests_ends :
    ours c16_0 (toPort c16_0) false rd = true ∧ ours c16_0 { toPort c16_0 with dstAddr := allNodes } true ident = true ∧ c16_0.mgt.transmits = true ∧
    c16_3.mgt.transmits = true ∧ ours c16_0 { toPort c16_0 with dstPort := 48214 } false rd = false ∧
    ((solicit c16_0).solicits = some c16_0.facts.mgtAddr ∧ (solicit c16_0).dstAddr ∈ c16_0.facts.solicited) ∧ c16_5.restarting = false ∧
    ({ mq rd with uncounted := true } : MgtReq).uncounted = true := by decide +kernel

end Rows

/-! ## Ill-formed commands -/

namespace WellFormed

/-- A packet with n data bytes. -/
def packet (n : Nat) : FabPacket :=
  { ptype := 0x10, cls := 2, chan := 0, last := false, drove := false, hops := 1, dstChip := 0, srcChip := 0, flock := 0, srcRank := 0
    win := 0, drv := 0, oseq := 0, xfer := 0, offset := 0, count := 0, status := 0, e2e := 0, dateline := false, data := List.replicate n 0 }
def reception (errors : List Nat) : FlitReception := { errors := errors, bufferOk := true, dateline := false }
def port (n : Nat) : BistFailure := { isPort := true, px := BitVec.ofNat 8 n, py := 0, inconclusive := false, test := 0 }
def tile (px py : Nat) : BistFailure := { isPort := false, px := BitVec.ofNat 8 px, py := BitVec.ofNat 8 py, inconclusive := false, test := 0 }
def image (n : Nat) : ImageVerdict :=
  { svn := 0, shepherdFw := [], tileFw := List.replicate n 0, stackCode := [], linkCode := [], key := List.replicate 64 0
    signature := List.replicate 64 0 }
def shepherd (a b c : ImageVerdict) : ShepherdVerdict := { fusesOk := true, flashOk := true, slotA := a, slotB := b, host := c }
def segment (n : Nat) : FwSegment := { data := List.replicate n 0, crc := 0 }
def fetched (n : Nat) : FirmwareVerdict := { first := [], again := [⟨3, 4, 5, [segment 4096, segment n]⟩] }
def whole : FirmwareVerdict := { first := [⟨3, 4, 5, [segment 4096]⟩], again := [] }

theorem test_packet_refused : Instr.wellFormed (.svcData 0 (packet 256) true) = false ∧ Instr.wellFormed (.svcAck 1 (packet 63)) = false := by
  decide +kernel
theorem test_packet_taken : Instr.wellFormed (.svcData 0 (packet 192) true) = true ∧ Instr.wellFormed (.svcAck 1 (packet 0)) = true := by
  decide +kernel
theorem test_flit_refused : Instr.wellFormed (.linkFlitReceive 0 (List.replicate 255 0) (reception [])) = false ∧
    Instr.wellFormed (.linkFlitReceive 0 (List.replicate 256 0) (reception [544])) = false := by decide +kernel
theorem test_flit_taken : Instr.wellFormed (.linkFlitReceive 0 (List.replicate 256 0) (reception [0, 543])) = true := by decide +kernel
theorem test_record_refused : Instr.wellFormed (.linkIdentify 0 (some (List.replicate 63 0))) = false := by decide +kernel
theorem test_record_taken : Instr.wellFormed (.linkIdentify 0 (some (List.replicate 64 0))) = true ∧
    Instr.wellFormed (.linkIdentify 0 none) = true := by decide +kernel
theorem test_unit_refused : Instr.wellFormed (.bootBist [port 20]) = false ∧ Instr.wellFormed (.bootStepRequest6 0 [tile 68 0]) = false ∧
    Instr.wellFormed (.unparkDone .west [tile 0 40] ⟨[], []⟩) = false := by decide +kernel
theorem test_unit_taken : Instr.wellFormed (.bootBist [port 19, tile 67 39]) = true ∧ Instr.wellFormed (.bootStepRequest6 0 []) = true := by
  decide +kernel
theorem test_image_refused : Instr.wellFormed (.bootShepherdVerify (shepherd (image 65536) (image 65535) (image 65536))) = false ∧
    Instr.wellFormed (.bootStepRequest2 0 (shepherd (image 65536) { image 65536 with key := [] } (image 65536))) = false := by decide +kernel
theorem test_image_taken : Instr.wellFormed (.bootShepherdVerify (shepherd (image 65536) (image 65536) (image 65536))) = true := by decide +kernel
theorem test_segment_refused : Instr.wellFormed (.bootTileFw (fetched 4095)) = false ∧
    Instr.wellFormed (.bootStepRequest9 0 (fetched 0)) = false ∧ Instr.wellFormed (.unparkDone .east [] (fetched 8192)) = false ∧
    Instr.wellFormed (.warmComputeReset ⟨fetched 1⟩) = false ∧ Instr.wellFormed (.flrPf0 ⟨fetched 1⟩) = false ∧
    Instr.wellFormed (.perstN ⟨fetched 1⟩) = false ∧ Instr.wellFormed (.hotReset ⟨fetched 1⟩) = false ∧
    Instr.wellFormed (.pcieLinkDown ⟨fetched 1⟩) = false := by decide +kernel
theorem test_segment_taken : Instr.wellFormed (.bootTileFw whole) = true ∧ Instr.wellFormed (.warmComputeReset ⟨whole⟩) = true := by
  decide +kernel
theorem test_vf_refused : Instr.wellFormed (.flrVf 0) = false ∧ Instr.wellFormed (.flrVf 15) = true := by decide +kernel

end WellFormed

/-! ## Results worked out in the spec -/

namespace Examples

/-- No word spells a command. -/
theorem test_no_word : decodeTableWord 32 0xFFFFFFFF = none := by decide

/-- Step takes the command at the front of the queue. -/
theorem test_step_front : step { State.reset with pending := [.flrPf0 ⟨⟨[], []⟩⟩, .flrVf 0] } = exec (.flrPf0 ⟨⟨[], []⟩⟩) { State.reset with pending := [.flrVf 0] } :=
  rfl

/-- 04_scratchpad.md, rows of an expert output: the banks of rows 0 to 15 in mode 1, and in mode 2 with SALT 0. -/
theorem test_bank_rows : (List.range 16).map (fun i => bankOf (2048 * (512 + 5 * i)) 1 0) =
      [16, 21, 26, 31, 4, 9, 14, 18, 25, 28, 3, 6, 13, 19, 20, 25] ∧
    (List.range 16).map (fun i => bankOf (2048 * (512 + 5 * i)) 2 0) = (List.range 16).map (fun i => 5 * i % 32) ∧
    (List.range 16).all (fun i => bankOf (2048 * (512 + 5 * i)) 0 0 = 0) := by decide +kernel

/-- 03_number_formats.md, an MXFP4 block near 13.2 (here 13.25): the block exponent is 2 under rule 0 and 1 under rule 1; the elements 13.25
and -0.875. -/
theorem test_mxfp4_block : blockExp 0 ⟨53, -2⟩ false = 2 ∧ blockExp 0 ⟨53, -2⟩ true = 1 ∧ narrow 0 ⟨53, -2⟩ 2 0 = (5, false) ∧
    narrow 0 ⟨53, -2⟩ 1 0 = (7, true) ∧ narrow 0 ⟨-7, -3⟩ 2 0 = (0, false) := by decide +kernel

/-- 03_number_formats.md, an LF4 block near 4.8 (here 4.75): exponent -1; nudges 0b11, 0b01 and 0b00; elements near 3.9 and 0.7. -/
theorem test_lf4_block : blockExp 2 ⟨19, -2⟩ false = -1 ∧ groupNudge ⟨19, -2⟩ (-1) = 3 ∧ groupNudge ⟨27, -3⟩ (-1) = 1 ∧
    groupNudge ⟨9, -3⟩ (-1) = 0 ∧ narrow 2 ⟨125, -5⟩ (-1) 3 = (6, false) ∧ narrow 2 ⟨45, -6⟩ (-1) 0 = (3, false) := by decide +kernel

/-- 15_bringup.md, the column map: the west half without columns 17 and 18, the east half without index 1, and three lost columns. -/
theorem test_column_map :
    mapHalf ((List.range 34).map fun i => !([17, 18].contains i)) 32 = some ((List.range 17) ++ (List.range 15).map (· + 19)) ∧
    mapHalf ((List.range 34).map fun i => !([1].contains i)) 32 = some ((List.range 32).map (· + 2)) ∧
    mapHalf ((List.range 34).map fun i => !([5, 20, 30].contains i)) 32 = none ∧
    (mapHalf ((List.range 34).map fun i => !([10, 11, 12].contains i)) 28) = none := by decide +kernel

/-- 14_host_pastures.md, admission: a quarter of the PCIe time for 409,600 and 65,536 bytes. -/
theorem test_io_time :
    let s : State := { State.reset with pas := (List.range 4).map fun p => (p, { enable := true, pcieW := 16 }) }
    s.ioTime 0 409600 = 6771 ∧ s.ioTime 0 65536 = 1084 := by decide +kernel

/-- 18_management.md, the request of 20 bytes: its response, and the alert mask. -/
theorem test_mgmt_example :
    let request : List Byte := [1, 2, 0x31, 0, 0, 0x70, 2, 3, 0, 0, 0, 0, 4, 0, 0, 0, 8, 0, 0, 0]
    (match execWrite { ready with mgt := { queue := [{ source := 3, bytes := request }] } } with
    | .next t => decide (t.mgt.response = some (3, [1, 0x82, 0x31, 0, 0, 0x70, 2, 3, 0, 0, 0, 0, 0, 0, 0, 0])) &&
        decide (t.mgt.journal.length = 1)
    | _ => false) = true := by decide +kernel

end Examples

/-! ## The standards' vectors -/

namespace Vectors

def ascii (s : String) : List Byte := s.toUTF8.toList.map fun b => BitVec.ofNat 8 b.toNat
/-- GB/T 32905, the message "abc". -/
theorem test_sm3 : sm3Bytes [0x61, 0x62, 0x63] = bytesBe 32 0x66C7F0F462EEEDD9D1F2D46BDC10E4E24167C4875CF2F7A2297DA02B8F4BA8E0 := by
  decide +kernel
/-- GB/T 32907, one block. -/
theorem test_sm4 : sm4Run (sm4Keys (bytesBe 16 0x0123456789ABCDEFFEDCBA9876543210)) (bytesBe 16 0x0123456789ABCDEFFEDCBA9876543210) =
    bytesBe 16 0x681EDF34D206965E86B3E94F536E4246 := by decide +kernel
/-- RFC 8998, SM4-GCM: the tag verifies. -/
theorem test_gcm : (gcmOpen (bytesBe 16 0x0123456789ABCDEFFEDCBA9876543210) (bytesBe 12 0x00001234567800000000ABCD)
    (bytesBe 20 0xFEEDFACEDEADBEEFFEEDFACEDEADBEEFABADDAD2)
    (bytesBe 64 (0x17F399F08C67D5EE19D0DC9969C4BB7D5FD46FD3756489069157B282BB200735 * 2 ^ 256 +
      0xD82710CA5C22F0CCFA7CBF93D496AC15A56834CBCF98C397B4024A2691233B8D)) (bytesBe 16 0x83DE3541E4C2B58177E065A9BF7B62EC)).isSome := by
  decide +kernel
/-- The check value of CRC-32 and of CRC-32C for "123456789", and of CRC-16 with initial value 0xFFFF. -/
theorem test_crcs : crc32 (bytesBe 9 0x313233343536373839) = 0xCBF43926 ∧ crc32c (bytesBe 9 0x313233343536373839) = 0xE3069283 ∧
    crc16 (bytesBe 9 0x313233343536373839) = 0x29B1 := by decide +kernel

end Vectors

end Sys2Proof.Tests
end

section
/-!
What every command keeps, over all commands at once: the dispatch hands each command to an effect that Laws/Keeps* shows to keep the
facts of manufacture, the queue, the time, canonical memories and disjoint pastures.
-/
namespace Sys2Proof.Machine

/-- Every command keeps it (95_what_each_step_holds.md), arm by arm of the dispatch. -/
theorem exec_good {s0 s : State} (gd : Good s0 s) (c : Instr) : GoodOut s0 (exec c s) :=
  match c with
  | .beatComplete vx vy => execBeatComplete_good vx vy s gd
  | .itemArrival vx vy => execItemArrival_good vx vy s gd
  | .paceGateOpen vx vy => execPaceGateOpen_good vx vy s gd
  | .stallWatchdog p => execStallWatchdog_good p s gd
  | .watchStart p => execWatchStart_good p s gd
  | .lateRefresh p => execLateRefresh_good p s gd
  | .scrubVisit vx vy => execScrubVisit_good vx vy s gd
  | .sextantReport n period temp => execSextantReport_good n period temp s gd
  | .helmUpdate h m => execHelmUpdate_good h m s gd
  | .floorBreach p rate => execFloorBreach_good p rate s gd
  | .descLoad vx vy => execDescLoad_good vx vy s gd
  | .matmul vx vy => execMatmul_good vx vy s gd
  | .conv vx vy => execConv_good vx vy s gd
  | .vecopAdd vx vy => execVecopAdd_good vx vy s gd
  | .vecopSub vx vy => execVecopSub_good vx vy s gd
  | .vecopMul vx vy => execVecopMul_good vx vy s gd
  | .vecopFma vx vy => execVecopFma_good vx vy s gd
  | .vecopMin vx vy => execVecopMin_good vx vy s gd
  | .vecopMax vx vy => execVecopMax_good vx vy s gd
  | .vecopAbs vx vy => execVecopAbs_good vx vy s gd
  | .vecopNeg vx vy => execVecopNeg_good vx vy s gd
  | .vecopCvt vx vy => execVecopCvt_good vx vy s gd
  | .vecopPairrot vx vy => execVecopPairrot_good vx vy s gd
  | .vecopRsum vx vy => execVecopRsum_good vx vy s gd
  | .vecopRssq vx vy => execVecopRssq_good vx vy s gd
  | .vecopRmax vx vy => execVecopRmax_good vx vy s gd
  | .vecopRargmax vx vy => execVecopRargmax_good vx vy s gd
  | .vecopExp2 vx vy => execVecopExp2_good vx vy s gd
  | .vecopLog2 vx vy => execVecopLog2_good vx vy s gd
  | .vecopRcp vx vy => execVecopRcp_good vx vy s gd
  | .vecopRsqrt vx vy => execVecopRsqrt_good vx vy s gd
  | .vecopTanh vx vy => execVecopTanh_good vx vy s gd
  | .vecopSigmoid vx vy => execVecopSigmoid_good vx vy s gd
  | .quant vx vy => execQuant_good vx vy s gd
  | .quantDequantise vx vy => execQuantDequantise_good vx vy s gd
  | .topk vx vy => execTopk_good vx vy s gd
  | .move vx vy => execMove_good vx vy s gd
  | .recv vx vy => execRecv_good vx vy s gd
  | .copy vx vy => execCopy_good vx vy s gd
  | .tallyClear vx vy => execTallyClear_good vx vy s gd
  | .gather vx vy => execGather_good vx vy s gd
  | .scatter vx vy => execScatter_good vx vy s gd
  | .stkrd vx vy => execStkrd_good vx vy s gd
  | .stkwr vx vy => execStkwr_good vx vy s gd
  | .winopen vx vy => execWinopen_good vx vy s gd
  | .winclose vx vy => execWinclose_good vx vy s gd
  | .wait vx vy => execWait_good vx vy s gd
  | .fold vx vy => execFold_good vx vy s gd
  | .flagSet vx vy => execFlagSet_good vx vy s gd
  | .flagClear vx vy => execFlagClear_good vx vy s gd
  | .flagHoldSet vx vy => execFlagHoldSet_good vx vy s gd
  | .flagHoldClear vx vy => execFlagHoldClear_good vx vy s gd
  | .loop vx vy => execLoop_good vx vy s gd
  | .endloop vx vy => execEndloop_good vx vy s gd
  | .ctrset vx vy => execCtrset_good vx vy s gd
  | .ctradd vx vy => execCtradd_good vx vy s gd
  | .cmpset vx vy => execCmpset_good vx vy s gd
  | .nopb vx vy => execNopb_good vx vy s gd
  | .overlay vx vy => execOverlay_good vx vy s gd
  | .halt vx vy => execHalt_good vx vy s gd
  | .stackReread vx vy => execStackReread_good vx vy s gd
  | .groupClearDone st g => execGroupClearDone_good st g s gd
  | .unownedGroupMaint st g => execUnownedGroupMaint_good st g s gd
  | .stackTempReport st temp => execStackTempReport_good st temp s gd
  | .stackHotRefresh st => execStackHotRefresh_good st s gd
  | .xferLinkTimeout link => execXferLinkTimeout_good link s gd
  | .msgRequestArrive idx => execMsgRequestArrive_good idx s gd
  | .registerAccess idx => execRegisterAccess_good idx s gd
  | .handlerDispatch vx vy => execHandlerDispatch_good vx vy s gd
  | .handlerEnd vx vy => execHandlerEnd_good vx vy s gd
  | .handlerWrite vx vy => execHandlerWrite_good vx vy s gd
  | .handlerAdd vx vy => execHandlerAdd_good vx vy s gd
  | .handlerBump vx vy => execHandlerBump_good vx vy s gd
  | .handlerFlagset vx vy => execHandlerFlagset_good vx vy s gd
  | .handlerFlagclr vx vy => execHandlerFlagclr_good vx vy s gd
  | .handlerReply vx vy => execHandlerReply_good vx vy s gd
  | .handlerSend vx vy => execHandlerSend_good vx vy s gd
  | .replyArrive idx => execReplyArrive_good idx s gd
  | .nakArrive idx => execNakArrive_good idx s gd
  | .fullBounce idx => execFullBounce_good idx s gd
  | .spaceSignal idx => execSpaceSignal_good idx s gd
  | .sendWatchdog who => execSendWatchdog_good who s gd
  | .cancel vx vy => execCancel_good vx vy s gd
  | .channelClose vx vy openMask => execChannelClose_good vx vy openMask s gd
  | .flitCheckFail vx vy d resend => execFlitCheckFail_good vx vy d resend s gd
  | .foldContribution idx => execFoldContribution_good idx s gd
  | .foldResult idx => execFoldResult_good idx s gd
  | .flagChange idx => execFlagChange_good idx s gd
  | .flagWaitArrive idx => execFlagWaitArrive_good idx s gd
  | .flagRelease idx => execFlagRelease_good idx s gd
  | .haltNotice idx => execHaltNotice_good idx s gd
  | .waitArrive idx => execWaitArrive_good idx s gd
  | .waitRelease idx => execWaitRelease_good idx s gd
  | .doorbell fn ring tail => execDoorbell_good fn ring tail s gd
  | .run fn ring => execRun_good fn ring s gd
  | .abort fn ring => execAbort_good fn ring s gd
  | .loadProgram fn ring dmaOk => execLoadProgram_good fn ring dmaOk s gd
  | .loadWeights fn ring dmaOk => execLoadWeights_good fn ring dmaOk s gd
  | .loadComplete p => execLoadComplete_good p s gd
  | .xfer fn ring => execXfer_good fn ring s gd
  | .msg fn ring => execMsg_good fn ring s gd
  | .cancelMsg fn ring => execCancelMsg_good fn ring s gd
  | .attest fn ring => execAttest_good fn ring s gd
  | .certs fn ring => execCerts_good fn ring s gd
  | .chainSign fn ring => execChainSign_good fn ring s gd
  | .ownerTake fn ring env => execOwnerTake_good fn ring env s gd
  | .ownerChange fn ring env => execOwnerChange_good fn ring env s gd
  | .ownerRelease fn ring env => execOwnerRelease_good fn ring env s gd
  | .signers fn ring env => execSigners_good fn ring env s gd
  | .unlock fn ring dmaOk => execUnlock_good fn ring dmaOk s gd
  | .relock fn ring => execRelock_good fn ring s gd
  | .svnCommit fn ring flashOk => execSvnCommit_good fn ring flashOk s gd
  | .runIngress p env => execRunIngress_good p env s gd
  | .runStart p => execRunStart_good p s gd
  | .runCompletion p env => execRunCompletion_good p env s gd
  | .completionWrite fn => execCompletionWrite_good fn s gd
  | .deadlineExpiry p k => execDeadlineExpiry_good p k s gd
  | .vectorFire fn v => execVectorFire_good fn v s gd
  | .periodicRecordSign p => execPeriodicRecordSign_good p s gd
  | .pastureStart p col0 width => execPastureStart_good p col0 width s gd
  | .pastureStop p => execPastureStop_good p s gd
  | .pastureReset fn p => execPastureReset_good fn p s gd
  | .warmComputeReset w => execWarmComputeReset_good w s gd
  | .tileQuarantine vx vy => execTileQuarantine_good vx vy s gd
  | .qosWrite p value => execQosWrite_good p value s gd
  | .flrVf fn => execFlrVf_good fn s gd
  | .flrPf0 w => execFlrPf0_good w s gd
  | .perstN w => execPerstN_good w s gd
  | .hotReset w => execHotReset_good w s gd
  | .pcieLinkDown w => execPcieLinkDown_good w s gd
  | .ownershipWrite fn st value => execOwnershipWrite_good fn st value s gd
  | .autoEnable => execAutoEnable_good s gd
  | .groupXferWrite fn st g on => execGroupXferWrite_good fn st g on s gd
  | .paceLimitWrite fn p value => execPaceLimitWrite_good fn p value s gd
  | .hostFlagSet fn p n value => execHostFlagSet_good fn p n value s gd
  | .hostFlagClr fn p n value => execHostFlagClr_good fn p n value s gd
  | .tileWindowAccess vx vy offset write => execTileWindowAccess_good vx vy offset write s gd
  | .registerWrite fn space offset value => execRegisterWrite_good fn space offset value s gd
  | .linkRetrain n => execLinkRetrain_good n s gd
  | .planCommit => execPlanCommit_good s gd
  | .lportWrite m value => execLportWrite_good m value s gd
  | .flockStart fn p => execFlockStart_good fn p s gd
  | .flockStop fn p => execFlockStop_good fn p s gd
  | .rankSwap fn p => execRankSwap_good fn p s gd
  | .routeSwap => execRouteSwap_good s gd
  | .ordReservationWrite fn p k value => execOrdReservationWrite_good fn p k value s gd
  | .linkDetect n signal => execLinkDetect_good n signal s gd
  | .linkLanes n failed polInv reversed => execLinkLanes_good n failed polInv reversed s gd
  | .linkEqualise n failed => execLinkEqualise_good n failed s gd
  | .linkWidth n checkOk => execLinkWidth_good n checkOk s gd
  | .linkIdentify n peer => execLinkIdentify_good n peer s gd
  | .linkCompare n => execLinkCompare_good n s gd
  | .linkFlitReceive n f r => execLinkFlitReceive_good n f r s gd
  | .linkNak n ack => execLinkNak_good n ack s gd
  | .ackTimeout n => execAckTimeout_good n s gd
  | .laneLost n lane bothDirections => execLaneLost_good n lane bothDirections s gd
  | .degrade n lanes => execDegrade_good n lanes s gd
  | .widthProposal n lanes => execWidthProposal_good n lanes s gd
  | .widthAccept n lanes => execWidthAccept_good n lanes s gd
  | .retrainRequest n => execRetrainRequest_good n s gd
  | .laneHealthWindow n => execLaneHealthWindow_good n s gd
  | .calibrationOpportunity n clean => execCalibrationOpportunity_good n clean s gd
  | .planWaitExpiry => execPlanWaitExpiry_good s gd
  | .packetForward n lane => execPacketForward_good n lane s gd
  | .data idx => execData_good idx s gd
  | .landingNotice idx => execLandingNotice_good idx s gd
  | .creditReq idx => execCreditReq_good idx s gd
  | .creditGrant idx => execCreditGrant_good idx s gd
  | .creditReturn idx => execCreditReturn_good idx s gd
  | .nak idx => execNak_good idx s gd
  | .done idx => execDone_good idx s gd
  | .dataAck idx => execDataAck_good idx s gd
  | .svcData link pkt stackOk => execSvcData_good link pkt stackOk s gd
  | .svcAck link pkt => execSvcAck_good link pkt s gd
  | .creditReqRepeat p n => execCreditReqRepeat_good p n s gd
  | .sendSourceDone p n => execSendSourceDone_good p n s gd
  | .doneTimeout p n => execDoneTimeout_good p n s gd
  | .trackerAbandon p win rank xfer => execTrackerAbandon_good p win rank xfer s gd
  | .droveTimeout p n => execDroveTimeout_good p n s gd
  | .ordDrainExpiry => execOrdDrainExpiry_good s gd
  | .ordHoldExpiry n => execOrdHoldExpiry_good n s gd
  | .wptLate p vx vy => execWptLate_good p vx vy s gd
  | .wptTimeout p vx vy => execWptTimeout_good p vx vy s gd
  | .powerGood bootMode nodeId => execPowerGood_good bootMode nodeId s gd
  | .powerLoss => execPowerLoss_good s gd
  | .inputReversed => execInputReversed_good s gd
  | .inputHigh => execInputHigh_good s gd
  | .inputOvervoltage => execInputOvervoltage_good s gd
  | .inputLow => execInputLow_good s gd
  | .inputOvercurrent => execInputOvercurrent_good s gd
  | .efuseTrip => execEfuseTrip_good s gd
  | .railOutOfRegulation => execRailOutOfRegulation_good s gd
  | .efuseRetry => execEfuseRetry_good s gd
  | .thermtrip => execThermtrip_good s gd
  | .bootShepherdVerify v => execBootShepherdVerify_good v s gd
  | .bootHifStart => execBootHifStart_good s gd
  | .bootStackTrain v => execBootStackTrain_good v s gd
  | .bootStackClear ok => execBootStackClear_good ok s gd
  | .bootWave wave v => execBootWave_good wave v s gd
  | .bootBist failures => execBootBist_good failures s gd
  | .bootDefectMap => execBootDefectMap_good s gd
  | .bootColumnMap => execBootColumnMap_good s gd
  | .bootTileFw v => execBootTileFw_good v s gd
  | .bootStepRequest2 arg v => execBootStepRequest2_good arg v s gd
  | .bootStepRequest4 arg v clearOk => execBootStepRequest4_good arg v clearOk s gd
  | .bootStepRequest5 arg v => execBootStepRequest5_good arg v s gd
  | .bootStepRequest6 arg failures => execBootStepRequest6_good arg failures s gd
  | .bootStepRequest7 arg => execBootStepRequest7_good arg s gd
  | .bootStepRequest8 arg => execBootStepRequest8_good arg s gd
  | .bootStepRequest9 arg v => execBootStepRequest9_good arg v s gd
  | .shepherdWatchdog => execShepherdWatchdog_good s gd
  | .ringCrcFail resend => execRingCrcFail_good resend s gd
  | .parkHalf h => execParkHalf_good h s gd
  | .unparkHalf h => execUnparkHalf_good h s gd
  | .unparkDone h failures v => execUnparkDone_good h failures v s gd
  | .selftestTileBist p nowait => execSelftestTileBist_good p nowait s gd
  | .selftestSextant h nowait => execSelftestSextant_good h nowait s gd
  | .selftestStackScrub st => execSelftestStackScrub_good st s gd
  | .selftestEyeScan n => execSelftestEyeScan_good n s gd
  | .selftestSlotCheck => execSelftestSlotCheck_good s gd
  | .selftestStart kind target => execSelftestStart_good kind target s gd
  | .selftestDeferTimeout kind target => execSelftestDeferTimeout_good kind target s gd
  | .selftestDone kind target v => execSelftestDone_good kind target v s gd
  | .mgtDatagram source multicast bytes => execMgtDatagram_good source multicast bytes s gd
  | .mbxGo => execMbxGo_good s gd
  | .read => execRead_good s gd
  | .write => execWrite_good s gd
  | .identify => execIdentify_good s gd
  | .alertClear value => execAlertClear_good value s gd
  | .persistWrite item ok => execPersistWrite_good item ok s gd
  | .lineCheck fault => execLineCheck_good fault s gd
  | .lineRecover => execLineRecover_good s gd
  | .nodeConflictRetry => execNodeConflictRetry_good s gd
  | .powerCapReached m => execPowerCapReached_good m s gd
  | .stackWriteRetry vx vy ok => execStackWriteRetry_good vx vy ok s gd

/-- A command's next state keeps of the state it runs on what every command keeps. -/
theorem exec_next_good {c : Instr} {s t : State} (h : exec c s = .next t) : Good s t := exec_good (good_refl s) c t h

/-- With no command waiting the step is a picosecond of time. -/
theorem step_of_pending_nil {s : State} (h : s.pending = []) : step s = .next s.idle := by
  simp only [step, h]

end Sys2Proof.Machine

namespace Sys2Proof.Settled
open Sys2Proof Sys2Proof.Machine

/-- The clock is the idle step's own; all else is what its parts keep. -/
theorem idleStepPassesOnePicosecond : Claims.IdleStepPassesOnePicosecond := by
  intro s h
  obtain ⟨hfacts, hpending, hnow⟩ := good_sameFrame (idle_good s)
  exact ⟨step_of_pending_nil h, hnow, hpending.trans h, hfacts⟩

theorem commandsKeepFactsQueueAndTime : Claims.CommandsKeepFactsQueueAndTime :=
  fun _ _ _ h => good_sameFrame (exec_next_good h)

/-- Settles O5: the idle step by what its parts keep, and the commands arm by arm of the dispatch. -/
theorem timePassesOnlyWhenIdle : Obligations.TimePassesOnlyWhenIdle :=
  ⟨idleStepPassesOnePicosecond, commandsKeepFactsQueueAndTime⟩

end Sys2Proof.Settled
end

section
/-!
The reset state: every map of parts is empty, so a part of any number reads as its structure's defaults.
-/
namespace Sys2Proof.Machine

@[simp] theorem reset_pasture (n : Nat) : State.reset.pasture n = {} := rfl
@[simp] theorem reset_func (n : Nat) : State.reset.func n = {} := rfl
@[simp] theorem reset_stack (n : Nat) : State.reset.stack n = {} := rfl
@[simp] theorem reset_tile (n : Nat) : State.reset.tile n = {} := rfl
/-- At reset the grade is LTF-64X, which fuses off no port (R26). -/
@[simp] theorem reset_port (n : Nat) : State.reset.port n = {} := rfl

@[simp] theorem reset_fabric : State.reset.fabric = {} := rfl
@[simp] theorem reset_half : State.reset.west = {} ∧ State.reset.east = {} := ⟨rfl, rfl⟩
@[simp] theorem reset_boot : State.reset.boot = {} := rfl
@[simp] theorem reset_ownAuto : State.reset.ownAuto = true := rfl
@[simp] theorem reset_pending : State.reset.pending = [] := rfl

theorem reset_memWf : State.reset.MemWf := ⟨memNil_wf, memNil_wf, spadsWf_nil⟩

theorem reset_disjoint : State.reset.Disjoint := disjointIn_nil

end Sys2Proof.Machine

namespace Sys2Proof.Settled
open Sys2Proof Sys2Proof.Machine

theorem resetRegisterValues : Claims.ResetRegisterValues := by
  intro n
  simp only [reset_pasture, reset_func, reset_stack, reset_tile, reset_port, reset_fabric, reset_half, reset_boot,
    reset_ownAuto, reset_pending, smapGet, and_self]

/-- Settles O2: the registers are the structures' defaults, and the memories and the pastures' columns are empty. -/
theorem theResetState : Obligations.TheResetState :=
  ⟨resetRegisterValues, reset_memWf, reset_disjoint⟩

end Sys2Proof.Settled
end

section
/-!
Register writes (R14, R380): which effect a write of PF0 or of a virtual function has at a place of each space, and what the page's
registers with behaviour of their own do.
-/
namespace Sys2Proof.Machine

/-! ### The spaces -/

/-- PF0 is always there. -/
@[simp] theorem fnOn_pf0 (s : State) : s.fnOn 0 = true := rfl

theorem registerWrite_pf0_bar0 {s : State} {o : BitVec 26} (v : Word) (hs : s.hostUp = true) (ha : o.toNat % 8 = 0) :
    exec (.registerWrite 0 .bar0 o v) s = s.writeBar0 o.toNat v := by
  simp [exec, execRegisterWrite, hs, ha]

theorem registerWrite_pf0_bar2 {s : State} {o : BitVec 26} (v : Word) (hs : s.hostUp = true) (ha : o.toNat % 8 = 0) :
    exec (.registerWrite 0 .bar2 o v) s = s.writeBar2 o.toNat v := by
  simp [exec, execRegisterWrite, hs, ha]

theorem registerWrite_vf_bar0 {s : State} {fn : FnId} {o : BitVec 26} (v : Word) (hs : s.hostUp = true) (hf : s.fnOn fn = true)
    (hn : fn ≠ 0) (ha : o.toNat % 8 = 0) (ho : o.toNat < 0x10000) :
    exec (.registerWrite fn .bar0 o v) s = s.writePage fn fn true o.toNat v := by
  simp [exec, execRegisterWrite, hs, hf, hn, ha, ho]

/-- A virtual function has its pasture page alone (R377). -/
theorem registerWrite_vf_bar2 {s : State} {fn : FnId} (o : BitVec 26) (v : Word) (hn : fn ≠ 0) :
    exec (.registerWrite fn .bar2 o v) s = .next s := by
  simp [exec, execRegisterWrite, hn, nothing]

theorem registerWrite_pf0_config {s : State} (v : Word) (hs : s.hostUp = true) (hc : s.boot.crs = false) :
    exec (.registerWrite 0 .config 0 v) s = .next (s.enableVfs (min 15 v.toNat)) := by
  simp [exec, execRegisterWrite, hs, hc]

/-- Pasture p's page lies at 64 KiB times p of PF0's BAR0. -/
theorem writeBar0_page (s : State) (p : PasId) {off : Nat} (v : Word) (ho : off < 0x10000) :
    s.writeBar0 (65536 * p + off) v = s.writePage 0 p (decide (p = 0)) off v := by
  have hp : p.val < 16 := p.isLt
  have hq : (65536 * p.val + off) / 0x10000 = p := by omega
  have hr : (65536 * p.val + off) % 0x10000 = off := by omega
  have hl : 65536 * p.val + off < 0x100000 := by omega
  simp only [State.writeBar0, hq, hr, if_pos hl, Fin.ofNat_val_eq_self, Fin.ext_iff, Fin.val_zero]

/-- PF0's write of a register of pasture p's page. -/
theorem registerWrite_pf0_page {s : State} (p : PasId) {o : BitVec 26} (v : Word) (hs : s.hostUp = true) (ho : o.toNat < 0x10000)
    (ha : o.toNat % 8 = 0) :
    exec (.registerWrite 0 .bar0 (BitVec.ofNat 26 (65536 * p) + o) v) s = s.writePage 0 p (decide (p = 0)) o.toNat v := by
  have hn : (BitVec.ofNat 26 (65536 * p) + o).toNat = 65536 * p + o.toNat := by
    rw [BitVec.toNat_add, BitVec.toNat_ofNat]; omega
  rw [registerWrite_pf0_bar0 v hs (by omega), hn, writeBar0_page s p v ho]

/-! ### The page of a pasture (R380) -/

variable (s : State) (fn : FnId) (p : PasId) (own : Bool) (v : Word)

theorem writePage_beatCtl : s.writePage fn p own 0x1000 v = .next (s.writeBeatCtl p v) := rfl
theorem writePage_flagSet : s.writePage fn p own 0x1100 v = exec (.hostFlagSet fn p 0 v) s := rfl
theorem writePage_flagClr : s.writePage fn p own 0x1120 v = exec (.hostFlagClr fn p 0 v) s := rfl
theorem writePage_ordReservation : s.writePage fn p own 0x1418 v = exec (.ordReservationWrite fn p 0 v) s := rfl
theorem writePage_stkCeThresh :
    s.writePage fn p true 0x1050 v = .next ((s.modFn fn fun f => f.write 0x1050 v).modPas p fun x =>
      { x with stkCeThresh := BitVec.ofNat 16 (field v 31 16) }) := rfl

theorem writePage_reset_set (h : bitAt v 0 = true) : s.writePage fn p own 0x140 v = exec (.pastureReset fn p) s := if_pos h
theorem writePage_reset_clear (h : bitAt v 0 = false) : s.writePage fn p own 0x140 v = .next s := if_neg (Bool.eq_false_iff.mp h)

/-! ### The package's registers and BAR2 (R402, R428, R484) -/

theorem writeBar0_computeReset : s.writeBar0 0x100108 v =
    if bitAt v 0 then exec (.warmComputeReset { firmware := Config.fetches s.draw.1 }) s.draw.2 else .next s := rfl
theorem writeBar2_mbxGo (h : bitAt v 0 = true) : s.writeBar2 0 v = exec .mbxGo s := if_pos h
theorem writeBar2_imgAddr :
    s.writeBar2 0xF010 v = .next { s with boot := { s.boot with imgAddr := v &&& 0xFFFFFFFFFFFFF000 } } := rfl
theorem writeBar2_imgLen :
    s.writeBar2 0xF018 v = .next { s with boot := { s.boot with imgLen := BitVec.ofNat 32 (field v 31 0) } } := rfl

/-- BOOT_STEP_CTL with its fields written. -/
def State.withStepCtl (s : State) (v : Word) : State :=
  { s with boot := { s.boot with ctlArg := BitVec.ofNat 8 (field v 15 8), ctlStep := BitVec.ofNat 8 (field v 7 0) } }

variable {s v}

/-- In a flash boot (MODE 0) the host's step requests are not accepted (R422, R427). -/
theorem writeBar2_stepCtl_mode0 (h : s.boot.mode = 0) : s.writeBar2 0xF008 v = .next s := congrArg _ (if_pos h)
theorem writeBar2_stepCtl (h : s.boot.mode ≠ 0) : s.writeBar2 0xF008 v = .next (s.writeStepCtl v) := congrArg _ (if_neg h)

/-- GO acts in a state whose fields are already those written. -/
theorem writeStepCtl_eq : s.writeStepCtl v =
    if !bitAt v 63 || [2, 4, 5, 6, 7, 8, 9].contains (field v 7 0) || !s.boot.done.contains 3 then s.withStepCtl v
    else (s.withStepCtl v).bootEvent (if s.boot.mgmtOnly then St.BOOT_MGMT_ONLY else St.BOOT_STEP_ORDER) (field v 7 0) := rfl

/-- Without GO, or with a step of bring-up, the write sets the fields alone. -/
theorem writeStepCtl_fields (h : bitAt v 63 = false ∨ field v 7 0 ∈ [2, 4, 5, 6, 7, 8, 9]) :
    s.writeStepCtl v = s.withStepCtl v := by
  rw [writeStepCtl_eq, if_pos]
  rcases h with h | h
  · rw [h]; rfl
  · rw [List.contains_iff_mem.mpr h, Bool.or_true, Bool.true_or]

/-- GO with a step that bring-up does not have is refused as out of order (R422). -/
theorem writeStepCtl_refused (hg : bitAt v 63 = true) (hn : field v 7 0 ∉ [2, 4, 5, 6, 7, 8, 9])
    (h3 : s.boot.done.contains 3 = true) (hm : s.boot.mgmtOnly = false) :
    s.writeStepCtl v = (s.withStepCtl v).bootEvent St.BOOT_STEP_ORDER (field v 7 0) := by
  have hc : [2, 4, 5, 6, 7, 8, 9].contains (field v 7 0) = false := by
    simpa only [List.contains_eq_mem, decide_eq_false_iff_not] using hn
  rw [writeStepCtl_eq, hg, hc, h3, hm]; rfl

end Sys2Proof.Machine

namespace Sys2Proof.Settled
open Sys2Proof Sys2Proof.Machine

/-- Settles O55: each write through the space it is in, to the register at its place. -/
theorem registerWrites : Obligations.RegisterWrites := by
  intro fn p v s hs hf page
  have hpage {o : BitVec 26} : o.toNat < 0x10000 → o.toNat % 8 = 0 →
      exec (.registerWrite 0 .bar0 (page + o) v) s = s.writePage 0 p (decide (p = 0)) o.toNat v := registerWrite_pf0_page p v hs
  have hbar2 {o : BitVec 26} : o.toNat % 8 = 0 → exec (.registerWrite 0 .bar2 o v) s = s.writeBar2 o.toNat v :=
    registerWrite_pf0_bar2 v hs
  refine ⟨?beatCtl, ?reset, ?noReset, ?flagSet, ?flagClr, ?ordReservation, ?ownPage, ?vfBar2, ?stepCtlMode0, ?stepCtl,
    ?stepCtlRefused, ?imgAddr, ?imgLen, ?mbxGo, ?computeReset, ?config⟩
  case beatCtl => exact (hpage (by decide) rfl).trans (writePage_beatCtl ..)
  case reset => exact fun hv => (hpage (by decide) rfl).trans (writePage_reset_set _ _ _ _ _ hv)
  case noReset => exact fun hv => (hpage (by decide) rfl).trans (writePage_reset_clear _ _ _ _ _ hv)
  case flagSet => exact (hpage (by decide) rfl).trans (writePage_flagSet ..)
  case flagClr => exact (hpage (by decide) rfl).trans (writePage_flagClr ..)
  case ordReservation => exact (hpage (by decide) rfl).trans (writePage_ordReservation ..)
  case ownPage => exact fun hn => (registerWrite_vf_bar0 v hs hf hn rfl (by decide)).trans (writePage_stkCeThresh ..)
  case vfBar2 => exact registerWrite_vf_bar2 _ v
  case stepCtlMode0 => exact fun hm => (hbar2 rfl).trans (writeBar2_stepCtl_mode0 hm)
  case stepCtl =>
    intro hm hv
    exact (hbar2 rfl).trans ((writeBar2_stepCtl hm).trans (congrArg _ (writeStepCtl_fields hv)))
  case stepCtlRefused =>
    intro hm hg hn h3 hb
    exact (hbar2 rfl).trans ((writeBar2_stepCtl hm).trans (congrArg _ (writeStepCtl_refused hg hn h3 hb)))
  case imgAddr => exact (hbar2 rfl).trans (writeBar2_imgAddr ..)
  case imgLen => exact (hbar2 rfl).trans (writeBar2_imgLen ..)
  case mbxGo => exact fun hv => (hbar2 rfl).trans (writeBar2_mbxGo _ _ hv)
  case computeReset => exact (registerWrite_pf0_bar0 v hs rfl).trans (writeBar0_computeReset ..)
  case config => exact registerWrite_pf0_config v hs

end Sys2Proof.Settled
end

section
/-!
Pastures stay apart (R33): what every command keeps, carried over to a step of the block.
-/
namespace Sys2Proof.Machine

/-- A step is a picosecond of idle time, or the front command's effect on the rest of the queue. -/
theorem step_next_cases {s t : State} (h : step s = .next t) :
    (s.pending = [] ∧ s.idle = t) ∨ ∃ c rest, s.pending = c :: rest ∧ exec c { s with pending := rest } = .next t := by
  cases hp : s.pending with
  | nil =>
    rw [step_of_pending_nil hp] at h
    exact .inl ⟨rfl, by injection h⟩
  | cons c rest =>
    simp only [step, hp] at h
    exact .inr ⟨c, rest, rfl, h⟩

/-- Only the enable bits and columns of the pastures decide whether they are apart. -/
theorem disjoint_iff (s : State) : s.Disjoint ↔ DisjointIn s.pas := .rfl

end Sys2Proof.Machine

namespace Sys2Proof.Settled
open Sys2Proof Sys2Proof.Machine

/-- Settles O4: neither the time nor the queue is about the pastures, and the passing of time and every command keep them apart. -/
theorem pasturesNeverOverlap : Obligations.PasturesNeverOverlap := by
  intro s t hs h
  rw [disjoint_iff] at hs ⊢
  obtain ⟨-, rfl⟩ | ⟨c, rest, -, hc⟩ := step_next_cases h
  · exact (idle_good s).disj hs
  · exact (exec_next_good hc).disj hs

end Sys2Proof.Settled
end

section
/-!
Parking and unparking of a half (R30, R410, R425, R426, R488), and what the tiles' resets, the defect record and the fetch of firmware
leave alone.
-/
namespace Sys2Proof

/-- Reading a mapped map, where the function keeps the default. -/
theorem smapGet_map {α : Type} {d : α} {f : Nat → α → α} (hd : ∀ k, f k d = d) (m : SMap α) (k : Nat) :
    smapGet d (smapMap f m) k = f k (smapGet d m k) := by
  induction m with
  | nil => exact (hd k).symm
  | cons kv m ih =>
    simp only [smapMap, List.map_cons, smapGet] at ih ⊢
    split
    · next e => rw [e]
    · split
      · exact (hd k).symm
      · exact ih

end Sys2Proof

namespace Sys2Proof.Machine

/-! ### Parking -/

@[simp] theorem half_putHalf (s : State) (h : Half) (x : HalfReg) : (s.putHalf h x).half h = x := by cases h <;> rfl
@[simp] theorem tile_putHalf (s : State) (h : Half) (x : HalfReg) (k : Nat) : (s.putHalf h x).tile k = s.tile k := by
  cases h <;> rfl
@[simp] theorem ports_putHalf (s : State) (h : Half) (x : HalfReg) : (s.putHalf h x).ports = s.ports := by cases h <;> rfl
@[simp] theorem stackMem_putHalf (s : State) (h : Half) (x : HalfReg) : (s.putHalf h x).stackMem = s.stackMem := by
  cases h <;> rfl
@[simp] theorem hostMem_putHalf (s : State) (h : Half) (x : HalfReg) : (s.putHalf h x).hostMem = s.hostMem := by cases h <;> rfl
@[simp] theorem half_gateColumns (s : State) (h : Half) : s.gateColumns.half h = s.half h := by cases h <;> rfl
@[simp] theorem tile_gateColumns (s : State) (k : Nat) : s.gateColumns.tile k = s.tile k := rfl

theorem park_half_state (s : State) (h : Half) : ((s.park h).half h).state = .parked := by
  simp only [State.park, half_gateColumns, half_putHalf]

/-- Parking takes the power from the half's tiles, listed or not, and from no other. -/
theorem park_tile (s : State) (h : Half) (k : Nat) :
    (s.park h).tile k = if (s.halfTiles h).contains k then (s.tile k).parked else s.tile k := by
  simp only [State.park, tile_gateColumns, tile_putHalf]
  exact smapGet_map (f := fun k (t : Tile) => if (s.halfTiles h).contains k then t.parked else t) (fun _ => ite_self _) _ _

theorem park_tile_of_mem {s : State} {h : Half} {k : Nat} (hk : k ∈ s.halfTiles h) : (s.park h).tile k = (s.tile k).parked := by
  rw [park_tile, if_pos (List.contains_iff_mem.mpr hk)]
theorem park_tile_of_notMem {s : State} {h : Half} {k : Nat} (hk : k ∉ s.halfTiles h) : (s.park h).tile k = s.tile k := by
  rw [park_tile, if_neg (mt List.contains_iff_mem.mp hk)]

theorem parkHalf_parks {s : State} {h : Half} (hr : s.boot.ready = true) (hl : (s.half h).state = .live)
    (hu : ((List.range 16).any fun p => (s.pasture p).enable && s.usesHalf p h) = false) :
    exec (.parkHalf h) s = .next (s.park h) := by
  simp [exec, execParkHalf, State.parkRefusal, hr, hl, hu]

theorem parkHalf_refused {s : State} {h : Half}
    (hu : ((List.range 16).any fun p => (s.pasture p).enable && s.usesHalf p h) = true) :
    exec (.parkHalf h) s = .next s := by
  simp only [exec, execParkHalf, State.parkRefusal, hu, if_true, Option.isNone_some, Bool.and_false, Bool.false_eq_true, if_false,
    nothing]

/-! ### Unparking -/

/-- A rail comes up within the helm's range (R488). -/
theorem railUp_range (s : State) : 550 ≤ s.railUp.1.toNat ∧ s.railUp.1.toNat ≤ 850 := by
  simp only [State.railUp, BitVec.toNat_ofNat]; omega

theorem unparkHalf_powers {s : State} {h : Half} (hr : s.boot.ready = true) (hp : (s.half h).state = .parked) :
    exec (.unparkHalf h) s = .next (s.unpark h) := by
  simp [exec, execUnparkHalf, hr, hp]

theorem unpark_eq (s : State) (h : Half) : s.unpark h = ({ s.railUp.2 with
    mgt := s.mgt.setPark h 0
    boot := { s.boot with powered := s.boot.powered ||| columnMask (halfColumns h) } }).putHalf h
      { s.half h with state := .poweringUp, vcore := s.railUp.1 } := by
  cases h <;> rfl

/-! ### What surrounds the tiles -/

/-- The registers of both halves, the link ports, and the memories of stacks and host. -/
def State.surround (s : State) : HalfReg × HalfReg × SMap Port × Memory × Memory := (s.west, s.east, s.ports, s.stackMem, s.hostMem)

theorem surround_eq_iff {s t : State} : t.surround = s.surround ↔
    (∀ h, t.half h = s.half h) ∧ t.ports = s.ports ∧ t.stackMem = s.stackMem ∧ t.hostMem = s.hostMem := by
  simp only [State.surround, Prod.mk.injEq]
  constructor
  · rintro ⟨hw, he, hm⟩
    exact ⟨fun | .west => hw | .east => he, hm⟩
  · rintro ⟨hh, hm⟩
    exact ⟨hh .west, hh .east, hm⟩

@[simp] theorem surround_foldl {α : Type} {g : State → α → State} (hg : ∀ s x, (g s x).surround = s.surround) (l : List α)
    (s : State) : (l.foldl g s).surround = s.surround := by
  induction l generalizing s with
  | nil => rfl
  | cons x l ih => exact (ih _).trans (hg s x)

variable (s : State)

@[simp] theorem surround_modTile (k : Nat) (f : Tile → Tile) : (s.modTile k f).surround = s.surround := rfl
@[simp] theorem surround_modPas (p : Nat) (f : Pasture → Pasture) : (s.modPas p f).surround = s.surround := rfl
@[simp] theorem surround_send (p : Packet) : (s.send p).surround = s.surround := by simp [State.surround]
@[simp] theorem surround_net (l : List Sent) : { s with net := l }.surround = s.surround := rfl
@[simp] theorem surround_cmds (l : List BurstCmd) : { s with cmds := l }.surround = s.surround := rfl
@[simp] theorem surround_boot (b : Boot) : { s with boot := b }.surround = s.surround := rfl
@[simp] theorem surround_alert (n : Nat) : (s.alert n).surround = s.surround := rfl
@[simp] theorem surround_bootEvent (st : Status) (d : Nat) : (s.bootEvent st d).surround = s.surround := rfl
@[simp] theorem surround_gateColumns : s.gateColumns.surround = s.surround := rfl

@[simp] theorem surround_nakRequest (k : Nat) (r : Request) (st : Status) (b : Bool) :
    (s.nakRequest k r st b).surround = s.surround := by
  unfold State.nakRequest
  split <;> simp

@[simp] theorem surround_grantSpace (k c n : Nat) : (s.grantSpace k c n).surround = s.surround := by
  induction n generalizing s with
  | zero => rfl
  | succ n ih =>
    unfold State.grantSpace
    extract_lets
    split
    · rfl
    · split
      · rfl
      · rw [ih, surround_send, surround_modTile]

@[simp] theorem surround_withdraw (r : Request) : (s.withdraw r).surround = s.surround := by
  simp [State.withdraw, State.freeEntries]

@[simp] theorem surround_resetChannel (k c : Nat) : (s.resetChannel k c).surround = s.surround := by
  simp [State.resetChannel]

@[simp] theorem surround_resetEngine (k : Nat) : (s.resetEngine k).surround = s.surround := by
  simp only [State.resetEngine, surround_foldl fun s c => surround_resetChannel s k c, surround_modTile]
  split <;> simp

@[simp] theorem surround_resetInFlight (f : Nat → Bool) : (s.resetInFlight f).surround = s.surround := by
  unfold State.resetInFlight
  refine (surround_foldl (fun s e => ?_) _ _).trans (surround_net s [])
  dsimp only
  split <;> simp only [apply_ite State.surround, surround_modTile, surround_nakRequest, surround_net, ite_self]

@[simp] theorem surround_resetTiles (ks : List Nat) (f : Tile → Tile) : (s.resetTiles ks f).surround = s.surround := by
  rw [State.resetTiles, surround_foldl fun s k => surround_modTile s k f, surround_resetInFlight,
    surround_foldl surround_resetEngine]

@[simp] theorem surround_addDefect (kind px py cause : Nat) (test : BitVec 16) :
    (s.addDefect kind px py cause test).surround = s.surround := by
  unfold State.addDefect
  extract_lets
  split <;> simp

@[simp] theorem surround_noteFailure (port : Bool) (px py cause : Nat) (test : BitVec 16) :
    (s.noteFailure port px py cause test).surround = s.surround := by
  unfold State.noteFailure
  extract_lets
  split
  · rfl
  · exact (surround_bootEvent ..).trans (surround_addDefect ..)

@[simp] theorem surround_unparkFail (h : Half) (f : BistFailure) : (s.unparkFail h f).surround = s.surround := by
  unfold State.unparkFail
  extract_lets
  split
  · rfl
  · split
    · split
      · rfl
      · simp [State.quarantineUnit]
    · simp

@[simp] theorem surround_writeReaches : s.writeReaches.surround = s.surround :=
  surround_foldl (fun s k => surround_modTile s k (State.reaches _ k)) _ s

@[simp] theorem surround_checkRegion : s.checkRegion.surround = s.surround := by
  unfold State.checkRegion
  split <;> rfl

@[simp] theorem surround_fetchPass (ks : List Nat) (us : List FetchUpset) : (s.fetchPass ks us).2.surround = s.surround := by
  refine (surround_foldl (fun s g => ?_) _ _).trans (surround_checkRegion s)
  split <;> simp

@[simp] theorem surround_fetchFailed (ks : List Nat) : (s.fetchFailed ks).surround = s.surround := by
  refine surround_foldl (fun s k => ?_) _ _
  dsimp only
  split <;> simp

@[simp] theorem surround_beginBeats (p : Nat) : (s.beginBeats p).surround = s.surround := by
  rw [State.beginBeats, surround_modPas, surround_cmds, surround_foldl fun s k => surround_modTile ..]

@[simp] theorem surround_resumeBeats (p : Nat) : (s.resumeBeats p).surround = s.surround := by
  unfold State.resumeBeats
  extract_lets
  split
  · rfl
  · split <;> simp

variable {s}

/-- Step 9 of an unpark is work on the tiles and the defect record; then the half is live, and beats resume (R410, R66). -/
theorem unparkDone_resumes {h : Half} (failures : List BistFailure) (v : FirmwareVerdict) (hr : s.boot.ready = true)
    (hp : (s.half h).state = .poweringUp) :
    ∃ u : State, u.surround = s.surround ∧ exec (.unparkDone h failures v) s =
      .next ((List.range 16).foldl (fun s p => if (s.pasture p).beating then s else s.resumeBeats p)
        (u.putHalf h { u.half h with state := .live }).gateColumns) := by
  simp only [exec, execUnparkDone, hr, hp, ne_eq, not_true_eq_false, decide_false, Bool.not_true, Bool.or_self, Bool.false_eq_true,
    if_false]
  refine ⟨_, ?_, rfl⟩
  rw [surround_foldl fun s k => surround_resetTiles ..]
  simp only [surround_fetchFailed, surround_fetchPass]
  rw [surround_foldl fun s f => surround_unparkFail .., surround_writeReaches]

/-- The half goes live with its rail as it was; ports and memories stay. -/
theorem unparkDone_live {h : Half} (failures : List BistFailure) (v : FirmwareVerdict) (hr : s.boot.ready = true)
    (hp : (s.half h).state = .poweringUp) :
    ∃ t, exec (.unparkDone h failures v) s = .next t ∧ t.half h = { s.half h with state := .live } ∧
      t.hostMem = s.hostMem ∧ t.stackMem = s.stackMem ∧ t.ports = s.ports := by
  obtain ⟨u, hu, hexec⟩ := unparkDone_resumes failures v hr hp
  obtain ⟨hhalf, hports, hstack, hhost⟩ := surround_eq_iff.mp hu
  have hresume : ∀ (s : State) p, (if (s.pasture p).beating then s else s.resumeBeats p).surround = s.surround := fun s p => by
    simp only [apply_ite State.surround, surround_resumeBeats, ite_self]
  obtain ⟨hhalf', hports', hstack', hhost'⟩ := surround_eq_iff.mp
    ((surround_foldl hresume (List.range 16) _).trans (surround_gateColumns (u.putHalf h { u.half h with state := .live })))
  refine ⟨_, hexec, (hhalf' h).trans ?_, hhost'.trans ?_, hstack'.trans ?_, hports'.trans ?_⟩
  · rw [half_putHalf, hhalf]
  · rw [hostMem_putHalf, hhost]
  · rw [stackMem_putHalf, hstack]
  · rw [ports_putHalf, hports]

end Sys2Proof.Machine

namespace Sys2Proof.Settled
open Sys2Proof Sys2Proof.Machine

/-- Settles O25: parking and unparking by their own updates, step 9 by what surrounds the tiles. -/
theorem parkingHalves : Obligations.ParkingHalves := by
  intro h failures v s hr ks
  refine ⟨?park, parkHalf_refused, ?unpark, railUp_range s, ?step9⟩
  case park =>
    exact fun hl hu => ⟨parkHalf_parks hr hl hu, park_half_state s h, fun _ => park_tile_of_mem, fun _ => park_tile_of_notMem⟩
  case unpark => exact fun hp => (unparkHalf_powers hr hp).trans (congrArg _ (unpark_eq s h))
  case step9 =>
    intro hp
    obtain ⟨t, hexec, hhalf, hrest⟩ := unparkDone_live failures v hr hp
    exact ⟨t, hexec, by rw [hhalf], by rw [hhalf], hrest⟩

end Sys2Proof.Settled
end

section
/-!
What the parts of a completed beat leave alone (R42 to R49, R226): of every tile the beat in progress, its gate and its data network, and of
the package what says which tiles are neighbours.
-/
namespace Sys2Proof.Machine

/-- A fold whose every step keeps a part of the state keeps it. -/
theorem foldl_keeps {σ α β : Type} (part : σ → β) {g : σ → α → σ} (hg : ∀ s x, part (g s x) = part s) (l : List α) (s : σ) :
    part (l.foldl g s) = part s := by
  induction l generalizing s with
  | nil => rfl
  | cons x l ih => exact (ih _).trans (hg s x)

/-! ### Of a tile -/

/-- A tile's beat in progress, its gate, and its data network: what its units leave alone in a beat. -/
structure Lane where
  beat      : Nat
  gateOpen  : Bool
  doneTime  : Nat
  moveJobs  : SMap Job
  recvJobs  : SMap Job
  inbox     : SMap Chunk
  latched   : SMap (Nat × List Byte)
  chunksOut : BitVec 32

def Tile.lane (t : Tile) : Lane :=
  ⟨t.beat, t.gateOpen, t.doneTime, t.moveJobs, t.recvJobs, t.inbox, t.latched, t.chunksOut⟩

variable (t pre : Tile) (j : Job) (b : Nat)

/-- What a branch leaves alone, where the other branch is no change. -/
theorem lane_ite {c : Prop} [Decidable c] {t u : Tile} (h : u.lane = t.lane) : (if c then u else t).lane = t.lane := by
  split
  · exact h
  · rfl

@[simp] theorem lane_rwAdd (tag : Nat) (c : RwCount) : (t.rwAdd tag c).lane = t.lane := by
  unfold Tile.rwAdd; extract_lets; split <;> rfl

@[simp] theorem lane_writeLine (mode addr : Nat) (data : List (Nat × Byte)) : (t.writeLine mode addr data).lane = t.lane := by
  unfold Tile.writeLine
  extract_lets ph written
  have h : written.lane = t.lane := foldl_keeps Tile.lane (fun t ob => by rfl) data t
  rw [← h]
  rfl

@[simp] theorem lane_applyAccesses (accs : List Access) : (t.applyAccesses accs).lane = t.lane := by
  refine foldl_keeps Tile.lane (fun t a => ?_) accs t
  split
  · rfl
  · split <;> simp

@[simp] theorem lane_readRecords : t.readRecords.1.lane = t.lane := by
  refine foldl_keeps (fun acc : Tile × List (Status × Nat × Nat) => acc.1.lane) (fun acc kv => ?_) t.shadows (t, [])
  dsimp only
  repeat' split
  all_goals rfl

@[simp] theorem lane_mxAdd (x : Nat × Nat × Nat) : (t.mxAdd j x).lane = t.lane := by
  refine foldl_keeps Tile.lane (fun t a => ?_) _ t
  dsimp only
  split
  · exact lane_rwAdd ..
  · rfl

@[simp] theorem lane_mxApplyC (x : Nat) : (t.mxApplyC j x).lane = t.lane := by
  refine foldl_keeps Tile.lane (fun t a => foldl_keeps Tile.lane (fun t n => ?_) _ t) _ t
  dsimp only
  split
  · rfl
  · split
    · rfl
    · split
      · rfl
      · exact lane_rwAdd ..

@[simp] theorem lane_loadCell (p : Nat) (yx : Nat × Nat) : (t.loadCell j p yx).lane = t.lane := by
  unfold Tile.loadCell
  split
  · rfl
  · exact foldl_keeps Tile.lane (fun t a => by rfl) _ t

@[simp] theorem lane_swapCell (yx : Nat × Nat) : (t.swapCell j yx).lane = t.lane := by
  unfold Tile.swapCell
  exact foldl_keeps Tile.lane (fun t a => by rfl) _ t

@[simp] theorem lane_mxCells : (t.mxCells j b).lane = t.lane := by
  unfold Tile.mxCells
  extract_lets
  split
  · rfl
  · refine foldl_keeps Tile.lane (fun t p => ?_) _ t
    extract_lets e swapped
    refine (foldl_keeps Tile.lane (fun t yx => lane_loadCell t j p yx) _ swapped).trans ?_
    unfold swapped
    split
    · exact foldl_keeps Tile.lane (fun t yx => lane_swapCell t j yx) _ t
    · rfl

@[simp] theorem lane_mxReadout : (t.mxReadout j b).1.lane = t.lane := by
  unfold Tile.mxReadout
  extract_lets
  split
  · rfl
  · exact foldl_keeps (fun acc : Tile × Job => acc.1.lane) (fun acc a => lane_rwAdd ..) _ (t, j)

@[simp] theorem lane_mxBeat : (t.mxBeat pre j b).1.lane = t.lane := by
  unfold Tile.mxBeat
  extract_lets c j e0 read staged r passed streamed applied
  have hread : read.lane = t.lane := by
    unfold read
    split
    · exact foldl_keeps Tile.lane (fun t a => lane_rwAdd ..) _ t
    · rfl
  have hstaged : staged.lane = read.lane := lane_ite (lane_rwAdd ..)
  have hpassed : passed.lane = staged.lane := by unfold passed; split <;> rfl
  have hstreamed : streamed.lane = staged.lane := by
    unfold streamed
    split
    · refine (lane_ite ?_).trans hpassed
      rfl
    · rfl
  have happlied : applied.lane = streamed.lane := lane_ite (lane_mxApplyC ..)
  have hadded (x) : (((x : List (Nat × Nat × Nat)).foldl (fun t x => t.mxAdd j x) (applied.mxCells j b))).lane = t.lane := by
    rw [foldl_keeps Tile.lane (fun t x => lane_mxAdd t j x), lane_mxCells, happlied, hstreamed, hstaged, hread]
  exact (lane_mxReadout ..).trans (hadded _)

@[simp] theorem lane_mxUnit : (t.mxUnit pre b).lane = t.lane :=
  foldl_keeps (fun acc : Tile × List Job => acc.1.lane) (fun acc j => lane_mxBeat acc.1 pre j b) pre.mxJobs (t, [])

@[simp] theorem lane_vxBeat : (t.vxBeat pre j b).1.lane = t.lane := by
  unfold Tile.vxBeat
  extract_lets
  split
  · exact lane_rwAdd ..
  · exact (lane_rwAdd ..).trans (lane_rwAdd ..)

@[simp] theorem lane_vxUnit : (t.vxUnit pre b).lane = t.lane :=
  foldl_keeps (fun acc : Tile × List Job => acc.1.lane) (fun acc j => lane_vxBeat acc.1 pre j b) pre.vxJobs (t, [])

@[simp] theorem lane_mvUnit : (t.mvUnit pre b).lane = t.lane := rfl
@[simp] theorem lane_stkUnit : (t.stkUnit pre b).lane = t.lane := rfl

@[simp] theorem lane_writeSlot (slot : Nat) (ws : List Word) : (t.writeSlot slot ws).lane = t.lane := by
  simp only [Tile.lane, Tile.writeSlot]

@[simp] theorem lane_overlaid : (t.overlaid pre b).lane = t.lane := by
  unfold Tile.overlaid
  exact foldl_keeps Tile.lane (fun t o => lane_writeSlot ..) _ t

@[simp] theorem lane_applyOverlays : (t.applyOverlays pre b).lane = t.lane := lane_overlaid ..

@[simp] theorem lane_applyEarly : (t.applyEarly pre b).lane = t.lane := by
  unfold Tile.applyEarly
  extract_lets look chunk index
  have hchunk : chunk.lane = t.lane := by unfold chunk; split <;> rfl
  have hindex : index.lane = chunk.lane := by unfold index; split <;> rfl
  refine (foldl_keeps Tile.lane (fun t ja => ?_) _ _).trans (hindex.trans hchunk)
  split <;> rfl

/-- What the data network makes of a beat rests on the tile's own data network. -/
theorem lane_dnUnit_congr {t u : Tile} (h : t.lane = u.lane) : (t.dnUnit pre b).lane = (u.dnUnit pre b).lane := by
  simp only [Tile.lane, Tile.dnUnit, Lane.mk.injEq] at h ⊢
  obtain ⟨hbeat, hgate, hdone, -, -, hinbox, hlatched, hout⟩ := h
  simp only [hbeat, hgate, hdone, hinbox, hlatched, hout, and_self]

/-- Of the beat's units the data network alone changes it, and takes what it goes on with from the tile before the beat. -/
theorem lane_beatEffect (mode : BitVec 2) : (pre.beatEffect mode b).lane = (pre.dnUnit pre b).lane := by
  unfold Tile.beatEffect
  extract_lets accs written misses counted recorded mx vx mv
  have hcounted : counted.lane = pre.lane := lane_applyAccesses pre accs
  have hmv : mv.lane = pre.lane := by
    rw [lane_mvUnit, lane_vxUnit, lane_mxUnit, lane_readRecords, hcounted]
  rw [lane_applyOverlays, lane_applyEarly, lane_stkUnit]
  exact lane_dnUnit_congr pre b hmv

@[simp] theorem lane_startRun (entry first : Nat) : (t.startRun entry first).lane = t.lane := rfl

@[simp] theorem lane_beginAt : t.beginAt.lane = t.lane := by
  unfold Tile.beginAt
  split
  · split <;> rfl
  · rfl

end Sys2Proof.Machine
end

section
/-!
What a completed beat leaves alone of the package: the time, the columns of pastures and halves that say which tiles are neighbours, and every
tile's beat, gate and data network but for the tokens it sends (R43, R226).
-/
namespace Sys2Proof.Machine

/-- Whether a pasture is enabled, and its columns. -/
def Pasture.columns (x : Pasture) : Bool × Byte × Byte := (x.enable, x.col0, x.width)

/-- The time, what the neighbours of a tile rest on, and every tile's lane. -/
structure Wiring where
  now     : Nat
  boot    : Boot
  west    : HalfReg
  east    : HalfReg
  columns : Nat → Bool × Byte × Byte
  lanes   : Nat → Lane

def State.wiring (s : State) : Wiring :=
  ⟨s.now, s.boot, s.west, s.east, fun p => (s.pasture p).columns, fun k => (s.tile k).lane⟩

theorem wiring_lane {s u : State} (h : s.wiring = u.wiring) (k : Nat) : (s.tile k).lane = (u.tile k).lane :=
  congrFun (congrArg Wiring.lanes h) k

theorem wiring_now {s u : State} (h : s.wiring = u.wiring) : s.now = u.now := congrArg Wiring.now h

theorem holdsCol_of_wiring {s u : State} (h : s.wiring = u.wiring) (p vx : Nat) : s.holdsCol p vx = u.holdsCol p vx := by
  have hc : (s.pasture p).columns = (u.pasture p).columns := congrFun (congrArg Wiring.columns h) p
  simp only [Pasture.columns, Prod.mk.injEq] at hc
  obtain ⟨henable, hcol0, hwidth⟩ := hc
  simp only [State.holdsCol, henable, hcol0, hwidth]

theorem pasOf_of_wiring {s u : State} (h : s.wiring = u.wiring) (vx : Nat) : s.pasOf vx = u.pasOf vx := by
  simp only [State.pasOf, holdsCol_of_wiring h]

theorem parked_of_wiring {s u : State} (h : s.wiring = u.wiring) (x : Half) : s.parked x = u.parked x := by
  cases x
  · exact congrArg (fun w : Wiring => decide (w.west.state ≠ .live)) h
  · exact congrArg (fun w : Wiring => decide (w.east.state ≠ .live)) h

theorem neighbour_of_wiring {s u : State} (h : s.wiring = u.wiring) (k : Nat) (d : Dir) : s.neighbour k d = u.neighbour k d := by
  have hgrid : s.gridW = u.gridW := congrArg (fun w : Wiring => w.boot.gridW) h
  cases d <;> simp only [State.neighbour, hgrid, pasOf_of_wiring h, parked_of_wiring h]

variable (s : State)

theorem wiring_putTile {k : Nat} {t : Tile} (h : t.lane = (s.tile k).lane) : (s.putTile k t).wiring = s.wiring := by
  simp only [State.wiring, Wiring.mk.injEq]
  refine ⟨rfl, rfl, rfl, rfl, rfl, funext fun j => ?_⟩
  rw [State.putTile_tile_at]
  split
  · next e => rw [e, h]
  · rfl

theorem wiring_modTile {k : Nat} {f : Tile → Tile} (h : ∀ t, (f t).lane = t.lane) : (s.modTile k f).wiring = s.wiring :=
  wiring_putTile s (h _)

theorem wiring_modPas {p : Nat} {f : Pasture → Pasture} (h : ∀ x, (f x).columns = x.columns) : (s.modPas p f).wiring = s.wiring := by
  simp only [State.wiring, Wiring.mk.injEq]
  refine ⟨rfl, rfl, rfl, rfl, funext fun q => ?_, rfl⟩
  rw [State.modPas_pasture_at]
  split
  · next e => rw [e, h]
  · rfl

@[simp] theorem wiring_modStack (n : Nat) (f : Stack → Stack) : (s.modStack n f).wiring = s.wiring := rfl
@[simp] theorem wiring_draw : s.draw.2.wiring = s.wiring := rfl
@[simp] theorem wiring_acceptCmd (c : BurstCmd) : (s.acceptCmd c).wiring = s.wiring := rfl
@[simp] theorem wiring_pasEvent (p : Nat) (st : Status) (d : Nat) : (s.pasEvent p st d).wiring = s.wiring := rfl
@[simp] theorem wiring_alert (n : Nat) : (s.alert n).wiring = s.wiring := rfl
@[simp] theorem wiring_sendAt (r : Option Nat) (p : Packet) : (s.sendAt r p).wiring = s.wiring := rfl

@[simp] theorem wiring_inject (p : Nat) (ff : Bool) (n : Nat) : (s.inject p ff n).2.wiring = s.wiring := by
  unfold State.inject
  extract_lets
  split
  · rfl
  · dsimp only
    refine wiring_modPas s fun x => ?_
    split <;> simp only [Pasture.columns]

@[simp] theorem wiring_send (p : Packet) : (s.send p).wiring = s.wiring := by
  unfold State.send
  split
  · rfl
  · exact wiring_inject ..

@[simp] theorem wiring_stkCorrected (st : Nat) : (s.stkCorrected st).wiring = s.wiring := by
  unfold State.stkCorrected
  extract_lets old new counted
  refine (foldl_keeps State.wiring (fun s p => ?_) _ counted).trans rfl
  split <;> rfl

@[simp] theorem wiring_countRead (gid off : Nat) (r : PortRead) : (s.countRead gid off r).wiring = s.wiring := by
  unfold State.countRead
  extract_lets u
  have hu : u.wiring = s.wiring := by unfold u; split <;> rfl
  split
  · exact hu
  · exact hu

@[simp] theorem wiring_readUpset (st gid off : Nat) (data : List Byte) (late : Bool) :
    (s.readUpset st gid off data late).1.wiring = s.wiring := by
  unfold State.readUpset
  extract_lets
  split
  · exact wiring_countRead ..
  · dsimp only
    split
    · exact (wiring_stkCorrected ..).trans (wiring_countRead ..)
    · exact wiring_countRead ..

@[simp] theorem wiring_burstData (k b port gid off : Nat) : (s.burstData k b port gid off).1.wiring = s.wiring := by
  unfold State.burstData
  extract_lets
  split <;> rfl

@[simp] theorem wiring_burstWrite (k b p port gid off : Nat) (data : List Byte) :
    (s.burstWrite k b p port gid off data).wiring = s.wiring := by
  unfold State.burstWrite
  extract_lets old races keep drawn u
  have hdrawn : drawn.wiring = s.wiring := by unfold drawn; split <;> rfl
  have hu : u.wiring = drawn.wiring := by unfold u; split <;> rfl
  exact hu.trans hdrawn

@[simp] theorem wiring_stkCommand (k p : Nat) (j : Job) (i b : Nat) (line : List Byte) :
    (s.stkCommand k p j i b line).wiring = s.wiring := by
  unfold State.stkCommand
  extract_lets port due mk land u
  have hland : ∀ s l, (land s l).wiring = s.wiring := fun s l => wiring_modTile s fun _ => rfl
  split
  · have hu : u.wiring = s.wiring := by
      unfold u
      split
      · exact wiring_modTile s fun _ => rfl
      · rfl
    split
    · exact hu
    · exact (hland ..).trans hu
  · split
    · rfl
    · next gid off _ =>
      split
      · exact wiring_modTile s fun _ => rfl
      · split
        · exact wiring_burstWrite ..
        · have hread := wiring_burstData s k b port gid off
          generalize s.burstData k b port gid off = r at hread ⊢
          obtain ⟨read, data⟩ := r
          dsimp only
          have hupset := wiring_readUpset read port gid off data
            (decide (stkLatOf j.words < (Config.stkLat port (keyVx k) (keyVy k)).toNat))
          generalize read.readUpset port gid off data _ = r at hupset ⊢
          obtain ⟨upset, landed, arr⟩ := r
          exact (hland ..).trans (hupset.trans hread)

@[simp] theorem wiring_stackCommands (k p b : Nat) (pre : Tile) : (s.stackCommands k p b pre).wiring = s.wiring := by
  refine foldl_keeps State.wiring (fun s j => ?_) _ s
  split
  · split
    · rfl
    · exact wiring_stkCommand ..
  · rfl

@[simp] theorem wiring_rwFlush (k p : Nat) : (s.rwFlush k p).wiring = s.wiring := by
  unfold State.rwFlush
  extract_lets rw
  refine Eq.trans (wiring_modTile _ fun _ => ?_) ?_
  · rfl
  split
  · exact wiring_modPas s fun _ => rfl
  · exact wiring_modPas s fun _ => rfl

@[simp] theorem wiring_haltTile (k p b : Nat) : (s.haltTile k p b).wiring = s.wiring := by
  unfold State.haltTile
  extract_lets t halted flushed
  split
  · exact (wiring_send ..).trans ((wiring_rwFlush ..).trans (wiring_modTile s fun _ => by rfl))
  · rfl

@[simp] theorem wiring_beatAccount (k p b : Nat) (held : Bool) : (s.beatAccount k p b held).wiring = s.wiring := by
  unfold State.beatAccount
  extract_lets t until_ open_ stops bell
  refine wiring_modPas s fun x => ?_
  extract_lets y
  split
  · unfold Pasture.measure
    extract_lets
    split <;> rfl
  · rfl

@[simp] theorem wiring_countCorrected (k n : Nat) : (s.countCorrected k n).wiring = s.wiring := by
  unfold State.countCorrected
  split
  · rfl
  · extract_lets old new u
    have hu : u.wiring = s.wiring := wiring_modTile s fun _ => rfl
    split
    · split
      · exact hu
      · exact hu
    · exact hu

theorem modFirst_columns (x : Pasture) (f : Run → Run) : (x.modFirst f).columns = x.columns := by
  unfold Pasture.modFirst
  split <;> rfl

@[simp] theorem wiring_beginRun (p : Nat) : (s.beginRun p).wiring = s.wiring := by
  refine wiring_modPas s fun x => ?_
  split
  · rfl
  · split
    · exact modFirst_columns ..
    · rfl

@[simp] theorem wiring_noteHolds (p : Nat) : (s.noteHolds p).wiring = s.wiring := by
  refine wiring_modPas s fun x => ?_
  split <;> rfl

end Sys2Proof.Machine
end

section
/-!
Beats (R43 to R49, R55, R316): when a tile's beat completes, what every tile's lane is after it, and the timers and arrivals of a beat.
-/
namespace Sys2Proof.Machine

theorem wiring_putTile_congr {s u : State} {k : Nat} {t t' : Tile} (h : s.wiring = u.wiring) (ht : t.lane = t'.lane) :
    (s.putTile k t).wiring = (u.putTile k t').wiring := by
  simp only [State.wiring, Wiring.mk.injEq] at h ⊢
  obtain ⟨hnow, hboot, hwest, heast, hcolumns, hlanes⟩ := h
  refine ⟨hnow, hboot, hwest, heast, hcolumns, funext fun n => ?_⟩
  rw [State.putTile_tile_at, State.putTile_tile_at, apply_ite Tile.lane, apply_ite Tile.lane, ht, congrFun hlanes n]

variable (s : State) (k p b : Nat)

/-! ### The tokens of a beat leave the rest alone -/

@[simp] theorem now_sendToken (d : Dir) (bs : List Byte) : (s.sendToken k d b bs).now = s.now := by
  unfold State.sendToken
  split <;> rfl

@[simp] theorem now_sendTokens (pre : Tile) : (s.sendTokens k b pre).now = s.now := by
  refine foldl_keeps State.now (fun s dj => ?_) _ s
  split
  · exact now_sendToken ..
  · rfl

/-! ### The lanes after a completed beat -/

/-- The lane with which a tile begins the beat after b, completed at a time. -/
def Lane.next (x : Lane) (b now : Nat) : Lane := { x with beat := b + 1, gateOpen := false, doneTime := now }

/-- A completed beat changes the lanes by the beat of the tile's data network and by the tokens it sends, and then begins the next beat. -/
theorem completeBeat_lanes :
    ∃ u : State, u.wiring = (s.putTile k ((s.tile k).dnUnit (s.tile k) b)).wiring ∧
      ∀ n, ((s.completeBeat k p b).tile n).lane =
        if n = k then ((u.sendTokens k b (s.tile k)).tile k).lane.next b s.now else ((u.sendTokens k b (s.tile k)).tile n).lane := by
  unfold State.completeBeat
  extract_lets pre mode accounted effect
  generalize s.portFaults k p b = faults
  obtain ⟨-, orphans, empties⟩ := faults
  dsimp -zeta only
  extract_lets counted commanded sent halted closed corrected began
  have hcounted : counted.wiring = effect.wiring := wiring_modTile effect fun _ => by rfl
  have heffect : effect.wiring = (s.putTile k ((s.tile k).dnUnit (s.tile k) b)).wiring := by
    have hlane : (pre.beatEffect mode b).lane = (pre.dnUnit pre b).lane := lane_beatEffect ..
    exact wiring_putTile_congr (wiring_beatAccount ..) hlane
  refine ⟨commanded, by rw [wiring_stackCommands, hcounted, heffect], fun n => ?_⟩
  have hhalted : halted.wiring = sent.wiring := wiring_haltTile ..
  have hnow : halted.now = s.now := by
    rw [wiring_now hhalted, now_sendTokens, wiring_now (wiring_stackCommands ..), wiring_now hcounted, wiring_now heffect]; rfl
  have hcorrected : corrected.wiring = closed.wiring := wiring_countCorrected ..
  have hbegan : began.wiring = corrected.wiring := by
    unfold began
    split
    · exact wiring_beginRun ..
    · rfl
  rw [wiring_lane (wiring_noteHolds ..), wiring_lane hbegan, wiring_lane hcorrected, State.modTile_tile_at, apply_ite Tile.lane,
    lane_beginAt, wiring_lane hhalted]
  refine if_congr Iff.rfl ?_ rfl
  change (halted.tile k).lane.next b halted.now = _
  rw [wiring_lane hhalted, hnow]

/-- A beat that completes does so with no other effect of its tile's own (R43): the beat, then the check of the run's length. -/
theorem tryBeat_completes {s : State} {k p : Nat} (h : Claims.beatReady s k p = true) :
    s.tryBeat k = .next (Claims.beatDone s k p) := by
  simp only [Claims.beatReady, Bool.and_eq_true, decide_eq_true_eq, Bool.not_eq_true', List.isEmpty_iff, Option.isNone_iff_eq_none] at h
  obtain ⟨⟨⟨⟨⟨hpas, hlive⟩, hmay⟩, hdue⟩, hfaults⟩, hself⟩ := h
  simp only [State.tryBeat, hpas, hmay, Bool.not_true, Bool.false_eq_true, if_false, whileLive_live hlive, hdue, State.runBeat, hfaults,
    hself, Claims.beatDone]

theorem tryBeat_waits {s : State} {k : Nat} (h : s.mayComplete k = false) : s.tryBeat k = .next s := by
  unfold State.tryBeat
  split
  · rfl
  · simp only [h, Bool.not_false, if_true, nothing]

@[simp] theorem checkLength_tile (n : Nat) : (s.checkLength k p).tile n = s.tile n := by
  unfold State.checkLength
  split
  · split
    · exact stopPasture_tile ..
    · rfl
  · rfl

/-- The completed tile begins its next beat, with its gate closed, at the time of the completion. -/
theorem beatDone_lane : ∃ x : Lane, ((Claims.beatDone s k p).tile k).lane = x.next (s.tile k).beat s.now := by
  obtain ⟨u, -, hlanes⟩ := completeBeat_lanes s k p (s.tile k).beat
  exact ⟨_, by rw [Claims.beatDone, checkLength_tile, hlanes, if_pos rfl]⟩

/-! ### Timers and arrivals -/

variable {s}

theorem itemArrival_completes {vx : Vx} {vy : Vy} {p : Nat} (hlive : s.live (tileKey vx vy) = true)
    (hlate : ((s.tile (tileKey vx vy)).landings.any fun l =>
      decide (l.due = (s.tile (tileKey vx vy)).beat) && decide (l.arrival = .late)) = true)
    (h : Claims.beatReady (Claims.itemThere s (tileKey vx vy)) (tileKey vx vy) p = true) :
    exec (.itemArrival vx vy) s = .next (Claims.beatDone (Claims.itemThere s (tileKey vx vy)) (tileKey vx vy) p) := by
  simp only [exec, execItemArrival, hlive, hlate, Bool.and_self, if_true]
  exact tryBeat_completes h

theorem paceGateOpen_opens {vx : Vx} {vy : Vy} {p : Nat} (hpas : s.pasOf vx = some p) (hlive : s.live (tileKey vx vy) = true)
    (hgate : (s.tile (tileKey vx vy)).gateOpen = false)
    (htime : usT ≤ (s.now - (s.tile (tileKey vx vy)).doneTime) * s.paceOf p) :
    exec (.paceGateOpen vx vy) s = .next (s.putTile (tileKey vx vy) { s.tile (tileKey vx vy) with gateOpen := true }) := by
  simp only [exec, execPaceGateOpen, hpas, inBeat_live hlive, hgate, htime, Bool.not_false, decide_true, Bool.and_self, if_true,
    State.modTile]

theorem stallWatchdog_stops {p : PasId} (hb : (s.pasture p).beating = true) (hs : (s.pasture p).stopped = false)
    (hw : (s.pasture p).waitSince = none)
    (htime : (s.pasture p).stallLimit.toNat * usT + (s.pasture p).waitTime ≤ s.now - (s.pasture p).lastBeatTime) :
    exec (.stallWatchdog p) s = .next (s.stopPasture p St.SEQ_STALL_TIMEOUT) := by
  simp only [exec, execStallWatchdog, hb, hs, hw, Nat.add_zero, htime, Bool.not_false, decide_true, Bool.and_self, if_true]

end Sys2Proof.Machine

namespace Sys2Proof.Settled
open Sys2Proof Sys2Proof.Machine

theorem beatCompletes : Claims.BeatCompletes := by
  intro vx vy s p h
  obtain ⟨x, hx⟩ := beatDone_lane s (tileKey vx vy) p
  exact ⟨tryBeat_completes h, congrArg Lane.beat hx, congrArg Lane.gateOpen hx, congrArg Lane.doneTime hx⟩

theorem beatWaitsForItsConditions : Claims.BeatWaitsForItsConditions := fun _ _ _ h => tryBeat_waits h

theorem beatEvents : Claims.BeatEvents :=
  ⟨fun _ _ _ _ => itemArrival_completes, fun _ _ _ _ => paceGateOpen_opens, fun _ _ => stallWatchdog_stops⟩

/-- Settles O8: a completed beat by the lanes it leaves, the waiting one and the beat's events by their own meanings. -/
theorem beats : Obligations.Beats := ⟨beatCompletes, beatWaitsForItsConditions, beatEvents⟩

end Sys2Proof.Settled
end

section
/-!
The data network of a completed beat (R226, R229, R231, R236, R237): neighbours, the tokens sent, and what each port latches.
-/
namespace Sys2Proof

variable {α : Type}

theorem smapFind_put (m : SMap α) (i j : Nat) (v : α) : smapFind (smapPut m i v) j = if j = i then some v else smapFind m j := by
  induction m with
  | nil => by_cases h : j = i <;> simp [smapPut, smapFind, h]
  | cons kw m ih =>
    obtain ⟨k, w⟩ := kw
    unfold smapPut
    split
    · next hik =>
      by_cases h : j = i
      · simp [smapFind, h]
      · by_cases hj : j < i
        · have hjk : j ≠ k := by omega
          have hjk' : j < k := by omega
          simp [smapFind, h, hj, hjk, hjk']
        · simp [smapFind, h, hj]
    · split
      · next hik => subst hik; by_cases h : j = i <;> simp [smapFind, h]
      · next hik =>
        simp only [smapFind, ih]
        by_cases h : j = i
        · have hjk : j ≠ k := by omega
          have hjk' : ¬ j < k := by omega
          simp [h ▸ hjk, h ▸ hjk', h]
        · simp [h]

theorem smapFind_eq_none {m : SMap α} {i : Nat} (h : ∀ kv ∈ m, kv.1 ≠ i) : smapFind m i = none := by
  induction m with
  | nil => rfl
  | cons kv m ih =>
    have hkv : i ≠ kv.1 := fun e => h kv List.mem_cons_self e.symm
    simp only [smapFind, hkv, if_false, ih fun kv hm => h kv (List.mem_cons_of_mem _ hm), ite_self]

end Sys2Proof

namespace Sys2Proof.Machine

/-! ### Directions and neighbours (R62, R226) -/

theorem num_lt (d : Dir) : d.num < 4 := by cases d <;> decide
theorem num_opposite (d : Dir) : d.opposite.num = (d.num + 2) % 4 := by cases d <;> rfl
theorem num_ofNum {n : Nat} (h : n < 4) : (Dir.ofNum n).num = n := by interval_cases n <;> rfl

/-- Tokens from different directions wait under different keys. -/
theorem inboxKey_opposite_ne {d e : Nat} (b c : Nat) (hd : d < 4) (he : e < 4) (h : d ≠ e) :
    inboxKey b (Dir.ofNum d).opposite.num ≠ inboxKey c (Dir.ofNum e).opposite.num := by
  simp only [inboxKey, num_opposite, num_ofNum hd, num_ofNum he]
  omega

theorem neighbour_south (s : State) {vx vy : Nat} (hx : vx < 64) (hy : vy < 39) :
    s.neighbour (tileKey vx vy) .south = some (tileKey vx (vy + 1), false) := by
  have h : ¬ vy ≥ 39 := by omega
  simp only [State.neighbour, keyVx_tileKey_nat vx vy hx, keyVy_tileKey_nat vx vy hx, h, if_false]

theorem neighbour_north (s : State) {vx vy : Nat} (hx : vx < 64) :
    s.neighbour (tileKey vx (vy + 1)) .north = some (tileKey vx vy, false) := by
  simp only [State.neighbour, keyVx_tileKey_nat vx _ hx, keyVy_tileKey_nat vx _ hx, Nat.succ_ne_zero, if_false, Nat.add_sub_cancel]

/-- No tile is its own neighbour. -/
theorem neighbour_ne {s : State} {k n : Nat} {d : Dir} {seam : Bool} (h : s.neighbour k d = some (n, seam)) : n ≠ k := by
  have hk : k = tileKey (keyVx k) (keyVy k) := by simp only [tileKey, keyVx, keyVy]; omega
  unfold State.neighbour at h
  intro e
  cases d <;> grind [tileKey]

variable (s : State)

@[simp] theorem neighbour_modTile (n : Nat) (f : Tile → Tile) (k : Nat) (d : Dir) :
    (s.modTile n f).neighbour k d = s.neighbour k d := by cases d <;> rfl

/-! ### The tokens a tile sends -/

variable (k b : Nat) (pre : Tile)

/-- The token of one MOVE in beat b, and its count. -/
def State.sendMove (dj : Nat × Job) : State :=
  match (pre.moveOut dj.2 b).1 with
  | some bs => (s.modTile k fun t => { t with chunksOut := t.chunksOut + 1 }).sendToken k (Dir.ofNum dj.1) b bs
  | none => s

theorem sendTokens_eq : s.sendTokens k b pre = pre.moveJobs.foldl (fun s dj => s.sendMove k b pre dj) s := rfl

variable {s k b pre} {d n : Nat} {j : Job} {seam : Bool}

theorem sendMove_none (h : (pre.moveOut j b).1 = none) : s.sendMove k b pre (d, j) = s := by
  simp only [State.sendMove, h]

theorem sendMove_some {bs : List Byte} (h : (pre.moveOut j b).1 = some bs) (hn : s.neighbour k (Dir.ofNum d) = some (n, seam)) :
    s.sendMove k b pre (d, j) = (s.modTile k fun t => { t with chunksOut := t.chunksOut + 1 }).modTile n fun t =>
      { t with inbox := smapPut t.inbox (inboxKey (b + if seam then 2 else 1) (Dir.ofNum d).opposite.num)
                          { bytes := bs, parity := tokenParity bs } } := by
  simp only [State.sendMove, h, State.sendToken, neighbour_modTile, hn]

theorem sendMove_some_apart {bs : List Byte} (h : (pre.moveOut j b).1 = some bs) (hn : s.neighbour k (Dir.ofNum d) = none) :
    s.sendMove k b pre (d, j) = s.modTile k fun t => { t with chunksOut := t.chunksOut + 1 } := by
  simp only [State.sendMove, h, State.sendToken, neighbour_modTile, hn]

@[simp] theorem neighbour_sendMove (dj : Nat × Job) (n : Nat) (e : Dir) : (s.sendMove k b pre dj).neighbour n e = s.neighbour n e := by
  unfold State.sendMove State.sendToken
  split
  · split <;> simp
  · rfl

theorem inbox_modTile_chunksOut (m : Nat) :
    ((s.modTile k fun t => { t with chunksOut := t.chunksOut + 1 }).tile m).inbox = (s.tile m).inbox := by
  rw [State.modTile_tile_at]
  split
  · next e => rw [e]
  · rfl

/-- A MOVE in one direction leaves what waits from another. -/
theorem sendMove_inbox_other {e : Nat} (c m : Nat) (hd : d < 4) (he : e < 4) (hne : d ≠ e) :
    smapFind ((s.sendMove k b pre (d, j)).tile m).inbox (inboxKey c (Dir.ofNum e).opposite.num) =
      smapFind (s.tile m).inbox (inboxKey c (Dir.ofNum e).opposite.num) := by
  cases hout : (pre.moveOut j b).1 with
  | none => rw [sendMove_none hout]
  | some bs =>
    cases hn : s.neighbour k (Dir.ofNum d) with
    | none => rw [sendMove_some_apart hout hn, inbox_modTile_chunksOut]
    | some x =>
      rw [sendMove_some hout hn, State.modTile_tile_at]
      split
      · next hm => rw [smapFind_put, if_neg (inboxKey_opposite_ne _ _ he hd hne.symm), inbox_modTile_chunksOut, hm]
      · rw [inbox_modTile_chunksOut]

theorem sendMoves_inbox_other {e : Nat} (c m : Nat) (he : e < 4) {l : SMap Job} (hl : ∀ x ∈ l, x.1 < 4) (hne : e ∉ l.map (·.1)) :
    smapFind ((l.foldl (fun s dj => s.sendMove k b pre dj) s).tile m).inbox (inboxKey c (Dir.ofNum e).opposite.num) =
      smapFind (s.tile m).inbox (inboxKey c (Dir.ofNum e).opposite.num) := by
  induction l generalizing s with
  | nil => rfl
  | cons x l ih =>
    simp only [List.map_cons, List.mem_cons, not_or] at hne
    rw [List.foldl_cons, ih (fun y hy => hl y (List.mem_cons_of_mem _ hy)) hne.2]
    exact sendMove_inbox_other c m (hl x List.mem_cons_self) he (Ne.symm hne.1)

@[simp] theorem neighbour_sendMoves (l : SMap Job) (n : Nat) (e : Dir) :
    (l.foldl (fun s dj => s.sendMove k b pre dj) s).neighbour n e = s.neighbour n e :=
  foldl_keeps (fun s => s.neighbour n e) (fun _ dj => neighbour_sendMove dj n e) l s

/-- What waits at a neighbour from a MOVE's direction: its chunk with its parity, and where it has none, what waited there before. -/
theorem sendTokens_inbox (hnodup : (pre.moveJobs.map (·.1)).Nodup) (hlt : ∀ x ∈ pre.moveJobs, x.1 < 4) (hj : (d, j) ∈ pre.moveJobs)
    (hn : s.neighbour k (Dir.ofNum d) = some (n, seam)) :
    smapFind ((s.sendTokens k b pre).tile n).inbox (inboxKey (b + if seam then 2 else 1) (Dir.ofNum d).opposite.num) =
      match (pre.moveOut j b).1 with
      | some bs => some { bytes := bs, parity := tokenParity bs }
      | none => smapFind (s.tile n).inbox (inboxKey (b + if seam then 2 else 1) (Dir.ofNum d).opposite.num) := by
  obtain ⟨before, after, hsplit⟩ := List.append_of_mem hj
  have hd : d < 4 := hlt _ hj
  rw [sendTokens_eq]
  rw [hsplit] at hnodup hlt ⊢
  simp only [List.map_append, List.map_cons, List.nodup_append, List.nodup_cons, List.mem_cons, ne_eq] at hnodup
  obtain ⟨-, ⟨hafter, -⟩, hbefore⟩ := hnodup
  have hbefore : d ∉ before.map (·.1) := fun h => hbefore d h d (.inl rfl) rfl
  rw [List.foldl_append, List.foldl_cons, sendMoves_inbox_other _ _ hd (fun x hx => hlt x (by simp [hx])) hafter]
  cases hout : (pre.moveOut j b).1 with
  | none =>
    rw [sendMove_none hout, sendMoves_inbox_other _ _ hd (fun x hx => hlt x (by simp [hx])) hbefore]
  | some bs =>
    rw [sendMove_some hout ((neighbour_sendMoves ..).trans hn), State.modTile_tile_same, smapFind_put, if_pos rfl]

/-- A lane with more chunks sent. -/
def Lane.sent (x : Lane) (n : Nat) : Lane := { x with chunksOut := x.chunksOut + BitVec.ofNat 32 n }

@[simp] theorem Lane.sent_zero (x : Lane) : x.sent 0 = x := by simp only [Lane.sent, BitVec.add_zero]

theorem Lane.sent_sent (x : Lane) (m n : Nat) : (x.sent m).sent n = x.sent (m + n) := by
  simp only [Lane.sent, BitVec.add_assoc, BitVec.ofNat_add]

/-- The sending tile's own lane changes by the count of its tokens. -/
theorem sendMove_lane_self (dj : Nat × Job) :
    ((s.sendMove k b pre dj).tile k).lane = (s.tile k).lane.sent (if (pre.moveOut dj.2 b).1.isSome then 1 else 0) := by
  obtain ⟨d, j⟩ := dj
  cases hout : (pre.moveOut j b).1 with
  | none => rw [sendMove_none hout]; exact (Lane.sent_zero _).symm
  | some bs =>
    cases hn : s.neighbour k (Dir.ofNum d) with
    | none => rw [sendMove_some_apart hout hn, State.modTile_tile_same]; rfl
    | some x =>
      rw [sendMove_some hout hn, State.modTile_tile_other _ _ _ _ (neighbour_ne hn).symm, State.modTile_tile_same]
      rfl

theorem sendMoves_lane_self (l : SMap Job) : ((l.foldl (fun s dj => s.sendMove k b pre dj) s).tile k).lane =
    (s.tile k).lane.sent (l.countP fun x => (pre.moveOut x.2 b).1.isSome) := by
  induction l generalizing s with
  | nil => exact (Lane.sent_zero _).symm
  | cons x l ih => rw [List.foldl_cons, ih, sendMove_lane_self, Lane.sent_sent, List.countP_cons, Nat.add_comm]

/-! ### What a port latches -/

/-- What the RECV of a port has latched after an event there. -/
def PortEvent.latches (e : PortEvent) (b : Nat) (old : Option (Nat × List Byte)) : Option (Nat × List Byte) :=
  match e with
  | .latch bs _ => some (b, bs)
  | .empty => some (b, [])
  | .quiet | .parity | .orphan | .size | .config => old

/-- The chunks latched, with an event at a port. -/
def latchPort (b : Nat) (m : SMap (Nat × List Byte)) (de : Nat × PortEvent) : SMap (Nat × List Byte) :=
  match de.2 with
  | .latch bs _ => smapPut m de.1 (b, bs)
  | .empty => smapPut m de.1 (b, [])
  | .quiet | .parity | .orphan | .size | .config => m

theorem smapFind_latchPort (m : SMap (Nat × List Byte)) (n d : Nat) (e : PortEvent) :
    smapFind (latchPort b m (n, e)) d = if d = n then e.latches b (smapFind m d) else smapFind m d := by
  cases e <;> simp only [latchPort, PortEvent.latches, smapFind_put, ite_self]

theorem smapFind_latchPorts (e : Nat → PortEvent) (m : SMap (Nat × List Byte)) (n d : Nat) :
    smapFind (((List.range n).map fun d => (d, e d)).foldl (latchPort b) m) d =
      if d < n then (e d).latches b (smapFind m d) else smapFind m d := by
  induction n with
  | zero => rfl
  | succ n ih =>
    rw [List.range_succ, List.map_append, List.foldl_append, List.map_singleton, List.foldl_cons, List.foldl_nil, smapFind_latchPort, ih]
    by_cases h : d = n
    · simp [h]
    · have hd : d < n + 1 ↔ d < n := by omega
      simp [h, hd]

variable (t : Tile)

theorem latched_dnUnit (hd : d < 4) :
    smapFind (t.dnUnit t b).latched d = (t.portEvent d b).latches b (smapFind t.latched d) :=
  (smapFind_latchPorts (t.portEvent · b) t.latched 4 d).trans (if_pos hd)

/-- A chunk that arrived for the beat has left its link. -/
theorem inbox_dnUnit (hd : d < 4) : smapFind (t.dnUnit t b).inbox (inboxKey b d) = none := by
  refine smapFind_eq_none fun kv h => ?_
  have hkey : 4 * b + 4 ≤ kv.1 := of_decide_eq_true (List.mem_filter.mp h).2
  simp only [inboxKey]
  omega

/-! ### The events at the ports of a beat without faults -/

variable {t} {p i : Nat}

theorem beatReady_faults (h : Claims.beatReady s k p = true) : s.beatFaults k p (s.tile k).beat = [] := by
  simp only [Claims.beatReady, Bool.and_eq_true, List.isEmpty_iff] at h
  exact h.1.2

/-- No event at a port is a fault in a beat without faults; an empty slot only under STRICT = 0 (R231, R236). -/
theorem portEvent_of_no_fault (h : s.beatFaults k p b = []) (hd : d < 4) :
    ((s.tile k).portEvent d b ≠ .parity ∧ (s.tile k).portEvent d b ≠ .size ∧ (s.tile k).portEvent d b ≠ .config) ∧
      ((s.tile k).portEvent d b = .empty → (s.pasture p).strict = false) := by
  have hports : (s.portFaults k p b).1 = [] := by
    simp only [State.beatFaults, List.append_eq_nil_iff] at h
    exact h.1.2
  simp only [State.portFaults, List.append_eq_nil_iff, List.flatMap_eq_nil_iff] at hports
  have hport := hports.1 (d, (s.tile k).portEvent d b) (List.mem_map_of_mem (List.mem_range.mpr hd))
  generalize (s.tile k).portEvent d b = e at hport
  cases e <;> simp_all

theorem portEvent_none (h : smapFind t.inbox (inboxKey b d) = none) (hr : (t.recvAt d b).isSome = true) : t.portEvent d b = .empty := by
  obtain ⟨x, hx⟩ := Option.isSome_iff_exists.mp hr
  simp only [Tile.portEvent, h, hx]

/-- A port without a RECV latches nothing. -/
theorem latches_of_no_recv (h : t.recvAt d b = none) (old : Option (Nat × List Byte)) : (t.portEvent d b).latches b old = old := by
  simp only [Tile.portEvent, h]
  cases smapFind t.inbox (inboxKey b d) with
  | none => rfl
  | some c => dsimp only; split <;> rfl

/-- A chunk at a port with a RECV, where that is no fault (R229, R237): its parity is good, it is latched, and stored in its record's size. -/
theorem portEvent_recv {c : Chunk} (hfault : (t.portEvent d b) ≠ .parity ∧ (t.portEvent d b) ≠ .size ∧ (t.portEvent d b) ≠ .config)
    (hc : smapFind t.inbox (inboxKey b d) = some c) (hr : t.recvAt d b = some (j, i)) :
    c.parity = tokenParity c.bytes ∧ (∀ old, (t.portEvent d b).latches b old = some (b, c.bytes)) ∧
      ∀ r, recvStores j.words = true → j.mrRec = some r → c.bytes.length = r.sz 0 ∧
        (t.portEvent d b).accesses = writeAccesses r.hash (addressed (r.row j.ctrs i) c.bytes) := by
  simp only [Tile.portEvent, hc, hr] at hfault ⊢
  by_cases hpar : c.parityOk = true
  · simp only [hpar, Bool.not_true, Bool.false_eq_true, if_false] at hfault ⊢
    refine ⟨of_decide_eq_true hpar, ?_⟩
    by_cases hs : recvStores j.words = true
    · simp only [hs, Bool.not_true, Bool.false_eq_true, if_false] at hfault ⊢
      cases hrec : j.mrRec with
      | none => simp [PortEvent.latches]
      | some r =>
        simp only [hrec] at hfault ⊢
        by_cases hsize : c.bytes.length = r.sz 0
        · by_cases hfits : chunkFits (r.row j.ctrs i) (r.sz 0) = true
          · simp [hsize, hfits, PortEvent.latches, PortEvent.accesses]
          · simp [hsize, hfits] at hfault
        · simp [hsize] at hfault
    · simp [hs, PortEvent.latches]
  · simp [hpar] at hfault

theorem mem_accesses_of_port {x : Access} (hd : d < 4) (hx : x ∈ (t.portEvent d b).accesses) : x ∈ t.accesses b := by
  have h : x ∈ (t.portEvents b).flatMap fun de => de.2.accesses :=
    List.mem_flatMap.mpr ⟨(d, t.portEvent d b), List.mem_map_of_mem (List.mem_range.mpr hd), hx⟩
  simp only [Tile.accesses, Tile.jobAccesses, List.mem_append]
  tauto

/-! ### A MOVE from scratchpad -/

theorem mem_accesses_of_move {x : Access} {r : Rec} {a : Int} (hj : (d, j) ∈ t.moveJobs) (hread : j.moveRead b = some (r, a))
    (hx : x ∈ r.readLines (spanLines a (r.sz 0))) : x ∈ t.accesses b := by
  have h : x ∈ (t.moveJobs.filterMap fun dj => dj.2.moveRead b).flatMap fun (r, a) => r.readLines (spanLines a (r.sz 0)) :=
    List.mem_flatMap.mpr ⟨(r, a), List.mem_filterMap.mpr ⟨(d, j), hj, hread⟩, hx⟩
  simp only [Tile.accesses, Tile.jobAccesses, List.mem_append]
  tauto

theorem mrChunk_eq_some {c : Nat} : j.mrChunk b = some c ↔ j.go ≤ b ∧ b - j.go < moveBeats j.words ∧ b - j.go = c := by
  simp only [Job.mrChunk, Option.ite_none_right_eq_some, Bool.and_eq_true, decide_eq_true_eq, Option.some.injEq, and_assoc]

theorem moveRead_next {r : Rec} {a : Int} (h : j.moveRead b = some (r, a)) :
    moveSel j.words = 0 ∧ j.mrChunk (b + 1) = some (b + 1 - j.go) ∧ b < j.mrLast := by
  unfold Job.moveRead at h
  split at h
  · next i _ hchunk =>
    obtain ⟨hgo, hlen, rfl⟩ := mrChunk_eq_some.mp hchunk
    split at h
    · next hsel =>
      simp only [Bool.and_eq_true, decide_eq_true_eq] at hsel
      refine ⟨hsel.1, hchunk, ?_⟩
      simp only [Job.mrLast]
      omega
    · cases h
  · cases h

/-- The job that has read its chunk of the beat goes on, and puts that chunk out in the next beat (R226). -/
theorem move_reads_ahead {u : Tile} {r : Rec} {a : Int} (hj : (d, j) ∈ t.moveJobs) (hread : j.moveRead b = some (r, a))
    (hu : u.moveJobs = (t.dnUnit t b).moveJobs) :
    ∃ j', (d, j') ∈ u.moveJobs ∧ (u.moveOut j' (b + 1)).1 = some (t.bytes r.hash a (r.sz 0)) := by
  obtain ⟨hsel, hchunk, hlast⟩ := moveRead_next hread
  refine ⟨{ j with cap := smapPut j.cap ((b + 1) - j.go) (t.bytes r.hash a (r.sz 0)) }, ?_, ?_⟩
  · rw [hu]
    refine List.mem_filter.mpr ⟨List.mem_map.mpr ⟨(d, j), hj, ?_⟩, decide_eq_true hlast⟩
    simp only [hread]
  · have hchunk' : Job.mrChunk { j with cap := smapPut j.cap ((b + 1) - j.go) (t.bytes r.hash a (r.sz 0)) } (b + 1) =
        some (b + 1 - j.go) := hchunk
    simp only [Tile.moveOut, hchunk', hsel, if_true, smapFind_put]

/-! ### The whole beat -/

/-- The tiles' data networks after a completed beat: the completing tile's own as its beat leaves it, with its tokens counted, and every other
as the tokens sent leave it. -/
theorem beatDone_lanes (s : State) (k p : Nat) : ∃ u : State,
    (∀ n d, u.neighbour n d = s.neighbour n d) ∧ (∀ n, n ≠ k → (u.tile n).inbox = (s.tile n).inbox) ∧
    (∀ n, n ≠ k → ((Claims.beatDone s k p).tile n).inbox = ((u.sendTokens k (s.tile k).beat (s.tile k)).tile n).inbox) ∧
    ((Claims.beatDone s k p).tile k).lane = ((((s.tile k).dnUnit (s.tile k) (s.tile k).beat).lane.sent
      ((s.tile k).moveJobs.countP fun x => ((s.tile k).moveOut x.2 (s.tile k).beat).1.isSome)).next (s.tile k).beat s.now) := by
  obtain ⟨u, hu, hlanes⟩ := completeBeat_lanes s k p (s.tile k).beat
  have hlane := wiring_lane hu
  refine ⟨u, fun n d => ?_, fun n hn => ?_, fun n hn => ?_, ?_⟩
  · rw [neighbour_of_wiring hu]; cases d <;> rfl
  · have h := hlane n
    rw [State.putTile_tile_other _ _ _ _ hn] at h
    exact congrArg Lane.inbox h
  · rw [Claims.beatDone, checkLength_tile]
    exact congrArg Lane.inbox ((hlanes n).trans (if_neg hn))
  · rw [Claims.beatDone, checkLength_tile, hlanes, if_pos rfl, sendTokens_eq, sendMoves_lane_self, hlane k, State.putTile_tile_same]

/-! ### A forwarding MOVE -/

theorem moveOut_latched {c : Nat} {bs : List Byte} (hc : j.mrChunk b = some i) (hsel : moveSel j.words ≠ 0)
    (h : smapFind t.latched (moveSel j.words - 4) = some (c, bs)) :
    t.moveOut j b = if c + 1 = b then (if bs = [] then none else some bs, false) else (none, true) := by
  simp only [Tile.moveOut, hc, hsel, if_false, h, List.isEmpty_iff]

theorem moveOut_unlatched (hc : j.mrChunk b = some i) (hsel : moveSel j.words ≠ 0)
    (h : smapFind t.latched (moveSel j.words - 4) = none) : t.moveOut j b = (none, true) := by
  simp only [Tile.moveOut, hc, hsel, if_false, h]

end Sys2Proof.Machine

namespace Sys2Proof.Settled
open Sys2Proof Sys2Proof.Machine

theorem stitchSeamIsAnOrdinaryHop : Claims.StitchSeamIsAnOrdinaryHop :=
  fun s _ _ hx hy => ⟨neighbour_south s hx hy, neighbour_north s hx⟩

theorem tokensOfABeat : Claims.TokensOfABeat := by
  intro vx vy s p h k t b hnodup hlt
  obtain ⟨u, hneighbour, hbefore, hother, hself⟩ := beatDone_lanes s k p
  have hmoves : ((Claims.beatDone s k p).tile k).moveJobs = (t.dnUnit t b).moveJobs := congrArg Lane.moveJobs hself
  have hlatched : ((Claims.beatDone s k p).tile k).latched = (t.dnUnit t b).latched := congrArg Lane.latched hself
  have hinbox : ((Claims.beatDone s k p).tile k).inbox = (t.dnUnit t b).inbox := congrArg Lane.inbox hself
  refine ⟨Claims.beatDone s k p, tryBeat_completes h, ?sent, congrArg Lane.chunksOut hself, ?read, ?latch, ?empty, ?unlatched,
    fun d hd => (congrArg (smapFind · _) hinbox).trans (inbox_dnUnit t hd)⟩
  case sent =>
    intro d j nk seam hj hn
    have hsent := sendTokens_inbox (b := b) hnodup hlt hj ((hneighbour ..).trans hn)
    rw [hbefore nk (neighbour_ne hn)] at hsent
    refine ⟨fun bs hbs => ?_, fun hnone => ?_⟩
    · rw [hother nk (neighbour_ne hn), hsent, hbs]
    · rw [hother nk (neighbour_ne hn), hsent, hnone]
  case read =>
    intro d j r a hj hread
    exact ⟨fun x => mem_accesses_of_move hj hread, move_reads_ahead hj hread hmoves⟩
  case latch =>
    intro d c j i hd hc hr
    obtain ⟨hparity, hlatch, hstore⟩ := portEvent_recv (portEvent_of_no_fault (beatReady_faults h) hd).1 hc hr
    refine ⟨hparity, by rw [hlatched, latched_dnUnit t hd, hlatch], fun r hs hrec => ?_⟩
    obtain ⟨hsize, haccs⟩ := hstore r hs hrec
    exact ⟨hsize, fun x hx => mem_accesses_of_port hd (haccs ▸ hx)⟩
  case empty =>
    intro d hd hc hr
    have hempty : t.portEvent d b = .empty := portEvent_none hc hr
    refine ⟨(portEvent_of_no_fault (beatReady_faults h) hd).2 hempty, ?_⟩
    rw [hlatched, latched_dnUnit t hd, hempty]
    rfl
  case unlatched =>
    intro d hd hr
    rw [hlatched, latched_dnUnit t hd, latches_of_no_recv hr]

theorem forwardedChunks : Claims.ForwardedChunks := by
  intro t j b i hc hsel
  refine ⟨fun c bs h => ?_, moveOut_unlatched hc hsel⟩
  rw [moveOut_latched hc hsel h]
  exact ⟨fun e hbs => by rw [if_pos e, if_neg hbs], fun e hbs => by rw [if_pos e, if_pos hbs], fun e => if_neg e⟩

/-- Settles O58: the neighbours of a row, the lanes that a completed beat leaves, and the chunk a forwarding MOVE finds latched. -/
theorem dataNetworkTokens : Obligations.DataNetworkTokens := ⟨stitchSeamIsAnOrdinaryHop, tokensOfABeat, forwardedChunks⟩

end Sys2Proof.Settled
end

section
/-!
Starting and stopping a pasture (R378, R379, R425).
-/
namespace Sys2Proof.Machine

/-! ### Automatic ownership -/

/-- The pastures, the tiles and host memory. -/
def State.grazing (s : State) : SMap Pasture × SMap Tile × Memory := (s.pas, s.tiles, s.hostMem)

/-- Giving a group to an owner is about the stacks alone (R249, R250). -/
theorem grazing_assignGroup (s : State) (gid : Nat) (owner : Option Nat) : (s.assignGroup gid owner).grazing = s.grazing := by
  unfold State.assignGroup
  extract_lets
  split
  · rfl
  · split <;> rfl

theorem grazing_applyAuto (s : State) : s.applyAuto.grazing = s.grazing := by
  unfold State.applyAuto
  split
  · refine foldl_keeps State.grazing (fun s g => ?_) _ s
    split
    · rfl
    · exact grazing_assignGroup ..
  · rfl

theorem applyAuto_keeps (s : State) : s.applyAuto.pas = s.pas ∧ s.applyAuto.tiles = s.tiles ∧ s.applyAuto.hostMem = s.hostMem := by
  simpa only [State.grazing, Prod.mk.injEq] using grazing_applyAuto s

/-! ### Starts -/

variable {s : State} {p : PasId} {col0 width : Byte}

/-- A pasture opened with its columns: one that a quarantine had stopped is not stopped any more. -/
def State.openedAt (s : State) (p : Nat) (col0 width : Byte) : State :=
  (((s.geomResult p St.OK).enabledAt p col0 width).modPas p fun x =>
    { x with stopped := x.stopped && x.qAnchor.isNone, qAnchor := none, stopTime := s.now }).applyAuto

/-- A pasture with a quarantined tile is stopped (R425). -/
def State.keptStopped (s : State) (p : Nat) : State :=
  if s.hasQuarantine p then s.modPas p fun x => { x with stopped := true } else s

/-- A start that no check refuses, of a pasture not enabled, opens it; then it waits for its groups' clears or beats. -/
theorem pastureStart_accepted (hr : s.boot.ready = true) (he : (s.pasture p).enable = false)
    (hc : s.startRefusal p col0 width = none) :
    exec (.pastureStart p col0 width) s = .next (if ((s.openedAt p col0 width).keptStopped p).clearingFor p
      then ((s.openedAt p col0 width).keptStopped p).modPas p fun x => { x with awaitClear := true }
      else ((s.openedAt p col0 width).keptStopped p).resumeBeats p) := by
  simp only [exec, execPastureStart, hr, he, hc, Bool.not_true, Bool.false_and, Bool.false_eq_true, if_false]
  exact (apply_ite Host.Outcome.next ..).symm

theorem pastureStart_refused {st : Status} (hr : s.boot.ready = true) (he : (s.pasture p).enable = false)
    (hc : s.startRefusal p col0 width = some st) :
    exec (.pastureStart p col0 width) s = .next (s.modPas p fun x => { x with geomStatus := st }) := by
  simp only [exec, execPastureStart, hr, he, hc, Bool.not_true, Bool.false_and, Bool.false_eq_true, if_false, State.geomResult]

theorem pastureStart_elsewhere (hr : s.boot.ready = true) (he : (s.pasture p).enable = true)
    (hc : (s.pasture p).col0 ≠ col0 ∨ (s.pasture p).width ≠ width) :
    exec (.pastureStart p col0 width) s = .next (s.modPas p fun x => { x with geomStatus := St.HOST_GEOM_INVALID }) := by
  simp only [exec, execPastureStart, hr, he, Bool.not_true, Bool.false_eq_true, if_false, Bool.true_and, State.geomResult]
  exact if_pos (by simpa using hc)

theorem pastureStart_notReady (hr : s.boot.ready = false) : exec (.pastureStart p col0 width) s = .next s := by
  simp only [exec, execPastureStart, hr, Bool.not_false, if_true, nothing]

theorem keptStopped_of_quarantine {p : Nat} (h : s.hasQuarantine p = true) :
    s.keptStopped p = s.modPas p fun x => { x with stopped := true } := if_pos h
theorem keptStopped_of_sound {p : Nat} (h : s.hasQuarantine p = false) : s.keptStopped p = s := if_neg (Bool.eq_false_iff.mp h)

/-- A stopped pasture does not resume. -/
theorem resumeBeats_of_stopped {p : Nat} (h : (s.pasture p).stopped = true) : s.resumeBeats p = s := by
  simp only [State.resumeBeats, h, Bool.or_true, Bool.true_or, if_true]

/-! ### Stops -/

theorem pastureStop_busy (h : (s.pasture p).runs ≠ [] ∨ (s.pasture p).loading.isSome = true) :
    exec (.pastureStop p) s = .next (s.modPas p fun x => { x with geomStatus := St.HOST_PASTURE_BUSY }) := by
  have hbusy : (!(s.pasture p).runs.isEmpty || (s.pasture p).loading.isSome) = true := by
    simpa [List.isEmpty_iff] using h
  simp only [exec, execPastureStop, hbusy, if_true, State.geomResult]

/-- The state with a pasture disabled and unloaded. -/
def State.disabledAt (s : State) (p : Nat) : State := ((s.endOutage p).endStall p).modPas p fun x =>
  { x with enable := false, beating := false, inTest := false, awaitClear := false, geomStatus := St.OK, loaded := false,
           hasWeights := false, program := none, weights := none, progEntries := 0, progExact := false, progLtv := 0 }

theorem disabledAt_other {p q : Nat} (h : q ≠ p) : (s.disabledAt p).pasture q = s.pasture q := by
  rw [State.disabledAt, State.modPas_pasture_other _ _ _ _ h, State.endStall, State.modPas_pasture_other _ _ _ _ h]
  rfl

theorem pastureStop_disables (hruns : (s.pasture p).runs = []) (hload : (s.pasture p).loading = none) :
    exec (.pastureStop p) s = .next (s.disabledAt p).applyAuto := by
  simp only [exec, execPastureStop, hruns, hload, List.isEmpty_nil, Bool.not_true, Option.isSome_none, Bool.or_self,
    Bool.false_eq_true, if_false, State.disabledAt]

/-- A stop disables the pasture and takes its load away, and leaves every other pasture, the tiles and host memory. -/
theorem pastureStop_idle (hruns : (s.pasture p).runs = []) (hload : (s.pasture p).loading = none) :
    ∃ t, exec (.pastureStop p) s = .next t ∧ (t.pasture p).enable = false ∧ (t.pasture p).beating = false ∧
      (t.pasture p).program = none ∧ (t.pasture p).geomStatus = St.OK ∧ t.tiles = s.tiles ∧ t.hostMem = s.hostMem ∧
      ∀ q, q ≠ p.val → t.pasture q = s.pasture q := by
  obtain ⟨hpas, htiles, hhost⟩ := applyAuto_keeps (s.disabledAt p)
  have hpasture : ∀ q, (s.disabledAt p).applyAuto.pasture q = (s.disabledAt p).pasture q := fun q => by
    simp only [State.pasture, hpas]
  refine ⟨_, pastureStop_disables hruns hload, ?_⟩
  simp only [hpasture, htiles, hhost]
  have hdisabled : (s.disabledAt p).pasture p = _ := State.modPas_pasture_same ..
  rw [hdisabled]
  exact ⟨rfl, rfl, rfl, rfl, rfl, rfl, fun q => disabledAt_other⟩

end Sys2Proof.Machine

namespace Sys2Proof.Settled
open Sys2Proof Sys2Proof.Machine

/-- Settles O40: a start opens its pasture, which a quarantine keeps stopped and a clear keeps waiting; a stop is about its pasture alone. -/
theorem pastureStartAndStop : Obligations.PastureStartAndStop := by
  intro p col0 width s st opened held
  have hopened : opened.applyAuto = s.openedAt p col0 width := rfl
  refine ⟨?beats, ?waits, ?quarantined, pastureStart_elsewhere, pastureStart_notReady, pastureStart_refused, pastureStop_idle,
    pastureStop_busy⟩
  case beats =>
    intro hr he hc hq hclear
    rw [hopened] at hq
    rw [pastureStart_accepted hr he hc, keptStopped_of_sound hq]
    exact congrArg _ (if_neg (Bool.eq_false_iff.mp hclear))
  case waits =>
    intro hr he hc hq hclear
    rw [hopened] at hq
    rw [pastureStart_accepted hr he hc, keptStopped_of_sound hq]
    exact congrArg _ (if_pos hclear)
  case quarantined =>
    intro hr he hc hq
    have hstopped : (held.pasture p).stopped = true := by simp only [held, State.modPas_pasture_same]
    rw [hopened] at hq
    rw [pastureStart_accepted hr he hc, keptStopped_of_quarantine hq]
    exact ⟨rfl, by rw [resumeBeats_of_stopped hstopped, hstopped]⟩

end Sys2Proof.Settled
end

section
/-!
The stages of a run (R71, R186, R391 to R393): its ingress, its start, and its completion.
-/
namespace Sys2Proof.Machine

/-! ### Before the ingress -/

/-- The state in which a run's inputs are copied: a store rewrite still due is made, and a slow host is noted (R186, R392). -/
def State.readyToCopy (s : State) (p : Nat) (slow : Bool) : State :=
  if slow then (s.refreshStore p).noteCause p St.HOST_BREACH_HOST else s.refreshStore p

@[simp] theorem refreshStore_hostMem (s : State) (p : Nat) : (s.refreshStore p).hostMem = s.hostMem := by
  unfold State.refreshStore
  split
  · unfold State.rewriteStore
    split
    · rfl
    · rw [State.modPas_hostMem]
      exact foldl_keeps State.hostMem (fun s kv => by rfl) _ s
  · rfl

@[simp] theorem readyToCopy_hostMem (s : State) (p : Nat) (slow : Bool) : (s.readyToCopy p slow).hostMem = s.hostMem := by
  unfold State.readyToCopy
  split
  · exact refreshStore_hostMem ..
  · exact refreshStore_hostMem ..

/-- The list of a run's copies is what host memory holds. -/
theorem ioList_of_hostMem {s u : State} (h : u.hostMem = s.hostMem) (list n : Nat) : u.ioList list n = s.ioList list n := by
  have helem : u.ioElem list = s.ioElem list := funext fun i => by simp only [State.ioElem, State.readHost, h]
  rw [State.ioList, helem, State.ioList]

/-! ### The ingress -/

variable {s s' : State} {p : PasId} {env : IoOutcome} {r : Run} {rest : List Run} {bs : List Byte} {st : Status}

/-- A stack refuses a copy where it fails and the list has an element on a stack. -/
theorem stackRefuses_false {es : List IoElem} (h : env.stackOk = true ∨ ∀ e ∈ es, e.kind ≠ 1) :
    (!env.stackOk && es.any fun e => decide (e.kind = 1)) = false := by
  rcases h with h | h
  · rw [h]; rfl
  · rw [List.any_eq_false.mpr fun e he => by simpa using h e he, Bool.and_false]

theorem stackRefuses_true {es : List IoElem} (hs : env.stackOk = false) (h : ∃ e ∈ es, e.kind = 1) :
    (!env.stackOk && es.any fun e => decide (e.kind = 1)) = true := by
  simpa [hs] using h

/-- An ingress that is due is made from the state after the store's rewrite: each refusal in its order, then the copies. -/
theorem runIngress_eq {u : State} {es : List IoElem} (hu : s.readyToCopy p env.slow = u) (hes : s.ioList r.inList r.inN = es)
    (hruns : (s.pasture p).runs = r :: rest) (hstage : r.stage = .queued) (htakes : (s.pasture p).takesRun = true) :
    exec (.runIngress p env) s =
      if !env.dmaOk then .next ((u.noteDma r.id.fn).failFirst p St.HOST_DMA)
      else if !u.listOk p es r.entry.inBytes then .next (u.failFirst p St.HOST_IO_RANGE)
      else if !env.stackOk && es.any (fun e => decide (e.kind = 1)) then .next (u.failFirst p St.STACK_WRITE_FAIL)
      else match u.ingress p es with
        | (v, some st, _) => .next (v.failFirst p st)
        | (v, none, bs) => .next (v.modPas p fun x => x.modFirst fun r => { r with stage := .ingressed, inputs := bs }) := by
  simp only [exec, execRunIngress, hruns, hstage, htakes, ne_eq, not_true_eq_false, decide_false, Bool.not_true, Bool.or_self,
    Bool.false_eq_true, if_false]
  rw [← hes, ← ioList_of_hostMem (readyToCopy_hostMem s p env.slow), ← hu]
  rfl

/-! ### The start -/

theorem runStart_eq (hruns : (s.pasture p).runs = r :: rest) (hstage : r.stage = .ingressed) (htakes : (s.pasture p).takesRun = true) :
    exec (.runStart p) s =
      let ks := s.tilesOf p
      let b := firstBeat r.entry.phase (ks.foldl (fun m k => max m (s.tile k).beat) (s.logOf p))
      .next (((ks.foldl (fun s k => s.modTile k fun t => ({ t with starts := some (r.entry.entry.toNat, b) }).beginAt) s).modPas p fun x =>
        { x.modFirst fun r => { r with stage := .running, first := b, haltMax := none } with haltCount := 0 }).beginRun p) := by
  simp only [exec, execRunStart, hruns, hstage, htakes, ne_eq, not_true_eq_false, decide_false, Bool.not_true, Bool.or_self,
    Bool.false_eq_true, if_false]

/-- The first beat of a run is the next one that its watch phase allows (R391). -/
theorem firstBeat_spec (phase beat : Nat) :
    (firstBeat phase beat + phase) % 4096 = 0 ∧ beat ≤ firstBeat phase beat ∧ firstBeat phase beat < beat + 4096 := by
  unfold firstBeat
  extract_lets b
  split <;> omega

theorem le_foldl_max (f : Nat → Nat) (l : List Nat) (m : Nat) : m ≤ l.foldl (fun m k => max m (f k)) m := by
  induction l generalizing m with
  | nil => exact le_rfl
  | cons k l ih => exact (le_max_left m (f k)).trans (ih _)

/-! ### The completion -/

/-- A completion that is due: each refusal in its order, then the copies, the stamp and the completion. -/
theorem runCompletion_eq {es : List IoElem} (hes : s.ioList r.outList r.outN = es) (hruns : (s.pasture p).runs = r :: rest)
    (hstage : r.stage = .recorded) : exec (.runCompletion p env) s =
      if !env.dmaOk then .next ((s.noteDma r.id.fn).failFirst p St.HOST_DMA)
      else if !s.listOk p es r.entry.outBytes then .next (s.failFirst p St.HOST_IO_RANGE)
      else if !env.stackOk && es.any (fun e => decide (e.kind = 1)) then .next (s.failFirst p St.STACK_ECC_UNCORR)
      else match s.egress p es with
        | (v, some st, _) => .next ({ v with hostMem := s.hostMem }.failFirst p st)
        | (v, none, bs) => .next ((v.writeStamp p r true ((r.haltMax.getD r.first) - r.first) (sm3 bs)).deliverFirst p r) := by
  subst hes
  simp only [exec, execRunCompletion, hruns, hstage, ne_eq, not_true_eq_false, if_false] <;> rfl

end Sys2Proof.Machine

namespace Sys2Proof.Settled
open Sys2Proof Sys2Proof.Machine

/-- Settles O39: each stage by its own equation, its refusals in their order. -/
theorem runStages : Obligations.RunStages := by
  intro p env s s' r rest bs st hruns s0 ins outs ks b
  have hingress := runIngress_eq (s := s) (env := env) (u := s0) (es := ins) rfl rfl hruns
  have hcompletion := runCompletion_eq (s := s) (env := env) (es := outs) rfl hruns
  refine ⟨?copied, ?badList, ?badDma, ?refused, runStart_eq hruns, ?firstBeat, ?completed, ?outDma, ?outList, ?outRefused⟩
  case copied =>
    intro hq ht hd hl hk hin
    simp only [hingress hq ht, hd, hl, stackRefuses_false hk, hin, Bool.not_true, Bool.false_eq_true, if_false]
  case badList =>
    intro hq ht hd hl
    simp only [hingress hq ht, hd, hl, Bool.not_true, Bool.not_false, Bool.false_eq_true, if_false, if_true]
  case badDma =>
    intro hq ht hd
    simp only [hingress hq ht, hd, Bool.not_false, if_true]
  case refused =>
    intro hq ht hd hl
    refine ⟨fun hs hk => ?_, fun hk hin => ?_⟩
    · simp only [hingress hq ht, hd, hl, stackRefuses_true hs hk, Bool.not_true, Bool.false_eq_true, if_false, if_true]
    · simp only [hingress hq ht, hd, hl, stackRefuses_false hk, hin, Bool.not_true, Bool.false_eq_true, if_false]
  case firstBeat =>
    obtain ⟨hphase, hle, hlt⟩ := firstBeat_spec r.entry.phase (ks.foldl (fun m k => max m (s.tile k).beat) (s.logOf p))
    exact ⟨hphase, (le_foldl_max ..).trans hle, hlt⟩
  case completed =>
    intro hq hd hl hk hout
    simp only [hcompletion hq, hd, hl, stackRefuses_false hk, hout, Bool.not_true, Bool.false_eq_true, if_false]
  case outDma =>
    intro hq hd
    simp only [hcompletion hq, hd, Bool.not_false, if_true]
  case outList =>
    intro hq hd hl
    simp only [hcompletion hq, hd, hl, Bool.not_true, Bool.not_false, Bool.false_eq_true, if_false, if_true]
  case outRefused =>
    intro hq hd hl
    refine ⟨fun hs hk => ?_, fun hk hout => ?_⟩
    · simp only [hcompletion hq, hd, hl, stackRefuses_true hs hk, Bool.not_true, Bool.false_eq_true, if_false, if_true]
    · simp only [hcompletion hq, hd, hl, stackRefuses_false hk, hout, Bool.not_true, Bool.false_eq_true, if_false]

end Sys2Proof.Settled
end

section
/-!
The pace limit in force and the helm (R51, R52, R54, R56, R489).
-/
namespace Sys2Proof.Machine

/-! ### Pace limits -/

theorem toNat_clampRate (s : State) (v : Nat) : (s.clampRate v).toNat = min 1800 (max s.facts.grade.floor v) := by
  simp only [State.clampRate, BitVec.toNat_ofNat]
  omega

/-- The lower of a limit and one that may be absent, where an absent one reads as the highest rate there is. -/
theorem toNat_lowerOf (a : BitVec 12) (b : Option (BitVec 12)) : (lowerOf a b).toNat = min a.toNat ((b.map (·.toNat)).getD 4095) := by
  cases b with
  | none =>
    have h : a.toNat < 4096 := a.isLt
    simp only [lowerOf, Option.map_none, Option.getD_none]
    omega
  | some b =>
    simp only [lowerOf, BitVec.lt_def, Option.map_some, Option.getD_some]
    split <;> omega

theorem toNat_repace (x : Pasture) : x.repace.paceInForce.toNat =
    min (min (min x.paceLimit.toNat ((x.capLimit.map (·.toNat)).getD 4095)) ((x.heatLimit.map (·.toNat)).getD 4095))
      ((x.stackLimit.map (·.toNat)).getD 4095) := by
  simp only [Pasture.repace, toNat_lowerOf]

theorem paceLimitWrite_writes {s : State} {fn : FnId} {p : PasId} (value : BitVec 12) (h : s.mayWrite fn p = true) :
    exec (.paceLimitWrite fn p value) s =
      .next (s.putPas p (({ s.pasture p with paceLimit := s.clampRate value.toNat } : Pasture).repace)) := by
  simp only [exec, execPaceLimitWrite, h, if_true, State.modPas]

/-! ### The cap leaves the rails alone -/

/-- The rails' registers, the time, and what the input stage measured last. -/
def State.railPart (s : State) : HalfReg × HalfReg × Nat × BitVec 16 × BitVec 16 × BitVec 16 :=
  (s.west, s.east, s.now, s.power.vin, s.power.iin, s.power.pin)

variable (s : State)

theorem railPart_lowerForCap : s.lowerForCap.railPart = s.railPart :=
  foldl_keeps State.railPart (fun s p => by rfl) _ s.paceStep.2

theorem railPart_raiseForCap : s.raiseForCap.railPart = s.railPart :=
  foldl_keeps State.railPart (fun s p => by rfl) _ s.paceStep.2

theorem railPart_noteCauseAll (st : Status) : (s.noteCauseAll st).railPart = s.railPart :=
  foldl_keeps State.railPart (fun s p => by rfl) _ s

theorem railPart_capEvent (atFloor : Bool) : (s.capEvent atFloor).railPart = s.railPart := by
  unfold State.capEvent
  split
  · split
    · rfl
    · exact railPart_noteCauseAll ..
  · rfl

theorem railPart_applyCap : s.applyCap.railPart = s.railPart := by
  unfold State.applyCap
  extract_lets
  rw [railPart_capEvent]
  split
  · exact railPart_lowerForCap s
  · split
    · exact railPart_raiseForCap s
    · rfl

/-- The package as a helm update finds it: the input is measured and the cap has acted. -/
def State.capped (m : InputReading) : State := (s.measureInput m).applyCap

theorem capped_eq (m : InputReading) : (∀ h, (s.capped m).half h = s.half h) ∧ (s.capped m).now = s.now ∧
    (s.capped m).power.vin = m.vin ∧ (s.capped m).power.iin = m.iin ∧ (s.capped m).power.pin = m.pin := by
  have hrails : (s.capped m).railPart = (s.measureInput m).railPart := railPart_applyCap _
  simp only [State.railPart, Prod.mk.injEq] at hrails
  obtain ⟨hwest, heast, hnow, hinput⟩ := hrails
  exact ⟨fun | .west => hwest | .east => heast, hnow, hinput⟩

/-! ### The helm's step -/

theorem chosenVolt_range (h : Half) (target : Nat) : 550 ≤ s.chosenVolt h target ∧ s.chosenVolt h target ≤ 850 := by
  unfold State.chosenVolt
  cases hv : ((List.range 301).map (550 + ·)).find? (s.fastEnough h target) with
  | none => decide
  | some v =>
    obtain ⟨n, hn, rfl⟩ := List.mem_map.mp (List.mem_of_find?_eq_some hv)
    have hlt : n < 301 := List.mem_range.mp hn
    simp only [Option.getD_some]
    omega

/-- A step moves toward the chosen voltage, and not out of the range in which both lie. -/
theorem stepTo_bounds {v c : Nat} (hv : 550 ≤ v ∧ v ≤ 850) (hc : 550 ≤ c ∧ c ≤ 850) :
    (550 ≤ stepTo v c ∧ stepTo v c ≤ 850) ∧ stepTo v c ≤ v + 10 ∧ v ≤ stepTo v c + 10 := by
  unfold stepTo
  split <;> omega

theorem steer_waits {h : Half} (hw : (s.half h).state ≠ .live ∨ (s.half h).fresh s.now = true) : s.steer h = s := by
  simp only [State.steer]
  exact if_pos (by simpa using hw)

theorem steer_moves {h : Half} (hl : (s.half h).state = .live) (hf : (s.half h).fresh s.now = false) :
    s.steer h = s.putHalf h { s.half h with
      target := BitVec.ofNat 12 (s.halfTarget h), helmTime := some s.now,
      vcore := BitVec.ofNat 16 (stepTo (s.half h).vcore.toNat (s.chosenVolt h (s.halfTarget h))) } := by
  simp only [State.steer, hl, hf, ne_eq, not_true_eq_false, decide_false, Bool.or_self, Bool.false_eq_true, if_false]

theorem half_putHalf_other {h g : Half} (x : HalfReg) (hg : g ≠ h) : (s.putHalf h x).half g = s.half g :=
  match h, g with
  | .west, .east | .east, .west => rfl
  | .west, .west | .east, .east => absurd rfl hg

theorem power_putHalf (h : Half) (x : HalfReg) : (s.putHalf h x).power = s.power := by cases h <;> rfl

theorem helmUpdate_steers (h : Half) (m : InputReading) (hr : s.railsUp = true) :
    exec (.helmUpdate h m) s = .next ((s.capped m).steer h) := by
  simp only [exec, execHelmUpdate, hr, if_true, State.capped]

end Sys2Proof.Machine

namespace Sys2Proof.Settled
open Sys2Proof Sys2Proof.Machine

theorem paceLimitInForce : Claims.PaceLimitInForce := by
  intro fn p value s h
  refine ⟨_, paceLimitWrite_writes value h, ?_⟩
  rw [State.putPas_pasture_same]
  exact ⟨toNat_clampRate .., toNat_repace _, rfl⟩

theorem helmMovesTenMillivolts : Claims.HelmMovesTenMillivolts := by
  intro h g m s hr hlow hhigh
  obtain ⟨hhalf, hnow, hvin, hiin, hpin⟩ := capped_eq s m
  have hfresh : ((s.capped m).half h).fresh (s.capped m).now = (s.half h).fresh s.now := by rw [hhalf, hnow]
  refine ⟨_, helmUpdate_steers s h m hr, ?_⟩
  by_cases hmoves : (s.half h).state = .live ∧ (s.half h).fresh s.now = false
  · obtain ⟨hl, hf⟩ := hmoves
    have hchosen := chosenVolt_range (s.capped m) h ((s.capped m).halfTarget h)
    obtain ⟨hrange, hup, hdown⟩ := stepTo_bounds ⟨hlow, hhigh⟩ hchosen
    rw [steer_moves _ (by rw [hhalf, hl]) (hfresh.trans hf)]
    have hvolt : stepTo (s.half h).vcore.toNat ((s.capped m).chosenVolt h ((s.capped m).halfTarget h)) % 2 ^ 16 = stepTo _ _ :=
      Nat.mod_eq_of_lt (by omega)
    simp only [half_putHalf, power_putHalf, hhalf, BitVec.toNat_ofNat, hvolt]
    exact ⟨fun _ _ => ⟨_, rfl, rfl, rfl⟩, fun h => absurd (hf.symm.trans h) Bool.false_ne_true, hrange.1, hrange.2, hup, hdown, trivial,
      fun hg => (half_putHalf_other _ _ hg).trans (hhalf g), hvin, hiin, hpin⟩
  · have hwaits : (s.half h).state ≠ .live ∨ (s.half h).fresh s.now = true := by
      simpa only [not_and_or, Bool.not_eq_false] using hmoves
    rw [steer_waits _ (by rw [hhalf, hnow]; exact hwaits)]
    simp only [hhalf]
    exact ⟨fun hl hf => absurd ⟨hl, hf⟩ hmoves, fun _ => trivial, hlow, hhigh, Nat.le_add_right .., Nat.le_add_right .., trivial,
      fun _ => trivial, hvin, hiin, hpin⟩

/-- Settles O23: a limit in force is a minimum, and a helm's step is at most 10 mV from a voltage of the range toward another of it. -/
theorem paceAndHelm : Obligations.PaceAndHelm := ⟨paceLimitInForce, helmMovesTenMillivolts⟩

end Sys2Proof.Settled
end

section
/-!
Power as it is measured, and the input stage (R50, R53, R54, R63, R486 to R488, R491).
-/
namespace Sys2Proof.Machine

variable {s : State}

/-! ### Measurements -/

theorem powerCapReached_lowers {m : InputReading} (hr : s.railsUp = true) (hc : s.facts.grade.cap ≤ m.pin.toNat) :
    exec (.powerCapReached m) s = .next ((s.measureInput m).lowerForCap.capEvent (s.measureInput m).allAtFloor) := by
  have hcap : (s.measureInput m).facts.grade.cap ≤ (s.measureInput m).power.pin.toNat := hc
  simp only [exec, execPowerCapReached, hr, hc, decide_true, Bool.and_self, if_true, State.applyCap, hcap]

theorem floorBreach_breaches {p : PasId} {rate : BitVec 12} (hb : (s.pasture p).beating = true)
    (hr : rate.toNat < s.facts.grade.floor) : exec (.floorBreach p rate) s =
      .next ((((s.modPas p fun x => { x with floorBreach := true, rate := rate }).pasEvent p
        St.PWR_FLOOR_BREACH rate.toNat).alert 1).noteCause p St.PWR_FLOOR_BREACH) := by
  simp only [exec, execFloorBreach, hb, hr, decide_true, Bool.and_self, if_true]

/-- The package with a sextant's report. -/
def State.sextantSeen (s : State) (n : Nat) (period temp : BitVec 16) : State := { s with power := { s.power with
  sxtTemp := smapPut s.power.sxtTemp n temp, sxtPeriod := smapPut s.power.sxtPeriod n period } }

theorem throttle_sextantSeen (s : State) (n : Nat) (period temp : BitVec 16) (h : Half) :
    (s.sextantSeen n period temp).power.throttle h = s.power.throttle h := by cases h <;> rfl

/-- The temperatures known in a sextant's half. -/
def State.halfTemps (s : State) (n : Nat) : List (BitVec 16) :=
  (sextantsOf (sextantHalf n)).filterMap fun i => smapFind s.power.sxtTemp i

/-- A report is kept; then the half is throttled, released or left (R489). -/
theorem sextantReport_eq (n : Fin 64) (period temp : BitVec 16) (hr : s.railsUp = true) : exec (.sextantReport n period temp) s =
    let seen := s.sextantSeen n period temp
    if (seen.halfTemps n).any (hotter · 105) then .next (seen.throttleHalf (sextantHalf n))
    else if s.power.throttle (sextantHalf n) && (seen.halfTemps n).all (cooler · 102) then .next (seen.releaseHalf (sextantHalf n))
    else .next seen := by
  rw [← throttle_sextantSeen s n period temp]
  simp only [exec, execSextantReport, hr, Bool.not_true, Bool.false_eq_true, if_false]
  rfl

/-! ### The input stage -/

theorem openFuse_powersOff (h : s.power.good = true) : s.openFuse = State.powerOff { s with
    boot := { s.boot with report := s.boot.report ++ [St.PWR_EFUSE_TRIP] }
    power := { s.power with eFuseTrips := satInc s.power.eFuseTrips, eFuseOpen := true, tripTime := s.now } } := if_pos h

theorem trip_opens (h : s.power.good = true) : s.trip = .next (State.openFuse { s with power := { s.power with
    trips := (if s.epoch + 1000 * msT ≤ s.now then 0 else s.power.trips) + 1
    stayOpen := decide (3 ≤ (if s.epoch + 1000 * msT ≤ s.now then 0 else s.power.trips) + 1) } }) := by
  simp only [State.trip, h, Bool.not_true, Bool.false_eq_true, if_false]

theorem powerGood_powers (bootMode : BitVec 2) (nodeId : BitVec 5) (hg : s.power.good = false) (hf : s.power.eFuseOpen = false)
    (hl : s.lowSecond = false) : exec (.powerGood bootMode nodeId) s = .next { s.draw.2.railUp.2.railUp.2 with
      epoch := s.now
      west := { s.west with vcore := s.draw.2.railUp.1 }
      east := { s.east with vcore := s.draw.2.railUp.2.railUp.1 }
      boot := { s.boot with bootMode := bootMode, nodeId := nodeId, bootCount := satInc s.boot.bootCount }
      sec := { s.sec with challenge := BitVec.ofNat 256 s.draw.1 }
      power := { s.power with good := true, rails := true, serviceRail := true, overV := false, stayOpen := false, lossTime := none } } := by
  have hmay : s.mayPower = true := by simp only [State.mayPower, hg, hf, Bool.not_false, Bool.true_or, Bool.and_self]
  simp only [exec, execPowerGood, hg, hmay, hl, Bool.not_true, Bool.false_eq_true, if_false]
  rw [← hf]
  rfl

theorem efuseRetry_closes (hf : s.power.eFuseOpen = true) (ho : s.power.overV = false) (hs : s.power.stayOpen = false)
    (ht : 1000 * msT ≤ s.now - s.power.tripTime) :
    exec .efuseRetry s = .next { s with power := { s.power with eFuseOpen := false } } := by
  simp only [exec, execEfuseRetry, hf, ho, hs, ht, Bool.not_false, decide_true, Bool.and_self, if_true]

theorem inputOvervoltage_opens (h : s.power.good = true) :
    exec .inputOvervoltage s = .next (State.openFuse { s with power := { s.power with overV := true } }) :=
  if_neg (by simp only [h, Bool.not_true, Bool.false_eq_true, not_false_eq_true])

theorem inputEvent_raised (st : Status) (h : s.power.good = true) :
    s.inputEvent st = .next ((s.pkgEvent st s.power.vin.toNat).alert 6) := if_pos h

end Sys2Proof.Machine

namespace Sys2Proof.Settled
open Sys2Proof Sys2Proof.Machine

theorem powerMeasurements : Claims.PowerMeasurements := by
  intro m p rate n period temp s seen h ts
  have hreport (hr : s.railsUp = true) : exec (.sextantReport n period temp) s = if ts.any (hotter · 105) then .next (seen.throttleHalf h)
      else if s.power.throttle h && ts.all (cooler · 102) then .next (seen.releaseHalf h) else .next seen := sextantReport_eq n period temp hr
  refine ⟨powerCapReached_lowers, floorBreach_breaches, ?throttled, ?released, ?kept⟩
  case throttled => exact fun hr hhot => (hreport hr).trans (if_pos hhot)
  case released =>
    intro hr hhot hthrottle hcool
    rw [hreport hr, hhot, hthrottle, hcool]
    rfl
  case kept =>
    intro hr hhot hthrottle
    rw [hreport hr, hhot, hthrottle]
    rfl

theorem inputStage : Claims.InputStage := by
  intro bootMode nodeId s p opened trips tripped west east event
  refine ⟨?good, ?loss, ?reversed, fun h => ⟨inputEvent_raised _ h, inputEvent_raised _ h, inputEvent_raised _ h⟩, ?overvoltage, ?trip, ?rail,
    ?retry, ?thermtrip⟩
  case good =>
    intro hg hf hl
    exact powerGood_powers bootMode nodeId hg hf hl
  case loss =>
    intro hg
    simp only [exec, execPowerLoss, State.loseGood, show s.power.good = true from hg, if_true]
  case reversed =>
    intro hg
    simp only [exec, execInputReversed, show s.power.good = false from hg, Bool.false_eq_true, if_false, p]
  case overvoltage => exact fun hg => (inputOvervoltage_opens hg).trans (congrArg _ (openFuse_powersOff hg))
  case trip => exact fun hg => (trip_opens hg).trans (congrArg _ (openFuse_powersOff hg))
  case rail => exact fun hg => (trip_opens hg).trans (congrArg _ (openFuse_powersOff hg))
  case retry => exact fun hf ho hs ht => efuseRetry_closes hf ho hs ht
  case thermtrip =>
    intro hr
    simp only [exec, execThermtrip, hr, Bool.not_true, Bool.false_eq_true, if_false]
    rfl

/-- Settles O24: each measurement and each event of the input stage by its own equation. -/
theorem powerMeasuredAndInput : Obligations.PowerMeasuredAndInput := ⟨powerMeasurements, inputStage⟩

end Sys2Proof.Settled
end

section
/-!
The upkeep of the stacks (R70, R257, R258, R260, R261, R433): watches, late refreshes, idle groups, and the retries of failed bursts.
-/
namespace Sys2Proof.Machine

variable {s : State}

/-! ### Scrub and refresh -/

/-- The visits of the scrubber to a pasture's groups. -/
def State.scrubbedGroups (s : State) (p : Nat) : State := (s.ownedGroups p).foldl (fun s g => s.scrubGroup g) s

@[simp] theorem now_scrubbedGroups (s : State) (p : Nat) : (s.scrubbedGroups p).now = s.now :=
  foldl_keeps State.now (fun s g => (scrubGroup_good s g (good_refl s)).now_eq) _ s

theorem watchStart_scrubs {p : PasId} (hb : (s.pasture p).beating = true) (hlog : s.logOf p % 4096 = 0)
    (hseen : (s.pasture p).watchSeen ≤ s.logOf p / 4096) : exec (.watchStart p) s =
      .next ((((s.scrubbedGroups p).tilesOf p).foldl (fun s k => s.rwFlush k p) (s.scrubbedGroups p)).modPas p fun x =>
        { x with watchSeen := s.logOf p / 4096 + 1, lastWatch := s.now }) := by
  have hnow : (((s.scrubbedGroups p).tilesOf p).foldl (fun s k => s.rwFlush k p) (s.scrubbedGroups p)).now = s.now :=
    (foldl_keeps State.now (fun s k => wiring_now (wiring_rwFlush s k p)) _ _).trans (now_scrubbedGroups s p)
  simp only [exec, execWatchStart, hb, hlog, hseen, decide_true, Bool.and_self, if_true]
  rw [← hnow]
  rfl

/-- The ports of some stacks with one more late refresh counted. -/
def State.lateRefreshed (s : State) (sts : List Nat) : State :=
  sts.foldl (fun s n => s.modStack n fun y => { y with lateRefresh := satInc y.lateRefresh }) s

theorem lateRefresh_refreshes {p : PasId} (hb : (s.pasture p).beating = true)
    (ht : 3500 * nsT ≤ s.now - max (s.pasture p).lastWatch (s.pasture p).lastLate) : exec (.lateRefresh p) s =
      .next ((((s.scrubbedGroups p).lateRefreshed (s.stacksOf p)).delayLandings p (s.stacksOf p)).modPas p fun x =>
        { x with lastLate := s.now }) := by
  have hnow : ((s.scrubbedGroups p).lateRefreshed (s.stacksOf p)).now = s.now :=
    (foldl_keeps State.now (fun s n => by rfl) _ _).trans (now_scrubbedGroups s p)
  simp only [exec, execLateRefresh, hb, ht, decide_true, Bool.and_self, if_true]
  rw [← hnow]
  rfl

theorem unownedGroupMaint_scrubs {st : StackId} {g : Fin 8} (hb : s.beatsAt (s.groupOwn (8 * st.val + g.val)).owner = false)
    (ht : s.maintInterval st ≤ s.now - smapGet 0 (s.stack st).maintTime g) : exec (.unownedGroupMaint st g) s =
      .next ((s.scrubGroup (8 * st.val + g.val)).modStack st fun x => { x with maintTime := smapPut x.maintTime g s.now }) := by
  simp only [exec, execUnownedGroupMaint, hb, ht, Bool.not_false, decide_true, Bool.and_self, if_true]

/-! ### Write retries -/

section
variable {vx : Vx} {vy : Vy} {c : BurstCmd} {q : Nat}
  (hc : (s.cmds.find? fun c => c.write && decide (c.tile = tileKey vx vy)) = some c) (hq : s.pasOf vx = some q)
  (hrun : s.live (tileKey vx vy) = true ∨ (s.pasture q).stopped = true)
include hc hq hrun

/-- A retry that succeeds is counted. -/
theorem stackWriteRetry_succeeds : exec (.stackWriteRetry vx vy true) s =
    .next (s.modStack (c.group / 8) fun x => { x with retries := satInc x.retries }) := by
  have hruns : (!s.live (tileKey vx vy) && !(s.pasture q).stopped) = false := by rcases hrun with h | h <;> simp [h]
  simp only [exec, execStackWriteRetry, hc, hq, hruns, Bool.false_eq_true, if_false, if_true]

/-- A retry that fails is recorded, and stops the pasture of its tile. -/
theorem stackWriteRetry_fails : ∃ u : State,
    exec (.stackWriteRetry vx vy false) s = .next (u.stopTile (tileKey vx vy) St.STACK_WRITE_FAIL) ∧ u.tiles = s.tiles ∧ u.pas = s.pas ∧
      u.hostMem = s.hostMem ∧ (u.stack (c.group / 8)).errStatus = St.STACK_WRITE_FAIL := by
  have hruns : (!s.live (tileKey vx vy) && !(s.pasture q).stopped) = false := by rcases hrun with h | h <;> simp [h]
  simp only [exec, execStackWriteRetry, hc, hq, hruns, Bool.false_eq_true, if_false]
  refine ⟨_, rfl, ?_⟩
  rw [State.stkRecord, State.modStack_stack_same]
  split <;> exact ⟨rfl, rfl, rfl, rfl⟩

end

/-- The pasture of a column rests on the pastures alone. -/
theorem pasOf_of_pas {u : State} (h : u.pas = s.pas) (vx : Nat) : u.pasOf vx = s.pasOf vx := by
  have hpasture : u.pasture = s.pasture := funext fun p => by simp only [State.pasture, h]
  have hcols : u.holdsCol = s.holdsCol := funext fun p => funext fun vx => by simp only [State.holdsCol, hpasture]
  rw [State.pasOf, hcols, State.pasOf]

/-- A fault in a stopped pasture does not stop it again. -/
theorem stopTile_of_stopped {k q : Nat} {cause : Status} (hq : s.pasOf (keyVx k) = some q) (hs : (s.pasture q).stopped = true) :
    s.stopTile k cause = s := by
  simp only [State.stopTile, hq, hs, if_true]

/-! ### Rereads -/

@[simp] theorem tiles_stkCorrected (s : State) (st : Nat) : (s.stkCorrected st).tiles = s.tiles := by
  unfold State.stkCorrected
  extract_lets old new counted
  refine (foldl_keeps State.tiles (fun s p => ?_) _ counted).trans rfl
  split <;> rfl

theorem modTile_congr {k : Nat} {f g : Tile → Tile} (h : f (s.tile k) = g (s.tile k)) : s.modTile k f = s.modTile k g :=
  congrArg (s.putTile k) h

section
variable {vx : Vx} {vy : Vy} {l : Landing} {q : Nat} {corr : Bool}

/-- The correction of a burst that a reread brings is counted at its port (R262). -/
def State.rereadCounted (s : State) (l : Landing) (corr : Bool) : State := if corr then s.stkCorrected l.stack else s

theorem rereadCounted_tile (k : Nat) : (s.rereadCounted l corr).tile k = s.tile k := by
  unfold State.rereadCounted
  split
  · simp only [State.tile, tiles_stkCorrected]
  · rfl

theorem rereadCounted_landings {k : Nat} {ls : List Landing} (h : (s.tile k).landings = ls) :
    ((s.rereadCounted l corr).tile k).landings = ls := by rw [rereadCounted_tile, h]

theorem rereadCounted_now : (s.rereadCounted l corr).now = s.now := by
  unfold State.rereadCounted
  split
  · exact wiring_now (wiring_stkCorrected ..)
  · rfl

variable (hl : (s.tile (tileKey vx vy)).landings = [l]) (hq : s.pasOf vx = some q)
include hl hq

/-- In a running pasture a reread that succeeds lands its data. -/
theorem stackReread_lands (hlive : s.live (tileKey vx vy) = true) (ha : l.arrival = .reread false corr) :
    exec (.stackReread vx vy) s = .next (((s.rereadCounted l corr).modTile (tileKey vx vy) fun t =>
      { t with landings := [{ l with arrival := .ready }]
               holdEnd := if l.due = (s.tile (tileKey vx vy)).beat then some s.now else t.holdEnd }).noteHoldsAt (tileKey vx vy)) := by
  simp only [exec, execStackReread, hl, List.find?_cons, Landing.rereadEnds, ha, hq, hlive, Bool.not_true, Bool.false_eq_true, if_false]
  rw [← rereadCounted_now (s := s) (l := l) (corr := corr)]
  refine congrArg (fun u : State => Host.Outcome.next (u.noteHoldsAt (tileKey vx vy)))
    (modTile_congr (s := s.rereadCounted l corr) ?_)
  simp only [rereadCounted_tile, hl, deliver, if_true]
  rfl

/-- ... and one that fails at the beat its data was due stops the pasture (R260). -/
theorem stackReread_stops (hlive : s.live (tileKey vx vy) = true) (ha : l.arrival = .reread true corr)
    (hdue : l.due = (s.tile (tileKey vx vy)).beat) : exec (.stackReread vx vy) s =
      .next ((s.stkRecord l.stack q l.saddr St.STACK_ECC_UNCORR).stopTile (tileKey vx vy) St.STACK_ECC_UNCORR) := by
  simp only [exec, execStackReread, hl, List.find?_cons, Landing.rereadEnds, ha, hdue, decide_true, hq, hlive, Bool.not_true,
    Bool.false_eq_true, if_false]

/-- In a stopped pasture a reread that succeeds completes, and its data is discarded (R433). -/
theorem stackReread_discards (hlive : s.live (tileKey vx vy) = false) (hs : (s.pasture q).stopped = true)
    (ha : l.arrival = .reread false corr) : exec (.stackReread vx vy) s =
      .next ((s.rereadCounted l corr).modTile (tileKey vx vy) fun t => { t with landings := [] }) := by
  simp only [exec, execStackReread, hl, List.find?_cons, Landing.rereadEnds, ha, hq, hlive, hs, Bool.not_false, if_true]
  refine congrArg _ (modTile_congr (s := s.rereadCounted l corr) ?_)
  simp only [rereadCounted_landings hl, List.erase_cons_head]

theorem stackReread_records (hlive : s.live (tileKey vx vy) = false) (hs : (s.pasture q).stopped = true)
    (ha : l.arrival = .reread true corr) (hdue : l.due = (s.tile (tileKey vx vy)).beat) : exec (.stackReread vx vy) s =
      .next ((s.stkRecord l.stack q l.saddr St.STACK_ECC_UNCORR).modTile (tileKey vx vy) fun t => { t with landings := [] }) := by
  simp only [exec, execStackReread, hl, List.find?_cons, Landing.rereadEnds, ha, hdue, decide_true, hq, hlive, hs, Bool.not_false, if_true]
  refine congrArg _ (modTile_congr ?_)
  have hl' : ((s.stkRecord l.stack q l.saddr St.STACK_ECC_UNCORR).tile (tileKey vx vy)).landings = [l] := hl
  simp only [hl', List.erase_cons_head]

end

end Sys2Proof.Machine

namespace Sys2Proof.Settled
open Sys2Proof Sys2Proof.Machine

theorem stackUpkeep : Claims.StackUpkeep := by
  intro p st g vx vy s c q l corr x log gid k visited
  refine ⟨watchStart_scrubs, lateRefresh_refreshes, unownedGroupMaint_scrubs, ?succeeds, ?fails,
    fun hlive hq hl ha => stackReread_lands hl hq hlive ha, fun hlive hq hl ha hdue => stackReread_stops hl hq hlive ha hdue,
    fun hlive hq hs hl ha => stackReread_discards hl hq hlive hs ha,
    fun hlive hq hs hl ha hdue => stackReread_records hl hq hlive hs ha hdue, ?stopped⟩
  case succeeds => exact fun hc hq hlive => stackWriteRetry_succeeds hc hq (.inl hlive)
  case fails =>
    intro hc hq hlive
    obtain ⟨u, hexec, hu⟩ := stackWriteRetry_fails hc hq (.inl hlive)
    exact ⟨_, u, hexec, rfl, hu⟩
  case stopped =>
    intro hlive hc hq hs
    obtain ⟨u, hexec, htiles, hpas, -, herr⟩ := stackWriteRetry_fails hc hq (.inr hs)
    have hstop : u.stopTile k St.STACK_WRITE_FAIL = u := stopTile_of_stopped (q := q) (by
      rw [keyVx_tileKey, pasOf_of_pas hpas, hq]) (by simp only [State.pasture, hpas]; exact hs)
    exact ⟨stackWriteRetry_succeeds hc hq (.inr hs), u, by rw [hexec, hstop], herr, htiles, hpas⟩

end Sys2Proof.Settled
end

section
/-!
The scrubber of the scratchpads (R125): the banks it visits, and the word it finds first.
-/
namespace Sys2Proof.Machine

variable {s : State}

theorem mem_scrubBanks {k b : Nat} : b ∈ s.scrubBanks k ↔
    b < 32 ∧ smapFind (s.tile k).scrubWin b ≠ some ((s.tile k).beat / 64) ∧ s.bankBusy k b = false := by
  simp [State.scrubBanks]

/-! ### The word of the lowest line -/

theorem lowestWord_eq_none {ws : List Nat} (h : lowestWord ws = none) : ws = [] := by
  cases ws with
  | nil => rfl
  | cons w ws =>
    unfold lowestWord at h
    split at h
    · cases h
    · split at h <;> cases h

theorem lowestWord_eq_some {ws : List Nat} {v : Nat} (h : lowestWord ws = some v) : v ∈ ws ∧ ∀ w ∈ ws, wordAddr v ≤ wordAddr w := by
  induction ws generalizing v with
  | nil => cases h
  | cons w ws ih =>
    unfold lowestWord at h
    split at h
    next hrest =>
      cases h
      simp [lowestWord_eq_none hrest]
    next u hrest =>
      obtain ⟨hmem, hle⟩ := ih hrest
      split at h <;> cases h
      next hlt => exact ⟨.tail _ hmem, List.forall_mem_cons.2 ⟨hlt.le, hle⟩⟩
      next hge => exact ⟨.head _, List.forall_mem_cons.2 ⟨le_rfl, fun x hx => (not_lt.1 hge).trans (hle x hx)⟩⟩

/-- Words of one line share their bank. -/
theorem bank_of_wordAddr {v w : Nat} (h : wordAddr v = wordAddr w) : v / 8 % 32 = w / 8 % 32 := by
  unfold wordAddr at h
  omega

/-! ### A visit -/

/-- The tile after a visit to some banks that counts the words it corrects. -/
def State.scrubSwept (s : State) (k : Nat) (banks : List Nat) : State :=
  (s.modTile k fun t => t.scrubbed banks s.now).countCorrected k
    ((banks.flatMap (s.tile k).scrubWords).filter fun w => (s.tile k).upset1.contains w).length

theorem sideUncorr_of_mainFault_none {k port : Nat} {f : SpadFault} (h : s.mainFault k = none) :
    s.sideUncorr k port f = (s.spadFaulted k port f).stopTile k f.status := by
  simp only [State.sideUncorr, h]

variable {vx : Vx} {vy : Vy}

theorem scrubVisit_of_no_bank (h : s.scrubBanks (tileKey vx vy) = []) : exec (.scrubVisit vx vy) s = .next s := by
  simp only [exec, execScrubVisit, h, List.isEmpty_nil, Bool.or_true, Bool.true_or, if_true, nothing]

section
variable {banks : List Nat} (hbanks : s.scrubBanks (tileKey vx vy) = banks) (hlive : s.live (tileKey vx vy) = true)
  (hne : banks ≠ []) (hmain : s.mainFault (tileKey vx vy) = none)
include hbanks hlive hne hmain

theorem scrubVisit_sweeps : exec (.scrubVisit vx vy) s =
    match lowestWord ((banks.flatMap (s.tile (tileKey vx vy)).scrubWords).filter fun w => (s.tile (tileKey vx vy)).upset2.contains w) with
    | some w => .next ((s.scrubSwept (tileKey vx vy) banks).sideUncorr (tileKey vx vy) 3
        ⟨St.SPD_ECC_UNCORR, w / 8 % 32, (wordAddr w : Int)⟩)
    | none => .next (s.scrubSwept (tileKey vx vy) banks) := by
  have hvisits : (!s.live (tileKey vx vy) || banks.isEmpty || (s.mainFault (tileKey vx vy)).any SpadFault.barsBeat) = false := by
    simp [hlive, hne, hmain]
  simp only [exec, execScrubVisit, hbanks, hvisits, Bool.false_eq_true, if_false]
  rfl

/-- A visit that finds no uncorrectable word mends and counts the others. -/
theorem scrubVisit_mends (hclean : ∀ v ∈ banks.flatMap (s.tile (tileKey vx vy)).scrubWords,
    (s.tile (tileKey vx vy)).upset2.contains v = false) : exec (.scrubVisit vx vy) s = .next (s.scrubSwept (tileKey vx vy) banks) := by
  have hnone : ((banks.flatMap (s.tile (tileKey vx vy)).scrubWords).filter fun w => (s.tile (tileKey vx vy)).upset2.contains w) = [] :=
    List.filter_eq_nil_iff.2 fun v hv => by rw [hclean v hv]; decide
  rw [scrubVisit_sweeps hbanks hlive hne hmain, hnone]
  rfl

/-- A visit that finds an uncorrectable word records the lowest such line and stops the pasture. -/
theorem scrubVisit_stops {w : Nat} (hw : w ∈ banks.flatMap (s.tile (tileKey vx vy)).scrubWords)
    (hup : (s.tile (tileKey vx vy)).upset2.contains w = true)
    (hleast : ∀ v ∈ banks.flatMap (s.tile (tileKey vx vy)).scrubWords, (s.tile (tileKey vx vy)).upset2.contains v = true →
      wordAddr w ≤ wordAddr v)
    (hswept : (s.scrubSwept (tileKey vx vy) banks).mainFault (tileKey vx vy) = none) : exec (.scrubVisit vx vy) s =
      .next (((s.scrubSwept (tileKey vx vy) banks).spadFaulted (tileKey vx vy) 3
        ⟨St.SPD_ECC_UNCORR, w / 8 % 32, (wordAddr w : Int)⟩).stopTile (tileKey vx vy) St.SPD_ECC_UNCORR) := by
  have hmem := List.mem_filter.2 ⟨hw, hup⟩
  rw [scrubVisit_sweeps hbanks hlive hne hmain]
  split
  next v hv =>
    obtain ⟨hin, hle⟩ := lowestWord_eq_some hv
    obtain ⟨hvws, hvup⟩ := List.mem_filter.1 hin
    have haddr : wordAddr v = wordAddr w := le_antisymm (hle w hmem) (hleast v hvws hvup)
    rw [sideUncorr_of_mainFault_none hswept, haddr, bank_of_wordAddr haddr]
  next hnone => simp [lowestWord_eq_none hnone] at hmem

end

end Sys2Proof.Machine

namespace Sys2Proof.Settled
open Sys2Proof Sys2Proof.Machine

theorem scrubVisits : Claims.ScrubVisits := fun _ _ _ _ _ =>
  ⟨mem_scrubBanks, scrubVisit_of_no_bank, fun hlive hne hmain =>
    ⟨scrubVisit_mends rfl hlive hne hmain, scrubVisit_stops rfl hlive hne hmain⟩⟩

end Sys2Proof.Settled
end

section
/-!
The temperature of the stacks (R50, R490): what a report and the events and pace limits it leads to leave alone, and the pastures it stops.
-/
namespace Sys2Proof.Machine

variable {s : State}

/-! ### What a hot stack leaves alone -/

/-- What the events, the pace limits and the ended runs of a hot stack leave alone. -/
structure Standing where
  stks     : SMap Stack
  tiles    : SMap Tile
  ports    : SMap Port
  stackMem : SMap Byte
  enable   : Nat → Bool
  stopped  : Nat → Bool

def State.standing (s : State) : Standing :=
  ⟨s.stks, s.tiles, s.ports, s.stackMem, fun p => (s.pasture p).enable, fun p => (s.pasture p).stopped⟩

/-- A change of one pasture that keeps whether it is enabled. -/
theorem standing_modPas (s : State) {p : Nat} {f : Pasture → Pasture} (he : (f (s.pasture p)).enable = (s.pasture p).enable) :
    (s.modPas p f).standing =
      { s.standing with stopped := fun q => if q = p then (f (s.pasture p)).stopped else (s.pasture q).stopped } := by
  have henable : (fun q => ((s.modPas p f).pasture q).enable) = fun q => (s.pasture q).enable := funext fun q => by
    rw [State.modPas_pasture_at]
    split
    next h => rw [he, h]
    next => rfl
  have hstopped : (fun q => ((s.modPas p f).pasture q).stopped) =
      fun q => if q = p then (f (s.pasture p)).stopped else (s.pasture q).stopped := funext fun q => by
    rw [State.modPas_pasture_at, apply_ite Pasture.stopped]
  unfold State.standing
  rw [henable, hstopped]
  rfl

theorem standing_modPas_keeps (s : State) {p : Nat} {f : Pasture → Pasture} (he : (f (s.pasture p)).enable = (s.pasture p).enable)
    (hs : (f (s.pasture p)).stopped = (s.pasture p).stopped) : (s.modPas p f).standing = s.standing := by
  have hstopped : (fun q => if q = p then (f (s.pasture p)).stopped else (s.pasture q).stopped) = s.standing.stopped :=
    funext fun q => by
      split
      next h => rw [hs, h]; rfl
      next => rfl
  rw [standing_modPas s he, hstopped]

@[simp] theorem standing_draw (s : State) : s.draw.2.standing = s.standing := rfl
@[simp] theorem standing_alert (s : State) (bit : Nat) : (s.alert bit).standing = s.standing := rfl
@[simp] theorem standing_pkgEvent (s : State) (st : Status) (detail : Nat) : (s.pkgEvent st detail).standing = s.standing := rfl

@[simp] theorem standing_modFn (s : State) (n : Nat) (f : Fn → Fn) : (s.modFn n f).standing = s.standing := rfl
@[simp] theorem standing_signal (s : State) (fn v : Nat) : (s.signal fn v).standing = s.standing := rfl
@[simp] theorem standing_writeHost (s : State) (a : Nat) (bs : List Byte) : (s.writeHost a bs).standing = s.standing := rfl

@[simp] theorem standing_complete (s : State) (fn : Nat) (c : Completion) : (s.complete fn c).standing = s.standing := by
  unfold State.complete State.writeCompletion
  extract_lets
  split
  · rw [standing_signal, standing_modFn]
    exact standing_writeHost _ _ _
  · rw [standing_modFn]

@[simp] theorem standing_writeStamp (s : State) (p : Nat) (r : Run) (valid : Bool) (beats : Nat) (d : Digest) :
    (s.writeStamp p r valid beats d).standing = s.standing := by
  unfold State.writeStamp
  extract_lets
  exact (standing_modPas_keeps _ rfl rfl).trans (standing_writeHost ..)

@[simp] theorem standing_failRun (s : State) (p : Nat) (r : Run) (cause : Status) : (s.failRun p r cause).standing = s.standing := by
  unfold State.failRun
  simp only [standing_complete, standing_draw, standing_writeStamp, standing_modPas_keeps]

@[simp] theorem standing_failRuns (s : State) (p : Nat) (cause queued : Status) : (s.failRuns p cause queued).standing = s.standing := by
  refine (standing_modPas_keeps _ rfl rfl).trans (foldl_keeps State.standing (fun s r => ?_) _ s)
  split <;> simp only [standing_failRun]

/-- A stop leaves its pasture stopped, and the others as they are. -/
theorem standing_stopPasture (s : State) (p : Nat) (cause : Status) : (s.stopPasture p cause).standing =
    { s.standing with stopped := fun q => (s.pasture q).stopped || decide (q = p) } := by
  unfold State.stopPasture
  split
  next hs =>
    have hstopped : (fun q => (s.pasture q).stopped || decide (q = p)) = s.standing.stopped := funext fun q => by
      by_cases h : q = p
      · simp [State.standing, h, hs]
      · simp [State.standing, h]
    rw [hstopped]
  next =>
    rw [standing_failRuns, standing_alert, standing_modPas _ rfl,
      show (s.endStall p).standing = s.standing from standing_modPas_keeps s rfl rfl]
    refine congrArg (fun stopped => { s.standing with stopped := stopped }) (funext fun q => ?_)
    by_cases h : q = p
    · simp [h]
    · simp [h, State.endStall, State.modPas_pasture_other]

theorem standing_stopPastures (ps : List Nat) (cause : Status) (s : State) : (ps.foldl (fun s p => s.stopPasture p cause) s).standing =
    { s.standing with stopped := fun q => (s.pasture q).stopped || decide (q ∈ ps) } := by
  induction ps generalizing s with
  | nil => simp [State.standing]
  | cons p ps ih =>
    have hstopped (q : Nat) : ((s.stopPasture p cause).pasture q).stopped = ((s.pasture q).stopped || decide (q = p)) :=
      congrFun (congrArg Standing.stopped (standing_stopPasture s p cause)) q
    simp only [List.foldl_cons, ih, standing_stopPasture, hstopped, List.mem_cons, Bool.or_assoc, Bool.decide_or]

@[simp] theorem standing_throttleStack (s : State) (st : Nat) : (s.throttleStack st).standing = s.standing :=
  (foldl_keeps State.standing (fun s _ => standing_modPas_keeps s rfl rfl) _ s.paceStep.2).trans (standing_draw s)

@[simp] theorem standing_releaseStack (s : State) : s.releaseStack.standing = s.standing := by
  refine foldl_keeps State.standing (fun s p => ?_) _ s
  split
  · rfl
  · exact standing_modPas_keeps s rfl rfl

/-! ### A report -/

/-- The pastures of a stack rest on who owns its groups and which pastures are enabled. -/
theorem ownersOf_congr {u : State} (hown : ∀ j, (u.stack j).own = (s.stack j).own)
    (hen : ∀ p, (u.pasture p).enable = (s.pasture p).enable) (st : Nat) : u.ownersOf st = s.ownersOf st := by
  have hgroup : u.groupOwn = s.groupOwn := funext fun g => by simp only [State.groupOwn, hown]
  have hstacks : u.stacksOf = s.stacksOf := funext fun p => by simp only [State.stacksOf, State.ownedGroups, hgroup]
  simp only [State.ownersOf, hstacks, hen]

/-- The state of a stack after a report of its temperature. -/
def Stack.reported (x : Stack) (temp : BitVec 16) (now : Nat) : Stack :=
  { x with temp := temp
           hot := hotter temp 95 || (x.hot && !cooler temp 92)
           overtemp := hotter temp 100 || (x.overtemp && !cooler temp 95)
           hotTime := if x.hot then x.hotTime else now }

/-- The package with a stack's report. -/
def State.stackReported (s : State) (st : Nat) (temp : BitVec 16) : State := s.modStack st fun x => x.reported temp s.now

theorem reported_stack (s : State) (st : Nat) (temp : BitVec 16) : (s.stackReported st temp).stack st = (s.stack st).reported temp s.now :=
  State.modStack_stack_same s st _

theorem reported_stack_other {s : State} {st j : Nat} {temp : BitVec 16} (h : j ≠ st) : (s.stackReported st temp).stack j = s.stack j :=
  State.modStack_stack_other s st _ j h

theorem reported_own (s : State) (st : Nat) (temp : BitVec 16) (j : Nat) : ((s.stackReported st temp).stack j).own = (s.stack j).own := by
  by_cases h : j = st
  · rw [h, reported_stack]; rfl
  · rw [reported_stack_other h]

theorem stack_of_standing {u v : State} (h : u.standing = v.standing) (j : Nat) : u.stack j = v.stack j :=
  congrArg (fun x : Standing => smapGet ({} : Stack) x.stks j) h

/-- A report keeps the owners of a stack's groups. -/
theorem ownersOf_of_reported {u : State} {st : Nat} {temp : BitVec 16} (h : u.standing = (s.stackReported st temp).standing) :
    u.ownersOf st = s.ownersOf st :=
  ownersOf_congr (s := s) (fun j => by rw [stack_of_standing h, reported_own])
    (fun p => show u.standing.enable p = (s.stackReported st temp).standing.enable p by rw [h]) st

/-- A report is kept, the events and pace limits it leads to leave the stacks and tiles alone, and above 100 °C the owners stop. -/
theorem stackTempReport_standing {st : StackId} {temp : BitVec 16} (hr : s.railsUp = true) : ∃ t,
    exec (.stackTempReport st temp) s = .next t ∧ t.standing = { (s.stackReported st temp).standing with
      stopped := fun q => (s.pasture q).stopped || (hotter temp 100 && decide (q ∈ s.ownersOf st)) } := by
  obtain ⟨u, hu, hexec⟩ : ∃ u : State, u.standing = (s.stackReported st temp).standing ∧ exec (.stackTempReport st temp) s =
      .next (if hotter temp 100 then (u.ownersOf st).foldl (fun s p => s.stopPasture p St.PWR_STACK_OVERTEMP) u else u) := by
    simp only [exec, execStackTempReport, hr, Bool.not_true, Bool.false_eq_true, if_false]
    refine ⟨_, ?_, rfl⟩
    have hevent (c : Bool) : (if c then (((s.stackReported st temp).pkgEvent St.PWR_STACK_HOT st.val).alert 6) else
        s.stackReported st temp).standing = (s.stackReported st temp).standing := by cases c <;> rfl
    split
    · exact (standing_throttleStack ..).trans (hevent _)
    · split
      · exact (standing_releaseStack _).trans (hevent _)
      · exact hevent _
  have hstopped (q : Nat) : (u.pasture q).stopped = (s.pasture q).stopped :=
    show u.standing.stopped q = (s.stackReported st temp).standing.stopped q by rw [hu]
  refine ⟨_, hexec, ?_⟩
  cases hotter temp 100
  · simp only [Bool.false_eq_true, if_false, Bool.false_and, Bool.or_false]
    exact hu
  · simp only [if_true, Bool.true_and, standing_stopPastures, hu, hstopped, ownersOf_of_reported hu]

end Sys2Proof.Machine

namespace Sys2Proof.Settled
open Sys2Proof Sys2Proof.Machine

theorem stackTemperature : Claims.StackTemperature := by
  intro st temp s hr
  obtain ⟨t, hexec, ht⟩ := stackTempReport_standing (st := st) (temp := temp) hr
  have hstack (j : Nat) : t.stack j = (s.stackReported st temp).stack j := congrArg (fun x : Standing => smapGet ({} : Stack) x.stks j) ht
  have hst : t.stack st = (s.stack st).reported temp s.now := (hstack st).trans (reported_stack ..)
  have hown : (t.stack st).own = (s.stack st).own := (congrArg Stack.own hst).trans rfl
  have hstopped (q : Nat) : (t.pasture q).stopped = ((s.pasture q).stopped || (hotter temp 100 && decide (q ∈ s.ownersOf st))) :=
    congrFun (congrArg Standing.stopped ht) q
  refine ⟨t, hexec, congrArg Stack.temp hst, congrArg Stack.hot hst, congrArg Stack.overtemp hst, hown,
    fun j hj => (hstack j).trans (reported_stack_other hj), congrArg Standing.tiles ht, congrArg Standing.ports ht,
    congrArg Standing.stackMem ht, ?owners, ?cool⟩
  case owners =>
    intro q hq hhot
    rw [hstopped, hhot, decide_eq_true hq, Bool.true_and, Bool.or_true]
  case cool =>
    intro q hcool
    rw [hstopped, hcool, Bool.false_and, Bool.or_false]

end Sys2Proof.Settled
end

section
/-!
The extra refresh of a hot stack (R490): what late reads leave alone.
-/
namespace Sys2Proof.Machine

variable {s : State}

/-- The beat, the place and the data of a read, whenever it arrives. -/
def Landing.read (l : Landing) : Nat × Int × List Byte := (l.due, l.addr, l.data)

/-- A pasture without the account of its waits. -/
def Pasture.waitless (x : Pasture) : Pasture := { x with waitTime := 0, waitSince := none }

/-- Of a tile the beat in progress, the scratchpad and its reads. -/
def Tile.reads (t : Tile) : Nat × SMap Byte × List (Nat × Int × List Byte) := (t.beat, t.spad, t.landings.map Landing.read)

/-- What a late read leaves alone. -/
structure Undelayed where
  now      : Nat
  stackMem : SMap Byte
  hostMem  : SMap Byte
  pastures : Nat → Pasture
  tiles    : Nat → Nat × SMap Byte × List (Nat × Int × List Byte)

def State.undelayed (s : State) : Undelayed :=
  ⟨s.now, s.stackMem, s.hostMem, fun p => (s.pasture p).waitless, fun k => (s.tile k).reads⟩

theorem undelayed_noteHolds (s : State) (p : Nat) : (s.noteHolds p).undelayed = s.undelayed := by
  have hpas : (fun q => ((s.noteHolds p).pasture q).waitless) = fun q => (s.pasture q).waitless := funext fun q => by
    rw [State.noteHolds, State.modPas_pasture_at]
    split
    next h =>
      rw [h]
      split <;> rfl
    next => rfl
  unfold State.undelayed
  rw [hpas]
  rfl

/-- A change of one tile that keeps its reads. -/
theorem undelayed_modTile (s : State) {k : Nat} {f : Tile → Tile} (hf : (f (s.tile k)).reads = (s.tile k).reads) :
    (s.modTile k f).undelayed = s.undelayed := by
  have htiles : (fun j => ((s.modTile k f).tile j).reads) = fun j => (s.tile j).reads := funext fun j => by
    rw [State.modTile_tile_at]
    split
    next h => rw [hf, h]
    next => rfl
  unfold State.undelayed
  rw [htiles]
  rfl

/-- One scheduled read of some stacks, late or as it was. -/
def State.delayLanding (sts : List Nat) (acc : State × List Landing) (l : Landing) : State × List Landing :=
  if l.arrival = .ready && sts.contains l.stack then
    let (n, s) := acc.1.draw
    (s, acc.2 ++ [if n % 2 = 1 then { l with arrival := .late } else l])
  else (acc.1, acc.2 ++ [l])

theorem delayLanding_read (sts : List Nat) (acc : State × List Landing) (l : Landing) :
    (State.delayLanding sts acc l).1.tiles = acc.1.tiles ∧ (State.delayLanding sts acc l).1.undelayed = acc.1.undelayed ∧
      (State.delayLanding sts acc l).2.map Landing.read = acc.2.map Landing.read ++ [l.read] := by
  unfold State.delayLanding
  split
  · refine ⟨rfl, rfl, ?_⟩
    dsimp only
    rw [List.map_append]
    split <;> rfl
  · exact ⟨rfl, rfl, List.map_append ..⟩

theorem delayLanding_foldl (sts : List Nat) (ls : List Landing) (acc : State × List Landing) :
    (ls.foldl (State.delayLanding sts) acc).1.tiles = acc.1.tiles ∧
      (ls.foldl (State.delayLanding sts) acc).1.undelayed = acc.1.undelayed ∧
      (ls.foldl (State.delayLanding sts) acc).2.map Landing.read = acc.2.map Landing.read ++ ls.map Landing.read := by
  induction ls generalizing acc with
  | nil => simp
  | cons l ls ih =>
    obtain ⟨htiles, hstate, hreads⟩ := delayLanding_read sts acc l
    simp only [List.foldl_cons, ih, htiles, hstate, hreads, List.map_cons, List.append_assoc, List.singleton_append, and_self]

/-- Late reads keep their places and data, and of the pastures all but the account of the waits. -/
theorem undelayed_delayLandings (s : State) (p : Nat) (sts : List Nat) : (s.delayLandings p sts).undelayed = s.undelayed := by
  refine (undelayed_noteHolds _ p).trans (foldl_keeps State.undelayed (fun s k => ?_) _ s)
  obtain ⟨htiles, hstate, hreads⟩ := delayLanding_foldl sts (s.tile k).landings (s, [])
  extract_lets r
  split
  · exact hstate
  · refine (undelayed_modTile _ ?_).trans hstate
    have htile : r.1.tile k = s.tile k := congrArg (fun ts : SMap Tile => smapGet ({} : Tile) ts k) htiles
    simp only [Tile.reads, htile]
    rw [← List.nil_append ((s.tile k).landings.map Landing.read)]
    exact congrArg _ (congrArg _ hreads)

/-- The extra refresh of a stack that is due leaves all of that alone, and notes its time. -/
theorem stackHotRefresh_undelayed {st : StackId} (hh : (s.stack st).hot = true) (ht : 1500 * nsT ≤ s.now - (s.stack st).hotTime) :
    ∃ t, exec (.stackHotRefresh st) s = .next t ∧ (t.stack st).hotTime = s.now ∧ t.undelayed = s.undelayed := by
  have hkeeps : ((s.ownersOf st).foldl (fun s p => s.delayLandings p [st.val]) s).undelayed = s.undelayed :=
    foldl_keeps State.undelayed (fun s p => undelayed_delayLandings s p _) _ s
  simp only [exec, execStackHotRefresh, hh, ht, decide_true, Bool.and_self, Bool.not_true, Bool.false_eq_true, if_false]
  refine ⟨_, rfl, ?_, hkeeps⟩
  rw [State.modStack_stack_same]
  exact congrArg Undelayed.now hkeeps

/-- Pastures that are the same without their waits differ in their waits alone. -/
theorem of_waitless_eq {x y : Pasture} (h : x.waitless = y.waitless) : { x with waitTime := y.waitTime, waitSince := y.waitSince } = y :=
  congrArg (fun z : Pasture => { z with waitTime := y.waitTime, waitSince := y.waitSince }) h

end Sys2Proof.Machine

namespace Sys2Proof.Settled
open Sys2Proof Sys2Proof.Machine

theorem hotStackRefresh : Claims.HotStackRefresh := by
  intro st s hh ht
  obtain ⟨t, hexec, htime, hkeeps⟩ := stackHotRefresh_undelayed hh ht
  refine ⟨t, hexec, htime, congrArg Undelayed.stackMem hkeeps, congrArg Undelayed.hostMem hkeeps,
    fun q => of_waitless_eq (congrFun (congrArg Undelayed.pastures hkeeps) q), fun k => ?_⟩
  have hreads : (t.tile k).reads = (s.tile k).reads := congrFun (congrArg Undelayed.tiles hkeeps) k
  simp only [Tile.reads, Prod.mk.injEq] at hreads
  exact hreads

/-- Settles O22: the stacks' upkeep and the scrubber by an equation for each command, the temperature and the extra refresh by what they keep. -/
theorem stacksAndScrubs : Obligations.StacksAndScrubs := ⟨stackUpkeep, scrubVisits, stackTemperature, hotStackRefresh⟩

end Sys2Proof.Settled
end

section
/-!
What a completed beat makes of the tile's matrix and vector units (R43, R156, R171): the beat's own parts leave the accumulators and the
descriptors in progress alone but for the two units themselves.
-/
namespace Sys2Proof.Machine

/-- A tile's accumulators, and the descriptors that its matrix and vector units have in progress. -/
structure Units where
  acc    : SMap (BitVec 96)
  mxJobs : List Job
  vxJobs : List Job

def Tile.units (t : Tile) : Units := ⟨t.acc, t.mxJobs, t.vxJobs⟩

/-! ### The parts of a tile's beat -/

section
variable (t pre : Tile) (j : Job) (b : Nat)

@[simp] theorem units_rwAdd (tag : Nat) (c : RwCount) : (t.rwAdd tag c).units = t.units := by
  unfold Tile.rwAdd; extract_lets; split <;> rfl

@[simp] theorem acc_rwAdd (tag : Nat) (c : RwCount) : (t.rwAdd tag c).acc = t.acc := congrArg Units.acc (units_rwAdd t tag c)

@[simp] theorem units_writeLine (mode addr : Nat) (data : List (Nat × Byte)) : (t.writeLine mode addr data).units = t.units := by
  unfold Tile.writeLine
  extract_lets ph written
  exact foldl_keeps Tile.units (fun t ob => by rfl) data t

@[simp] theorem units_applyAccesses (accs : List Access) : (t.applyAccesses accs).units = t.units := by
  refine foldl_keeps Tile.units (fun t a => ?_) accs t
  split
  · rfl
  · split <;> simp

@[simp] theorem units_readRecords : t.readRecords.1.units = t.units := by
  refine foldl_keeps (fun acc : Tile × List (Status × Nat × Nat) => acc.1.units) (fun acc kv => ?_) t.shadows (t, [])
  dsimp only
  repeat' split
  all_goals rfl

@[simp] theorem units_writeSlot (slot : Nat) (ws : List Word) : (t.writeSlot slot ws).units = t.units := by
  simp only [Tile.units, Tile.writeSlot]

@[simp] theorem units_applyOverlays : (t.applyOverlays pre b).units = t.units := by
  have h : (t.overlaid pre b).units = t.units := foldl_keeps Tile.units (fun t o => units_writeSlot ..) _ t
  exact h

@[simp] theorem units_applyEarly : (t.applyEarly pre b).units = t.units := by
  unfold Tile.applyEarly
  extract_lets look chunk index
  have hchunk : chunk.units = t.units := by unfold chunk; split <;> rfl
  have hindex : index.units = chunk.units := by unfold index; split <;> rfl
  refine (foldl_keeps Tile.units (fun t ja => ?_) _ _).trans (hindex.trans hchunk)
  split <;> rfl

@[simp] theorem units_beginAt : t.beginAt.units = t.units := by
  unfold Tile.beginAt
  split
  · split <;> rfl
  · rfl

/-! ### The vector unit's beat -/

/-- A vector descriptor after beat b: it has captured the vector it reads there. -/
def Tile.vxAfter : Job := match j.vxReadAt b with
  | some i => (j.vxCapture pre i).1
  | none => j

theorem vxBeat_job : (t.vxBeat pre j b).2 = pre.vxAfter j b := by
  cases h : j.vxReadAt b with
  | none => simp only [Tile.vxBeat, Tile.vxAfter, h]
  | some i => simp only [Tile.vxBeat, Tile.vxAfter, h]

theorem acc_vxBeat : (t.vxBeat pre j b).1.acc = t.acc := by
  unfold Tile.vxBeat
  extract_lets
  split
  · exact acc_rwAdd ..
  · exact (acc_rwAdd ..).trans (acc_rwAdd ..)

theorem mxJobs_vxBeat : (t.vxBeat pre j b).1.mxJobs = t.mxJobs := by
  unfold Tile.vxBeat
  extract_lets
  split
  · exact congrArg Units.mxJobs (units_rwAdd ..)
  · exact (congrArg Units.mxJobs (units_rwAdd ..)).trans (congrArg Units.mxJobs (units_rwAdd ..))

/-- A fold that carries a list of results collects the result of each step, where a step's result rests on its item alone. -/
theorem foldl_collects {σ α β : Type} {g : σ → α → σ × β} {f : α → β} (h : ∀ s x, (g s x).2 = f x) (l : List α) (s : σ)
    (out : List β) :
    (l.foldl (fun (acc : σ × List β) x => ((g acc.1 x).1, acc.2 ++ [(g acc.1 x).2])) (s, out)).2 = out ++ l.map f := by
  induction l generalizing s out with
  | nil => exact (List.append_nil _).symm
  | cons x l ih => rw [List.foldl_cons, ih, h, List.map_cons, List.append_assoc, List.singleton_append]

theorem acc_vxUnit : (t.vxUnit pre b).acc = t.acc :=
  foldl_keeps (fun acc : Tile × List Job => acc.1.acc) (fun acc j => acc_vxBeat acc.1 pre j b) pre.vxJobs (t, [])

theorem mxJobs_vxUnit : (t.vxUnit pre b).mxJobs = t.mxJobs :=
  foldl_keeps (fun acc : Tile × List Job => acc.1.mxJobs) (fun acc j => mxJobs_vxBeat acc.1 pre j b) pre.vxJobs (t, [])

theorem vxJobs_vxUnit : (t.vxUnit pre b).vxJobs =
    (pre.vxJobs.map fun j => pre.vxAfter j b).filter fun j => decide (b < j.vxLast pre.ltv) :=
  congrArg (List.filter fun j : Job => decide (b < j.vxLast pre.ltv))
    ((foldl_collects (fun t j => vxBeat_job t pre j b) pre.vxJobs t []).trans (List.nil_append _))

/-! ### The whole beat of the tile -/

theorem units_mvUnit : (t.mvUnit pre b).units = t.units := rfl
theorem units_dnUnit : (t.dnUnit pre b).units = t.units := rfl
theorem units_stkUnit : (t.stkUnit pre b).units = t.units := rfl

/-- The beat of the units: the matrix unit's from the accumulators before the beat, and the vector unit's. -/
theorem units_beatEffect (mode : BitVec 2) : ∃ u : Tile, u.acc = pre.acc ∧ (pre.beatEffect mode b).units =
    ⟨(u.mxUnit pre b).acc, (u.mxUnit pre b).mxJobs,
      (pre.vxJobs.map fun j => pre.vxAfter j b).filter fun j => decide (b < j.vxLast pre.ltv)⟩ := by
  unfold Tile.beatEffect
  extract_lets accs written misses counted recorded mx vx mv dn
  have hrecorded : recorded.units = pre.units := (units_readRecords counted).trans (units_applyAccesses pre accs)
  refine ⟨recorded, congrArg Units.acc hrecorded, ?_⟩
  rw [units_applyOverlays, units_applyEarly, units_stkUnit, units_dnUnit, units_mvUnit, Tile.units, acc_vxUnit, mxJobs_vxUnit, vxJobs_vxUnit]

end

/-! ### The package around the tile -/

/-- The units of every tile. -/
def State.units (s : State) : Nat → Units := fun k => (s.tile k).units

section
variable (s : State)

theorem units_of_tiles {s u : State} (h : s.tiles = u.tiles) : s.units = u.units := by
  funext k
  simp only [State.units, State.tile, h]

theorem units_modTile {k : Nat} {f : Tile → Tile} (h : ∀ t, (f t).units = t.units) : (s.modTile k f).units = s.units := by
  funext n
  rw [State.units, State.modTile_tile_at]
  split
  · next e => rw [h, e]; rfl
  · rfl

@[simp] theorem units_countRead (gid off : Nat) (r : PortRead) : (s.countRead gid off r).units = s.units := by
  unfold State.countRead
  extract_lets u
  have hu : u.units = s.units := by unfold u; split <;> rfl
  split
  · exact hu
  · exact hu

@[simp] theorem units_stkCorrected (st : Nat) : (s.stkCorrected st).units = s.units := by
  unfold State.stkCorrected
  extract_lets old new counted
  refine (foldl_keeps State.units (fun s p => ?_) _ counted).trans rfl
  split <;> rfl

@[simp] theorem units_readUpset (st gid off : Nat) (data : List Byte) (late : Bool) :
    (s.readUpset st gid off data late).1.units = s.units := by
  unfold State.readUpset
  extract_lets
  split
  · exact units_countRead ..
  · dsimp only
    split
    · exact (units_stkCorrected ..).trans (units_countRead ..)
    · exact units_countRead ..

@[simp] theorem units_burstData (k b port gid off : Nat) : (s.burstData k b port gid off).1.units = s.units := by
  unfold State.burstData
  extract_lets
  split <;> rfl

@[simp] theorem units_burstWrite (k b p port gid off : Nat) (data : List Byte) :
    (s.burstWrite k b p port gid off data).units = s.units := by
  unfold State.burstWrite
  extract_lets old races keep drawn u
  have hdrawn : drawn.units = s.units := by unfold drawn; split <;> rfl
  have hu : u.units = drawn.units := by unfold u; split <;> rfl
  exact hu.trans hdrawn

@[simp] theorem units_stkCommand (k p : Nat) (j : Job) (i b : Nat) (line : List Byte) :
    (s.stkCommand k p j i b line).units = s.units := by
  unfold State.stkCommand
  extract_lets port due mk land u
  have hland : ∀ s l, (land s l).units = s.units := fun s l => units_modTile s fun _ => rfl
  split
  · have hu : u.units = s.units := by
      unfold u
      split
      · exact units_modTile s fun _ => rfl
      · rfl
    split
    · exact hu
    · exact (hland ..).trans hu
  · split
    · rfl
    · next gid off _ =>
      split
      · exact units_modTile s fun _ => rfl
      · split
        · exact units_burstWrite ..
        · have hread := units_burstData s k b port gid off
          generalize s.burstData k b port gid off = r at hread ⊢
          obtain ⟨read, data⟩ := r
          dsimp only
          have hupset := units_readUpset read port gid off data
            (decide (stkLatOf j.words < (Config.stkLat port (keyVx k) (keyVy k)).toNat))
          generalize read.readUpset port gid off data _ = r at hupset ⊢
          obtain ⟨upset, landed, arr⟩ := r
          exact (hland ..).trans (hupset.trans hread)

@[simp] theorem units_stackCommands (k p b : Nat) (pre : Tile) : (s.stackCommands k p b pre).units = s.units := by
  refine foldl_keeps State.units (fun s j => ?_) _ s
  split
  · split
    · rfl
    · exact units_stkCommand ..
  · rfl

@[simp] theorem units_sendToken (k : Nat) (d : Dir) (b : Nat) (bs : List Byte) : (s.sendToken k d b bs).units = s.units := by
  unfold State.sendToken
  split
  · rfl
  · exact units_modTile s fun _ => rfl

@[simp] theorem units_sendTokens (k b : Nat) (pre : Tile) : (s.sendTokens k b pre).units = s.units := by
  refine foldl_keeps State.units (fun s dj => ?_) _ s
  split
  · exact (units_sendToken ..).trans (units_modTile s fun _ => rfl)
  · rfl

@[simp] theorem units_rwFlush (k p : Nat) : (s.rwFlush k p).units = s.units := by
  unfold State.rwFlush
  extract_lets rw
  refine Eq.trans (units_modTile _ fun _ => ?_) ?_
  · rfl
  split <;> rfl

@[simp] theorem units_haltTile (k p b : Nat) : (s.haltTile k p b).units = s.units := by
  unfold State.haltTile
  extract_lets t halted flushed
  split
  · exact (units_of_tiles (State.send_tiles ..)).trans ((units_rwFlush ..).trans (units_modTile s fun _ => by rfl))
  · rfl

@[simp] theorem units_countCorrected (k n : Nat) : (s.countCorrected k n).units = s.units := by
  unfold State.countCorrected
  split
  · rfl
  · extract_lets old new u
    have hu : u.units = s.units := units_modTile s fun _ => rfl
    split
    · split
      · exact hu
      · exact hu
    · exact hu

@[simp] theorem units_beginRun (p : Nat) : (s.beginRun p).units = s.units := rfl
@[simp] theorem units_noteHolds (p : Nat) : (s.noteHolds p).units = s.units := rfl

/-- The tile that begins its next beat. -/
theorem units_nextBeat (t : Tile) (b now : Nat) :
    ({ t with beat := b + 1, gateOpen := false, doneTime := now, ctrsPrev := t.ctrs, holdEnd := none } : Tile).beginAt.units = t.units :=
  units_beginAt _

/-- The tile's units after a completed beat: as its beat's effect leaves them. -/
theorem completeBeat_units (k p b : Nat) :
    ((s.completeBeat k p b).tile k).units = ((s.tile k).beatEffect (s.pasture p).tallyMode b).units := by
  unfold State.completeBeat
  extract_lets pre mode accounted effect
  generalize s.portFaults k p b = faults
  obtain ⟨-, orphans, empties⟩ := faults
  dsimp -zeta only
  extract_lets counted commanded sent halted closed corrected began
  have heffect : effect.units k = (pre.beatEffect mode b).units := congrArg Tile.units (State.putTile_tile_same ..)
  have hcounted : counted.units = effect.units := units_modTile effect fun _ => by rfl
  have hhalted : halted.units = effect.units := by
    rw [units_haltTile, units_sendTokens, units_stackCommands, hcounted]
  have hclosed : closed.units = halted.units := units_modTile halted fun t => units_nextBeat t b halted.now
  have hbegan : began.units = corrected.units := by
    unfold began
    split
    · exact units_beginRun ..
    · rfl
  calc ((began.noteHolds p).tile k).units = began.units k := congrFun (units_noteHolds began p) k
    _ = effect.units k := by rw [hbegan, units_countCorrected, hclosed, hhalted]
    _ = _ := heffect

/-- What a completed beat makes of the tile's units (R156, R171): the matrix unit's beat from the accumulators before it, and the vector
descriptors with what they captured, but for those that end. -/
theorem beatDone_units (k p : Nat) : ∃ u : Tile, u.acc = (s.tile k).acc ∧
    ((Claims.beatDone s k p).tile k).units =
      ⟨(u.mxUnit (s.tile k) (s.tile k).beat).acc, (u.mxUnit (s.tile k) (s.tile k).beat).mxJobs,
        ((s.tile k).vxJobs.map fun j => (s.tile k).vxAfter j (s.tile k).beat).filter
          fun j => decide ((s.tile k).beat < j.vxLast (s.tile k).ltv)⟩ := by
  rw [Claims.beatDone, checkLength_tile, completeBeat_units]
  exact units_beatEffect ..

end

end Sys2Proof.Machine
end

section
/-!
A vector descriptor's beats (R171): what it reads, what it captures, when it ends, and what it writes.
-/
namespace Sys2Proof.Machine

variable (t : Tile) (j : Job) (b i : Nat)

/-- A capture changes the captured bytes alone. -/
theorem vxCapture_job : ∃ cap, (j.vxCapture t i).1 = { j with cap := cap } := by
  unfold Job.vxCapture
  extract_lets
  split
  · exact ⟨_, rfl⟩
  · split <;> exact ⟨_, rfl⟩

variable {t j b i}

theorem vxLast_vxCapture (ltv : BitVec 2) : (j.vxCapture t i).1.vxLast ltv = j.vxLast ltv := by
  obtain ⟨cap, h⟩ := vxCapture_job t j i
  rw [h]
  rfl

theorem vxReadAt_of_read (hb : b = j.go + 1 + i) (hi : i < j.vxVectors) : j.vxReadAt b = some i := by
  have hread : j.go < b ∧ b - j.go - 1 < j.vxVectors := by omega
  rw [Job.vxReadAt, if_pos (by simpa using hread)]
  exact congrArg some (by omega)

theorem vxReadAt_of_no_read (h : b ≤ j.go ∨ j.vxLastRead < b) : j.vxReadAt b = none := by
  have hread : ¬ (j.go < b ∧ b - j.go - 1 < j.vxVectors) := by rw [Job.vxLastRead] at h; omega
  rw [Job.vxReadAt, if_neg (by simpa using hread)]

theorem vxWriteAt_of_write {ltv : BitVec 2} (hb : b = j.go + 1 + i + (vxCfg j.words).lat ltv) (hi : i < j.vxVectors) :
    j.vxWriteAt ltv b = some i := by
  unfold Job.vxWriteAt
  extract_lets l
  have hwrite : j.go + l < b ∧ b - j.go - 1 - l < j.vxVectors := by omega
  rw [if_pos (by simpa using hwrite)]
  exact congrArg some (by omega)

theorem mem_accesses_of_vx {x : Access} (hj : j ∈ t.vxJobs) (hx : x ∈ j.vxAccesses t.ltv b) : x ∈ t.accesses b := by
  have h : x ∈ t.vxJobs.flatMap fun j => j.vxAccesses t.ltv b := List.mem_flatMap.mpr ⟨j, hj, hx⟩
  simp only [Tile.accesses, Tile.jobAccesses, List.mem_append]
  tauto

theorem mem_accesses_of_vxRead {x : Access} (hj : j ∈ t.vxJobs) (hread : j.vxReadAt b = some i) (hx : x ∈ j.vxReads i) :
    x ∈ t.accesses b := by
  refine mem_accesses_of_vx hj (List.mem_append_left _ ?_)
  rw [hread]
  exact hx

theorem mem_accesses_of_vxWrite {x : Access} {w : Rec × List (Int × Byte)} (hj : j ∈ t.vxJobs) (hw : w ∈ (j.vxWrites t.ltv b).1)
    (hx : x ∈ writeAccesses w.1.hash w.2) : x ∈ t.accesses b :=
  mem_accesses_of_vx hj (List.mem_append_right _ (List.mem_flatMap.mpr ⟨w, hw, hx⟩))

/-! ### What it writes, by descriptor -/

variable {ltv : BitVec 2}

theorem vxWrites_reduction (h : (vxCfg j.words).reduces = true) :
    (j.vxWrites ltv b).1 = [(j.vxD0, (j.groupsAt ltv b).flatMap fun g => (j.reduceWrites g).1)] := by
  simp only [Job.vxWrites, h, if_true, List.flatMap_map]

theorem vxWrites_lanes (hred : (vxCfg j.words).reduces = false) (hop : (vxCfg j.words).isOp = true) (h : j.vxWriteAt ltv b = some i) :
    (j.vxWrites ltv b).1 = [(j.vxD0, j.laneWrites i ((vxCfg j.words).laneResults (j.vxCap i 0) (j.vxCap i 1) (j.vxCap i 2)
      ((vxCfg j.words).laneNarrowed (j.vxNarrowed i 0) (j.vxNarrowed i 1) (j.vxNarrowed i 2))).1)] := by
  have hdesc : (vxCfg j.words).desc = 0x03 := of_decide_eq_true hop
  simp [Job.vxWrites, hred, h, VxCfg.isTopk, VxCfg.isQuant, hdesc]

theorem vxWrites_topk (hred : (vxCfg j.words).reduces = false) (hk : (vxCfg j.words).isTopk = true) (h : j.vxWriteAt ltv b = some i) :
    j.vxWrites ltv b = j.topkWrites i := by
  simp [Job.vxWrites, hred, h, hk]

theorem vxWrites_quant (hred : (vxCfg j.words).reduces = false) (hq : (vxCfg j.words).isQuant = true)
    (hd : (vxCfg j.words).dequant = false) (h : j.vxWriteAt ltv b = some i) : j.vxWrites ltv b = j.quantWrites i := by
  have hdesc : (vxCfg j.words).desc = 0x04 := of_decide_eq_true hq
  simp [Job.vxWrites, hred, h, VxCfg.isTopk, hdesc, hq, hd]

theorem vxWrites_dequant (hred : (vxCfg j.words).reduces = false) (hq : (vxCfg j.words).isQuant = true)
    (hd : (vxCfg j.words).dequant = true) (h : j.vxWriteAt ltv b = some i) :
    (j.vxWrites ltv b).1 = [(j.vxD0, j.laneWrites i (j.vxCap i 0))] := by
  have hdesc : (vxCfg j.words).desc = 0x04 := of_decide_eq_true hq
  simp [Job.vxWrites, hred, h, VxCfg.isTopk, hdesc, hq, hd]

/-! ### How long it stays -/

theorem lat_pos (c : VxCfg) (ltv : BitVec 2) : 0 < c.lat ltv := by
  unfold VxCfg.lat
  repeat' split
  all_goals decide

variable {u : Tile}

/-- A descriptor after a beat before its last is still in progress. -/
theorem mem_vxJobs_after (hu : u.vxJobs = (t.vxJobs.map fun j => t.vxAfter j b).filter fun j => decide (b < j.vxLast t.ltv))
    (hj : j ∈ t.vxJobs) (hb : b < (t.vxAfter j b).vxLast t.ltv) : t.vxAfter j b ∈ u.vxJobs := by
  rw [hu]
  exact List.mem_filter.mpr ⟨List.mem_map.mpr ⟨j, hj, rfl⟩, decide_eq_true hb⟩

theorem vxAfter_of_read (h : j.vxReadAt b = some i) : t.vxAfter j b = (j.vxCapture t i).1 := by simp only [Tile.vxAfter, h]

theorem vxAfter_of_no_read (h : j.vxReadAt b = none) : t.vxAfter j b = j := by simp only [Tile.vxAfter, h]

theorem mem_groupsAt {g : Nat} : g ∈ j.groupsAt ltv b ↔ g < ceilDiv j.vxRows 64 ∧
    b = j.go + 1 + lastVector (vxCfg j.words).lanes j.vxN (min j.vxRows (64 * g + 64) - 1) + (vxCfg j.words).lat ltv := by
  simp only [Job.groupsAt, List.mem_filter, List.mem_range, decide_eq_true_eq, eq_comm (a := b)]

end Sys2Proof.Machine

namespace Sys2Proof.Settled
open Sys2Proof Sys2Proof.Machine

theorem vectorBeats : Claims.VectorBeats := by
  intro vx vy s p j h k t b c l wrote hj
  obtain ⟨u, -, hunits⟩ := beatDone_units s k p
  have hjobs : ((Claims.beatDone s k p).tile k).vxJobs =
      (t.vxJobs.map fun j => t.vxAfter j b).filter fun j => decide (b < j.vxLast t.ltv) := congrArg Units.vxJobs hunits
  have hwrote {w : Rec × List (Int × Byte)} (hw : w ∈ (j.vxWrites t.ltv b).1) : wrote w.1 w.2 :=
    fun x hx => mem_accesses_of_vxWrite hj hw hx
  refine ⟨Claims.beatDone s k p, tryBeat_completes h, ?read, ?stays, ?write, ?reduction, fun g => mem_groupsAt⟩
  case read =>
    intro i hb hi
    have hread := vxReadAt_of_read hb hi
    refine ⟨fun x => mem_accesses_of_vxRead hj hread, ?_⟩
    rw [← vxAfter_of_read hread]
    refine mem_vxJobs_after hjobs hj ?_
    have hlat := lat_pos (vxCfg j.words) t.ltv
    rw [vxAfter_of_read hread, vxLast_vxCapture, Job.vxLast, Job.vxLastRead]
    omega
  case stays =>
    intro hb hlast
    have hstays := vxAfter_of_no_read (t := t) (vxReadAt_of_no_read hb)
    have hmem := mem_vxJobs_after hjobs hj (hstays.symm ▸ hlast)
    rwa [hstays] at hmem
  case write =>
    intro i hb hi hred
    have hwrite := vxWriteAt_of_write hb hi
    refine ⟨fun hop => ?_, fun hq hd => ?_, fun hq hd w hw => ?_, fun hk w hw => ?_⟩
    · exact hwrote (by rw [vxWrites_lanes hred hop hwrite]; exact List.mem_cons_self)
    · exact hwrote (by rw [vxWrites_dequant hred hq hd hwrite]; exact List.mem_cons_self)
    · exact hwrote (by rw [vxWrites_quant hred hq hd hwrite]; exact hw)
    · exact hwrote (by rw [vxWrites_topk hred hk hwrite]; exact hw)
  case reduction =>
    intro hred
    exact hwrote (by rw [vxWrites_reduction hred]; exact List.mem_cons_self)

end Sys2Proof.Settled
end

section
/-!
Exact values (R78, R89): the number a dyadic stands for, its order and its arithmetic, and the values of binary32 codes.
-/
namespace Sys2Proof.Machine

/-! ### The number a dyadic stands for -/

/-- The number m × 2^e. -/
def Dyad.val (x : Dyad) : ℚ := x.m * 2 ^ x.e

theorem pow2_cast {k : Int} (h : 0 ≤ k) : (pow2 k : ℚ) = 2 ^ k := by
  rw [pow2, Nat.cast_pow, ← zpow_natCast, Int.toNat_of_nonneg h, Nat.cast_ofNat]

/-- A numerator at a common exponent is the value in units of that power. -/
theorem Dyad.at_val {x : Dyad} {e : Int} (h : e ≤ x.e) : (x.at_ e : ℚ) * 2 ^ e = x.val := by
  rw [Dyad.at_, Dyad.val, Int.cast_mul, Int.cast_natCast, pow2_cast (by omega), mul_assoc, ← zpow_add₀ (by norm_num)]
  congr 2
  omega

theorem Dyad.val_add (x y : Dyad) : (x.add y).val = x.val + y.val := by
  rw [← Dyad.at_val (min_le_left x.e y.e), ← Dyad.at_val (min_le_right x.e y.e), ← add_mul, ← Int.cast_add]
  rfl

@[simp] theorem Dyad.val_neg (x : Dyad) : x.neg.val = -x.val := by
  rw [Dyad.val, Dyad.val, Dyad.neg, Int.cast_neg, neg_mul]

theorem Dyad.val_sub (x y : Dyad) : (x.sub y).val = x.val - y.val := by
  rw [Dyad.sub, Dyad.val_add, Dyad.val_neg, sub_eq_add_neg]

@[simp] theorem Dyad.val_abs (x : Dyad) : x.abs.val = |x.val| := by
  rw [Dyad.val, Dyad.val, abs_mul, abs_of_pos (zpow_pos (by norm_num : (0 : ℚ) < 2) x.e)]
  simp only [Dyad.abs, Int.natCast_natAbs, Int.cast_abs]

theorem Dyad.lt_iff {x y : Dyad} : x.lt y = true ↔ x.val < y.val := by
  rw [← Dyad.at_val (min_le_left x.e y.e), ← Dyad.at_val (min_le_right x.e y.e),
    mul_lt_mul_iff_left₀ (zpow_pos (by norm_num : (0 : ℚ) < 2) _), Int.cast_lt]
  exact decide_eq_true_iff

theorem Dyad.not_lt_iff {x y : Dyad} : x.lt y = false ↔ y.val ≤ x.val := by
  rw [← Bool.not_eq_true, Dyad.lt_iff, not_lt]

theorem Dyad.le_iff {x y : Dyad} : x.le y = true ↔ x.val ≤ y.val := by
  rw [Dyad.le, Bool.not_eq_true', Dyad.not_lt_iff]

theorem Dyad.val_int (n : Int) : (⟨n, 0⟩ : Dyad).val = n := by rw [Dyad.val, zpow_zero, mul_one]

theorem Dyad.val_eq_zero {x : Dyad} : x.val = 0 ↔ x.m = 0 := by
  rw [Dyad.val, mul_eq_zero, Int.cast_eq_zero, or_iff_left (zpow_ne_zero _ (by norm_num))]

/-! ### The values of binary32 codes (R78) -/

/-- The form of a binary32 value: 24 bits of magnitude at most, all of them in use above the smallest exponent. -/
def Dyad.isF32 (x : Dyad) : Prop :=
  x.m.natAbs < 2 ^ 24 ∧ -149 ≤ x.e ∧ x.e ≤ 104 ∧ (2 ^ 23 ≤ x.m.natAbs ∨ x.e = -149)

theorem field_exponent (a : BitVec 32) : field a 30 23 = a.toNat / 2 ^ 23 % 2 ^ 8 := rfl
theorem field_mantissa (a : BitVec 32) : field a 22 0 = a.toNat % 2 ^ 23 := by rw [field, pow_zero, Nat.div_one]

theorem bitAt_sign (a : BitVec 32) : bitAt a 31 = decide (2 ^ 31 ≤ a.toNat) := by
  have h := a.isLt
  rw [bitAt, BitVec.getLsbD, Nat.testBit_eq_decide_div_mod_eq, decide_eq_decide]
  omega

/-- A finite code's parts: its value's magnitude and exponent, and its sign. -/
theorem f32Val_fin {a : BitVec 32} {x : Dyad} (h : f32Val a = .fin x) :
    ∃ e m : Nat, e < 255 ∧ m < 2 ^ 23 ∧ a.toNat = (if 2 ^ 31 ≤ a.toNat then 2 ^ 31 else 0) + e * 2 ^ 23 + m ∧
      x.m = (if 2 ^ 31 ≤ a.toNat then -1 else 1) * (if e = 0 then m else m + 2 ^ 23 : Nat) ∧
      x.e = (if e = 0 then 1 else e : Nat) - 150 := by
  refine ⟨a.toNat / 2 ^ 23 % 2 ^ 8, a.toNat % 2 ^ 23, ?_⟩
  unfold f32Val at h
  rw [bitAt_sign, field_exponent, field_mantissa] at h
  have ha := a.isLt
  dsimp only at h
  split at h
  · split at h <;> cases h
  · next he =>
    cases h
    refine ⟨by omega, Nat.mod_lt _ (by norm_num), by split <;> omega, ?_, rfl⟩
    simp only [decide_eq_true_eq]
    push_cast
    split <;> split <;> ring

theorem natAbs_of_signed {p : Prop} [Decidable p] {m : Int} {n : Nat} (h : m = (if p then -1 else 1) * (n : Int)) : m.natAbs = n := by
  rw [h, Int.natAbs_mul, Int.natAbs_natCast]
  split <;> simp

theorem isF32_of_f32Val {a : BitVec 32} {x : Dyad} (h : f32Val a = .fin x) : x.isF32 := by
  obtain ⟨e, m, he, hm, -, hxm, hxe⟩ := f32Val_fin h
  have habs := natAbs_of_signed hxm
  by_cases h0 : e = 0
  · simp only [h0, if_true] at habs hxe
    exact ⟨by omega, by omega, by omega, by omega⟩
  · simp only [h0, if_false] at habs hxe
    exact ⟨by omega, by omega, by omega, by omega⟩

theorem isF32_e_le {x y : Dyad} (hx : x.isF32) (hy : y.isF32) (h : |x.val| = |y.val|) : x.e ≤ y.e := by
  obtain ⟨-, hlo, -, hfull⟩ := hx
  obtain ⟨hlt, hylo, -, -⟩ := hy
  by_contra hgt
  have hpow : (0 : ℚ) < 2 ^ y.e := zpow_pos (by norm_num) _
  obtain ⟨d, hd⟩ : ∃ d : Nat, x.e = y.e + 1 + d := ⟨(x.e - y.e - 1).toNat, by omega⟩
  have hval : (x.m.natAbs : ℚ) * 2 ^ (1 + d) = y.m.natAbs := by
    rw [← Dyad.val_abs, ← Dyad.val_abs, Dyad.val, Dyad.val] at h
    simp only [Dyad.abs, hd, zpow_add₀ (two_ne_zero (α := ℚ)), Int.cast_natCast] at h
    rw [← mul_right_cancel_iff_of_pos hpow, ← h, pow_add, zpow_natCast]
    ring
  have hnat : x.m.natAbs * 2 ^ (1 + d) = y.m.natAbs := by exact_mod_cast hval
  have hd : 2 ^ 1 ≤ 2 ^ (1 + d) := Nat.pow_le_pow_right (by norm_num) (by omega)
  nlinarith [hfull.resolve_right (by omega)]

/-- The form has one way to write a magnitude. -/
theorem isF32_abs_eq {x y : Dyad} (hx : x.isF32) (hy : y.isF32) (h : |x.val| = |y.val|) : x.abs = y.abs := by
  have he : x.e = y.e := le_antisymm (isF32_e_le hx hy h) (isF32_e_le hy hx h.symm)
  rw [← Dyad.val_abs, ← Dyad.val_abs, Dyad.val, Dyad.val] at h
  simp only [Dyad.abs, he] at h ⊢
  rw [Int.cast_inj.mp (mul_right_cancel₀ (zpow_ne_zero _ (by norm_num)) h)]

/-! ### Rounding a value that needs none (R89) -/

theorem isF32_not_above {x : Dyad} (h : x.isF32) : f32Max.lt x.abs = false := by
  obtain ⟨hm, -, he, -⟩ := h
  rw [Dyad.not_lt_iff, Dyad.val, Dyad.val, f32Max]
  have hnum : ((x.abs.m : Int) : ℚ) ≤ ((2 ^ 24 - 1 : Int) : ℚ) := by
    rw [Int.cast_le]
    show (x.m.natAbs : Int) ≤ 2 ^ 24 - 1
    omega
  have hpow : (2 : ℚ) ^ x.e ≤ 2 ^ (104 : Int) := zpow_le_zpow_right₀ (by norm_num) he
  exact mul_le_mul hnum hpow (zpow_pos (by norm_num) _).le (by norm_num)

theorem log2_of_full {n : Nat} (hlo : 2 ^ 23 ≤ n) (hhi : n < 2 ^ 24) : n.log2 = 23 :=
  (Nat.log2_eq_iff (by omega)).mpr ⟨hlo, hhi⟩

theorem roundMag_of_isF32 {x : Dyad} (h : x.isF32) : roundMag 24 (-149) x = (x.m.natAbs, x.e) := by
  obtain ⟨hm, hlo, -, hfull⟩ := h
  unfold roundMag
  extract_lets n q
  have hq : n ≠ 0 → q = x.e := by
    intro hn
    rcases Nat.lt_or_ge n (2 ^ 23) with hlt | hge
    · have hlog : x.m.natAbs.log2 < 23 := (Nat.log2_lt hn).mpr hlt
      have := hfull.resolve_left (by omega)
      simp only [q, Dyad.log2]
      omega
    · have hlog : x.m.natAbs.log2 = 23 := log2_of_full hge hm
      simp only [q, Dyad.log2]
      omega
  split
  · next hn => rw [hfull.resolve_left (by omega)]; rw [← hn]
  · next hn => rw [hq hn, if_pos le_rfl, sub_self, pow2, Int.toNat_zero, pow_zero, mul_one]

/-- The code of a value of the form, but for its sign. -/
theorem f32Bits_of_parts {e m : Nat} (hm : m < 2 ^ 23) :
    f32Bits (if e = 0 then m else m + 2 ^ 23) ((if e = 0 then 1 else e : Nat) - 150) = e * 2 ^ 23 + m := by
  unfold f32Bits
  by_cases he : e = 0
  · simp only [he, if_true, hm]
    split <;> omega
  · simp only [he, if_false]
    rw [if_neg (by omega), if_neg (by omega), if_neg (by omega)]
    have : ((e : Int) - 150 + 150).toNat = e := by omega
    rw [this]
    omega

end Sys2Proof.Machine

namespace Sys2Proof.Settled
open Sys2Proof Sys2Proof.Machine

theorem roundingKeepsCodes : Claims.RoundingKeepsCodes := by
  intro a x h
  have hform := isF32_of_f32Val h
  obtain ⟨e, m, he, hm, ha, hxm, hxe⟩ := f32Val_fin h
  have habs := natAbs_of_signed hxm
  have hbits : f32Bits x.m.natAbs x.e = e * 2 ^ 23 + m := by rw [habs, hxe, f32Bits_of_parts hm]
  have hsign : x.m < 0 ↔ 2 ^ 31 ≤ a.toNat ∧ e * 2 ^ 23 + m ≠ 0 := by
    rw [hxm]
    split <;> split <;> omega
  have hlt := a.isLt
  rw [roundF32, isF32_not_above hform, roundMag_of_isF32 hform]
  simp only [Bool.false_eq_true, if_false, hbits, Prod.mk.injEq, and_true]
  apply BitVec.eq_of_toNat_eq
  by_cases hcode : e * 2 ^ 23 + m = 0
  · rw [if_pos hcode]
    split
    · rfl
    · next hne =>
      have hsmall : a.toNat ≠ 2 ^ 31 := fun h => hne (BitVec.eq_of_toNat_eq h)
      rw [BitVec.toNat_ofNat]
      split at ha <;> omega
  · have hne : a ≠ 0x80000000 := by
      rintro rfl
      have hval : (0x80000000 : BitVec 32).toNat = 2 ^ 31 := rfl
      rw [hval, if_pos le_rfl] at ha
      omega
    rw [if_neg hcode, if_neg hne, BitVec.toNat_ofNat]
    by_cases hs : 2 ^ 31 ≤ a.toNat
    · rw [if_pos (hsign.mpr ⟨hs, hcode⟩)]
      rw [if_pos hs] at ha
      omega
    · rw [if_neg fun h => hs (hsign.mp h).1]
      rw [if_neg hs] at ha
      omega

end Sys2Proof.Settled
end

section
/-!
Lane results and special functions (R170, R174).
-/
namespace Sys2Proof.Machine

theorem getD_map_range {α : Type} (f : Nat → α) (n l : Nat) (d : α) (h : l < n) : ((List.range n).map f).getD l d = f l := by
  rw [List.getD_eq_getElem _ _ (by simpa using h), List.getElem_map, List.getElem_range]

/-! ### Lanes -/

section
variable {c : VxCfg} {as bs cs : List (BitVec 32)} {nar : Nat → Bool} {l : Nat}

/-- A lane of a special function: its value, in BF16 rounded once more. -/
theorem laneResults_special (hl : l < as.length) (hs : c.special = true) :
    (c.laneResults as bs cs nar).1.getD l 0 =
      if c.bf16 then (c.round (f32Dyad (sfuValue c.op (sfuInput c.scale (as.getD l 0) (bs.getD l 0))).1)).1
      else (sfuValue c.op (sfuInput c.scale (as.getD l 0) (bs.getD l 0))).1 := by
  simp only [VxCfg.laneResults, List.map_map, hs, if_true]
  rw [getD_map_range _ _ _ _ hl, Function.comp_apply]
  split <;> rfl

/-- A lane of every other operation: its exact value, rounded once to the lane type. -/
theorem laneResults_rounded (hl : l < as.length) (hs : c.special = false) :
    (c.laneResults as bs cs nar).1.getD l 0 = (c.round (if c.op = 0x0A then pairValue as bs cs l
      else laneValue c.op (as.getD l 0) (bs.getD l 0) (cs.getD l 0))).1 := by
  simp only [VxCfg.laneResults, List.map_map, hs, Bool.false_eq_true, if_false]
  rw [getD_map_range _ _ _ _ hl]
  rfl

/-- The exact value of a lane of PAIRROT whose pair lies within the vector. -/
theorem pairValue_of_pair (h : l / 2 * 2 + 1 < as.length) :
    pairValue as bs cs l =
      if l % 2 = 0 then
        ((f32Dyad (as.getD (l / 2 * 2) 0)).mul (f32Dyad (bs.getD (l / 2 * 2) 0))).add
          ((f32Dyad (as.getD (l / 2 * 2 + 1) 0)).mul (f32Dyad (cs.getD (l / 2 * 2) 0))).neg
      else
        ((f32Dyad (as.getD (l / 2 * 2) 0)).mul (f32Dyad (cs.getD (l / 2 * 2) 0))).add
          ((f32Dyad (as.getD (l / 2 * 2 + 1) 0)).mul (f32Dyad (bs.getD (l / 2 * 2) 0))) := by
  simp only [pairValue, List.getD_eq_getElem _ _ h]
  rfl

theorem laneValue_min (a b c : BitVec 32) :
    laneValue 0x05 a b c = f32Dyad a ∧ (f32Dyad a).le (f32Dyad b) = true ∨
      laneValue 0x05 a b c = f32Dyad b ∧ (f32Dyad b).lt (f32Dyad a) = true := by
  simp only [laneValue, Dyad.le]
  split
  · next h => exact .inr ⟨rfl, h⟩
  · next h => exact .inl ⟨rfl, by simpa using h⟩

theorem laneValue_max (a b c : BitVec 32) :
    laneValue 0x06 a b c = f32Dyad a ∧ (f32Dyad b).le (f32Dyad a) = true ∨
      laneValue 0x06 a b c = f32Dyad b ∧ (f32Dyad a).lt (f32Dyad b) = true := by
  simp only [laneValue, Dyad.le]
  split
  · next h => exact .inr ⟨rfl, h⟩
  · next h => exact .inl ⟨rfl, by simpa using h⟩

end

end Sys2Proof.Machine

namespace Sys2Proof.Settled
open Sys2Proof Sys2Proof.Machine

theorem laneResults : Claims.LaneResults := by
  intro c as bs cs nar l hl hop x y z e at_ r
  have hlane {op : Nat} {v : Dyad} (hv : laneValue op (as.getD l 0) (bs.getD l 0) (cs.getD l 0) = v) (hlow : op < 0x0A) (h : c.op = op) :
      r = (c.round v).1 := by
    have hs : c.special = false := by simp [VxCfg.special, h]; omega
    rw [show r = _ from laneResults_rounded hl hs, if_neg (by omega), h, hv]
  have hspecial (h : 0x20 ≤ c.op) : c.special = true := by simp [VxCfg.special, hop, h]
  refine ⟨hlane rfl (by decide), hlane rfl (by decide), hlane rfl (by decide), hlane rfl (by decide), ?min,
    ?max, hlane rfl (by decide), hlane rfl (by decide), hlane rfl (by decide), ?pair, ?wide, ?narrow⟩
  case min =>
    intro h
    exact (laneValue_min ..).imp (fun ⟨hv, hle⟩ => ⟨hlane hv (by decide) h, hle⟩) fun ⟨hv, hlt⟩ => ⟨hlane hv (by decide) h, hlt⟩
  case max =>
    intro h
    exact (laneValue_max ..).imp (fun ⟨hv, hle⟩ => ⟨hlane hv (by decide) h, hle⟩) fun ⟨hv, hlt⟩ => ⟨hlane hv (by decide) h, hlt⟩
  case pair =>
    intro h he
    have hs : c.special = false := by simp [VxCfg.special, h]
    rw [show r = _ from laneResults_rounded hl hs, if_pos h, pairValue_of_pair he]
  case wide =>
    intro h hw
    rw [show r = _ from laneResults_special hl (hspecial h), if_neg (by simp [hw])]
  case narrow =>
    intro h hn
    rw [show r = _ from laneResults_special hl (hspecial h), if_pos hn]

end Sys2Proof.Settled
end

section
/-!
Special functions (R174): the input's two roundings, the special inputs, and a result within the stated error of the exact one.
-/
namespace Sys2Proof.Machine

theorem sfuInput_of_finite {scale a b : BitVec 32} {sc : Dyad} (h : f32Val scale = .fin sc) :
    sfuInput scale a b = (roundF32 ((f32Dyad (roundF32 ((f32Dyad a).add (f32Dyad b).neg)).1).mul sc)).1 := by
  simp only [sfuInput, h, Dyad.sub]

/-- The fixed-point value of a dyadic that stands for an integer. -/
theorem floorFrac_of_int {x : Dyad} {n : Int} (h : x.val = n) : floorFrac x = (n, 0) := by
  have hfix : (if x.e ≥ 0 then x.m * pow2 x.e * (2 : Int) ^ sfuBits
    else if x.e.natAbs ≤ sfuBits then x.m * (2 : Int) ^ (sfuBits - x.e.natAbs)
    else x.m / (2 : Int) ^ (x.e.natAbs - sfuBits)) = n * 2 ^ sfuBits := by
    generalize sfuBits = bits
    rcases lt_or_ge x.e 0 with hneg | hpos
    · obtain ⟨d, hd⟩ : ∃ d : Nat, x.e = -d := ⟨x.e.natAbs, by omega⟩
      have hm : x.m = n * 2 ^ d := by
        rw [Dyad.val, hd, zpow_neg, ← div_eq_mul_inv, div_eq_iff (by positivity), zpow_natCast] at h
        exact_mod_cast h
      rw [if_neg (by omega), hd, Int.natAbs_neg, Int.natAbs_natCast, hm]
      split
      · next hle => rw [mul_assoc, ← pow_add, Nat.add_sub_of_le hle]
      · next hgt =>
        rw [← Nat.add_sub_of_le (Nat.le_of_not_le hgt), Nat.add_sub_cancel_left, pow_add, ← mul_assoc]
        exact Int.mul_ediv_cancel _ (by positivity)
    · have hm : x.m * pow2 x.e = n := by
        rw [Dyad.val, ← pow2_cast hpos] at h
        exact_mod_cast h
      rw [if_pos hpos, hm]
  have hpow : (2 : Int) ^ sfuBits ≠ 0 := pow_ne_zero _ (by norm_num)
  rw [floorFrac, hfix, Int.mul_ediv_cancel _ hpow, Int.mul_emod_left, Int.toNat_zero]

section
variable {u : BitVec 32}

/-! ### EXP2 at the ends of its range and at integers -/

theorem sfuValue_exp2_above (h : (f32Dyad u).lt ⟨128, 0⟩ = false) : sfuValue 0x20 u = (0x7F7FFFFF, { satElem := 1 }) := by
  rw [sfuValue, if_pos (by simp [Dyad.le, h])]

theorem sfuValue_exp2_below (h : (f32Dyad u).lt ⟨-149, 0⟩ = true) : sfuValue 0x20 u = (0, {}) := by
  have hle : (f32Dyad u).lt ⟨128, 0⟩ = true := by
    rw [Dyad.lt_iff, Dyad.val_int] at h ⊢
    exact h.trans (by norm_num)
  rw [sfuValue, if_neg (by simp [Dyad.le, hle]), if_pos (by simp [h])]

theorem sfuValue_exp2_int {n : Int} (hlo : -149 ≤ n) (hhi : n < 128) (h : (f32Dyad u).val = n) :
    sfuValue 0x20 u = ((roundF32 ⟨1, n⟩).1, {}) := by
  have hle : (f32Dyad u).lt ⟨128, 0⟩ = true := by
    rw [Dyad.lt_iff, Dyad.val_int, h]
    exact_mod_cast hhi
  have hge : (f32Dyad u).lt ⟨-149, 0⟩ = false := by
    rw [Dyad.not_lt_iff, Dyad.val_int, h]
    exact_mod_cast hlo
  have hfloor := floorFrac_of_int h
  rw [sfuValue, if_neg (by simp [Dyad.le, hle]), if_neg (by simp [hge]), if_pos (by simp [hfloor]), hfloor]

/-! ### The other special inputs -/

theorem sfuValue_log2_zero (h : (f32Dyad u).m = 0) : sfuValue 0x21 u = (0xFF7FFFFF, { nonfinite := 1 }) := by
  simp [sfuValue, Dyad.isZero, h]

theorem sfuValue_log2_neg (h : (f32Dyad u).m < 0) : sfuValue 0x21 u = (0, { nonfinite := 1 }) := by
  simp [sfuValue, Dyad.isZero, h, h.ne]

theorem sfuValue_rcp_zero (h : (f32Dyad u).m = 0) : sfuValue 0x22 u = (0x7F7FFFFF, { nonfinite := 1 }) := by
  simp [sfuValue, Dyad.isZero, h]

theorem sfuValue_rsqrt_zero (h : (f32Dyad u).m = 0) : sfuValue 0x23 u = (0x7F7FFFFF, { nonfinite := 1 }) := by
  simp [sfuValue, Dyad.isZero, h]

theorem sfuValue_rsqrt_neg (h : (f32Dyad u).m < 0) : sfuValue 0x23 u = (0, { nonfinite := 1 }) := by
  simp [sfuValue, Dyad.isZero, h, h.ne]

/-! ### Every other input -/

/-- A result that counts nothing is the pipe's own where that lies within the stated error, and else the exact one rounded. -/
theorem sfuValue_within {op : Nat} (h : (sfuValue op u).2 = {})
    (hexp : op = 0x20 → (f32Dyad u).lt ⟨-149, 0⟩ = false ∧ (floorFrac (f32Dyad u)).2 ≠ 0) :
    (∃ d, f32Val (sfuValue op u).1 = .fin d ∧
      (d.sub (sfuRef op (f32Dyad u))).abs.le (sfuBound op (f32Dyad u) (sfuRef op (f32Dyad u))) = true) ∨
      (sfuValue op u).1 = (roundF32 (sfuRef op (f32Dyad u))).1 := by
  have hbelow : ¬ ((decide (op = 0x20) && (f32Dyad u).lt ⟨-149, 0⟩) = true) := by
    simp only [Bool.and_eq_true, decide_eq_true_eq]
    exact fun ⟨e, hlt⟩ => by simp [(hexp e).1] at hlt
  have hint : ¬ ((decide (op = 0x20) && decide ((floorFrac (f32Dyad u)).2 = 0)) = true) := by
    simp only [Bool.and_eq_true, decide_eq_true_eq]
    exact fun ⟨e, hz⟩ => (hexp e).2 hz
  unfold sfuValue at h ⊢
  dsimp only at h ⊢
  generalize sfuRef op (f32Dyad u) = y at h ⊢
  generalize Config.sfu op u = cand at h ⊢
  rw [if_neg hbelow, if_neg hint] at h ⊢
  split at h
  · cases h
  split at h
  · cases h
  split at h
  · cases h
  split at h
  · cases h
  split at h
  · cases h
  next hsat hlog hzero hneg hover =>
    rw [if_neg hsat, if_neg hlog, if_neg hzero, if_neg hneg, if_neg hover]
    split
    · next d hd =>
      split
      · next hin => exact .inl ⟨d, hd, (Bool.and_eq_true _ _ ▸ hin).1⟩
      · exact .inr rfl
    · exact .inr rfl

end

end Sys2Proof.Machine

namespace Sys2Proof.Settled
open Sys2Proof Sys2Proof.Machine

theorem specialFunctions : Claims.SpecialFunctions := by
  refine ⟨fun scale a b sc h => sfuInput_of_finite h, fun op u => ?_⟩
  refine ⟨?_, ?_, ?_, ?_, ?_, ?_, ?_, ?_, fun _ _ h hexp => sfuValue_within h hexp⟩
  · rintro rfl h; exact sfuValue_exp2_above h
  · rintro rfl h; exact sfuValue_exp2_below h
  · rintro rfl n hlo hhi hge hle
    rw [Dyad.not_lt_iff, Dyad.val_int] at hge hle
    exact sfuValue_exp2_int hlo hhi (le_antisymm hle hge)
  · rintro rfl h; exact sfuValue_log2_zero h
  · rintro rfl h; exact sfuValue_log2_neg h
  · rintro rfl h; exact sfuValue_rcp_zero h
  · rintro rfl h; exact sfuValue_rsqrt_zero h
  · rintro rfl h; exact sfuValue_rsqrt_neg h

end Sys2Proof.Settled
end

section
/-!
Reductions (R173): the pairwise tree of a vector, the running sum of a row, and the first maximal element.
-/
namespace Sys2Proof.Machine

/-! ### The pairwise tree -/

theorem treeLevel_pair : ∀ (xs : List (BitVec 32 × Bool)) (i : Nat), 2 * i + 1 < xs.length →
    ((treeLevel xs).getD i (0, false)).1 =
      (roundF32 ((f32Dyad (xs.getD (2 * i) (0, false)).1).add (f32Dyad (xs.getD (2 * i + 1) (0, false)).1))).1
  | [], _, h => by simp at h
  | [_], _, h => by simp at h
  | _ :: _ :: _, 0, _ => rfl
  | _ :: _ :: xs, i + 1, h => treeLevel_pair xs i (by simp only [List.length_cons] at h; omega)

theorem treeLevel_last : ∀ (xs : List (BitVec 32 × Bool)) (i : Nat), 2 * i + 1 = xs.length →
    (treeLevel xs).getD i (0, false) = xs.getD (2 * i) (0, false)
  | [], _, h => by simp at h
  | [_], 0, _ => rfl
  | [_], i + 1, h => by simp at h
  | _ :: _ :: _, 0, h => by simp at h
  | _ :: _ :: xs, i + 1, h => treeLevel_last xs i (by simp only [List.length_cons] at h; omega)

theorem length_treeLevel : ∀ xs : List (BitVec 32 × Bool), (treeLevel xs).length = (xs.length + 1) / 2
  | [] => rfl
  | [_] => by simp [treeLevel]
  | _ :: _ :: xs => by
    have ih := length_treeLevel xs
    simp only [treeLevel, List.length_cons, ih]
    omega

theorem treeLevel_of_short {xs : List (BitVec 32 × Bool)} (h : xs.length ≤ 1) : treeLevel xs = xs := by
  rcases xs with _ | ⟨x, _ | ⟨y, xs⟩⟩
  · rfl
  · rfl
  · simp at h

/-- n levels bring 2^n lanes down to one. -/
theorem length_treeLevels {n : Nat} {xs : List (BitVec 32 × Bool)} (h : xs.length ≤ 2 ^ n) : (treeLevel^[n] xs).length ≤ 1 := by
  induction n generalizing xs with
  | zero => simpa using h
  | succ n ih =>
    rw [Function.iterate_succ_apply]
    refine ih ?_
    rw [length_treeLevel]
    rw [pow_succ] at h
    omega

theorem treeSum_eq_levels (xs : List (BitVec 32 × Bool)) : treeSum xs = (treeLevel^[7] xs).headD (0, false) := by
  rw [treeSum, List.foldl_const, List.length_range]

theorem treeSum_treeLevel {xs : List (BitVec 32 × Bool)} (h : xs.length ≤ 128) : treeSum xs = treeSum (treeLevel xs) := by
  have hshort : (treeLevel^[7] xs).length ≤ 1 := length_treeLevels h
  have hlevels : treeLevel^[7] (treeLevel xs) = treeLevel^[7] xs :=
    (Function.iterate_succ_apply' treeLevel 7 xs).trans (treeLevel_of_short hshort)
  rw [treeSum_eq_levels, treeSum_eq_levels, hlevels]

theorem treeSum_of_one {xs : List (BitVec 32 × Bool)} (h : xs.length = 1) : treeSum xs = xs.headD (0, false) := by
  rw [treeSum_eq_levels, Function.iterate_fixed (treeLevel_of_short h.le)]

/-! ### The sum of a row -/

theorem rowSum_one (sq : Bool) (v : List (BitVec 32)) :
    rowSum sq [v] = treeSum (v.map fun x => if sq then roundF32 ((f32Dyad x).mul (f32Dyad x)) else (x, false)) := rfl

theorem rowSum_append (sq : Bool) (v : List (BitVec 32)) {vs : List (List (BitVec 32))} (h : vs ≠ []) :
    (rowSum sq (vs ++ [v])).1 = (roundF32 ((f32Dyad (rowSum sq vs).1).add (f32Dyad (rowSum sq [v]).1))).1 := by
  obtain ⟨w, ws, rfl⟩ := List.exists_cons_of_ne_nil h
  simp [rowSum, List.foldl_append]

/-! ### The first maximal element -/

/-- Place b is the first of the greatest among the first n elements. -/
def isFirstMax (xs : List (BitVec 32)) (n b : Nat) : Prop :=
  (∀ i < n, (f32Dyad (xs.getD i 0)).val ≤ (f32Dyad (xs.getD b 0)).val) ∧
    ∀ i < b, (f32Dyad (xs.getD i 0)).val < (f32Dyad (xs.getD b 0)).val

theorem firstMax_of_range (xs : List (BitVec 32)) (n : Nat) :
    let b := (List.range n).foldl (fun b i => if (f32Dyad (xs.getD b 0)).lt (f32Dyad (xs.getD i 0)) then i else b) 0
    b < max 1 n ∧ isFirstMax xs n b := by
  induction n with
  | zero => exact ⟨Nat.one_pos, by simp [isFirstMax]⟩
  | succ n ih =>
    obtain ⟨hlt, hmax, hfirst⟩ := ih
    simp only [List.range_succ, List.foldl_append, List.foldl_cons, List.foldl_nil]
    generalize (List.range n).foldl _ 0 = b at hlt hmax hfirst ⊢
    split
    · next h =>
      rw [Dyad.lt_iff] at h
      refine ⟨by omega, fun i hi => ?_, fun i hi => (hmax i hi).trans_lt h⟩
      rcases Nat.lt_succ_iff_lt_or_eq.mp hi with hi | rfl
      · exact ((hmax i hi).trans_lt h).le
      · exact le_rfl
    · next h =>
      rw [Bool.not_eq_true, Dyad.not_lt_iff] at h
      refine ⟨by omega, fun i hi => ?_, hfirst⟩
      rcases Nat.lt_succ_iff_lt_or_eq.mp hi with hi | rfl
      · exact hmax i hi
      · exact h

theorem firstMax_lt {xs : List (BitVec 32)} (h : xs ≠ []) : firstMax xs < xs.length := by
  have hpos := List.length_pos_of_ne_nil h
  have hlt : firstMax xs < max 1 xs.length := (firstMax_of_range xs xs.length).1
  omega

theorem firstMax_isFirstMax (xs : List (BitVec 32)) : isFirstMax xs xs.length (firstMax xs) := (firstMax_of_range xs xs.length).2

theorem firstMax_max {xs : List (BitVec 32)} {x : BitVec 32} (hx : x ∈ xs) :
    (f32Dyad (xs.getD (firstMax xs) 0)).lt (f32Dyad x) = false := by
  obtain ⟨i, hi, rfl⟩ := List.getElem_of_mem hx
  have hle := (firstMax_isFirstMax xs).1 i hi
  rw [List.getD_eq_getElem _ _ hi] at hle
  exact Dyad.not_lt_iff.mpr hle

theorem firstMax_first {xs : List (BitVec 32)} {i : Nat} (hi : i < firstMax xs) :
    (f32Dyad (xs.getD i 0)).lt (f32Dyad (xs.getD (firstMax xs) 0)) = true :=
  Dyad.lt_iff.mpr ((firstMax_isFirstMax xs).2 i hi)

/-! ### A row's reduction -/

section
variable {c : VxCfg} {vs : List (List (BitVec 32))}

theorem reduceRow_max (h : c.op = 0x12) : (c.reduceRow vs).1 = vs.flatten.getD (firstMax vs.flatten) 0 := by
  simp only [VxCfg.reduceRow, h]

theorem reduceRow_argmax (h : c.op = 0x13) : (c.reduceRow vs).1 = BitVec.ofNat 32 (firstMax vs.flatten) := by
  simp only [VxCfg.reduceRow, h]

theorem reduceRow_sum (h : c.op = 0x10 ∨ c.op = 0x11) :
    (c.reduceRow vs).1 = if c.bf16 then (c.round (f32Dyad (rowSum (c.op = 0x11) vs).1)).1 else (rowSum (c.op = 0x11) vs).1 := by
  rcases h with h | h <;> simp only [VxCfg.reduceRow, h] <;> split <;> rfl

end

end Sys2Proof.Machine

namespace Sys2Proof.Settled
open Sys2Proof Sys2Proof.Machine

theorem reductions : Claims.Reductions := by
  refine ⟨fun xs i => ⟨treeLevel_pair xs i, treeLevel_last xs i, fun _ h => treeSum_treeLevel h, treeSum_of_one⟩,
    fun sq v vs => ⟨rowSum_one sq v, rowSum_append sq v⟩, fun c vs => ?_⟩
  intro xs n
  refine ⟨?_, ?_, ?_, ?_, ?_, ?_⟩
  · intro h hw
    simpa [h, hw] using reduceRow_sum (vs := vs) (.inl h)
  · intro h hw
    simpa [h, hw] using reduceRow_sum (vs := vs) (.inr h)
  · intro h hn
    simpa [h, hn] using reduceRow_sum (vs := vs) (.inl h)
  · intro h hn
    simpa [h, hn] using reduceRow_sum (vs := vs) (.inr h)
  · intro h hne
    rw [show n = _ from reduceRow_max h]
    refine ⟨?_, fun x => firstMax_max⟩
    rw [List.getD_eq_getElem _ _ (firstMax_lt hne)]
    exact List.getElem_mem _
  · intro h hne hlen
    have hn : n.toNat = firstMax xs := by
      rw [show n = _ from reduceRow_argmax h, BitVec.toNat_ofNat, Nat.mod_eq_of_lt ((firstMax_lt hne).trans hlen)]
    rw [hn]
    exact ⟨firstMax_lt hne, fun x => firstMax_max, fun i => firstMax_first⟩

end Sys2Proof.Settled
end

section
/-!
TOPK's order and outputs (R178), and dequantised values (R177).
-/
namespace Sys2Proof.Machine

/-! ### The order of TOPK -/

/-- An element comes before another: a greater value, or an equal one under an index that is not above. -/
def topBefore (x y : Dyad × BitVec 32 × Nat) : Prop := y.1.val < x.1.val ∨ (y.1.val ≤ x.1.val ∧ x.2.2 ≤ y.2.2)

theorem topBefore_trans {x y z : Dyad × BitVec 32 × Nat} (hxy : topBefore x y) (hyz : topBefore y z) : topBefore x z := by
  rcases hxy with hlt | ⟨hle, hidx⟩
  · exact .inl ((hyz.elim le_of_lt And.left).trans_lt hlt)
  · rcases hyz with hlt | ⟨hle', hidx'⟩
    · exact .inl (hlt.trans_le hle)
    · exact .inr ⟨hle'.trans hle, hidx.trans hidx'⟩

/-- Where topInsert puts an element: in front of the first that does not come before it. -/
theorem topInsert_cons (x y : Dyad × BitVec 32 × Nat) (ys : List (Dyad × BitVec 32 × Nat)) :
    topBefore x y ∧ topInsert x (y :: ys) = x :: y :: ys ∨ topBefore y x ∧ topInsert x (y :: ys) = y :: topInsert x ys := by
  rw [topInsert]
  split
  · next h =>
    simp only [Bool.or_eq_true, Dyad.lt_iff, Bool.and_eq_true, Bool.not_eq_true', Dyad.not_lt_iff, decide_eq_true_eq] at h
    exact .inl ⟨h.imp id (And.imp id le_of_lt), rfl⟩
  · next h =>
    simp only [Bool.or_eq_true, Dyad.lt_iff, Bool.and_eq_true, Bool.not_eq_true', Dyad.not_lt_iff, decide_eq_true_eq, not_or, not_lt,
      not_and] at h
    obtain ⟨hle, hidx⟩ := h
    refine .inr ⟨?_, rfl⟩
    rcases hle.lt_or_eq with hlt | heq
    · exact .inl hlt
    · exact .inr ⟨hle, hidx heq.ge⟩

theorem topInsert_perm (x : Dyad × BitVec 32 × Nat) (l : List (Dyad × BitVec 32 × Nat)) : (topInsert x l).Perm (x :: l) := by
  induction l with
  | nil => exact List.Perm.refl _
  | cons y ys ih =>
    rcases topInsert_cons x y ys with ⟨-, h⟩ | ⟨-, h⟩
    · rw [h]
    · rw [h]
      exact (ih.cons y).trans (List.Perm.swap x y ys)

theorem topInsert_pairwise (x : Dyad × BitVec 32 × Nat) {l : List (Dyad × BitVec 32 × Nat)} (hl : l.Pairwise topBefore) :
    (topInsert x l).Pairwise topBefore := by
  induction l with
  | nil => exact List.pairwise_singleton _ _
  | cons y ys ih =>
    obtain ⟨hy, hys⟩ := List.pairwise_cons.mp hl
    rcases topInsert_cons x y ys with ⟨hxy, h⟩ | ⟨hyx, h⟩
    · rw [h]
      refine List.pairwise_cons.mpr ⟨fun z hz => ?_, hl⟩
      rcases List.mem_cons.mp hz with rfl | hz
      · exact hxy
      · exact topBefore_trans hxy (hy z hz)
    · rw [h]
      refine List.pairwise_cons.mpr ⟨fun z hz => ?_, ih hys⟩
      rcases List.mem_cons.mp ((topInsert_perm x ys).mem_iff.mp hz) with rfl | hz
      · exact hyx
      · exact hy z hz

/-- The elements inserted one by one: all of them, in TOPK's order. -/
theorem topInserts (items : List (Dyad × BitVec 32 × Nat)) {l : List (Dyad × BitVec 32 × Nat)} (hl : l.Pairwise topBefore) :
    (items.foldl (fun l x => topInsert x l) l).Perm (items ++ l) ∧ (items.foldl (fun l x => topInsert x l) l).Pairwise topBefore := by
  induction items generalizing l with
  | nil => exact ⟨List.Perm.refl _, hl⟩
  | cons x items ih =>
    obtain ⟨hperm, hpair⟩ := ih (topInsert_pairwise x hl)
    refine ⟨hperm.trans ?_, hpair⟩
    exact ((topInsert_perm x l).append_left items).trans List.perm_middle

/-! ### The outputs of a row -/

/-- The elements of a row with their values and indices. -/
def VxCfg.topItems (c : VxCfg) (vals idxs : List (BitVec 32)) : List (Dyad × BitVec 32 × Nat) :=
  (List.range vals.length).map fun e =>
    (f32Dyad (vals.getD e 0), vals.getD e 0, if c.indexIn then (idxs.getD e 0).toNat else (e + c.idxBase) % 2 ^ 32)

/-- The elements of a row in TOPK's order. -/
def VxCfg.topSorted (c : VxCfg) (vals idxs : List (BitVec 32)) : List (Dyad × BitVec 32 × Nat) :=
  (c.topItems vals idxs).foldl (fun l x => topInsert x l) []

section
variable (c : VxCfg) (vals idxs : List (BitVec 32))

theorem topSorted_perm : (c.topSorted vals idxs).Perm (c.topItems vals idxs) := by
  rw [← (c.topItems vals idxs).append_nil]
  exact (topInserts _ List.Pairwise.nil).1

theorem topSorted_pairwise : (c.topSorted vals idxs).Pairwise topBefore := (topInserts _ List.Pairwise.nil).2

theorem topSorted_value {x : Dyad × BitVec 32 × Nat} (hx : x ∈ c.topSorted vals idxs) : x.1 = f32Dyad x.2.1 := by
  obtain ⟨e, -, rfl⟩ := List.mem_map.mp ((topSorted_perm c vals idxs).mem_iff.mp hx)
  rfl

/-- The output at a place of the order, or the fill beyond its end. -/
def VxCfg.topOut (c : VxCfg) : Option (BitVec 32 × Nat) → Nat × Nat × Bool
  | some (v, ix) => if !c.idx32 && ix > 65535 then (v.toNat, 0xFFFF, true) else (v.toNat, ix, false)
  | none => (0xFF7FFFFF, if c.idx32 then 0xFFFFFFFF else 0xFFFF, false)

theorem topRow_eq : c.topRow vals idxs =
    (List.range c.k).map fun n => c.topOut (((c.topSorted vals idxs).map (·.2))[n]?) := by
  unfold VxCfg.topRow
  extract_lets items sorted
  refine List.map_congr_left fun n _ => ?_
  rw [List.getElem?_map, show c.topSorted vals idxs = sorted from rfl]
  split
  · next h => rw [h]; rfl
  · next h => rw [h]; rfl

end

/-! ### Dequantised values -/

section
variable {c : VxCfg} {code : Nat} {side : List Byte} {e : Nat}

theorem dequantVal_long (h : c.fmtIn = 0x12) : c.dequantVal code side e = ⟨(BitVec.ofNat 96 code).toInt, c.base - 12⟩ := by
  rw [VxCfg.dequantVal, if_pos h]

theorem dequantVal_nan (h : c.fmtIn ≤ 0x0C) (hw : (byteAt side 0).toNat = 255) : c.dequantVal code side e = {} := by
  simp only [VxCfg.dequantVal, scaleExp, hw, if_true]
  rw [if_neg (by omega)]

theorem dequantVal_scaled (h : c.fmtIn ≤ 0x0C) (hw : (byteAt side 0).toNat ≠ 255) (hlt : ¬(c.fmtIn = 5 ∧ code = 3)) :
    c.dequantVal code side e =
      ⟨gridVal c.fmtIn code (if c.fmtIn = 2 then ofBytes (side.drop 1) / 4 ^ (e % 64 / 8) % 4 else 0),
        ((byteAt side 0).toNat : Int) - 127 - fmtQ c.fmtIn⟩ := by
  simp only [VxCfg.dequantVal, scaleExp, hw, if_false, Bool.and_eq_true, decide_eq_true_eq, hlt]
  rw [if_neg (by omega)]

theorem gridVal_of_ne (f n : Nat) (h : f ≠ 2) : gridVal f code n = (elemVal f code).1 := by
  rw [gridVal, if_neg h]

end

end Sys2Proof.Machine

namespace Sys2Proof.Settled
open Sys2Proof Sys2Proof.Machine

theorem topkRows : Claims.TopkRows := by
  intro c vals idxs item before outs
  have houts {n : Nat} (hn : n < c.k) : outs.getD n (0, 0, false) = c.topOut (((c.topSorted vals idxs).map (·.2))[n]?) := by
    rw [show outs = _ from topRow_eq c vals idxs, getD_map_range _ _ _ _ hn]
  have hperm := (topSorted_perm c vals idxs).map (·.2)
  refine ⟨(c.topSorted vals idxs).map (·.2), ?_, ?_, ?_, fun n hn => ⟨fun x hx => ?_, fun hlen => ?_⟩⟩
  · rw [VxCfg.topItems, List.map_map] at hperm
    exact hperm
  · refine List.pairwise_map.mpr ((topSorted_pairwise c vals idxs).imp_of_mem fun {x y} hx hy h => ?_)
    simp only [before, Dyad.lt_iff, Dyad.not_lt_iff, ← topSorted_value c vals idxs hx, ← topSorted_value c vals idxs hy]
    exact h
  · rw [show outs = _ from topRow_eq c vals idxs, List.length_map, List.length_range]
  · rw [houts hn, hx, VxCfg.topOut]
    simp only [Bool.and_eq_true, Bool.not_eq_true', decide_eq_true_eq, gt_iff_lt]
  · have hnone : ((c.topSorted vals idxs).map (·.2))[n]? = none := by
      rw [List.getElem?_eq_none_iff, hperm.length_eq, VxCfg.topItems, List.length_map, List.length_map, List.length_range]
      exact hlen
    rw [houts hn, hnone, VxCfg.topOut]

theorem dequantisedValues : Claims.DequantisedValues := by
  intro c code side e w
  refine ⟨dequantVal_long, fun h hw => by rw [dequantVal_nan h hw], fun h hw hne hlt => ?_, fun h hw => ?_⟩
  · rw [dequantVal_scaled h hw hlt, gridVal_of_ne _ _ hne]
  · have hlt : ¬(c.fmtIn = 5 ∧ code = 3) := by omega
    rw [dequantVal_scaled (by omega) hw hlt, h, if_pos rfl, gridVal, if_pos rfl, nudgeQuarters, Nat.mod_mod]
    rfl

end Sys2Proof.Settled
end

section
/-!
Quantised blocks (R87 to R89, R92, R176): the block's scale, each element's code, and the nearest code.
-/
namespace Sys2Proof.Machine

/-! ### The scale of a block -/

/-- The greatest of some magnitudes. -/
def greatest (ds : List Dyad) : Dyad := ds.foldl (fun a d => if a.lt d then d else a) {}

theorem foldl_greatest (ds : List Dyad) (a : Dyad) :
    let r := ds.foldl (fun a d => if a.lt d then d else a) a
    (r = a ∨ r ∈ ds) ∧ a.val ≤ r.val ∧ ∀ d ∈ ds, d.val ≤ r.val := by
  induction ds generalizing a with
  | nil => exact ⟨.inl rfl, le_rfl, by simp⟩
  | cons d ds ih =>
    obtain ⟨hmem, hle, hall⟩ := ih (if a.lt d then d else a)
    have hstep : a.val ≤ (if a.lt d then d else a).val ∧ d.val ≤ (if a.lt d then d else a).val := by
      split
      · next h => exact ⟨(Dyad.lt_iff.mp h).le, le_rfl⟩
      · next h => exact ⟨le_rfl, Dyad.not_lt_iff.mp (Bool.not_eq_true _ ▸ h)⟩
    refine ⟨?_, hstep.1.trans hle, fun e he => ?_⟩
    · rcases hmem with h | h
      · rw [List.foldl_cons, h]
        split
        · exact .inr List.mem_cons_self
        · exact .inl rfl
      · exact .inr (List.mem_cons_of_mem _ h)
    · rcases List.mem_cons.mp he with rfl | he
      · exact hstep.2.trans hle
      · exact hall e he

theorem blockExp_zero (f : Nat) {x : Dyad} (h : x.m = 0) (rule1 : Bool) : blockExp f x rule1 = -127 := by
  rw [blockExp, if_pos (by simp [Dyad.isZero, h])]

/-- The block exponent rests on a greatest magnitude, whichever it is. -/
theorem blockExp_greatest (f : Nat) (rule1 : Bool) {ds : List Dyad} (hds : ∀ d ∈ ds, ∃ x : Dyad, x.isF32 ∧ d = x.abs) {top : Dyad}
    (htop : top ∈ ds) (hmax : ∀ d ∈ ds, top.lt d = false) : blockExp f (greatest ds) rule1 = blockExp f top rule1 := by
  obtain ⟨hmem, hnonneg, hall⟩ := foldl_greatest ds {}
  change greatest ds = {} ∨ greatest ds ∈ ds at hmem
  obtain ⟨x, hx, rfl⟩ := hds top htop
  rcases hmem with hzero | hmem
  · have hle : x.abs.val ≤ 0 := by
      have := hall _ htop
      change x.abs.val ≤ (greatest ds).val at this
      rwa [hzero, (Dyad.val_eq_zero (x := {})).mpr rfl] at this
    have hval : x.abs.val = 0 := le_antisymm hle (by rw [Dyad.val_abs]; exact abs_nonneg _)
    rw [hzero, blockExp_zero f rfl, blockExp_zero f (Dyad.val_eq_zero.mp hval)]
  · obtain ⟨y, hy, he⟩ := hds _ hmem
    have hval : |x.val| = |y.val| := by
      rw [← Dyad.val_abs, ← Dyad.val_abs, ← he]
      exact le_antisymm (hall _ htop) (Dyad.not_lt_iff.mp (hmax _ hmem))
    rw [he, isF32_abs_eq hx hy hval]

/-! ### The codes of a block -/

section
variable (f : Nat) (rule1 : Bool) (xs : List (BitVec 32)) (skip nar : Nat → Bool)

/-- The magnitude of an element that counts for the scale: finite, and no stray. -/
def blockFin (i : Nat) : Option Dyad :=
  if skip i then none else match f32Val (xs.getD i 0) with
    | .fin d => some d.abs
    | _ => none

theorem blockFin_eq_some {xs skip} {i : Nat} {d : Dyad} (h : blockFin xs skip i = some d) : ∃ x, f32Val (xs.getD i 0) = .fin x ∧ d = x.abs := by
  unfold blockFin at h
  split at h
  · cases h
  · split at h
    · next x hx => exact ⟨x, hx, (Option.some.inj h).symm⟩
    · cases h

/-- The magnitudes that count for the scale. -/
def blockFins : List Dyad := (List.range xs.length).filterMap (blockFin xs skip)

/-- The scale exponent of a block. -/
def blockScale : Int := blockExp f (greatest (blockFins xs skip)) rule1

theorem quantBlock_side : (quantBlock f rule1 xs skip nar).2.1.headD 0 = BitVec.ofInt 8 (blockScale f rule1 xs skip + 127) := rfl

theorem blockScale_of_greatest {top : Dyad} (htop : top ∈ blockFins xs skip) (hmax : ∀ d ∈ blockFins xs skip, top.lt d = false) :
    blockScale f rule1 xs skip = blockExp f top rule1 := by
  refine blockExp_greatest f rule1 (fun d hd => ?_) htop hmax
  obtain ⟨i, -, hi⟩ := List.mem_filterMap.mp hd
  obtain ⟨x, hx, rfl⟩ := blockFin_eq_some hi
  exact ⟨x, isF32_of_f32Val hx, rfl⟩

theorem blockScale_of_none (h : blockFins xs skip = []) : blockScale f rule1 xs skip = -127 := by
  rw [blockScale, h]
  exact blockExp_zero f rfl rule1

variable {xs skip} {l : Nat} (hl : l < xs.length)
include hl

theorem quantBlock_skip (h : skip l = true) : (quantBlock f rule1 xs skip nar).1.getD l 0 = 0 := by
  simp only [quantBlock, List.map_map]
  rw [getD_map_range _ _ _ _ hl, Function.comp_apply, if_pos h]

theorem quantBlock_nan (hs : skip l = false) (h : f32Val (xs.getD l 0) = .nan) : (quantBlock f rule1 xs skip nar).1.getD l 0 = 0 := by
  simp only [quantBlock, List.map_map]
  rw [getD_map_range _ _ _ _ hl, Function.comp_apply, if_neg (by simp [hs])]
  simp only [h]

theorem quantBlock_inf {neg : Bool} (hs : skip l = false) (h : f32Val (xs.getD l 0) = .inf neg) :
    (quantBlock f rule1 xs skip nar).1.getD l 0 = signedCode f (maxCode f) neg := by
  simp only [quantBlock, List.map_map]
  rw [getD_map_range _ _ _ _ hl, Function.comp_apply, if_neg (by simp [hs])]
  simp only [h]

/-- A finite element of a format without nudges takes its narrowed code under the block's scale. -/
theorem quantBlock_fin {d : Dyad} (hs : skip l = false) (h : f32Val (xs.getD l 0) = .fin d) (hf : f ≠ 2) :
    (quantBlock f rule1 xs skip nar).1.getD l 0 = (narrow f d (blockScale f rule1 xs skip) 0).1 := by
  have hnudge (n : Nat) : ((List.range 8).map fun _ => 0).getD n 0 = 0 := by
    rw [List.map_const', List.getD_eq_getElem?_getD, List.getElem?_replicate]
    split <;> rfl
  simp only [quantBlock, List.map_map]
  rw [getD_map_range _ _ _ _ hl, Function.comp_apply, if_neg (by simp [hs])]
  simp only [h, hf, if_false, hnudge]
  rfl

end

/-! ### The nearest code -/

theorem nearestCode_le (dist : Nat → Nat) (n : Nat) : nearestCode dist n ≤ n ∧ ∀ c ≤ n, dist (nearestCode dist n) ≤ dist c := by
  induction n with
  | zero => exact ⟨le_rfl, fun c hc => by rw [Nat.le_zero.mp hc]; exact le_rfl⟩
  | succ n ih =>
    obtain ⟨hle, hmin⟩ := ih
    simp only [nearestCode]
    split
    · next h =>
      have hbest : dist (n + 1) ≤ dist (nearestCode dist n) := by
        simp only [Bool.or_eq_true, Bool.and_eq_true, decide_eq_true_eq] at h
        omega
      refine ⟨le_rfl, fun c hc => ?_⟩
      rcases Nat.le_succ_iff.mp hc with hc | rfl
      · exact hbest.trans (hmin c hc)
      · exact le_rfl
    · next h =>
      simp only [Bool.or_eq_true, decide_eq_true_eq, not_or, not_lt] at h
      refine ⟨hle.trans n.le_succ, fun c hc => ?_⟩
      rcases Nat.le_succ_iff.mp hc with hc | rfl
      · exact hmin c hc
      · exact h.1

theorem floatElem_nonneg {eb mb c : Nat} (h : c < 2 ^ (mb + eb)) : 0 ≤ floatElem eb mb c := by
  unfold floatElem
  extract_lets mant ex v
  rw [Nat.div_eq_of_lt h, if_neg (by omega)]
  exact Int.natCast_nonneg v

theorem signedOf_nonneg {w c : Nat} (h : c < 2 ^ (w - 1)) : 0 ≤ signedOf w c := by
  have hlt : c < 2 ^ w := h.trans_le (Nat.pow_le_pow_right (by norm_num) (by omega))
  unfold signedOf
  extract_lets m
  have hm : m = c := Nat.mod_eq_of_lt hlt
  rw [if_neg (by omega)]
  exact Int.natCast_nonneg m

/-- The magnitude codes that the device writes stand for no negative value. -/
theorem elemVal_nonneg {f c : Nat} (hf : f ≤ 2 ∨ 8 ≤ f ∧ f ≤ 0x0C) (hc : c ≤ maxCode f) : 0 ≤ (elemVal f c).1 := by
  have hcases : f = 0 ∨ f = 1 ∨ f = 2 ∨ f = 8 ∨ f = 9 ∨ f = 0x0A ∨ f = 0x0B ∨ f = 0x0C := by omega
  rcases hcases with rfl | rfl | rfl | rfl | rfl | rfl | rfl | rfl <;> simp only [maxCode] at hc <;> simp only [elemVal]
  · exact floatElem_nonneg (by omega)
  · exact signedOf_nonneg (by omega)
  · exact floatElem_nonneg (by omega)
  · exact floatElem_nonneg (by omega)
  · exact floatElem_nonneg (by omega)
  · rw [if_neg (by omega)]
    exact floatElem_nonneg (by omega)
  · rw [if_neg (by omega), if_neg (by omega)]
    exact floatElem_nonneg (by omega)
  · exact signedOf_nonneg (by omega)

/-- The distance of two magnitudes at a common exponent. -/
theorem dist_val {x y : Dyad} {e : Int} (hx : 0 ≤ x.m) (hy : 0 ≤ y.m) (hex : e ≤ x.e) (hey : e ≤ y.e) :
    ((if (x.at_ e).toNat ≤ (y.at_ e).toNat then (y.at_ e).toNat - (x.at_ e).toNat else (x.at_ e).toNat - (y.at_ e).toNat : Nat) : ℚ) *
      2 ^ e = |x.val - y.val| := by
  have hpow : (0 : ℚ) < 2 ^ e := zpow_pos (by norm_num) _
  have hx0 : 0 ≤ x.at_ e := mul_nonneg hx (Int.natCast_nonneg _)
  have hy0 : 0 ≤ y.at_ e := mul_nonneg hy (Int.natCast_nonneg _)
  have hdist : ((if (x.at_ e).toNat ≤ (y.at_ e).toNat then (y.at_ e).toNat - (x.at_ e).toNat
      else (x.at_ e).toNat - (y.at_ e).toNat : Nat) : Int) = |x.at_ e - y.at_ e| := by
    split
    · rw [abs_of_nonpos (by omega)]; omega
    · rw [abs_of_nonneg (by omega)]; omega
  rw [← Dyad.at_val hex, ← Dyad.at_val hey, ← sub_mul, abs_mul, abs_of_pos hpow, ← Int.cast_sub, ← Int.cast_abs, ← hdist,
    Int.cast_natCast]

section
variable {f nudge : Nat} {x : Dyad} {s : Int}

/-- The value of a code of a format under a scale and a nudge. -/
def codeDyad (f nudge : Nat) (s : Int) (c : Nat) : Dyad :=
  ⟨(elemVal f c).1 * (if f = 0x02 then nudgeQuarters nudge else 4 : Nat), s - 2 - elemQ f⟩

theorem signedCode_pos (f c : Nat) : signedCode f c false = c := by simp [signedCode]

theorem abs_of_nonneg_m (hx : 0 ≤ x.m) : x.abs = x := by
  rw [Dyad.abs, Int.natAbs_of_nonneg hx]

/-- How far a code's value lies from a magnitude, at a common exponent. -/
def codeDist (f nudge : Nat) (s : Int) (x : Dyad) (e : Int) (c : Nat) : Nat :=
  if (x.at_ e).toNat ≤ ((codeDyad f nudge s c).at_ e).toNat then ((codeDyad f nudge s c).at_ e).toNat - (x.at_ e).toNat
  else (x.at_ e).toNat - ((codeDyad f nudge s c).at_ e).toNat

theorem narrow_of_nonneg (hx : 0 ≤ x.m) : narrow f x s nudge =
    if (codeDyad f nudge s (maxCode f)).lt x then (maxCode f, true)
    else (nearestCode (codeDist f nudge s x (min x.e (s - 2 - elemQ f))) (maxCode f), false) := by
  have hneg : decide (x.m < 0) = false := decide_eq_false (by omega)
  simp only [narrow, abs_of_nonneg_m hx, hneg, signedCode_pos]
  rfl

/-- A magnitude above the format's largest saturates. -/
theorem narrow_above (hx : 0 ≤ x.m) (h : (codeDyad f nudge s (maxCode f)).lt x = true) : narrow f x s nudge = (maxCode f, true) := by
  rw [narrow_of_nonneg hx, if_pos h]

/-- A magnitude within the format's range takes a code whose value is the nearest. -/
theorem narrow_within (hf : f ≤ 2 ∨ 8 ≤ f ∧ f ≤ 0x0C) (hx : 0 ≤ x.m) (h : (codeDyad f nudge s (maxCode f)).lt x = false) :
    (narrow f x s nudge).2 = false ∧ ∀ c ≤ maxCode f,
      |x.val - (codeDyad f nudge s (narrow f x s nudge).1).val| ≤ |x.val - (codeDyad f nudge s c).val| := by
  have hcode (c : Nat) (hc : c ≤ maxCode f) : 0 ≤ (codeDyad f nudge s c).m := mul_nonneg (elemVal_nonneg hf hc) (Int.natCast_nonneg _)
  rw [narrow_of_nonneg hx, h, if_neg Bool.false_ne_true]
  refine ⟨rfl, fun c hc => ?_⟩
  obtain ⟨hle, hmin⟩ := nearestCode_le (codeDist f nudge s x (min x.e (s - 2 - elemQ f))) (maxCode f)
  rw [← dist_val hx (hcode _ hle) (min_le_left ..) (min_le_right ..), ← dist_val hx (hcode c hc) (min_le_left ..) (min_le_right ..)]
  exact mul_le_mul_of_nonneg_right (Nat.cast_le.mpr (hmin c hc)) (zpow_pos (by norm_num) _).le

end

end Sys2Proof.Machine

namespace Sys2Proof.Settled
open Sys2Proof Sys2Proof.Machine

theorem quantisedBlocks : Claims.QuantisedBlocks := by
  refine ⟨fun f rule1 xs skip nar l hl => ?_, fun f x s nudge c hx hc hf => ?_⟩
  · exact ⟨⟨blockScale f rule1 xs skip, quantBlock_side .., fun top => blockScale_of_greatest f rule1 xs skip,
      blockScale_of_none f rule1 xs skip, fun d hs hd hf => quantBlock_fin f rule1 nar hl hs hd hf⟩,
      quantBlock_skip f rule1 nar hl, quantBlock_nan f rule1 nar hl, fun neg => quantBlock_inf f rule1 nar hl⟩
  · intro n4 val r
    have hval : val = codeDyad f nudge s := rfl
    cases h : (codeDyad f nudge s (maxCode f)).lt x with
    | true =>
      have hr : r = (maxCode f, true) := narrow_above hx h
      rw [hr, hval]
      exact ⟨nofun, fun _ => ⟨rfl, h⟩⟩
    | false =>
      obtain ⟨hsat, hnearest⟩ := narrow_within hf hx h
      refine ⟨fun _ => ?_, fun ht => absurd (hsat.symm.trans ht) nofun⟩
      rw [hval, Dyad.le_iff, Dyad.val_abs, Dyad.val_abs, Dyad.val_sub, Dyad.val_sub]
      exact hnearest c hc

/-- Settles O59: the beats by what a completed beat makes of the vector descriptors, the arithmetic by the values that dyadics stand for. -/
theorem vectorUnitResults : Obligations.VectorUnitResults :=
  ⟨vectorBeats, roundingKeepsCodes, laneResults, specialFunctions, reductions, quantisedBlocks, dequantisedValues, topkRows⟩

end Sys2Proof.Settled
end

section
/-!
The accumulator columns that a matrix descriptor's beat reads and writes (R152 to R156): each addition and each entry of C is about its own
column alone.
-/
namespace Sys2Proof

/-! ### Folds that write one key each -/

section
variable {σ α β : Type} {get : σ → Nat → β} {g : σ → α → σ} {key : α → Nat}

theorem foldl_get_other (hother : ∀ s x k, key x ≠ k → get (g s x) k = get s k) {l : List α} {k : Nat}
    (h : ∀ x ∈ l, key x ≠ k) (s : σ) : get (l.foldl g s) k = get s k := by
  induction l generalizing s with
  | nil => rfl
  | cons x l ih =>
    rw [List.foldl_cons, ih (fun y hy => h y (List.mem_cons_of_mem _ hy)), hother _ _ _ (h x List.mem_cons_self)]

/-- A key that one item of a fold writes holds what that item makes of it. -/
theorem foldl_get_same {next : α → β → β} (hother : ∀ s x k, key x ≠ k → get (g s x) k = get s k)
    (hsame : ∀ s x, get (g s x) (key x) = next x (get s (key x))) {l : List α} (hl : l.Nodup) {x : α} (hx : x ∈ l)
    (hinj : ∀ y ∈ l, key y = key x → y = x) (s : σ) : get (l.foldl g s) (key x) = next x (get s (key x)) := by
  obtain ⟨before, after, rfl⟩ := List.append_of_mem hx
  obtain ⟨-, hcons, hdisj⟩ := List.nodup_append.mp hl
  have hbefore : ∀ y ∈ before, key y ≠ key x := fun y hy e =>
    hdisj y hy x List.mem_cons_self (hinj y (List.mem_append_left _ hy) e)
  have hafter : ∀ y ∈ after, key y ≠ key x := fun y hy e =>
    (List.nodup_cons.mp hcons).1 (hinj y (List.mem_append_right _ (List.mem_cons_of_mem _ hy)) e ▸ hy)
  rw [List.foldl_append, List.foldl_cons, foldl_get_other hother hafter, hsame, foldl_get_other hother hbefore]

end

end Sys2Proof

namespace Sys2Proof.Machine

/-! ### Columns and their keys -/

theorem cp_le (c : MxCfg) : c.cp ≤ 64 := by
  unfold MxCfg.cp
  split <;> omega

theorem sp_pos (c : MxCfg) : 0 < c.sp := by
  unfold MxCfg.sp
  split <;> omega

theorem rOut_pos (c : MxCfg) : 0 < c.rOut := by
  unfold MxCfg.rOut
  split <;> omega

theorem period_pos (c : MxCfg) : 0 < c.period := by
  unfold MxCfg.period
  split <;> omega

theorem period_ge {c : MxCfg} (h : c.os = false) : c.nv * c.sp ≤ c.period := by
  rw [MxCfg.period, h, if_neg Bool.false_ne_true]
  exact le_max_right ..

theorem accKey_inj {a a' e e' n n' : Nat} (he : e < 256) (he' : e' < 256) (hn : n < 64) (hn' : n' < 64)
    (h : accKey a e n = accKey a' e' n') : a = a' ∧ e = e' ∧ n = n' := by
  unfold accKey at h
  omega

/-- Columns of one entry of C. -/
theorem accKey_entry_inj {a a' e n n' : Nat} (hn : n < 64) (hn' : n' < 64) (h : accKey a e n = accKey a' e n') : a = a' ∧ n = n' := by
  unfold accKey at h
  omega

theorem nodup_arrays (c : MxCfg) : c.arrays.Nodup := List.nodup_range.filter _

/-- The entries of a descriptor lie in the accumulator (R151). -/
theorem entryOf_lt {c : MxCfg} {p v : Nat} (hused : c.accBase + c.used ≤ 256) (hp : p < c.passes) (hv : v < c.nv) : c.entryOf p v < 256 := by
  unfold MxCfg.entryOf MxCfg.used at *
  unfold MxCfg.passes at hp
  cases hos : c.os with
  | true => simp only [hos, if_true] at *; omega
  | false =>
    simp only [hos, Bool.false_eq_true, if_false] at *
    have htile : p / c.kt < c.nt := Nat.div_lt_of_lt_mul hp
    have hbound : p / c.kt * c.nv + v < c.nv * c.nt := by
      calc p / c.kt * c.nv + v < p / c.kt * c.nv + c.nv := by omega
        _ = (p / c.kt + 1) * c.nv := by ring
        _ ≤ c.nt * c.nv := Nat.mul_le_mul_right _ htile
        _ = c.nv * c.nt := Nat.mul_comm ..
    omega

/-! ### The additions of a beat (R156) -/

section
variable {j : Job} {b p v n : Nat}

theorem mem_additions_os (hos : (mxCfg j.words).os = true) : (p, v, n) ∈ j.additions b ↔
    p < (mxCfg j.words).passes ∧ v < (mxCfg j.words).nv ∧ n < (mxCfg j.words).cp ∧ (mxCfg j.words).k ≠ 0 ∧
      b = Claims.addBeat j p v n := by
  have hper := period_pos (mxCfg j.words)
  simp only [Job.additions, Claims.addBeat, hos, if_true]
  split
  · next hk => simp only [List.not_mem_nil, false_iff]; tauto
  · next hk =>
    simp only [List.mem_flatMap, List.mem_filterMap, List.mem_range, Option.ite_none_left_eq_some, Option.some.injEq, Prod.mk.injEq,
      Bool.or_eq_true, decide_eq_true_eq, not_or, not_lt, not_le, not_not]
    generalize (mxCfg j.words).period = T at *
    constructor
    · rintro ⟨v, hv, n, hn, ⟨⟨hlead, hmod⟩, hp⟩, rfl, rfl, rfl⟩
      have := Nat.div_add_mod (b - (mxE0 j.go + ((mxCfg j.words).pb - 1) * (mxCfg j.words).sp + 74 + (mxCfg j.words).physRow v +
        (mxCfg j.words).physCol n)) T
      refine ⟨hp, hv, hn, hk, ?_⟩
      rw [Nat.mul_comm] at this
      omega
    · rintro ⟨hp, hv, hn, -, rfl⟩
      refine ⟨v, hv, n, hn, ⟨⟨by omega, ?_⟩, ?_⟩, ?_, rfl, rfl⟩
      · rw [Nat.add_sub_cancel_left, Nat.mul_mod_left]
      · rwa [Nat.add_sub_cancel_left, Nat.mul_div_cancel _ hper]
      · rw [Nat.add_sub_cancel_left, Nat.mul_div_cancel _ hper]

theorem mem_additions_of_not_os (hos : (mxCfg j.words).os = false) : (p, v, n) ∈ j.additions b ↔
    p < (mxCfg j.words).passes ∧ v < (mxCfg j.words).nv ∧ n < (mxCfg j.words).cp ∧ b = Claims.addBeat j p v n := by
  have hper := period_pos (mxCfg j.words)
  have hge := period_ge hos
  have hsp := sp_pos (mxCfg j.words)
  simp only [Job.additions, Claims.addBeat, hos, Bool.false_eq_true, if_false]
  simp only [List.mem_filterMap, List.mem_range, Option.ite_none_left_eq_some, Option.some.injEq, Prod.mk.injEq,
    Bool.or_eq_true, decide_eq_true_eq, not_or, not_lt, not_le, not_not, ge_iff_le]
  generalize (mxCfg j.words).period = T at *
  generalize (mxCfg j.words).sp = sp at *
  constructor
  · rintro ⟨n, hn, ⟨⟨⟨hlead, hp⟩, hmod⟩, hv⟩, rfl, rfl, rfl⟩
    have hpass := Nat.div_add_mod (b - (mxE0 j.go + 74 + (mxCfg j.words).physCol n)) T
    have hvec := Nat.div_add_mod ((b - (mxE0 j.go + 74 + (mxCfg j.words).physCol n)) % T) sp
    refine ⟨hp, hv, hn, ?_⟩
    rw [Nat.mul_comm] at hpass hvec
    omega
  · rintro ⟨hp, hv, hn, rfl⟩
    have hlt : v * sp < T := (Nat.mul_lt_mul_of_pos_right hv hsp).trans_le hge
    have hsub : mxE0 j.go + 74 + (mxCfg j.words).physCol n + p * T + v * sp - (mxE0 j.go + 74 + (mxCfg j.words).physCol n) =
        v * sp + p * T := by omega
    have hdiv : (v * sp + p * T) / T = p := by rw [Nat.add_mul_div_right _ _ hper, Nat.div_eq_of_lt hlt, Nat.zero_add]
    have hmod : (v * sp + p * T) % T = v * sp := by rw [Nat.add_mul_mod_self_right, Nat.mod_eq_of_lt hlt]
    refine ⟨n, hn, ?_⟩
    rw [hsub, hdiv, hmod, Nat.mul_mod_left, Nat.mul_div_cancel _ hsp]
    exact ⟨⟨⟨⟨by omega, hp⟩, rfl⟩, hv⟩, rfl, rfl, rfl⟩

theorem mem_additions : (p, v, n) ∈ j.additions b ↔
    p < (mxCfg j.words).passes ∧ v < (mxCfg j.words).nv ∧ n < (mxCfg j.words).cp ∧ ((mxCfg j.words).os = true → (mxCfg j.words).k ≠ 0) ∧
      b = Claims.addBeat j p v n := by
  cases hos : (mxCfg j.words).os with
  | true => rw [mem_additions_os hos]; tauto
  | false => rw [mem_additions_of_not_os hos]; simp

/-- Of a column's additions at a beat the pass and the vector are known: in output-stationary flow the column's own vector. -/
theorem additions_inj {p' v' : Nat} (h : (p, v, n) ∈ j.additions b) (h' : (p', v', n) ∈ j.additions b)
    (hv : (mxCfg j.words).os = true → v = v') : p = p' ∧ v = v' := by
  have hper := period_pos (mxCfg j.words)
  obtain ⟨-, hlt, -, -, hb⟩ := mem_additions.mp h
  obtain ⟨-, hlt', -, -, hb'⟩ := mem_additions.mp h'
  rw [hb] at hb'
  simp only [Claims.addBeat] at hb'
  cases hos : (mxCfg j.words).os with
  | true =>
    obtain rfl := hv hos
    simp only [hos, if_true] at hb'
    exact ⟨Nat.eq_of_mul_eq_mul_right hper (Nat.add_left_cancel hb'), rfl⟩
  | false =>
    have hsp := sp_pos (mxCfg j.words)
    have hge := period_ge hos
    have hbound := (Nat.mul_lt_mul_of_pos_right hlt hsp).trans_le hge
    have hbound' := (Nat.mul_lt_mul_of_pos_right hlt' hsp).trans_le hge
    simp only [hos, Bool.false_eq_true, if_false, Nat.add_assoc, Nat.add_left_cancel_iff] at hb'
    have hp : p = p' := by
      have hdiv := congrArg (· / (mxCfg j.words).period) hb'
      simp only [Nat.mul_comm _ (mxCfg j.words).period, Nat.mul_add_div hper, Nat.div_eq_of_lt hbound, Nat.div_eq_of_lt hbound'] at hdiv
      simpa using hdiv
    subst hp
    exact ⟨rfl, Nat.eq_of_mul_eq_mul_right hsp (Nat.add_left_cancel hb')⟩

theorem nodup_additions (j : Job) (b : Nat) : (j.additions b).Nodup := by
  unfold Job.additions
  extract_lets c e0
  split
  · split
    · exact List.nodup_nil
    · refine List.nodup_flatMap.mpr ⟨fun i _ => ?_, List.nodup_range.imp fun {i i'} hne => ?_⟩
      · refine List.nodup_range.filterMap fun n n' x hx hx' => ?_
        simp only [Option.mem_def, Option.ite_none_left_eq_some, Option.some.injEq] at hx hx'
        rw [← hx'.2] at hx
        exact (congrArg (·.2.2) hx.2)
      · intro x hx hx'
        obtain ⟨n, -, hn⟩ := List.mem_filterMap.mp hx
        obtain ⟨n', -, hn'⟩ := List.mem_filterMap.mp hx'
        simp only [Option.ite_none_left_eq_some, Option.some.injEq] at hn hn'
        rw [← hn'.2] at hn
        exact hne (congrArg (·.2.1) hn.2)
  · refine List.nodup_range.filterMap fun n n' x hx hx' => ?_
    simp only [Option.mem_def, Option.ite_none_left_eq_some, Option.some.injEq] at hx hx'
    rw [← hx'.2] at hx
    exact (congrArg (·.2.2) hx.2)

end

end Sys2Proof.Machine
end

section
/-!
What a matrix descriptor's beat makes of its accumulator columns (R96, R103, R152 to R156), column by column.
-/
namespace Sys2Proof.Machine

/-- An accumulator column of a tile, zero where nothing was added. -/
def Tile.column (t : Tile) (key : Nat) : BitVec 96 := smapGet 0 t.acc key

theorem column_of_acc {t u : Tile} (h : t.acc = u.acc) (key : Nat) : t.column key = u.column key := by rw [Tile.column, Tile.column, h]

theorem column_put (t : Tile) (k key : Nat) (x : BitVec 96) :
    Tile.column { t with acc := smapPut t.acc k x } key = if key = k then x else t.column key := smapGet_put ..

theorem column_rwAdd (t : Tile) (tag : Nat) (n : RwCount) (key : Nat) : (t.rwAdd tag n).column key = t.column key :=
  column_of_acc (acc_rwAdd ..) key

/-! ### Additions -/

section
variable (j : Job) (t : Tile)

/-- The column of an addition in an array: the addition's pass, vector and column, then the array. -/
def Job.addKey (x : (Nat × Nat × Nat) × Nat) : Nat := accKey x.2 ((mxCfg j.words).entryOf x.1.1 x.1.2.1) x.1.2.2

/-- What a column holds after an addition. -/
def Job.added (x : (Nat × Nat × Nat) × Nat) (old : BitVec 96) : BitVec 96 :=
  let c := mxCfg j.words
  let start := if c.accIn = 0 && c.firstPass x.1.1 then 0 else old
  let start : BitVec 96 := if c.exact then start else (start.setWidth 32).setWidth 96
  if (c.colSpan x.1.1).1 + x.1.2.2 < (c.colSpan x.1.1).2 then
    (accAddAll c.exact start (j.blocks x.1.1 ((c.colSpan x.1.1).1 + x.1.2.2) x.1.2.1 x.2)).1
  else if c.os then start else beyondCol c.exact start (c.entryOf x.1.1 x.1.2.1) x.1.2.2

/-- An addition in one array. -/
def Tile.mxAddIn (x : (Nat × Nat × Nat) × Nat) : Tile :=
  let c := mxCfg j.words
  let key := accKey x.2 (c.entryOf x.1.1 x.1.2.1) x.1.2.2
  let x0 := if c.accIn = 0 && c.firstPass x.1.1 then 0 else smapGet 0 t.acc key
  let x0 : BitVec 96 := if c.exact then x0 else (x0.setWidth 32).setWidth 96
  if (c.colSpan x.1.1).1 + x.1.2.2 < (c.colSpan x.1.1).2 then
    let sum := accAddAll c.exact x0 (j.blocks x.1.1 ((c.colSpan x.1.1).1 + x.1.2.2) x.1.2.1 x.2)
    ({ t with acc := smapPut t.acc key sum.1 } : Tile).rwAdd c.tag { accSat := sum.2 }
  else { t with acc := smapPut t.acc key (if c.os then x0 else beyondCol c.exact x0 (c.entryOf x.1.1 x.1.2.1) x.1.2.2) }

theorem column_mxAddIn (x : (Nat × Nat × Nat) × Nat) (key : Nat) :
    (t.mxAddIn j x).column key = if key = j.addKey x then j.added x (t.column (j.addKey x)) else t.column key := by
  unfold Tile.mxAddIn
  extract_lets c k x0 x1 sum
  have hk : j.addKey x = k := rfl
  have hadded : j.added x (t.column k) = if (c.colSpan x.1.1).1 + x.1.2.2 < (c.colSpan x.1.1).2 then
      (accAddAll c.exact x1 (j.blocks x.1.1 ((c.colSpan x.1.1).1 + x.1.2.2) x.1.2.1 x.2)).1
    else if c.os then x1 else beyondCol c.exact x1 (c.entryOf x.1.1 x.1.2.1) x.1.2.2 := rfl
  rw [hk, hadded]
  split
  · rw [column_rwAdd, column_put]
  · rw [column_put]

/-- The additions of a beat one by one, in every array. -/
theorem mxAdds_eq (l : List (Nat × Nat × Nat)) : l.foldl (fun t x => t.mxAdd j x) t =
    (l ×ˢ (mxCfg j.words).arrays).foldl (fun t x => t.mxAddIn j x) t := by
  change _ = (l.flatMap fun x => (mxCfg j.words).arrays.map (Prod.mk x)).foldl (fun t x => t.mxAddIn j x) t
  rw [List.foldl_flatMap]
  simp only [List.foldl_map]
  rfl

theorem mem_addKeys {b key : Nat} : key ∈ Claims.addKeys j b ↔ ∃ x ∈ j.additions b ×ˢ (mxCfg j.words).arrays, j.addKey x = key := by
  simp only [Claims.addKeys, List.mem_flatMap, List.mem_map, List.mem_product, Prod.exists, Job.addKey]
  tauto

/-! ### Entries of C -/

/-- The column of an entry of C: array and column. -/
def Job.entryKey (x : Nat) (an : Nat × Nat) : Nat := accKey an.1 ((mxCfg j.words).accBase + x) an.2

/-- The value of an entry of C for a column. -/
def Job.entryVal (x : Nat) (an : Nat × Nat) : BitVec 96 :=
  let r := j.rec! (5, 44)
  BitVec.ofNat 96 (elemFrom (capReader j.capIdx (2 ^ 40 + x * 4 + an.1) .elem) r r.fmt
    (r.row j.ctrs x + (an.1 : Int) * (mxCfg j.words).outStride) an.2)

/-- What a column holds after its entry of C was applied. -/
def Job.entered (x : Nat) (an : Nat × Nat) (old : BitVec 96) : BitVec 96 :=
  let c := mxCfg j.words
  if c.accIn = 0 then 0
  else if c.entryCols x ≤ an.2 then beyondCol c.exact old (c.accBase + x) an.2
  else if c.accIn = 2 then j.entryVal x an
  else (addC c.exact old (j.entryVal x an)).1

/-- An entry of C applied to one column. -/
def Tile.mxEnterIn (x : Nat) (an : Nat × Nat) : Tile :=
  let c := mxCfg j.words
  let key := accKey an.1 (c.accBase + x) an.2
  let old := smapGet 0 t.acc key
  if c.accIn = 0 then { t with acc := smapPut t.acc key 0 }
  else if c.entryCols x ≤ an.2 then { t with acc := smapPut t.acc key (beyondCol c.exact old (c.accBase + x) an.2) }
  else if c.accIn = 2 then { t with acc := smapPut t.acc key (j.entryVal x an) }
  else ({ t with acc := smapPut t.acc key (addC c.exact old (j.entryVal x an)).1 } : Tile).rwAdd c.tag
    { accSat := (addC c.exact old (j.entryVal x an)).2 }

theorem column_mxEnterIn (x : Nat) (an : Nat × Nat) (key : Nat) :
    (t.mxEnterIn j x an).column key = if key = j.entryKey x an then j.entered x an (t.column (j.entryKey x an)) else t.column key := by
  unfold Tile.mxEnterIn
  extract_lets c k old
  have hk : j.entryKey x an = k := rfl
  have hentered : j.entered x an (t.column k) = if c.accIn = 0 then 0
    else if c.entryCols x ≤ an.2 then beyondCol c.exact old (c.accBase + x) an.2
    else if c.accIn = 2 then j.entryVal x an
    else (addC c.exact old (j.entryVal x an)).1 := rfl
  rw [hk, hentered]
  split
  · rw [column_put]
  · split
    · rw [column_put]
    · split
      · rw [column_put]
      · rw [column_rwAdd, column_put]

/-- An entry of C column by column, in every array. -/
theorem mxApplyC_eq (x : Nat) : t.mxApplyC j x =
    ((mxCfg j.words).arrays ×ˢ List.range (mxCfg j.words).cp).foldl (fun t an => t.mxEnterIn j x an) t := by
  change _ = ((mxCfg j.words).arrays.flatMap fun a => (List.range (mxCfg j.words).cp).map (Prod.mk a)).foldl (fun t an => t.mxEnterIn j x an) t
  rw [List.foldl_flatMap]
  simp only [List.foldl_map]
  rfl

/-- The entry of C of a beat applied, if there is one. -/
def Tile.mxEnter (b : Nat) : Tile := match Claims.entryAt j b with
  | some x => t.mxApplyC j x
  | none => t

theorem mem_entryKeys {b key : Nat} : key ∈ Claims.entryKeys j b ↔ ∃ x, Claims.entryAt j b = some x ∧
    ∃ an ∈ (mxCfg j.words).arrays ×ˢ List.range (mxCfg j.words).cp, j.entryKey x an = key := by
  unfold Claims.entryKeys
  extract_lets c
  split
  · next x hx =>
    simp only [hx, Option.some.injEq, exists_eq_left', List.mem_flatMap, List.mem_map, List.mem_product, Prod.exists, Job.entryKey, c,
      and_assoc, exists_and_left]
  · next hx => simp [hx]

end

/-! ### A descriptor's beat, by column -/

section
variable {j : Job} {t : Tile} {b key : Nat}

theorem column_mxEnter_other (h : key ∉ Claims.entryKeys j b) : (t.mxEnter j b).column key = t.column key := by
  unfold Tile.mxEnter
  split
  · next x hx =>
    rw [mxApplyC_eq]
    refine foldl_get_other (get := Tile.column) (key := j.entryKey x) (fun s an k hne => ?_) (fun an han e => ?_) t
    · rw [column_mxEnterIn, if_neg hne.symm]
    · exact h ((mem_entryKeys j).mpr ⟨x, hx, an, han, e⟩)
  · rfl

theorem column_mxEnter {x a n : Nat} (hx : Claims.entryAt j b = some x) (ha : a ∈ (mxCfg j.words).arrays) (hn : n < (mxCfg j.words).cp) :
    (t.mxEnter j b).column (j.entryKey x (a, n)) = j.entered x (a, n) (t.column (j.entryKey x (a, n))) := by
  have hcp := cp_le (mxCfg j.words)
  have hmem : (a, n) ∈ (mxCfg j.words).arrays ×ˢ List.range (mxCfg j.words).cp := List.mem_product.mpr ⟨ha, List.mem_range.mpr hn⟩
  simp only [Tile.mxEnter, hx]
  rw [mxApplyC_eq]
  refine foldl_get_same (get := Tile.column) (key := j.entryKey x) (next := j.entered x) (fun s an k hne => ?_) (fun s an => ?_)
    ((nodup_arrays _).product List.nodup_range) hmem (fun an han e => ?_) t
  · rw [column_mxEnterIn, if_neg hne.symm]
  · rw [column_mxEnterIn, if_pos rfl]
  · obtain ⟨a', n'⟩ := an
    have hn' := List.mem_range.mp (List.mem_product.mp han).2
    obtain ⟨rfl, rfl⟩ := accKey_entry_inj (hn'.trans_le hcp) (hn.trans_le hcp) e
    rfl

theorem column_mxAdds_other {l : List (Nat × Nat × Nat)} (h : ∀ x ∈ l ×ˢ (mxCfg j.words).arrays, j.addKey x ≠ key) :
    (l.foldl (fun t x => t.mxAdd j x) t).column key = t.column key := by
  rw [mxAdds_eq]
  refine foldl_get_other (get := Tile.column) (key := j.addKey) (fun s x k hne => ?_) h t
  rw [column_mxAddIn, if_neg hne.symm]

theorem column_mxAdds (hused : (mxCfg j.words).accBase + (mxCfg j.words).used ≤ 256) {x : (Nat × Nat × Nat) × Nat}
    (hx : x ∈ j.additions b ×ˢ (mxCfg j.words).arrays) :
    ((j.additions b).foldl (fun t x => t.mxAdd j x) t).column (j.addKey x) = j.added x (t.column (j.addKey x)) := by
  have hcp := cp_le (mxCfg j.words)
  rw [mxAdds_eq]
  refine foldl_get_same (get := Tile.column) (key := j.addKey) (next := j.added) (fun s y k hne => ?_) (fun s y => ?_)
    ((nodup_additions j b).product (nodup_arrays _)) hx (fun y hy e => ?_) t
  · rw [column_mxAddIn, if_neg hne.symm]
  · rw [column_mxAddIn, if_pos rfl]
  · obtain ⟨⟨p, v, n⟩, a⟩ := x
    obtain ⟨⟨p', v', n'⟩, a'⟩ := y
    have hadd := (List.mem_product.mp hx).1
    have hadd' := (List.mem_product.mp hy).1
    obtain ⟨hp, hv, hn, -, -⟩ := mem_additions.mp hadd
    obtain ⟨hp', hv', hn', -, -⟩ := mem_additions.mp hadd'
    obtain ⟨rfl, hentry, rfl⟩ := accKey_inj (entryOf_lt hused hp' hv') (entryOf_lt hused hp hv) (hn'.trans_le hcp) (hn.trans_le hcp) e
    obtain ⟨rfl, rfl⟩ := additions_inj hadd' hadd fun hos => by
      simpa only [MxCfg.entryOf, hos, if_true, Nat.add_left_cancel_iff] using hentry
    rfl

end

end Sys2Proof.Machine
end

section
/-!
The matrix unit's beat (R152 to R156): every descriptor's beat in its place, what it leaves of the columns, and what it reads out.
-/
namespace Sys2Proof.Machine

/-- What a descriptor's beat leaves of it: its words, its GO, and what else its plan rests on. -/
def Job.plan (j : Job) : Job := { j with cap := [], capIdx := [] }

theorem words_of_plan {j j' : Job} (h : j'.plan = j.plan) : j'.words = j.words := (congrArg Job.words h : j'.plan.words = j.plan.words)
theorem go_of_plan {j j' : Job} (h : j'.plan = j.plan) : j'.go = j.go := (congrArg Job.go h : j'.plan.go = j.plan.go)
theorem ctrs_of_plan {j j' : Job} (h : j'.plan = j.plan) : j'.ctrs = j.ctrs := (congrArg Job.ctrs h : j'.plan.ctrs = j.plan.ctrs)
theorem rec_of_plan {j j' : Job} (h : j'.plan = j.plan) (p : Nat × Nat) : j'.rec! p = j.rec! p :=
  (congrArg (fun x : Job => x.rec! p) h : j'.plan.rec! p = j.plan.rec! p)

theorem plan_mxCapture (j : Job) (t : Tile) (b : Nat) : (j.mxCapture t b).plan = j.plan := by
  unfold Job.mxCapture
  extract_lets c j1 j2
  have h1 : j1.plan = j.plan := by unfold j1; split <;> rfl
  have h2 : j2.plan = j1.plan := by unfold j2; split <;> rfl
  split
  · exact h2.trans h1
  · exact h2.trans h1

section
variable {j j' : Job} {b : Nat} (h : j'.plan = j.plan)
include h

theorem addKeys_of_plan : Claims.addKeys j' b = Claims.addKeys j b := by
  simp only [Claims.addKeys, Job.additions, words_of_plan h, go_of_plan h]

theorem entryAt_of_plan : Claims.entryAt j' b = Claims.entryAt j b := by
  simp only [Claims.entryAt, words_of_plan h, go_of_plan h]

theorem entryKeys_of_plan : Claims.entryKeys j' b = Claims.entryKeys j b := by
  simp only [Claims.entryKeys, entryAt_of_plan h, words_of_plan h]

theorem additions_of_plan : j'.additions b = j.additions b := by
  simp only [Job.additions, words_of_plan h, go_of_plan h]

end

/-! ### A descriptor's beat -/

section
variable (t pre : Tile) (j : Job) (b : Nat)

theorem acc_mxCells : (t.mxCells j b).acc = t.acc := by
  unfold Tile.mxCells
  extract_lets
  split
  · rfl
  · refine foldl_keeps Tile.acc (fun t p => ?_) _ t
    extract_lets e swapped
    have hload (t : Tile) (yx : Nat × Nat) : (t.loadCell j p yx).acc = t.acc := by
      unfold Tile.loadCell
      split
      · rfl
      · exact foldl_keeps Tile.acc (fun t a => by rfl) _ t
    have hswap (t : Tile) (yx : Nat × Nat) : (t.swapCell j yx).acc = t.acc := by
      unfold Tile.swapCell
      exact foldl_keeps Tile.acc (fun t a => by rfl) _ t
    refine (foldl_keeps Tile.acc hload _ swapped).trans ?_
    unfold swapped
    split
    · exact foldl_keeps Tile.acc hswap _ t
    · rfl

theorem acc_mxReadout : (t.mxReadout j b).1.acc = t.acc := by
  unfold Tile.mxReadout
  extract_lets
  split
  · rfl
  · exact foldl_keeps (fun acc : Tile × Job => acc.1.acc) (fun acc a => acc_rwAdd ..) _ (t, j)

/-- A branch that leaves the accumulators alone, where the other is no change. -/
theorem acc_ite {p : Prop} [Decidable p] {t u : Tile} (h : u.acc = t.acc) : (if p then u else t).acc = t.acc := by
  split
  · exact h
  · rfl

/-- The parts of a descriptor's beat that the accumulators see: the entry of C, the additions, and the readout. -/
theorem mxBeat_parts : ∃ t0 t1 : Tile, t0.acc = t.acc ∧ t1.acc = (t0.mxEnter (j.mxCapture pre b) b).acc ∧
    (t.mxBeat pre j b).1 = ((((j.mxCapture pre b).additions b).foldl (fun t x => t.mxAdd (j.mxCapture pre b) x) t1).mxReadout
      (j.mxCapture pre b) b).1 ∧
    (t.mxBeat pre j b).2.1 = ((((j.mxCapture pre b).additions b).foldl (fun t x => t.mxAdd (j.mxCapture pre b) x) t1).mxReadout
      (j.mxCapture pre b) b).2 := by
  unfold Tile.mxBeat
  extract_lets c j' e0 read staged r passed streamed applied
  have hread : read.acc = t.acc := by
    unfold read
    split
    · exact foldl_keeps Tile.acc (fun t a => acc_rwAdd ..) _ t
    · rfl
  have hstaged : staged.acc = read.acc := acc_ite (acc_rwAdd ..)
  have hpassed : passed.acc = staged.acc := by unfold passed; split <;> rfl
  have hstreamed : streamed.acc = staged.acc := by
    unfold streamed
    split
    · refine (acc_ite ?_).trans hpassed
      rfl
    · rfl
  have happlied : applied = streamed.mxEnter j' b := by
    have hplan : j'.plan = j.plan := plan_mxCapture j pre b
    unfold applied Tile.mxEnter Claims.entryAt
    rw [words_of_plan hplan, go_of_plan hplan]
    dsimp only
    split <;> rfl
  refine ⟨streamed, applied.mxCells j' b, by rw [hstreamed, hstaged, hread], by rw [acc_mxCells, happlied], ?_⟩
  generalize ((j'.additions b).foldl (fun t x => t.mxAdd j' x) (applied.mxCells j' b)).mxReadout j' b = out
  obtain ⟨u, k⟩ := out
  exact ⟨rfl, rfl⟩

variable {t pre j b} {key : Nat}

theorem column_mxBeat_other (hadd : key ∉ Claims.addKeys j b) (hentry : key ∉ Claims.entryKeys j b) :
    (t.mxBeat pre j b).1.column key = t.column key := by
  obtain ⟨t0, t1, h0, h1, h, -⟩ := mxBeat_parts t pre j b
  have hplan := plan_mxCapture j pre b
  rw [h, column_of_acc (acc_mxReadout ..), column_mxAdds_other, column_of_acc h1, column_mxEnter_other, column_of_acc h0]
  · rwa [entryKeys_of_plan hplan]
  · exact fun x hx e => hadd (addKeys_of_plan hplan ▸ (mem_addKeys _).mpr ⟨x, hx, e⟩)

theorem column_mxBeat_add (hused : (mxCfg j.words).accBase + (mxCfg j.words).used ≤ 256) {p v n a : Nat}
    (hx : (p, v, n) ∈ j.additions b) (ha : a ∈ (mxCfg j.words).arrays) (hentry : j.addKey ((p, v, n), a) ∉ Claims.entryKeys j b) :
    (t.mxBeat pre j b).1.column (j.addKey ((p, v, n), a)) =
      (j.mxCapture pre b).added ((p, v, n), a) (t.column (j.addKey ((p, v, n), a))) := by
  obtain ⟨t0, t1, h0, h1, h, -⟩ := mxBeat_parts t pre j b
  have hplan := plan_mxCapture j pre b
  have hkey : j.addKey ((p, v, n), a) = (j.mxCapture pre b).addKey ((p, v, n), a) := by simp only [Job.addKey, words_of_plan hplan]
  rw [hkey] at hentry ⊢
  have hmem : ((p, v, n), a) ∈ (j.mxCapture pre b).additions b ×ˢ (mxCfg (j.mxCapture pre b).words).arrays := by
    rw [additions_of_plan hplan, words_of_plan hplan]
    exact List.mem_product.mpr ⟨hx, ha⟩
  rw [h, column_of_acc (acc_mxReadout ..), column_mxAdds (by rwa [words_of_plan hplan]) hmem, column_of_acc h1, column_mxEnter_other,
    column_of_acc h0]
  rwa [entryKeys_of_plan hplan]

theorem column_mxBeat_entry {x a n : Nat} (hx : Claims.entryAt j b = some x) (ha : a ∈ (mxCfg j.words).arrays)
    (hn : n < (mxCfg j.words).cp) (hadd : j.entryKey x (a, n) ∉ Claims.addKeys j b) :
    (t.mxBeat pre j b).1.column (j.entryKey x (a, n)) = (j.mxCapture pre b).entered x (a, n) (t.column (j.entryKey x (a, n))) := by
  obtain ⟨t0, t1, h0, h1, h, -⟩ := mxBeat_parts t pre j b
  have hplan := plan_mxCapture j pre b
  have hkey : j.entryKey x (a, n) = (j.mxCapture pre b).entryKey x (a, n) := by simp only [Job.entryKey, words_of_plan hplan]
  rw [hkey] at hadd ⊢
  rw [h, column_of_acc (acc_mxReadout ..), column_mxAdds_other, column_of_acc h1, column_mxEnter, column_of_acc h0]
  · rwa [entryAt_of_plan hplan]
  · rwa [words_of_plan hplan]
  · rwa [words_of_plan hplan]
  · exact fun y hy e => hadd (addKeys_of_plan hplan ▸ (mem_addKeys _).mpr ⟨y, hy, e⟩)

/-! ### The readout of an entry (R155) -/

theorem plan_mxReadout : (t.mxReadout j b).2.plan = j.plan := by
  unfold Tile.mxReadout
  extract_lets
  split
  · rfl
  · exact foldl_keeps (fun acc : Tile × Job => acc.2.plan) (fun acc a => by rfl) _ (t, j)

theorem plan_mxBeat : (t.mxBeat pre j b).2.1.plan = j.plan := by
  obtain ⟨t0, t1, -, -, -, h⟩ := mxBeat_parts t pre j b
  rw [h, plan_mxReadout, plan_mxCapture]

/-- The bytes of an entry in an array. -/
def Tile.entryBytes (t : Tile) (j : Job) (x a : Nat) : List Byte :=
  let c := mxCfg j.words
  (List.range (c.entryCols x)).flatMap fun n =>
    (readColumn c.exact c.outFmt (c.baseW + c.baseA) (t.column (accKey a (c.accBase + x) n))).1

theorem outKey_inj {x a a' : Nat} (h : outKey x a = outKey x a') : a = a' := by
  unfold outKey at h
  omega

/-- An entry read out in one array. -/
def readOut (j : Job) (x : Nat) (s : Tile × Job) (a : Nat) : Tile × Job :=
  let c := mxCfg j.words
  let cols := (List.range (c.entryCols x)).map fun n =>
    readColumn c.exact c.outFmt (c.baseW + c.baseA) (smapGet 0 s.1.acc (accKey a (c.accBase + x) n))
  (s.1.rwAdd c.tag (sumCounts (cols.map (·.2))), { s.2 with cap := smapPut s.2.cap (outKey x a) (cols.flatMap (·.1)) })

theorem acc_readOut (x : Nat) (l : List Nat) (s : Tile × Job) : (l.foldl (readOut j x) s).1.acc = s.1.acc :=
  foldl_keeps (fun s : Tile × Job => s.1.acc) (fun _ _ => acc_rwAdd ..) l s

theorem find_readOut (x : Nat) (s : Tile × Job) (a key : Nat) : smapFind (readOut j x s a).2.cap key =
    if key = outKey x a then some (s.1.entryBytes j x a) else smapFind s.2.cap key := by
  simp only [readOut, smapFind_put, List.flatMap_map]
  rfl

/-- The beat in which an entry is read out. -/
theorem mxReadout_of_entry {x : Nat} (hfmt : (mxCfg j.words).outFmt ≠ 0x1F)
    (hb : b = (mxCfg j.words).lastAdd j.go + 1 + x * (mxCfg j.words).rOut) (hx : x < (mxCfg j.words).used) :
    t.mxReadout j b = (mxCfg j.words).arrays.foldl (readOut j x) (t, j) := by
  have hr := rOut_pos (mxCfg j.words)
  have hlo : ¬ b < (mxCfg j.words).lastAdd j.go + 1 := by omega
  have hsub : b - (mxCfg j.words).lastAdd j.go - 1 = x * (mxCfg j.words).rOut := by omega
  have hhi : ¬ (mxCfg j.words).used ≤ x := by omega
  simp only [Tile.mxReadout, hsub, Nat.mul_div_cancel _ hr, Nat.mul_mod_left]
  rw [if_neg (by simp [hfmt, hlo, hhi])]
  rfl

theorem mxReadout_bytes {x a : Nat} (hfmt : (mxCfg j.words).outFmt ≠ 0x1F)
    (hb : b = (mxCfg j.words).lastAdd j.go + 1 + x * (mxCfg j.words).rOut) (hx : x < (mxCfg j.words).used)
    (ha : a ∈ (mxCfg j.words).arrays) : smapFind (t.mxReadout j b).2.cap (outKey x a) = some (t.entryBytes j x a) := by
  obtain ⟨before, after, hsplit⟩ := List.append_of_mem ha
  have hnodup := nodup_arrays (mxCfg j.words)
  rw [mxReadout_of_entry hfmt hb hx]
  rw [hsplit] at hnodup ⊢
  have hafter : ∀ a' ∈ after, outKey x a' ≠ outKey x a := fun a' ha' e =>
    (List.nodup_cons.mp (List.nodup_append.mp hnodup).2.1).1 (outKey_inj e ▸ ha')
  rw [List.foldl_append, List.foldl_cons, foldl_get_other (get := fun (s : Tile × Job) key => smapFind s.2.cap key) (key := outKey x)
    (fun s a' key hne => by rw [find_readOut, if_neg hne.symm]) hafter, find_readOut, if_pos rfl]
  simp only [Tile.entryBytes, column_of_acc (acc_readOut x before (t, j))]

theorem mxBeat_bytes {x a : Nat} (hfmt : (mxCfg j.words).outFmt ≠ 0x1F)
    (hb : b = (mxCfg j.words).lastAdd j.go + 1 + x * (mxCfg j.words).rOut) (hx : x < (mxCfg j.words).used)
    (ha : a ∈ (mxCfg j.words).arrays) :
    smapFind (t.mxBeat pre j b).2.1.cap (outKey x a) = some ((t.mxBeat pre j b).1.entryBytes j x a) := by
  obtain ⟨t0, t1, -, -, htile, hjob⟩ := mxBeat_parts t pre j b
  have hplan := plan_mxCapture j pre b
  have hwords := words_of_plan hplan
  rw [hjob, mxReadout_bytes (by rwa [hwords]) (by rwa [hwords, go_of_plan hplan]) (by rwa [hwords]) (by rwa [hwords])]
  simp only [Tile.entryBytes, hwords, htile, column_of_acc (acc_mxReadout ..)]

end

/-! ### The unit's beat -/

section
variable (t pre : Tile) (b : Nat)

/-- The tile after the beats of some descriptors. -/
def Tile.mxBeats (l : List Job) : Tile := l.foldl (fun t j => (t.mxBeat pre j b).1) t

/-- The tile and the descriptors after the beats of some. -/
def mxRun (s : Tile × List Job) (l : List Job) : Tile × List Job :=
  l.foldl (fun acc j => ((acc.1.mxBeat pre j b).1, acc.2 ++ [(acc.1.mxBeat pre j b).2.1])) s

theorem mxRun_tile (s : Tile × List Job) (l : List Job) : (mxRun pre b s l).1 = s.1.mxBeats pre b l := by
  induction l generalizing s with
  | nil => rfl
  | cons j l ih => exact ih _

theorem mem_mxRun {s : Tile × List Job} {x : Job} (hx : x ∈ s.2) (l : List Job) : x ∈ (mxRun pre b s l).2 := by
  induction l generalizing s with
  | nil => exact hx
  | cons j l ih => exact ih (List.mem_append_left _ hx)

theorem mxUnit_acc : (t.mxUnit pre b).acc = (t.mxBeats pre b pre.mxJobs).acc := by
  change (mxRun pre b (t, []) pre.mxJobs).1.acc = _
  rw [mxRun_tile]

theorem mxUnit_jobs : (t.mxUnit pre b).mxJobs =
    (mxRun pre b (t, []) pre.mxJobs).2.filter fun j => decide (b < (mxCfg j.words).lastBeat j.go) := rfl

variable {pre b} {key : Nat}

theorem column_mxBeats_other {l : List Job} (h : ∀ j ∈ l, key ∉ Claims.addKeys j b ∧ key ∉ Claims.entryKeys j b) (t : Tile) :
    (t.mxBeats pre b l).column key = t.column key := by
  induction l generalizing t with
  | nil => rfl
  | cons j l ih =>
    obtain ⟨hadd, hentry⟩ := h j List.mem_cons_self
    exact (ih (fun o ho => h o (List.mem_cons_of_mem _ ho)) _).trans (column_mxBeat_other hadd hentry)

/-- No descriptor but one changes a column, wherever the one stands. -/
theorem alone_others {j : Job} (h : Claims.alone pre j b key) {l r : List Job} (hsplit : pre.mxJobs = l ++ j :: r) :
    ∀ o ∈ l ++ r, key ∉ Claims.addKeys o b ∧ key ∉ Claims.entryKeys o b := by
  obtain ⟨l', r', hsplit', hothers⟩ := h
  have hperm : (l ++ r).Perm (l' ++ r') := by
    refine List.Perm.cons_inv (a := j) ?_
    exact (List.perm_middle.symm.trans (.of_eq (hsplit.symm.trans hsplit'))).trans List.perm_middle
  exact fun o ho => hothers o (hperm.mem_iff.mp ho)

/-- A column that one descriptor alone changes: as that descriptor's beat leaves it. -/
theorem column_mxBeats_alone {j : Job} (h : Claims.alone pre j b key) {l r : List Job} (hsplit : pre.mxJobs = l ++ j :: r) :
    (t.mxBeats pre b l).column key = t.column key ∧
      (t.mxBeats pre b pre.mxJobs).column key = ((t.mxBeats pre b l).mxBeat pre j b).1.column key := by
  have hothers := alone_others h hsplit
  refine ⟨column_mxBeats_other (fun o ho => hothers o (List.mem_append_left _ ho)) t, ?_⟩
  rw [hsplit, Tile.mxBeats, List.foldl_append, List.foldl_cons]
  exact column_mxBeats_other (fun o ho => hothers o (List.mem_append_right _ ho)) _

end

end Sys2Proof.Machine
end

section
/-!
The matrix unit of a completed beat (R92 to R103, R152 to R156): its accumulators, its readout, a block's value, and a column's arithmetic.
-/
namespace Sys2Proof.Machine

/-! ### The accesses of a readout -/

section
variable {t : Tile} {j : Job} {b : Nat}

theorem mem_accesses_of_mx {x : Access} (hj : j ∈ t.mxJobs) (hx : x ∈ j.mxAccesses b) : x ∈ t.accesses b := by
  have h : x ∈ t.mxJobs.flatMap fun j => j.mxAccesses b := List.mem_flatMap.mpr ⟨j, hj, hx⟩
  simp only [Tile.accesses, Tile.jobAccesses, List.mem_append]
  tauto

theorem outWrite_of_write {x i : Nat} (hfmt : (mxCfg j.words).outFmt ≠ 0x1F)
    (hb : b = (mxCfg j.words).lastAdd j.go + 2 + x * (mxCfg j.words).rOut + i) (hi : i < (mxCfg j.words).rOut)
    (hx : x < (mxCfg j.words).used) : j.outWrite b = some (x, i) := by
  have hr := rOut_pos (mxCfg j.words)
  have hsub : b - (mxCfg j.words).lastAdd j.go - 2 = i + x * (mxCfg j.words).rOut := by omega
  have hdiv : (i + x * (mxCfg j.words).rOut) / (mxCfg j.words).rOut = x := by
    rw [Nat.add_mul_div_right _ _ hr, Nat.div_eq_of_lt hi, Nat.zero_add]
  have hmod : (i + x * (mxCfg j.words).rOut) % (mxCfg j.words).rOut = i := by rw [Nat.add_mul_mod_self_right, Nat.mod_eq_of_lt hi]
  have hlo : ¬ b < (mxCfg j.words).lastAdd j.go + 2 := by omega
  have hhi : ¬ (mxCfg j.words).used ≤ x := by omega
  simp only [Job.outWrite, hsub, hdiv, hmod]
  rw [if_neg (by simp [hfmt, hlo, hhi])]

theorem mem_accesses_of_outWrite {x i a : Nat} {w : Access} (hj : j ∈ t.mxJobs) (h : j.outWrite b = some (x, i))
    (ha : a ∈ (mxCfg j.words).arrays)
    (hw : w ∈ share (writeAccesses (j.rec! (5, 34)).hash (j.outBytes x a)) (mxCfg j.words).rOut i) : w ∈ t.accesses b := by
  refine mem_accesses_of_mx hj (List.mem_append_right _ ?_)
  rw [h]
  exact List.mem_flatMap.mpr ⟨a, ha, hw⟩

end

/-! ### The value of a block -/

theorem foldl_add_eq_sum (f : Nat → Int) (l : List Nat) (z : Int) : l.foldl (fun s k => s + f k) z = z + (l.map f).sum := by
  induction l generalizing z with
  | nil => simp
  | cons k l ih => rw [List.foldl_cons, ih, List.map_cons, List.sum_cons, add_assoc]

theorem mainBlock_eq {j : Job} {p n v a k0 : Nat} (h : (j.streamElem p v a k0).fill = false) :
    j.mainBlock p n v a k0 = blockValue (mxCfg j.words).exact (fmtQ (mxCfg j.words).fmtW + fmtQ (mxCfg j.words).fmtA)
      ((((List.range (mxCfg j.words).pb).map fun i => k0 + i).filter fun k => decide (k < (mxCfg j.words).k) && !j.excluded p k).map
        fun k => (j.stageElem p n k).val * (j.streamElem p v a k).val).sum
      (scaleUse (mxCfg j.words).exact j.staged.base (j.stageElem p n k0).scale).1
      (scaleUse (mxCfg j.words).exact j.streamed.base (j.streamElem p v a k0).scale).1 := by
  simp only [Job.mainBlock, h, Bool.false_eq_true, if_false, foldl_add_eq_sum, zero_add, Nat.add_comm _ k0]

section
variable (exact : Bool) (base : Int) {w : Nat}

theorem scaleUse_nan : scaleUse exact base 255 = (none, { nonfinite := 1 }) := rfl

theorem scaleUse_normal (h : w ≠ 255) : scaleUse false base w = (some ((w : Int) - 127), {}) := by
  simp [scaleUse, scaleExp, h]

theorem scaleUse_exact (h : w ≠ 255) : scaleUse true base w =
    if (w : Int) - 127 - base > 31 then (some 31, { scaleOut := 1 })
    else if (w : Int) - 127 - base < 0 then (none, { scaleOut := 1 })
    else (some ((w : Int) - 127 - base), {}) := by
  simp [scaleUse, scaleExp, h]

end

theorem blockValue_normal (q : Nat) (sum w a : Int) : blockValue false q sum (some w) (some a) = ⟨sum, w + a - q⟩ := rfl

theorem blockValue_exact (q : Nat) (sum w a : Int) :
    blockValue true q sum (some w) (some a) = ⟨sum * 2 ^ (w + a).toNat * 2 ^ (12 - q), 0⟩ := by
  simp only [blockValue, if_true, pow2, Nat.cast_pow, Nat.cast_ofNat]

/-! ### The arithmetic of a column -/

theorem longClamp_eq (x : Int) : longClamp x = (max (-(2 ^ 95 - 1)) (min (2 ^ 95 - 1) x),
    decide (x > 2 ^ 95 - 1 ∨ x < -(2 ^ 95 - 1))) := by
  unfold longClamp longMax
  split
  · next h => exact Prod.ext (by dsimp only; omega) (decide_eq_true (.inl h)).symm
  · split
    · next h => exact Prod.ext (by dsimp only; omega) (decide_eq_true (.inr h)).symm
    · next h h' => exact Prod.ext (by dsimp only; omega) (decide_eq_false (not_or_intro h h')).symm

theorem accAdd_exact (x : BitVec 96) (v : Dyad) : accAdd true x v =
    (BitVec.ofInt 96 (max (-(2 ^ 95 - 1)) (min (2 ^ 95 - 1) (x.toInt + v.m))),
      if x.toInt + v.m > 2 ^ 95 - 1 ∨ x.toInt + v.m < -(2 ^ 95 - 1) then 1 else 0) := by
  simp only [accAdd, if_true, longClamp_eq, decide_eq_true_eq]

/-- A clamped sum is never the most negative integer. -/
theorem ofInt_clamped_ne {y : Int} (hlo : -(2 ^ 95 - 1) ≤ y) (hhi : y ≤ 2 ^ 95 - 1) : BitVec.ofInt 96 y ≠ BitVec.ofInt 96 (-(2 ^ 95)) := by
  intro h
  have h' := congrArg BitVec.toInt h
  rw [BitVec.toInt_ofInt, BitVec.toInt_ofInt, Int.bmod_eq_of_le (by omega) (by omega), Int.bmod_eq_of_le (by omega) (by omega)] at h'
  omega

theorem accAdd_normal {x : BitVec 96} {d : Dyad} (v : Dyad) (h : f32Val (x.setWidth 32) = .fin d) :
    accAdd false x v = ((roundF32 (d.add v)).1.setWidth 96, if (roundF32 (d.add v)).2 then 1 else 0) := by
  simp only [accAdd, Bool.false_eq_true, if_false, h]

theorem accAddAll_append (exact : Bool) (x : BitVec 96) (v : Dyad) (vs : List Dyad) :
    (accAddAll exact x (vs ++ [v])).1 = (accAdd exact (accAddAll exact x vs).1 v).1 := by
  rw [accAddAll, List.foldl_append]
  rfl

theorem readColumn_bf16 {exact : Bool} {base : Int} {x : BitVec 96} {d : Dyad} (h : f32Val (x.setWidth 32) = .fin d) :
    readColumn exact 0x10 base x = (bytesOf 2 (roundBF16 d).1.toNat, { accSat := if (roundBF16 d).2 then 1 else 0 }) := by
  simp only [readColumn, h, FpVal.source, Bool.false_eq_true, if_false]

end Sys2Proof.Machine

namespace Sys2Proof.Settled
open Sys2Proof Sys2Proof.Machine

theorem accumulatorsOfABeat : Claims.AccumulatorsOfABeat := by
  intro vx vy s p h k t b
  obtain ⟨t0, hacc, hunits⟩ := beatDone_units s k p
  have hcolumn (key : Nat) : smapGet 0 ((Claims.beatDone s k p).tile k).acc key = (t0.mxBeats t b t.mxJobs).column key := by
    rw [show ((Claims.beatDone s k p).tile k).acc = _ from congrArg Units.acc hunits, mxUnit_acc, Tile.column]
  have hbefore (key : Nat) : t0.column key = smapGet 0 t.acc key := column_of_acc hacc key
  refine ⟨Claims.beatDone s k p, tryBeat_completes h, fun key hkey => ?untouched, fun j hj => ?_⟩
  case untouched => rw [hcolumn, column_mxBeats_other hkey, hbefore]
  intro c hused
  refine ⟨?addition, ?entry⟩
  case addition =>
    intro q v n a ha hq hv hn hcol hos hb key halone hentry x
    obtain ⟨l, r, hsplit⟩ := List.append_of_mem hj
    obtain ⟨hl, hbeat⟩ := column_mxBeats_alone t0 halone hsplit
    have hmem : (q, v, n) ∈ j.additions b := mem_additions.mpr ⟨hq, hv, hn, hos, hb⟩
    have hadd : ((t0.mxBeats t b l).mxBeat t j b).1.column key = (j.mxCapture t b).added ((q, v, n), a) ((t0.mxBeats t b l).column key) :=
      column_mxBeat_add hused hmem ha hentry
    have hwords := words_of_plan (plan_mxCapture j t b)
    rw [hcolumn, hbeat, hadd, hl, hbefore]
    simp only [Job.added, hwords]
    rw [if_pos hcol]
    simp only [x, Bool.and_eq_true, decide_eq_true_eq]
    rfl
  case entry =>
    intro x a n hx ha hn hcol key halone hadd r cv
    obtain ⟨l, rest, hsplit⟩ := List.append_of_mem hj
    obtain ⟨hl, hbeat⟩ := column_mxBeats_alone t0 halone hsplit
    have hentry : ((t0.mxBeats t b l).mxBeat t j b).1.column key = (j.mxCapture t b).entered x (a, n) ((t0.mxBeats t b l).column key) :=
      column_mxBeat_entry hx ha hn hadd
    have hplan := plan_mxCapture j t b
    have hwords := words_of_plan hplan
    have hval : (j.mxCapture t b).entryVal x (a, n) = cv := by
      simp only [Job.entryVal, rec_of_plan hplan, ctrs_of_plan hplan, hwords]
      rfl
    rw [hcolumn, hbeat, hentry, hl, hbefore]
    simp only [Job.entered, hwords, hval]
    rw [if_neg (Nat.not_le.mpr hcol)]
    refine ⟨fun h0 => if_pos h0, fun (h2 : (mxCfg j.words).accIn = 2) => ?_, fun (h3 : (mxCfg j.words).accIn = 3) => ?_⟩
    · rw [if_neg (by omega), if_pos h2]
    · rw [if_neg (by omega), if_neg (by omega)]

theorem readoutOfABeat : Claims.ReadoutOfABeat := by
  intro vx vy s p j h k t b c hj hfmt
  obtain ⟨t0, -, hunits⟩ := beatDone_units s k p
  have hcolumn (key : Nat) : smapGet 0 ((Claims.beatDone s k p).tile k).acc key = (t0.mxBeats t b t.mxJobs).column key := by
    rw [show ((Claims.beatDone s k p).tile k).acc = _ from congrArg Units.acc hunits, mxUnit_acc, Tile.column]
  refine ⟨Claims.beatDone s k p, tryBeat_completes h, fun x a hb hx ha halone => ?_, fun x a i hb hi hx ha w hw => ?_⟩
  · obtain ⟨l, r, hsplit⟩ := List.append_of_mem hj
    have hplan : ((t0.mxBeats t b l).mxBeat t j b).2.1.plan = j.plan := plan_mxBeat
    have hwords := words_of_plan hplan
    refine ⟨((t0.mxBeats t b l).mxBeat t j b).2.1, ?_, hwords, go_of_plan hplan, ?_⟩
    · have hlast : b < c.lastBeat j.go := by
        have hr := rOut_pos c
        have hend : x * c.rOut + c.rOut ≤ c.used * c.rOut := by rw [← Nat.succ_mul]; exact Nat.mul_le_mul_right _ hx
        rw [MxCfg.lastBeat]
        simp only [hfmt, if_false]
        omega
      rw [show ((Claims.beatDone s k p).tile k).mxJobs = _ from congrArg Units.mxJobs hunits, mxUnit_jobs]
      refine List.mem_filter.mpr ⟨?_, decide_eq_true (by rw [hwords, go_of_plan hplan]; exact hlast)⟩
      change _ ∈ (mxRun t b (t0, []) t.mxJobs).2
      rw [hsplit, mxRun, List.foldl_append, List.foldl_cons]
      refine mem_mxRun t b (List.mem_append_right _ ?_) r
      rw [show (List.foldl _ (t0, []) l).1 = t0.mxBeats t b l from mxRun_tile t b (t0, []) l]
      exact List.mem_singleton_self _
    · rw [mxBeat_bytes hfmt hb hx ha, Tile.entryBytes]
      refine congrArg some (List.flatMap_congr fun n hn => ?_)
      rw [hcolumn, (column_mxBeats_alone t0 (halone n (List.mem_range.mp hn)) hsplit).2]
  · exact mem_accesses_of_outWrite hj (outWrite_of_write hfmt hb hi hx) ha hw

theorem blockValues : Claims.BlockValues := by
  refine ⟨fun exact base w hw => ?_, fun q sum w a => ⟨blockValue_normal q sum w a, fun _ _ _ => blockValue_exact q sum w a⟩,
    fun j p n v a k0 => mainBlock_eq⟩
  intro d
  refine ⟨?_, ?_, ?_, ?_, ?_⟩
  · rintro rfl; exact scaleUse_nan exact base
  · rintro h rfl; exact scaleUse_normal base h
  · rintro h rfl hd; rw [scaleUse_exact base h, if_pos hd]
  · rintro h rfl hd; rw [scaleUse_exact base h, if_neg (by omega), if_pos hd]
  · rintro h rfl h0 h31; rw [scaleUse_exact base h, if_neg (by omega), if_neg (by omega)]

theorem accumulatorArithmetic : Claims.AccumulatorArithmetic := by
  refine ⟨fun x v => ⟨accAdd_exact x v, ?_⟩, fun x v d => accAdd_normal v, fun exact x v vs => ⟨rfl, accAddAll_append exact x v vs⟩,
    by decide, by decide, fun exact base x => ⟨rfl, ?_, ?_, fun d => readColumn_bf16⟩⟩
  · rw [accAdd_exact]
    exact ofInt_clamped_ne (by omega) (by omega)
  · rintro rfl; rfl
  · rintro rfl; rfl

/-- Settles O60: the columns by what each descriptor's beat makes of them, the values by the functions that give them. -/
theorem matrixUnitResults : Obligations.MatrixUnitResults :=
  ⟨accumulatorsOfABeat, readoutOfABeat, blockValues, accumulatorArithmetic⟩

end Sys2Proof.Settled
end

section
/-!
The fault of a beat's scheduled accesses (R115, R116, R503): which kind it is of, and at which address.
-/
namespace Sys2Proof.Machine

/-- The access is one of the list, and none of the list has a lower address. -/
def Access.lowestOf (a : Access) (as : List Access) : Prop := a ∈ as ∧ ∀ b ∈ as, a.addr ≤ b.addr

theorem lowest_spec : ∀ as : List Access, match lowest as with
    | none => as = []
    | some a => a.lowestOf as
  | [] => rfl
  | a :: as => by
    have ih := lowest_spec as
    unfold lowest
    cases h : lowest as with
    | none =>
      rw [h] at ih
      exact ⟨ih ▸ List.mem_cons_self, fun b hb => by rw [ih, List.mem_singleton] at hb; rw [hb]⟩
    | some b =>
      rw [h] at ih
      obtain ⟨hmem, hle⟩ := ih
      by_cases hlt : b.addr < a.addr
      · simp only [hlt, if_true]
        exact ⟨List.mem_cons_of_mem _ hmem, List.forall_mem_cons.mpr ⟨hlt.le, hle⟩⟩
      · simp only [hlt, if_false]
        exact ⟨List.mem_cons_self, List.forall_mem_cons.mpr ⟨le_refl _, fun c hc => (not_lt.mp hlt).trans (hle c hc)⟩⟩

theorem lowest_eq_some {as : List Access} {a : Access} (h : lowest as = some a) : a.lowestOf as := by
  have hspec := lowest_spec as
  rwa [h] at hspec

theorem lowest_eq_none_iff {as : List Access} : lowest as = none ↔ as = [] := by
  refine ⟨fun h => ?_, fun h => h ▸ rfl⟩
  have hspec := lowest_spec as
  rwa [h] at hspec

/-- The lowest collision is the lowest of the accesses that collide. -/
theorem lowestCollision_eq (ps : List (Access × Access)) :
    lowestCollision ps = lowest (ps.flatMap fun ab => [ab.1, ab.2]) := by
  induction ps with
  | nil => rfl
  | cons ab ps ih =>
    obtain ⟨a, b⟩ := ab
    simp only [lowestCollision, ih, List.flatMap_cons, List.cons_append, List.nil_append, lowest]
    cases lowest (ps.flatMap fun ab => [ab.1, ab.2]) with
    | none => exact apply_ite some ..
    | some d =>
      by_cases hba : b.addr < a.addr <;> by_cases hdb : d.addr < b.addr
      · have hda : d.addr < a.addr := hdb.trans hba
        simp only [hba, hdb, hda, if_true]
      · simp only [hba, hdb, if_true, if_false]
      · simp only [hba, hdb, if_true, if_false]
      · have hda : ¬d.addr < a.addr := by omega
        simp only [hba, hdb, hda, if_false]

theorem collisions_eq_nil_iff (salt : Nat) (accs : List Access) :
    collisions salt accs = [] ↔ (accs.map fun a => a.bank salt).Nodup := by
  induction accs with
  | nil => simp [collisions]
  | cons a accs ih =>
    simp only [collisions, List.append_eq_nil_iff, List.map_eq_nil_iff, List.filter_eq_nil_iff, decide_eq_true_eq, ih,
      List.map_cons, List.nodup_cons, List.mem_map, not_exists, not_and]

/-- The fault of the first kind of which there is an access, at the lowest of its accesses; a kind is a status, the bank reported with it, and
its accesses. -/
def firstFault : List (Status × (Access → Nat) × List Access) → Option SpadFault
  | [] => none
  | (st, bank, as) :: kinds => match lowest as with
    | some a => some ⟨st, bank a, a.addr⟩
    | none => firstFault kinds

section
variable {kinds : List (Status × (Access → Nat) × List Access)} {st : Status} {bank : Access → Nat} {as : List Access} {f : SpadFault}

theorem firstFault_cons_nil : firstFault ((st, bank, []) :: kinds) = firstFault kinds := rfl

theorem firstFault_lowestOf (has : as ≠ []) (h : firstFault ((st, bank, as) :: kinds) = some f) : Claims.LowestOf f st as := by
  cases hlow : lowest as with
  | none => exact absurd (lowest_eq_none_iff.mp hlow) has
  | some a =>
    obtain ⟨hmem, hle⟩ := lowest_eq_some hlow
    simp only [firstFault, hlow, Option.some.injEq] at h
    subst h
    exact ⟨rfl, ⟨a, hmem, rfl⟩, hle⟩

theorem firstFault_eq_none_iff : firstFault kinds = none ↔ ∀ x ∈ kinds, x.2.2 = [] := by
  induction kinds with
  | nil => simp [firstFault]
  | cons x kinds ih =>
    obtain ⟨st, bank, as⟩ := x
    rw [List.forall_mem_cons, ← ih, ← lowest_eq_none_iff, firstFault]
    cases lowest as <;> simp

end

/-- The kinds of scratchpad fault in R503's order. -/
theorem spadFault_eq_firstFault (t : Tile) (mode : BitVec 2) (accs : List Access) :
    t.spadFault mode accs = firstFault
      [(St.SPD_ADDR_RANGE, fun _ => 0, accs.filter Access.outside),
       (St.SPD_BANK_COLLISION, fun a => a.bank t.salt.toNat, (collisions t.salt.toNat accs).flatMap fun ab => [ab.1, ab.2]),
       (St.SPD_WRITE_PROTECT, fun a => a.bank t.salt.toNat, accs.filter fun a => (a.write || a.clear) && t.protectedLine a.line),
       (St.SPD_ECC_UNCORR, fun a => a.bank t.salt.toNat,
        accs.filter fun a => !a.clear && t.doubleError (a.phys t.salt.toNat) (checkedWords a.write a.data)),
       (St.SPD_TALLY_MISS, fun a => a.bank t.salt.toNat, if mode = 2 then accs.filter t.misses else [])] := by
  simp only [Tile.spadFault, lowestCollision_eq]
  rfl

/-- Accesses without a fault lie in the tile, each in a bank of its own. -/
theorem apart_of_spadFault_none {t : Tile} {mode : BitVec 2} {accs : List Access} (h : t.spadFault mode accs = none) :
    (∀ a ∈ accs, 0 ≤ a.addr ∧ a.addr < 0x200000) ∧ (accs.map fun a => a.bank t.salt.toNat).Nodup := by
  rw [spadFault_eq_firstFault, firstFault_eq_none_iff] at h
  simp only [List.forall_mem_cons] at h
  obtain ⟨hfar, hclash, -⟩ := h
  refine ⟨fun a ha => ?_, (collisions_eq_nil_iff _ _).mp (List.eq_nil_iff_forall_not_mem.mpr fun ab hab => ?_)⟩
  · have hin := List.filter_eq_nil_iff.mp hfar a ha
    simp only [Access.outside, Bool.or_eq_true, decide_eq_true_eq] at hin
    omega
  · exact List.cons_ne_nil _ _ (List.flatMap_eq_nil_iff.mp hclash ab hab)

end Sys2Proof.Machine

namespace Sys2Proof.Settled
open Sys2Proof Sys2Proof.Machine

theorem scratchpadFaultOrder : Claims.ScratchpadFaultOrder := by
  intro t mode accs f salt far clash kept bad missed
  have hkinds : t.spadFault mode accs = firstFault
      [(St.SPD_ADDR_RANGE, fun _ => 0, far), (St.SPD_BANK_COLLISION, fun a => a.bank salt, clash),
       (St.SPD_WRITE_PROTECT, fun a => a.bank salt, kept), (St.SPD_ECC_UNCORR, fun a => a.bank salt, bad),
       (St.SPD_TALLY_MISS, fun a => a.bank salt, missed)] := spadFault_eq_firstFault t mode accs
  rw [hkinds]
  refine ⟨?none, fun h => ⟨?range, ?collision, ?protect, ?uncorrectable, ?miss⟩⟩
  case none => simp only [firstFault_eq_none_iff, List.forall_mem_cons, List.not_mem_nil, false_imp_iff, implies_true, and_true]
  case range => exact fun hne => firstFault_lowestOf hne h
  case collision =>
    intro hfar hne
    rw [hfar, firstFault_cons_nil] at h
    exact firstFault_lowestOf hne h
  case protect =>
    intro hfar hclash hne
    rw [hfar, hclash, firstFault_cons_nil, firstFault_cons_nil] at h
    exact firstFault_lowestOf hne h
  case uncorrectable =>
    intro hfar hclash hkept hne
    rw [hfar, hclash, hkept, firstFault_cons_nil, firstFault_cons_nil, firstFault_cons_nil] at h
    exact firstFault_lowestOf hne h
  case miss =>
    intro hfar hclash hkept hbad
    rw [hfar, hclash, hkept, hbad, firstFault_cons_nil, firstFault_cons_nil, firstFault_cons_nil, firstFault_cons_nil] at h
    have hne : missed ≠ [] := fun hmissed => by rw [hmissed, firstFault_cons_nil] at h; cases h
    exact firstFault_lowestOf hne h

end Sys2Proof.Settled
end

section
/-!
What a beat's accesses write (R117, R130, R169): maps that take a list of values one after the other, and the scratchpad and the tally bits
as such maps.
-/
namespace Sys2Proof

section
variable {α : Type} [DecidableEq α] {d : α} {m : SMap α} {l : List (Nat × α)}

/-- The map with a list of keys and values set one after the other. -/
def smapSetAll (d : α) (m : SMap α) (l : List (Nat × α)) : SMap α := l.foldl (fun m x => smapSet d m x.1 x.2) m

theorem smapSetAll_append (l l' : List (Nat × α)) : smapSetAll d m (l ++ l') = smapSetAll d (smapSetAll d m l) l' := List.foldl_append

theorem smapGet_setAll_other (h : smapWf d m = true) {n : Nat} (hn : ∀ x ∈ l, x.1 ≠ n) :
    smapGet d (smapSetAll d m l) n = smapGet d m n := by
  induction l generalizing m with
  | nil => rfl
  | cons x l ih =>
    obtain ⟨hx, hl⟩ := List.forall_mem_cons.mp hn
    exact (ih (smapWf_set d m _ _ h) hl).trans ((smapGet_set d m _ _ _ h).trans (if_neg (Ne.symm hx)))

/-- A key that takes one value alone holds it. -/
theorem smapGet_setAll_same (h : smapWf d m = true) {x : Nat × α} (hx : x ∈ l) (hone : ∀ y ∈ l, y.1 = x.1 → y = x) :
    smapGet d (smapSetAll d m l) x.1 = x.2 := by
  induction l generalizing m with
  | nil => exact absurd hx List.not_mem_nil
  | cons y l ih =>
    obtain ⟨hy, hl⟩ := List.forall_mem_cons.mp hone
    by_cases hmem : x ∈ l
    · exact ih (smapWf_set d m _ _ h) hmem hl
    · obtain rfl : x = y := (List.mem_cons.mp hx).resolve_right hmem
      have hlater : ∀ z ∈ l, z.1 ≠ x.1 := fun z hz e => hmem (hl z hz e ▸ hz)
      exact (smapGet_setAll_other (smapWf_set d m _ _ h) hlater).trans ((smapGet_set d m _ _ _ h).trans (if_pos rfl))

end

end Sys2Proof

namespace Sys2Proof.Machine

/-! ### One access -/

/-- What a beat's units leave alone of a tile: its scratchpad with SALT and tally bits, the counts of its ports, and the run it is to start. -/
structure Shelf where
  spad   : SMap Byte
  tally  : SMap Bool
  salt   : BitVec 5
  orphan : BitVec 16
  empty  : BitVec 16
  starts : Option (Nat × Nat)

def Tile.shelf (t : Tile) : Shelf := ⟨t.spad, t.tally, t.salt, t.orphan, t.empty, t.starts⟩

/-- The tally bits that a list of accesses sets and clears, by physical line. -/
def tallied (salt : Nat) (accs : List Access) : List (Nat × Bool) :=
  (accs.filter fun a => a.write || a.clear).map fun a => (a.phys salt, !a.clear)

/-- A shelf with the bytes and the tally bits of a list of accesses written. -/
def Shelf.apply (x : Shelf) (accs : List Access) : Shelf :=
  { x with spad := smapSetAll 0 x.spad (Claims.written x.salt.toNat accs), tally := smapSetAll false x.tally (tallied x.salt.toNat accs) }

theorem setBytes_eq (t : Tile) (mode addr : Nat) (data : List (Nat × Byte)) :
    data.foldl (fun t ob => t.setByte mode (addr + ob.1) ob.2) t =
      { t with spad := smapSetAll 0 t.spad (data.map fun ob => (physByte (addr + ob.1) mode t.salt.toNat, ob.2)) } := by
  induction data generalizing t with
  | nil => rfl
  | cons ob data ih => exact ih _

/-- The part of a beat's effect that is one access's. -/
def Tile.applyAccess (t : Tile) (a : Access) : Tile :=
  if a.clear then t.setTally a.mode a.addr.toNat false
  else if a.write then t.writeLine a.mode a.addr.toNat a.data
  else t

theorem applyAccesses_cons (t : Tile) (a : Access) (accs : List Access) :
    t.applyAccesses (a :: accs) = (t.applyAccess a).applyAccesses accs := rfl

theorem shelf_applyAccess (t : Tile) (a : Access) : (t.applyAccess a).shelf = t.shelf.apply [a] := by
  unfold Tile.applyAccess
  cases hc : a.clear with
  | true => simp [Shelf.apply, Tile.shelf, Claims.written, tallied, smapSetAll, Tile.setTally, hc]; rfl
  | false =>
    cases hw : a.write with
    | true =>
      simp [Shelf.apply, Tile.shelf, Claims.written, tallied, Tile.setTally, Tile.writeLine, setBytes_eq, hc, hw]; rfl
    | false => simp [Shelf.apply, Tile.shelf, Claims.written, tallied, smapSetAll, hc, hw]

theorem apply_cons (x : Shelf) (a : Access) (accs : List Access) : x.apply (a :: accs) = (x.apply [a]).apply accs := by
  have hwritten (salt : Nat) : Claims.written salt (a :: accs) = Claims.written salt [a] ++ Claims.written salt accs := by
    rw [← List.singleton_append, Claims.written, List.filter_append, List.flatMap_append]; rfl
  have htallied (salt : Nat) : tallied salt (a :: accs) = tallied salt [a] ++ tallied salt accs := by
    rw [← List.singleton_append, tallied, List.filter_append, List.map_append]; rfl
  simp only [Shelf.apply, hwritten, htallied, smapSetAll_append]

/-- A beat's accesses change the scratchpad and the tally bits alone. -/
theorem shelf_applyAccesses (t : Tile) (accs : List Access) : (t.applyAccesses accs).shelf = t.shelf.apply accs := by
  induction accs generalizing t with
  | nil => rfl
  | cons a accs ih => rw [applyAccesses_cons, ih, shelf_applyAccess, ← apply_cons]

/-! ### Lines apart -/

theorem bankOf_lt (addr mode salt : Nat) : bankOf addr mode salt < 32 := by
  unfold bankOf
  extract_lets l0 t p f
  have hl0 : l0 < 2 ^ 5 := Nat.mod_lt _ (by decide)
  have ht : t < 1024 := Nat.mod_lt _ (by decide)
  have hp : p < 1024 := Nat.mod_lt _ (by decide)
  have hf : f < 2 ^ 5 := Nat.mod_lt _ (by decide)
  split
  · exact hl0
  · exact Nat.xor_lt_two_pow (Nat.xor_lt_two_pow hl0 (by omega)) (by omega)
  · refine Nat.xor_lt_two_pow hl0 ?_
    split
    · exact Nat.xor_lt_two_pow hf (by omega)
    · exact hf

/-- A line's number tells its bank (R110). -/
theorem bank_of_phys {salt : Nat} {a b : Access} (h : a.phys salt = b.phys salt) : a.bank salt = b.bank salt := by
  have ha := bankOf_lt a.addr.toNat a.mode salt
  have hb := bankOf_lt b.addr.toNat b.mode salt
  simp only [Access.phys, physLine] at h
  simp only [Access.bank]
  omega

/-- Accesses in banks of their own are at lines of their own. -/
theorem eq_of_phys {salt : Nat} {accs : List Access} (h : (accs.map fun a => a.bank salt).Nodup) {a b : Access} (ha : a ∈ accs)
    (hb : b ∈ accs) (hab : a.phys salt = b.phys salt) : a = b :=
  List.inj_on_of_nodup_map h ha hb (bank_of_phys hab)

section
variable {x : Shelf} {accs : List Access} {a : Access}

theorem mem_tallied (ha : a ∈ accs) (h : (a.write || a.clear) = true) : (a.phys x.salt.toNat, !a.clear) ∈ tallied x.salt.toNat accs :=
  List.mem_map.mpr ⟨a, List.mem_filter.mpr ⟨ha, h⟩, rfl⟩

/-- The tally bit of an accessed line is 0 after a clear, and 1 after a write. -/
theorem tally_apply_of_mem (hwf : smapWf false x.tally = true) (hbanks : (accs.map fun a => a.bank x.salt.toNat).Nodup) (ha : a ∈ accs)
    (h : (a.write || a.clear) = true) : smapGet false (x.apply accs).tally (a.phys x.salt.toNat) = !a.clear := by
  refine smapGet_setAll_same hwf (mem_tallied ha h) fun y hy hkey => ?_
  obtain ⟨b, hb, rfl⟩ := List.mem_map.mp hy
  rw [eq_of_phys hbanks (List.mem_of_mem_filter hb) ha hkey]

theorem tally_apply_of_not_mem (hwf : smapWf false x.tally = true) {n : Nat}
    (hn : ∀ a ∈ accs, a.write = true ∨ a.clear = true → a.phys x.salt.toNat ≠ n) :
    smapGet false (x.apply accs).tally n = smapGet false x.tally n := by
  refine smapGet_setAll_other hwf fun y hy => ?_
  obtain ⟨a, ha, rfl⟩ := List.mem_map.mp hy
  obtain ⟨hmem, hwrites⟩ := List.mem_filter.mp ha
  exact hn a hmem (Bool.or_eq_true_iff.mp hwrites)

end

end Sys2Proof.Machine
end

section
/-!
What a completed beat leaves on the shelf (R43, R117, R130): the accesses' writes and the counts of the ports, and nothing of the units'.
-/
namespace Sys2Proof.Machine

section
variable (t pre : Tile) (j : Job) (b : Nat)

theorem shelf_ite {c : Prop} [Decidable c] {t u : Tile} (h : u.shelf = t.shelf) : (if c then u else t).shelf = t.shelf := by
  rw [apply_ite Tile.shelf, h, ite_self]

@[simp] theorem shelf_rwAdd (tag : Nat) (c : RwCount) : (t.rwAdd tag c).shelf = t.shelf := by
  unfold Tile.rwAdd; extract_lets; split <;> rfl

@[simp] theorem shelf_readRecords : t.readRecords.1.shelf = t.shelf := by
  refine foldl_keeps (fun acc : Tile × List (Status × Nat × Nat) => acc.1.shelf) (fun acc kv => ?_) t.shadows (t, [])
  dsimp only
  repeat' split
  all_goals rfl

/-! ### The matrix and the vector unit -/

@[simp] theorem shelf_mxAdd (x : Nat × Nat × Nat) : (t.mxAdd j x).shelf = t.shelf := by
  refine foldl_keeps Tile.shelf (fun t a => ?_) _ t
  dsimp only
  split
  · exact shelf_rwAdd ..
  · rfl

@[simp] theorem shelf_mxApplyC (x : Nat) : (t.mxApplyC j x).shelf = t.shelf := by
  refine foldl_keeps Tile.shelf (fun t a => foldl_keeps Tile.shelf (fun t n => ?_) _ t) _ t
  dsimp only
  repeat' split
  all_goals first | rfl | exact shelf_rwAdd ..

@[simp] theorem shelf_mxCells : (t.mxCells j b).shelf = t.shelf := by
  have hload (t : Tile) (p : Nat) (yx : Nat × Nat) : (t.loadCell j p yx).shelf = t.shelf := by
    unfold Tile.loadCell
    split
    · rfl
    · exact foldl_keeps Tile.shelf (fun t a => by rfl) _ t
  have hswap (t : Tile) (yx : Nat × Nat) : (t.swapCell j yx).shelf = t.shelf :=
    foldl_keeps Tile.shelf (fun t a => by rfl) _ t
  unfold Tile.mxCells
  extract_lets c e0 q
  split
  · rfl
  · refine foldl_keeps Tile.shelf (fun t p => ?_) _ t
    exact (foldl_keeps Tile.shelf (fun t yx => hload t p yx) _ _).trans (shelf_ite (foldl_keeps Tile.shelf hswap _ t))

@[simp] theorem shelf_mxReadout : (t.mxReadout j b).1.shelf = t.shelf := by
  unfold Tile.mxReadout
  extract_lets
  split
  · rfl
  · exact foldl_keeps (fun acc : Tile × Job => acc.1.shelf) (fun acc a => shelf_rwAdd ..) _ (t, j)

@[simp] theorem shelf_mxBeat : (t.mxBeat pre j b).1.shelf = t.shelf := by
  unfold Tile.mxBeat
  extract_lets c j e0 read staged r passed streamed applied
  have hread : read.shelf = t.shelf := by
    unfold read
    split
    · exact foldl_keeps Tile.shelf (fun t a => shelf_rwAdd ..) _ t
    · rfl
  have hstaged : staged.shelf = t.shelf := (shelf_ite (shelf_rwAdd ..)).trans hread
  have hstreamed : streamed.shelf = t.shelf := by
    have hpassed : passed.shelf = staged.shelf := by unfold passed; split <;> rfl
    refine (shelf_ite ((shelf_ite ?_).trans hpassed)).trans hstaged
    rfl
  have happlied : applied.shelf = t.shelf := (shelf_ite (shelf_mxApplyC ..)).trans hstreamed
  refine (shelf_mxReadout ..).trans ((foldl_keeps Tile.shelf (fun t x => shelf_mxAdd t j x) _ _).trans ?_)
  rw [shelf_mxCells, happlied]

@[simp] theorem shelf_mxUnit : (t.mxUnit pre b).shelf = t.shelf :=
  foldl_keeps (fun acc : Tile × List Job => acc.1.shelf) (fun acc j => shelf_mxBeat acc.1 pre j b) pre.mxJobs (t, [])

@[simp] theorem shelf_vxUnit : (t.vxUnit pre b).shelf = t.shelf := by
  refine foldl_keeps (fun acc : Tile × List Job => acc.1.shelf) (fun acc j => ?_) pre.vxJobs (t, [])
  change (acc.1.vxBeat pre j b).1.shelf = acc.1.shelf
  unfold Tile.vxBeat
  extract_lets
  split
  · exact shelf_rwAdd ..
  · exact (shelf_rwAdd ..).trans (shelf_rwAdd ..)

/-! ### The whole beat of the tile -/

@[simp] theorem shelf_applyOverlays : (t.applyOverlays pre b).shelf = t.shelf := by
  have h : (t.overlaid pre b).shelf = t.shelf :=
    foldl_keeps Tile.shelf (fun t o => by simp only [Tile.shelf, Tile.writeSlot]) _ t
  exact h

@[simp] theorem shelf_applyEarly : (t.applyEarly pre b).shelf = t.shelf := by
  unfold Tile.applyEarly
  extract_lets look chunk index
  have hchunk : chunk.shelf = t.shelf := by unfold chunk; split <;> rfl
  have hindex : index.shelf = chunk.shelf := by unfold index; split <;> rfl
  refine (foldl_keeps Tile.shelf (fun t ja => ?_) _ _).trans (hindex.trans hchunk)
  split <;> rfl

theorem shelf_mvUnit : (t.mvUnit pre b).shelf = t.shelf := rfl
theorem shelf_dnUnit : (t.dnUnit pre b).shelf = t.shelf := rfl
theorem shelf_stkUnit : (t.stkUnit pre b).shelf = t.shelf := rfl

/-- Of a beat's parts the accesses alone change the shelf. -/
theorem shelf_beatEffect (mode : BitVec 2) : (pre.beatEffect mode b).shelf = pre.shelf.apply (pre.accesses b) := by
  unfold Tile.beatEffect
  extract_lets accs written misses counted recorded mx vx mv dn
  have hcounted : counted.shelf = pre.shelf.apply accs := shelf_applyAccesses pre accs
  rw [shelf_applyOverlays, shelf_applyEarly, shelf_stkUnit, shelf_dnUnit, shelf_mvUnit, shelf_vxUnit, shelf_mxUnit, shelf_readRecords,
    hcounted]

theorem beginAt_of_no_start {t : Tile} (h : t.starts = none) : t.beginAt = t := by simp only [Tile.beginAt, h]

/-- The start of a run leaves the scratchpad and its tally bits. -/
theorem beginAt_memory (t : Tile) : t.beginAt.spad = t.spad ∧ t.beginAt.tally = t.tally := by
  unfold Tile.beginAt
  split
  · split <;> exact ⟨rfl, rfl⟩
  · exact ⟨rfl, rfl⟩

end

/-! ### The package around the tile -/

/-- The shelf of every tile. -/
def State.shelves (s : State) : Nat → Shelf := fun k => (s.tile k).shelf

section
variable (s : State)

theorem shelves_of_tiles {s u : State} (h : s.tiles = u.tiles) : s.shelves = u.shelves := by
  funext k
  simp only [State.shelves, State.tile, h]

theorem shelves_modTile {k : Nat} {f : Tile → Tile} (h : ∀ t, (f t).shelf = t.shelf) : (s.modTile k f).shelves = s.shelves := by
  funext n
  rw [State.shelves, State.modTile_tile_at]
  split
  · next e => rw [h, e]; rfl
  · rfl

@[simp] theorem tiles_readUpset (st gid off : Nat) (data : List Byte) (late : Bool) :
    (s.readUpset st gid off data late).1.tiles = s.tiles := by
  have hcount (r : PortRead) : (s.countRead gid off r).tiles = s.tiles := by
    unfold State.countRead
    extract_lets u
    have hu : u.tiles = s.tiles := by unfold u; split <;> rfl
    split <;> exact hu
  unfold State.readUpset
  extract_lets
  split
  · exact hcount _
  · dsimp only
    split
    · exact (tiles_stkCorrected ..).trans (hcount _)
    · exact hcount _

@[simp] theorem tiles_burstWrite (k b p port gid off : Nat) (data : List Byte) :
    (s.burstWrite k b p port gid off data).tiles = s.tiles := by
  unfold State.burstWrite
  extract_lets old races keep drawn u
  have hdrawn : drawn.tiles = s.tiles := by unfold drawn; split <;> rfl
  have hu : u.tiles = drawn.tiles := by unfold u; split <;> rfl
  exact hu.trans hdrawn

@[simp] theorem shelves_stkCommand (k p : Nat) (j : Job) (i b : Nat) (line : List Byte) :
    (s.stkCommand k p j i b line).shelves = s.shelves := by
  unfold State.stkCommand
  extract_lets port due mk land u
  have hland : ∀ s l, (land s l).shelves = s.shelves := fun s l => shelves_modTile s fun _ => rfl
  split
  · have hu : u.shelves = s.shelves := by
      unfold u
      split
      · exact shelves_modTile s fun _ => rfl
      · rfl
    split
    · exact hu
    · exact (hland ..).trans hu
  · split
    · rfl
    · next gid off _ =>
      split
      · exact shelves_modTile s fun _ => rfl
      · split
        · exact shelves_of_tiles (tiles_burstWrite ..)
        · have hread : (s.burstData k b port gid off).1.tiles = s.tiles := by
            unfold State.burstData
            extract_lets
            split <;> rfl
          generalize s.burstData k b port gid off = r at hread ⊢
          obtain ⟨read, data⟩ := r
          dsimp only
          have hupset := tiles_readUpset read port gid off data
            (decide (stkLatOf j.words < (Config.stkLat port (keyVx k) (keyVy k)).toNat))
          generalize read.readUpset port gid off data _ = r at hupset ⊢
          obtain ⟨upset, landed, arr⟩ := r
          exact (hland ..).trans (shelves_of_tiles (hupset.trans hread))

@[simp] theorem shelves_stackCommands (k p b : Nat) (pre : Tile) : (s.stackCommands k p b pre).shelves = s.shelves := by
  refine foldl_keeps State.shelves (fun s j => ?_) _ s
  split
  · split
    · rfl
    · exact shelves_stkCommand ..
  · rfl

@[simp] theorem shelves_sendTokens (k b : Nat) (pre : Tile) : (s.sendTokens k b pre).shelves = s.shelves := by
  have htoken (s : State) (d : Dir) (bs : List Byte) : (s.sendToken k d b bs).shelves = s.shelves := by
    unfold State.sendToken
    split
    · rfl
    · exact shelves_modTile s fun _ => rfl
  refine foldl_keeps State.shelves (fun s dj => ?_) _ s
  split
  · exact (htoken ..).trans (shelves_modTile s fun _ => rfl)
  · rfl

@[simp] theorem shelves_haltTile (k p b : Nat) : (s.haltTile k p b).shelves = s.shelves := by
  have hflush (s : State) : (s.rwFlush k p).shelves = s.shelves := by
    unfold State.rwFlush
    extract_lets rw
    refine Eq.trans (shelves_modTile _ fun _ => ?_) ?_
    · rfl
    split <;> rfl
  unfold State.haltTile
  extract_lets t halted flushed
  split
  · exact (shelves_of_tiles (State.send_tiles ..)).trans ((hflush _).trans (shelves_modTile s fun _ => by rfl))
  · rfl

@[simp] theorem shelves_countCorrected (k n : Nat) : (s.countCorrected k n).shelves = s.shelves := by
  unfold State.countCorrected
  split
  · rfl
  · extract_lets old new u
    have hu : u.shelves = s.shelves := shelves_modTile s fun _ => rfl
    split
    · split <;> exact hu
    · exact hu

theorem shelves_beginRun (p : Nat) : (s.beginRun p).shelves = s.shelves := rfl
theorem shelves_noteHolds (p : Nat) : (s.noteHolds p).shelves = s.shelves := rfl

/-- A shelf after a beat: the accesses' writes, and the orphans and empty slots of its ports counted. -/
def Shelf.afterBeat (x : Shelf) (accs : List Access) (orphans empties : Nat) : Shelf :=
  { x.apply accs with orphan := satAdd x.orphan orphans, empty := satAdd x.empty empties }

theorem shelf_counted {t : Tile} {x : Shelf} {accs : List Access} (h : t.shelf = x.apply accs) (orphans empties : Nat) :
    ({ t with orphan := satAdd t.orphan orphans, empty := satAdd t.empty empties } : Tile).shelf = x.afterBeat accs orphans empties := by
  have horphan : t.orphan = x.orphan := congrArg Shelf.orphan h
  have hempty : t.empty = x.empty := congrArg Shelf.empty h
  rw [horphan, hempty]
  exact congrArg (fun y : Shelf => { y with orphan := satAdd x.orphan orphans, empty := satAdd x.empty empties }) h

/-- The tile after a completed beat: its shelf is the beat's, and then a run may start. -/
theorem completeBeat_shelf (k p b : Nat) : ∃ t : Tile,
    t.shelf = (s.tile k).shelf.afterBeat ((s.tile k).accesses b) (s.portFaults k p b).2.1 (s.portFaults k p b).2.2 ∧
    ((s.completeBeat k p b).tile k).shelf = t.beginAt.shelf := by
  unfold State.completeBeat
  extract_lets pre mode accounted effect
  generalize s.portFaults k p b = faults
  obtain ⟨-, orphans, empties⟩ := faults
  dsimp -zeta only
  extract_lets counted commanded sent halted closed corrected began
  have hcounted : (counted.tile k).shelf = pre.shelf.afterBeat (pre.accesses b) orphans empties := by
    have heffect : (effect.tile k).shelf = pre.shelf.apply (pre.accesses b) :=
      (congrArg Tile.shelf (State.putTile_tile_same ..)).trans (shelf_beatEffect pre b mode)
    exact (congrArg Tile.shelf (State.modTile_tile_same ..)).trans (shelf_counted heffect orphans empties)
  have hhalted : halted.shelves = counted.shelves := by rw [shelves_haltTile, shelves_sendTokens, shelves_stackCommands]
  refine ⟨{ halted.tile k with
    beat := b + 1, gateOpen := false, doneTime := halted.now, ctrsPrev := (halted.tile k).ctrs, holdEnd := none }, ?_, ?_⟩
  · exact (congrFun hhalted k).trans hcounted
  · have hbegan : began.shelves = corrected.shelves := by
      unfold began
      split
      · exact shelves_beginRun ..
      · rfl
    calc ((began.noteHolds p).tile k).shelf = began.shelves k := congrFun (shelves_noteHolds began p) k
      _ = closed.shelves k := by rw [hbegan, shelves_countCorrected]
      _ = _ := congrArg Tile.shelf (State.modTile_tile_same halted k _)

end

/-- The scratchpad and the tally bits of a tile whose beat completes. -/
theorem beatDone_memory (s : State) (k p : Nat) :
    ((Claims.beatDone s k p).tile k).spad = ((s.tile k).shelf.apply ((s.tile k).accesses (s.tile k).beat)).spad ∧
    ((Claims.beatDone s k p).tile k).tally = ((s.tile k).shelf.apply ((s.tile k).accesses (s.tile k).beat)).tally := by
  obtain ⟨t, ht, hdone⟩ := completeBeat_shelf s k p (s.tile k).beat
  obtain ⟨hspad, htally⟩ := beginAt_memory t
  rw [Claims.beatDone, checkLength_tile]
  exact ⟨(congrArg Shelf.spad hdone).trans (hspad.trans (congrArg Shelf.spad ht)),
    (congrArg Shelf.tally hdone).trans (htally.trans (congrArg Shelf.tally ht))⟩

/-- The counts of the ports of a tile that completes a beat with no run to start. -/
theorem beatDone_counts (s : State) (k p : Nat) (h : (s.tile k).starts = none) :
    ((Claims.beatDone s k p).tile k).orphan = satAdd (s.tile k).orphan (s.portFaults k p (s.tile k).beat).2.1 ∧
    ((Claims.beatDone s k p).tile k).empty = satAdd (s.tile k).empty (s.portFaults k p (s.tile k).beat).2.2 := by
  obtain ⟨t, ht, hdone⟩ := completeBeat_shelf s k p (s.tile k).beat
  rw [beginAt_of_no_start ((congrArg Shelf.starts ht).trans h), ht] at hdone
  rw [Claims.beatDone, checkLength_tile]
  exact ⟨congrArg Shelf.orphan hdone, congrArg Shelf.empty hdone⟩

/-- A beat without faults has no scratchpad fault. -/
theorem spadFault_of_no_fault {s : State} {k p b : Nat} (h : s.beatFaults k p b = []) :
    (s.tile k).spadFault (s.pasture p).tallyMode ((s.tile k).accesses b) = none := by
  simp only [State.beatFaults, List.append_eq_nil_iff] at h
  cases hf : (s.tile k).spadFault (s.pasture p).tallyMode ((s.tile k).accesses b) with
  | none => rfl
  | some f => simp [hf] at h

end Sys2Proof.Machine

namespace Sys2Proof.Settled
open Sys2Proof Sys2Proof.Machine

/-- Settles O57: the accesses have no fault, so each has a line of its own, and nothing else of the beat changes what they write. -/
theorem scratchpadOfABeat : Obligations.ScratchpadOfABeat := by
  intro vx vy s p h k t salt accs hspad htally
  obtain ⟨hrange, hbanks⟩ := apart_of_spadFault_none (spadFault_of_no_fault (beatReady_faults h))
  obtain ⟨hspad', htally'⟩ := beatDone_memory s k p
  refine ⟨_, tryBeat_completes h, hrange, hbanks, fun x hx hone => ?_, fun n hn => ?_, fun a ha hc => ?_, fun a ha hw hc => ?_,
    fun n hn => ?_⟩
  · rw [hspad']
    exact smapGet_setAll_same hspad hx hone
  · rw [hspad']
    exact smapGet_setAll_other hspad hn
  · rw [htally']
    exact (tally_apply_of_mem (x := t.shelf) htally hbanks ha (by rw [hc, Bool.or_true])).trans (by rw [hc]; rfl)
  · rw [htally']
    exact (tally_apply_of_mem (x := t.shelf) htally hbanks ha (by rw [hw, Bool.true_or])).trans (by rw [hc]; rfl)
  · rw [htally']
    exact tally_apply_of_not_mem htally hn

end Sys2Proof.Settled
end

section
/-!
The stop of a pasture (R393, R431, R432): what the reports of its failed runs leave alone, and the runs that it ends.
-/
namespace Sys2Proof.Machine

section
variable (s : State) (p : Nat)

/-- What a stop is about in a pasture: the stop, its time, whether the host asked for it, and the runs it ends. -/
structure Stop where
  stopped   : Bool
  beating   : Bool
  time      : Nat
  unplanned : Bool
  runs      : List Run

def Pasture.stop (x : Pasture) : Stop := ⟨x.stopped, x.beating, x.stopTime, x.unplanned, x.runs⟩

/-- What the reports of pasture p's failed runs leave alone: ALERT with the rest of its block, the pasture's stop and its runs, and the other
pastures. -/
structure BesideReports where
  rel    : Reliability
  stop   : Stop
  others : Nat → Pasture

def State.besideReports : BesideReports :=
  ⟨s.rel, (s.pasture p).stop, fun q => if q = p then {} else s.pasture q⟩

theorem besideReports_draw : s.draw.2.besideReports p = s.besideReports p := rfl

theorem besideReports_modPas {f : Pasture → Pasture} (hf : (f (s.pasture p)).stop = (s.pasture p).stop) :
    (s.modPas p f).besideReports p = s.besideReports p := by
  have hothers : (fun q => if q = p then ({} : Pasture) else (s.modPas p f).pasture q) = fun q => if q = p then {} else s.pasture q :=
    funext fun q => ite_congr rfl (fun _ => rfl) (State.modPas_pasture_other _ _ _ _)
  simp only [State.besideReports, State.modPas_pasture_same, hf, hothers, State.modPas_rel]

theorem besideReports_modFn (n : Nat) (f : Fn → Fn) : (s.modFn n f).besideReports p = s.besideReports p := rfl
theorem besideReports_writeHost (a : Nat) (bs : List Byte) : (s.writeHost a bs).besideReports p = s.besideReports p := rfl

theorem besideReports_complete (fn : Nat) (c : Completion) : (s.complete fn c).besideReports p = s.besideReports p := by
  unfold State.complete State.writeCompletion
  extract_lets
  split
  · rw [State.signal, besideReports_modFn, besideReports_modFn]
    exact besideReports_writeHost ..
  · rw [besideReports_modFn]

theorem besideReports_writeStamp (r : Run) (valid : Bool) (beats : Nat) (d : Digest) :
    (s.writeStamp p r valid beats d).besideReports p = s.besideReports p := by
  unfold State.writeStamp
  extract_lets
  refine (besideReports_modPas _ p ?_).trans (besideReports_writeHost ..)
  simp only [Pasture.stop]

/-- The state in which the completion of a failed run is formed: its stamp is written invalid. -/
def State.stampFailed (r : Run) : State :=
  (s.draw.2.writeStamp p r false (match r.haltMax with | some h => h - r.first | none => s.draw.1) 0).draw.2

/-- A failed run's completion, with a free value for the BEATS that no halt gives. -/
theorem failRun_completes (r : Run) (cause : Status) : ∃ n, s.failRun p r cause =
    ((s.stampFailed p r).modPas p fun x => { x with storeDue := true }).complete r.id.fn
      (r.completion p ((s.stampFailed p r).pasture p) St.HOST_RUN_FAILED cause n) := ⟨_, rfl⟩

theorem besideReports_failRun (r : Run) (cause : Status) : (s.failRun p r cause).besideReports p = s.besideReports p := by
  obtain ⟨n, h⟩ := failRun_completes s p r cause
  rw [h, besideReports_complete]
  refine (besideReports_modPas _ p rfl).trans ?_
  rw [State.stampFailed, besideReports_draw, besideReports_writeStamp, besideReports_draw]

end

section
variable (s : State) (p : Nat) (cause queued : Status)

/-- What becomes of a run as its pasture stops. -/
def State.stopRun (r : Run) : State :=
  match r.stage with
  | .recorded | .held => s
  | .running => s.failRun p r cause
  | .queued | .ingressed => s.failRun p r queued

theorem failRuns_eq : s.failRuns p cause queued =
    ((s.pasture p).runs.foldl (fun s r => s.stopRun p cause queued r) s).modPas p fun x =>
      { x with runs := x.runs.filter fun r => decide (r.stage = .recorded) || decide (r.stage = .held) } := rfl

theorem besideReports_stopRuns (rs : List Run) :
    (rs.foldl (fun s r => s.stopRun p cause queued r) s).besideReports p = s.besideReports p := by
  refine foldl_keeps (State.besideReports · p) (fun s r => ?_) rs s
  unfold State.stopRun
  split
  · rfl
  · rfl
  · exact besideReports_failRun ..
  · exact besideReports_failRun ..
  · exact besideReports_failRun ..

/-- The state in which a pasture has just stopped on a fault, before its runs fail. -/
def State.stoppedAt : State :=
  ((s.endStall p).modPas p fun x =>
    { x with stopped := true, beating := false, stopTime := s.now, unplanned := true, faultStop := true }).alert 0

theorem stopPasture_of_stopped (h : (s.pasture p).stopped = true) : s.stopPasture p cause = s := if_pos h

theorem stopPasture_of_live (h : (s.pasture p).stopped = false) :
    s.stopPasture p cause = (s.stoppedAt p).failRuns p cause St.HOST_PASTURE_STOPPED := if_neg (Bool.eq_false_iff.mp h)

theorem alert_pasture (bit q : Nat) : (s.alert bit).pasture q = s.pasture q := rfl

theorem stoppedAt_other {q : Nat} (h : q ≠ p) : (s.stoppedAt p).pasture q = s.pasture q := by
  rw [State.stoppedAt, alert_pasture, State.modPas_pasture_other _ _ _ _ h, State.endStall, State.modPas_pasture_other _ _ _ _ h]

theorem stoppedAt_stop : ((s.stoppedAt p).pasture p).stop = ⟨true, false, s.now, true, (s.pasture p).runs⟩ := by
  rw [State.stoppedAt, alert_pasture, State.modPas_pasture_same, Pasture.stop, State.endStall, State.modPas_pasture_same]

/-- A stop but for the reports of the runs it ends. -/
theorem stopPasture_reports (h : (s.pasture p).stopped = false) : ∃ u : State,
    s.stopPasture p cause = u.modPas p (fun x =>
      { x with runs := x.runs.filter fun r => decide (r.stage = .recorded) || decide (r.stage = .held) }) ∧
    u.besideReports p = (s.stoppedAt p).besideReports p :=
  ⟨_, (stopPasture_of_live s p cause h).trans (failRuns_eq ..), besideReports_stopRuns ..⟩

end

/-- A change of a pasture is what it makes of that pasture. -/
theorem modPas_congr {s : State} {p : Nat} {f g : Pasture → Pasture} (h : f (s.pasture p) = g (s.pasture p)) : s.modPas p f = s.modPas p g :=
  congrArg (s.putPas p) h

/-- A stop with the first run under way and the others behind it ends them all: the first with the stop's cause. -/
theorem failRuns_of_running {s : State} {p : Nat} {r : Run} {rest : List Run} (cause queued : Status) (hruns : (s.pasture p).runs = r :: rest)
    (hstage : r.stage = .running) (hrest : ∀ o ∈ rest, o.stage = .queued ∨ o.stage = .ingressed) :
    s.failRuns p cause queued =
      (rest.foldl (fun s o => s.failRun p o queued) (s.failRun p r cause)).modPas p fun x => { x with runs := [] } := by
  have hfails : ((s.pasture p).runs.foldl (fun s r => s.stopRun p cause queued r) s) =
      rest.foldl (fun s o => s.failRun p o queued) (s.failRun p r cause) := by
    rw [hruns, List.foldl_cons, State.stopRun, hstage]
    refine List.foldl_ext _ _ _ fun s o ho => ?_
    rcases hrest o ho with h | h <;> rw [State.stopRun, h]
  have hkept : ((rest.foldl (fun s o => s.failRun p o queued) (s.failRun p r cause)).pasture p).runs = r :: rest :=
    hruns ▸ hfails ▸ congrArg (fun x : BesideReports => x.stop.runs) (besideReports_stopRuns s p cause queued (s.pasture p).runs)
  have hended : ∀ o ∈ r :: rest, ¬(decide (o.stage = .recorded) || decide (o.stage = .held)) = true := by
    refine List.forall_mem_cons.mpr ⟨by rw [hstage]; decide, fun o ho => ?_⟩
    rcases hrest o ho with h | h <;> rw [h] <;> decide
  rw [failRuns_eq, hfails]
  refine modPas_congr ?_
  rw [hkept, List.filter_eq_nil_iff.mpr hended]

end Sys2Proof.Machine

namespace Sys2Proof.Settled
open Sys2Proof Sys2Proof.Machine

theorem stopOfAPasture : Claims.StopOfAPasture := by
  refine ⟨fun s p st => stopPasture_of_stopped s p st, fun s p q st hs => ?_⟩
  obtain ⟨u, hu, hkept⟩ := stopPasture_reports s p st hs
  obtain ⟨hrel, hstop, hothers⟩ := BesideReports.mk.inj hkept
  have hfields := hstop.trans (stoppedAt_stop s p)
  have hother : q ≠ p → u.pasture q = s.pasture q := fun hq => by
    have h := congrFun hothers q
    rwa [if_neg hq, if_neg hq, stoppedAt_other s p hq] at h
  have htiles := stopPasture_tiles s p st
  rw [hu] at htiles ⊢
  rw [State.modPas_pasture_same]
  exact ⟨congrArg Stop.stopped hfields, congrArg Stop.beating hfields, congrArg Stop.time hfields, congrArg Stop.unplanned hfields,
    congrArg Reliability.alert hrel, htiles, fun hq => (State.modPas_pasture_other _ _ _ _ hq).trans (hother hq)⟩

theorem stopsFailTheRuns : Claims.StopsFailTheRuns := by
  intro s p st r rest c phase now opened
  refine ⟨?_, fun hs hruns hstage hrest => ?_, rfl⟩
  · obtain ⟨n, h⟩ := failRun_completes s p r st
    refine ⟨_, n, h.trans (congrArg _ ?_)⟩
    rw [State.modPas_pasture_same]
    rfl
  · rw [stopPasture_of_live s p st hs]
    exact failRuns_of_running _ _ ((congrArg Stop.runs (stoppedAt_stop s p)).trans hruns) hstage hrest

end Sys2Proof.Settled
end

section
/-!
The faults of a beat (R229, R236, R237, R431, R433): where each comes from, and the stop that one of them makes.
-/
namespace Sys2Proof.Machine

section
variable {s : State} {k p b : Nat}

/-- A tile of a running pasture with no descriptor due does its whole beat. -/
theorem tryBeat_runs (hpas : s.pasOf (keyVx k) = some p) (hlive : s.live k = true) (hmay : s.mayComplete k = true)
    (hdue : s.issueDue k = false) : s.tryBeat k = .next (s.runBeat k p) := by
  simp only [State.tryBeat, hpas, hmay, Bool.not_true, Bool.false_eq_true, if_false, whileLive_live hlive, hdue]

/-- The state with the orphans and empty slots of beat b counted. -/
def State.portsCounted (s : State) (k p b : Nat) : State := s.modTile k fun t =>
  { t with orphan := satAdd t.orphan (s.portFaults k p b).2.1, empty := satAdd t.empty (s.portFaults k p b).2.2 }

/-- The state with the faults of beat b recorded, each by its unit. -/
def State.faultsRecorded (s : State) (k p b : Nat) (fs : List BeatFault) : State :=
  fs.foldl (fun s f => s.recordFault k p f) (s.portsCounted k p b)

/-- One of a beat's faults stops the pasture. -/
theorem faultBeat_stops {fs : List BeatFault} (h : fs ≠ []) : ∃ f ∈ fs, s.faultBeat k p b fs =
    ((s.faultsRecorded k p b fs).draw.2).stopTile k f.status := by
  have hlt : (s.faultsRecorded k p b fs).draw.1 % fs.length < fs.length := Nat.mod_lt _ (List.length_pos_iff.mpr h)
  have hdrawn : s.faultBeat k p b fs = match fs[(s.faultsRecorded k p b fs).draw.1 % fs.length]? with
    | some f => ((s.faultsRecorded k p b fs).draw.2).stopTile k f.status
    | none => (s.faultsRecorded k p b fs).draw.2 := rfl
  refine ⟨_, List.getElem_mem hlt, ?_⟩
  rw [hdrawn, List.getElem?_eq_getElem hlt]

theorem runBeat_of_faults {fs : List BeatFault} (h : s.beatFaults k p (s.tile k).beat = fs) (hne : fs ≠ []) :
    s.runBeat k p = s.faultBeat k p (s.tile k).beat fs := by
  obtain ⟨f, fs, rfl⟩ := List.exists_cons_of_ne_nil hne
  simp only [State.runBeat, h]

theorem runBeat_of_no_fault (h : s.beatFaults k p (s.tile k).beat = []) (hself : (s.tile k).selfDue = none) :
    s.runBeat k p = Claims.beatDone s k p := by
  simp only [State.runBeat, h, hself, Claims.beatDone]

/-! ### Where a fault comes from -/

theorem spad_mem_beatFaults {f : SpadFault} (h : (s.tile k).spadFault (s.pasture p).tallyMode ((s.tile k).accesses b) = some f) :
    .spad f ∈ s.beatFaults k p b := by
  simp [State.beatFaults, h]

theorem mem_beatFaults_of_port {f : BeatFault} (h : f ∈ (s.portFaults k p b).1) : f ∈ s.beatFaults k p b :=
  List.mem_append_left _ (List.mem_append_right _ h)

/-- The fault of an event at port d. -/
theorem portFault_of_event {d : Nat} {e : PortEvent} {f : BeatFault} (h : (d, e) ∈ (s.tile k).portEvents b)
    (hf : (e = .parity ∧ f = .dnw St.DNW_LINK_PARITY d) ∨ (e = .size ∧ f = .dnw St.DNW_CHUNK_SIZE d) ∨
      (s.pasture p).strict = true ∧ ((e = .orphan ∧ f = .dnw St.DNW_ORPHAN d) ∨ (e = .empty ∧ f = .dnw St.DNW_EMPTY d))) :
    f ∈ s.beatFaults k p b := by
  refine mem_beatFaults_of_port (List.mem_append_left _ (List.mem_flatMap.mpr ⟨(d, e), h, ?_⟩))
  rcases hf with ⟨rfl, rfl⟩ | ⟨rfl, rfl⟩ | ⟨hstrict, ⟨rfl, rfl⟩ | ⟨rfl, rfl⟩⟩
  · exact List.mem_singleton_self _
  · exact List.mem_singleton_self _
  · simp only [hstrict, if_true, List.mem_singleton]
  · simp only [hstrict, if_true, List.mem_singleton]

theorem dnw_notMem_stackFaults {st : Status} {d : Nat} : .dnw st d ∉ s.stackFaults k p b := by
  simp only [State.stackFaults, List.mem_append, List.mem_map, List.mem_flatMap]
  rintro ((⟨l, -, hland⟩ | ⟨j, -, hj⟩) | ⟨x, -, hbusy⟩)
  · cases hland
  · split at hj
    · cases hj
    · rcases List.mem_append.mp hj with hline | hburst
      · split at hline <;> simp at hline
      · repeat' split at hburst
        all_goals simp at hburst
  · cases hbusy

/-- The data network's faults of a beat are those of its ports. -/
theorem port_of_dnw {st : Status} {d : Nat} (h : .dnw st d ∈ s.beatFaults k p b) : .dnw st d ∈ (s.portFaults k p b).1 := by
  simp only [State.beatFaults, List.mem_append] at h
  obtain (((((hspad | hchunk) | hindex) | hrecord) | hmatrix) | hport) | hstack := h
  · split at hspad <;> simp at hspad
  · simp at hchunk
  · simp at hindex
  · simp at hrecord
  · simp at hmatrix
  · exact hport
  · exact absurd hstack dnw_notMem_stackFaults

/-- Without STRICT a port has two faults: a parity error and a chunk of another size. -/
theorem port_lenient {st : Status} {d : Nat} (hs : (s.pasture p).strict = false) (h : .dnw st d ∈ (s.portFaults k p b).1) :
    st = St.DNW_LINK_PARITY ∨ st = St.DNW_CHUNK_SIZE := by
  simp only [State.portFaults, hs, Bool.false_eq_true, if_false, List.append_nil, List.mem_flatMap] at h
  obtain ⟨⟨n, e⟩, -, he⟩ := h
  cases e <;> simp at he <;> simp [he]

end

end Sys2Proof.Machine

namespace Sys2Proof.Settled
open Sys2Proof Sys2Proof.Machine

theorem faultsOfABeat : Claims.FaultsOfABeat := by
  intro vx vy s p d k t fs ports counts hpas hlive hmay hdue
  have hruns : exec (.beatComplete vx vy) s = .next (s.runBeat k p) :=
    tryBeat_runs (by rw [keyVx_tileKey]; exact hpas) hlive hmay hdue
  refine ⟨fun hne => ?faulty, fun hnil hself hstarts => ?clean, fun f => spad_mem_beatFaults, fun h => ?parity, fun h => ?size,
    fun hs => ⟨fun h => ?orphan, fun h => ?empty⟩, fun hs => ⟨fun h => ?noOrphan, fun h => ?noEmpty⟩, ?orphans⟩
  case faulty =>
    obtain ⟨f, hf, hstop⟩ := faultBeat_stops (s := s) (k := k) (p := p) (b := t.beat) hne
    exact ⟨f, hf, hruns.trans (congrArg _ ((runBeat_of_faults rfl hne).trans hstop))⟩
  case clean =>
    obtain ⟨horphan, hempty⟩ := beatDone_counts s k p hstarts
    exact ⟨_, hruns.trans (congrArg _ (runBeat_of_no_fault hnil hself)), horphan, hempty⟩
  case parity => exact portFault_of_event h (.inl ⟨rfl, rfl⟩)
  case size => exact portFault_of_event h (.inr (.inl ⟨rfl, rfl⟩))
  case orphan => exact portFault_of_event h (.inr (.inr ⟨hs, .inl ⟨rfl, rfl⟩⟩))
  case empty => exact portFault_of_event h (.inr (.inr ⟨hs, .inr ⟨rfl, rfl⟩⟩))
  case noOrphan => exact absurd (port_lenient hs (port_of_dnw h)) (by decide)
  case noEmpty => exact absurd (port_lenient hs (port_of_dnw h)) (by decide)
  case orphans => exact List.countP_eq_length_filter.symm

/-- Settles O9: the faults of a beat by the unit they come from, the scratchpad's by the first kind found, the stop by what its reports leave. -/
theorem faultsStopTheirPasture : Obligations.FaultsStopTheirPasture :=
  ⟨faultsOfABeat, scratchpadFaultOrder, stopOfAPasture, stopsFailTheRuns⟩

end Sys2Proof.Settled
end

section
/-!
A quarantine of a tile in a pasture that is STOPPED and beats all the same (R399, R425): the stop that the quarantine makes leaves a pasture that
is stopped already as it is, and nothing else of it ends the beats.
-/
namespace Sys2Proof.Machine

/-- A grid of one column whose pasture is both stopped and beating. -/
def beatingAfterStop : State :=
  { boot := { everReady := true, gridW := 1 }, pas := [(0, { enable := true, width := 1, stopped := true, beating := true })] }

/-- The premises of the statement hold of tile (0, 0). -/
theorem beatingAfterStop_premises :
    beatingAfterStop.boot.everReady = true ∧ beatingAfterStop.offGrid 0 0 = false ∧
      (beatingAfterStop.tile (tileKey 0 0)).quarantined = false ∧ beatingAfterStop.pasOf 0 = some 0 := by decide +kernel

theorem tileQuarantine_beatingAfterStop :
    exec (.tileQuarantine 0 0) beatingAfterStop = .next (beatingAfterStop.quarantine 0 5) := rfl

/-- The pasture beats on. -/
theorem quarantine_keeps_beating : ((beatingAfterStop.quarantine 0 5).pasture 0).beating = true := by decide +kernel

end Sys2Proof.Machine

namespace Sys2Proof.Settled
open Sys2Proof Sys2Proof.Machine

/-- Refutes O28: a quarantine does not end the beats of a pasture that is stopped already, and no premise excludes one that beats. -/
theorem not_pastureResetAndQuarantine : ¬ Obligations.PastureResetAndQuarantine := by
  rintro ⟨-, hquarantine⟩
  obtain ⟨hready, hgrid, hsound, hpas⟩ := beatingAfterStop_premises
  obtain ⟨t, hexec, -, -, -, hbeating, -⟩ := hquarantine 0 0 beatingAfterStop 0 hready hgrid hsound hpas
  obtain rfl : beatingAfterStop.quarantine 0 5 = t := Host.Outcome.next.inj (tileQuarantine_beatingAfterStop.symm.trans hexec)
  exact Bool.noConfusion (hbeating.symm.trans quarantine_keeps_beating)

end Sys2Proof.Settled
end

section
/-!
The issue of a descriptor (R188, R192, R213, R504): one that passes the checks of its issue does its own effect, one that fails a check stops its
pasture, and one that is predicated off only issues.
-/
namespace Sys2Proof

/-- The second of two values listed under a key replaces the first. -/
@[simp] theorem smapPut_put {α : Type} (m : SMap α) (i : Nat) (v w : α) : smapPut (smapPut m i v) i w = smapPut m i w := by
  induction m with
  | nil => simp [smapPut]
  | cons kv m ih =>
    obtain ⟨k, u⟩ := kv
    rcases Nat.lt_trichotomy i k with h | rfl | h
    · simp [smapPut, h]
    · simp [smapPut]
    · simp [smapPut, h.not_gt, h.ne', ih]

end Sys2Proof

namespace Sys2Proof.Machine

@[simp] theorem putTile_putTile (s : State) (k : Nat) (t u : Tile) : (s.putTile k t).putTile k u = s.putTile k u := by
  simp only [State.putTile, smapPut_put]

/-- A change of a tile just replaced is a change of what replaced it. -/
@[simp] theorem modTile_putTile (s : State) (k : Nat) (t : Tile) (f : Tile → Tile) :
    (s.putTile k t).modTile k f = s.putTile k (f t) := by
  rw [State.modTile, State.putTile_tile_same, putTile_putTile]

section
variable {s : State} {k op : Nat}

theorem issues_iff : Claims.issues s k = true ↔
    s.live k = true ∧ s.issueDue k = true ∧ s.issueFault k (Claims.words s k) = none := by
  simp only [Claims.issues, Bool.and_eq_true, Option.isNone_iff_eq_none, and_assoc]

theorem acting_iff : Claims.acting s k op = true ↔
    Claims.issues s k = true ∧ opOf (Claims.words s k) = op ∧ (s.tile k).acts (Claims.words s k) = true := by
  simp only [Claims.acting, Bool.and_eq_true, decide_eq_true_eq, and_assoc]

/-- The issue leaves what a predicate reads. -/
@[simp] theorem issuedTile_acts (ws : List Word) : (Claims.issuedTile s k).acts ws = (s.tile k).acts ws := rfl

theorem issueTile_words (f : Tile → Tile) :
    s.issueTile k (Claims.words s k) f = s.putTile k (f (Claims.issuedTile s k)) := rfl

section
variable {mine : List Word → Bool} {act : State → List Word → Out} {f : List Word → Tile → Tile}

theorem issueDesc_of_issues (h : Claims.issues s k = true) (hm : mine (Claims.words s k) = true) :
    s.issueDesc k mine act = act s (Claims.words s k) :=
  have ⟨hlive, hdue, hfault⟩ := issues_iff.mp h
  issueDesc_acts hlive hdue hm hfault

theorem issueDesc_of_op (h : Claims.issues s k = true) (ho : opOf (Claims.words s k) = op) :
    s.issueDesc k (fun ws => decide (opOf ws = op)) act = act s (Claims.words s k) :=
  issueDesc_of_issues h (decide_eq_true ho)

/-- The order of R504's first five steps is `issueFault`'s; the first of them that fails stops the pasture. -/
theorem issueDesc_faults {st : Status} (hlive : s.live k = true) (hdue : s.issueDue k = true)
    (hfault : s.issueFault k (Claims.words s k) = some st) (hm : mine (Claims.words s k) = true) :
    s.issueDesc k mine act = .next (s.seqFault k st (s.tile k).ip.toNat (opOf (Claims.words s k))) := by
  rw [Claims.words] at hfault hm ⊢
  simp only [State.issueDesc, hdue, hm, Bool.and_self, if_true, whileLive_live hlive, hfault]

theorem issueImmediate_of_issues (h : Claims.issues s k = true) (ho : opOf (Claims.words s k) = op) :
    s.issueImmediate k op f = .next (s.putTile k
      (if (s.tile k).acts (Claims.words s k) then f (Claims.words s k) (Claims.issuedTile s k) else Claims.issuedTile s k)) :=
  issueDesc_of_issues h (decide_eq_true ho)

theorem issueImmediate_of_acting (h : Claims.acting s k op = true) :
    s.issueImmediate k op f = .next (s.putTile k (f (Claims.words s k) (Claims.issuedTile s k))) := by
  obtain ⟨hissues, hop, hacts⟩ := acting_iff.mp h
  rw [issueImmediate_of_issues hissues hop, if_pos hacts]

theorem issueImmediate_of_off (h : Claims.issues s k = true) (ho : opOf (Claims.words s k) = op)
    (ha : (s.tile k).acts (Claims.words s k) = false) :
    s.issueImmediate k op f = .next (s.putTile k (Claims.issuedTile s k)) := by
  rw [issueImmediate_of_issues h ho, ha, if_neg Bool.false_ne_true]

end
end

end Sys2Proof.Machine
end

section
/-!
The immediate descriptors of the sequencer's own state (R213, R216, R217, R219 to R221).
-/
namespace Sys2Proof.Machine

/-! ### Counters -/

section
variable {c a w : BitVec 24}

/-- A wrap of 0 is none: the sum is that of 24 bits. -/
theorem ctrSum_zero : (ctrSum c a 0).toNat = (c.toNat + a.toNat) % 2 ^ 24 := BitVec.toNat_add c a

section
variable (hsum : c.toNat + a.toNat < 2 ^ 24)
include hsum

theorem ctrSum_below (h : c.toNat + a.toNat < w.toNat) : (ctrSum c a w).toNat = c.toNat + a.toNat := by
  have hadd : (c + a).toNat = c.toNat + a.toNat := BitVec.toNat_add_of_lt hsum
  have hreach : ¬ w ≤ c + a := by rw [BitVec.le_def, hadd]; omega
  simp only [ctrSum, hreach, decide_false, Bool.and_false, Bool.false_eq_true, if_false, hadd]

theorem ctrSum_wraps (hw : 0 < w.toNat) (h : w.toNat ≤ c.toNat + a.toNat) :
    (ctrSum c a w).toNat = c.toNat + a.toNat - w.toNat := by
  have hadd : (c + a).toNat = c.toNat + a.toNat := BitVec.toNat_add_of_lt hsum
  have hreach : w ≤ c + a := by rwa [BitVec.le_def, hadd]
  have hwrap : w ≠ 0 := fun h0 => by rw [h0] at hw; exact absurd hw (by decide)
  simp only [ctrSum, hreach, hwrap, ne_eq, not_false_eq_true, decide_true, Bool.and_self, if_true]
  rw [BitVec.toNat_sub_of_le hreach, hadd]

theorem ctrSum_lt_wrap (hc : c.toNat < w.toNat) (ha : a.toNat < w.toNat) : (ctrSum c a w).toNat < w.toNat := by
  rcases Nat.lt_or_ge (c.toNat + a.toNat) w.toNat with h | h
  · rwa [ctrSum_below hsum h]
  · rw [ctrSum_wraps hsum (by omega) h]; omega

end
end

/-! ### Loops -/

section
variable {t : Tile} {ws : List Word} {e : LoopEntry}

theorem loopFault_of_room (hn : t.countOf ws ≠ 0) (hroom : t.loops.length < 4) : t.loopFault ws = none := by
  simp only [Tile.loopFault, hn, if_false, Nat.not_le.mpr hroom]

theorem loopFault_of_full (hn : t.countOf ws ≠ 0) (hfull : 4 ≤ t.loops.length) : t.loopFault ws = some St.SEQ_LOOP_DEPTH := by
  simp only [Tile.loopFault, hn, if_false, hfull, if_true]

theorem loopFault_of_skip (hn : t.countOf ws = 0) (hend : opOf (t.slotWords (dField ws 1 55 48)) = 0x21) :
    t.loopFault ws = none := by
  simp only [Tile.loopFault, hn, if_true, hend]

theorem loopEnter_pushes {slot : BitVec 8} (hn : t.countOf ws ≠ 0) : t.loopEnter ws slot =
    { t with loops := t.loops ++ [⟨slot + 1, BitVec.ofNat 8 (dField ws 1 55 48), BitVec.ofNat 24 (t.countOf ws)⟩] } :=
  if_neg hn

theorem loopEnter_skips {slot : BitVec 8} (hn : t.countOf ws = 0) :
    t.loopEnter ws slot = { t with ip := BitVec.ofNat 8 (dField ws 1 55 48) + 1 } := if_pos hn

theorem endloopFault_of_empty (h : t.loops = []) : t.endloopFault = some St.SEQ_LOOP_EMPTY := by
  simp only [Tile.endloopFault, Tile.loopTop, h, List.getLast?_nil]

theorem endloopFault_of_top (h : t.loops.getLast? = some e) :
    t.endloopFault = if e.endSlot = t.ip then none else some St.SEQ_LOOP_MATCH := by
  simp only [Tile.endloopFault, Tile.loopTop, h]

theorem loopNext_of_top (h : t.loops.getLast? = some e) : t.loopNext =
    if e.remaining ≤ 1 then { t with loops := t.loops.dropLast }
    else { t with loops := t.loops.dropLast ++ [{ e with remaining := e.remaining - 1 }], ip := e.body } := by
  simp only [Tile.loopNext, Tile.loopTop, h]

end

section
variable {vx : Vx} {vy : Vy} {s : State} (h : Claims.issues s (tileKey vx vy) = true)
include h

theorem loop_enters (ho : opOf (Claims.words s (tileKey vx vy)) = 0x20)
    (hf : (s.tile (tileKey vx vy)).loopFault (Claims.words s (tileKey vx vy)) = none) :
    exec (.loop vx vy) s = .next (s.putTile (tileKey vx vy) ((Claims.issuedTile s (tileKey vx vy)).loopEnter
      (Claims.words s (tileKey vx vy)) (s.tile (tileKey vx vy)).ip)) := by
  rw [exec, execLoop, issueDesc_of_op h ho]
  simp only [hf, issueTile_words]

theorem loop_faults {st : Status} (ho : opOf (Claims.words s (tileKey vx vy)) = 0x20)
    (hf : (s.tile (tileKey vx vy)).loopFault (Claims.words s (tileKey vx vy)) = some st) :
    exec (.loop vx vy) s = .next (s.seqFault (tileKey vx vy) st (s.tile (tileKey vx vy)).ip.toNat 0x20) := by
  rw [exec, execLoop, issueDesc_of_op h ho]
  simp only [hf, State.descFault, ho]

theorem endloop_goes_on (ho : opOf (Claims.words s (tileKey vx vy)) = 0x21)
    (hf : (s.tile (tileKey vx vy)).endloopFault = none) :
    exec (.endloop vx vy) s = .next (s.putTile (tileKey vx vy) (Claims.issuedTile s (tileKey vx vy)).loopNext) := by
  rw [exec, execEndloop, issueDesc_of_op h ho]
  simp only [hf, issueTile_words]

theorem endloop_faults {st : Status} (ho : opOf (Claims.words s (tileKey vx vy)) = 0x21)
    (hf : (s.tile (tileKey vx vy)).endloopFault = some st) :
    exec (.endloop vx vy) s = .next (s.seqFault (tileKey vx vy) st (s.tile (tileKey vx vy)).ip.toNat 0x21) := by
  rw [exec, execEndloop, issueDesc_of_op h ho]
  simp only [hf, State.descFault, ho]

end

end Sys2Proof.Machine

namespace Sys2Proof.Settled
open Sys2Proof Sys2Proof.Machine

theorem immediateDescriptors : Claims.ImmediateDescriptors := by
  intro vx vy s
  simp only [exec]
  refine ⟨issueImmediate_of_acting, fun h hreg => (issueImmediate_of_acting h).trans ?addCounter,
    fun h hreg => (issueImmediate_of_acting h).trans ?addValue, fun h hreg => (issueImmediate_of_acting h).trans ?cmpValue,
    fun h hreg => (issueImmediate_of_acting h).trans ?cmpCounter, fun h hop => ?nopb, issueImmediate_of_acting, issueImmediate_of_acting⟩
  case addCounter => rw [if_pos hreg]; rfl
  case addValue => rw [if_neg (Bool.eq_false_iff.mp hreg)]; rfl
  case cmpValue => rw [if_neg (Bool.eq_false_iff.mp hreg)]; rfl
  case cmpCounter => rw [if_pos hreg]; rfl
  case nopb => rw [execNopb, issueDesc_of_op h hop]; rfl

theorem counterSumWraps : Claims.CounterSumWraps := fun _ _ _ =>
  ⟨fun hw => hw ▸ ctrSum_zero, ctrSum_below, ctrSum_wraps, ctrSum_lt_wrap⟩

theorem loopDescriptors : Claims.LoopDescriptors := by
  intro vx vy s e k ws t
  refine ⟨fun h hop hn hroom => (loop_enters h hop (loopFault_of_room hn hroom)).trans ?push,
    fun h hop hn hend => (loop_enters h hop (loopFault_of_skip hn hend)).trans ?skip,
    fun h hop htop hslot hlast => (endloop_goes_on h hop ((endloopFault_of_top htop).trans (if_pos hslot))).trans ?pop,
    fun h hop htop hslot hmore => (endloop_goes_on h hop ((endloopFault_of_top htop).trans (if_pos hslot))).trans ?back⟩
  case push => rw [loopEnter_pushes (t := Claims.issuedTile s k) hn]; rfl
  case skip => rw [loopEnter_skips (t := Claims.issuedTile s k) hn]
  case pop => rw [loopNext_of_top (t := Claims.issuedTile s k) htop, if_pos hlast]; rfl
  case back => rw [loopNext_of_top (t := Claims.issuedTile s k) htop, if_neg (BitVec.not_le.mpr hmore)]; rfl

theorem loopFaults : Claims.LoopFaults := by
  intro vx vy s e k ws t
  refine ⟨fun h hop hn hfull => loop_faults h hop (loopFault_of_full hn hfull),
    fun h hop hempty => endloop_faults h hop (endloopFault_of_empty hempty), fun h hop htop hslot => ?_⟩
  exact endloop_faults h hop ((endloopFault_of_top htop).trans (if_neg hslot))

/-- Settles O10: a descriptor that acts makes its own change of the issued tile, and a loop by the entry on top of the tile's loop stack. -/
theorem immediatesAndLoops : Obligations.ImmediatesAndLoops :=
  ⟨immediateDescriptors, counterSumWraps, loopDescriptors, loopFaults⟩

end Sys2Proof.Settled
end

section
/-!
LOAD and GO (R190, R191, R193, R504): a LOAD fills its unit's shadow configuration, a GO starts the unit with it, and a GO without a LOAD stops
the pasture.
-/
namespace Sys2Proof.Machine

section
variable {s : State} {k op : Nat} {mine : List Word → Shadow → Bool} {busy : Tile → Shadow → Option Status}
  {config : State → Job → Option Status} {fault : State → Job → Status → State} {start : Tile → Job → Tile} {sh : Shadow}

theorem goReady_iff : Claims.goReady s k op sh = true ↔ Claims.acting s k op = true ∧ actionOf (Claims.words s k) = 2 ∧
    (s.tile k).goShadow (Claims.words s k) = some sh ∧ sh.hashFault = none := by
  simp only [Claims.goReady, Bool.and_eq_true, decide_eq_true_eq, Option.isNone_iff_eq_none, and_assoc]

theorem issueGo_of_goReady (h : Claims.goReady s k op sh = true) (hb : busy (s.tile k) sh = none)
    (hc : config s (Claims.job s k sh) = none) (hm : mine (Claims.words s k) sh = true) :
    s.issueGo k mine op busy config fault start = .next (Claims.started s k sh start) := by
  obtain ⟨hacting, haction, hshadow, hhash⟩ := goReady_iff.mp h
  obtain ⟨hissues, hop, hacts⟩ := acting_iff.mp hacting
  obtain ⟨hlive, hdue, hfault⟩ := issues_iff.mp hissues
  exact issueGo_starts hlive hdue hfault hop haction hshadow hm hb hacts hhash hc

/-- A GO whose unit has no shadow configuration is every command's that its opcode and an empty one select. -/
theorem issueGo_without_load (h : Claims.issues s k = true) (ho : opOf (Claims.words s k) = op)
    (ha : actionOf (Claims.words s k) = 2) (hs : smapFind (s.tile k).shadows (shadowUnit (Claims.words s k)) = none)
    (hm : mine (Claims.words s k) {} = true) : s.issueGo k mine op busy config fault start =
      .next (s.seqFault k St.SEQ_LOAD_INCOMPLETE (s.tile k).ip.toNat (opOf (Claims.words s k))) := by
  have hshadow : (s.tile k).goShadow (Claims.words s k) = none := by simp only [Tile.goShadow, hs]
  rw [State.issueGo, issueDesc_of_issues h (by simp only [ho, ha, hs, hm]; rfl)]
  simp only [hshadow, State.descFault]

end

section
variable {vx : Vx} {vy : Vy} {s : State} {sh : Shadow} {op : Nat} {mine : Shadow → Bool} (hm : mine sh = true)
  (h : Claims.goReady s (tileKey vx vy) op sh = true)
include hm h

theorem vxGo_of_goReady (hb : (s.tile (tileKey vx vy)).vxBusy sh = none) (hf : (Claims.job s (tileKey vx vy) sh).vxFault = none) :
    s.vxGo vx vy op mine = .next (Claims.started s (tileKey vx vy) sh Tile.vxStart) := by
  rw [State.vxGo, issueGo_of_goReady h hb hf hm]

theorem mvGo_of_goReady (hb : (s.tile (tileKey vx vy)).mvBusy sh = none) (hc : (Claims.job s (tileKey vx vy) sh).mvConfig = none) :
    s.mvGo vx vy op mine = .next (Claims.started s (tileKey vx vy) sh Tile.mvStart) := by
  rw [State.mvGo, issueGo_of_goReady h hb hc hm]

end

section
variable {vx : Vx} {vy : Vy} {s : State} {oc : Nat × (Vx → Vy → Instr)}

/-- Each VECOP command is the vector unit's GO of the shadows with its OP. -/
theorem exec_vecop (h : oc ∈ Claims.vecops) : exec (oc.2 vx vy) s = s.vxGo vx vy 0x03 (mineOp oc.1) := by
  fin_cases h <;> rfl

theorem mineOp_of_op {op : Nat} {sh : Shadow} (h : (vxCfg sh.words).op = op) : mineOp op sh = true := by
  simp only [mineOp, h, decide_true, Bool.or_true, Bool.true_or]

/-- One command of each two-phase opcode: the one that takes a GO of a unit with no shadow configuration. -/
def goCommands : List (Nat × (Vx → Vy → Instr)) :=
  [(0x01, .matmul), (0x02, .conv), (0x03, .vecopAdd), (0x04, .quant), (0x05, .topk), (0x08, .move), (0x09, .recv),
    (0x0C, .copy), (0x0D, .gather), (0x0E, .scatter), (0x10, .stkrd), (0x11, .stkwr)]

/-- Each of them is a GO of its opcode, and takes an empty shadow configuration. -/
theorem exec_goCommand (h : oc ∈ goCommands) : ∃ mine busy config fault start,
    exec (oc.2 vx vy) s = s.issueGo (tileKey vx vy) mine oc.1 busy config fault start ∧ ∀ ws, mine ws {} = true := by
  fin_cases h
  all_goals
    simp only [exec, execMatmul, execConv, execVecopAdd, execQuant, execTopk, execMove, execRecv, execCopy, execGather, execScatter,
      execStkrd, execStkwr, State.vxGo, State.mvGo, State.stkGo]
    exact ⟨_, _, _, _, _, rfl, fun _ => rfl⟩

end

end Sys2Proof.Machine

namespace Sys2Proof.Settled
open Sys2Proof Sys2Proof.Machine

theorem loadFillsTheShadow : Claims.LoadFillsTheShadow := by
  intro vx vy s k ws t h hload hacts
  rw [exec, execDescLoad, issueDesc_of_issues h hload]
  refine ⟨fun hread => ?loads, fun hread => ?overlaps⟩
  case loads =>
    have hfree : ((s.tile k).acts ws && decide ((smapGet {} (s.tile k).shadows (shadowUnit ws)).todo ≠ [])) = false :=
      Bool.and_eq_false_imp.mpr fun _ => decide_eq_false (not_not_intro hread)
    refine (if_neg (Bool.eq_false_iff.mp hfree)).trans ?_
    rw [issueTile_words, issuedTile_acts, if_pos hacts]
    rfl
  case overlaps => exact if_pos (Bool.and_eq_true_iff.mpr ⟨hacts, decide_eq_true hread⟩)

theorem matrixGoStarts : Claims.MatrixGoStarts := by
  intro vx vy s sh k hbusy hfault
  rw [exec, exec, execMatmul, execConv]
  exact ⟨fun h => issueGo_of_goReady h hbusy hfault rfl, fun h => issueGo_of_goReady h hbusy hfault rfl⟩

theorem vectorGoStarts : Claims.VectorGoStarts := by
  intro vx vy s sh k hbusy hfault
  refine ⟨fun oc hoc h hop => ?vecop, fun h hdir => ?quant, fun h hdir => ?dequant, fun h => ?topk⟩
  case vecop => rw [exec_vecop hoc, vxGo_of_goReady (mineOp_of_op hop) h hbusy hfault]
  case quant => rw [exec, execQuant, vxGo_of_goReady (by simp only [hdir, Bool.not_false, Bool.or_true]) h hbusy hfault]
  case dequant => rw [exec, execQuantDequantise, vxGo_of_goReady (by simp only [hdir, Bool.or_true]) h hbusy hfault]
  case topk => rw [exec, execTopk, vxGo_of_goReady rfl h hbusy hfault]

theorem transferGoStarts : Claims.TransferGoStarts := by
  intro vx vy s sh k
  refine ⟨fun h hbusy hconfig => ?move, fun h hbusy hconfig => ?recv, fun h hbusy hconfig hclear => ?copy,
    fun h hbusy hconfig hclear => ?tallyClear, fun h hbusy hconfig => ?gather, fun h hbusy hconfig => ?scatter,
    fun h hbusy => ?stkrd, fun h hbusy => ?stkwr⟩
  case move => rw [exec, execMove, issueGo_of_goReady h hbusy hconfig rfl]
  case recv => rw [exec, execRecv, issueGo_of_goReady h hbusy hconfig rfl]
  case copy => rw [exec, execCopy, mvGo_of_goReady (by simp only [hclear, Bool.not_false, Bool.or_true]) h hbusy hconfig]
  case tallyClear => rw [exec, execTallyClear, mvGo_of_goReady (by simp only [hclear, Bool.or_true]) h hbusy hconfig]
  case gather => rw [exec, execGather, mvGo_of_goReady rfl h hbusy hconfig]
  case scatter => rw [exec, execScatter, mvGo_of_goReady rfl h hbusy hconfig]
  case stkrd => rw [exec, execStkrd, State.stkGo, issueGo_of_goReady h hbusy rfl rfl]
  case stkwr => rw [exec, execStkwr, State.stkGo, issueGo_of_goReady h hbusy rfl rfl]

/-- Settles O11: every GO is the shared GO of `issueGo`, with its unit's checks and its own choice of shadow configurations. -/
theorem loadAndGo : Obligations.LoadAndGo := ⟨loadFillsTheShadow, matrixGoStarts, vectorGoStarts, transferGoStarts⟩

end Sys2Proof.Settled
end

section
/-!
Descriptors that do not act (R188, R191 to R193, R213, R433, R504), and what the descriptors of the control network and of windows do at their
issue when their predicate lets them.
-/
namespace Sys2Proof.Machine

section
variable {s : State} {k p a : Nat} {act : State → Nat → Nat → State}

/-- A FLAG descriptor that issues: its effect where it acts, the issue alone where it does not. -/
theorem issueFlag_of_issues (h : Claims.issues s k = true) (ho : opOf (Claims.words s k) = 0x1A)
    (ha : flagAct (Claims.words s k) = a) (hp : s.pasOf (keyVx k) = some p) :
    s.issueFlag k a act = .next (if (s.tile k).acts (Claims.words s k)
      then act (s.putTile k (Claims.issuedTile s k)) p (flagNo (Claims.words s k)) else s.putTile k (Claims.issuedTile s k)) := by
  rw [State.issueFlag, issueDesc_of_issues h (by simp only [ho, ha, decide_true, Bool.and_self])]
  simp only [hp, issueTile_words, id_eq]

theorem issueFlag_of_acting (h : Claims.acting s k 0x1A = true) (ha : flagAct (Claims.words s k) = a)
    (hp : s.pasOf (keyVx k) = some p) :
    s.issueFlag k a act = .next (act (s.putTile k (Claims.issuedTile s k)) p (flagNo (Claims.words s k))) := by
  obtain ⟨hissues, hop, hacts⟩ := acting_iff.mp h
  rw [issueFlag_of_issues hissues hop ha hp, if_pos hacts]

theorem issueFlag_of_off (h : Claims.issues s k = true) (ho : opOf (Claims.words s k) = 0x1A)
    (ha : flagAct (Claims.words s k) = a) (hp : s.pasOf (keyVx k) = some p) (hoff : (s.tile k).acts (Claims.words s k) = false) :
    s.issueFlag k a act = .next (s.putTile k (Claims.issuedTile s k)) := by
  rw [issueFlag_of_issues h ho ha hp, if_neg (Bool.eq_false_iff.mp hoff)]

end

section
variable {vx : Vx} {vy : Vy} {s : State}

/-- A LOAD that is predicated off finds no overlap and fills no shadow configuration. -/
theorem descLoad_of_off (h : Claims.issues s (tileKey vx vy) = true) (hload : isLoad (Claims.words s (tileKey vx vy)) = true)
    (hoff : (s.tile (tileKey vx vy)).acts (Claims.words s (tileKey vx vy)) = false) :
    exec (.descLoad vx vy) s = .next (s.putTile (tileKey vx vy) (Claims.issuedTile s (tileKey vx vy))) := by
  rw [exec, execDescLoad, issueDesc_of_issues h hload]
  simp only [hoff, Bool.false_and, Bool.false_eq_true, if_false, issueTile_words, issuedTile_acts]

/-- A tile of a running pasture lies in a pasture. -/
theorem pasOf_of_live {k : Nat} (h : s.live k = true) : ∃ p, s.pasOf (keyVx k) = some p := by
  cases hp : s.pasOf (keyVx k) with
  | none => simp [State.live, hp] at h
  | some p => exact ⟨p, rfl⟩

/-- A descriptor with an opcode of none is BEAT_COMPLETE's, since no other command takes it. -/
theorem beatComplete_of_no_opcode {st : Status} (hlive : s.live (tileKey vx vy) = true) (hdue : s.issueDue (tileKey vx vy) = true)
    (hfault : s.issueFault (tileKey vx vy) (Claims.words s (tileKey vx vy)) = some st)
    (hop : opValid (opOf (Claims.words s (tileKey vx vy))) = false) (hmay : s.mayComplete (tileKey vx vy) = true) :
    exec (.beatComplete vx vy) s = .next (s.seqFault (tileKey vx vy) st (s.tile (tileKey vx vy)).ip.toNat
      (opOf (Claims.words s (tileKey vx vy)))) := by
  obtain ⟨p, hp⟩ := pasOf_of_live hlive
  rw [Claims.words] at hfault hop ⊢
  rw [exec, execBeatComplete]
  simp only [State.tryBeat, hp, hmay, whileLive_live hlive, hdue, hop, hfault, Bool.not_true, Bool.false_eq_true, if_false, if_true]

end

end Sys2Proof.Machine

namespace Sys2Proof.Settled
open Sys2Proof Sys2Proof.Machine

theorem predicatedOffOnlyIssues : Claims.PredicatedOffOnlyIssues := by
  intro vx vy s
  dsimp only
  intro h hoff hpas
  obtain ⟨p, hp⟩ := Option.isSome_iff_exists.mp hpas
  have hpk : s.pasOf (keyVx (tileKey vx vy)) = some p := (congrArg s.pasOf (keyVx_tileKey vx vy)).trans hp
  have hstill : (!(s.tile (tileKey vx vy)).acts (Claims.words s (tileKey vx vy))) = true := by rw [hoff]; rfl
  refine ⟨fun ho => ?ctrset, fun ho => ?ctradd, fun ho => ?cmpset, fun ho => ?overlay, fun ho => ?halt, fun hload => descLoad_of_off h hload hoff,
    fun ho => ?winopen, fun ho => ?winclose, fun ho => ?wait, fun ho => ?fold, fun ho ha => ?flagSet, fun ho ha => ?flagClear,
    fun ho ha => ?flagHoldSet, fun ho ha => ?flagHoldClear⟩
  all_goals rw [exec]
  case ctrset => exact issueImmediate_of_off h ho hoff
  case ctradd => exact issueImmediate_of_off h ho hoff
  case cmpset => exact issueImmediate_of_off h ho hoff
  case overlay => exact issueImmediate_of_off h ho hoff
  case halt => exact issueImmediate_of_off h ho hoff
  case winopen => rw [execWinopen, issueDesc_of_op h ho]; exact if_pos hstill
  case wait => rw [execWait, issueDesc_of_op h ho]; exact if_pos hstill
  case fold => rw [execFold, issueDesc_of_op h ho]; exact if_pos hstill
  case winclose =>
    rw [execWinclose, issueDesc_of_op h ho]
    simp only [hp]
    exact congrArg _ (if_neg (Bool.eq_false_iff.mp hoff))
  case flagSet => rw [execFlagSet, issueFlag_of_off h ho ha hpk hoff]
  case flagClear => rw [execFlagClear, issueFlag_of_off h ho ha hpk hoff]
  case flagHoldSet => rw [execFlagHoldSet, issueFlag_of_off h ho ha hpk hoff]
  case flagHoldClear => rw [execFlagHoldClear, issueFlag_of_off h ho ha hpk hoff]

theorem issueFaultsStop : Claims.IssueFaultsStop := by
  intro vx vy s st
  dsimp only
  intro hlive hdue hfault
  refine ⟨fun hmine => ?load, fun ho => ?loop, fun ho => ?endloop, fun ho => ?ctrset, fun ho => ?nopb, fun ho => ?winopen, fun ho => ?fold,
    beatComplete_of_no_opcode hlive hdue hfault⟩
  all_goals rw [exec]
  case load => rw [execDescLoad, issueDesc_faults hlive hdue hfault hmine]
  case loop => rw [execLoop, issueDesc_faults hlive hdue hfault (decide_eq_true ho)]
  case endloop => rw [execEndloop, issueDesc_faults hlive hdue hfault (decide_eq_true ho)]
  case ctrset => rw [execCtrset, State.issueImmediate, issueDesc_faults hlive hdue hfault (decide_eq_true ho)]
  case nopb => rw [execNopb, issueDesc_faults hlive hdue hfault (decide_eq_true ho)]
  case winopen => rw [execWinopen, issueDesc_faults hlive hdue hfault (decide_eq_true ho)]
  case fold => rw [execFold, issueDesc_faults hlive hdue hfault (decide_eq_true ho)]

theorem goWithoutLoadFaults : Claims.GoWithoutLoadFaults := by
  intro vx vy s k ws h haction hnone oc hoc hop
  obtain ⟨mine, busy, config, fault, start, hgo, hmine⟩ := exec_goCommand (vx := vx) (vy := vy) (s := s) (oc := oc) hoc
  exact hgo.trans (issueGo_without_load h hop haction hnone (hmine ws))

/-- Settles O12: the predicate, the checks of the issue and the load check, each in the shared issue of its kind of descriptor. -/
theorem descriptorsThatDoNotAct : Obligations.DescriptorsThatDoNotAct :=
  ⟨predicatedOffOnlyIssues, issueFaultsStop, goWithoutLoadFaults⟩

end Sys2Proof.Settled
end

section
/-!
Windows, waits, folds and flags at the tile that issues their descriptors (R210 to R212, R288, R290, R292, R356, R361, R370).
-/
namespace Sys2Proof.Machine

/-! ### Windows -/

section
variable {s : State} {p w : Nat} {y new : Window}

@[simp] theorem putWindow_window_same : ((s.putWindow p w y).pasture p).window w = y := by
  rw [State.putWindow, State.modPas_pasture_same, Pasture.window, smapGet_put_same]

/-- A window whose queue is empty has no request to serve. -/
theorem serveWindow_of_empty (h : ((s.pasture p).window w).queue = []) : s.serveWindow p w = s := by
  rw [State.serveWindow, h]
  rfl

theorem winOpen_of_closed (h : ((s.pasture p).window w).isOpen = false) : s.winOpen p w new = s.putWindow p w new :=
  if_neg (Bool.eq_false_iff.mp h)

/-- A window that is open with no request in its queue is rearmed and grants nothing. -/
theorem winOpen_of_open (hy : (s.pasture p).window w = y) (h : y.isOpen = true) (hq : y.queue = []) : s.winOpen p w new =
    s.putWindow p w { y with pool := y.pool + y.doneUnits, doneUnits := 0, arrivals := 0, doneRanks := [] } := by
  subst hy
  exact (if_pos h).trans (serveWindow_of_empty (by rw [putWindow_window_same]; exact hq))

end

section
variable {vx : Vx} {vy : Vy} {s : State} {p : Nat} (hp : s.pasOf vx = some p)
include hp

theorem winopen_checked (h : Claims.acting s (tileKey vx vy) 0x14 = true)
    (hf : s.winFault p ((s.pasture p).window (dField (Claims.words s (tileKey vx vy)) 1 63 58))
      (openWindow (Claims.words s (tileKey vx vy)) (tileKey vx vy)) = none) :
    exec (.winopen vx vy) s = .next ((s.putTile (tileKey vx vy) (Claims.issuedTile s (tileKey vx vy))).winOpen p
      (dField (Claims.words s (tileKey vx vy)) 1 63 58) (openWindow (Claims.words s (tileKey vx vy)) (tileKey vx vy))) := by
  obtain ⟨hissues, hop, hacts⟩ := acting_iff.mp h
  rw [exec, execWinopen, issueDesc_of_op hissues hop]
  simp only [hacts, hp, hf, Bool.not_true, Bool.false_eq_true, if_false, issueTile_words, id_eq]

theorem winopen_faults {st : Status} (h : Claims.acting s (tileKey vx vy) 0x14 = true)
    (hf : s.winFault p ((s.pasture p).window (dField (Claims.words s (tileKey vx vy)) 1 63 58))
      (openWindow (Claims.words s (tileKey vx vy)) (tileKey vx vy)) = some st) :
    exec (.winopen vx vy) s = .next (s.stopTile (tileKey vx vy) st) := by
  obtain ⟨hissues, hop, hacts⟩ := acting_iff.mp h
  rw [exec, execWinopen, issueDesc_of_op hissues hop]
  simp only [hacts, hp, hf, Bool.not_true, Bool.false_eq_true, if_false]

theorem winclose_closes (h : Claims.acting s (tileKey vx vy) 0x15 = true) : exec (.winclose vx vy) s =
    .next ((s.putTile (tileKey vx vy) (Claims.issuedTile s (tileKey vx vy))).winClose p
      (dField (Claims.words s (tileKey vx vy)) 1 63 58) 0) := by
  obtain ⟨hissues, hop, hacts⟩ := acting_iff.mp h
  rw [exec, execWinclose, issueDesc_of_op hissues hop]
  simp only [hacts, hp, if_true, issueTile_words, id_eq]

/-! ### Waits -/

theorem wait_met (h : Claims.acting s (tileKey vx vy) 0x18 = true)
    (hf : (s.pasture p).waitFault (Claims.words s (tileKey vx vy)) = none)
    (hmet : BitVec.ofNat 32 (dField (Claims.words s (tileKey vx vy)) 1 31 0) ≤
      ((s.pasture p).window (dField (Claims.words s (tileKey vx vy)) 1 63 58)).arrivals) :
    exec (.wait vx vy) s = .next (s.putTile (tileKey vx vy) (Claims.issuedTile s (tileKey vx vy))) := by
  obtain ⟨hissues, hop, hacts⟩ := acting_iff.mp h
  rw [exec, execWait, issueDesc_of_op hissues hop]
  simp only [hacts, hp, hf, hmet, Bool.not_true, Bool.false_eq_true, if_false, if_true, issueTile_words, id_eq]

theorem wait_holds (h : Claims.acting s (tileKey vx vy) 0x18 = true)
    (hf : (s.pasture p).waitFault (Claims.words s (tileKey vx vy)) = none)
    (hshort : ¬ BitVec.ofNat 32 (dField (Claims.words s (tileKey vx vy)) 1 31 0) ≤
      ((s.pasture p).window (dField (Claims.words s (tileKey vx vy)) 1 63 58)).arrivals) :
    exec (.wait vx vy) s = .next (((s.putTile (tileKey vx vy) { Claims.issuedTile s (tileKey vx vy) with
      holds := (s.tile (tileKey vx vy)).holds ++ [.wait (dField (Claims.words s (tileKey vx vy)) 1 63 58)] }).send
        (.winWait p (tileKey vx vy) (dField (Claims.words s (tileKey vx vy)) 1 63 58) (dField (Claims.words s (tileKey vx vy)) 1 57 50)
          (BitVec.ofNat 32 (dField (Claims.words s (tileKey vx vy)) 1 31 0)) s.now)).noteHolds p) := by
  obtain ⟨hissues, hop, hacts⟩ := acting_iff.mp h
  rw [exec, execWait, issueDesc_of_op hissues hop]
  simp only [hacts, hp, hf, hshort, Bool.not_true, Bool.false_eq_true, if_false, issueTile_words]
  rfl

theorem wait_faults {st : Status} (h : Claims.acting s (tileKey vx vy) 0x18 = true)
    (hf : (s.pasture p).waitFault (Claims.words s (tileKey vx vy)) = some st) :
    exec (.wait vx vy) s = .next (s.stopTile (tileKey vx vy) st) := by
  obtain ⟨hissues, hop, hacts⟩ := acting_iff.mp h
  rw [exec, execWait, issueDesc_of_op hissues hop]
  simp only [hacts, hp, hf, Bool.not_true, Bool.false_eq_true, if_false]

/-! ### Folds -/

section
variable {f : Nat} {st : Status} (h : Claims.acting s (tileKey vx vy) 0x19 = true)
include h

theorem fold_enters (hown : s.foldOf p (foldId (Claims.words s (tileKey vx vy))) = some f)
    (hmember : bitAt (s.tile (tileKey vx vy)).foldMask (foldId (Claims.words s (tileKey vx vy))) = true) :
    exec (.fold vx vy) s = .next (((s.putTile (tileKey vx vy) (Claims.issuedTile s (tileKey vx vy))).enterFold (tileKey vx vy) p f
      (Claims.words s (tileKey vx vy))).noteHolds p) := by
  obtain ⟨hissues, hop, hacts⟩ := acting_iff.mp h
  have hfault : s.foldFault (tileKey vx vy) p (Claims.words s (tileKey vx vy)) = none := by
    simp only [State.foldFault, hown, hmember, Option.isNone_some, Bool.not_true, Bool.false_eq_true, if_false]
  rw [exec, execFold, issueDesc_of_op hissues hop]
  simp only [hacts, hp, hfault, hown, Bool.not_true, Bool.false_eq_true, if_false, issueTile_words, id_eq]

theorem fold_faults (hf : s.foldFault (tileKey vx vy) p (Claims.words s (tileKey vx vy)) = some st) :
    exec (.fold vx vy) s = .next (s.cnwFault (tileKey vx vy) st) := by
  obtain ⟨hissues, hop, hacts⟩ := acting_iff.mp h
  rw [exec, execFold, issueDesc_of_op hissues hop]
  simp only [hacts, hp, hf, Bool.not_true, Bool.false_eq_true, if_false]

end

end

section
variable {s : State} {k p f : Nat} {ws : List Word}

theorem foldFault_of_unmapped (h : s.foldOf p (foldId ws) = none) : s.foldFault k p ws = some St.CNW_FOLD_MAP :=
  if_pos (Option.isNone_iff_eq_none.mpr h)

theorem foldFault_of_stranger (h : s.foldOf p (foldId ws) = some f) (hm : bitAt (s.tile k).foldMask (foldId ws) = false) :
    s.foldFault k p ws = some St.CNW_FOLD_MEMBER := by
  simp only [State.foldFault, h, hm, Option.isNone_some, Bool.not_false, Bool.false_eq_true, if_false, if_true]

/-- The issue leaves the contributions still uncompleted. -/
theorem issuedTile_pendingFolds : ((s.putTile k (Claims.issuedTile s k)).tile k).pendingFolds f = (s.tile k).pendingFolds f := by
  rw [State.putTile_tile_same]
  rfl

theorem enterFold_contributes (h : (s.tile k).pendingFolds f < 2) : s.enterFold k p f ws = s.contribute k p f ws :=
  if_neg (Nat.not_le.mpr h)

theorem enterFold_holds (h : 2 ≤ (s.tile k).pendingFolds f) :
    s.enterFold k p f ws = s.modTile k fun t => { t with holds := t.holds ++ [.foldFull f] } := if_pos h

end

end Sys2Proof.Machine

namespace Sys2Proof.Settled
open Sys2Proof Sys2Proof.Machine

theorem windowDescriptors : Claims.WindowDescriptors := by
  intro vx vy s p st k ws w thresh s' y hp
  refine ⟨fun h hf hclosed => ?opens, fun h hf hopen hq => ?rearms, winopen_faults hp, fun h hopen => ?closes, wait_met hp, wait_holds hp,
    wait_faults hp⟩
  case opens => exact (winopen_checked hp h hf).trans (congrArg _ (winOpen_of_closed hclosed))
  case rearms => exact (winopen_checked hp h hf).trans (congrArg _ (winOpen_of_open rfl hopen hq))
  case closes => exact (winclose_closes hp h).trans (congrArg _ (if_pos hopen))

theorem foldDescriptor : Claims.FoldDescriptor := by
  intro vx vy s p f k ws hp h
  refine ⟨fun hown hmember hroom => (fold_enters hp h hown hmember).trans ?contributes,
    fun hown hmember hfull => (fold_enters hp h hown hmember).trans ?holds,
    fun hnone => fold_faults hp h (foldFault_of_unmapped hnone),
    fun hown hstranger => fold_faults hp h (foldFault_of_stranger hown hstranger)⟩
  case contributes => rw [enterFold_contributes (by rwa [issuedTile_pendingFolds])]
  case holds => rw [enterFold_holds (by rwa [issuedTile_pendingFolds]), modTile_putTile]; rfl

theorem flagDescriptors : Claims.FlagDescriptors := by
  intro vx vy s p k ws n s' hp h
  have hpk : s.pasOf (keyVx k) = some p := (congrArg s.pasOf (keyVx_tileKey vx vy)).trans hp
  refine ⟨fun ha => ?set, fun ha => ?clear, fun ha => ?holdSet, fun ha => ?holdClear⟩
  case set => rw [exec, execFlagSet, issueFlag_of_acting h ha hpk]; rfl
  case clear => rw [exec, execFlagClear, issueFlag_of_acting h ha hpk]; rfl
  case holdSet => rw [exec, execFlagHoldSet, issueFlag_of_acting h ha hpk, State.holdFlag, modTile_putTile]; rfl
  case holdClear => rw [exec, execFlagHoldClear, issueFlag_of_acting h ha hpk, State.holdFlag, modTile_putTile]; rfl

/-- Settles O14: each descriptor by the check of its issue that decides it, on the tile that has issued it. -/
theorem windowFoldAndFlagDescriptors : Obligations.WindowFoldAndFlagDescriptors :=
  ⟨windowDescriptors, foldDescriptor, flagDescriptors⟩

end Sys2Proof.Settled
end

section
/-!
Ownership of channel groups (R248 to R250, R265): what a command makes of one group's ownership byte, that it leaves the other groups, and
the end of a group's clearing.
-/
namespace Sys2Proof

variable {α : Type} {d : α} {p : Nat → Bool} {i : Nat}

/-- A key that is not kept reads as the default. -/
theorem smapGet_keep_dropped (m : SMap α) (h : p i = false) : smapGet d (smapKeep p m) i = d := by
  rcases smapGet_mem d (smapKeep p m) i with hd | hmem
  · exact hd
  · exact absurd (List.mem_filter.mp hmem).2 (by simp [h])

/-- A key that is kept reads as before. -/
theorem smapGet_keep_kept [DecidableEq α] {m : SMap α} (hm : smapWf d m = true) (h : p i = true) :
    smapGet d (smapKeep p m) i = smapGet d m i := by
  induction m with
  | nil => rfl
  | cons kv m ih =>
    obtain ⟨k, v⟩ := kv
    simp only [smapWf, Bool.and_eq_true, decide_eq_true_eq] at hm
    obtain ⟨⟨-, habove⟩, hwf⟩ := hm
    by_cases hk : p k = true
    · rw [show smapKeep p ((k, v) :: m) = (k, v) :: smapKeep p m from List.filter_cons_of_pos hk, smapGet, smapGet, ih hwf]
    · rw [show smapKeep p ((k, v) :: m) = smapKeep p m from List.filter_cons_of_neg hk, ih hwf, smapGet]
      have hik : i ≠ k := fun e => hk (e ▸ h)
      have hbelow (hlt : i < k) : smapGet d m i = d := by
        refine smapGet_above d m i (List.all_eq_true.mpr fun kv hkv => ?_)
        have := of_decide_eq_true (List.all_eq_true.mp habove kv hkv)
        exact decide_eq_true (by omega)
      simp only [hik, if_false]
      split
      · next hlt => exact hbelow hlt
      · rfl

/-- A fold whose steps write one key each: a key that one item writes holds what the step makes of it in a state of the fold. -/
theorem foldl_get_of_kept {σ β γ : Type} {get : σ → Nat → β} {g : σ → γ → σ} {key : γ → Nat} {Kept : σ → Prop} {v : β → β}
    (hother : ∀ s x k, key x ≠ k → get (g s x) k = get s k) (hkept : ∀ s x, Kept s → Kept (g s x)) (hinj : key.Injective)
    {l : List γ} (hl : l.Nodup) {x : γ} (hx : x ∈ l) (hsame : ∀ s, Kept s → get (g s x) (key x) = v (get s (key x))) {s : σ}
    (hs : Kept s) : get (l.foldl g s) (key x) = v (get s (key x)) := by
  have hrest {l : List γ} (h : x ∉ l) : ∀ y ∈ l, key y ≠ key x := fun y hy e => h (hinj e ▸ hy)
  induction l generalizing s with
  | nil => cases hx
  | cons y l ih =>
    obtain ⟨hy, hl⟩ := List.nodup_cons.mp hl
    rw [List.foldl_cons]
    by_cases hxy : y = x
    · subst hxy
      rw [foldl_get_other hother (hrest hy), hsame s hs]
    · rw [ih hl ((List.mem_cons.mp hx).resolve_left (Ne.symm hxy)) (hkept s y hs), hother _ _ _ (fun e => hxy (hinj e))]

end Sys2Proof

namespace Sys2Proof.Machine

/-! ### The byte of a group -/

section
variable {s : State} {gid j : Nat} {o : GroupOwn}

/-- Every stack has the bytes of its eight groups. -/
def State.eightGroups (s : State) : Prop := ∀ n, (s.stack n).own.length = 8

theorem eightGroups_putOwn (h : s.eightGroups) : (s.putOwn gid o).eightGroups := by
  intro n
  rw [State.putOwn, State.modStack_stack_at]
  split
  · rw [List.length_set]; exact h _
  · exact h n

theorem groupOwn_putOwn_same (h : s.eightGroups) : (s.putOwn gid o).groupOwn gid = o := by
  have hlt : gid % 8 < (s.stack (gid / 8)).own.length := by rw [h]; omega
  rw [State.groupOwn, State.putOwn, State.modStack_stack_same, List.getD_eq_getElem?_getD, List.getElem?_set_self hlt]
  rfl

theorem groupOwn_putOwn_other (h : gid ≠ j) : (s.putOwn gid o).groupOwn j = s.groupOwn j := by
  rw [State.groupOwn, State.groupOwn, State.putOwn, State.modStack_stack_at]
  split
  · next hst =>
    have hne : gid % 8 ≠ j % 8 := by omega
    rw [List.getD_eq_getElem?_getD, List.getElem?_set_ne hne, ← List.getD_eq_getElem?_getD, hst]
  · rfl

/-- A byte put with its clear over reads back so, whether or not the stack lists the group. -/
theorem clearing_putOwn (h : o.clearing = false) : ((s.putOwn gid o).groupOwn gid).clearing = false := by
  rw [State.groupOwn, State.putOwn, State.modStack_stack_same, List.getD_eq_getElem?_getD, List.getElem?_set]
  split
  · split
    · exact h
    · rfl
  · contradiction

end

/-! ### A change of owner (R249, R250) -/

/-- The byte of a group given to an owner: a new owner's clear begins. -/
def GroupOwn.assigned (o : GroupOwn) (owner : Option Nat) : GroupOwn :=
  if o.owner = owner then o
  else match owner with
    | none => { o with valid := false }
    | some p => { o with valid := true, pas := BitVec.ofNat 4 p, clearing := true }

theorem owner_assigned (o : GroupOwn) {owner : Option Nat} (h : ∀ p ∈ owner, p < 16) : (o.assigned owner).owner = owner := by
  unfold GroupOwn.assigned
  split
  · assumption
  · cases owner with
    | none => rfl
    | some p => simp [GroupOwn.owner, Nat.mod_eq_of_lt (h p rfl)]

/-- The state but for the stacks' registers and the burst commands at their ports. -/
def State.beyondGroups (s : State) : State := { s with stks := [], cmds := [] }

/-- AUTO, the stacks' contents and the automatic rule are beyond the groups' bytes. -/
theorem beyondGroups_parts {s t : State} (h : t.beyondGroups = s.beyondGroups) :
    t.ownAuto = s.ownAuto ∧ t.stackMem = s.stackMem ∧ t.autoOwner = s.autoOwner := by
  have hpart {α : Type} (f : State → α) : f t.beyondGroups = f s.beyondGroups := congrArg f h
  exact ⟨hpart State.ownAuto, hpart State.stackMem, hpart State.autoOwner⟩

section
variable {s : State} {gid j : Nat} {owner : Option Nat}

theorem beyondGroups_assignGroup (s : State) (gid : Nat) (owner : Option Nat) :
    (s.assignGroup gid owner).beyondGroups = s.beyondGroups := by
  unfold State.assignGroup
  extract_lets
  split
  · rfl
  · split <;> rfl

theorem eightGroups_assignGroup (h : s.eightGroups) : (s.assignGroup gid owner).eightGroups := by
  have hdrop : (s.dropCmds fun c => decide (c.group = gid)).eightGroups := h
  unfold State.assignGroup
  extract_lets
  split
  · exact h
  · split <;> exact eightGroups_putOwn hdrop

theorem groupOwn_assignGroup_same (h : s.eightGroups) : (s.assignGroup gid owner).groupOwn gid = (s.groupOwn gid).assigned owner := by
  have hdrop : (s.dropCmds fun c => decide (c.group = gid)).eightGroups := h
  unfold State.assignGroup GroupOwn.assigned
  extract_lets
  split
  · rfl
  · split <;> exact groupOwn_putOwn_same hdrop

theorem groupOwn_assignGroup_other (h : gid ≠ j) : (s.assignGroup gid owner).groupOwn j = s.groupOwn j := by
  unfold State.assignGroup
  extract_lets
  split
  · rfl
  · split <;> exact groupOwn_putOwn_other h

end

/-! ### A write of STK_OWN_s (R249) -/

/-- The byte of a group after a write of another with AUTO at 0. -/
def GroupOwn.written (o n : GroupOwn) : GroupOwn := { o.assigned n.owner with pas := n.pas, xfer := n.xfer }

theorem written_eq (o n : GroupOwn) :
    o.written n = { valid := n.valid, xfer := n.xfer, pas := n.pas
                    clearing := o.clearing || (n.valid && decide (o.owner ≠ some n.pas.toNat)) } := by
  unfold GroupOwn.written GroupOwn.assigned
  cases hn : n.valid
  · cases ho : o.valid <;> simp [GroupOwn.owner, hn, ho]
  · have howner : n.owner = some n.pas.toNat := if_pos hn
    rw [howner]
    by_cases h : o.owner = some n.pas.toNat
    · have ho : o.valid = true := by
        by_contra hv
        simp [GroupOwn.owner, hv] at h
      simp [h, ho]
    · simp [h]

theorem pas_writtenOwn (v : Word) (g : Nat) : (writtenOwn v g).pas.toNat = field v (8 * g + 3) (8 * g) := by
  have hlt : field v (8 * g + 3) (8 * g) < 2 ^ 4 := by
    unfold field
    have h4 : 8 * g + 3 + 1 - 8 * g = 4 := by omega
    rw [h4]
    exact Nat.mod_lt _ (by norm_num)
  simp only [writtenOwn, BitVec.toNat_ofNat, Nat.mod_eq_of_lt hlt]

section
variable {s : State} {gid j : Nat} {n : GroupOwn}

/-- Give a group the owner of a written byte, and its PASTURE, unless AUTO is 1. -/
def State.ownerWritten (s : State) (gid : Nat) (n : GroupOwn) : State :=
  if s.ownAuto then s
  else (s.assignGroup gid n.owner).putOwn gid { (s.assignGroup gid n.owner).groupOwn gid with pas := n.pas }

theorem beyondGroups_ownerWritten (s : State) (gid : Nat) (n : GroupOwn) : (s.ownerWritten gid n).beyondGroups = s.beyondGroups := by
  unfold State.ownerWritten
  split
  · rfl
  · exact beyondGroups_assignGroup ..

theorem eightGroups_ownerWritten (h : s.eightGroups) : (s.ownerWritten gid n).eightGroups := by
  unfold State.ownerWritten
  split
  · exact h
  · exact eightGroups_putOwn (eightGroups_assignGroup h)

theorem groupOwn_ownerWritten_same (h : s.eightGroups) (ha : s.ownAuto = false) :
    (s.ownerWritten gid n).groupOwn gid = { (s.groupOwn gid).assigned n.owner with pas := n.pas } := by
  rw [State.ownerWritten, if_neg (Bool.eq_false_iff.mp ha), groupOwn_putOwn_same (eightGroups_assignGroup h),
    groupOwn_assignGroup_same h]

theorem groupOwn_ownerWritten_other (h : gid ≠ j) : (s.ownerWritten gid n).groupOwn j = s.groupOwn j := by
  unfold State.ownerWritten
  split
  · rfl
  · exact (groupOwn_putOwn_other h).trans (groupOwn_assignGroup_other h)

end

section
variable {s : State} {st g j : Nat} {v : Word}

theorem ownWriteGroup_eq (s : State) (st : Nat) (v : Word) (g : Nat) : s.ownWriteGroup st v g =
    (s.ownerWritten (8 * st + g) (writtenOwn v g)).putOwn (8 * st + g)
      { (s.ownerWritten (8 * st + g) (writtenOwn v g)).groupOwn (8 * st + g) with xfer := (writtenOwn v g).xfer } := rfl

theorem beyondGroups_ownWriteGroup (s : State) (st : Nat) (v : Word) (g : Nat) :
    (s.ownWriteGroup st v g).beyondGroups = s.beyondGroups := beyondGroups_ownerWritten ..

theorem eightGroups_ownWriteGroup (h : s.eightGroups) : (s.ownWriteGroup st v g).eightGroups :=
  eightGroups_putOwn (eightGroups_ownerWritten h)

theorem groupOwn_ownWriteGroup_same (h : s.eightGroups) (ha : s.ownAuto = false) :
    (s.ownWriteGroup st v g).groupOwn (8 * st + g) = (s.groupOwn (8 * st + g)).written (writtenOwn v g) := by
  rw [ownWriteGroup_eq, groupOwn_putOwn_same (eightGroups_ownerWritten h), groupOwn_ownerWritten_same h ha]
  rfl

theorem groupOwn_ownWriteGroup_other (h : 8 * st + g ≠ j) : (s.ownWriteGroup st v g).groupOwn j = s.groupOwn j := by
  rw [ownWriteGroup_eq, groupOwn_putOwn_other h, groupOwn_ownerWritten_other h]

/-- A write of STK_OWN_s, group by group. -/
def State.ownWrite (s : State) (st : Nat) (v : Word) : State := (List.range 8).foldl (fun s g => s.ownWriteGroup st v g) s

theorem beyondGroups_ownWrite : (s.ownWrite st v).beyondGroups = s.beyondGroups :=
  foldl_keeps State.beyondGroups (fun s g => beyondGroups_ownWriteGroup s st v g) _ s

theorem groupOwn_ownWrite (h : s.eightGroups) (ha : s.ownAuto = false) (hg : g < 8) :
    (s.ownWrite st v).groupOwn (8 * st + g) = (s.groupOwn (8 * st + g)).written (writtenOwn v g) :=
  foldl_get_of_kept (get := State.groupOwn) (g := fun s g => s.ownWriteGroup st v g) (key := fun g => 8 * st + g)
    (Kept := fun u => u.eightGroups ∧ u.beyondGroups = s.beyondGroups) (v := fun o => o.written (writtenOwn v g))
    (fun _ _ _ => groupOwn_ownWriteGroup_other)
    (fun u x ⟨hu, hbeyond⟩ => ⟨eightGroups_ownWriteGroup hu, (beyondGroups_ownWriteGroup u st v x).trans hbeyond⟩)
    (fun a b e => by simpa using e) List.nodup_range (List.mem_range.mpr hg)
    (fun _ ⟨hu, hbeyond⟩ => groupOwn_ownWriteGroup_same hu ((beyondGroups_parts hbeyond).1.trans ha)) ⟨h, rfl⟩

theorem groupOwn_ownWrite_other (h : j / 8 ≠ st) : (s.ownWrite st v).groupOwn j = s.groupOwn j :=
  foldl_get_other (get := State.groupOwn) (key := fun g => 8 * st + g) (fun _ _ _ => groupOwn_ownWriteGroup_other)
    (fun g hg e => h (by have := List.mem_range.mp hg; omega)) s

variable {fn : FnId} {st : StackId}

theorem ownershipWrite_writes (hf : fn.val = 0) (h : ∀ g < 8, s.ownWriteRefused st v g = false) :
    exec (.ownershipWrite fn st v) s = .next (s.ownWrite st v) := by
  have hnone : (List.range 8).find? (s.ownWriteRefused st v) = none :=
    List.find?_eq_none.mpr fun g hg => by rw [h g (List.mem_range.mp hg)]; exact Bool.false_ne_true
  simp only [exec, execOwnershipWrite, hf, hnone, ne_eq, not_true_eq_false, if_false, State.ownWrite]

theorem ownershipWrite_refused (hf : fn.val = 0) (h : (List.range 8).find? (s.ownWriteRefused st v) = some g) :
    exec (.ownershipWrite fn st v) s = .next (Claims.ownRefusal s (8 * st + g)) := by
  simp only [exec, execOwnershipWrite, hf, h, ne_eq, not_true_eq_false, if_false, State.ownRefused, Claims.ownRefusal]

theorem ownershipWrite_stranger (hf : fn.val ≠ 0) : exec (.ownershipWrite fn st v) s = .next s := by
  simp only [exec, execOwnershipWrite, hf, ne_eq, not_false_eq_true, if_true, nothing]

end

/-! ### Automatic ownership (R248, R249) -/

section
variable {s : State}

theorem pasOf_lt {vx p : Nat} (h : s.pasOf vx = some p) : p < 16 := List.mem_range.mp (List.mem_of_find?_eq_some h)

theorem autoOwner_lt {gid p : Nat} (h : s.autoOwner gid = some p) : p < 16 := by
  unfold State.autoOwner at h
  extract_lets w at h
  split at h
  · cases h
  · exact pasOf_lt h

/-- The automatic rule at one group: a reserved one keeps its owner. -/
def State.autoGroup (s : State) (gid : Nat) : State := if (s.groupOwn gid).xfer then s else s.assignGroup gid (s.autoOwner gid)

theorem beyondGroups_autoGroup (s : State) (gid : Nat) : (s.autoGroup gid).beyondGroups = s.beyondGroups := by
  unfold State.autoGroup
  split
  · rfl
  · exact beyondGroups_assignGroup ..

theorem eightGroups_autoGroup {gid : Nat} (h : s.eightGroups) : (s.autoGroup gid).eightGroups := by
  unfold State.autoGroup
  split
  · exact h
  · exact eightGroups_assignGroup h

theorem groupOwn_autoGroup_other {gid j : Nat} (h : gid ≠ j) : (s.autoGroup gid).groupOwn j = s.groupOwn j := by
  unfold State.autoGroup
  split
  · rfl
  · exact groupOwn_assignGroup_other h

theorem groupOwn_autoGroup_same {gid : Nat} (h : s.eightGroups) : (s.autoGroup gid).groupOwn gid =
    if (s.groupOwn gid).xfer then s.groupOwn gid else (s.groupOwn gid).assigned (s.autoOwner gid) := by
  unfold State.autoGroup
  split
  · rfl
  · exact groupOwn_assignGroup_same h

theorem applyAuto_on (h : s.ownAuto = true) : s.applyAuto = s.autoChanges.foldl State.autoGroup s := if_pos h

theorem beyondGroups_applyAuto (h : s.ownAuto = true) : s.applyAuto.beyondGroups = s.beyondGroups := by
  rw [applyAuto_on h]
  exact foldl_keeps State.beyondGroups beyondGroups_autoGroup _ s

theorem mem_autoChanges {gid : Nat} : gid ∈ s.autoChanges ↔ gid < 64 ∧ (s.groupOwn gid).owner ≠ s.autoOwner gid := by
  simp only [State.autoChanges, List.mem_filter, List.mem_range, decide_eq_true_eq]

theorem autoChanges_nodup : s.autoChanges.Nodup := List.nodup_range.filter _

/-- The automatic rule gives a group of a list, not reserved, to its owner under the rule in the state before. -/
theorem groupOwn_autoGroups {gid : Nat} {l : List Nat} (h : s.eightGroups) (hl : l.Nodup) (hg : gid ∈ l)
    (hx : (s.groupOwn gid).xfer = false) : (l.foldl State.autoGroup s).groupOwn gid = (s.groupOwn gid).assigned (s.autoOwner gid) := by
  have hsame : ∀ u : State, u.eightGroups ∧ u.beyondGroups = s.beyondGroups → (u.autoGroup gid).groupOwn gid =
      if (u.groupOwn gid).xfer then u.groupOwn gid else (u.groupOwn gid).assigned (s.autoOwner gid) := fun u ⟨hu, hbeyond⟩ => by
    obtain ⟨-, -, howner⟩ := beyondGroups_parts hbeyond
    rw [groupOwn_autoGroup_same hu, howner]
  have hgroup := foldl_get_of_kept (get := State.groupOwn) (g := State.autoGroup) (key := fun g => g)
    (Kept := fun u => u.eightGroups ∧ u.beyondGroups = s.beyondGroups)
    (v := fun o => if o.xfer then o else o.assigned (s.autoOwner gid)) (fun _ _ _ => groupOwn_autoGroup_other)
    (fun u x ⟨hu, hbeyond⟩ => ⟨eightGroups_autoGroup hu, (beyondGroups_autoGroup u x).trans hbeyond⟩) (fun _ _ e => e) hl hg hsame
    ⟨h, rfl⟩
  exact hgroup.trans (if_neg (Bool.eq_false_iff.mp hx))

/-- The ports give a group that is not reserved to its owner under the automatic rule. -/
theorem owner_applyAuto {gid : Nat} (h : s.eightGroups) (ha : s.ownAuto = true) (hg : gid < 64)
    (hx : gid ∈ s.autoChanges → (s.groupOwn gid).xfer = false) : (s.applyAuto.groupOwn gid).owner = s.autoOwner gid := by
  rw [applyAuto_on ha]
  by_cases hc : gid ∈ s.autoChanges
  · rw [groupOwn_autoGroups h autoChanges_nodup hc (hx hc), owner_assigned _ fun p => autoOwner_lt]
  · rw [foldl_get_other (get := State.groupOwn) (g := State.autoGroup) (key := fun g => g) (k := gid)
      (fun _ _ _ => groupOwn_autoGroup_other) fun x hx e => hc (e ▸ hx)]
    by_contra hne
    exact hc (mem_autoChanges.mpr ⟨hg, hne⟩)

theorem autoEnable_applies (ha : s.ownAuto = false) (h : ∀ g ∈ s.autoChanges, s.ownBusy g (s.autoOwner g) = false) :
    exec .autoEnable s = .next ({ s with ownAuto := true }).applyAuto := by
  have hnone : (s.autoChanges.find? fun g => s.ownBusy g (s.autoOwner g)) = none :=
    List.find?_eq_none.mpr fun g hg => by rw [h g hg]; exact Bool.false_ne_true
  simp only [exec, execAutoEnable, ha, hnone, Bool.false_eq_true, if_false]

theorem autoEnable_refused {gid : Nat} (ha : s.ownAuto = false)
    (h : (s.autoChanges.find? fun g => s.ownBusy g (s.autoOwner g)) = some gid) :
    exec .autoEnable s = .next (Claims.ownRefusal s gid) := by
  simp only [exec, execAutoEnable, ha, h, Bool.false_eq_true, if_false, State.ownRefused, Claims.ownRefusal]

theorem autoEnable_on (ha : s.ownAuto = true) : exec .autoEnable s = .next s := by
  simp only [exec, execAutoEnable, ha, if_true, nothing]

theorem xfer_of_not_busy {gid : Nat} {owner : Option Nat} (h : s.ownBusy gid owner = false) : (s.groupOwn gid).xfer = false := by
  simp only [State.ownBusy, Bool.or_eq_false_iff] at h
  obtain ⟨⟨-, hxfer⟩, -⟩ := h
  exact hxfer

end

/-! ### XFER (R265) -/

section
variable {s : State} {fn : FnId} {st : StackId} {g : Fin 8} {on : Bool}
  (hf : fn.val = 0 ∨ ((s.groupOwn (8 * st.val + g.val)).owner = some fn.val ∧ s.fnOn fn = true))
include hf

/-- PF0 and the owner's function may write XFER. -/
theorem mayWriteXfer :
    (!(fn.val = 0 || (decide ((s.groupOwn (8 * st.val + g.val)).owner = some fn.val) && s.fnOn fn.val))) = false := by
  simp only [Bool.not_eq_false', Bool.or_eq_true, Bool.and_eq_true, decide_eq_true_eq]
  exact hf

theorem groupXferWrite_writes
    (h : (s.groupOwn (8 * st.val + g.val)).xfer = false ∨ on = true ∨ s.xferBusy (8 * st.val + g.val) = false) :
    exec (.groupXferWrite fn st g on) s =
      .next (s.putOwn (8 * st.val + g.val) { s.groupOwn (8 * st.val + g.val) with xfer := on }) := by
  have hmay := mayWriteXfer hf
  have hfree : ((s.groupOwn (8 * st.val + g.val)).xfer && !on && s.xferBusy (8 * st.val + g.val)) = false := by
    rcases h with h | h | h <;> simp [h]
  simp only [exec, execGroupXferWrite, hmay, hfree, Bool.false_eq_true, if_false]

theorem groupXferWrite_refused (hx : (s.groupOwn (8 * st.val + g.val)).xfer = true) (ho : on = false)
    (hb : s.xferBusy (8 * st.val + g.val) = true) :
    exec (.groupXferWrite fn st g on) s = .next (Claims.ownRefusal s (8 * st.val + g.val)) := by
  have hmay := mayWriteXfer hf
  simp only [exec, execGroupXferWrite, hmay, hx, ho, hb, Bool.not_false, Bool.and_self, if_true, Bool.false_eq_true, if_false,
    State.ownRefused, Claims.ownRefusal]

/-- XFER is written at its group and at no other. -/
theorem groupXferWrite_byte (h8 : s.eightGroups)
    (h : (s.groupOwn (8 * st.val + g.val)).xfer = false ∨ on = true ∨ s.xferBusy (8 * st.val + g.val) = false) :
    ∃ t, exec (.groupXferWrite fn st g on) s = .next t ∧
      t.groupOwn (8 * st.val + g.val) = { s.groupOwn (8 * st.val + g.val) with xfer := on } ∧
      (∀ j, j ≠ 8 * st.val + g.val → t.groupOwn j = s.groupOwn j) ∧ t.stackMem = s.stackMem :=
  ⟨_, groupXferWrite_writes hf h, groupOwn_putOwn_same h8, fun _ hj => groupOwn_putOwn_other hj.symm, rfl⟩

end

/-! ### The end of a clear (R250) -/

/-- The state but for the tiles, the pastures and the burst commands. -/
def State.beyondPastures (s : State) : State := { s with tiles := [], pas := [], cmds := [] }

/-- The groups, the memories, the ports and the functions are beyond the pastures. -/
theorem beyondPastures_parts {s t : State} (h : t.beyondPastures = s.beyondPastures) : t.groupOwn = s.groupOwn ∧
    t.stackMem = s.stackMem ∧ t.hostMem = s.hostMem ∧ t.ports = s.ports ∧ t.fns = s.fns := by
  have hpart {α : Type} (f : State → α) : f t.beyondPastures = f s.beyondPastures := congrArg f h
  exact ⟨hpart State.groupOwn, hpart State.stackMem, hpart State.hostMem, hpart State.ports, hpart State.fns⟩

theorem beyondPastures_beginBeats (s : State) (p : Nat) : (s.beginBeats p).beyondPastures = s.beyondPastures :=
  foldl_keeps State.beyondPastures (fun s k => (rfl : (s.modTile k fun t => t.atBeat0 s.now).beyondPastures = _)) (s.tilesOf p) s

/-- Pastures that waited for clears begin to beat, and nothing else changes. -/
theorem beyondPastures_startAwaiting (s : State) : s.startAwaiting.beyondPastures = s.beyondPastures := by
  refine foldl_keeps State.beyondPastures (fun s p => ?_) _ s
  split
  · extract_lets begun
    split
    · rfl
    · exact beyondPastures_beginBeats begun p
  · rfl

theorem stackKey_group {gid off : Nat} (h : off < 2 ^ 33) : stackKey gid off / 2 ^ 33 = gid := by
  simp only [stackKey]; omega

section
variable {s : State} {st : StackId} {g : Fin 8}

/-- The end of a group's clear: the group is zero and its clear is over; the pastures that waited for it begin to beat. -/
theorem groupClearDone_ends (h : (s.groupOwn (8 * st.val + g.val)).clearing = true) :
    ∃ t, exec (.groupClearDone st g) s = .next t ∧ t.beyondPastures = ((s.zeroGroup (8 * st.val + g.val)).putOwn (8 * st.val + g.val)
      { s.groupOwn (8 * st.val + g.val) with clearing := false }).beyondPastures := by
  refine ⟨_, ?_, beyondPastures_startAwaiting _⟩
  simp only [exec, execGroupClearDone, h, if_true]

theorem groupClearDone_idle (h : (s.groupOwn (8 * st.val + g.val)).clearing = false) : exec (.groupClearDone st g) s = .next s := by
  simp only [exec, execGroupClearDone, h, Bool.false_eq_true, if_false, nothing]

theorem zeroGroup_same {gid off : Nat} (h : off < 2 ^ 33) : smapGet 0 (s.zeroGroup gid).stackMem (stackKey gid off) = 0 :=
  smapGet_keep_dropped (p := fun k => decide (k / 2 ^ 33 ≠ gid)) s.stackMem (decide_eq_false fun hne => hne (stackKey_group h))

theorem zeroGroup_other {gid a : Nat} (hm : Memory.wf s.stackMem = true) (h : a / 2 ^ 33 ≠ gid) :
    smapGet 0 (s.zeroGroup gid).stackMem a = smapGet 0 s.stackMem a :=
  smapGet_keep_kept (p := fun k => decide (k / 2 ^ 33 ≠ gid)) hm (decide_eq_true h)

end

end Sys2Proof.Machine

namespace Sys2Proof.Settled
open Sys2Proof Sys2Proof.Machine

theorem ownershipCommands : Claims.OwnershipCommands := by
  intro fn st g gid value on s
  exact ⟨ownershipWrite_writes, ownershipWrite_refused, ownershipWrite_stranger, autoEnable_applies, autoEnable_refused,
    groupXferWrite_writes, groupXferWrite_refused⟩

theorem groupClearZeroesItsGroup : Claims.GroupClearZeroesItsGroup := by
  intro st g s h
  obtain ⟨t, hexec, ht⟩ := groupClearDone_ends h
  obtain ⟨hown, hmem, hhost, hports, hfns⟩ := beyondPastures_parts ht
  refine ⟨t, hexec, fun off hoff => ?zero, fun hm a ha => ?other, ?ended, hhost, hports, hfns⟩
  case zero => rw [hmem]; exact zeroGroup_same hoff
  case other => rw [hmem]; exact zeroGroup_other hm ha
  case ended => rw [hown]; exact clearing_putOwn rfl

/-- Settles O20: each command by the check that decides it, and a clear by the keys of its group that it drops. -/
theorem ownershipAndClears : Obligations.OwnershipAndClears := ⟨ownershipCommands, groupClearZeroesItsGroup⟩

/-- Settles O21: a write and the automatic rule change one group's byte at a time, and a clear and XFER one byte alone. -/
theorem groupCommandsComplete : Obligations.GroupCommandsComplete := by
  intro st g value on s h8 gid o only
  refine ⟨fun h => ?cleared, groupClearDone_idle, fun ha h => ?written, fun ha h => ?auto, autoEnable_on,
    groupXferWrite_byte (.inl rfl) h8, fun fn ho hon => groupXferWrite_byte (.inr ⟨ho, hon⟩) h8⟩
  case cleared =>
    obtain ⟨t, hexec, ht⟩ := groupClearDone_ends h
    obtain ⟨hown, hmem, -⟩ := beyondPastures_parts ht
    have hzero8 : (s.zeroGroup gid).eightGroups := h8
    refine ⟨t, hexec, ?_, fun j hj => ?_, fun off hoff => ?_⟩
    · rw [hown]; exact groupOwn_putOwn_same hzero8
    · rw [hown]; exact groupOwn_putOwn_other hj.symm
    · rw [hmem]; exact zeroGroup_same hoff
  case written =>
    obtain ⟨-, hmem, -⟩ := beyondGroups_parts (beyondGroups_ownWrite (s := s) (st := st) (v := value))
    refine ⟨_, ownershipWrite_writes rfl h, hmem, fun j hj => ?_, fun j => groupOwn_ownWrite_other⟩
    rw [groupOwn_ownWrite h8 ha hj, written_eq, pas_writtenOwn]
    rfl
  case auto =>
    obtain ⟨hauto, hmem, -⟩ := beyondGroups_parts (beyondGroups_applyAuto (s := { s with ownAuto := true }) rfl)
    exact ⟨_, autoEnable_applies ha h, hauto, hmem, fun j hj => owner_applyAuto h8 rfl hj fun hc => xfer_of_not_busy (h j hc)⟩

end Sys2Proof.Settled
end

section
/-!
Submission rings (R383 to R388, R395, R265): an entry at a ring's head, refused or handled by the command of its opcode, and what each
command does with the entry it handles.
-/
namespace Sys2Proof.Machine

/-! ### Doorbells -/

/-- A fold that puts one value at many keys: each of them reads as that value. -/
theorem smapGet_foldl_put {α : Type} {d v : α} {key : Nat → Nat} {l : List Nat} {i : Nat} (h : i ∈ l) (m : SMap α) :
    smapGet d (l.foldl (fun m i => smapPut m (key i) v) m) (key i) = v := by
  induction l using List.reverseRecOn with
  | nil => cases h
  | append_singleton l j ih =>
    rw [List.foldl_append, List.foldl_cons, List.foldl_nil, smapGet_put]
    split
    · rfl
    · next hne =>
      refine ih ((List.mem_append.mp h).resolve_right fun hj => hne ?_)
      rw [List.mem_singleton.mp hj]

/-- A function's ring with a new tail: each entry it makes visible is stamped with the time. -/
def Fn.rung (f : Fn) (ring : Nat) (tail : Byte) (time : Nat) : Fn :=
  { f with sqTail := smapPut f.sqTail ring tail
           sqTime := (List.range (tail - smapGet 0 f.sqTail ring).toNat).foldl
             (fun m i => smapPut m (256 * ring + ((smapGet 0 f.sqTail ring).toNat + i) % 256) time) f.sqTime }

theorem rung_sqTime (f : Fn) {ring time i : Nat} {tail : Byte} (hi : i < (tail - smapGet 0 f.sqTail ring).toNat) :
    smapGet 0 (f.rung ring tail time).sqTime (256 * ring + ((smapGet 0 f.sqTail ring).toNat + i) % 256) = time :=
  smapGet_foldl_put (key := fun i => 256 * ring + ((smapGet 0 f.sqTail ring).toNat + i) % 256) (List.mem_range.mpr hi) _

section
variable {s : State} {fn : FnId} {ring : Fin 16}

theorem doorbell_rings {tail : Byte} (hup : s.hifUp = true) (hon : s.fnOn fn = true) :
    exec (.doorbell fn ring tail) s = .next (s.modFn fn fun f => f.rung ring tail s.hifTime.toNat) := by
  simp only [exec, execDoorbell, hup, hon, Bool.and_self, Bool.not_true, Bool.false_eq_true, if_false, Fn.rung]

/-! ### The entry at a ring's head -/

variable {id : EntryId} {e : List Byte} {mine : List Byte → Bool} {act : State → EntryId → List Byte → State}

/-- An entry that a check refuses completes with its status (R384). -/
theorem onEntry_refuses {st : Status} (h : s.headEntry fn ring = some (id, e)) (hr : entryRefusal fn e = some st) (hm : mine e = true) :
    s.onEntry fn ring mine act = .next ((s.fetched fn ring).answer id e st) := by
  simp only [State.onEntry, h, hr, hm, Bool.not_true, Bool.false_eq_true, if_false]

/-- An entry that no check refuses is handled. -/
theorem onEntry_acts (h : Claims.entry s fn ring id e = true) (hm : mine e = true) :
    s.onEntry fn ring mine act = .next (act (s.fetched fn ring) id e) := by
  simp only [Claims.entry, Bool.and_eq_true, decide_eq_true_eq, Option.isNone_iff_eq_none] at h
  obtain ⟨hhead, hr⟩ := h
  simp only [State.onEntry, hhead, hr, hm, Bool.not_true, Bool.false_eq_true, if_false]

variable (h : Claims.entry s fn ring id e = true)
include h

/-! ### RUN (R388) -/

section
variable (hop : entOp e = 1)
include hop

/-- A refused run counts and completes. -/
theorem run_refused {st : Status} (ha : (s.fetched fn ring).admission (entPas e) e (s.doorbellTime fn ring) = .inl st) :
    exec (.run fn ring) s =
      .next (((s.fetched fn ring).modPas (entPas e) fun x => { x with rejects := satInc x.rejects }).complete fn
        { id.completion 1 (entPas e) st with vector := 16 }) := by
  rw [exec, execRun, onEntry_acts h (by simp [hop])]
  simp only [ha]

/-- An admitted run joins its pasture's queue, and its admission is posted where the entry asks for that. -/
theorem run_admitted {r : EntryRec} {d : Nat}
    (ha : (s.fetched fn ring).admission (entPas e) e (s.doorbellTime fn ring) = .inr (r, d)) :
    let run := runOf id e (entPas e) (s.runCount + 1).toNat d r
    let admitted := ({ s.fetched fn ring with runCount := s.runCount + 1 }).modPas (entPas e) fun x => { x with runs := x.runs ++ [run] }
    exec (.run fn ring) s = .next (if entFlags e % 2 = 1 then admitted.complete fn
      { id.completion 1 (entPas e) St.OK with kind := 1, runId := run.runId, deadline := BitVec.ofNat 64 d } else admitted) := by
  intro run admitted
  rw [exec, execRun, onEntry_acts h (by simp [hop])]
  simp only [ha]
  rfl

end

/-! ### ABORT (R386, R395) -/

section
variable (hop : entOp e = 2)
include hop

theorem abort_none (hr : (((s.fetched fn ring).pasture (entPas e)).runs.find? fun r => targets id e r.id) = none)
    (hc : ((s.fetched fn ring).func fn).heldTarget (entPas e) e = none) :
    exec (.abort fn ring) s = .next ((s.fetched fn ring).answerAbort id (entPas e) St.HOST_NO_SUCH_RUN 0) := by
  rw [exec, execAbort, onEntry_acts h (by simp [hop])]
  simp only [hr, hc]

theorem abort_run {r : Run} (hr : (((s.fetched fn ring).pasture (entPas e)).runs.find? fun r => targets id e r.id) = some r)
    (hc : ((s.fetched fn ring).func fn).heldTarget (entPas e) e = none) :
    exec (.abort fn ring) s = .next ((s.fetched fn ring).abortRun id (entPas e) r) := by
  rw [exec, execAbort, onEntry_acts h (by simp [hop])]
  simp only [hr, hc]

/-- A target whose completion is still held, and that no older run of its tag precedes, is over (R395). -/
theorem abort_held {c : Completion} (hc : ((s.fetched fn ring).func fn).heldTarget (entPas e) e = some c)
    (hold : ∀ o, (((s.fetched fn ring).pasture (entPas e)).runs.find? fun r => targets id e r.id) = some o → c.runId ≤ o.runId) :
    exec (.abort fn ring) s = .next ((s.fetched fn ring).answerAbort id (entPas e) St.HOST_NOTHING_TO_ABORT c.runId) := by
  rw [exec, execAbort, onEntry_acts h (by simp [hop])]
  cases hr : ((s.fetched fn ring).pasture (entPas e)).runs.find? fun r => targets id e r.id with
  | none => simp only [hr, hc]
  | some o => simp only [hr, hc, hold o hr, if_true]

end

/-! ### MSG, CANCEL and XFER (R386, R265) -/

/-- The request that a MSG entry describes, with a reply slot. -/
def msgRequest (fn : FnId) (e : List Byte) (n : Nat) : Request :=
  { reg := decide (entFlags e = 2), src := .fn fn, vx := leAt e 8 1, vy := leAt e 9 1, chan := BitVec.ofNat 3 (leAt e 10 1),
    handler := BitVec.ofNat 4 (leAt e 11 1), slot := BitVec.ofNat 6 n,
    payload := slice e 16 (if entFlags e = 2 then 16 else leAt e 12 1) }

theorem msg_sends {n : Nat} (hop : entOp e = 5) (hn : ((s.fetched fn ring).func fn).freeSlot = some n) :
    exec (.msg fn ring) s = .next (((s.fetched fn ring).modFn fn fun f => { f with msgs := f.msgs ++
      [{ id := id, pas := entPas e, slot := BitVec.ofNat 6 n, req := msgRequest fn e n }] }).send (.request (msgRequest fn e n))) := by
  rw [exec, execMsg, onEntry_acts h (by simp [hop])]
  simp only [hn, decide_eq_true_eq, msgRequest]

theorem cancelMsg_withdraws {m : HostMsg} (hop : entOp e = 6) (hm : (((s.fetched fn ring).func fn).msgs.find? fun m =>
      m.blocked.isSome && decide (m.pas = entPas e) && targets id e m.id) = some m) :
    exec (.cancelMsg fn ring) s =
      .next ((((s.fetched fn ring).withdraw m.req).endHostMsg fn m St.CNW_SEND_CANCELLED []).answer id e St.OK) := by
  rw [exec, execCancelMsg, onEntry_acts h (by simp [hop])]
  simp only [hm]

theorem xfer_refused (hop : entOp e = 4) (hx : (s.fetched fn ring).xferOk (transferOf id e (s.fetched fn ring).now) = false) :
    exec (.xfer fn ring) s = .next ((s.fetched fn ring).answer id e St.STACK_XFER_RANGE) := by
  rw [exec, execXfer, onEntry_acts h (by simp [hop])]
  simp only [hx, Bool.not_false, if_true]

/-- A transfer that is in range is under way; a spill sends its first page. -/
theorem xfer_begins {x : Transfer} (hop : entOp e = 4) (hx : transferOf id e (s.fetched fn ring).now = x)
    (hok : (s.fetched fn ring).xferOk x = true) :
    exec (.xfer fn ring) s = .next (if x.restore then { s.fetched fn ring with xfers := s.xfers ++ [x] }
      else { s.fetched fn ring with xfers := s.xfers ++ [x] }.sendPage x) := by
  rw [exec, execXfer, onEntry_acts h (by simp [hop])]
  simp only [hx, hok, Bool.not_true, Bool.false_eq_true, if_false]
  rfl

end

/-! ### A run that is aborted (R386, R395) -/

section
variable {s : State} {id : EntryId} {p : Nat} {r : Run}

/-- The pasture without an aborted run. -/
def State.withoutRun (s : State) (p : Nat) (r : Run) : State := s.modPas p fun x => { x.removeRun r with storeDue := true }

theorem abortRun_over (h : r.stage = .recorded ∨ r.stage = .held) :
    s.abortRun id p r = s.answerAbort id p St.HOST_NOTHING_TO_ABORT r.runId := if_pos (by simpa using h)

theorem started_running (h : s.started p r = true) : r.stage = .running := by
  simp only [State.started, Bool.and_eq_true, decide_eq_true_eq] at h
  exact h.1

theorem abortRun_waiting (h : r.stage = .queued ∨ r.stage = .ingressed) :
    s.abortRun id p r = (s.withoutRun p r).answerAbort id p St.HOST_ABORTED r.runId := by
  have hbegun : s.started p r = false := Bool.eq_false_iff.mpr fun hb => by simp [started_running hb] at h
  rcases h with h | h <;> simp [State.abortRun, hbegun, h, State.withoutRun]

theorem abortRun_unstarted (h : r.stage = .running) (hb : s.started p r = false) :
    s.abortRun id p r = ((s.withoutRun p r).unstart p).answerAbort id p St.HOST_ABORTED r.runId := by
  simp [State.abortRun, hb, h, State.withoutRun]

theorem abortRun_begun (hb : s.started p r = true) : s.abortRun id p r =
    ((((s.withoutRun p r).endStall p).resetUnits p).resumeBeats p).answerAbort id p St.HOST_ABORTED r.runId := by
  simp [State.abortRun, hb, started_running hb, State.withoutRun]

end

end Sys2Proof.Machine

namespace Sys2Proof.Settled
open Sys2Proof Sys2Proof.Machine

theorem doorbellsAndRefusedEntries : Claims.DoorbellsAndRefusedEntries := by
  intro fn ring tail s id e st
  refine ⟨fun hup hon => ?doorbell, fun hhead hr => ⟨fun hop => ?run, fun hop => ?abort, fun hop => ?xfer, fun hop => ?msg,
    fun hop => ?cancel⟩⟩
  case doorbell =>
    refine ⟨_, doorbell_rings hup hon, ?_⟩
    rw [State.modFn_func_same]
    exact ⟨smapGet_put_same .., rfl, fun i hi => rung_sqTime _ hi, rfl⟩
  case run => rw [exec, execRun]; exact onEntry_refuses hhead hr (by simp [hop])
  case abort => rw [exec, execAbort]; exact onEntry_refuses hhead hr (by simp [hop])
  case xfer => rw [exec, execXfer]; exact onEntry_refuses hhead hr (by simp [hop])
  case msg => rw [exec, execMsg]; exact onEntry_refuses hhead hr (by simp [hop])
  case cancel => rw [exec, execCancelMsg]; exact onEntry_refuses hhead hr (by simp [hop])

theorem runAdmission : Claims.RunAdmission := by
  intro fn ring s id e r d st s1 p run admitted h hop
  refine ⟨fun ha hflag => ?unasked, fun ha hflag => ?asked, run_refused h hop⟩
  case unasked => exact (run_admitted h hop ha).trans (congrArg _ (if_neg (by omega)))
  case asked => exact (run_admitted h hop ha).trans (congrArg _ (if_pos hflag))

theorem ringEntries : Claims.RingEntries := by
  intro fn ring s id e r hc m n s1 p msg x h without
  refine ⟨fun hop hr hheld => ?aborts, fun hop => abort_none h hop, fun hop => abort_held h hop, fun hop => msg_sends h hop,
    fun hop => cancelMsg_withdraws h hop, fun hop hok hx => ?restore, fun hop hok hx => ?spill, fun hop => xfer_refused h hop⟩
  case aborts =>
    have hrun := abort_run h hop hr hheld
    exact ⟨fun hs => hrun.trans (congrArg _ (abortRun_waiting hs)), fun hs hb => hrun.trans (congrArg _ (abortRun_unstarted hs hb)),
      fun hb => hrun.trans (congrArg _ (abortRun_begun hb)), fun hs => hrun.trans (congrArg _ (abortRun_over hs))⟩
  case restore => exact (xfer_begins h hop rfl hok).trans (congrArg _ (if_pos hx))
  case spill => exact (xfer_begins h hop rfl hok).trans (congrArg _ (if_neg (Bool.eq_false_iff.mp hx)))

/-- Settles O33: a head entry is refused or handled, and each command by what it does with the entry it handles. -/
theorem submissionRings : Obligations.SubmissionRings := ⟨doorbellsAndRefusedEntries, runAdmission, ringEntries⟩

end Sys2Proof.Settled
end

section
/-!
Context transfers (R265 to R268, R355): the transfer of a service packet, a restored page gathered and written, and a spilled page sent.
-/
namespace Sys2Proof.Machine

section
variable {s : State} {link : Fin 2} {pkt : FabPacket} {x : Transfer}

/-- A packet belongs to a transfer of its tag, pasture, store and direction. -/
theorem xferOf_spec {back : Bool} (h : s.xferOf link pkt back = some x) : x ∈ s.xfers ∧ x.restore = back ∧ x.id.tag = pkt.xfer ∧
    x.pas = pkt.win.toNat ∧ x.storeId = pkt.srcChip := by
  have hmine : x ∈ s.xfers.filter fun x => x.restore == back && decide (x.id.tag = pkt.xfer) && decide (x.pas = pkt.win.toNat)
      && decide (x.storeId = pkt.srcChip) := by
    unfold State.xferOf at h
    extract_lets mine at h
    split at h
    · next hf => exact Option.some.inj h ▸ List.mem_of_find?_eq_some hf
    · exact List.mem_of_head? h
  simpa [and_assoc] using hmine

/-! ### Pages that arrive (R267, R355) -/

/-- What the data of a packet that carries a restored page's next bytes makes of its transfer. -/
def State.pageData (s : State) (x : Transfer) (pkt : FabPacket) (stackOk : Bool) : State :=
  let got := x.got ++ pkt.data
  if got.length < pageBytes then s.putXfer x { x with got := got, time := s.now }
  else if pkt.count ≠ crc32c (got.take pageBytes) then s.failXfer x St.STACK_XFER_CRC true
  else if !stackOk then s.pageUnwritten x
  else ((s.stackWrite x.pas (x.saddr + pageBytes * x.done) (got.take pageBytes)).ackPage x).pageDone x

section
variable (hcls : pkt.cls = 2) (he : pkt.e2eOk = true) (hup : (s.port (18 + link.val)).state.carries = true)
include hcls he hup

theorem svcData_inOrder (ok : Bool) (hp : pkt.ptype = 0x10) (hx : (s.takeService (18 + link.val) pkt).xferOf link pkt true = some x)
    (ho : pkt.offset.toNat = (32768 * x.done + x.got.length) % 2 ^ 32) :
    exec (.svcData link pkt ok) s = .next ((s.takeService (18 + link.val) pkt).pageData x pkt ok) := by
  have ho' : pkt.offset.toNat = (pageBytes * x.done + x.got.length) % 2 ^ 32 := ho
  simp only [exec, execSvcData, hp, hcls, hup, he, hx, ho', State.pageData, ne_eq, not_true_eq_false, decide_false, Bool.not_true,
    Bool.or_self, Bool.false_eq_true, if_false, apply_ite Host.Outcome.next]

theorem svcAck_inOrder (hp : pkt.ptype = 0x11) (hx : (s.takeService (18 + link.val) pkt).xferOf link pkt false = some x)
    (ho : pkt.offset.toNat = (32768 * x.done) % 2 ^ 32) :
    exec (.svcAck link pkt) s = .next ((s.takeService (18 + link.val) pkt).pageDone x) := by
  have ho' : pkt.offset.toNat = (pageBytes * x.done) % 2 ^ 32 := ho
  simp only [exec, execSvcAck, hp, hcls, hup, he, hx, ho', ne_eq, not_true_eq_false, decide_false, Bool.not_true,
    Bool.or_self, Bool.false_eq_true, if_false, if_true]

end

section
variable {ok : Bool} {got : List Byte} (hgot : x.got ++ pkt.data = got)
include hgot

theorem pageData_partial (h : got.length < 32768) : s.pageData x pkt ok = s.putXfer x { x with got := got, time := s.now } := by
  subst hgot
  exact if_pos h

variable (hwhole : 32768 ≤ got.length)
include hwhole

theorem pageData_badCrc (hc : pkt.count ≠ crc32c (got.take 32768)) : s.pageData x pkt ok = s.failXfer x St.STACK_XFER_CRC true := by
  subst hgot
  exact (if_neg (Nat.not_lt.mpr hwhole)).trans (if_pos hc)

theorem pageData_goodCrc (hc : pkt.count = crc32c (got.take 32768)) : s.pageData x pkt ok = if ok
    then ((s.stackWrite x.pas (x.saddr + 32768 * x.done) (got.take 32768)).ackPage x).pageDone x else s.pageUnwritten x := by
  subst hgot
  refine ((if_neg (Nat.not_lt.mpr hwhole)).trans (if_neg (not_not.mpr hc))).trans ?_
  cases ok <;> rfl

end

/-- A page that the stack port cannot write is recorded at its port, and stops the pasture (R260). -/
theorem pageUnwritten_at {g off : Nat} (h : s.stackPlace x.pas ((x.saddr + 32768 * x.done : Nat) : Int) = some (g, off)) :
    s.pageUnwritten x = (((s.modStack (g / 8) fun y => { y with retries := satInc y.retries }).stkRecord (g / 8) x.pas
      ((x.saddr + 32768 * x.done : Nat) : Int) St.STACK_WRITE_FAIL).failXfer x St.STACK_WRITE_FAIL true).stopPasture x.pas
        St.STACK_WRITE_FAIL := by
  simp only [State.pageUnwritten, pageBytes]
  rw [h]

/-! ### Pages that are sent, and timeouts (R267) -/

theorem sendPage_waits (h : s.storeReachable x = false ∨ (s.port (18 + x.link.val)).state.carries = false) : s.sendPage x = s :=
  if_pos (by rcases h with h | h <;> simp [h])

theorem sendPage_sends {u : State} {bs : List Byte} (hr : s.storeReachable x = true)
    (hup : (s.port (18 + x.link.val)).state.carries = true)
    (hf : s.stackFetch x.pas (x.saddr + 32768 * x.done) 32768 = (u, some bs)) :
    s.sendPage x = (u.putXfer x { x with sent := true }).sendService x.link.val (u.pagePackets x x.done bs) := by
  simp only [State.sendPage, hr, hup, pageBytes, hf, Bool.not_true, Bool.or_self, Bool.false_eq_true, if_false]

theorem xferLinkTimeout_fails (h : (s.xfers.find? fun x => decide (x.link = link) && decide (x.time + 10 * msT ≤ s.now)) = some x) :
    exec (.xferLinkTimeout link) s = .next (s.failXfer x St.STACK_XFER_LINK true) := by
  simp only [exec, execXferLinkTimeout, h]

end

end Sys2Proof.Machine

namespace Sys2Proof.Settled
open Sys2Proof Sys2Proof.Machine

/-- Settles O42: a packet in order by what its data makes of the page, a spilled page by whether its store is reached. -/
theorem contextTransfers : Obligations.ContextTransfers := by
  intro link pkt ok s x s1 got page hcls he hup
  refine ⟨fun hp hx ho => ?data, svcAck_inOrder hcls he hup, fun back => xferOf_spec, sendPage_waits, fun u bs => sendPage_sends,
    xferLinkTimeout_fails⟩
  case data =>
    have hexec (ok : Bool) : exec (.svcData link pkt ok) s = .next (s1.pageData x pkt ok) := svcData_inOrder hcls he hup ok hp hx ho
    refine ⟨fun hl => ?gathered, fun hl hc => ?written, fun hl hc => ?bad, fun g off hl hc hplace => ?unwritten⟩
    case gathered => rw [hexec, pageData_partial rfl hl]
    case written => rw [hexec, pageData_goodCrc rfl hl hc, if_pos rfl]
    case bad => rw [hexec, pageData_badCrc rfl hl hc]
    case unwritten => rw [hexec, pageData_goodCrc rfl hl hc, if_neg Bool.false_ne_true, pageUnwritten_at hplace]

end Sys2Proof.Settled
end

section
/-!
Folds at the bellwether (R289, R290): the eight operations, that they are commutative and associative, and that contributions may arrive in
any order.
-/
namespace Sys2Proof.Machine

/-! ### The operations -/

theorem opcode3_cases : ∀ op : BitVec 3, op = 0 ∨ op = 1 ∨ op = 2 ∨ op = 3 ∨ op = 4 ∨ op = 5 ∨ op = 6 ∨ op = 7 := by decide

section
variable (a b c : BitVec 32)

theorem combine_add : combine 0 a b = a + b := rfl
theorem combine_and : combine 1 a b = a &&& b := rfl
theorem combine_or : combine 2 a b = a ||| b := rfl
theorem combine_xor : combine 3 a b = a ^^^ b := rfl

theorem combine_minUnsigned : (combine 4 a b).toNat = min a.toNat b.toNat := by
  rw [show combine 4 a b = if a ≤ b then a else b from rfl, apply_ite BitVec.toNat, min_def]
  simp only [BitVec.le_def]

theorem combine_maxUnsigned : (combine 5 a b).toNat = max a.toNat b.toNat := by
  rw [show combine 5 a b = if a ≤ b then b else a from rfl, apply_ite BitVec.toNat, max_def]
  simp only [BitVec.le_def]

theorem combine_minSigned : (combine 6 a b).toInt = min a.toInt b.toInt := by
  rw [show combine 6 a b = if a.sle b then a else b from rfl, apply_ite BitVec.toInt, min_def]
  simp only [BitVec.sle_iff_toInt_le]

theorem combine_maxSigned : (combine 7 a b).toInt = max a.toInt b.toInt := by
  rw [show combine 7 a b = if a.sle b then b else a from rfl, apply_ite BitVec.toInt, max_def]
  simp only [BitVec.sle_iff_toInt_le]

theorem combine_comm (op : BitVec 3) : combine op a b = combine op b a := by
  obtain rfl | rfl | rfl | rfl | rfl | rfl | rfl | rfl := opcode3_cases op
  · exact BitVec.add_comm a b
  · exact BitVec.and_comm a b
  · exact BitVec.or_comm a b
  · exact BitVec.xor_comm a b
  · exact BitVec.eq_of_toNat_eq (by rw [combine_minUnsigned, combine_minUnsigned, min_comm])
  · exact BitVec.eq_of_toNat_eq (by rw [combine_maxUnsigned, combine_maxUnsigned, max_comm])
  · exact BitVec.eq_of_toInt_eq (by rw [combine_minSigned, combine_minSigned, min_comm])
  · exact BitVec.eq_of_toInt_eq (by rw [combine_maxSigned, combine_maxSigned, max_comm])

theorem combine_assoc (op : BitVec 3) : combine op (combine op a b) c = combine op a (combine op b c) := by
  obtain rfl | rfl | rfl | rfl | rfl | rfl | rfl | rfl := opcode3_cases op
  · exact BitVec.add_assoc a b c
  · exact BitVec.and_assoc a b c
  · exact BitVec.or_assoc a b c
  · exact BitVec.xor_assoc a b c
  · exact BitVec.eq_of_toNat_eq (by simp only [combine_minUnsigned, min_assoc])
  · exact BitVec.eq_of_toNat_eq (by simp only [combine_maxUnsigned, max_assoc])
  · exact BitVec.eq_of_toInt_eq (by simp only [combine_minSigned, min_assoc])
  · exact BitVec.eq_of_toInt_eq (by simp only [combine_maxSigned, max_assoc])

end

/-! ### Two contributions -/

/-- A value that joins others names their operation. -/
theorem foldInto_some_iff {o q : BitVec 3} {acc v r : BitVec 32} :
    foldInto (some o) acc q v = some r ↔ o = q ∧ combine q acc v = r := by
  simp only [foldInto, Option.ite_none_right_eq_some, Option.some.injEq]

/-- Two values that join one generation name one operation and may join it in either order. -/
theorem foldInto_swap {op : Option (BitVec 3)} {o q : BitVec 3} {acc a b r t : BitVec 32} (h1 : foldInto op acc o a = some r)
    (h2 : foldInto (some o) r q b = some t) : o = q ∧ ∃ w, foldInto op acc q b = some w ∧ foldInto (some q) w o a = some t := by
  obtain ⟨rfl, rfl⟩ := foldInto_some_iff.mp h2
  refine ⟨rfl, ?_⟩
  cases op with
  | none =>
    obtain rfl : a = r := Option.some.inj h1
    exact ⟨b, rfl, foldInto_some_iff.mpr ⟨rfl, combine_comm b a o⟩⟩
  | some x =>
    obtain ⟨rfl, rfl⟩ := foldInto_some_iff.mp h1
    refine ⟨_, foldInto_some_iff.mpr ⟨rfl, rfl⟩, foldInto_some_iff.mpr ⟨rfl, ?_⟩⟩
    rw [combine_assoc, combine_comm b a, ← combine_assoc]

/-- A fold after a contribution to the generation in progress, with the partial result that it makes. -/
def Fold.joined (x : Fold) (o : BitVec 3) (r : BitVec 32) : Fold := { x with op := some o, acc := r, arrived := x.arrived + 1 }

/-- A fold after a contribution to the next generation. -/
def Fold.joinedNext (x : Fold) (o : BitVec 3) (r : BitVec 32) : Fold :=
  { x with nextOp := some o, nextAcc := r, nextCount := x.nextCount + 1 }

theorem take_current (x : Fold) {y : Fold} {g : Bool} {o : BitVec 3} {v : BitVec 32} (hg : g = x.gen) :
    x.take g o v = some y ↔ ∃ r, foldInto x.op x.acc o v = some r ∧ x.joined o r = y := by
  rw [Fold.take, if_pos hg, Option.map_eq_some_iff]
  rfl

theorem take_next (x : Fold) {y : Fold} {g : Bool} {o : BitVec 3} {v : BitVec 32} (hg : g ≠ x.gen) :
    x.take g o v = some y ↔ ∃ r, foldInto x.nextOp x.nextAcc o v = some r ∧ x.joinedNext o r = y := by
  rw [Fold.take, if_neg hg, Option.map_eq_some_iff]
  rfl

/-- A contribution whose operation is not that of its generation is refused. -/
theorem take_of_other_op {x : Fold} {g : Bool} {o q : BitVec 3} (v : BitVec 32)
    (h : (g = x.gen ∧ x.op = some q) ∨ (g ≠ x.gen ∧ x.nextOp = some q)) (hq : q ≠ o) : x.take g o v = none := by
  rcases h with ⟨hg, hop⟩ | ⟨hg, hop⟩ <;> simp [Fold.take, foldInto, hg, hop, hq]

/-! ### The contribution at the bellwether -/

section
variable {i p f k : Nat} {gen : Bool} {o : BitVec 3} {v : BitVec 32} {s s' : State} (h : s.arrives i = some (.foldIn p f k gen o v, s'))
include h

theorem foldContribution_taken {x : Fold} (hx : (s'.foldAt f).take gen o v = some x) :
    exec (.foldContribution i) s = .next (if x.members ≤ x.arrived then s'.closeFold p f x else s'.putFold f x) := by
  simp only [exec, execFoldContribution, h, hx]

theorem foldContribution_refused (hx : (s'.foldAt f).take gen o v = none) : exec (.foldContribution i) s =
    .next ((s'.cnwRecord (s'.bellwether p) St.CNW_FOLD_OP 0 0).stopPasture p St.CNW_FOLD_OP) := by
  simp only [exec, execFoldContribution, h, hx]

end

end Sys2Proof.Machine

namespace Sys2Proof.Settled
open Sys2Proof Sys2Proof.Machine

theorem foldOperations : Claims.FoldOperations := fun op a b c =>
  ⟨combine_add a b, combine_and a b, combine_or a b, combine_xor a b, combine_minUnsigned a b, combine_maxUnsigned a b,
    combine_minSigned a b, combine_maxSigned a b, combine_comm a b op, combine_assoc a b c op⟩

theorem foldOrderDoesNotMatter : Claims.FoldOrderDoesNotMatter := by
  intro x y z g h o q a b hy hz
  by_cases hg : g = x.gen <;> by_cases hh : h = x.gen
  · obtain ⟨r, hr, rfl⟩ := (take_current x hg).mp hy
    obtain ⟨t, ht, rfl⟩ := (take_current (x.joined o r) hh).mp hz
    obtain ⟨rfl, w, hw, hwt⟩ := foldInto_swap hr ht
    exact ⟨_, (take_current x hh).mpr ⟨w, hw, rfl⟩, (take_current (x.joined o w) hg).mpr ⟨t, hwt, rfl⟩⟩
  · obtain ⟨r, hr, rfl⟩ := (take_current x hg).mp hy
    obtain ⟨t, ht, rfl⟩ := (take_next (x.joined o r) hh).mp hz
    exact ⟨_, (take_next x hh).mpr ⟨t, ht, rfl⟩, (take_current (x.joinedNext q t) hg).mpr ⟨r, hr, rfl⟩⟩
  · obtain ⟨r, hr, rfl⟩ := (take_next x hg).mp hy
    obtain ⟨t, ht, rfl⟩ := (take_current (x.joinedNext o r) hh).mp hz
    exact ⟨_, (take_current x hh).mpr ⟨t, ht, rfl⟩, (take_next (x.joined q t) hg).mpr ⟨r, hr, rfl⟩⟩
  · obtain ⟨r, hr, rfl⟩ := (take_next x hg).mp hy
    obtain ⟨t, ht, rfl⟩ := (take_next (x.joinedNext o r) hh).mp hz
    obtain ⟨rfl, w, hw, hwt⟩ := foldInto_swap hr ht
    exact ⟨_, (take_next x hh).mpr ⟨w, hw, rfl⟩, (take_next (x.joinedNext o w) hg).mpr ⟨t, hwt, rfl⟩⟩

theorem foldContributions : Claims.FoldContributions := by
  refine ⟨fun t ws hctr => ?counter, fun i p f k gen o q v s s' h hop hq => foldContribution_refused h (take_of_other_op v hop hq)⟩
  case counter =>
    rw [Tile.foldValue, if_pos hctr, BitVec.toNat_setWidth_of_le (by decide)]

/-- Settles O13: every operation is a commutative and associative one of naturals, integers or bits, and a generation's contributions name one
operation. -/
theorem foldsCombine : Obligations.FoldsCombine := ⟨foldOperations, foldOrderDoesNotMatter, foldContributions⟩

end Sys2Proof.Settled
end

section
/-!
What arrives at a bellwether and at a tile (R289 to R297, R370, R371): results of folds, flags, waits and halts, the host's writes of flags,
and the timers of a waypoint.
-/
namespace Sys2Proof.Machine

/-! ### The result of a fold at a member (R290) -/

/-- A member that has its result: its holds are released, and the contribution is completed. -/
def State.takeResult (s : State) (k f : Nat) (gen : Bool) (v : BitVec 32) (e : FoldPending) (now : Nat) : State :=
  s.modTile k fun t => { t.releaseFold f gen v now with foldPend := t.foldPend.erase e }

section
variable {i p f k : Nat} {gen : Bool} {v : BitVec 32} {s s' : State} {e : FoldPending}
  (h : s.arrives i = some (.foldOut p f k gen v, s'))
  (he : ((s'.tile k).foldPend.find? fun x => decide (x.fold = f) && decide (x.gen = gen)) = some e)
include h he

/-- A result whose line is free is taken where that is its last line or a line of it is barred; one that is written nowhere is taken at once. -/
theorem foldResult_taken (hready : e.resAddr = 0xFFFF ∨ s'.rangeWaits k .service e.piece.1 e.piece.2 = false)
    (hlast : e.resAddr = 0xFFFF ∨ 4 - e.wrote ≤ e.piece.2 ∨ s.barredPiece k .service e.piece.1 (4 - e.wrote) ≠ none) :
    exec (.foldResult i) s =
      .next ((((s'.takeResult k f gen v e s.now).writeResult k p f e.resAddr e.wrote v).retryFold k p f).noteHolds p) := by
  have hwaits : ¬(decide (e.resAddr ≠ 0xFFFF) && s'.rangeWaits k .service e.piece.1 e.piece.2) = true := by
    rcases hready with hr | hr <;> simp [hr]
  have hsplit : ¬(decide (e.resAddr ≠ 0xFFFF) && decide (e.piece.2 < 4 - e.wrote) &&
      (s.barredPiece k .service e.piece.1 (4 - e.wrote)).isNone) = true := by
    rcases hlast with hl | hl | hl
    · simp [hl]
    · simp [Nat.not_lt.mpr hl]
    · simp [Option.isNone_eq_false_iff.mpr (Option.isSome_iff_ne_none.mpr hl)]
  simp only [exec, execFoldResult, h, he, hwaits, hsplit]
  rfl

variable (hr : e.resAddr ≠ 0xFFFF)
include hr

/-- The first line of a result across two lines is written, and the rest waits for a later beat (R119). -/
theorem foldResult_first (hfree : s'.rangeWaits k .service e.piece.1 e.piece.2 = false) (hm : e.piece.2 < 4 - e.wrote)
    (hb : s.barredPiece k .service e.piece.1 (4 - e.wrote) = none) : exec (.foldResult i) s = .next (s.writeFirst k e v) := by
  simp only [exec, execFoldResult, h, he, hr, hfree, hm, hb, ne_eq, not_false_eq_true, decide_true, Bool.and_false, Bool.false_eq_true,
    if_false, Option.isNone_none, Bool.and_self, if_true]

theorem foldResult_waits (hbusy : s'.rangeWaits k .service e.piece.1 e.piece.2 = true) :
    exec (.foldResult i) s = .next (s.noteRange k .service e.piece.1 e.piece.2 (.fold f)) := by
  simp only [exec, execFoldResult, h, he, hr, hbusy, ne_eq, not_false_eq_true, decide_true, Bool.and_self, if_true]

end

/-- A result of no address is not written. -/
theorem writeResult_nowhere (s : State) (k p f wrote : Nat) (v : BitVec 32) : s.writeResult k p f 0xFFFF wrote v = s := rfl

/-! ### Flags, waits and halts (R291, R292, R295, R370) -/

section
variable {i p k n w wpt b since : Nat} {on : Bool} {from_ : Option Nat} {thresh : BitVec 32} {s s' : State}

theorem flagChange_of_arrival (h : s.arrives i = some (.flag p n on from_, s')) :
    exec (.flagChange i) s = .next (s'.changeFlag p n on from_.isSome) := by
  simp only [exec, execFlagChange, h]

theorem flagWaitArrive_of_arrival (h : s.arrives i = some (.flagWait p k n on, s')) : exec (.flagWaitArrive i) s =
    .next (if (s'.pasture p).flag n = on then s'.send (.flagRelease p k n)
      else s'.modPas p fun x => { x with flagWaiters := x.flagWaiters ++ [(k, n, on)] }) := by
  simp only [exec, execFlagWaitArrive, h, beq_iff_eq, apply_ite Host.Outcome.next]

/-- A tile that only a flag holds is released. -/
theorem flagRelease_of_only (h : s.arrives i = some (.flagRelease p k n, s')) (hh : (s'.tile k).holds = [.flag n on]) :
    exec (.flagRelease i) s = .next ((s'.modTile k fun t => { t with holds := [], holdEnd := some s'.now }).noteHolds p) := by
  simp [exec, execFlagRelease, h, State.modTile, hh]

theorem waitArrive_of_arrival (h : s.arrives i = some (.winWait p k w wpt thresh since, s')) : exec (.waitArrive i) s =
    .next (if thresh ≤ ((s'.pasture p).window w).arrivals then s'.send (.winRelease p k w)
      else s'.modPas p fun x => { x with winWaiters := x.winWaiters ++
        [{ tile := k, win := w, wpt := wpt, thresh := thresh, since := since }] }) := by
  simp only [exec, execWaitArrive, h, apply_ite Host.Outcome.next]

theorem waitRelease_of_arrival (h : s.arrives i = some (.winRelease p k w, s')) : exec (.waitRelease i) s =
    .next ((s'.modTile k fun t => { t with holds := t.holds.erase (.wait w), holdEnd := some s'.now }).noteHolds p) := by
  simp only [exec, execWaitRelease, h]

/-- A pasture after one more halt notice, of beat b. -/
def Pasture.noteHalt (x : Pasture) (b : Nat) : Pasture :=
  { x with haltCount := x.haltCount + 1
           runs := x.runs.map fun r => if r.stage = .running then { r with haltMax := some (max b (r.haltMax.getD 0)) } else r }

theorem haltNotice_of_arrival (h : s.arrives i = some (.halt p k b, s')) (hr : (s'.pasture p).running = true) :
    exec (.haltNotice i) s = .next (s'.putPas p (if (s'.tilesOf p).length ≤ (s'.pasture p).haltCount + 1
      then ((s'.pasture p).noteHalt b).recordHalt (s'.logOf p) else (s'.pasture p).noteHalt b)) := by
  simp only [exec, execHaltNotice, h, hr, Bool.not_true, Bool.false_eq_true, if_false]
  rfl

end

/-! ### Host writes of flags (R291, R297) -/

/-- A change of a flag by the host is under no pasture's limit. -/
theorem send_hostFlag (s : State) (p n : Nat) (on : Bool) :
    s.send (.flag p n on none) = { s with net := s.net ++ [{ ready := some s.now, pkt := .flag p n on none }] } := rfl

theorem hostFlags_eq (s : State) (p n : Nat) (value : Word) (on : Bool) : s.hostFlags p n value on = { s with
    net := s.net ++ ((List.range 64).filter (bitAt value)).map fun i => { ready := some s.now, pkt := .flag p (64 * n + i) on none } } := by
  unfold State.hostFlags
  generalize (List.range 64).filter (bitAt value) = l
  induction l generalizing s with
  | nil => simp
  | cons i l ih => rw [List.foldl_cons, send_hostFlag, ih, List.map_cons, List.append_assoc, List.singleton_append]

section
variable {fn : FnId} {p : PasId} {s : State} (n : Fin 4) (value : Word) (h : s.mayWrite fn p = true)
include h

theorem hostFlagSet_sends : exec (.hostFlagSet fn p n value) s = .next (s.hostFlags p n value true) := if_pos h
theorem hostFlagClr_sends : exec (.hostFlagClr fn p n value) s = .next (s.hostFlags p n value false) := if_pos h

end

/-! ### The timers of a waypoint (R371) -/

/-- A pasture whose waiter v of tile k is late. -/
def Pasture.noteLate (x : Pasture) (k : Nat) (v : WinWaiter) (missing : List Nat) : Pasture :=
  { x with
    winWaiters := x.winWaiters.map fun o => if o.tile = k then { o with late := true } else o
    lateEvents := satInc x.lateEvents
    lateWpt := BitVec.ofNat 8 v.wpt
    lateWin := BitVec.ofNat 6 v.win
    lateRank := BitVec.ofNat 12 (missing.min?.getD 0)
    lateMissing := BitVec.ofNat 12 (min 4095 missing.length) }

section
variable {p : PasId} {vx : Vx} {vy : Vy} {s : State} {v : WinWaiter} {r : WptRec}
  (hv : (s.pasture p).waiterOf (tileKey vx vy) = some v) (hr : (s.pasture p).wpt v.wpt = some r)
include hv hr

theorem wptLate_notes (hl : v.late = false) (hb : r.boundNs * nsT ≤ s.now - v.since) : exec (.wptLate p vx vy) s =
    .next (((s.modPas p fun x => x.noteLate (tileKey vx vy) v ((s.pasture p).window v.win).missing).noteCause p
      St.FAB_WPT_LATE).pasEvent p St.FAB_WPT_LATE (tileKey vx vy)) := by
  simp only [exec, execWptLate, hv, hr, hl, Nat.not_lt.mpr hb, decide_false, Bool.or_self, Bool.false_eq_true, if_false]
  rfl

theorem wptTimeout_stops (hb : (s.pasture p).beating = true) (ht : r.timeoutUs * usT ≤ s.now - v.since) :
    exec (.wptTimeout p vx vy) s = .next (s.stopPasture p St.FAB_WPT_TIMEOUT) := by
  simp only [exec, execWptTimeout, hv, hr, hb, ht, decide_true, Bool.and_self, if_true]

end

end Sys2Proof.Machine

namespace Sys2Proof.Settled
open Sys2Proof Sys2Proof.Machine

theorem foldArrivals : Claims.FoldArrivals := by
  intro i p f k gen o v s s' x e
  refine ⟨fun h hx hmore => ?joins, fun h hx hlast => ?completes, foldContribution_refused, fun h he hr => ?unwritten,
    fun h he hr hfree hlast => ?written, foldResult_first, foldResult_waits⟩
  case joins => rw [foldContribution_taken h hx, if_neg (BitVec.not_le.mpr hmore)]
  case completes => rw [foldContribution_taken h hx, if_pos hlast]
  case unwritten =>
    rw [foldResult_taken h he (.inl hr) (.inl hr), hr, writeResult_nowhere]
    rfl
  case written => exact foldResult_taken h he (.inr hfree) (.inr (hlast.imp_left Eq.ge))

theorem noticesAtTheBellwether : Claims.NoticesAtTheBellwether := by
  intro i p n k w wpt b on from_ thresh since s s'
  refine ⟨flagChange_of_arrival, fun h hflag => ?metFlag, fun h hflag => ?awaitedFlag, flagRelease_of_only, fun h ht => ?metWait,
    fun h ht => ?awaitedWait, waitRelease_of_arrival, fun h hr hc => ?halt, fun h hr hc => ?lastHalt⟩
  case metFlag => rw [flagWaitArrive_of_arrival h, if_pos hflag]
  case awaitedFlag => rw [flagWaitArrive_of_arrival h, if_neg hflag]
  case metWait => rw [waitArrive_of_arrival h, if_pos ht]
  case awaitedWait => rw [waitArrive_of_arrival h, if_neg ht]
  case halt => rw [haltNotice_of_arrival h hr, if_neg (Nat.not_le.mpr hc)]; rfl
  case lastHalt => rw [haltNotice_of_arrival h hr, if_pos hc]; rfl

theorem hostFlagsAndWaypoints : Claims.HostFlagsAndWaypoints := by
  constructor
  · intro fn p n value s changes h
    rw [hostFlagSet_sends n value h, hostFlagClr_sends n value h, hostFlags_eq, hostFlags_eq]
    exact ⟨rfl, rfl⟩
  · intro p vx vy s v r k x ms hv hr
    exact ⟨wptLate_notes hv hr, wptTimeout_stops hv hr⟩

/-- Settles O16: each arrival by the packet that the network gives, and a host write as the list of its changes. -/
theorem noticesArrive : Obligations.NoticesArrive := ⟨foldArrivals, noticesAtTheBellwether, hostFlagsAndWaypoints⟩

end Sys2Proof.Settled
end

section
/-!
Active messages at their destination (R272 to R274, R277, R279): which request is refused, and where one that is not is kept.
-/
namespace Sys2Proof.Machine

/-! ### Refusals -/

theorem ite_some_eq_none_iff {α : Type} {c : Prop} [Decidable c] {a : α} {b : Option α} :
    (if c then some a else b) = none ↔ ¬c ∧ b = none := by
  split <;> simp [*]

section
variable {s : State} {r : Request}

theorem requestNak_offGrid (h : s.offGrid r.vx r.vy = true) : s.requestNak r = some (St.CNW_NO_TILE, false) := if_pos h

/-- A request that reaches its tile meets the checks of senders, of the engine and of channels. -/
theorem requestNak_reached (h : s.offGrid r.vx r.vy = false) (hp : s.parked (s.halfOf r.vx) = false) : s.requestNak r =
    if !s.permitted r then some (St.CNW_NOT_PERMITTED, true)
    else if r.reg then none
    else if (s.tile (tileKey r.vx r.vy)).engineOff then some (St.CNW_READER_RESET, true)
    else if !bitAt (s.tile (tileKey r.vx r.vy)).openMask r.chan.toNat then some (St.CNW_CHANNEL_CLOSED, true)
    else none := by
  simp only [State.requestNak, h, hp, Bool.false_eq_true, if_false]

theorem requestNak_parked (h : s.offGrid r.vx r.vy = false) (hp : s.parked (s.halfOf r.vx) = true) :
    s.requestNak r = some (St.CNW_READER_RESET, false) := by
  simp only [State.requestNak, h, hp, Bool.false_eq_true, if_false, if_true]

theorem requestNak_eq_none_iff : s.requestNak r = none ↔ s.offGrid r.vx r.vy = false ∧ s.parked (s.halfOf r.vx) = false ∧
    s.permitted r = true ∧ (r.reg = true ∨ ((s.tile (tileKey r.vx r.vy)).engineOff = false ∧
      bitAt (s.tile (tileKey r.vx r.vy)).openMask r.chan.toNat = true)) := by
  simp only [State.requestNak, ite_some_eq_none_iff, ite_eq_left_iff, Bool.not_eq_true, Bool.not_eq_true', Bool.not_eq_false,
    or_iff_not_imp_left, and_true]

end

/-! ### Arrivals -/

section
variable {i : Nat} {r : Request} {s s' : State} (h : s.arrives i = some (.request r, s')) (hm : r.reg = false)
include h hm

theorem msgRequestArrive_refused {st : Status} {byTile : Bool} (hn : s'.requestNak r = some (st, byTile)) :
    exec (.msgRequestArrive i) s =
      .next ((s'.dropReservation (tileKey r.vx r.vy) r).nakRequest (tileKey r.vx r.vy) r st byTile) := by
  simp only [exec, execMsgRequestArrive, h, hm, hn, Bool.false_eq_true, if_false]

theorem msgRequestArrive_queues (hn : s'.requestNak r = none) :
    exec (.msgRequestArrive i) s = .next (s'.queueRequest (tileKey r.vx r.vy) r) := by
  simp only [exec, execMsgRequestArrive, h, hm, hn, Bool.false_eq_true, if_false]

end

/-- A tile whose channel has taken a request and is otherwise as given. -/
def State.queuedIn (s : State) (k : Nat) (r : Request) (ch : Channel) : State := s.modTile k fun t =>
  { t.putChan r.chan.toNat { ch with queue := ch.queue ++ [r] } with
    received := smapPut t.received r.chan.toNat (smapGet 0 t.received r.chan.toNat + 1) }

section
variable {s : State} {k : Nat} {r : Request} {ch : Channel} (hch : (s.tile k).chan r.chan.toNat = ch)
include hch

theorem queueRequest_reserved (hr : ch.reserved.contains r = true) :
    s.queueRequest k r = s.queuedIn k r { ch with reserved := ch.reserved.erase r } := by
  subst hch
  exact if_pos hr

variable (hr : ch.reserved.contains r = false)
include hr

theorem queueRequest_free (hroom : ch.queue.length + ch.reserved.length < 16) : s.queueRequest k r = s.queuedIn k r ch := by
  subst hch
  exact (if_neg (Bool.eq_false_iff.mp hr)).trans (if_neg (by simpa [Channel.isFull] using hroom))

theorem queueRequest_full (hfull : 16 ≤ ch.queue.length + ch.reserved.length) : s.queueRequest k r =
    (s.modTile k fun t => t.putChan r.chan.toNat { ch with bounced := ch.bounced ++ [r] }).send (.full r.src r) := by
  subst hch
  exact (if_neg (Bool.eq_false_iff.mp hr)).trans (if_pos (by simpa [Channel.isFull] using hfull))

/-- A request without a reservation leaves none behind. -/
theorem dropReservation_of_none : s.dropReservation k r = s := by
  subst hch
  exact if_neg (Bool.eq_false_iff.mp hr)

end

end Sys2Proof.Machine

namespace Sys2Proof.Settled
open Sys2Proof Sys2Proof.Machine

theorem messageArrives : Claims.MessageArrives := by
  intro i r st byTile s s' k c ch h hm
  exact ⟨msgRequestArrive_refused h hm, dropReservation_of_none rfl,
    fun hn hr hroom => (msgRequestArrive_queues h hm hn).trans (congrArg _ (queueRequest_free rfl hr hroom)),
    fun hn hr => (msgRequestArrive_queues h hm hn).trans (congrArg _ (queueRequest_reserved rfl hr)),
    fun hn hr hfull => (msgRequestArrive_queues h hm hn).trans (congrArg _ (queueRequest_full rfl hr hfull))⟩

theorem requestRefusals : Claims.RequestRefusals := by
  intro s r t
  refine ⟨requestNak_offGrid, requestNak_parked, fun h hp hs => ?stranger, fun h hp hs hm he => ?engine, fun h hp hs hm he hc => ?closed,
    requestNak_eq_none_iff⟩
  case stranger => simp [requestNak_reached h hp, hs]
  case engine => simp [requestNak_reached h hp, hs, hm, show (s.tile (tileKey r.vx r.vy)).engineOff = true from he]
  case closed =>
    simp [requestNak_reached h hp, hs, hm, show (s.tile (tileKey r.vx r.vy)).engineOff = false from he,
      show bitAt (s.tile (tileKey r.vx r.vy)).openMask r.chan.toNat = false from hc]

/-- Settles O17: a request by the first check that it fails, and one that fails none by the room in its channel. -/
theorem messagesArrive : Obligations.MessagesArrive := ⟨messageArrives, requestRefusals⟩

end Sys2Proof.Settled
end

section
/-!
Senders on the control network (R275 to R277, R284 to R287): replies, refusals, bounces and space signals, blocked sends, channels that
close, and router links that fail.
-/
namespace Sys2Proof.Machine

/-! ### What comes back to a sender -/

section
variable {i k : Nat} {vx : Vx} {vy : Vy} {f : FnId} {chan : BitVec 3} {slot : BitVec 6} {st : Status} {payload : List Byte} {r : Request}
  {m : HostMsg} {s s' : State}

theorem replyArrive_tile (h : s.arrives i = some (.reply k (.tile vx vy) chan slot st payload, s')) : exec (.replyArrive i) s =
    .next (s'.modTile (tileKey vx vy) fun t => if st = St.OK then t.freeSlot slot else (t.freeSlot slot).countNak chan.toNat) := by
  simp only [exec, execReplyArrive, h]

theorem replyArrive_host (h : s.arrives i = some (.reply k (.fn f) chan slot st payload, s')) (hm : (s'.func f).msgAt slot = some m) :
    exec (.replyArrive i) s = .next (s'.endHostMsg f m st payload) := by
  simp only [exec, execReplyArrive, h, hm]

theorem nakArrive_tile (h : s.arrives i = some (.nak k (.tile vx vy) chan slot st, s')) : exec (.nakArrive i) s =
    .next (s'.modTile (tileKey vx vy) fun t => ((t.unblock slot s.now).freeSlot slot).countNak chan.toNat) := by
  simp only [exec, execNakArrive, h]

theorem nakArrive_host (h : s.arrives i = some (.nak k (.fn f) chan slot st, s')) (hm : (s'.func f).msgAt slot = some m) :
    exec (.nakArrive i) s = .next (s'.endHostMsg f m st []) := by
  simp only [exec, execNakArrive, h, hm]

theorem fullBounce_tile (h : s.arrives i = some (.full (.tile vx vy) r, s')) : exec (.fullBounce i) s =
    .next (s'.modTile (tileKey vx vy) fun t => { t with blocked := t.blocked ++ [{ req := r, since := s.now }] }) := by
  simp only [exec, execFullBounce, h]

theorem fullBounce_host (h : s.arrives i = some (.full (.fn f) r, s')) : exec (.fullBounce i) s =
    .next (s'.modFn f fun x => x.modMsg r.slot fun m => { m with blocked := some s.now, raised := false }) := by
  simp only [exec, execFullBounce, h]

theorem spaceSignal_tile (h : s.arrives i = some (.space (.tile vx vy) r, s'))
    (hb : ((s.tile (tileKey vx vy)).blocked.any fun b => decide (b.req = r)) = true) : exec (.spaceSignal i) s =
      .next ((s'.modTile (tileKey vx vy) fun t => t.unblock r.slot s.now).send (.request r)) := by
  simp only [exec, execSpaceSignal, h, hb, if_true]

theorem spaceSignal_host (h : s.arrives i = some (.space (.fn f) r, s')) (hm : (s.func f).msgAt r.slot = some m)
    (hb : m.blocked.isSome = true) (hr : m.req = r) : exec (.spaceSignal i) s =
      .next ((s'.modFn f fun x => x.modMsg r.slot fun m => { m with blocked := none }).send (.request r)) := by
  simp only [exec, execSpaceSignal, h, hm, hb, hr, decide_true, Bool.and_self, if_true]

end

/-! ### The watchdog of blocked sends (R286) -/

section
variable {s : State}

theorem sendWatchdog_tile {vx : Vx} {vy : Vy} {p : Nat} {b : Blocked} (hp : s.pasOf vx = some p)
    (hb : (s.tile (tileKey vx vy)).blocked = [b]) (hr : b.raised = false)
    (hlate : (s.pasture p).sendWd.toNat * usT ≤ s.now - b.since) : exec (.sendWatchdog (.tile vx vy)) s =
      .next ((s.modTile (tileKey vx vy) fun t =>
        { t with wdEvents := satInc t.wdEvents, blocked := [{ b with raised := true }] }).pasEvent p St.CNW_SEND_BLOCKED
          (tileKey vx vy)) := by
  have hfind : ([b].find? fun b => !b.raised && decide (s.sendWd p ≤ s.now - b.since)) = some b := by
    simp [hr, State.sendWd, hlate]
  simp only [exec, execSendWatchdog, hp, hb, hfind]
  congr 2
  exact modTile_congr (by simp [hb])

theorem sendWatchdog_host {f : FnId} {m : HostMsg} {t0 : Nat} (hms : (s.func f).msgs = [m]) (hr : m.raised = false)
    (hb : m.blocked = some t0) (hlate : (s.pasture m.pas).sendWd.toNat * usT ≤ s.now - t0) : exec (.sendWatchdog (.fn f)) s =
      .next ((s.modFn f fun x => { x with msgs := [{ m with raised := true }] }).pasEvent m.pas
        St.CNW_SEND_BLOCKED (tileKey m.req.vx m.req.vy)) := by
  simp only [exec, execSendWatchdog, hms]
  simp [hr, hb, State.sendWd, hlate, State.modFn, Fn.modMsg, hms]

end

/-! ### CANCEL (R286) -/

@[simp] theorem grantSpace_handler (s : State) (k c n j : Nat) : ((s.grantSpace k c n).tile j).handler = (s.tile j).handler := by
  induction n generalizing s with
  | zero => rfl
  | succ n ih =>
    unfold State.grantSpace
    extract_lets ch
    split
    · rfl
    · split
      · rfl
      · rw [ih, State.send_tile, State.modTile_tile_at]
        split
        · next hj => rw [hj]; rfl
        · rfl

/-- The withdrawal of a request leaves the handlers. -/
@[simp] theorem withdraw_handler (s : State) (r : Request) (j : Nat) : ((s.withdraw r).tile j).handler = (s.tile j).handler := by
  simp only [State.withdraw, State.freeEntries, grantSpace_handler]
  rw [State.modTile_tile_at]
  split
  · next hj => rw [hj]; rfl
  · rfl

@[simp] theorem unblock_handler (t : Tile) (slot : BitVec 6) (now : Nat) : (t.unblock slot now).handler = t.handler := by
  unfold Tile.unblock
  split <;> rfl

/-- A tile without its blocked send b, which is withdrawn at its destination and counted. -/
def State.dropSend (s : State) (k : Nat) (b : Blocked) : State := (s.modTile k fun t =>
  { (t.unblock b.req.slot s.now).freeSlot b.req.slot with cancelled := satInc t.cancelled }).withdraw b.req

theorem dropSend_handler (s : State) (k : Nat) (b : Blocked) : ((s.dropSend k b).tile k).handler = (s.tile k).handler := by
  rw [State.dropSend, withdraw_handler, State.modTile_tile_same]
  exact unblock_handler ..

section
variable {s : State} {vx : Vx} {vy : Vy} {b : Blocked} (hr : s.reachable (tileKey vx vy) = true) (hc : s.hostCutOff (tileKey vx vy) false = false)
include hr hc

theorem cancel_cancels (hb : (s.tile (tileKey vx vy)).blocked = [b]) : exec (.cancel vx vy) s =
    .next (s.cancelSend (tileKey vx vy)) := by
  simp only [exec, execCancel, hr, hc, hb, List.isEmpty_cons, Bool.not_false, Bool.and_self, if_true]

theorem channelClose_writes (mask : Byte) : exec (.channelClose vx vy mask) s = .next (s.writeOpen (tileKey vx vy) mask) := by
  simp only [exec, execChannelClose, hr, hc, Bool.not_false, Bool.and_self, if_true]

end

section
variable {s : State} {k : Nat} {b : Blocked} {h : HandlerRun} (hb : (s.tile k).blocked = [b])
include hb

theorem cancelSend_of_idle (hh : (s.tile k).handler = none) : s.cancelSend k = s.dropSend k b := by
  have hd := (dropSend_handler s k b).trans hh
  unfold State.dropSend at hd ⊢
  simp only [State.cancelSend, hb, hd]

theorem cancelSend_of_other (hh : (s.tile k).handler = some h) (hs : h.sent.contains b.req.slot = false) :
    s.cancelSend k = s.dropSend k b := by
  have hd := (dropSend_handler s k b).trans hh
  unfold State.dropSend at hd ⊢
  simp only [State.cancelSend, hb, hd, hs, Bool.false_eq_true, if_false]

/-- The handler that waits for the send is refused with it. -/
theorem cancelSend_of_waiting (hh : (s.tile k).handler = some h) (hs : h.sent.contains b.req.slot = true) :
    s.cancelSend k = (s.dropSend k b).refuseAction k h St.CNW_SEND_CANCELLED := by
  have hd := (dropSend_handler s k b).trans hh
  unfold State.dropSend at hd ⊢
  simp only [State.cancelSend, hb, hd, hs, if_true]

end

/-- An action that no double-bit error refuses ends its handler with a reply that says why. -/
theorem refuseAction_replies {s : State} {k : Nat} {h : HandlerRun} {st : Status} (hst : st ≠ St.SPD_ECC_UNCORR) :
    s.refuseAction k h st = (s.cnwRecord k st h.req.chan h.req.handler).endHandler k h st [] := if_neg hst

/-! ### Links out of use (R275, R287) -/

section
variable {s : State} {vx : Vx} {vy : Vy}

section
variable (hc : s.hostCutOff (tileKey vx vy) false = true)
include hc

theorem cancel_cutOff : exec (.cancel vx vy) s = .next s := if_neg (by simp [hc])
theorem channelClose_cutOff (mask : Byte) : exec (.channelClose vx vy mask) s = .next s := if_neg (by simp [hc])

end

section
variable {d : Dir} {resend : Fin 4} (hr : s.reachable (tileKey vx vy) = true)
  (hl : (s.tile (tileKey vx vy)).linkOut.contains d = false)
include hr hl

theorem flitCheckFail_resent (hn : resend.val < 3) : exec (.flitCheckFail vx vy d resend) s =
    .next (s.modTile (tileKey vx vy) fun t => { t with flitResends := satInc t.flitResends }) := by
  simp only [exec, execFlitCheckFail, hr, hl, hn, Bool.not_true, Bool.or_self, Bool.false_eq_true, if_false, if_true]

theorem flitCheckFail_fails (hn : resend.val = 3) : exec (.flitCheckFail vx vy d resend) s =
    .next ((((s.modTile (tileKey vx vy) fun t => { t with linkOut := t.linkOut ++ [d] }).cnwRecord (tileKey vx vy) St.CNW_LINK_FAIL 0
      0).alert 5).stopAll St.CNW_LINK_FAIL) := by
  simp only [exec, execFlitCheckFail, hr, hl, hn, Bool.not_true, Bool.or_self, Bool.false_eq_true, if_false, lt_irrefl]

end

end

/-- Two changes of one tile are one change. -/
theorem modTile_modTile (s : State) (k : Nat) (f g : Tile → Tile) : (s.modTile k f).modTile k g = s.modTile k fun t => g (f t) :=
  modTile_putTile ..

end Sys2Proof.Machine

namespace Sys2Proof.Settled
open Sys2Proof Sys2Proof.Machine

theorem sendersHear : Claims.SendersHear := by
  intro i k vx vy f chan slot st payload r m s s' d
  refine ⟨replyArrive_tile, fun h hst => ?counted, replyArrive_host, nakArrive_tile, nakArrive_host, fullBounce_tile, fullBounce_host,
    spaceSignal_tile, spaceSignal_host⟩
  case counted => simp only [replyArrive_tile h, hst, if_false]; rfl

theorem controlNetworkUpkeep : Claims.ControlNetworkUpkeep := by
  intro vx vy f s p b m mask d resend t0 h k dropped
  refine ⟨sendWatchdog_tile, sendWatchdog_host, fun hr hc hb => ⟨fun hh => (cancel_cancels hr hc hb).trans (congrArg _ ?dropped),
    fun hh hs => (cancel_cancels hr hc hb).trans (congrArg _ ?waiting)⟩, fun hr hc => channelClose_writes hr hc mask,
    fun hc => ⟨cancel_cutOff hc, channelClose_cutOff hc mask⟩, flitCheckFail_resent, fun hr hl hn => ?fails⟩
  case dropped =>
    rcases hh with hh | ⟨hh, hs⟩
    · exact cancelSend_of_idle hb hh
    · exact cancelSend_of_other hb hh hs
  case waiting => exact (cancelSend_of_waiting hb hh hs).trans (refuseAction_replies (by decide))
  case fails => rw [flitCheckFail_fails hr hl hn, State.cnwRecord, modTile_modTile]

/-- Settles O19: each packet that comes back by its sender, a blocked send by the handler that waits for it, and a failed check by its
resends. -/
theorem repliesAndBlockedSends : Obligations.RepliesAndBlockedSends := ⟨sendersHear, controlNetworkUpkeep⟩

end Sys2Proof.Settled
end

section
/-!
The service engine and the registers of a tile (R275, R278, R280 to R284, R382): register accesses by a request and through a tile window,
the dispatch of a handler, and what each of its actions does.
-/
namespace Sys2Proof

/-- The bytes of a number that fits them give it back. -/
theorem ofBytes_bytesOf {n x : Nat} (h : x < 256 ^ n) : ofBytes (bytesOf n x) = x := by
  induction n generalizing x with
  | zero => exact (Nat.lt_one_iff.mp h).symm
  | succ n ih =>
    have hdiv : x / 256 < 256 ^ n := Nat.div_lt_of_lt_mul (by rwa [← pow_succ'])
    rw [bytesOf, ofBytes, ih hdiv, BitVec.toNat_ofNat]
    omega

end Sys2Proof

namespace Sys2Proof.Machine

/-! ### Register accesses (R278, R382) -/

section
variable {s : State} {k off : Nat}

theorem serveAccess_read {v : Word} (h : s.tileRead k off = some v) : s.serveAccess k off none = (s, St.OK, bytesOf 8 v.toNat) := by
  simp only [State.serveAccess, h]

theorem serveAccess_write {v w : Word} (h : s.tileRead k off = some v) : s.serveAccess k off (some w) = (s.tileWrite k off w, St.OK, []) := by
  simp only [State.serveAccess, h]

theorem serveAccess_missing (h : s.tileRead k off = none) : s.serveAccess k off none = (s, St.CNW_NO_REGISTER, bytesOf 8 0) := by
  simp only [State.serveAccess, h]

theorem word_of_bytes (v : Word) : BitVec.ofNat 64 (ofBytes (bytesOf 8 v.toNat)) = v := by
  rw [ofBytes_bytesOf v.isLt, BitVec.ofNat_toNat, BitVec.setWidth_eq]

end

section
variable {i : Nat} {r : Request} {s s' : State} (h : s.arrives i = some (.request r, s')) (hreg : r.reg = true)
  (hn : s'.requestNak r = none)
include h hreg hn

theorem registerAccess_reads (hw : bitAt (byteAt r.payload 4) 0 = false) {t : State} {st : Status} {bs : List Byte}
    (ha : s'.serveAccess (tileKey r.vx r.vy) (leAt r.payload 0 4) none = (t, st, bs)) :
    exec (.registerAccess i) s = .next (t.send (.reply (tileKey r.vx r.vy) r.src r.chan r.slot st bs)) := by
  simp only [exec, execRegisterAccess, h, hreg, hn, hw, ha, Bool.not_true, Bool.false_eq_true, if_false]

theorem registerAccess_writes (hw : bitAt (byteAt r.payload 4) 0 = true) {t : State} {st : Status} {bs : List Byte}
    (ha : s'.serveAccess (tileKey r.vx r.vy) (leAt r.payload 0 4) (some (BitVec.ofNat 64 (leAt r.payload 8 8))) = (t, st, bs)) :
    exec (.registerAccess i) s = .next (t.send (.reply (tileKey r.vx r.vy) r.src r.chan r.slot st bs)) := by
  simp only [exec, execRegisterAccess, h, hreg, hn, hw, ha, Bool.not_true, Bool.false_eq_true, if_false, if_true]

end

section
variable {vx : Vx} {vy : Vy} {offset : BitVec 12} {s : State} (hg : s.offGrid vx vy = false) (hp : s.parked (s.halfOf vx) = false)
include hg hp

/-- An access through a window that does not reach its tile. -/
theorem tileWindowAccess_cutOff (write : Option Word) (hc : s.hostCutOff (tileKey vx vy) false = true) :
    exec (.tileWindowAccess vx vy offset write) s =
      .next (if write.isNone then { s with tileData := BitVec.allOnes 64 } else s) := by
  simp only [exec, execTileWindowAccess, hg, hp, hc, Bool.false_eq_true, if_false, if_true]

section
variable (hc : s.hostCutOff (tileKey vx vy) false = false) {v : Word} (hv : s.tileRead (tileKey vx vy) (offset.toNat / 8 * 8) = some v)
include hc hv

theorem tileWindowAccess_reads (hb : s.hostCutOff (tileKey vx vy) true = false) :
    exec (.tileWindowAccess vx vy offset none) s = .next { s with tileAcc := St.OK, tileData := v } := by
  simp only [exec, execTileWindowAccess, hg, hp, hc, hb, serveAccess_read hv, word_of_bytes, Bool.false_eq_true, if_false, Bool.not_false,
    if_true, Option.isNone_none, decide_true, Bool.and_self]

theorem tileWindowAccess_writes (w : Word) (hb : s.hostCutOff (tileKey vx vy) true = false) :
    exec (.tileWindowAccess vx vy offset (some w)) s =
      .next { s.tileWrite (tileKey vx vy) (offset.toNat / 8 * 8) w with tileAcc := St.OK } := by
  simp only [exec, execTileWindowAccess, hg, hp, hc, hb, serveAccess_write hv, Bool.false_eq_true, if_false, Bool.not_false, if_true,
    Option.isNone_some]

/-- The reply of a read is lost, and the read gives all ones. -/
theorem tileWindowAccess_readLost (hb : s.hostCutOff (tileKey vx vy) true = true) :
    exec (.tileWindowAccess vx vy offset none) s = .next { s with tileData := BitVec.allOnes 64 } := by
  simp only [exec, execTileWindowAccess, hg, hp, hc, hb, serveAccess_read hv, Bool.false_eq_true, if_false, Bool.not_true, if_true,
    Option.isNone_none, Bool.and_false]

/-- The reply of a write is lost, and the write stands. -/
theorem tileWindowAccess_writeLost (w : Word) (hb : s.hostCutOff (tileKey vx vy) true = true) :
    exec (.tileWindowAccess vx vy offset (some w)) s = .next (s.tileWrite (tileKey vx vy) (offset.toNat / 8 * 8) w) := by
  simp only [exec, execTileWindowAccess, hg, hp, hc, hb, serveAccess_write hv, Bool.false_eq_true, if_false, Bool.not_true,
    Option.isNone_some]

end

end

/-! ### Dispatch (R280) -/

theorem handlerDispatch_takes {vx : Vx} {vy : Vy} {s : State} {c : Nat} {r : Request} {rest : List Request}
    (hf : s.engineFree (tileKey vx vy) = true) (hh : (s.tile (tileKey vx vy)).handler = none)
    (hc : (s.tile (tileKey vx vy)).nextChan = some c) (hq : ((s.tile (tileKey vx vy)).chan c).queue = r :: rest) :
    exec (.handlerDispatch vx vy) s = .next ((s.modTile (tileKey vx vy) fun t =>
      { t.putChan c { t.chan c with queue := rest } with
        lastChan := BitVec.ofNat 3 c
        handler := some { req := r }
        dispatched := smapPut t.dispatched c (smapGet 0 t.dispatched c + 1) }).freeEntries (tileKey vx vy) c) := by
  simp only [exec, execHandlerDispatch, hf, hh, hc, hq, Bool.not_true, Option.isSome_none, Bool.or_self, Bool.false_eq_true, if_false]

/-! ### The end of a handler (R281, R282) -/

section
variable {vx : Vx} {vy : Vy} {s : State} {h : HandlerRun} (hh : (s.tile (tileKey vx vy)).handler = some h)
  (hf : s.engineFree (tileKey vx vy) = true)
include hh hf

theorem handlerEnd_afterLast (ha : 4 ≤ h.action) : exec (.handlerEnd vx vy) s = .next (s.endHandler (tileKey vx vy) h St.OK []) := by
  simp only [exec, execHandlerEnd, hh, hf, ge_iff_le, ha, Bool.not_true, Bool.false_eq_true, if_false, if_true]

variable (ha : h.action < 4)
include ha

theorem handlerEnd_endAction (ho : actOp ((s.tile (tileKey vx vy)).action h.req.handler.toNat h.action) = 0) :
    exec (.handlerEnd vx vy) s =
      .next (s.endHandler (tileKey vx vy) h (if h.action = 0 then St.CNW_HANDLER_EMPTY else St.OK) []) := by
  simp only [exec, execHandlerEnd, hh, hf, ge_iff_le, Nat.not_le.mpr ha, ho, Bool.not_true, Bool.false_eq_true, if_false, if_true]

theorem handlerEnd_reserved (ho : 8 ≤ actOp ((s.tile (tileKey vx vy)).action h.req.handler.toNat h.action)) :
    exec (.handlerEnd vx vy) s = .next (s.refuseAction (tileKey vx vy) h St.CNW_ACTION_INVALID) := by
  have hne : actOp ((s.tile (tileKey vx vy)).action h.req.handler.toNat h.action) ≠ 0 := by omega
  simp only [exec, execHandlerEnd, hh, hf, ge_iff_le, Nat.not_le.mpr ha, ho, hne, Bool.not_true, Bool.false_eq_true, if_false, if_true]

end

/-! ### Actions (R281, R284) -/

section
variable {s s' : State} {k op : Nat} {h : HandlerRun}

theorem onAction_acts (ha : Claims.atAction s k op h = true) (f : HandlerRun → BitVec 32 → State) :
    s.onAction k op f = .next (f h ((s.tile k).action h.req.handler.toNat h.action)) := by
  simp only [Claims.atAction, Bool.and_eq_true, decide_eq_true_eq] at ha
  obtain ⟨⟨⟨hh, hfree⟩, hlt⟩, hop⟩ := ha
  simp only [State.onAction, hh, hfree, hlt, hop, decide_true, Bool.and_self, if_true]

/-- A read of one line that is free is done with its one access. -/
theorem accessLines_read {o m n : Nat} {pre got : List Byte} (ha : s.waitedAccess k .service o m none = (s', some (.ok got))) :
    s.accessLines k o none n pre [(o, m)] = (s', .done (n + m) (pre ++ got)) := by
  simp only [State.accessLines, Option.map_none, ha]

/-- A write of one line that is free is done with its one access. -/
theorem accessLines_write {o n : Nat} {bs pre got : List Byte}
    (ha : s.waitedAccess k .service o bs.length (some bs) = (s', some (.ok got))) :
    s.accessLines k o (some bs) n pre [(o, bs.length)] = (s', .done (n + bs.length) (pre ++ got)) := by
  simp only [State.accessLines, Option.map_some, Nat.sub_self, List.drop_zero, List.take_length, ha]

section
variable {o : Nat} {f : BitVec 32 → BitVec 32}

theorem updateWord_unaligned (ho : o % 4 ≠ 0) : s.updateWord k h o f = s.refuseAction k h St.CNW_ACTION_ALIGN := if_pos ho

/-- A word of a free line is read, changed and written, and the handler goes on. -/
theorem updateWord_aligned {got : List Byte} (ho : o % 4 = 0) (ha : s.waitedAccess k .service o 4
      (some (bytesOf 4 (f (BitVec.ofNat 32 (ofBytes ((s.tile k).bytes 0 (serviceAddr o) 4)))).toNat)) = (s', some (.ok got))) :
    s.updateWord k h o f = s'.nextAction k h := by
  simp only [State.updateWord, ho, ne_eq, not_true_eq_false, if_false, ha]

end

end

/-- The request that a SEND action makes of its handler's payload, with a reply slot. -/
def sendRequestOf (vx : Vx) (vy : Vy) (a : BitVec 32) (payload : List Byte) (n : Nat) : Request :=
  { src := .tile vx vy, vx := field a 11 6, vy := field a 5 0, chan := BitVec.ofNat 3 (field a 27 25),
    handler := BitVec.ofNat 4 (field a 24 21), slot := BitVec.ofNat 6 n, payload := payload }

section
variable {vx : Vx} {vy : Vy} {s s' : State} {h : HandlerRun} {got : List Byte} {a : BitVec 32}
  (hact : (s.tile (tileKey vx vy)).action h.req.handler.toNat h.action = a)
include hact

theorem handlerWrite_oneLine {o : Nat} {bs : List Byte} (ha : Claims.atAction s (tileKey vx vy) 1 h = true)
    (ho : actAddr a h.req.payload = o) (hbs : writeData a h.req.payload = bs) (hpos : h.pos = 0)
    (hl : linePieces 64 o bs.length = [(o, bs.length)])
    (hd : s.waitedAccess (tileKey vx vy) .service o bs.length (some bs) = (s', some (.ok got))) :
    exec (.handlerWrite vx vy) s = .next (s'.nextAction (tileKey vx vy) h) := by
  rw [exec, execHandlerWrite, onAction_acts ha, hact]
  simp only [ho, hbs, hpos, Nat.add_zero, Nat.sub_zero, hl, accessLines_write hd, State.afterLines]

theorem handlerReply_oneLine {o : Nat} (ha : Claims.atAction s (tileKey vx vy) 6 h = true) (ho : actAddr a h.req.payload = o)
    (hpos : h.pos = 0) (hgot : h.got = []) (hn : actN a ≤ 32) (hl : linePieces 64 o (actN a) = [(o, actN a)])
    (hd : s.waitedAccess (tileKey vx vy) .service o (actN a) none = (s', some (.ok got))) :
    exec (.handlerReply vx vy) s = .next (s'.endHandler (tileKey vx vy) h St.OK got) := by
  rw [exec, execHandlerReply, onAction_acts ha, hact]
  simp only [gt_iff_lt, Nat.not_lt.mpr hn, if_false, ho, hpos, hgot, Nat.add_zero, Nat.sub_zero, hl, accessLines_read hd,
    State.afterLines, List.nil_append]

theorem handlerAdd_updates (ha : Claims.atAction s (tileKey vx vy) 2 h = true) : exec (.handlerAdd vx vy) s =
    .next (s.updateWord (tileKey vx vy) h (actAddr a h.req.payload) fun v => v + BitVec.ofNat 32 (leAt h.req.payload (actDoff a) 4)) := by
  rw [exec, execHandlerAdd, onAction_acts ha, hact]

theorem handlerBump_updates (ha : Claims.atAction s (tileKey vx vy) 3 h = true) : exec (.handlerBump vx vy) s =
    .next (s.updateWord (tileKey vx vy) h (actAddr a h.req.payload) satInc) := by
  rw [exec, execHandlerBump, onAction_acts ha, hact]

section
variable {p : Nat} (hp : s.pasOf vx = some p)
include hp

theorem handlerFlagset_sends (ha : Claims.atAction s (tileKey vx vy) 4 h = true) : exec (.handlerFlagset vx vy) s =
    .next ((s.send (.flag p (actFlag a h.req.payload) true (some (tileKey vx vy)))).nextAction (tileKey vx vy) h) := by
  rw [exec, execHandlerFlagset, onAction_acts ha, hact]
  simp only [State.sendFlag, keyVx_tileKey, hp]

theorem handlerFlagclr_sends (ha : Claims.atAction s (tileKey vx vy) 5 h = true) : exec (.handlerFlagclr vx vy) s =
    .next ((s.send (.flag p (actFlag a h.req.payload) false (some (tileKey vx vy)))).nextAction (tileKey vx vy) h) := by
  rw [exec, execHandlerFlagclr, onAction_acts ha, hact]
  simp only [State.sendFlag, keyVx_tileKey, hp]

end

section
variable (ha : Claims.atAction s (tileKey vx vy) 7 h = true)
include ha

theorem handlerSend_sends {n : Nat} {r : Request} (hr : sendRequestOf vx vy a h.req.payload n = r)
    (hn : (s.tile (tileKey vx vy)).freeSlotNo = some n) : exec (.handlerSend vx vy) s =
      .next (((s.modTile (tileKey vx vy) fun t =>
        { t with slots := t.slots ++ [(r.slot, r)]
                 sent := smapPut t.sent r.chan.toNat (smapGet 0 t.sent r.chan.toNat + 1) }).nextAction (tileKey vx vy)
          { h with sent := h.sent ++ [r.slot] }).send (.request r)) := by
  subst hr
  rw [exec, execHandlerSend, onAction_acts ha, hact]
  simp only [hn]
  rfl

theorem handlerSend_noSlot (hn : (s.tile (tileKey vx vy)).freeSlotNo = none) : exec (.handlerSend vx vy) s =
    .next (s.refuseAction (tileKey vx vy) h St.CNW_NO_REPLY_SLOT) := by
  rw [exec, execHandlerSend, onAction_acts ha, hact]
  simp only [hn]

end

end

end Sys2Proof.Machine

namespace Sys2Proof.Settled
open Sys2Proof Sys2Proof.Machine

theorem registerAccesses : Claims.RegisterAccesses := by
  constructor
  · intro i r v w s s' k off h hreg hn
    refine ⟨fun hw hv => registerAccess_reads h hreg hn hw (serveAccess_read hv), fun hw hv hval => ?written,
      fun hw hv => registerAccess_reads h hreg hn hw (serveAccess_missing hv)⟩
    case written => exact hval ▸ registerAccess_writes h hreg hn hw (serveAccess_write hv)
  · intro vx vy offset v w s k off hg hp
    exact ⟨fun hc hv => ⟨fun hb => ⟨tileWindowAccess_reads hg hp hc hv hb, tileWindowAccess_writes hg hp hc hv w hb⟩,
        fun hb => ⟨tileWindowAccess_readLost hg hp hc hv hb, tileWindowAccess_writeLost hg hp hc hv w hb⟩⟩,
      fun hc => ⟨tileWindowAccess_cutOff hg hp none hc, tileWindowAccess_cutOff hg hp (some w) hc⟩⟩

theorem handlerDispatches : Claims.HandlerDispatches := fun _ _ _ _ _ _ => handlerDispatch_takes

theorem handlerActions : Claims.HandlerActions := by
  intro vx vy s s' h p n got k t a o bs old r
  refine ⟨handlerEnd_afterLast, fun hh hf hlt ho ha => ?ended, fun hh hf ha ho => ?empty, handlerEnd_reserved,
    fun ha => handlerWrite_oneLine rfl ha rfl rfl, fun ha => handlerReply_oneLine rfl ha rfl,
    fun ha ho hd => (handlerAdd_updates rfl ha).trans (congrArg _ (updateWord_aligned ho hd)),
    fun ha ho hd => (handlerBump_updates rfl ha).trans (congrArg _ (updateWord_aligned ho hd)),
    fun ha ho => (handlerAdd_updates rfl ha).trans (congrArg _ (updateWord_unaligned ho)),
    fun ha hp => handlerFlagset_sends rfl hp ha, fun ha hp => handlerFlagclr_sends rfl hp ha, fun ha => handlerSend_sends rfl ha rfl,
    handlerSend_noSlot rfl⟩
  case ended => rw [handlerEnd_endAction hh hf hlt ho, if_neg ha]
  case empty => rw [handlerEnd_endAction hh hf (by omega) ho, if_pos ha]

/-- Settles O18: an access by the register at its offset, a dispatch by the next channel, and each action by its OP. -/
theorem engineAndRegisters : Obligations.EngineAndRegisters := ⟨registerAccesses, handlerDispatches, handlerActions⟩

end Sys2Proof.Settled
end

section
/-!
A change of a flag at the bellwether (R291 to R293, R342, R349): its waiters, its notice, and the swaps of tables that it triggers.
-/
namespace Sys2Proof.Machine

/-! ### What a change of a flag reads of the state -/

/-- The registers that say what a change of a flag does beside the flag. -/
def Pasture.triggers (x : Pasture) : BitVec 256 × Bool × Byte := (x.notify, x.rankTrigEn, x.rankTrigFlag)

/-- What a swap of the routing tables reads of the state. -/
def State.routing (s : State) : Fabric × Links × Nat := (s.fabric, s.links, s.now)

/-- What the consequences of a change of a flag of pasture p depend on, beside the flag itself. -/
def State.flagContext (s : State) (p : Nat) : (BitVec 256 × Bool × Byte) × SMap Fn × Fabric × Links × Nat :=
  ((s.pasture p).triggers, s.fns, s.routing)

section
variable (s : State) (p : Nat)

theorem flagContext_modPas (q : Nat) (f : Pasture → Pasture) (h : ∀ x, (f x).triggers = x.triggers) :
    (s.modPas q f).flagContext p = s.flagContext p := by
  have hx : ((s.modPas q f).pasture p).triggers = (s.pasture p).triggers := by
    rw [State.modPas_pasture_at]
    split
    · next hp => rw [h, hp]
    · rfl
  unfold State.flagContext
  rw [hx]
  rfl

theorem flagContext_inject (q : Nat) (ff : Bool) (n : Nat) : (s.inject q ff n).2.flagContext p = s.flagContext p := by
  unfold State.inject
  extract_lets
  split
  · rfl
  · dsimp only
    refine flagContext_modPas s p q _ fun x => ?_
    split <;> simp only [Pasture.triggers]

theorem flagContext_send (q : Packet) : (s.send q).flagContext p = s.flagContext p := by
  unfold State.send
  split
  · rfl
  · exact flagContext_inject ..

end

/-- Flag n of pasture p takes a value, and its waiters are released. -/
def State.flagged (s : State) (p n : Nat) (on : Bool) : State := (s.modPas p fun x => x.setFlag n on).releaseFlag p n on

theorem flagContext_flagged (s : State) (p n : Nat) (on : Bool) : (s.flagged p n on).flagContext p = s.flagContext p := by
  unfold State.flagged State.releaseFlag
  extract_lets met released
  have hreleased : released.flagContext p = (s.modPas p fun x => x.setFlag n on).flagContext p :=
    foldl_keeps (State.flagContext · p) (fun s (w : Nat × Nat × Bool) => flagContext_send s p (.flagRelease p w.1 n)) _ _
  refine (flagContext_modPas released p p _ ?_).trans (hreleased.trans (flagContext_modPas s p p _ ?_)) <;> exact fun _ => rfl

/-! ### Notices and swaps (R293, R342, R349) -/

/-- Flag n of pasture p takes a value by a tile: the change is noted where the flag's notification is on. -/
def State.flagNoted (s : State) (p n : Nat) (on : Bool) : State :=
  if bitAt (s.pasture p).notify n then
    ((s.flagged p n on).modPas p fun x => { x with lastFlag := BitVec.ofNat 8 n }).signal (s.boundFn p) 20
  else s.flagged p n on

/-- A tile sets flag n of pasture p: the change is noted, and the trigger flag swaps the rank tables. -/
def State.flagRanks (s : State) (p n : Nat) : State :=
  if (s.pasture p).rankTrigEn && decide ((s.pasture p).rankTrigFlag.toNat = n) then (s.flagNoted p n true).swapRanks p
  else s.flagNoted p n true

/-- The set of flag n of pasture p swaps the routing tables. -/
def Fabric.triggeredBy (g : Fabric) (p n : Nat) : Bool :=
  g.routeTrigEn && decide (g.routeTrigPas.toNat = p) && decide (g.routeTrigFlag.toNat = n)

/-- A swap of the routing tables of s that is carried out in a later state t. -/
def State.routesSwapped (s t : State) : State :=
  if s.swapBad then { t with fabric := { s.fabric with routeStatus := St.FAB_ROUTE_LPORT } }
  else ({ t with fabric := { s.fabric with
    routeActive := !s.fabric.routeActive, routeStatus := St.OK, draining := true, swapTime := s.now } }).retryHeld HeldPacket.waitsRole

/-- A tile sets flag n of pasture p: the change is noted, and the trigger flags swap the rank and the routing tables. -/
def State.flagRoutes (s : State) (p n : Nat) : State :=
  if !s.fabric.triggeredBy p n then s.flagRanks p n else s.routesSwapped (s.flagRanks p n)

section
variable (s : State) (p n : Nat) (on : Bool)

theorem routing_flagRanks : (s.flagRanks p n).routing = s.routing := by
  have hflagged : (s.flagged p n true).routing = s.routing := congrArg (·.2.2) (flagContext_flagged s p n true)
  have hnoted : (s.flagNoted p n true).routing = s.routing := by
    unfold State.flagNoted
    split <;> exact hflagged
  unfold State.flagRanks
  split <;> exact hnoted

theorem swapRoutes_of_routing {s t : State} (h : t.routing = s.routing) : t.swapRoutes = s.routesSwapped t := by
  obtain ⟨hfabric, hrest⟩ := Prod.mk.inj h
  obtain ⟨hlinks, hnow⟩ := Prod.mk.inj hrest
  have hbad : t.swapBad = s.swapBad := by
    unfold State.swapBad State.lportPeers
    rw [hfabric, hlinks]
  unfold State.swapRoutes State.routesSwapped
  rw [hbad, ← hfabric, ← hnow]

/-- The notice of a change, as the state that has made it gives it. -/
def State.noteFlag (u : State) (p n : Nat) : State :=
  if bitAt (u.pasture p).notify n then (u.modPas p fun x => { x with lastFlag := BitVec.ofNat 8 n }).signal (u.boundFn p) 20 else u

theorem noteFlag_flagged : (s.flagged p n on).noteFlag p n = s.flagNoted p n on := by
  obtain ⟨htriggers, hrest⟩ := Prod.mk.inj (flagContext_flagged s p n on)
  have hnotify : ((s.flagged p n on).pasture p).notify = (s.pasture p).notify := congrArg (·.1) htriggers
  have hbound : (s.flagged p n on).boundFn p = s.boundFn p := by
    unfold State.boundFn State.func
    rw [(Prod.mk.inj hrest).1]
  unfold State.noteFlag State.flagNoted
  rw [hnotify, hbound]

theorem tileFlag_clears : (s.flagged p n false).tileFlag p n false = s.flagNoted p n false := noteFlag_flagged s p n false

theorem tileFlag_sets : (s.flagged p n true).tileFlag p n true = s.flagRoutes p n := by
  obtain ⟨htriggers, -⟩ := Prod.mk.inj (flagContext_flagged s p n true)
  have hen : ((s.flagged p n true).pasture p).rankTrigEn = (s.pasture p).rankTrigEn := congrArg (·.2.1) htriggers
  have hflag : ((s.flagged p n true).pasture p).rankTrigFlag = (s.pasture p).rankTrigFlag := congrArg (·.2.2) htriggers
  have hranks : (if ((s.flagged p n true).pasture p).rankTrigEn && decide (((s.flagged p n true).pasture p).rankTrigFlag.toNat = n) then
      ((s.flagged p n true).noteFlag p n).swapRanks p else (s.flagged p n true).noteFlag p n) = s.flagRanks p n := by
    rw [hen, hflag, noteFlag_flagged]
    rfl
  have hfabric : (s.flagRanks p n).fabric = s.fabric := congrArg (·.1) (routing_flagRanks s p n)
  have hroutes : (s.flagged p n true).tileFlag p n true =
      if (s.flagRanks p n).fabric.triggeredBy p n then (s.flagRanks p n).swapRoutes else s.flagRanks p n := by
    rw [← hranks]
    rfl
  rw [hroutes, hfabric, swapRoutes_of_routing (routing_flagRanks s p n), State.flagRoutes]
  cases s.fabric.triggeredBy p n <;> rfl

/-! ### A change -/

variable {s p n} {byTile : Bool}

theorem changeFlag_same : s.changeFlag p n ((s.pasture p).flag n) byTile = s := if_pos (beq_self_eq_true _)

theorem changeFlag_clears (h : (s.pasture p).flag n = true) :
    s.changeFlag p n false byTile = if byTile then s.flagNoted p n false else s.flagged p n false := by
  rw [← tileFlag_clears, State.changeFlag, h]
  rfl

theorem changeFlag_sets (h : (s.pasture p).flag n = false) :
    s.changeFlag p n true byTile = if byTile then (s.flagRoutes p n).startSend p n else (s.flagged p n true).startSend p n := by
  rw [← tileFlag_sets, State.changeFlag, h]
  cases byTile <;> rfl

end

end Sys2Proof.Machine

namespace Sys2Proof.Settled
open Sys2Proof Sys2Proof.Machine

theorem flagNotices : Claims.FlagNotices := by
  intro s p n byTile x set noted ranks trig g routes
  exact ⟨changeFlag_same, changeFlag_clears, changeFlag_sets⟩

end Sys2Proof.Settled
end

section
/-!
The send that a set flag starts (R343, R364, R366, R432).
-/
namespace Sys2Proof.Machine

/-! ### The chip of a rank -/

/-- The chip that a pasture's active rank table gives a rank: none where the entry is not valid or damaged. -/
def Pasture.chipOf (x : Pasture) (r : Nat) : Option (BitVec 16) :=
  if x.badRanks.contains r then none
  else
    let e := smapGet 0 (if x.rankActive then x.rank1 else x.rank0) r
    if bitAt e 31 then some (BitVec.ofNat 16 (field e 15 0)) else none

/-- A rank whose chip is known is read without a change of the state. -/
theorem rankChip_some_iff {s t : State} {p r : Nat} {c : BitVec 16} :
    s.rankChip p r = (t, some c) ↔ s = t ∧ (s.pasture p).chipOf r = some c := by
  unfold State.rankChip Pasture.chipOf
  extract_lets x e
  split
  · simp
  · exact Prod.mk.injEq .. ▸ Iff.rfl

/-! ### Starting a send -/

/-- The state with a send in progress that has taken a fresh tag. -/
def State.begunSend (s : State) (p : Nat) (d : Sending) : State :=
  (s.modPas p fun x => { x with nextXfer := x.nextXfer + 1 }).addSending p d

/-- A send to one rank that may receive it, by the chip that the rank table gives. -/
def State.startToRank (s : State) (p n : Nat) (w : BitVec 256) : State :=
  let (t, chip) := s.rankChip p (sendDst w)
  if chip.isNone then t.failSend p n w St.FAB_NO_ROUTE
  else if sendOp w = 1 then t.startPrepaid p n w
  else
    let d := newSending n w (t.pasture p).nextXfer t.now
    (t.begunSend p d).requestCredit p d (sendDst w) (sendRequest w)

/-- The check of a reserved OP and of a length of zero passes. -/
theorem notMalformed {w : BitVec 256} (h : sendOp w ≠ 3 ∧ (sendOp w = 2 ∨ sendLen w ≠ 0)) :
    (decide (sendOp w = 3) || (decide (sendOp w ≠ 2) && decide (sendLen w = 0))) = false := by
  obtain ⟨hop, hlen⟩ := h
  rcases hlen with h2 | h0
  · simp [h2]
  · simp [hop, h0]

section
variable {s : State} {p n : Nat}

theorem startSend_disabled (h : ¬(sendEnabled ((s.pasture p).sendEntry n) = true ∧ (s.pasture p).stopped = false)) :
    s.startSend p n = s := by
  refine if_pos ?_
  rw [Bool.or_eq_true, Bool.not_eq_true', ← Bool.not_eq_true, or_iff_not_imp_left, not_not]
  exact fun hen => by simpa [hen] using h

variable {w : BitVec 256} (hw : (s.pasture p).sendEntry n = w) (hmay : sendEnabled w = true ∧ (s.pasture p).stopped = false)
include hw hmay

theorem startSend_malformed (h : sendOp w = 3 ∨ (sendOp w ≠ 2 ∧ sendLen w = 0)) : s.startSend p n = s.failSend p n w St.FAB_SEND_FAIL := by
  have hbad : (decide (sendOp w = 3) || (decide (sendOp w ≠ 2) && decide (sendLen w = 0))) = true := by simpa using h
  simp only [State.startSend, hw, hmay, hbad, Bool.not_true, Bool.or_self, Bool.false_eq_true, if_false, if_true]

variable (hsound : sendOp w ≠ 3 ∧ (sendOp w = 2 ∨ sendLen w ≠ 0))
include hsound

theorem startSend_noFlock (hf : (s.pasture p).started = false) : s.startSend p n = s.failSend p n w St.FAB_NO_FLOCK := by
  simp only [State.startSend, hw, hmay, notMalformed hsound, hf, Bool.not_true, Bool.not_false, Bool.or_self, Bool.false_eq_true, if_false,
    if_true]

/-- A sound send of a started flock goes to its drove or to its rank. -/
theorem startSend_flock (hf : (s.pasture p).started = true) : s.startSend p n =
    if sendDrove w then (if sendOp w = 1 then s.startPrepaid p n w else s.startDrove p n w)
    else if (s.pasture p).fenced (BitVec.ofNat 12 (sendDst w)) then s.failSend p n w St.FAB_FENCED
    else s.startToRank p n w := by
  simp only [State.startSend, hw, hmay, notMalformed hsound, hf, Bool.not_true, Bool.or_self, Bool.false_eq_true, if_false]
  rfl

end

/-! ### Credits -/

/-- A send that asks a rank with a chip for its units. -/
theorem requestCredit_emits {s : State} {p rank units : Nat} {d : Sending} {c : BitVec 16}
    (h : (s.pasture p).chipOf rank = some c) : s.requestCredit p d rank units =
      s.emitControl p 0x02 c (BitVec.ofNat 6 (field d.words 231 226)) d.xfer (BitVec.ofNat 32 units) := by
  rw [State.requestCredit, rankChip_some_iff.mpr ⟨rfl, h⟩]

theorem chipOf_begunSend (s : State) (p r : Nat) (d : Sending) : ((s.begunSend p d).pasture p).chipOf r = (s.pasture p).chipOf r := by
  rw [State.begunSend, State.addSending, State.modPas_pasture_same, State.modPas_pasture_same]
  rfl

section
variable {s t : State} {p n : Nat} {w : BitVec 256}

theorem startToRank_noRoute (h : s.rankChip p (sendDst w) = (t, none)) :
    s.startToRank p n w = t.failSend p n w St.FAB_NO_ROUTE := by
  simp only [State.startToRank, h, Option.isNone_none, if_true]

variable {c : BitVec 16} (h : (s.pasture p).chipOf (sendDst w) = some c)
include h

theorem startToRank_prepaid (hop : sendOp w = 1) : s.startToRank p n w = s.startPrepaid p n w := by
  simp only [State.startToRank, rankChip_some_iff.mpr ⟨rfl, h⟩, hop, Option.isNone_some, Bool.false_eq_true, if_false, if_true]

theorem startToRank_asks (hop : sendOp w ≠ 1) : s.startToRank p n w =
    (s.begunSend p (newSending n w (s.pasture p).nextXfer s.now)).emitControl p 0x02 c (BitVec.ofNat 6 (field w 231 226))
      (s.pasture p).nextXfer (BitVec.ofNat 32 (sendRequest w)) := by
  simp only [State.startToRank, rankChip_some_iff.mpr ⟨rfl, h⟩, hop, Option.isNone_some, Bool.false_eq_true, if_false]
  exact requestCredit_emits ((chipOf_begunSend ..).trans h)

end

/-! ### Prepaid and drove sends -/

theorem startPrepaid_short {s : State} {p n : Nat} {w : BitVec 256} (h : sendBalance w < sendUnits w) :
    s.startPrepaid p n w = s.stopPasture p St.FAB_CREDIT_OVERRUN := if_pos h

/-- A prepaid send to one rank, whose units no grant has tagged, takes a fresh tag and goes at once. -/
theorem startPrepaid_sends {s : State} {p n : Nat} {w : BitVec 256} (hd : sendDrove w = false) (h : sendUnits w ≤ sendBalance w)
    (ht : smapGet [] (s.pasture p).grantTags n = []) : s.startPrepaid p n w =
      (((s.modPas p fun x => { x with nextXfer := x.nextXfer + 1 }).setBalance p n (sendBalance w - sendUnits w)).addSending p
        { newSending n w (s.pasture p).nextXfer s.now with stage := .sending }).runSend p (s.pasture p).nextXfer := by
  simp only [State.startPrepaid, Nat.not_lt.mpr h, if_false, ht, hd, Bool.false_and, Bool.false_eq_true]
  rfl

/-- A drove send asks each member that is not fenced. -/
theorem startDrove_asks (s : State) (p n : Nat) (w : BitVec 256) :
    let asked := { newSending n w (s.pasture p).nextXfer s.now with pruned := (s.droveMembers (sendDrv w)).filter (s.pasture p).fenced }
    s.startDrove p n w = (((s.droveMembers (sendDrv w)).filter fun r => !(s.pasture p).fenced r).foldl
      (fun t r => t.requestCredit p asked r.toNat (sendRequest w)) (s.begunSend p asked)).checkDrove p (s.pasture p).nextXfer := by
  intro asked
  have hfilter : ((s.droveMembers (sendDrv w)).filter fun r => !asked.pruned.contains r) =
      (s.droveMembers (sendDrv w)).filter fun r => !(s.pasture p).fenced r := by
    refine List.filter_congr fun r hr => congrArg _ ?_
    rw [Bool.eq_iff_iff, List.contains_iff_mem, List.mem_filter, and_iff_right hr]
  rw [← hfilter]
  rfl

/-! ### A send that fails (R365) -/

theorem pasEvent_pasture (s : State) (p q detail : Nat) (st : Status) : (s.pasEvent p st detail).pasture q = s.pasture q := rfl

theorem doneFlag_pasture (s : State) (p q : Nat) (w : BitVec 256) : (s.doneFlag p w).pasture q = s.pasture q := by
  unfold State.doneFlag
  split <;> rfl

theorem failSend_pasture (s : State) (p n : Nat) (w : BitVec 256) (st : Status) :
    ((s.failSend p n w st).pasture p).sendFails = satInc (s.pasture p).sendFails ∧
      ((s.failSend p n w st).pasture p).sendEntry n = setBits ((s.pasture p).sendEntry n) 15 0 st.toNat := by
  rw [State.failSend, pasEvent_pasture, State.modPas_pasture_same, doneFlag_pasture, State.setSendStatus, State.modPas_pasture_same]
  exact ⟨rfl, smapGet_put_same ..⟩

end Sys2Proof.Machine

namespace Sys2Proof.Settled
open Sys2Proof Sys2Proof.Machine

theorem sendsStart : Claims.SendsStart := by
  intro s s' p n st chip x w op may sound member tagged d adds ms asked
  have hflock (h : member) := startSend_flock (s := s) (p := p) (n := n) rfl h.1.1 h.1.2 h.2
  have hranked (h : member) (hd : sendDrove w = false) (hfree : x.fenced (BitVec.ofNat 12 (sendDst w)) = false) :
      s.startSend p n = s.startToRank p n w := by
    rw [hflock h, if_neg (Bool.eq_false_iff.mp hd), if_neg (Bool.eq_false_iff.mp hfree)]
  refine ⟨startSend_disabled, startSend_malformed rfl, fun h => startSend_noFlock rfl h.1 h.2, fun h hop hshort hd => ?droveShort,
    fun h hop hd => ?drove, fun h hd hfence => ?fenced, fun h hd hfree => ⟨fun hr => ?noRoute, fun hr => ?toChip⟩,
    failSend_pasture s p n w st⟩
  case droveShort => rw [hflock h, if_pos hd, if_pos hop, startPrepaid_short hshort]
  case drove => rw [hflock h, if_pos hd, if_neg hop, startDrove_asks]; rfl
  case fenced => rw [hflock h, if_neg (Bool.eq_false_iff.mp hd), if_pos hfence]
  case noRoute => rw [hranked h hd hfree, startToRank_noRoute hr]
  case toChip =>
    have hchip := (rankChip_some_iff.mp hr).2
    rw [hranked h hd hfree]
    refine ⟨fun hop => startToRank_asks hchip hop, fun hop hshort => ?short, fun hop hb ht => ?sends⟩
    case short => rw [startToRank_prepaid hchip hop, startPrepaid_short hshort]
    case sends => exact (startToRank_prepaid hchip hop).trans (startPrepaid_sends hd hb ht)

/-- Settles O15: a change by the registers that it meets, and a send by the first condition that it fails. -/
theorem flagsAndSendStarts : Obligations.FlagsAndSendStarts := ⟨flagNotices, sendsStart⟩

end Sys2Proof.Settled
end

section
/-!
Loads (R299 to R301, R313, R320, R456, R457): the checks of a load in their order, a refused and an accepted load, and its completion.
-/
namespace Sys2Proof.Machine

/-! ### The pasture of a load (R301) -/

section
variable {s : State} {p : Nat}

theorem loadBusy_inUse (h : (s.pasture p).runs ≠ [] ∨ (s.pasture p).loading.isSome = true ∨ (s.pasture p).inTest = true) :
    s.loadBusy p = some St.HOST_PASTURE_BUSY :=
  if_pos (by simpa [or_assoc] using h)

section
variable (hruns : (s.pasture p).runs = []) (hload : (s.pasture p).loading = none) (htest : (s.pasture p).inTest = false)
include hruns hload htest

/-- A pasture with no run, no load and no test is refused a load only while it waits for clears. -/
theorem loadBusy_idle : s.loadBusy p = if (s.pasture p).awaitClear then some St.STACK_OWN_BUSY else none :=
  if_neg (by simp [hruns, hload, htest])

theorem loadBusy_waits (h : (s.pasture p).awaitClear = true) : s.loadBusy p = some St.STACK_OWN_BUSY :=
  (loadBusy_idle hruns hload htest).trans (if_pos h)

theorem loadBusy_free (h : (s.pasture p).awaitClear = false) : s.loadBusy p = none :=
  (loadBusy_idle hruns hload htest).trans (if_neg (Bool.eq_false_iff.mp h))

end

end

/-! ### The envelope (R456, R457) -/

section
variable {s : State} {e key plain : List Byte}

theorem openEnvelope_noDma : s.openEnvelope e false = .inl St.HOST_DMA := rfl

theorem openEnvelope_malformed (h : envelopeOk (s.readHost (entSrc e) 256) (entLen e) = false) :
    s.openEnvelope e true = .inl St.SEC_ENVELOPE := by
  simp [State.openEnvelope, h]

section
variable (hform : envelopeOk (s.readHost (entSrc e) 256) (entLen e) = true)
include hform

theorem openEnvelope_foreign (h : digestOf (slice (s.readHost (entSrc e) 256) 8 32) ≠ s.facts.identity) :
    s.openEnvelope e true = .inl St.SEC_RECIPIENT := by
  simp [State.openEnvelope, hform, h]

variable (hmine : digestOf (slice (s.readHost (entSrc e) 256) 8 32) = s.facts.identity)
include hmine

theorem openEnvelope_keyless (h : s.contentKey (s.readHost (entSrc e) 256) = none) :
    s.openEnvelope e true = .inl St.SEC_UNWRAP := by
  simp [State.openEnvelope, hform, hmine, h]

variable (hkey : s.contentKey (s.readHost (entSrc e) 256) = some key)
include hkey

theorem openEnvelope_badChunk (h : s.openChunks e (s.readHost (entSrc e) 256) key = none) :
    s.openEnvelope e true = .inl St.SEC_DECRYPT := by
  simp [State.openEnvelope, hform, hmine, hkey, h]

theorem openEnvelope_opens (h : s.openChunks e (s.readHost (entSrc e) 256) key = some plain) :
    s.openEnvelope e true = .inr plain := by
  simp [State.openEnvelope, hform, hmine, hkey, h]

end

/-! ### The checks in order -/

section
variable {weights dmaOk : Bool} {st : Status}

theorem checkLoad_busy (h : s.loadBusy (entPas e) = some st) : s.checkLoad e weights dmaOk = .inl st := by
  simp only [State.checkLoad, h]

theorem checkLoad_unopened (hfree : s.loadBusy (entPas e) = none) (h : s.openEnvelope e dmaOk = .inl st) :
    s.checkLoad e weights dmaOk = .inl st := by
  simp only [State.checkLoad, hfree, h]

end

end

/-! ### A request (R300, R320) -/

section
variable {s : State} {id : EntryId} {e : List Byte} {weights dmaOk : Bool}

theorem loadRequest_refused {st : Status} (h : s.checkLoad e weights dmaOk = .inl st) : s.loadRequest id e weights dmaOk =
    ((if st = St.HOST_DMA then s.noteDma id.fn else s).modPas (entPas e) fun x => { x with loadStatus := st }).finish id 3 (entPas e) st := by
  simp only [State.loadRequest, h, State.refuseLoad]

theorem loadRequest_accepted {plain : List Byte} (h : s.checkLoad e weights dmaOk = .inr plain) : s.loadRequest id e weights dmaOk =
    s.acceptLoad (entPas e) { id := id, weights := weights, plain := plain, place := s.placeList e } := by
  simp only [State.loadRequest, h]

variable {fn : FnId} {ring : Fin 16} (h : Claims.entry s fn ring id e = true) (hop : entOp e = 3)
include h hop

theorem loadProgram_requests (hk : entKind e = 0) :
    exec (.loadProgram fn ring dmaOk) s = .next ((s.fetched fn ring).loadRequest id e false dmaOk) := by
  rw [exec, execLoadProgram, onEntry_acts h (by simp [hop, hk])]

theorem loadWeights_requests (hk : entKind e = 1) :
    exec (.loadWeights fn ring dmaOk) s = .next ((s.fetched fn ring).loadRequest id e true dmaOk) := by
  rw [exec, execLoadWeights, onEntry_acts h (by simp [hop, hk])]

end

/-! ### An accepted load (R300, R464, R465) -/

section
variable (s : State) (p : Nat) {j : LoadJob}

/-- A program load restarts the pasture's chain with one more load. -/
theorem restartChain_loadCount (prog weights : Digest) :
    ((s.restartChain p prog weights).pasture p).chain.loadCount = (s.pasture p).chain.loadCount + 1 := by
  rw [State.restartChain, State.modPas_pasture_same]

/-- An accepted load of either kind stops the pasture's beats and takes its program away. -/
theorem acceptLoad_unloads : let x := (s.acceptLoad p j).pasture p
    x.loading = some j ∧ x.beating = false ∧ x.loaded = false ∧ x.program = none := by
  rw [State.acceptLoad, State.modPas_pasture_same]
  exact ⟨rfl, rfl, rfl, rfl⟩

theorem acceptLoad_program_loadCount (h : j.weights = false) :
    ((s.acceptLoad p j).pasture p).chain.loadCount = (s.pasture p).chain.loadCount + 1 := by
  simp only [State.acceptLoad, h, Bool.false_eq_true, if_false, State.modPas_pasture_same, State.endStall, Pasture.unloaded,
    restartChain_loadCount]

/-- A load of weights takes the former weights away too, and the chain goes on. -/
theorem acceptLoad_weights (h : j.weights = true) : let x := (s.acceptLoad p j).pasture p
    x.weights = none ∧ x.chain = (s.pasture p).chain := by
  simp only [State.acceptLoad, h, if_true, State.modPas_pasture_same, State.endStall, Pasture.unloaded, and_self]

end

/-! ### The writes (R300, R313) -/

theorem loadComplete_writes {s : State} {q : PasId} {j : LoadJob} (h : (s.pasture q).loading = some j) : exec (.loadComplete q) s =
    .next ((((if j.weights then s.writeWeights q (binaryOf j.plain) j.place else s.writeProgram q (binaryOf j.plain) j.place).modPas q
      fun x => { x with loading := none, loadStatus := St.OK }).resumeBeats q).finish j.id 3 q St.OK) := by
  simp only [exec, execLoadComplete, h]

end Sys2Proof.Machine

namespace Sys2Proof.Settled
open Sys2Proof Sys2Proof.Machine

theorem loadService : Claims.LoadService := by
  intro fn ring dmaOk s id e plain st q j s1 p job refused
  refine ⟨fun h hop => ⟨fun hk hc => ?programRefused, fun hk hc => ?weightsRefused, fun hk hc => ?programAccepted,
    fun hk hc => ?weightsAccepted⟩, loadComplete_writes⟩
  case programRefused => rw [loadProgram_requests h hop hk, loadRequest_refused hc]
  case weightsRefused => rw [loadWeights_requests h hop hk, loadRequest_refused hc]
  case programAccepted =>
    obtain ⟨hload, hbeat, hloaded, hprog⟩ := acceptLoad_unloads s1 p (j := job false)
    rw [loadProgram_requests h hop hk, loadRequest_accepted hc]
    exact ⟨rfl, hload, hbeat, hloaded, hprog, acceptLoad_program_loadCount s1 p rfl⟩
  case weightsAccepted =>
    rw [loadWeights_requests h hop hk, loadRequest_accepted hc]
    exact ⟨rfl, acceptLoad_weights s1 p rfl⟩

theorem loadRefusalsInOrder : Claims.LoadRefusalsInOrder := by
  intro s e key plain weights dmaOk st x env mine
  exact ⟨fun h => checkLoad_busy (loadBusy_inUse h),
    fun hruns hload htest hwait => checkLoad_busy (loadBusy_waits hruns hload htest hwait),
    fun hruns hload htest hclear => checkLoad_unopened (loadBusy_free hruns hload htest hclear),
    openEnvelope_noDma, openEnvelope_malformed, openEnvelope_foreign, openEnvelope_keyless, openEnvelope_badChunk, openEnvelope_opens⟩

/-- Settles O38: a request by the first check that it fails, an accepted one by what it takes away and by the writes that complete it. -/
theorem loads : Obligations.Loads := ⟨loadService, loadRefusalsInOrder⟩

end Sys2Proof.Settled
end

section
/-!
Lane groups and training (R326, R329, R330, R332): the group chosen for a mask of healthy lanes, lanes in reversed order, and what each
training step does.
-/
namespace Sys2Proof.Machine

/-! ### Lane groups (R330) -/

/-- The list of groups is in R330's order: widest first, and of one width lowest lanes first. -/
theorem laneGroups_ordered :
    laneGroups.Pairwise fun g h => laneCount h < laneCount g ∨ (laneCount h = laneCount g ∧ g ≤ h) := by decide +kernel

theorem lane_mem_laneGroups {i : Nat} (hi : i < 8) : BitVec.twoPow 8 i ∈ laneGroups :=
  (by decide : ∀ i : Fin 8, BitVec.twoPow 8 i ∈ laneGroups) ⟨i, hi⟩

theorem laneGroups_ne_zero : ∀ g ∈ laneGroups, 0 ≠ g := by decide

theorem laneCount_laneGroups : ∀ g ∈ laneGroups, laneCount g = 8 ∨ laneCount g = 4 ∨ laneCount g = 2 ∨ laneCount g = 1 := by decide +kernel

section
variable {healthy g : Byte}

theorem chooseGroup_healthy (h : chooseGroup healthy = some g) : g ∈ laneGroups ∧ g &&& healthy = g :=
  ⟨List.mem_of_find?_eq_some h, by simpa using List.find?_some h⟩

/-- The group chosen is the first healthy one of the list, so every other healthy one stands behind it. -/
theorem chooseGroup_first (h : chooseGroup healthy = some g) {k : Byte} (hk : k ∈ laneGroups) (hh : k &&& healthy = k) :
    laneCount k < laneCount g ∨ (laneCount k = laneCount g ∧ g ≤ k) := by
  obtain ⟨-, before, after, hsplit, hbefore⟩ := List.find?_eq_some_iff_append.mp h
  have hordered := laneGroups_ordered
  rw [hsplit] at hk hordered
  obtain hk | hk := List.mem_append.mp hk
  · simpa [hh] using hbefore k hk
  · obtain rfl | hk := List.mem_cons.mp hk
    · exact .inr ⟨rfl, BitVec.le_refl k⟩
    · exact List.rel_of_pairwise_cons (List.pairwise_append.mp hordered).2.1 hk

theorem chooseGroup_eq_none_iff : chooseGroup healthy = none ↔ healthy = 0 := by
  simp only [chooseGroup, List.find?_eq_none, decide_eq_true_eq]
  refine ⟨fun h => BitVec.eq_of_getLsbD_eq fun i hi => ?dead, ?none⟩
  case dead =>
    rw [BitVec.ofNat_eq_ofNat, BitVec.getLsbD_zero, ← Bool.not_eq_true]
    exact fun hbit => h _ (lane_mem_laneGroups hi) (by rw [BitVec.twoPow_and, if_pos hbit])
  case none =>
    rintro rfl g hg
    rw [BitVec.ofNat_eq_ofNat, BitVec.and_zero]
    exact laneGroups_ne_zero g hg

end

/-! ### Reversed lanes (R329) -/

theorem bitAt_or_lane (m : Byte) (i j : Nat) : bitAt (m ||| BitVec.twoPow 8 (7 - i)) j = (bitAt m j || decide (7 - i = j)) := by
  have hi : 7 - i < 8 := by omega
  simp [bitAt, BitVec.getLsbD_or, BitVec.getLsbD_twoPow, hi]

/-- Bit j of a mask that gathers lanes in reversed order. -/
theorem bitAt_gathered (p : Nat → Bool) (is : List Nat) (m : Byte) (j : Nat) :
    bitAt (is.foldl (fun acc i => if p i then acc ||| BitVec.twoPow 8 (7 - i) else acc) m) j =
      (bitAt m j || is.any fun i => p i && decide (7 - i = j)) := by
  induction is generalizing m with
  | nil => simp
  | cons i is ih =>
    rw [List.foldl_cons, List.any_cons, ih, ← Bool.or_assoc]
    cases p i
    · simp
    · rw [if_pos rfl, bitAt_or_lane, Bool.true_and]

theorem bitAt_reverseLanes (m : Byte) {i : Nat} (hi : i < 8) : bitAt (reverseLanes m) i = bitAt m (7 - i) := by
  have hgather : bitAt (reverseLanes m) i = (List.range 8).any fun k => bitAt m k && decide (7 - k = i) :=
    (bitAt_gathered ..).trans (by simp [bitAt])
  rw [hgather, Bool.eq_iff_iff, List.any_eq_true]
  simp only [List.mem_range, Bool.and_eq_true, decide_eq_true_eq]
  refine ⟨?_, fun h => ⟨7 - i, by omega, h, by omega⟩⟩
  rintro ⟨k, hk, hbit, rfl⟩
  rwa [Nat.sub_sub_self (Nat.le_of_lt_succ hk)]

/-! ### The steps of training (R329, R332) -/

section
variable {n : PortId} {s : State} (ht : s.mayTrain n = true)
include ht

section
variable (hs : (s.port n).step = .detect) (hd : (s.port n).stepTime ≤ s.now)
include hs hd

/-- With a signal the lanes that have it go on; a port that retrains stays in its state. -/
theorem linkDetect_signal {signal : Byte} (h : signal ≠ 0) : exec (.linkDetect n signal) s = .next (s.modPort n fun x =>
    { x with state := if x.state = .retraining then .retraining else .training, step := .lanes, healthy := signal }) :=
  (if_neg (by simp [ht, hs, hd])).trans (if_neg h)

/-- Without a signal a port that does not retrain stays down and looks again after 10 ms. -/
theorem linkDetect_dark (h : (s.port n).state ≠ .retraining) : exec (.linkDetect n 0) s =
    .next ((s.modPort n fun x => { x with state := .down }).modPort n fun x => { x with stepTime := s.now + 10 * msT }) := by
  simp [exec, execLinkDetect, ht, hs, h, hd]

end

section
variable (hs : (s.port n).step = .lanes) (failed polInv : Byte) (reversed : Bool)
include hs

theorem linkLanes_numbers : exec (.linkLanes n failed polInv reversed) s = .next (s.putPort n
    { s.port n with
      healthy := (if reversed then reverseLanes ((s.port n).healthy &&& ~~~failed) else (s.port n).healthy &&& ~~~failed)
                   &&& (if (s.port n).fast then (s.port n).eqGood else 0xFF)
      polInv := polInv, reversed := reversed, step := if (s.port n).fast then .width else .equalise }) :=
  if_neg (by simp [ht, hs])

/-- After LINK_LANES a full training goes on to equalisation with every lane in order. -/
theorem linkLanes_full (hf : (s.port n).fast = false) : exec (.linkLanes n failed polInv reversed) s = .next (s.putPort n
    { s.port n with
      healthy := if reversed then reverseLanes ((s.port n).healthy &&& ~~~failed) else (s.port n).healthy &&& ~~~failed
      polInv := polInv, reversed := reversed, step := .equalise }) := by
  have hall (m : Byte) : m &&& 0xFF = m := BitVec.and_allOnes
  simp only [linkLanes_numbers ht hs, hf, Bool.false_eq_true, if_false, hall]

/-- A fast retrain goes on to the width with the lanes whose equalisation is saved. -/
theorem linkLanes_fast (hf : (s.port n).fast = true) : exec (.linkLanes n failed polInv reversed) s = .next (s.putPort n
    { s.port n with
      healthy := (if reversed then reverseLanes ((s.port n).healthy &&& ~~~failed) else (s.port n).healthy &&& ~~~failed)
                   &&& (s.port n).eqGood
      polInv := polInv, reversed := reversed, step := .width }) := by
  simp only [linkLanes_numbers ht hs, hf, if_true]

end

theorem linkEqualise_adapts (hs : (s.port n).step = .equalise) (failed : Byte) : exec (.linkEqualise n failed) s =
    .next (s.modPort n fun x => { x with healthy := x.healthy &&& ~~~failed, eqGood := x.healthy &&& ~~~failed, step := .width }) :=
  if_neg (by simp [ht, hs])

section
variable (hs : (s.port n).step = .width)
include hs

theorem linkWidth_chooses {g : Byte} (hg : chooseGroup (s.port n).healthy = some g) : exec (.linkWidth n true) s =
    .next (s.modPort n fun x => { x with lanes := g, width := BitVec.ofNat 4 (laneCount g), step := .identify }) := by
  simp [exec, execLinkWidth, ht, hs, hg]

theorem linkWidth_fails {ok : Bool} (h : chooseGroup (s.port n).healthy = none ∨ ok = false) :
    exec (.linkWidth n ok) s = .next (s.trainFail n) := by
  obtain hnone | rfl := h
  · simp [exec, execLinkWidth, ht, hs, hnone]
  · cases hg : chooseGroup (s.port n).healthy <;> simp [exec, execLinkWidth, ht, hs, hg]

end

section
variable (hs : (s.port n).step = .identify) {record : Option (List Byte)}
include hs

/-- This end's record is sent, and the peer's is kept. -/
theorem linkIdentify_knows {peer : PeerRecord} (h : record.bind PeerRecord.ofBytes = some peer) : exec (.linkIdentify n record) s =
    .next ((s.modPort n fun x => { x with sentRecord := some (s.identityRecord n) }).modPort n fun x =>
      { x.identified peer with step := .compare }) := by
  simp [exec, execLinkIdentify, ht, hs, h]

theorem linkIdentify_fails (h : record.bind PeerRecord.ofBytes = none) : exec (.linkIdentify n record) s =
    .next ((s.modPort n fun x => { x with sentRecord := some (s.identityRecord n) }).trainFail n) := by
  simp [exec, execLinkIdentify, ht, hs, h]

end

theorem linkCompare_compares (hs : (s.port n).step = .compare) : exec (.linkCompare n) s = .next ((s.modPort n fun x =>
    { x.resend with progressTime := s.now, winTime := s.now, calTime := s.now, flitTime := s.now }).compare n) :=
  if_neg (by simp [ht, hs])

end

end Sys2Proof.Machine

namespace Sys2Proof.Settled
open Sys2Proof Sys2Proof.Machine

theorem widestHealthyGroup : Claims.WidestHealthyGroup :=
  ⟨fun _ _ h => ⟨(chooseGroup_healthy h).1, (chooseGroup_healthy h).2, fun _ hk hh => chooseGroup_first h hk hh⟩,
    fun _ => chooseGroup_eq_none_iff, laneCount_laneGroups, rfl, rfl, rfl, rfl⟩

theorem linkTrainingSteps : Claims.LinkTrainingSteps := by
  intro n a b rev bs none_ peer g s x order told
  refine ⟨fun i hi => bitAt_reverseLanes a hi, fun ht => ⟨fun hs hd ha => linkDetect_signal ht hs hd ha,
    fun hs hd hr => linkDetect_dark ht hs hd hr, fun hs hf => linkLanes_full ht hs a b rev hf, fun hs hf => linkLanes_fast ht hs a b rev hf,
    fun hs => linkEqualise_adapts ht hs a, fun hs hg => linkWidth_chooses ht hs hg, fun hs h => linkWidth_fails ht hs h,
    fun hs hp => ?known, fun hs h => linkIdentify_fails ht hs h, fun hs => linkCompare_compares ht hs⟩⟩
  case known =>
    rw [linkIdentify_knows ht hs (record := some bs) hp, State.modPort, State.modPort_port_same]
    rfl

/-- Settles O44: the group chosen by its place in the list, and each training step by what the port knows before it. -/
theorem laneGroupsAndTraining : Obligations.LaneGroupsAndTraining := ⟨widestHealthyGroup, linkTrainingSteps⟩

end Sys2Proof.Settled
end

section
/-!
Service of a link (R324, R325, R327, R331, R334, R351, R352, R437): the codewords and flits that a port receives, what an acknowledgment
releases, replays, and the changes of its width.
-/
namespace Sys2Proof.Machine

/-! ### Codewords (R325) -/

section
variable {x : Port} {errors : List Nat}

theorem nextReceived_between (h : codewordIn x.rxFlits = none) : x.nextReceived errors = { x with rxFlits := x.rxFlits + 1 } := by
  simp only [Port.nextReceived, h]

theorem nextReceived_corrected {c : Nat} (h : codewordIn x.rxFlits = some c) (hfew : errors.length ≤ 15) :
    x.nextReceived errors = { x with rxFlits := x.rxFlits + 1 }.corrected errors := by
  simp only [Port.nextReceived, h, hfew, if_true]

theorem nextReceived_uncorrectable {c : Nat} (h : codewordIn x.rxFlits = some c) (hmany : 15 < errors.length) : x.nextReceived errors =
    { x with rxFlits := x.rxFlits + 1, fecUncorr := satInc x.fecUncorr, badUntil := max x.badUntil (codewordEnd c) } := by
  simp only [Port.nextReceived, h, Nat.not_le.mpr hmany, if_false]

end

/-! ### Flits that are received (R327) -/

/-- A discarded flit leaves its NAK with the next one sent, unless this error episode has had one. -/
theorem discard_asks (x : Port) : x.discard = { x with nakSent := true, nakDue := x.nakDue || !x.nakSent } := by
  by_cases h : x.nakSent = true
  · simp only [Port.discard, h, if_true, Bool.not_true, Bool.or_false]
    exact congrArg (fun sent => { x with nakSent := sent }) h
  · simp [Port.discard, h]

section
variable {n : PortId} {s : State} {raw : List Byte} {r : FlitReception} (hup : (s.port n).state.up = true)
include hup

theorem linkFlitReceive_discards (h : (s.port n).rxFlits < ((s.port n).nextReceived r.errors).badUntil ∨ flitCrcOk raw = false) :
    exec (.linkFlitReceive n raw r) s = .next (s.putPort n { ((s.port n).nextReceived r.errors).discard with
      crcFail := satInc ((s.port n).nextReceived r.errors).crcFail }) :=
  (if_neg (by simp [hup])).trans (if_pos (by simpa using h))

section
variable (hgood : ((s.port n).nextReceived r.errors).badUntil ≤ (s.port n).rxFlits) (hcrc : flitCrcOk raw = true)
include hgood hcrc

theorem linkFlitReceive_reserved (h : (LinkFlit.ofBytes raw r.dateline).payload = .reserved) :
    exec (.linkFlitReceive n raw r) s = .next (s.putPort n { (s.port n).nextReceived r.errors with
      crcFail := satInc ((s.port n).nextReceived r.errors).crcFail }) :=
  (if_neg (by simp [hup])).trans ((if_neg (by simp [hgood, hcrc])).trans (if_pos h))

theorem linkFlitReceive_takes (h : (LinkFlit.ofBytes raw r.dateline).payload ≠ .reserved) : exec (.linkFlitReceive n raw r) s =
    .next ((s.putPort n ((s.port n).nextReceived r.errors)).receiveFlit n (LinkFlit.ofBytes raw r.dateline) r.bufferOk) :=
  (if_neg (by simp [hup])).trans ((if_neg (by simp [hgood, hcrc])).trans (if_neg h))

end

/-! ### Replays (R327) -/

theorem linkNak_replays (ack : BitVec 10) : exec (.linkNak n ack) s = .next (((s.nakked n ack).pumpPort n).retryMembers) := if_pos hup

theorem ackTimeout_replays (hbuf : (s.port n).replayBuf ≠ []) (ht : usT ≤ s.now - (s.port n).progressTime) :
    exec (.ackTimeout n) s = .next (s.replay n) :=
  if_pos (by simp [hup, hbuf, ht])

end

/-- A port with its flits not acknowledged in line again, the replay counted. -/
def replayed (s : State) (n : Nat) : State := s.putPort n { s.port n with
  outBuf := (s.port n).replayBuf, replays := satInc (s.port n).replays, noProgress := (s.port n).noProgress + 1, progressTime := s.now }

section
variable {s : State} {n : Nat}

theorem replay_again (h : (s.port n).noProgress < 7) : s.replay n = replayed s n := if_neg (by omega)

/-- The eighth replay without progress retrains. -/
theorem replay_eighth (h : 7 ≤ (s.port n).noProgress) :
    s.replay n = (((replayed s n).portEvent n St.LNK_REPLAY_LIMIT).askRetrain n).startRetrain n := if_pos (by omega)

end

/-! ### Acknowledgments (R327) -/

section
variable (x : Port) (ack : BitVec 10) (now : Nat)

theorem afterAck_suffix : x.afterAck ack <:+ x.replayBuf := by
  rw [Port.afterAck]
  split
  · exact List.nil_suffix
  · split
    · exact List.drop_suffix ..
    · exact List.suffix_rfl

theorem acked_replayBuf : (x.acked ack now).replayBuf = x.afterAck ack := by
  rw [Port.acked]
  split
  · next h => exact ((afterAck_suffix x ack).eq_of_length h).symm
  · rfl

/-- An acknowledgment keeps the numbers of either direction, the packets queued and the credits. -/
theorem acked_keeps : (x.acked ack now).txSeq = x.txSeq ∧ (x.acked ack now).rxSeq = x.rxSeq ∧ (x.acked ack now).txQueue = x.txQueue ∧
    (x.acked ack now).credits = x.credits := by
  rw [Port.acked]
  split <;> exact ⟨rfl, rfl, rfl, rfl⟩

section
variable {x ack} {q : BitVec 10} {f : FlitPayload} {rest : List (BitVec 10 × FlitPayload)} (hbuf : x.replayBuf = (q, f) :: rest)
include hbuf

theorem afterAck_within {k : Nat} (hk : k ≤ x.replayBuf.length) (hlen : x.replayBuf.length ≤ 64) (hack : ack = q + BitVec.ofNat 10 k) :
    x.afterAck ack = x.replayBuf.drop k := by
  have hdist : (ack - q).toNat = k := by
    rw [hack, add_sub_cancel_left, BitVec.toNat_ofNat, Nat.mod_eq_of_lt (by omega)]
  simp only [Port.afterAck, hbuf, hdist]
  exact if_pos (hbuf ▸ hk)

theorem acked_outside (h : x.replayBuf.length < (ack - q).toNat) : x.acked ack now = x := by
  have hkeep : x.afterAck ack = x.replayBuf := by
    simp only [Port.afterAck, hbuf]
    exact if_neg (hbuf ▸ Nat.not_le.mpr h)
  exact if_pos (congrArg _ hkeep)

end

end

/-! ### A flit sent now (R334) -/

/-- The flits in line that one turn of the lanes leaves, with the lanes' earlier flits kept. -/
def Port.putBehind (x : Port) (now : Nat) : Port := { x.putFlit now with onLanes := x.onLanes ++ (x.putFlit now).onLanes }

/-- The number and the payload of a flit. -/
def numberedPayload (f : LinkFlit) : BitVec 10 × FlitPayload := (f.seq, f.payload)

theorem putBehind_next {x : Port} {f : BitVec 10 × FlitPayload} {fs : List (BitVec 10 × FlitPayload)} (h : x.outBuf = f :: fs) (now : Nat) :
    (x.putBehind now).outBuf = fs ∧
      (x.putBehind now).onLanes.map numberedPayload = x.onLanes.map numberedPayload ++ [f] := by
  simp [Port.putBehind, Port.putFlit, Port.nextFlit, numberedPayload, h]

/-- As many turns as flits stand in line put all of them on the lanes, in order. -/
theorem putBehind_all (now : Nat) {turns : List Nat} {x : Port} (h : x.outBuf.length = turns.length) :
    let y := turns.foldl (fun y _ => y.putBehind now) x
    y.outBuf = [] ∧ y.onLanes.map numberedPayload = x.onLanes.map numberedPayload ++ x.outBuf := by
  induction turns generalizing x with
  | nil => simpa using h
  | cons i turns ih =>
    obtain ⟨f, fs, hline⟩ := List.exists_cons_of_length_eq_add_one h
    obtain ⟨hrest, hput⟩ := putBehind_next hline now
    obtain ⟨hempty, hlanes⟩ := ih (x := x.putBehind now) (by rw [hrest]; simpa [hline] using h)
    refine ⟨hempty, hlanes.trans ?_⟩
    rw [hput, hrest, hline, List.append_assoc, List.singleton_append]

theorem sendNow_last (x : Port) (m : MgmtFlit) (now : Nat) : (x.sendNow m now).outBuf = [] ∧
    ((x.sendNow m now).onLanes.getLast?.map fun f => (f.seq, f.payload)) = some (x.txSeq, .mgmt m) := by
  obtain ⟨hempty, hlanes⟩ := putBehind_all now (x := { x.transmit (.mgmt m) now with onLanes := [] }) List.length_range.symm
  refine ⟨hempty, ?_⟩
  have hlast : ((x.sendNow m now).onLanes.map numberedPayload).getLast? = some (x.txSeq, .mgmt m) := by
    rw [show (x.sendNow m now).onLanes.map numberedPayload = x.outBuf ++ [(x.txSeq, .mgmt m)] from hlanes, List.getLast?_concat]
  rwa [List.getLast?_map] at hlast

/-! ### Lanes lost and groups named (R331, R334) -/

/-- A port that has lost a lane; a renegotiation under way is abandoned. -/
def laneDropped (s : State) (n : PortId) (lane : Fin 8) : State := s.putPort n { s.port n with
  healthy := (s.port n).healthy &&& ~~~(BitVec.twoPow 8 lane), proposal := none, peerProposal := none }

/-- The windows in a row, with the one that ends, in which lane i had more symbols corrected than LANE_THRESH. -/
def Port.windowsOver (x : Port) (i : Nat) : Nat :=
  if x.laneThresh ≠ 0 && decide (x.laneThresh.toNat < smapGet 0 x.laneCorr i) then smapGet 0 x.laneBad i + 1 else 0

/-- A port at the end of a window of lane health: a lane above the threshold in three windows is failing. -/
def Port.windowed (x : Port) (now : Nat) : Port :=
  let lanes := (List.range 8).filter (bitAt x.lanes)
  { x with winTime := now, laneCorr := []
           failing := (lanes.filter fun i => decide (3 ≤ x.windowsOver i)).foldl (fun m i => m ||| BitVec.twoPow 8 i) (0 : Byte)
           laneBad := lanes.map fun i => (i, x.windowsOver i) }

/-- A port at an opportunity of calibration: a dropped lane that does not measure clean is watched anew. -/
def Port.measured (x : Port) (clean : Byte) (now : Nat) : Port :=
  { x with calTime := now, cleanSince := smapMap (fun i t => if bitAt clean i then t else now) x.cleanSince }

section
variable {n : PortId} {s : State} (hup : (s.port n).state.up = true)
include hup

section
variable {lane : Fin 8} (hlane : bitAt (s.port n).lanes lane = true)
include hlane

theorem laneLost_degrades {g : Byte} (h : chooseGroup ((s.port n).healthy &&& ~~~(BitVec.twoPow 8 lane)) = some g) :
    exec (.laneLost n lane false) s =
      .next (((laneDropped s n lane).modPort n fun x => x.sendNow (.degrade g) s.now).setWidth n g) := by
  simp only [exec, execLaneLost, hup, hlane, h, Bool.not_true, Bool.false_eq_true, if_false, State.putPort_now]
  rfl

theorem laneLost_retrains {g : Byte} (h : chooseGroup ((s.port n).healthy &&& ~~~(BitVec.twoPow 8 lane)) = some g) :
    exec (.laneLost n lane true) s = .next ((laneDropped s n lane).startRetrain n) := by
  simp only [exec, execLaneLost, hup, hlane, h, Bool.not_true, Bool.false_eq_true, if_false, if_true]
  rfl

/-- With the last lane the port is down. -/
theorem laneLost_downs (h : (s.port n).healthy &&& ~~~(BitVec.twoPow 8 lane) = 0) (both : Bool) :
    exec (.laneLost n lane both) s = .next ((laneDropped s n lane).downPort n) := by
  simp only [exec, execLaneLost, hup, hlane, chooseGroup_eq_none_iff.mpr h, Bool.not_true, Bool.false_eq_true, if_false]
  rfl

end

section
variable {g : Byte}

theorem degrade_switches (h : g ∈ laneGroups) : exec (.degrade n g) s = .next ((s.modPort n fun x =>
    { x with healthy := x.healthy &&& (g ||| ~~~x.lanes), proposal := none, peerProposal := none }).setWidth n g) :=
  (if_pos hup).trans (congrArg _ (if_pos (List.contains_iff_mem.mpr h)))

theorem widthProposal_waits (h : g ∈ laneGroups) :
    exec (.widthProposal n g) s = .next (s.modPort n fun x => { x with peerProposal := some g }) :=
  if_pos (by simp [hup, h])

theorem widthAccept_switches (h : (s.port n).proposal = some g) : exec (.widthAccept n g) s = .next (s.setWidth n g) :=
  (if_pos hup).trans (congrArg _ (if_pos h))

end

/-! ### Lane health and calibration (R331, R334, R437) -/

theorem laneHealthWindow_closes (h : (s.port n).winTime + msT ≤ s.now) : exec (.laneHealthWindow n) s =
    .next ((List.range (s.port n).passes).foldl (fun s _ => s.laneAlarm n) (s.putPort n ((s.port n).windowed s.now))) :=
  if_neg (by simp [hup, h])

section
variable {clean g : Byte} (hdue : s.calDue n = true)
include hdue

/-- A proposal of the far end is accepted. -/
theorem calibrationOpportunity_accepts (hpeer : (s.port n).peerProposal = some g) : exec (.calibrationOpportunity n clean) s =
    .next (((s.putPort n ((s.port n).measured clean s.now)).modPort n fun x => x.sendNow (.acceptance g) s.now).setWidth n g) := by
  simp only [exec, execCalibrationOpportunity, Port.measured, hup, hdue, hpeer, Bool.not_true, Bool.or_self, Bool.false_eq_true, if_false,
    State.putPort_now]

section
variable (hpeer : (s.port n).peerProposal = none)
include hpeer

theorem calibrationOpportunity_keeps (hwish : ((s.port n).measured clean s.now).wish s.now = none) :
    exec (.calibrationOpportunity n clean) s = .next (s.putPort n ((s.port n).measured clean s.now)) := by
  simp only [Port.measured, hpeer] at hwish
  simp only [exec, execCalibrationOpportunity, Port.measured, hup, hdue, hpeer, hwish, Bool.not_true, Bool.or_self, Bool.false_eq_true,
    if_false, State.putPort_now]

theorem calibrationOpportunity_proposes (hwish : ((s.port n).measured clean s.now).wish s.now = some g)
    (hnew : (s.port n).proposal ≠ some g) (hother : g ≠ (s.port n).lanes) : exec (.calibrationOpportunity n clean) s =
      .next (((s.putPort n ((s.port n).measured clean s.now)).modPort n fun x => { x with proposal := some g }).sendMgmt n (.proposal g)) := by
  simp only [Port.measured, hpeer] at hwish
  simp only [exec, execCalibrationOpportunity, Port.measured, hup, hdue, hpeer, hwish, hnew, hother, Bool.not_true, Bool.or_self, decide_false,
    Bool.false_eq_true, if_false, State.putPort_now]

end

end

end

end Sys2Proof.Machine

namespace Sys2Proof.Settled
open Sys2Proof Sys2Proof.Machine

theorem flitsAndReplay : Claims.FlitsAndReplay := by
  intro n raw r ack s x0 x f again hup
  refine ⟨fun h => ?discarded, fun hgood hcrc h => linkFlitReceive_reserved hup hgood hcrc h,
    fun hgood hcrc h => linkFlitReceive_takes hup hgood hcrc h, fun hin hfew => ?corrected, fun c hc hmany => ?uncorrectable,
    fun hnone => nextReceived_between hnone, linkNak_replays hup ack, fun hbuf ht hprogress => ?again, fun hbuf ht hstuck => ?eighth⟩
  case discarded =>
    rw [linkFlitReceive_discards hup h, discard_asks]
  case corrected =>
    obtain ⟨c, hc⟩ := Option.ne_none_iff_exists'.mp hin
    have hx : x = _ := nextReceived_corrected hc hfew
    rw [hx]
    exact ⟨rfl, rfl, rfl⟩
  case uncorrectable =>
    have hx : x = _ := nextReceived_uncorrectable hc hmany
    rw [hx]
    exact ⟨rfl, rfl, rfl⟩
  case again =>
    rw [ackTimeout_replays hup hbuf ht, replay_again hprogress]
    rfl
  case eighth =>
    rw [ackTimeout_replays hup hbuf ht, replay_eighth hstuck]
    rfl

theorem acknowledgmentReleasesInOrder : Claims.AcknowledgmentReleasesInOrder := by
  intro x ack now k q f rest hbuf hlen
  exact ⟨fun hk hack => (acked_replayBuf x ack now).trans (afterAck_within hbuf hk hlen hack), acked_outside now hbuf, acked_keeps x ack now⟩

theorem widthChanges : Claims.WidthChanges := by
  intro n lane g s x healthy lost high bad lanes y hup
  exact ⟨fun hlane hg => ⟨laneLost_degrades hup hlane hg, laneLost_retrains hup hlane hg⟩,
    fun hlane hnone => laneLost_downs hup hlane hnone false,
    fun hg => ⟨degrade_switches hup hg, widthProposal_waits hup hg⟩, widthAccept_switches hup, laneHealthWindow_closes hup,
    calibrationOpportunity_keeps hup, fun h hdue hpeer => calibrationOpportunity_proposes hup hdue hpeer,
    fun h hdue => calibrationOpportunity_accepts hup hdue, fun m => sendNow_last x m s.now⟩

/-- Settles O46: a flit by the codeword, the CRC and the type it has, the replay buffer by what an acknowledgment leaves, and a width by the
lanes that are left or by what the two ends propose. -/
theorem linkService : Obligations.LinkService := ⟨flitsAndReplay, acknowledgmentReleasesInOrder, widthChanges⟩

end Sys2Proof.Settled
end

section
/-!
A packet at an engine (R346 to R349, R367): what forwards, copies, delivers or drops it, and the way that its routing entry gives.
-/
namespace Sys2Proof.Machine

/-! ### The head of a receive lane (R345, R347) -/

/-- The first packet has left a lane of a port, and its place is free. -/
def State.laneFreed (s : State) (n lane : Nat) (rest : List FabPacket) : State := s.modPort n fun x => { x with
  rxLanes := smapPut x.rxLanes lane rest
  freed := smapPut x.freed lane (smapGet 0 x.freed lane + 1) }

section
variable {n : PortId} {lane : Fin 5} {s : State} {p : FabPacket} {rest : List FabPacket}
  (hhead : smapGet [] (s.port n).rxLanes lane = p :: rest)
include hhead

theorem packetForward_forwards (hn : n.val < 18) : exec (.packetForward n lane) s =
    .next ((s.laneFreed n lane rest).forward (some (s.port n).role.toNat) n p) := by
  show execPacketForward n lane s = _
  simp only [execPacketForward, hhead, ge_iff_le, Nat.not_le.mpr hn, decide_false, Bool.false_and, Bool.false_eq_true, if_false]
  rfl

section
variable (hn : 18 ≤ n.val)
include hn

theorem packetForward_drops (h : p.isBad = true ∨ p.cls ≠ 2) :
    exec (.packetForward n lane) s = .next (s.laneFreed n lane rest).dropBad := by
  show execPacketForward n lane s = _
  have hother : (decide (p.cls = 2) && !p.isBad) = false := by
    rcases h with h | h
    · rw [h, Bool.not_true, Bool.and_false]
    · rw [decide_eq_false h, Bool.false_and]
  simp only [execPacketForward, hhead, ge_iff_le, hn, decide_true, Bool.true_and, hother, Bool.false_eq_true, if_false, if_true]
  rfl

theorem packetForward_leaves (hbad : p.isBad = false) (hcls : p.cls = 2) : exec (.packetForward n lane) s = .next s := by
  show execPacketForward n lane s = _
  simp only [execPacketForward, hhead, ge_iff_le, hn, hbad, hcls, decide_true, Bool.not_false, Bool.and_self, if_true]
  rfl

end

end

/-! ### Copies down a tree (R367) -/

/-- The one role of a tree, unless the packet came on it. -/
theorem treeRoles_single {r : Nat} (hr : r < 18) (m : Nat) :
    ((List.range 18).filter fun i => bitAt (BitVec.twoPow 18 r) i && decide (some m ≠ some i)) = if m = r then [] else [r] := by
  have hbit (i : Nat) : bitAt (BitVec.twoPow 18 r) i = decide (r = i) := by
    simp [bitAt, BitVec.getLsbD_twoPow, hr]
  split
  · next hm =>
    refine List.filter_eq_nil_iff.mpr fun i _ => ?_
    simp [hbit, hm]
  · next hm =>
    have hfilter : ((List.range 18).filter fun i => bitAt (BitVec.twoPow 18 r) i && decide (some m ≠ some i)) =
        (List.range 18).filter (· == r) := by
      refine List.filter_congr fun i _ => ?_
      by_cases hi : i = r
      · simp [hbit, hi, hm]
      · simp [hbit, hi, Ne.symm hi]
    rw [hfilter, List.filter_beq, List.count_eq_one_of_mem List.nodup_range (List.mem_range.mpr hr)]
    rfl

theorem copyToRoles_single (s : State) {r : Nat} (hr : r < 18) (m : Nat) (q : FabPacket) :
    s.copyToRoles (BitVec.twoPow 18 r) (some m) q =
      if m = r then s else match s.portOfRole r with
        | some out => s.putOn out q
        | none => s.holdPacket s.now (.lost r) q := by
  unfold State.copyToRoles
  rw [treeRoles_single hr]
  split <;> rfl

/-! ### At a link engine (R345 to R347, R367) -/

/-- What an engine does with a packet by its route. -/
def State.follow (s : State) (n : Nat) (q : FabPacket) : Route → State
  | .deliver => s.arriveHere n q
  | .noRoute => s.dropNoRoute n
  | .port m => s.putOn m q
  | .hold why => s.holdPacket s.now why q

section
variable {s : State} {m n : Nat} {p : FabPacket}

theorem forward_bad (h : p.isBad = true ∨ p.cls = 2) : s.forward (some m) n p = s.dropBad := if_pos (by simpa using h)

variable (hbad : p.isBad = false) (hcls : p.cls ≠ 2)
include hbad hcls

/-- The engine does not drop a packet of its own kinds and classes. -/
theorem not_forwardBad : ¬(p.isBad || decide (p.cls = 2)) = true := by
  rw [hbad, decide_eq_false hcls]
  exact Bool.false_ne_true

theorem forward_expires (h : p.hops = 1) : s.forward (some m) n p =
    (s.modPort n fun x => { x with hopsDrops := satInc x.hopsDrops }).pkgEvent St.FAB_HOPS_EXPIRED n :=
  (if_neg (not_forwardBad hbad hcls)).trans (if_pos (by simp [h]))

variable (hhops : p.hops ≠ 1)
include hhops

theorem forward_drove (hd : p.drove = true) : s.forward (some m) n p =
    let d : Drove := smapGet {} s.fabric.droves p.drv.toNat
    let q := p.withHops (p.hops - 1)
    if !d.valid then s.dropNoRoute n
    else if d.isLocal then (s.copyToRoles d.fwd (some m) q).accept (some d.localPas.toNat) n q else s.copyToRoles d.fwd (some m) q :=
  (if_neg (not_forwardBad hbad hcls)).trans <| (if_neg (sub_ne_zero.mpr hhops)).trans (if_pos hd)

theorem forward_routed (hd : p.drove = false) {s' : State} {e : BitVec 32} (hentry : s.routeEntry p.dstChip = (s', e)) :
    s.forward (some m) n p = s'.follow n (p.withHops (p.hops - 1)) (s'.routeOf e (p.withHops (p.hops - 1))) := by
  refine (if_neg (not_forwardBad hbad hcls)).trans <| (if_neg (sub_ne_zero.mpr hhops)).trans <|
    (if_neg (Bool.eq_false_iff.mp hd)).trans ?_
  have hsame : s.routeEntry (p.withHops (p.hops - 1)).dstChip = (s', e) := hentry
  simp only [Option.isSome_some, if_true, hsame]
  unfold State.follow
  split <;> simp only [*]

end

/-! ### The way of an ordered packet (R348, R349) -/

section
variable (s : State) (l r : Nat)

theorem lportMembers_pairwise : (s.lportMembers l).Pairwise (· < ·) := List.pairwise_lt_range.filter _

theorem mem_lportMembers : r ∈ s.lportMembers l ↔
    r < 18 ∧ bitAt (smapGet 0 s.links.lports l) r = true ∧ (s.portOfRole r).isSome = true := by
  unfold State.lportMembers
  rw [List.mem_filter, List.mem_range, Bool.and_eq_true]

end

section
variable {s : State} {e : BitVec 32} {p : FabPacket}

theorem routeOf_invalid (h : bitAt e 31 = false) : s.routeOf e p = .noRoute := if_pos (by simp [h])

variable (hvalid : bitAt e 31 = true)
include hvalid

theorem routeOf_local (h : bitAt e 30 = true) : s.routeOf e p = .deliver := (if_neg (by simp [hvalid])).trans (if_pos h)

variable (haway : bitAt e 30 = false)
include haway

theorem routeOf_bulk (hcls : p.cls ≠ 0) : s.routeOf e p = match s.bulkRole (field e 17 0) p with
    | some r => (match s.portOfRole r with | some n => .port n | none => .hold (.lost r))
    | none => .hold (.lost (((List.range 18).find? fun r => (field e 17 0).testBit r).getD 0)) :=
  (if_neg (by simp [hvalid])).trans <| (if_neg (Bool.eq_false_iff.mp haway)).trans (if_neg hcls)

section
variable (hcls : p.cls = 0)
include hcls

theorem routeOf_drains (h : ¬(s.fabric.draining = false ∨ field e 29 24 = field (s.otherEntry p.dstChip) 29 24)) :
    s.routeOf e p = .hold .drain :=
  (if_neg (by simp [hvalid])).trans <| (if_neg (Bool.eq_false_iff.mp haway)).trans <| (if_pos hcls).trans (if_pos (by simpa using h))

variable (hsettled : s.fabric.draining = false ∨ field e 29 24 = field (s.otherEntry p.dstChip) 29 24)
include hsettled

theorem routeOf_ordered : s.routeOf e p = s.orderedRoute e p :=
  (if_neg (by simp [hvalid])).trans <| (if_neg (Bool.eq_false_iff.mp haway)).trans <| (if_pos hcls).trans <| if_neg <| by
    rcases hsettled with h | h <;> simp [h]

theorem routeOf_role (hrole : bitAt e 29 = false) : s.routeOf e p =
    match s.portOfRole (field e 28 24) with | some m => .port m | none => .hold (.lost (field e 28 24)) :=
  (routeOf_ordered hvalid haway hcls hsettled).trans (if_neg (Bool.eq_false_iff.mp hrole))

section
variable (hlport : bitAt e 29 = true)
include hlport

theorem routeOf_noMember (h : s.lportMembers (field e 28 24 % 16) = []) : ∃ r, s.routeOf e p = .hold (.lost r) :=
  ⟨_, (routeOf_ordered hvalid haway hcls hsettled).trans <| (if_pos hlport).trans <| by simp only [h, List.getElem?_nil]; rfl⟩

variable {n r : Nat} (hmember : (s.lportMembers (field e 28 24 % 16))[(p.srcChip.toNat + p.dstChip.toNat + p.chan.toNat) %
    (s.lportMembers (field e 28 24 % 16)).length]? = some r) (hport : s.portOfRole r = some n)
include hmember hport

theorem routeOf_firstMember (h : smapFind s.fabric.ordMember p.flowKey = none) : s.routeOf e p = .port n :=
  (routeOf_ordered hvalid haway hcls hsettled).trans <| (if_pos hlport).trans <| by simp only [hmember, hport, h]

theorem routeOf_member {old : Nat} (h : smapFind s.fabric.ordMember p.flowKey = some old) :
    s.routeOf e p = if old ≠ r ∧ s.memberBusy old p = true then .hold .member else .port n :=
  (routeOf_ordered hvalid haway hcls hsettled).trans <| (if_pos hlport).trans <| by
    simp only [hmember, hport, h, Bool.and_eq_true, decide_eq_true_eq]

end
end
end

/-! ### The way of a bulk packet (R348) -/

/-- The better of a role found so far with its free credits and role r: the one with more, the former of equals. -/
def betterRole (free : Nat → Option Nat) (best : Option (Nat × Nat)) (r : Nat) : Option (Nat × Nat) :=
  match free r, best with
  | some c, some (b, _) => if b < c then some (c, r) else best
  | some c, none => some (c, r)
  | none, _ => best

/-- The best of the roles below n: none has credits, or the one found has the most, and of equals it is the lowest. -/
def BestRole (free : Nat → Option Nat) (n : Nat) : Option (Nat × Nat) → Prop
  | none => ∀ r < n, free r = none
  | some (c, r) => r < n ∧ free r = some c ∧ ∀ r' < n, ∀ c', free r' = some c' → c' < c ∨ (c' = c ∧ r ≤ r')

theorem bestRole_succ {free : Nat → Option Nat} {n c r : Nat} (hr : r < n + 1) (hc : free r = some c)
    (hbelow : ∀ r' < n, ∀ c', free r' = some c' → c' < c ∨ (c' = c ∧ r ≤ r'))
    (hlast : ∀ c', free n = some c' → c' < c ∨ (c' = c ∧ r ≤ n)) : BestRole free (n + 1) (some (c, r)) :=
  ⟨hr, hc, Nat.forall_lt_succ_right.mpr ⟨hbelow, hlast⟩⟩

theorem bestRole_betterRole {free : Nat → Option Nat} {n : Nat} {best : Option (Nat × Nat)} (h : BestRole free n best) :
    BestRole free (n + 1) (betterRole free best n) := by
  rcases hfree : free n with _ | c <;> rcases best with _ | ⟨b, r⟩ <;> simp only [betterRole, hfree]
  case none.none => exact Nat.forall_lt_succ_right.mpr ⟨h, hfree⟩
  case none.some =>
    obtain ⟨hr, hb, hmost⟩ := h
    exact bestRole_succ (Nat.lt_succ_of_lt hr) hb hmost fun c' hc' => nomatch hfree.symm.trans hc'
  case some.none =>
    exact bestRole_succ n.lt_succ_self hfree (fun r' hr' c' hc' => nomatch (h r' hr').symm.trans hc')
      fun c' hc' => .inr ⟨Option.some.inj (hc'.symm.trans hfree), le_rfl⟩
  case some.some =>
    obtain ⟨hr, hb, hmost⟩ := h
    split
    · next hmore =>
      refine bestRole_succ n.lt_succ_self hfree (fun r' hr' c' hc' => ?_)
        fun c' hc' => .inr ⟨Option.some.inj (hc'.symm.trans hfree), le_rfl⟩
      have := hmost r' hr' c' hc'
      omega
    · next hless =>
      refine bestRole_succ (Nat.lt_succ_of_lt hr) hb hmost fun c' hc' => ?_
      have := Option.some.inj (hc'.symm.trans hfree)
      omega

theorem bestRole_foldl (free : Nat → Option Nat) (n : Nat) : BestRole free n ((List.range n).foldl (betterRole free) none) := by
  induction n with
  | zero => exact fun r hr => absurd hr r.not_lt_zero
  | succ n ih =>
    rw [List.range_succ, List.foldl_append]
    exact bestRole_betterRole ih

/-- The free credits of the port that has a role of a mask, in the lane that a packet takes on it. -/
def State.creditsFor (s : State) (mask : Nat) (p : FabPacket) (r : Nat) : Option Nat :=
  if mask.testBit r then (s.portOfRole r).map fun n => (s.port n).freeCredits (s.packetOn r p).lane else none

section
variable {s : State} {mask : Nat} {p : FabPacket} {r : Nat}

theorem bulkRole_eq : s.bulkRole mask p = ((List.range 18).foldl (betterRole (s.creditsFor mask p)) none).map (·.2) := by
  have hstep (best : Option (Nat × Nat)) (r : Nat) (h : mask.testBit r = false) : betterRole (s.creditsFor mask p) best r = best := by
    simp only [betterRole, State.creditsFor, h, Bool.false_eq_true, if_false]
  unfold State.bulkRole
  extract_lets free
  refine congrArg (Option.map _) (congrArg (fun f => (List.range 18).foldl f none) (funext₂ fun best r => ?_))
  split
  · next h =>
    have hfree : s.creditsFor mask p r = free r := if_pos h
    exact congrArg (fun c => betterRole (fun _ => c) best r) hfree.symm
  · next h => exact (hstep best r (Bool.eq_false_iff.mpr h)).symm

theorem creditsFor_eq_some {c : Nat} : s.creditsFor mask p r = some c ↔
    mask.testBit r = true ∧ ∃ n, s.portOfRole r = some n ∧ (s.port n).freeCredits (s.packetOn r p).lane = c := by
  unfold State.creditsFor
  split
  · next h => rw [Option.map_eq_some_iff, and_iff_right h]
  · next h => exact ⟨nofun, fun hr => absurd hr.1 h⟩

theorem bulkRole_eq_none (h : ∀ r < 18, mask.testBit r = true → s.portOfRole r = none) : s.bulkRole mask p = none := by
  rw [bulkRole_eq, Option.map_eq_none_iff]
  have hbest := bestRole_foldl (s.creditsFor mask p) 18
  match hfold : (List.range 18).foldl (betterRole (s.creditsFor mask p)) none with
  | none => rfl
  | some (c, r) =>
    rw [hfold] at hbest
    obtain ⟨hr, hc, -⟩ := hbest
    obtain ⟨hbit, n, hport, -⟩ := creditsFor_eq_some.mp hc
    exact nomatch (h r hr hbit).symm.trans hport

theorem bulkRole_best (h : s.bulkRole mask p = some r) : ∃ n, r < 18 ∧ mask.testBit r = true ∧ s.portOfRole r = some n ∧
    ∀ r' m, r' < 18 → mask.testBit r' = true → s.portOfRole r' = some m →
      (s.port m).freeCredits (s.packetOn r' p).lane < (s.port n).freeCredits (s.packetOn r p).lane ∨
      ((s.port m).freeCredits (s.packetOn r' p).lane = (s.port n).freeCredits (s.packetOn r p).lane ∧ r ≤ r') := by
  rw [bulkRole_eq] at h
  obtain ⟨⟨c, r⟩, hfold, rfl⟩ := Option.map_eq_some_iff.mp h
  have hbest := bestRole_foldl (s.creditsFor mask p) 18
  rw [hfold] at hbest
  obtain ⟨hr, hc, hmost⟩ := hbest
  obtain ⟨hbit, n, hport, rfl⟩ := creditsFor_eq_some.mp hc
  exact ⟨n, hr, hbit, hport, fun r' m hr' hbit' hport' => hmost r' hr' _ (creditsFor_eq_some.mpr ⟨hbit', m, hport', rfl⟩)⟩

end

/-- The mask of roles of an entry is its low bits. -/
theorem testBit_field_low {w hi r : Nat} (e : BitVec w) (hr : r ≤ hi) : (field e hi 0).testBit r = bitAt e r := by
  simp [field, bitAt, Nat.testBit_mod_two_pow, Nat.lt_succ_of_le hr, BitVec.testBit_toNat]

section
variable {s : State} {e : BitVec 32} {p : FabPacket} (hvalid : bitAt e 31 = true) (haway : bitAt e 30 = false) (hcls : p.cls ≠ 0)
include hvalid haway hcls

theorem routeOf_noBulkRole (h : ∀ r < 18, bitAt e r = true → s.portOfRole r = none) : ∃ r, s.routeOf e p = .hold (.lost r) := by
  have hnone : s.bulkRole (field e 17 0) p = none :=
    bulkRole_eq_none fun r hr hbit => h r hr ((testBit_field_low e (Nat.le_of_lt_succ hr)).symm.trans hbit)
  rw [routeOf_bulk hvalid haway hcls, hnone]
  exact ⟨_, rfl⟩

theorem routeOf_bulk_best {n : Nat} (h : s.routeOf e p = .port n) : ∃ r < 18, bitAt e r = true ∧ s.portOfRole r = some n ∧
    ∀ r' m, r' < 18 → bitAt e r' = true → s.portOfRole r' = some m →
      (s.port m).freeCredits (s.packetOn r' p).lane < (s.port n).freeCredits (s.packetOn r p).lane ∨
      ((s.port m).freeCredits (s.packetOn r' p).lane = (s.port n).freeCredits (s.packetOn r p).lane ∧ r ≤ r') := by
  rw [routeOf_bulk hvalid haway hcls] at h
  have hlow {r : Nat} (hr : r < 18) := testBit_field_low e (Nat.le_of_lt_succ hr)
  match hrole : s.bulkRole (field e 17 0) p with
  | none => simp only [hrole, reduceCtorEq] at h
  | some r =>
    obtain ⟨m, hr, hbit, hport, hmost⟩ := bulkRole_best hrole
    simp only [hrole, hport, Route.port.injEq] at h
    subst h
    exact ⟨r, hr, (hlow hr).symm.trans hbit, hport, fun r' m hr' hbit' => hmost r' m hr' ((hlow hr').trans hbit')⟩

end

end Sys2Proof.Machine

namespace Sys2Proof.Settled
open Sys2Proof Sys2Proof.Machine

theorem packetForwarding : Claims.PacketForwarding := by
  intro n lane s s' p rest e m why q freed
  refine ⟨fun hn hhead => ⟨packetForward_drops hhead hn, packetForward_leaves hhead hn⟩,
    fun hn hhead => packetForward_forwards hhead hn, forward_bad, forward_expires, fun hbad hcls hhops hd => ?drove,
    fun r hr => copyToRoles_single s hr m q, fun hbad hcls hhops hd hentry => ?routed⟩
  case drove =>
    intro d copied
    have hforward : s.forward (some m) n p = if !d.valid then s.dropNoRoute n
        else if d.isLocal then copied.accept (some d.localPas.toNat) n q else copied := forward_drove hbad hcls hhops hd
    exact ⟨fun h => hforward.trans (if_pos (by simp [h])), fun h => hforward.trans (if_neg (by simp [h]))⟩
  case routed =>
    have hforward {route : Route} (h : s'.routeOf e q = route) : s.forward (some m) n p = s'.follow n q route :=
      h ▸ forward_routed hbad hcls hhops hd hentry
    exact ⟨hforward, hforward, fun _ => hforward, hforward⟩

theorem routeChoice : Claims.RouteChoice := by
  intro s e p n r ms settled
  exact ⟨⟨lportMembers_pairwise s _, mem_lportMembers s _ r⟩, routeOf_drains,
    fun hvalid haway hcls hset hlport => ⟨routeOf_noMember hvalid haway hcls hset hlport, fun hmember hport =>
      ⟨routeOf_firstMember hvalid haway hcls hset hlport hmember hport,
        fun _ => routeOf_member hvalid haway hcls hset hlport hmember hport⟩⟩,
    routeOf_noBulkRole, routeOf_invalid, routeOf_local, routeOf_role,
    fun hvalid haway hcls => routeOf_bulk_best hvalid haway (by simp [hcls])⟩

/-- Settles O47: a packet by the first condition of an engine that it meets, and its way by its routing entry; the fold over the roles keeps
the best of those it has passed. -/
theorem forwardingAndRoutes : Obligations.ForwardingAndRoutes := ⟨packetForwarding, routeChoice⟩

end Sys2Proof.Settled
end

section
/-!
Flocks, rank and routing tables, and ordered reservations (R342, R343, R349, R353, R435): what each register write does by the first
condition that it meets.
-/
namespace Sys2Proof.Machine

/-! ### Entries with a parity error (R435) -/

/-- An entry of both rank tables reads as not valid, and its parity error is known no more. -/
def State.rankInvalidated (s : State) (p r : Nat) : State := s.modPas p fun x => { x with
  badRanks := x.badRanks.erase r
  rank0 := smapPut x.rank0 r (invalidEntry (smapGet 0 x.rank0 r))
  rank1 := smapPut x.rank1 r (invalidEntry (smapGet 0 x.rank1 r)) }

theorem bitAt_invalidEntry (e : BitVec 32) : bitAt (invalidEntry e) 31 = false := by simp [bitAt, invalidEntry]

section
variable (s : State) (p r : Nat)

theorem rankInvalidated_badRanks : ((s.rankInvalidated p r).pasture p).badRanks = (s.pasture p).badRanks.erase r :=
  congrArg Pasture.badRanks (State.modPas_pasture_same ..)

theorem rankInvalidated_entry : bitAt (((s.rankInvalidated p r).pasture p).rankEntry r) 31 = false := by
  unfold State.rankInvalidated
  rw [State.modPas_pasture_same, Pasture.rankEntry]
  split
  · rfl
  · cases (s.pasture p).rankActive <;> exact (congrArg (bitAt · 31) (smapGet_put_same ..)).trans (bitAt_invalidEntry _)

variable {s p r}

theorem rankChip_parity (h : (s.pasture p).badRanks.contains r = true) :
    s.rankChip p r = ((s.rankInvalidated p r).pasEvent p St.FAB_TABLE_PARITY r, none) := if_pos h

/-- Where no entry has a parity error, the ranks are read without a change. -/
theorem checkRanks_sound (h : (s.pasture p).badRanks = []) (rs : List Nat) : s.checkRanks p rs = s := by
  have hread (r : Nat) : (s.rankChip p r).1 = s := congrArg Prod.fst (if_neg (by simp [h]))
  exact List.foldl_fixed' hread rs

end

/-! ### Flocks (R343) -/

/-- A start has read the entries of its own rank and of every rank of the flock. -/
def State.flockRead (s : State) (p : Nat) : State :=
  s.checkRanks p ((s.pasture p).selfRank.toNat :: List.range (s.pasture p).flockSize.toNat)

section
variable {fn : FnId} {p : PasId} {s : State} (hmay : s.mayWrite fn p = true)
include hmay

theorem flockStart_starts (h : (s.flockRead p).flockOk p = true) : exec (.flockStart fn p) s =
    .next ((s.flockRead p).modPas p fun x => { x with started := true, flockStatus := St.OK, nextOseq := [], sendOseq := [] }) :=
  (if_neg (by simp [hmay])).trans (if_pos h)

theorem flockStart_refused (h : (s.flockRead p).flockOk p = false) : exec (.flockStart fn p) s =
    .next ((s.flockRead p).modPas p fun x => { x with flockStatus := St.FAB_FLOCK_START }) :=
  (if_neg (by simp [hmay])).trans (if_neg (Bool.eq_false_iff.mp h))

theorem flockStop_stops (h : (s.pasture p).runs = []) : exec (.flockStop fn p) s =
    .next (s.modPas p fun x => { x with started := false, flockStatus := St.OK }) :=
  (if_neg (by simp [hmay])).trans (if_neg (by simp [h]))

theorem flockStop_busy (h : (s.pasture p).runs ≠ []) : exec (.flockStop fn p) s =
    .next (s.modPas p fun x => { x with flockStatus := St.FAB_FLOCK_BUSY }) :=
  (if_neg (by simp [hmay])).trans (if_pos (by simp [h]))

theorem rankSwap_swaps : exec (.rankSwap fn p) s = .next (s.swapRanks p) := if_pos hmay

end

/-! ### Swaps of the routing tables (R342, R349) -/

section
variable {s : State}

theorem routeSwap_triggered (h : s.fabric.routeTrigEn = true) : exec .routeSwap s = .next s := if_pos h

theorem routeSwap_swaps (h : s.fabric.routeTrigEn = false) : exec .routeSwap s = .next s.swapRoutes := if_neg (Bool.eq_false_iff.mp h)

theorem swapRoutes_refused (h : s.swapBad = true) : s.swapRoutes = { s with fabric := { s.fabric with routeStatus := St.FAB_ROUTE_LPORT } } :=
  if_pos h

theorem swapRoutes_swaps (h : s.swapBad = false) : s.swapRoutes = ({ s with fabric := { s.fabric with
    routeActive := !s.fabric.routeActive, routeStatus := St.OK, draining := true, swapTime := s.now } }).retryHeld HeldPacket.waitsRole :=
  if_neg (Bool.eq_false_iff.mp h)

end

/-! ### Ordered reservations (R353) -/

/-- The reservation that a written value has for a role. -/
def ordAsked (value : Word) (r : Nat) : Byte := BitVec.ofNat 8 (value.toNat / 2 ^ (8 * (r % 8)))

/-- A pasture's reservations with those of a written value. -/
def State.withOrdAsked (s : State) (p k : Nat) (value : Word) : State :=
  s.modPas p fun x => { x with ordRes := (ordRoles k).foldl (fun m r => smapPut m r (ordAsked value r)) x.ordRes }

/-- A role that the value raises and that no longer fits. -/
def State.ordExceeded (s : State) (p k : Nat) (value : Word) (r : Nat) : Bool :=
  decide (smapGet 0 (s.pasture p).ordRes r < ordAsked value r) &&
    !(s.withOrdAsked p k value).ordFits r ((s.withOrdAsked p k value).reserved r)

section
variable {fn : FnId} {p : PasId} {k : Fin 3} {value : Word} {s : State}

theorem ordExceeded_iff (r : Nat) : s.ordExceeded p k value r = true ↔
    smapGet 0 (s.pasture p).ordRes r < ordAsked value r ∧ 3 * s.roleRate r < 40 * (s.withOrdAsked p k value).reserved r := by
  have hrate : (s.withOrdAsked p k value).roleRate r = s.roleRate r := rfl
  unfold State.ordExceeded State.ordFits
  rw [hrate, Bool.and_eq_true, decide_eq_true_eq, Bool.not_eq_true', decide_eq_false_iff_not, Nat.not_le]

section
variable (hmay : s.mayWrite fn p = true)
include hmay

theorem ordReservationWrite_writes (h : ∀ r ∈ ordRoles k, s.ordExceeded p k value r ≠ true) :
    exec (.ordReservationWrite fn p k value) s = .next ((ordRoles k).foldl (fun s r => s.recheckOrd r) (s.withOrdAsked p k value)) :=
  (if_neg (by simp [hmay])).trans (if_neg (mt List.any_eq_true.mp fun ⟨r, hr, hx⟩ => h r hr hx))

theorem ordReservationWrite_refused (h : ∃ r ∈ ordRoles k, s.ordExceeded p k value r = true) :
    exec (.ordReservationWrite fn p k value) s = .next (s.modPas p fun x => { x with flockStatus := St.FAB_ORD_OVERCOMMIT }) :=
  (if_neg (by simp [hmay])).trans (if_pos (List.any_eq_true.mpr h))

end
end

end Sys2Proof.Machine

namespace Sys2Proof.Settled
open Sys2Proof Sys2Proof.Machine

/-- Settles O48: each write by the first of its checks that fails, and the reservations by the roles that the value raises. -/
theorem flocksAndTables : Obligations.FlocksAndTables := by
  intro fn p k value s hmay new asked raised f read
  refine ⟨flockStart_starts hmay, flockStart_refused hmay, fun h => checkRanks_sound h _, fun n _ h => ?parity, flockStop_stops hmay,
    flockStop_busy hmay, rankSwap_swaps hmay, routeSwap_triggered, fun htrig hbad => ?lport, fun htrig hgood => ?swap, fun h => ?fits,
    fun h => ?exceeds⟩
  case parity => exact ⟨s.rankInvalidated p n, rankChip_parity h, rankInvalidated_badRanks s p n, rankInvalidated_entry s p n⟩
  case lport => rw [routeSwap_swaps htrig, swapRoutes_refused hbad]
  case swap => rw [routeSwap_swaps htrig, swapRoutes_swaps hgood]
  case fits =>
    refine ordReservationWrite_writes hmay fun r hr hx => ?_
    obtain ⟨hraised, hover⟩ := (ordExceeded_iff r).mp hx
    exact absurd (h r hr (decide_eq_true hraised)) (Nat.not_le.mpr hover)
  case exceeds =>
    obtain ⟨r, hr, hraised, hover⟩ := h
    exact ordReservationWrite_refused hmay ⟨r, hr, (ordExceeded_iff r).mpr ⟨of_decide_eq_true hraised, hover⟩⟩

end Sys2Proof.Settled
end

section
/-!
Windows at the receiver (R349, R357 to R362, R368): data and each refusal of it, landing notices, credit requests, and grants that come back.
-/
namespace Sys2Proof.Machine

/-! ### The order of a stream (R349) -/

/-- The next packet of a stream is expected after this one. -/
def State.expectAfter (s : State) (q : Nat) (p : FabPacket) : State :=
  s.modPas q fun x => { x with nextOseq := smapPut x.nextOseq (oseqKey p) (p.oseq + 1) }

/-- A packet out of its order breaks its stream. -/
def State.orderBroken (s : State) (q : Nat) (p : FabPacket) : State :=
  ((s.expectAfter q p).modPas q fun x => { x with orderBreaks := satInc x.orderBreaks }).pasEvent q St.FAB_ORDER_BREAK p.srcRank.toNat

section
variable {s : State} {q : Nat} {p : FabPacket}

theorem checkOseq_bulk (h : p.cls ≠ 0) : s.checkOseq q p = (s, true) := if_pos h

section
variable (hcls : p.cls = 0)
include hcls

theorem checkOseq_next (h : smapGet 0 (s.pasture q).nextOseq (oseqKey p) = p.oseq) : s.checkOseq q p = (s.expectAfter q p, true) :=
  (if_neg (not_not.mpr hcls)).trans (if_pos (decide_eq_true h))

theorem checkOseq_breaks (h : smapGet 0 (s.pasture q).nextOseq (oseqKey p) ≠ p.oseq) :
    s.checkOseq q p = (s.orderBroken q p, false) :=
  (if_neg (not_not.mpr hcls)).trans (if_neg (mt of_decide_eq_true h))

end

/-- The check of the order passes a packet on as it is, expects the one after it, or breaks its stream. -/
theorem checkOseq_cases : s.checkOseq q p = (s, true) ∨ s.checkOseq q p = (s.expectAfter q p, true) ∨
    s.checkOseq q p = (s.orderBroken q p, false) := by
  by_cases hcls : p.cls = 0
  · by_cases h : smapGet 0 (s.pasture q).nextOseq (oseqKey p) = p.oseq
    · exact .inr (.inl (checkOseq_next hcls h))
    · exact .inr (.inr (checkOseq_breaks hcls h))
  · exact .inl (checkOseq_bulk hcls)

theorem expectAfter_pasture : (s.expectAfter q p).pasture q =
    { s.pasture q with nextOseq := smapPut (s.pasture q).nextOseq (oseqKey p) (p.oseq + 1) } := State.modPas_pasture_same ..

theorem orderBroken_pasture : (s.orderBroken q p).pasture q =
    { s.pasture q with nextOseq := smapPut (s.pasture q).nextOseq (oseqKey p) (p.oseq + 1),
                       orderBreaks := satInc (s.pasture q).orderBreaks } := by
  rw [State.orderBroken, pasEvent_pasture, State.modPas_pasture_same, expectAfter_pasture]

variable {v : State} {ok : Bool}

/-- What the check of an ordered packet leaves at its pasture. -/
theorem checkOseq_ordered (hcls : p.cls = 0) (h : s.checkOseq q p = (v, ok)) :
    ok = decide (smapGet 0 (s.pasture q).nextOseq (oseqKey p) = p.oseq) ∧
      smapGet 0 (v.pasture q).nextOseq (oseqKey p) = p.oseq + 1 ∧
      (v.pasture q).orderBreaks = if ok then (s.pasture q).orderBreaks else satInc (s.pasture q).orderBreaks := by
  by_cases hnext : smapGet 0 (s.pasture q).nextOseq (oseqKey p) = p.oseq
  · obtain ⟨rfl, rfl⟩ := Prod.mk.inj ((checkOseq_next hcls hnext).symm.trans h)
    rw [expectAfter_pasture]
    exact ⟨(decide_eq_true hnext).symm, smapGet_put_same .., rfl⟩
  · obtain ⟨rfl, rfl⟩ := Prod.mk.inj ((checkOseq_breaks hcls hnext).symm.trans h)
    rw [orderBroken_pasture]
    exact ⟨(decide_eq_false hnext).symm, smapGet_put_same .., rfl⟩

/-- What the treatment of a packet reads of the state, beside the order of its stream. -/
def State.receiving (s : State) (q : Nat) : Nat × Facts × SMap Stack × SMap Window × List Tracker :=
  (s.now, s.facts, s.stks, (s.pasture q).windows, (s.pasture q).trackers)

theorem checkOseq_receiving (h : s.checkOseq q p = (v, ok)) : v.receiving q = s.receiving q := by
  rcases checkOseq_cases (s := s) (q := q) (p := p) with hc | hc | hc <;> obtain ⟨rfl, rfl⟩ := Prod.mk.inj (hc.symm.trans h)
  · rfl
  · unfold State.receiving
    rw [expectAfter_pasture]
    rfl
  · unfold State.receiving
    rw [orderBroken_pasture]
    rfl

end

/-! ### The refusals of data (R360) -/

theorem xferRange_congr {s v : State} (hfacts : v.facts = s.facts) (hstks : v.stks = s.stks) (p a n : Nat) :
    v.xferRange p a n = s.xferRange p a n := by
  have hown (g : Nat) : v.groupOwn g = s.groupOwn g := by
    unfold State.groupOwn State.stack
    rw [hstks]
  have hsize (g : Nat) : v.groupSize g = s.groupSize g := by
    unfold State.groupSize
    rw [hfacts]
  have hplace (a : Int) : v.stackPlace p a = s.stackPlace p a := by
    simp only [State.stackPlace, State.ownedGroups, hown, hsize]
  simp only [State.xferRange, hplace, hown]

section
variable {s : State} {q : Nat} {y : Window} {p : FabPacket}

theorem dataNak_resetting (h : y.state = 2) : s.dataNak q y p = some St.FAB_TARGET_RESETTING := if_pos h

theorem dataNak_closed (h : y.state = 0) : s.dataNak q y p = some St.FAB_WIN_CLOSED :=
  (if_neg (by simp [h])).trans (if_pos (by simp [Window.isOpen, h]))

section
variable (hopen : y.state = 1)
include hopen

theorem dataNak_rank (h : y.allows p.srcRank.toNat = false) : s.dataNak q y p = some St.FAB_WIN_RANK :=
  (if_neg (by simp [hopen])).trans <| (if_neg (by simp [Window.isOpen, hopen])).trans (if_pos (by simp [h]))

variable (hrank : y.allows p.srcRank.toNat = true)
include hrank

theorem dataNak_bounds (h : y.size * 4096 < p.offset.toNat + p.data.length) : s.dataNak q y p = some St.FAB_WIN_BOUNDS :=
  (if_neg (by simp [hopen])).trans <| (if_neg (by simp [Window.isOpen, hopen])).trans <| (if_neg (by simp [hrank])).trans (if_pos h)

theorem dataNak_within (h : p.offset.toNat + p.data.length ≤ y.size * 4096) : s.dataNak q y p =
    if y.landing = false ∧ s.xferRange q (y.base + p.offset.toNat) p.data.length = false then some St.FAB_WIN_XFER else none := by
  refine (if_neg (by simp [hopen])).trans <| (if_neg (by simp [Window.isOpen, hopen])).trans <| (if_neg (by simp [hrank])).trans <|
    (if_neg (Nat.not_lt.mpr h)).trans ?_
  simp only [Bool.and_eq_true, Bool.not_eq_true']

end
end

/-! ### Data at its pasture (R357, R360) -/

/-- The tracker has taken a packet of n bytes. -/
def State.trackData (v : State) (q : Nat) (t : Tracker) (n now : Nat) (ok : Bool) : State :=
  v.modPas q fun x => x.modTracker t fun o => { o with accepted := o.accepted + n, time := now, broken := o.broken || !ok }

section
variable {s v u : State} {q : Nat} {p : FabPacket} {y : Window} {t : Tracker} {ok : Bool} {st : Status} {got : List Byte}
  (horder : s.checkOseq q p = (v, ok)) (hwin : (s.pasture q).window p.win.toNat = y)
include horder hwin

/-- The window, the tracker and the refusals of a packet after the check of its order. -/
theorem checkOseq_window : (v.pasture q).window p.win.toNat = y ∧
    (v.pasture q).tracker p.win.toNat p.srcRank p.xfer = (s.pasture q).tracker p.win.toNat p.srcRank p.xfer ∧
    v.dataNak q y p = s.dataNak q y p ∧ v.now = s.now := by
  have hkept := checkOseq_receiving horder
  simp only [State.receiving, Prod.mk.injEq] at hkept
  obtain ⟨hnow, hfacts, hstks, hwindows, htrackers⟩ := hkept
  refine ⟨?_, ?_, ?_, hnow⟩
  · rw [← hwin, Pasture.window, Pasture.window, hwindows]
  · rw [Pasture.tracker, Pasture.tracker, htrackers]
  · unfold State.dataNak
    rw [xferRange_congr hfacts hstks]

theorem receiveData_pruned (hdrove : p.drove = true) (htr : (s.pasture q).tracker p.win.toNat p.srcRank p.xfer = none) :
    s.receiveData q p = v.modPas q fun x => { x with drovePruned := satInc x.drovePruned } := by
  obtain ⟨-, ht, -, -⟩ := checkOseq_window horder hwin
  simp only [State.receiveData, horder, ht, htr, hdrove, Option.isNone_none, Bool.and_self, if_true]

theorem receiveData_refused (hnak : s.dataNak q y p = some st)
    (h : p.drove = false ∨ (s.pasture q).tracker p.win.toNat p.srcRank p.xfer = some t) :
    s.receiveData q p = v.windowNak q p st := by
  obtain ⟨hw, ht, hn, -⟩ := checkOseq_window horder hwin
  have htracked : (p.drove && ((s.pasture q).tracker p.win.toNat p.srcRank p.xfer).isNone) = false := by
    rcases h with h | h <;> simp [h]
  simp only [State.receiveData, horder, hw, ht, hn, hnak, htracked, Bool.false_eq_true, if_false]

section
variable (hnak : s.dataNak q y p = none)
include hnak

theorem receiveData_ungranted (htr : (s.pasture q).tracker p.win.toNat p.srcRank p.xfer = none) (hdrove : p.drove = false) :
    s.receiveData q p = v.windowNak q p St.FAB_CREDIT_OVERRUN := by
  obtain ⟨hw, ht, hn, -⟩ := checkOseq_window horder hwin
  simp only [State.receiveData, horder, hw, ht, hn, hnak, htr, hdrove, Bool.false_and, Bool.false_eq_true, if_false]

variable (htr : (s.pasture q).tracker p.win.toNat p.srcRank p.xfer = some t)
include htr

theorem receiveData_overrun (h : t.units * 4096 < t.accepted + p.data.length) :
    s.receiveData q p = v.windowNak q p St.FAB_CREDIT_OVERRUN := by
  obtain ⟨hw, ht, hn, -⟩ := checkOseq_window horder hwin
  simp only [State.receiveData, horder, hw, ht, hn, hnak, htr, Option.isNone_some, Bool.and_false, Bool.false_eq_true, if_false, gt_iff_lt, h,
    if_true]

section
variable (hfits : t.accepted + p.data.length ≤ t.units * 4096)
include hfits

theorem receiveData_lands (hland : (v.trackData q t p.data.length s.now ok).landData q y p = (u, .ok got)) : s.receiveData q p =
    u.send (.landed q p.win.toNat p.srcRank.toNat p.xfer p.data.length (if p.last then some p.count.toNat else none)) := by
  obtain ⟨hw, ht, hn, hnow⟩ := checkOseq_window horder hwin
  rw [State.trackData, ← hnow] at hland
  simp only [State.receiveData, horder, hw, ht, hn, hnak, htr, Option.isNone_some, Bool.and_false, Bool.false_eq_true, if_false, gt_iff_lt,
    Nat.not_lt.mpr hfits, hland]

theorem receiveData_landRefused (hland : (v.trackData q t p.data.length s.now ok).landData q y p = (u, .refused st)) :
    s.receiveData q p = u.windowNak q p st := by
  obtain ⟨hw, ht, hn, hnow⟩ := checkOseq_window horder hwin
  rw [State.trackData, ← hnow] at hland
  simp only [State.receiveData, horder, hw, ht, hn, hnak, htr, Option.isNone_some, Bool.and_false, Bool.false_eq_true, if_false, gt_iff_lt,
    Nat.not_lt.mpr hfits, hland]

end
end
end

section
variable {i q : Nat} {p : FabPacket} {s s' : State} {y : Window} (htake : s.takePacket i 0x01 = some (p, s'))
  (hdest : s'.destPas p = some q) (hwin : (s'.pasture q).window p.win.toNat = y)
include htake hdest hwin

/-- Data that its window would take waits while its lines are in use. -/
theorem data_waits (hnak : s'.dataNak q y p = none) (hbusy : s'.landBusy y p = true) : exec (.data i) s =
    .next (s.noteRange y.opener .landing (y.base + p.offset.toNat) p.data.length (packetWaiter p)) := by
  show execData i s = _
  simp only [execData, htake, hdest, hwin, hnak, hbusy, Option.isNone_none, Bool.and_self, if_true]

theorem data_receives {st : Status} (h : s'.dataNak q y p = some st ∨ s'.landBusy y p = false) : exec (.data i) s =
    .next ((s'.receiveData q p).dropWaits y.opener (packetWaiter p)) := by
  show execData i s = _
  have hgoes : ((s'.dataNak q y p).isNone && s'.landBusy y p) = false := by rcases h with h | h <;> simp [h]
  simp only [execData, htake, hdest, hwin, hgoes, Bool.false_eq_true, if_false]

end

/-! ### Landing notices (R357, R359, R365) -/

/-- A tracker that has counted one landed packet, and the COUNT of its LAST one. -/
def Tracker.noticed (t : Tracker) (bytes now : Nat) (last : Option Nat) : Tracker := { t with
  landed := t.landed + 1, bytes := t.bytes + bytes, time := now
  count := match last with | some n => some n | none => t.count }

section
variable {i q w rank bytes : Nat} {xfer : BitVec 32} {last : Option Nat} {s s' : State} {t : Tracker}
  (hnotice : s.arrives i = some (.landed q w rank xfer bytes last, s'))
  (htr : (s'.pasture q).tracker w (BitVec.ofNat 12 rank) xfer = some t)
include hnotice htr

theorem landingNotice_completes (hall : (t.noticed bytes s'.now last).count = some (t.noticed bytes s'.now last).landed)
    (hwhole : (t.noticed bytes s'.now last).broken = false) : exec (.landingNotice i) s =
      .next (((s'.modPas q fun x => x.modTracker t fun _ => t.noticed bytes s'.now last).completeTransfer q
        (t.noticed bytes s'.now last)).serveWindows q) := by
  show execLandingNotice i s = _
  simp only [execLandingNotice, hnotice, htr]
  exact if_pos (Bool.and_eq_true_iff.mpr ⟨decide_eq_true hall, congrArg (!·) hwhole⟩)

theorem landingNotice_counts (h : (t.noticed bytes s'.now last).count ≠ some (t.noticed bytes s'.now last).landed ∨
    (t.noticed bytes s'.now last).broken = true) : exec (.landingNotice i) s =
      .next ((s'.modPas q fun x => x.modTracker t fun _ => t.noticed bytes s'.now last).ackData q (t.noticed bytes s'.now last)) := by
  show execLandingNotice i s = _
  simp only [execLandingNotice, hnotice, htr]
  refine if_neg fun hboth => ?_
  obtain ⟨hall, hwhole⟩ := Bool.and_eq_true_iff.mp hboth
  rcases h with h | h
  · exact h (of_decide_eq_true hall)
  · exact nomatch (hwhole.symm.trans (congrArg (!·) h) : true = false)

end

/-! ### Credits (R358, R361, R362, R368) -/

section
variable {i q : Nat} {p : FabPacket} {s s' : State} (hflock : s'.pasOfFlock p.flock = some q)
include hflock

theorem creditReq_requests (htake : s.takePacket i 0x02 = some (p, s')) : exec (.creditReq i) s = .next (s'.creditRequest q p) := by
  show execCreditReq i s = _
  simp only [execCreditReq, htake, hflock]

theorem creditReturn_returns (htake : s.takePacket i 0x04 = some (p, s')) {t : Tracker}
    (htr : (s'.pasture q).tracker p.win.toNat p.srcRank p.xfer = some t) : exec (.creditReturn i) s = .next (s'.returnUnits q t) := by
  show execCreditReturn i s = _
  simp only [execCreditReturn, htake, hflock, htr]

end

theorem trackerAbandon_returns {pas : PasId} {win : BitVec 6} {rk : BitVec 12} {xfer : BitVec 32} {s : State} {t : Tracker}
    (htr : (s.pasture pas).tracker win.toNat rk xfer = some t) (hidle : (s.pasture pas).trackIdleUs.toNat * usT ≤ s.now - t.time) :
    exec (.trackerAbandon pas win rk xfer) s =
      .next ((s.modPas pas fun x => { x with abandoned := satInc x.abandoned }).returnUnits pas t) := by
  show execTrackerAbandon pas win rk xfer s = _
  simp only [execTrackerAbandon, htr, hidle, if_true]

/-- No entry of a window's queue is the transfer's. -/
theorem not_queued {y : Window} {p : FabPacket} (hfresh : ∀ e ∈ y.queue, ¬(e.1 = p.srcRank ∧ e.2.1 = p.xfer)) :
    ¬(y.queue.any fun e => decide (e.1 = p.srcRank) && decide (e.2.1 = p.xfer)) = true :=
  mt List.any_eq_true.mp fun ⟨e, he, hsame⟩ => hfresh e he (by simpa using hsame)

section
variable {s : State} {q : Nat} {p : FabPacket} {y : Window} (hwin : (s.pasture q).window p.win.toNat = y)
include hwin

theorem creditRequest_resetting (h : y.state = 2) : s.creditRequest q p = s.windowNak q p St.FAB_TARGET_RESETTING := if_pos (hwin ▸ h)

theorem creditRequest_closed (h : y.state = 0) : s.creditRequest q p = s.windowNak q p St.FAB_WIN_CLOSED := by
  simp [State.creditRequest, Window.isOpen, hwin, h]

section
variable (hopen : y.state = 1)
include hopen

theorem creditRequest_rank (h : y.allows p.srcRank.toNat = false) : s.creditRequest q p = s.windowNak q p St.FAB_WIN_RANK := by
  simp [State.creditRequest, Window.isOpen, hwin, hopen, h]

variable (hrank : y.allows p.srcRank.toNat = true)
include hrank

theorem creditRequest_granted {t : Tracker} (h : (s.pasture q).tracker p.win.toNat p.srcRank p.xfer = some t) :
    s.creditRequest q p = s.emitControl q 0x03 p.srcChip p.win p.xfer (BitVec.ofNat 32 t.units) := by
  simp [State.creditRequest, Window.isOpen, hwin, hopen, hrank, h]

variable (hnew : (s.pasture q).tracker p.win.toNat p.srcRank p.xfer = none)
include hnew

/-- A transfer of an open window without a tracker waits in its queue, finds it full, or joins it. -/
theorem creditRequest_new : s.creditRequest q p =
    if y.queue.any fun e => decide (e.1 = p.srcRank) && decide (e.2.1 = p.xfer) then s
    else if 64 ≤ y.queue.length then s.windowNak q p St.FAB_WIN_BUSY
    else (s.putWindow q p.win.toNat { y with queue := y.queue ++ [(p.srcRank, p.xfer, p.count.toNat, p.srcChip)] }).serveWindow q
      p.win.toNat := by
  simp only [State.creditRequest, Window.isOpen, hwin, hopen, hrank, hnew]
  rfl

theorem creditRequest_waiting (h : ∃ e ∈ y.queue, e.1 = p.srcRank ∧ e.2.1 = p.xfer) : s.creditRequest q p = s :=
  (creditRequest_new hwin hopen hrank hnew).trans (if_pos (by simpa using h))

section
variable (hfresh : ∀ e ∈ y.queue, ¬(e.1 = p.srcRank ∧ e.2.1 = p.xfer))
include hfresh

theorem creditRequest_busy (h : 64 ≤ y.queue.length) : s.creditRequest q p = s.windowNak q p St.FAB_WIN_BUSY :=
  (creditRequest_new hwin hopen hrank hnew).trans <| (if_neg (not_queued hfresh)).trans (if_pos h)

theorem creditRequest_joins (h : y.queue.length < 64) : s.creditRequest q p = (s.putWindow q p.win.toNat
    { y with queue := y.queue ++ [(p.srcRank, p.xfer, p.count.toNat, p.srcChip)] }).serveWindow q p.win.toNat :=
  (creditRequest_new hwin hopen hrank hnew).trans <| (if_neg (not_queued hfresh)).trans (if_neg (Nat.not_le.mpr h))

end
end
end

end Sys2Proof.Machine

namespace Sys2Proof.Settled
open Sys2Proof Sys2Proof.Machine

theorem dataAtItsWindow : Claims.DataAtItsWindow := by
  intro i q p s s' v u t got st ok x y tr n done taken htake hdest horder
  have hreceives {st : Status} {z : State} (h : s'.dataNak q y p = some st ∨ s'.landBusy y p = false) (hz : s'.receiveData q p = z) :
      exec (.data i) s = .next (done z) := hz ▸ data_receives htake hdest rfl h
  refine ⟨data_waits htake hdest rfl, fun hnak hfree htr hfits => ⟨fun hland => ?lands, fun hland => ?landRefused⟩,
    fun hnak hfree h => ?overrun, fun hnak h => ?refused, fun hdrove htr h => ?pruned, dataNak_resetting, dataNak_closed, dataNak_rank,
    dataNak_bounds, dataNak_within, fun h => ?bulk, fun h => checkOseq_ordered h horder⟩
  case lands => exact hreceives (st := st) (.inr hfree) (receiveData_lands horder rfl hnak htr hfits hland)
  case landRefused => exact hreceives (st := st) (.inr hfree) (receiveData_landRefused horder rfl hnak htr hfits hland)
  case overrun =>
    refine hreceives (st := st) (.inr hfree) ?_
    rcases h with ⟨htr, hdrove⟩ | ⟨htr, hover⟩
    · exact receiveData_ungranted horder rfl hnak htr hdrove
    · exact receiveData_overrun horder rfl hnak htr hover
  case refused => exact hreceives (.inl hnak) (receiveData_refused horder rfl hnak h)
  case pruned => exact hreceives h (receiveData_pruned horder rfl hdrove htr)
  case bulk =>
    obtain ⟨rfl, rfl⟩ := Prod.mk.inj ((checkOseq_bulk h).symm.trans horder)
    exact ⟨rfl, rfl⟩

theorem windowTraffic : Claims.WindowTraffic := by
  intro i q rank bytes w p xfer last pas win rk s s' t t1 counted
  exact ⟨fun hnotice htr => ⟨landingNotice_completes hnotice htr, landingNotice_counts hnotice htr⟩,
    fun htake hflock => creditReq_requests hflock htake, fun htake hflock htr => creditReturn_returns hflock htake htr,
    trackerAbandon_returns⟩

theorem creditRequests : Claims.CreditRequests := by
  intro s q p t y
  exact ⟨creditRequest_resetting rfl, creditRequest_closed rfl, creditRequest_rank rfl,
    fun hopen hrank => creditRequest_granted rfl hopen hrank,
    fun hopen hrank hnew => ⟨creditRequest_waiting rfl hopen hrank hnew, fun hfresh =>
      ⟨creditRequest_busy rfl hopen hrank hnew hfresh, creditRequest_joins rfl hopen hrank hnew hfresh⟩⟩⟩

/-- Settles O49: data by its checks in order after that of its stream, a notice by what its tracker has counted, and a request by its window,
its tracker and the queue. -/
theorem windowsReceive : Obligations.WindowsReceive := ⟨dataAtItsWindow, windowTraffic, creditRequests⟩

end Sys2Proof.Settled
end

section
/-!
The units of a window (R356 to R358, R362): no packet that a pasture sends changes a window, and each operation on one moves its units.
-/
namespace Sys2Proof.Machine

/-! ### What leaves the windows alone -/

/-- The windows of a pasture. -/
def State.windowsAt (s : State) (q : Nat) : SMap Window := (s.pasture q).windows

section
variable (s : State) (q : Nat)

theorem windowsAt_modPas (k : Nat) (f : Pasture → Pasture) (h : ∀ x, (f x).windows = x.windows) :
    (s.modPas k f).windowsAt q = s.windowsAt q := by
  unfold State.windowsAt
  rw [State.modPas_pasture_at]
  split
  · next hq => rw [h, hq]
  · rfl

theorem windowsAt_queueOn (n : Nat) (p : FabPacket) : (s.queueOn n p).windowsAt q = s.windowsAt q := by
  unfold State.queueOn
  dsimp only
  split <;> rfl

theorem windowsAt_putOn (n : Nat) (p : FabPacket) : (s.putOn n p).windowsAt q = s.windowsAt q := by
  unfold State.putOn
  extract_lets
  split
  · exact windowsAt_queueOn ..
  · extract_lets
    split
    · rfl
    · exact (windowsAt_queueOn ..).trans (windowsAt_modPas _ _ _ _ fun _ => rfl)

theorem windowsAt_accept (pas : Option Nat) (n : Nat) (p : FabPacket) : (s.accept pas n p).windowsAt q = s.windowsAt q := by
  unfold State.accept
  split
  · rfl
  · extract_lets t
    have ht : t.windowsAt q = s.windowsAt q := by
      unfold t
      split
      · exact windowsAt_modPas s q _ _ fun _ => rfl
      · rfl
    exact ht

theorem windowsAt_copyToRoles (mask : BitVec 18) (arr : Option Nat) (p : FabPacket) :
    (s.copyToRoles mask arr p).windowsAt q = s.windowsAt q := by
  refine foldl_keeps (State.windowsAt · q) (fun t r => ?_) _ s
  split
  · exact windowsAt_putOn ..
  · rfl

theorem windowsAt_routeEntry (chip : BitVec 16) : (s.routeEntry chip).1.windowsAt q = s.windowsAt q := by
  unfold State.routeEntry
  extract_lets
  split <;> rfl

theorem windowsAt_sendVia (n : Nat) (p : FabPacket) : (s.sendVia n p).windowsAt q = s.windowsAt q := by
  refine Eq.trans ?_ (windowsAt_routeEntry s q p.dstChip)
  unfold State.sendVia
  dsimp only
  split
  · rfl
  · exact windowsAt_putOn ..
  · rfl
  · exact windowsAt_accept ..

theorem windowsAt_arriveHere (n : Nat) (p : FabPacket) : (s.arriveHere n p).windowsAt q = s.windowsAt q := by
  unfold State.arriveHere
  split
  · exact windowsAt_accept ..
  · split
    · rfl
    · split
      · rfl
      · exact windowsAt_sendVia ..

theorem windowsAt_forward (arr : Option Nat) (n : Nat) (p : FabPacket) : (s.forward arr n p).windowsAt q = s.windowsAt q := by
  unfold State.forward
  extract_lets hops p' d copied
  split
  · rfl
  split
  · rfl
  split
  · split
    · rfl
    have hcopied : copied.windowsAt q = s.windowsAt q := windowsAt_copyToRoles ..
    split
    · exact (windowsAt_accept ..).trans hcopied
    · exact hcopied
  · refine Eq.trans ?_ (windowsAt_routeEntry s q p'.dstChip)
    dsimp only
    split
    · exact windowsAt_arriveHere ..
    · rfl
    · exact windowsAt_putOn ..
    · rfl

theorem windowsAt_emitControl (p : Nat) (ptype : Byte) (dst : BitVec 16) (w : BitVec 6) (xfer count : BitVec 32) :
    (s.emitControl p ptype dst w xfer count).windowsAt q = s.windowsAt q := windowsAt_forward ..

theorem windowsAt_inject (p : Nat) (ff : Bool) (n : Nat) : (s.inject p ff n).2.windowsAt q = s.windowsAt q := by
  unfold State.inject
  extract_lets
  split
  · rfl
  · dsimp only
    exact windowsAt_modPas s q p _ fun x => by split <;> rfl

theorem windowsAt_send (p : Packet) : (s.send p).windowsAt q = s.windowsAt q := by
  unfold State.send
  split
  · rfl
  · exact windowsAt_inject ..

theorem windowsAt_releaseWaiters (p w : Nat) : (s.releaseWaiters p w).windowsAt q = s.windowsAt q := by
  unfold State.releaseWaiters
  extract_lets x met t
  have ht : t.windowsAt q = s.windowsAt q :=
    foldl_keeps (State.windowsAt · q) (fun s (v : WinWaiter) => windowsAt_send s q (.winRelease p v.tile w)) _ s
  refine (windowsAt_modPas t q p _ ?_).trans ht
  exact fun _ => rfl

end

/-! ### Units -/

/-- The units of a window, wherever they are. -/
def Window.units (y : Window) : BitVec 20 := y.pool + y.held + y.doneUnits

section
variable {s t : State} {q w q' w' : Nat} {y : Window}

/-- The units of a window are those of its pasture's windows. -/
theorem units_of_windowsAt (h : t.windowsAt q = s.windowsAt q) : Claims.units t q w = Claims.units s q w :=
  congrArg (fun m => (smapGet {} m w).units) h

theorem units_modPas (k : Nat) (f : Pasture → Pasture) (h : ∀ x, (f x).windows = x.windows) :
    Claims.units (s.modPas k f) q w = Claims.units s q w := units_of_windowsAt (windowsAt_modPas s q k f h)

/-- A window whose parts change and whose units do not. -/
theorem units_putWindow (h : y.units = ((s.pasture q).window w).units) : Claims.units (s.putWindow q w y) q' w' = Claims.units s q' w' := by
  show (((s.putWindow q w y).pasture q').window w').units = ((s.pasture q').window w').units
  unfold State.putWindow
  rw [State.modPas_pasture_at]
  split
  · next hq =>
    subst hq
    refine (congrArg Window.units (smapGet_put ..)).trans ?_
    split
    · next hw => rw [hw, h]
    · rfl
  · rfl

theorem units_serveQueue (n : Nat) : Claims.units (s.serveQueue q w n) q' w' = Claims.units s q' w' := by
  induction n generalizing s with
  | zero => rfl
  | succ n ih =>
    unfold State.serveQueue
    extract_lets x y
    split
    · rfl
    · next rank xfer u chip rest hqueue =>
      split
      · rfl
      · extract_lets granted tracked
        calc Claims.units ((tracked.emitControl q 0x03 chip (BitVec.ofNat 6 w) xfer (BitVec.ofNat 32 u)).serveQueue q w n) q' w'
          _ = Claims.units tracked q' w' := ih.trans (units_of_windowsAt (windowsAt_emitControl ..))
          _ = Claims.units granted q' w' := units_modPas _ _ fun _ => rfl
          _ = Claims.units s q' w' := units_putWindow (by simp only [Window.units]; ring)

theorem units_serveWindow : Claims.units (s.serveWindow q w) q' w' = Claims.units s q' w' := units_serveQueue _

theorem units_serveWindows : Claims.units (s.serveWindows q) q' w' = Claims.units s q' w' :=
  foldl_keeps (Claims.units · q' w') (fun _ (_ : Nat × Window) => units_serveWindow) _ s

theorem units_completeTransfer (t : Tracker) : Claims.units (s.completeTransfer q t) q' w' = Claims.units s q' w' := by
  unfold State.completeTransfer
  extract_lets moved freed told
  calc Claims.units (told.releaseWaiters q t.win) q' w'
    _ = Claims.units told q' w' := units_of_windowsAt (windowsAt_releaseWaiters ..)
    _ = Claims.units freed q' w' := units_of_windowsAt (windowsAt_emitControl ..)
    _ = Claims.units moved q' w' := units_modPas _ _ fun _ => rfl
    _ = Claims.units s q' w' := units_putWindow (by simp only [Window.units]; ring)

theorem units_returnUnits (t : Tracker) : Claims.units (s.returnUnits q t) q' w' = Claims.units s q' w' :=
  calc Claims.units (s.returnUnits q t) q' w'
    _ = Claims.units (s.modWindow q t.win _) q' w' := units_serveWindows.trans (units_modPas _ _ fun _ => rfl)
    _ = Claims.units s q' w' := units_putWindow (by simp only [Window.units]; ring)

theorem units_rearm (h : ((s.pasture q).window w).isOpen = true) (new : Window) :
    Claims.units (s.winOpen q w new) q' w' = Claims.units s q' w' := by
  unfold State.winOpen
  extract_lets old
  rw [if_pos h]
  exact units_serveWindow.trans (units_putWindow (by simp only [Window.units]; ring))

end

end Sys2Proof.Machine

namespace Sys2Proof.Settled
open Sys2Proof Sys2Proof.Machine

/-- Settles O50: each operation puts back a window with the same sum of units, and what it does beside leaves the windows alone. -/
theorem windowUnitsAreConserved : Obligations.WindowUnitsAreConserved := fun _ _ _ _ _ t new =>
  ⟨units_serveWindow, units_serveWindows, units_completeTransfer t, units_returnUnits t, fun h => units_rearm h new⟩

end Sys2Proof.Settled
end

section
/-!
What ends a send, and the timers of the fabric (R349, R350, R364, R365, R368).
-/
namespace Sys2Proof.Machine

/-! ### Replies at the sender (R365) -/

section
variable {i p : Nat} {pkt : FabPacket} {s s' : State} {d : Sending} (hflock : s'.pasOfFlock pkt.flock = some p)
include hflock

theorem dataAck_acks (htake : s.takePacket i 0x07 = some (pkt, s')) : exec (.dataAck i) s =
    .next ((s'.modSending p pkt.xfer fun d =>
      { d with acks := smapPut d.acks pkt.srcRank.toNat (max (smapGet 0 d.acks pkt.srcRank.toNat) pkt.count.toNat) }).runSends p) := by
  show execDataAck i s = _
  simp only [execDataAck, htake, hflock]

variable (hsend : (s'.pasture p).sendingAt pkt.xfer = some d)
include hsend

theorem nak_busy (htake : s.takePacket i 0x05 = some (pkt, s')) (h : pkt.status = St.FAB_WIN_BUSY) : exec (.nak i) s = .next s' := by
  show execNak i s = _
  simp only [execNak, htake, hflock, hsend, h, if_true]

variable (hone : d.drove = false)
include hone

theorem nak_fails (htake : s.takePacket i 0x05 = some (pkt, s')) (h : pkt.status ≠ St.FAB_WIN_BUSY) : exec (.nak i) s =
    .next (((s'.dropSending p d.xfer).failSend p d.entry d.words pkt.status).runSends p) := by
  show execNak i s = _
  simp only [execNak, htake, hflock, hsend, h, hone, Bool.false_eq_true, if_false]

theorem done_completes (htake : s.takePacket i 0x06 = some (pkt, s')) : exec (.done i) s =
    .next ((((s'.dropSending p d.xfer).setSendStatus p d.entry St.OK).doneFlag p d.words).runSends p) := by
  show execDone i s = _
  simp only [execDone, htake, hflock, hsend, hone, Bool.false_eq_true, if_false]

section
variable (htake : s.takePacket i 0x03 = some (pkt, s')) (hstage : d.stage = .waitCredit)
include htake hstage

theorem creditGrant_sends (hop : sendOp d.words ≠ 2) : exec (.creditGrant i) s =
    .next ((s'.modSending p d.xfer fun d => { d with stage := .sending }).runSend p d.xfer) := by
  show execCreditGrant i s = _
  simp only [execCreditGrant, htake, hflock, hsend, hstage, hone, hop, ne_eq, not_true_eq_false, Bool.false_eq_true, if_false]

theorem creditGrant_acquires (hop : sendOp d.words = 2) : exec (.creditGrant i) s = .next (s'.grantBalance p d pkt.count.toNat) := by
  show execCreditGrant i s = _
  simp only [execCreditGrant, htake, hflock, hsend, hstage, hone, hop, ne_eq, not_true_eq_false, Bool.false_eq_true, if_false, if_true]

end
end

/-! ### Timers of a send (R364, R365, R368) -/

/-- The one send of a pasture is that of its entry, if it meets the condition. -/
theorem sendOf_only {x : Pasture} {d : Sending} {n : Nat} {c : Sending → Bool} (honly : x.sending = [d]) (hentry : d.entry = n)
    (hc : c d = true) : x.sendOf n c = some d := by
  unfold Pasture.sendOf
  rw [honly]
  exact List.find?_cons_of_pos (by simp [hentry, hc])

theorem requestCredit_now (s : State) (p rank units : Nat) (d : Sending) : (s.requestCredit p d rank units).now = s.now :=
  (requestCredit_good s p d rank units (good_refl s)).now_eq

section
variable {p : PasId} {n : Byte} {s : State} {d : Sending} (honly : (s.pasture p).sending = [d]) (hentry : d.entry = n.toNat)
include honly hentry

theorem creditReqRepeat_asks (hstage : d.stage = .waitCredit) (hone : d.drove = false)
    (hdue : (s.pasture p).creditUs.toNat * usT ≤ s.now - d.reqTime) : exec (.creditReqRepeat p n) s =
      .next ((s.requestCredit p d (BitVec.ofNat 12 (sendDst d.words)).toNat (sendRequest d.words)).modSending p d.xfer
        fun d => { d with reqTime := s.now }) := by
  show execCreditReqRepeat p n s = _
  unfold execCreditReqRepeat
  extract_lets x
  rw [sendOf_only honly hentry (by simp [hstage, x, hdue])]
  simp only [hone, Bool.false_eq_true, if_false, List.foldl_cons, List.foldl_nil, requestCredit_now]

theorem sendSourceDone_clears (hstage : d.stage = .waitDone) (hread : d.srcDone = false) : exec (.sendSourceDone p n) s =
    .next ((s.modSending p d.xfer fun d => { d with srcDone := true }).send (.flag p n.toNat false none)) := by
  show execSendSourceDone p n s = _
  unfold execSendSourceDone
  rw [sendOf_only honly hentry (by simp [hstage, hread])]

theorem doneTimeout_fails (hstage : d.stage = .waitDone) (hone : d.drove = false)
    (hdue : (s.pasture p).doneUs.toNat * usT ≤ s.now - d.lastTime) : exec (.doneTimeout p n) s =
      .next (((s.dropSending p d.xfer).failSend p d.entry d.words St.FAB_DONE_TIMEOUT).runSends p) := by
  show execDoneTimeout p n s = _
  unfold execDoneTimeout
  extract_lets x
  rw [sendOf_only honly hentry (by simp [hstage, x, hdue])]
  simp only [hone, Bool.false_eq_true, if_false]

section
variable (hstage : d.stage = .waitCredit) (hdrove : d.drove = true) (hdue : (s.pasture p).droveUs.toNat * usT ≤ s.now - d.start)
include hstage hdrove hdue

theorem droveTimeout_fails (hord : sendOrdered d.words = true) : exec (.droveTimeout p n) s = .next (s.failDrove p d) := by
  show execDroveTimeout p n s = _
  unfold execDroveTimeout
  extract_lets x
  rw [sendOf_only honly hentry (by simp [hstage, hdrove, x, hdue])]
  simp only [hord, if_true]

theorem droveTimeout_goes (hord : sendOrdered d.words = false) : exec (.droveTimeout p n) s =
    let late := (s.unpruned d).filter fun r => !d.granted.contains r
    .next ((s.modSending p d.xfer fun _ => { d with failed := late }).goDrove p { d with failed := late }) := by
  show execDroveTimeout p n s = _
  unfold execDroveTimeout
  extract_lets x
  rw [sendOf_only honly hentry (by simp [hstage, hdrove, x, hdue])]
  exact if_neg (Bool.eq_false_iff.mp hord)

end
end

/-! ### Timers of held packets (R349, R350) -/

section
variable {s : State}

theorem ordDrainExpiry_releases (hdrain : s.fabric.draining = true) (hdue : s.fabric.ordDrain.toNat * usT ≤ s.now - s.fabric.swapTime) :
    exec .ordDrainExpiry s = .next (({ s with fabric := { s.fabric with draining := false } }).retryHeld fun _ => true) :=
  if_pos (by simp [hdrain, hdue])

theorem ordHoldExpiry_drops {port : PortId} {h : HeldPacket} (honly : s.fabric.held = [h]) (hwhy : h.why = .lost port)
    (hdue : s.fabric.ordHoldUs.toNat * usT ≤ s.now - h.since) : exec (.ordHoldExpiry port) s =
      .next (({ s with fabric := { s.fabric with held := [] } }.modPort port fun x =>
        { x with routeLost := satInc x.routeLost }).pkgEvent St.FAB_ROUTE_LOST port) := by
  show execOrdHoldExpiry port s = _
  have hlate : (decide (h.why = HoldReason.lost port.val) && decide (s.fabric.ordHoldUs.toNat * usT ≤ s.now - h.since)) = true := by
    simp [hwhy, hdue]
  simp only [execOrdHoldExpiry, honly, List.filter_cons, List.filter_nil, hlate, Bool.not_true, Bool.false_eq_true, if_true, if_false]
  rfl

end

end Sys2Proof.Machine

namespace Sys2Proof.Settled
open Sys2Proof Sys2Proof.Machine

theorem sendReplies : Claims.SendReplies := by
  intro i p pkt s s' d acked hflock hsend
  exact ⟨fun htake hstage hone => creditGrant_sends hflock hsend hone htake hstage,
    fun htake hstage hone => creditGrant_acquires hflock hsend hone htake hstage, fun htake h hone => nak_fails hflock hsend hone htake h,
    nak_busy hflock hsend, fun htake hone => done_completes hflock hsend hone htake, dataAck_acks hflock⟩

theorem fabricTimers : Claims.FabricTimers := by
  intro p n port s d h x late
  exact ⟨fun honly hentry => ⟨creditReqRepeat_asks honly hentry, sendSourceDone_clears honly hentry, doneTimeout_fails honly hentry,
    droveTimeout_fails honly hentry, droveTimeout_goes honly hentry⟩, ordDrainExpiry_releases, ordHoldExpiry_drops⟩

/-- Settles O51: a reply by its type and by what its send waits for, and a timer by what it finds due. -/
theorem sendsAndTimers : Obligations.SendsAndTimers := ⟨sendReplies, fabricTimers⟩

end Sys2Proof.Settled
end

section
/-!
The step of the block, the canonical form of its byte memories, and host memory as bytes written are read back (R383, R392).
-/
namespace Sys2Proof.Machine

/-- With a command waiting, the step is its effect on the rest of the queue. -/
theorem step_of_pending_cons {c : Instr} {rest : List Instr} {s : State} (h : s.pending = c :: rest) :
    step s = exec c { s with pending := rest } := by
  simp only [step, h]

/-- Neither the time nor the queue is a memory. -/
theorem memWf_now {s : State} {n : Nat} : { s with now := n }.MemWf ↔ s.MemWf := .rfl
theorem memWf_pending {s : State} {q : List Instr} : { s with pending := q }.MemWf ↔ s.MemWf := .rfl

/-! ### Reading what was written -/

/-- A byte of a canonical memory after a write: the byte written there, or the byte that was there. -/
theorem smapGet_memWrite {m : Memory} (hm : Memory.wf m = true) (a j : Nat) (bs : List Byte) :
    smapGet 0 (memWrite m a bs) j = if a ≤ j then bs.getD (j - a) (smapGet 0 m j) else smapGet 0 m j := by
  induction bs generalizing m a with
  | nil => simp [memWrite]
  | cons b bs ih =>
    rw [memWrite, ih (smapWf_set 0 m a b hm), smapGet_set 0 m a j b hm]
    rcases Nat.lt_trichotomy j a with h | rfl | h
    · rw [if_neg (by omega), if_neg (by omega), if_neg (by omega)]
    · rw [if_neg (by omega), if_pos rfl, if_pos (Nat.le_refl j), Nat.sub_self, List.getD_cons_zero]
    · rw [if_pos (by omega), if_neg (by omega), if_pos (by omega), show j - a = (j - (a + 1)) + 1 by omega, List.getD_cons_succ]

/-- A read is its bytes one by one. -/
theorem memRead_eq_map (m : Memory) (a n : Nat) : memRead m a n = (List.range n).map fun i => smapGet 0 m (a + i) := by
  induction n generalizing a with
  | zero => rfl
  | succ n ih =>
    rw [memRead, ih, List.range_succ_eq_map, List.map_cons, List.map_map]
    congr 1
    exact List.map_congr_left fun i _ => by rw [Function.comp_apply, Nat.add_right_comm, Nat.add_assoc]

theorem memRead_memWrite_same {m : Memory} (hm : Memory.wf m = true) (a : Nat) (bs : List Byte) :
    memRead (memWrite m a bs) a bs.length = bs := by
  refine List.ext_getElem (by rw [memRead_eq_map, List.length_map, List.length_range]) fun i _ hi => ?_
  simp only [memRead_eq_map, List.getElem_map, List.getElem_range]
  rw [smapGet_memWrite hm, if_pos (Nat.le_add_right a i), Nat.add_sub_cancel_left, List.getD_eq_getElem _ _ hi]

/-- A byte outside the addresses written is as it was. -/
theorem smapGet_memWrite_other {m : Memory} (hm : Memory.wf m = true) {a j : Nat} {bs : List Byte} (h : j < a ∨ a + bs.length ≤ j) :
    smapGet 0 (memWrite m a bs) j = smapGet 0 m j := by
  rw [smapGet_memWrite hm]
  split
  · exact List.getD_eq_default _ _ (by omega)
  · rfl

end Sys2Proof.Machine

namespace Sys2Proof.Settled
open Sys2Proof Sys2Proof.Machine

/-- Settles O1: the step is defined so. -/
theorem stepRunsTheFrontCommand : Obligations.StepRunsTheFrontCommand := fun _ _ _ h => step_of_pending_cons h

/-- Settles O3: the passing of time and every command keep the memories canonical, and neither the clock nor the queue is a memory. -/
theorem memoriesStayCanonical : Obligations.MemoriesStayCanonical := by
  intro s t hs h
  obtain ⟨-, rfl⟩ | ⟨c, rest, -, hc⟩ := step_next_cases h
  · exact good_memWf (idle_good s) (memWf_now.mpr hs)
  · exact good_memWf (exec_next_good hc) (memWf_pending.mpr hs)

/-- Settles O7: a write sets the bytes at its addresses, of which none wraps around, and no other. -/
theorem hostMemoryReadsBack : Obligations.HostMemoryReadsBack := by
  intro s a bs hm ha
  rcases bs with - | ⟨b0, bs⟩
  · exact ⟨rfl, fun _ _ _ => rfl⟩
  · have hlt : a < 2 ^ 64 := by rw [List.length_cons] at ha; omega
    refine ⟨?_, fun b hb hout => ?_⟩
    · simp only [State.readHost, State.writeHost, Nat.mod_eq_of_lt hlt, memRead_memWrite_same hm]
    · simp only [State.readHost, State.writeHost, Nat.mod_eq_of_lt hlt, Nat.mod_eq_of_lt hb, memRead,
        smapGet_memWrite_other hm hout]

end Sys2Proof.Settled
end

section
/-!
The host's queues: admission of runs (R388 to R390), the completion ring (R387), the moderation of vectors (R397), deadlines (R394) and the event
log (R398).
-/
namespace Sys2Proof.Machine

/-! ### Admission -/

/-- A run is admitted when the pasture takes runs, has the entry point and a place in its queue, and the deadline is within the limit. -/
theorem admission_inr {s : State} {p bell d : Nat} {e : List Byte} {r : EntryRec} (h : s.admission p e bell = .inr (r, d)) :
    ((s.pasture p).enable = true ∧ (s.pasture p).stopped = false ∧ (s.pasture p).loading = none ∧ (s.pasture p).loaded = true) ∧
    (s.pasture p).entryPoint (leAt e 8 1) = some r ∧ (s.pasture p).runs.length < 64 ∧ d = s.deadline p r ∧
    (leAt e 16 4 = 0 ∨ d ≤ bell + leAt e 16 4) := by
  simp only [State.admission] at h
  split at h
  · cases h
  · next hen =>
    split at h
    · cases h
    · next hst =>
      split at h
      · cases h
      · next hld =>
        split at h
        · cases h
        · next hl =>
          split at h
          · cases h
          · next r' hr =>
            split at h
            · cases h
            · next hq =>
              split at h
              · cases h
              · next hlim =>
                cases h
                refine ⟨⟨by simpa using hen, by simpa using hst, by simpa using hld, by simpa using hl⟩, hr, by omega, rfl, ?_⟩
                simp only [Bool.and_eq_true, decide_eq_true_eq, not_and, Nat.not_lt] at hlim
                rcases Nat.eq_zero_or_pos (leAt e 16 4) with h0 | h0
                · exact .inl h0
                · have := hlim (by omega); omega

/-- Without a quarantine the anchor is the deadline of the last run. -/
theorem anchor_last {x : Pasture} {last : Run} (hq : x.qAnchor = none) (hl : x.runs.getLast? = some last) : x.anchor = last.deadline := by
  simp only [Pasture.anchor, hq, hl]

theorem anchor_le_deadline (s : State) (p : Nat) (r : EntryRec) : (s.pasture p).anchor ≤ s.deadline p r := by
  simp only [State.deadline]
  omega

/-! ### Completions -/

theorem complete_writes {s : State} {fn : Nat} {c : Completion} (h : (s.func fn).held = [] ∧ (s.func fn).cqRoom = true) :
    s.complete fn c = s.writeCompletion fn c := by
  simp only [State.complete, h.1, h.2, List.isEmpty_nil, Bool.and_self, if_true]

theorem complete_holds {s : State} {fn : Nat} {c : Completion} (h : ¬((s.func fn).held = [] ∧ (s.func fn).cqRoom = true)) :
    s.complete fn c = s.putFn fn { s.func fn with held := (s.func fn).held ++ [c] } := by
  have hfull : ((s.func fn).held.isEmpty && (s.func fn).cqRoom) = false := by
    rw [← Bool.not_eq_true, Bool.and_eq_true, List.isEmpty_iff]
    exact h
  simp only [State.complete, hfull, Bool.false_eq_true, if_false]
  rfl

/-- The function's completion ring after an entry is written: its place and phase move on. -/
theorem func_writeCompletion (s : State) (fn : Nat) (c : Completion) :
    let f := s.func fn
    let g := (s.writeCompletion fn c).func fn
    g.cqTail = (if f.cqSize ≤ f.cqTail.toNat + 1 then 0 else f.cqTail + 1) ∧
    g.cqPhase = (if f.cqSize ≤ f.cqTail.toNat + 1 then !f.cqPhase else f.cqPhase) ∧ g.cqUsed = f.cqUsed + 1 := by
  simp only [State.writeCompletion, State.signal, State.modFn_func_same, ge_iff_le]
  exact ⟨rfl, rfl, rfl⟩

/-- A held completion is written to a ring with room; that of a run's end delivers the run. -/
theorem completionWrite_eq {fn : FnId} {s : State} {c : Completion} {rest : List Completion} (hheld : (s.func fn).held = c :: rest)
    (hroom : (s.func fn).cqRoom = true) (hon : s.fnOn fn = true) : exec (.completionWrite fn) s =
      let u := (s.putFn fn { s.func fn with held := rest }).writeCompletion fn (s.latest c)
      .next (if c.opcode = 1 && c.kind = 0 && c.runId ≠ 0 then u.modPas c.pasture.toNat (·.deliver c.runId) else u) := by
  simp only [exec, execCompletionWrite, hheld, hroom, hon, Bool.not_true, Bool.or_self, Bool.false_eq_true, if_false]
  rfl

/-- No breach is found for a completion none of whose runs is past its deadline. -/
theorem latest_eq_self {s : State} {c : Completion}
    (h : ∀ r ∈ (s.pasture c.pasture.toNat).runs, r.runId = c.runId → s.hifTime.toNat ≤ r.deadline) : s.latest c = c := by
  have hnone : ((s.pasture c.pasture.toNat).runs.find? fun r => decide (r.runId = c.runId) && decide (r.deadline < s.hifTime.toNat)) = none := by
    simp only [List.find?_eq_none, Bool.and_eq_true, decide_eq_true_eq, not_and, Nat.not_lt]
    exact h
  simp only [State.latest, hnone]

/-! ### Vectors -/

/-- A vector with one more cause pending, before it is settled. -/
def Vec.withCause (v : Vec) (now : Nat) : Vec :=
  { v with pending := v.pending + 1, since := if v.pending = 0 then now else v.since }

/-- An unmasked vector whose causes reach COUNT fires. -/
theorem settle_fires {v : Vec} {due : Bool} (hm : v.masked = false) (hp : 0 < v.pending) (hd : due = true ∨ v.count.toNat ≤ v.pending) :
    v.settle due = { v with pending := 0, fired := v.fired + 1, pba := false } := by
  have hdue : (due || decide (v.count.toNat ≤ v.pending)) = true := by
    rw [Bool.or_eq_true, decide_eq_true_eq]
    exact hd
  simp only [Vec.settle, Nat.ne_of_gt hp, hdue, hm, Bool.false_eq_true, if_true, if_false]

/-- Causes below COUNT wait. -/
theorem settle_waits {v : Vec} (hc : v.pending < v.count.toNat) : v.settle false = v := by
  simp only [Vec.settle, Nat.not_le.mpr hc, Bool.false_or, decide_false, Bool.false_eq_true, if_false, ite_self]

/-- A masked vector keeps its causes: it sets its pending bit at most. -/
theorem settle_masked {v : Vec} {due : Bool} (hm : v.masked = true) : ∃ b, v.settle due = { v with pba := b } := by
  unfold Vec.settle
  split
  · exact ⟨v.pba, rfl⟩
  · split
    · exact ⟨true, rfl⟩
    · exact ⟨v.pba, rfl⟩

/-- Settling moves no time. -/
theorem settle_since (v : Vec) (due : Bool) : (v.settle due).since = v.since := by
  simp only [Vec.settle]
  split
  · rfl
  · split
    · split <;> rfl
    · rfl

theorem cause_eq (v : Vec) (now : Nat) : v.cause now = (v.withCause now).settle false := rfl

/-! ### Deadlines and events -/

/-- The function of a pasture is that before a change of a function that switches none on or off. -/
theorem boundFn_modFn (s : State) (p k : Nat) {f : Fn → Fn} (hf : ∀ x, (f x).enabled = x.enabled) : (s.modFn k f).boundFn p = s.boundFn p := by
  have henabled : ((s.modFn k f).func p).enabled = (s.func p).enabled := by
    rw [State.modFn_func_at]
    split
    · next h => rw [hf, h]
    · rfl
  simp only [State.boundFn, henabled]

theorem deadlineExpiry_breaches {p : PasId} {k : Fin 64} {s : State} {r : Run} (hr : (s.pasture p).runs[k.val]? = some r)
    (hb : r.breached = false) (hd : r.deadline ≤ s.hifTime.toNat) :
    exec (.deadlineExpiry p k) s = .next (((s.modPas p fun x => { x with
      runs := x.runs.take k ++ [{ r with breached := true }] ++
        (x.runs.drop (k + 1)).map fun o => { o with events := o.events ++ [St.HOST_BREACH_AHEAD] } }).modFn r.id.fn fun f =>
          { f with held := f.held.map fun c => c.breach r }).signal (s.boundFn p) 18) := by
  have hdue : (r.breached || decide (s.hifTime.toNat < r.deadline)) = false := by simp [hb, hd]
  simp only [exec, execDeadlineExpiry, hr, hdue, Bool.false_eq_true, if_false]
  rw [boundFn_modFn _ _ _ (f := fun f => { f with held := f.held.map fun c => c.breach r }) fun _ => rfl]
  rfl

theorem deadlineExpiry_ignored {p : PasId} {k : Fin 64} {s : State} {r : Run} (hr : (s.pasture p).runs[k.val]? = some r)
    (h : r.breached = true ∨ s.hifTime.toNat < r.deadline) : exec (.deadlineExpiry p k) s = .next s := by
  have hdue : (r.breached || decide (s.hifTime.toNat < r.deadline)) = true := by simpa using h
  simp only [exec, execDeadlineExpiry, hr, hdue, if_true]
  rfl

/-- The function's log after an event. -/
theorem func_event_same (s : State) (fn p d : Nat) (st : Status) :
    let f := s.func fn
    let g := (s.event fn st p d).func fn
    g.events = smapPut f.events f.evtHead.toNat
      { status := st, pasture := BitVec.ofNat 8 p, detail := BitVec.ofNat 32 d, time := s.hifTime } ∧
    g.evtHead = f.evtHead + 1 ∧ g.evtCount = min 64 (f.evtCount + 1) ∧
    g.evtLost = (if f.evtCount ≥ 64 then satInc f.evtLost else f.evtLost) := by
  simp only [State.event, State.signal, State.modFn_func_same, and_self]

end Sys2Proof.Machine

namespace Sys2Proof.Settled
open Sys2Proof Sys2Proof.Machine

/-- Settles O32: the verdict's tests in their order, and the deadline's formula, which counts from the last deadline at the earliest. -/
theorem admissionPromises : Obligations.AdmissionPromises := by
  intro s p e bell d r h
  obtain ⟨⟨hen, hst, hld, hl⟩, hr, hq, rfl, hlim⟩ := admission_inr h
  exact ⟨hen, hst, hl, hld, hq, hr, rfl, fun last hn hlast => anchor_last hn hlast ▸ anchor_le_deadline s p r, hlim⟩

/-- Settles O34: a completion is written or held by whether there is room and none is held. -/
theorem completionRing : Obligations.CompletionRing := by
  intro fn c rest s f at_ g
  obtain ⟨htail, hphase, hused⟩ := func_writeCompletion s fn c
  refine ⟨complete_writes, complete_holds, rfl, fun h => ?next, fun h => ?wraps, hused, fun hh hr ho hc => ?run, fun hh hr ho hc => ?other,
    latest_eq_self⟩
  case next => exact ⟨htail.trans (if_neg (Nat.not_le.mpr h)), hphase.trans (if_neg (Nat.not_le.mpr h))⟩
  case wraps => exact ⟨htail.trans (if_pos h), hphase.trans (if_pos h)⟩
  case run =>
    rw [completionWrite_eq hh hr ho]
    simp only [hc, ne_eq, not_false_eq_true, decide_true, Bool.and_self, if_true]
    rfl
  case other =>
    rw [completionWrite_eq hh hr ho]
    simp only [← Bool.decide_and, and_assoc, ne_eq] at hc ⊢
    simp only [hc, decide_false, Bool.false_eq_true, if_false]
    rfl

/-- Settles O35: whether the causes with the new one reach COUNT, and whether the vector is masked. -/
theorem vectorModeration : Obligations.VectorModeration := by
  refine ⟨fun v now => ?_, ?_⟩
  · rw [cause_eq]
    refine ⟨fun hm hc => ?fires, fun _ hc => ?waits, fun hm => ?masked, fun h0 => ?first, fun h0 => ?later⟩
    case fires =>
      rw [settle_fires (v := v.withCause now) hm (Nat.succ_pos _) (.inr hc)]
      exact ⟨rfl, rfl⟩
    case waits =>
      rw [settle_waits (v := v.withCause now) hc]
      exact ⟨rfl, rfl⟩
    case masked =>
      obtain ⟨b, hb⟩ := settle_masked (v := v.withCause now) (due := false) hm
      rw [hb]
      exact ⟨rfl, rfl⟩
    case first => exact (settle_since ..).trans (if_pos h0)
    case later => exact (settle_since ..).trans (if_neg h0)
  · intro fn n s v hm ht hp hd
    have hdue : (decide (v.timeUs ≠ 0) && decide (0 < v.pending) && decide (v.timeUs.toNat * usT ≤ s.now - v.since)) = true := by
      simp only [ht, hp, hd, ne_eq, not_false_eq_true, decide_true, Bool.and_self]
    rw [← settle_fires (due := true) hm hp (.inl rfl)]
    exact if_pos hdue

/-- Settles O36: whether the run's deadline has come and it is not breached yet. -/
theorem deadlineBreach : Obligations.DeadlineBreach :=
  fun _ _ _ _ hr => ⟨deadlineExpiry_breaches hr, deadlineExpiry_ignored hr⟩

/-- Settles O37: the log's head place is written, and 64 entries fill it. -/
theorem eventLog : Obligations.EventLog := by
  intro s fn p d st f g
  obtain ⟨hevents, hhead, hcount, hlost⟩ := func_event_same s fn p d st
  refine ⟨?_, fun i hi => ?_, hhead, fun h => ?_, fun h => ?_, fun j hj => ?_, ?_, ?_⟩
  · exact hevents ▸ smapGet_put_same ..
  · exact hevents ▸ smapGet_put_other _ _ _ _ _ hi
  · exact ⟨hcount.trans (Nat.min_eq_right h), hlost.trans (if_neg (Nat.not_le.mpr h))⟩
  · exact ⟨hcount.trans (Nat.min_eq_left (Nat.le_succ_of_le h)), hlost.trans (if_pos h)⟩
  · simp only [State.event, State.signal, State.modFn_func_other _ _ _ _ hj]
  · simp only [State.event, signal_tiles, State.modFn_tiles]
  · simp only [State.event, State.signal, State.modFn_pas]

end Sys2Proof.Settled
end

section
/-!
Quality of service (R401): a change of the weights that takes PCIe share from a pasture with admitted runs is refused.
-/
namespace Sys2Proof.Machine

/-- A pasture with admitted runs has at least its share under new weights that take none from any. -/
theorem share_le {s new : State} {q : Nat} (h : s.shareFalls new = false) (hq : q < 16) (hen : (s.pasture q).enable = true)
    (hruns : (s.pasture q).runs ≠ []) :
    (s.pasture q).pcieW.toNat * new.sumPcie ≤ (new.pasture q).pcieW.toNat * s.sumPcie := by
  simp only [State.shareFalls, List.any_eq_false, List.mem_range] at h
  simpa [hen, hruns] using h q hq

/-- The shares are the last that a start is checked for. -/
theorem startRefusal_none_shares {s : State} {p : Nat} {col0 width : Byte} (h : s.startRefusal p col0 width = none) :
    s.shareFalls (s.enabledAt p col0 width) = false := by
  simp only [State.startRefusal] at h
  repeat' (split at h; · cases h)
  next hshare => exact Bool.eq_false_iff.mpr hshare

end Sys2Proof.Machine

namespace Sys2Proof.Settled
open Sys2Proof Sys2Proof.Machine

/-- Settles O41: a write is made or not by whether a share falls, and the check of a start comes last. -/
theorem qosWeights : Obligations.QosWeights := by
  intro p value col0 width s v w new
  exact ⟨fun h => if_neg (Bool.eq_false_iff.mp h), fun h => if_pos h, startRefusal_none_shares, fun _ hq h hen hruns => share_le h hq hen hruns⟩

end Sys2Proof.Settled
end

section
/-!
The column map of one half (R414): what its pass over the indices has mapped, and what it still may leave out.
-/
namespace Sys2Proof.Machine

/-- Two columns mapped one after the other: in ascending order, with a reach of at most 3. -/
def Reaches (a b : Int) : Prop := a < b ∧ b ≤ a + 3

/-- The edge as index -1, then the indices mapped so far. -/
def mapped (ms : List Nat) : List Int := -1 :: ms.map (↑)

/-- The good indices below n. -/
def goodBelow (good : List Bool) (n : Nat) : Nat := ((List.range n).filter fun i => good.getD i false).length

/-- What holds of the pass over the indices below n that may leave `spare` good columns out: those mapped are good, in order and
within reach from the edge on, and each good one is mapped or left out. -/
structure MapPass (good : List Bool) (spare : Int) (n : Nat) (u last : Int) (ms : List Nat) : Prop where
  chain : List.IsChain Reaches (mapped ms)
  ends  : last = (mapped ms).getLast (List.cons_ne_nil _ _)
  below : last < n
  good_of_mem : ∀ i ∈ ms, i < n ∧ good.getD i false = true
  count : (ms.length : Int) + (spare - u) = goodBelow good n

variable {good : List Bool} {spare u u' last last' : Int} {ms ms' : List Nat} {n : Nat}

theorem goodBelow_succ (good : List Bool) (n : Nat) :
    goodBelow good (n + 1) = goodBelow good n + if good.getD n false then 1 else 0 := by
  simp only [goodBelow, List.range_succ, List.filter_append, List.length_append, List.filter_cons, List.filter_nil]
  split <;> rfl

/-- All good columns of a half lie below its length. -/
theorem goodBelow_length (good : List Bool) : goodBelow good good.length = (good.filter id).length := by
  have hall : ((List.range good.length).map fun i => good.getD i false) = good :=
    List.ext_getElem (by rw [List.length_map, List.length_range]) fun i _ hi => by
      rw [List.getElem_map, List.getElem_range, List.getD_eq_getElem _ _ hi]
  rw [goodBelow, ← List.countP_eq_length_filter, ← List.countP_eq_length_filter]
  conv_rhs => rw [← hall, List.countP_map]
  rfl

theorem mapped_concat (ms : List Nat) (n : Nat) : mapped (ms ++ [n]) = mapped ms ++ [(n : Int)] := by
  simp only [mapped, List.map_append, List.map_cons, List.map_nil, List.cons_append]

theorem mapPass_start (good : List Bool) (spare : Int) : MapPass good spare 0 spare (-1) [] where
  chain := .singleton _
  ends := rfl
  below := by decide
  good_of_mem := fun _ h => nomatch h
  count := by simp [goodBelow]

/-- The index n is passed over: it is not good, or it is left out. -/
theorem mapPass_skip (h : MapPass good spare n u last ms) (hcount : u' = u - if good.getD n false then 1 else 0) :
    MapPass good spare (n + 1) u' last ms where
  chain := h.chain
  ends := h.ends
  below := by have := h.below; omega
  good_of_mem := fun i hi => ⟨Nat.lt_succ_of_lt (h.good_of_mem i hi).1, (h.good_of_mem i hi).2⟩
  count := by
    have := h.count
    rw [goodBelow_succ, hcount]
    split <;> omega

/-- The good index n is mapped, within reach of the last. -/
theorem mapPass_map (h : MapPass good spare n u last ms) (hg : good.getD n false = true) (hr : (n : Int) - last ≤ 3) :
    MapPass good spare (n + 1) u n (ms ++ [n]) where
  chain := by
    rw [mapped_concat, List.isChain_append]
    refine ⟨h.chain, .singleton _, fun a ha b hb => ?_⟩
    have hlast : a = last := by
      rw [h.ends]
      exact (List.mem_getLast?_eq_getLast ha).2
    obtain rfl : (n : Int) = b := by simpa using hb
    have := h.below
    exact ⟨by omega, by omega⟩
  ends := by simp [mapped_concat]
  below := by omega
  good_of_mem := fun i hi => by
    rcases List.mem_append.mp hi with hi | hi
    · exact ⟨Nat.lt_succ_of_lt (h.good_of_mem i hi).1, (h.good_of_mem i hi).2⟩
    · obtain rfl := List.mem_singleton.mp hi
      exact ⟨Nat.lt_succ_self i, hg⟩
  count := by
    have := h.count
    rw [goodBelow_succ, hg, List.length_append, List.length_singleton]
    simp only [if_true]
    omega

/-- A step of the pass that goes on leaves the index out or maps it. -/
theorem mapStep_pass (h : MapPass good spare n u last ms) (hs : mapStep good (some (u, last, ms)) n = some (u', last', ms')) :
    MapPass good spare (n + 1) u' last' ms' := by
  simp only [mapStep] at hs
  split at hs
  · next hg =>
    cases hs
    exact mapPass_skip h (by simp_all)
  · next hg =>
    have hgood : good.getD n false = true := by simpa using hg
    split at hs
    · cases hs
      exact mapPass_skip h (by simp_all)
    · split at hs
      · cases hs
      · next hreach =>
        cases hs
        exact mapPass_map h hgood (by omega)

theorem foldl_mapStep_none (good : List Bool) (l : List Nat) : l.foldl (mapStep good) none = none := by
  induction l with
  | nil => rfl
  | cons i l ih => exact ih

/-- The pass over the indices below n, where it does not fail. -/
theorem mapPass_range (hs : (List.range n).foldl (mapStep good) (some (spare, -1, [])) = some (u, last, ms)) :
    MapPass good spare n u last ms := by
  induction n generalizing u last ms with
  | zero =>
    cases hs
    exact mapPass_start good spare
  | succ n ih =>
    rw [List.range_succ, List.foldl_append, List.foldl_cons, List.foldl_nil] at hs
    generalize hacc : (List.range n).foldl (mapStep good) (some (spare, -1, [])) = acc at hs
    match acc with
    | none => cases hs
    | some (v, l, xs) => exact mapStep_pass (ih hacc) hs

/-- A map of m columns is a whole pass that has left all the others out and has come within a column of the seam. -/
theorem mapHalf_some {m : Nat} (h : mapHalf good m = some ms) :
    ∃ last : Int, 32 ≤ last ∧ MapPass good ((good.filter id).length - m) 34 0 last ms := by
  simp only [mapHalf] at h
  split at h
  · cases h
  · split at h
    · next u last xs hfold =>
      split at h
      · next hend =>
        cases h
        simp only [Bool.and_eq_true, decide_eq_true_eq] at hend
        exact ⟨last, hend.2, hend.1 ▸ mapPass_range hfold⟩
      · cases h
    · cases h

/-- Columns mapped one after the other, by their places in the list. -/
theorem reaches_getD (h : List.IsChain Reaches (mapped ms)) :
    (ms ≠ [] → ms.getD 0 0 ≤ 2) ∧
    ∀ j, j + 1 < ms.length → ms.getD j 0 < ms.getD (j + 1) 0 ∧ ms.getD (j + 1) 0 ≤ ms.getD j 0 + 3 := by
  rw [List.isChain_iff_getElem] at h
  have hlen : (mapped ms).length = ms.length + 1 := by simp [mapped]
  refine ⟨fun hne => ?_, fun j hj => ?_⟩
  · have hpos := List.length_pos_of_ne_nil hne
    have := h 0 (by omega)
    simp only [mapped, Reaches, List.getElem_cons_zero, List.getElem_cons_succ, List.getElem_map] at this
    rw [List.getD_eq_getElem _ _ hpos]
    omega
  · have := h (j + 1) (by omega)
    simp only [mapped, Reaches, List.getElem_cons_succ, List.getElem_map] at this
    rw [List.getD_eq_getElem _ _ hj, List.getD_eq_getElem _ _ (by omega)]
    omega

end Sys2Proof.Machine

namespace Sys2Proof.Settled
open Sys2Proof Sys2Proof.Machine

/-- Settles O27: what holds of the whole pass of map_half, whose last column is at index 32 or 33. -/
theorem columnMapIsWithinReach : Obligations.ColumnMapIsWithinReach := by
  intro good m ms hlen h
  obtain ⟨last, hlast, hpass⟩ := mapHalf_some h
  have hcount : ms.length = m := by
    have := hpass.count
    rw [← hlen, goodBelow_length] at this
    omega
  have hne : ms ≠ [] := by
    rintro rfl
    have := hpass.ends
    simp [mapped] at this
    omega
  obtain ⟨hfirst, hnext⟩ := reaches_getD hpass.chain
  refine ⟨hcount, hpass.good_of_mem, hfirst hne, hnext, ?_⟩
  have hend : last = ms.getLast hne := by
    rw [hpass.ends]
    simp [mapped, List.getLast_cons, hne]
  rw [← hcount, List.getD_eq_getElem _ _ (by have := List.length_pos_of_ne_nil hne; omega), ← List.getLast_eq_getElem hne]
  omega

end Sys2Proof.Settled
end

section
/-!
Management (R470 to R484): datagrams and the mailbox, the request at the queue's front, and the upkeep of flash and line.
-/
namespace Sys2Proof.Machine

variable {s t : State} {q : MgtReq} {rest : List MgtReq} {o : Obj}

/-! ### Datagrams and the mailbox -/

/-- A port that transmits listens too. -/
theorem listens_of_transmits {m : Mgt} (h : m.transmits = true) : m.listens = true := by
  simp only [Mgt.transmits, Bool.and_eq_true] at h
  exact h.1.1

theorem listens_of_line {m : Mgt} (h : m.line ≠ 1) : m.listens = true := by simpa only [Mgt.listens, decide_eq_true_eq] using h

/-- A request's datagram as the rule names its parts, in the model's order. -/
theorem takesDatagram_eq (s : State) (e : MgtEnds) (multicast : Bool) (bytes : List Byte) :
    s.takesDatagram e multicast bytes = (e.solicits.isNone && decide (e.dstPort.toNat = 48213) &&
      decide (e.dstAddr = if multicast then allNodes else s.facts.mgtAddr) && (!multicast || decide (mgtOp bytes = 3))) := by
  cases multicast <;> simp [State.takesDatagram, mgtPort, Bool.and_assoc] <;> rfl

/-- A datagram that comes to a port that listens: a solicitation of its address, what is no request to it, one behind 16 others, or one to queue. -/
theorem mgtDatagram_eq (e : MgtEnds) (multicast : Bool) (bytes : List Byte) (hup : s.mgtUp = true) (hl : s.mgt.listens = true) :
    exec (.mgtDatagram e multicast bytes) s =
      if e.solicits = some s.facts.mgtAddr then
        (if s.facts.solicited.contains e.dstAddr && s.mgt.transmits then
          .next { s with mgt := { s.mgt with advert := some (e.addr, s.facts.mac) } } else .next s)
      else if s.takesDatagram e multicast bytes = false then .next s
      else if 16 ≤ (s.mgt.queue.filter fun q => !q.mailbox).length then
        (if s.mgt.transmits then .next { s with mgt := { s.mgt with dropped := satInc s.mgt.dropped } } else .next s)
      else .next { s with mgt := { s.mgt with queue := s.mgt.queue ++
        [{ source := (e.addr, e.port), uncounted := !s.mgt.transmits, time := s.now, bytes := bytes }] } } := by
  simp only [exec, execMgtDatagram, nothing, hup, hl, Bool.not_true, Bool.or_self, Bool.false_eq_true, if_false, Bool.not_eq_true']

theorem mgtDatagram_deaf (e : MgtEnds) (multicast : Bool) (bytes : List Byte) (h : s.mgtUp = false ∨ s.mgt.line = 1) :
    exec (.mgtDatagram e multicast bytes) s = .next s := by
  have hdeaf : (!s.mgtUp || !s.mgt.listens) = true := by simpa [Mgt.listens] using h
  exact if_pos hdeaf

/-- A request to the port asks for no neighbour. -/
theorem solicits_none_of_takes {e : MgtEnds} {multicast : Bool} {bytes : List Byte} (h : s.takesDatagram e multicast bytes = true) :
    e.solicits = none := by
  simp only [State.takesDatagram, Bool.and_eq_true, Option.isNone_iff_eq_none] at h
  exact h.1.1

theorem mbxGo_queues (hup : s.mgtUp = true) (hb : s.mgt.busy = false) : exec .mbxGo s = .next { s with mgt := { s.mgt with
    go := true, busy := true, queue := s.mgt.queue ++ [{ mailbox := true, time := s.now, bytes := s.mgt.mailboxBytes }] } } := by
  simp only [exec, execMbxGo, hup, hb, Bool.not_true, Bool.false_eq_true, if_false]

theorem mbxGo_overruns (hup : s.mgtUp = true) (hb : s.mgt.busy = true) :
    exec .mbxGo s = .next { s with mgt := { s.mgt with overrun := true } } := by
  simp only [exec, execMbxGo, hup, hb, Bool.not_true, Bool.false_eq_true, if_true, if_false]

/-! ### The request at the queue's front -/

/-- The queue's front request is taken. -/
def State.reqTaken (s : State) (rest : List MgtReq) : State := { s with mgt := { s.mgt with queue := rest } }

/-- A request of its OP is taken by the handler of that OP, and is well-formed. -/
theorem takeReq_request {op : Nat} {mine : Nat → Bool} (h : Claims.request s op q rest = true) (hmine : mine op = true) :
    s.takeReq mine = some (q, s.reqTaken rest) ∧ mgtForm q.bytes = true := by
  simp only [Claims.request, Bool.and_eq_true, decide_eq_true_eq] at h
  obtain ⟨⟨⟨⟨hqueue, hup⟩, hruns⟩, hop⟩, hform⟩ := h
  refine ⟨?_, hform⟩
  simp only [State.takeReq, hqueue, hup, hruns, hop, hmine, Bool.and_self, if_true]
  rfl

theorem read_request (h : Claims.request s 1 q rest = true) : exec .read s = .next ((s.reqTaken rest).readObject q) := by
  obtain ⟨htake, hform⟩ := takeReq_request (mine := fun op => op ≠ 2 && op ≠ 3) h (by decide)
  simp only [exec, execRead, htake, hform, if_true]

theorem write_request (h : Claims.request s 2 q rest = true) : exec .write s = .next ((s.reqTaken rest).writeRequest q) := by
  obtain ⟨htake, hform⟩ := takeReq_request (mine := fun op => op = 2) h (by decide)
  simp only [exec, execWrite, htake, hform, if_true]

theorem identify_request (h : Claims.request s 3 q rest = true) :
    exec .identify s = .next ((s.reqTaken rest).answerReq q
      (mgtResponse q.bytes (mgtType q.bytes) St.OK (s.reqTaken rest).identity)) := by
  obtain ⟨htake, hform⟩ := takeReq_request (mine := fun op => op = 3) h (by decide)
  simp only [exec, execIdentify, htake, hform, if_true]

/-! ### Objects read and written -/

theorem readObject_answers (ho : s.object (mgtIndex q.bytes) (mgtSub q.bytes) = some o)
    (ht : mgtType q.bytes = 0 ∨ mgtType q.bytes = o.type) :
    s.readObject q = s.answerReq q (mgtResponse q.bytes o.type St.OK (o.readData (mgtOffset q.bytes))) := by
  have htype : (mgtType q.bytes ≠ 0 && mgtType q.bytes ≠ o.type) = false := by
    rcases ht with ht | ht <;> simp [ht]
  simp only [State.readObject, ho]
  rw [htype]
  rfl

theorem readObject_unknown (ho : s.object (mgtIndex q.bytes) (mgtSub q.bytes) = none) :
    s.readObject q = s.rejectReq q (mgtType q.bytes) 1 St.MGT_UNKNOWN := by
  simp only [State.readObject, ho]

section
variable (ho : s.object (mgtIndex q.bytes) (mgtSub q.bytes) = some o)
include ho

theorem writeRequest_rejected {n : Nat} {st : Status}
    (hr : o.writeRejection (mgtIndex q.bytes) (mgtSub q.bytes) (mgtType q.bytes) (q.bytes.drop 16) = some (n, st)) :
    s.writeRequest q = s.rejectReq q o.type n st := by
  simp only [State.writeRequest, ho, hr]

variable (hr : o.writeRejection (mgtIndex q.bytes) (mgtSub q.bytes) (mgtType q.bytes) (q.bytes.drop 16) = none)
include hr

theorem writeRequest_sets (hw : s.writeObject (mgtIndex q.bytes) (mgtSub q.bytes) (q.bytes.drop 16) = .inl t) :
    s.writeRequest q = (t.journalWrite q o.type o.value (q.bytes.drop 16)).answerReq q (mgtResponse q.bytes o.type St.OK []) := by
  simp only [State.writeRequest, ho, hr, hw]

theorem writeRequest_refused {st : Status} (hw : s.writeObject (mgtIndex q.bytes) (mgtSub q.bytes) (q.bytes.drop 16) = .inr st) :
    s.writeRequest q = s.answerReq q (mgtResponse q.bytes o.type st []) := by
  simp only [State.writeRequest, ho, hr, hw]

end

/-- A refused access over a faulty segment is answered only. -/
theorem rejectReq_uncounted {type n : Nat} {st : Status} (h : q.uncounted = true) :
    s.rejectReq q type n st = s.answerReq q (mgtResponse q.bytes type st []) := by
  simp only [State.rejectReq, h, if_true]

/-- What an answer leaves of the management state: the journal, the violation counts, the park objects, and what waits to be persisted. -/
def Mgt.kept (m : Mgt) : List Journal × BitVec 32 × SMap (BitVec 32) × Byte × Byte × List (PersistItem × Nat) :=
  (m.journal, m.journalCount, m.viol, m.parkW, m.parkE, m.dirty)

/-- An answer is written to the management state, and the mailbox's signals a vector. -/
theorem answerReq_keeps (s : State) (q : MgtReq) (rsp : List Byte) :
    (s.answerReq q rsp).mgt.kept = s.mgt.kept ∧ ∀ m : Mgt, { s.answerReq q rsp with mgt := m, fns := s.fns } = { s with mgt := m } := by
  simp only [State.answerReq]
  split
  · split <;> exact ⟨rfl, fun _ => rfl⟩
  · split <;> exact ⟨rfl, fun _ => rfl⟩

/-! ### Flash and the field line -/

section
variable (hup : s.mgtUp = true)
include hup

/-- A value that waits is written to flash, or its failure is reported; it waits no more. -/
theorem persistWrite_eq {item : PersistItem} (ok : Bool) (h : (s.mgt.dirty.any fun d => decide (d.1 = item)) = true) :
    exec (.persistWrite item ok) s =
      let m := if ok then s.flashCopy item else s.mgt
      let u : State := { s with mgt := { m with dirty := m.dirty.filter fun d => decide (d.1 ≠ item) } }
      .next (if ok then u else u.pkgEvent St.MGT_PERSIST_FAIL 0) := by
  simp only [exec, execPersistWrite, hup, h, Bool.not_true, Bool.or_self, Bool.false_eq_true, if_false]

/-- A check of the line, while the port is up. -/
theorem lineCheck_onset {fault : LineFault} {code : Byte} {f : Mgt → Mgt} {st : Status}
    (hfault : execLineCheck fault s = if !s.mgtUp then nothing s else .next (s.lineOnset code f st)) (hline : s.mgt.line ≠ code) :
    exec (.lineCheck fault) s = .next ({ s with mgt := { f s.mgt with line := code, lineGone := none } }.pkgEvent st 0) := by
  have honset : s.lineOnset code f st = { s with mgt := { f s.mgt with line := code, lineGone := none } }.pkgEvent st 0 := if_neg hline
  rw [show exec (.lineCheck fault) s = execLineCheck fault s from rfl, hfault, hup, honset]
  rfl

theorem lineCheck_gone (hline : s.mgt.line ≠ 0) :
    exec (.lineCheck .none) s = .next { s with mgt := { s.mgt with lineGone := some (s.mgt.lineGone.getD s.now) } } := by
  simp only [exec, execLineCheck, hup, hline, Bool.not_true, Bool.false_eq_true, if_false]

theorem lineCheck_conflict : exec (.lineCheck .nodeConflict) s =
    .next ({ s with mgt := { s.mgt with conflict := some s.now } }.pkgEvent St.MGT_NODE_CONFLICT s.boot.nodeId.toNat) := by
  simp only [exec, execLineCheck, hup, Bool.not_true, Bool.false_eq_true, if_false]

theorem lineRecover_due {t : Nat} (h : s.mgt.lineGone = some t) (ht : t + 1000 * msT ≤ s.now) :
    exec .lineRecover s = .next { s with mgt := { s.mgt with line := 0, lineGone := none } } := by
  simp only [exec, execLineRecover, h, hup, ht, decide_true, Bool.and_self, if_true]

theorem nodeConflictRetry_due {t : Nat} (h : s.mgt.conflict = some t) (ht : t + 1000 * msT ≤ s.now) :
    exec .nodeConflictRetry s = .next { s with mgt := { s.mgt with conflict := none } } := by
  simp only [exec, execNodeConflictRetry, h, hup, ht, decide_true, Bool.and_self, if_true]

end

end Sys2Proof.Machine

namespace Sys2Proof.Settled
open Sys2Proof Sys2Proof.Machine

/-- Settles O52: a datagram by what it is to the port, and a request by its OP and what its checks find. -/
theorem managementRequests : Obligations.ManagementRequests := by
  intro ends multicast bytes s t q rest o n st m s1 r toPort ours
  have htakes : s.takesDatagram ends multicast bytes = ours := takesDatagram_eq ..
  have hsolicits (h : ours = true) : ends.solicits ≠ some s.facts.mgtAddr := by
    rw [solicits_none_of_takes (htakes.trans h)]; exact nofun
  refine ⟨fun hup hline h hroom => ?queued, fun hup hsends h hfull => ?dropped, fun hup hsends hsol hdst => ?solicited, fun h => ?ignored,
    mbxGo_queues, mbxGo_overruns, fun h ho ht => ?read, fun h ho => ?unknown, rejectReq_uncounted, fun h ho hr hw => ?write,
    fun h ho hr => ?rejected, identify_request⟩
  case queued =>
    rw [mgtDatagram_eq _ _ _ hup (listens_of_line hline), if_neg (hsolicits h), if_neg (by simp [htakes, h]), if_neg (Nat.not_le.mpr hroom)]
  case dropped =>
    rw [mgtDatagram_eq _ _ _ hup (listens_of_transmits hsends), if_neg (hsolicits h), if_neg (by simp [htakes, h]), if_pos hfull, if_pos hsends]
  case solicited =>
    rw [mgtDatagram_eq _ _ _ hup (listens_of_transmits hsends), if_pos hsol, if_pos (by simpa [hdst] using hsends)]
  case ignored =>
    by_cases hdeaf : s.mgtUp = false ∨ s.mgt.line = 1
    · exact mgtDatagram_deaf _ _ _ hdeaf
    · obtain ⟨hup, hline⟩ := not_or.mp hdeaf
      obtain ⟨hours, hsol⟩ := (h.resolve_left (fun hu => hdeaf (.inl hu))).resolve_left fun hl => hdeaf (.inr hl)
      rw [mgtDatagram_eq _ _ _ (by simpa using hup) (listens_of_line hline), if_neg hsol, if_pos (htakes.trans hours)]
  case read => rw [read_request h]; exact congrArg _ (readObject_answers ho ht)
  case unknown => rw [read_request h]; exact congrArg _ (readObject_unknown ho)
  case write => rw [write_request h]; exact congrArg _ (writeRequest_sets ho hr hw)
  case rejected => rw [write_request h]; exact congrArg _ (writeRequest_rejected ho hr)

/-- Settles O53: the answer alone is given, which leaves the management state's other parts and the rest of the package. -/
theorem refusedManagementWrites : Obligations.RefusedManagementWrites := by
  intro s q rest o st s1 h ho hr hw
  obtain ⟨hkept, hrest⟩ := answerReq_keeps s1 q (mgtResponse q.bytes o.type st [])
  simp only [Mgt.kept, Prod.mk.injEq] at hkept
  obtain ⟨hjournal, hcount, hviol, hparkW, hparkE, hdirty⟩ := hkept
  exact ⟨_, (write_request h).trans (congrArg _ (writeRequest_refused ho hr hw)), rfl, hjournal, hcount, hviol, hparkW, hparkE, hdirty,
    hrest s.mgt⟩

/-- Settles O54: each timer and each onset by its condition. -/
theorem managementUpkeep : Obligations.ManagementUpkeep := by
  intro item s t hup m left
  exact ⟨fun h => ⟨persistWrite_eq hup true h, persistWrite_eq hup false h⟩,
    lineCheck_onset (f := fun m => { m with shorts := satInc m.shorts }) hup rfl,
    lineCheck_onset (f := fun m => { m with opens := satInc m.opens }) hup rfl,
    lineCheck_onset (f := fun m => { m with reverses := satInc m.reverses }) hup rfl,
    lineCheck_gone hup, lineCheck_conflict hup, lineRecover_due hup, nodeConflictRetry_due hup⟩

end Sys2Proof.Settled
end

section
/-!
Bring-up (R404 to R422, R446, R449): the steps that the shepherd runs, steps 2 and 3, the host-stepped path, and readiness.
-/
namespace Sys2Proof.Machine

variable {s : State}

/-! ### Step 2 -/

/-- The conditions that an image passes (R407, R446, R449). -/
theorem imageOk_iff (s : State) (w : ImageVerdict) : s.imageOk w = true ↔
    w.svn ≤ 64 ∧ s.sec.fwSvn ≤ w.svn ∧ sm3 w.key = s.facts.rootKeyHash ∧
      sm2Verify w.key (digestBytes (sm3 (imageBytes w))) w.signature = true := by
  simp only [State.imageOk, State.imageSigned, Bool.and_eq_true, decide_eq_true_eq, and_assoc]

section
variable {a b : Nat × ImageVerdict}

theorem flashBoot_first (ha : s.imageOk a.2 = true) : s.flashBoot a b = (s.useImage a.1 a.2).endStep [2] := if_pos ha

/-- An event is no part of what an image is checked against. -/
theorem imageOk_bootEvent (st : Status) (d : Nat) (w : ImageVerdict) : (s.bootEvent st d).imageOk w = s.imageOk w := rfl

theorem flashBoot_other (ha : s.imageOk a.2 = false) (hb : s.imageOk b.2 = true) :
    s.flashBoot a b = ((s.bootEvent St.BOOT_SLOT_BAD a.1).useImage b.1 b.2).endStep [2] := by
  simp only [State.flashBoot, ha, imageOk_bootEvent, hb, Bool.false_eq_true, if_false, if_true]

theorem flashBoot_none (ha : s.imageOk a.2 = false) (hb : s.imageOk b.2 = false) :
    s.flashBoot a b = ((s.bootEvent St.BOOT_SLOT_BAD a.1).bootEvent St.BOOT_FLASH_INVALID 0).hostStepped := by
  simp only [State.flashBoot, ha, imageOk_bootEvent, hb, Bool.false_eq_true, if_false]

end

/-- Step 2 as it begins: it runs, and the override is read and cleared. -/
def State.verifying (s : State) : State := (s.runStep 2).clearOverride

/-- Step 2 with the host-stepped path noted where it was chosen. -/
def State.verifyingByChoice (s : State) : State := if s.bootChoice = 1 then s.verifying.hostStepped else s.verifying

section
variable {v : ShepherdVerdict} (hrails : s.railsUp = true) (hstep : s.boot.step = 0)
include hrails hstep

theorem shepherdVerify_fuse (hf : v.fusesOk = false) :
    exec (.bootShepherdVerify v) s = .next ((s.verifyingByChoice.raiseReports.stepToMgmt St.BOOT_FUSE).endStep []) := by
  simp only [exec, execBootShepherdVerify, hrails, hstep, hf, decide_true, Bool.and_self, Bool.not_true, Bool.not_false,
    Bool.false_eq_true, if_true, if_false]
  rfl

variable (hf : v.fusesOk = true)
include hf

theorem shepherdVerify_flash (hl : v.flashOk = false) :
    exec (.bootShepherdVerify v) s = .next (s.verifyingByChoice.raiseReports.enterMgmtOnly.endStep []) := by
  simp only [exec, execBootShepherdVerify, hrails, hstep, hf, hl, decide_true, Bool.and_self, Bool.not_true, Bool.not_false,
    Bool.false_eq_true, if_true, if_false]
  rfl

variable (hl : v.flashOk = true)
include hl

/-- With sound fuses and flash the choice of boot decides. -/
theorem shepherdVerify_chosen : exec (.bootShepherdVerify v) s =
    match s.bootChoice with
    | 1 => .next s.verifyingByChoice.fuseOffPorts
    | 2 => .next (s.verifyingByChoice.fuseOffPorts.raiseReports.flashBoot (1, v.slotB) (0, v.slotA))
    | _ => .next (s.verifyingByChoice.fuseOffPorts.raiseReports.flashBoot (0, v.slotA) (1, v.slotB)) := by
  simp only [exec, execBootShepherdVerify, hrails, hstep, hf, hl, decide_true, Bool.and_self, Bool.not_true, Bool.false_eq_true, if_false]
  rfl

theorem shepherdVerify_host (hc : s.bootChoice = 1) :
    exec (.bootShepherdVerify v) s = .next s.verifying.hostStepped.fuseOffPorts := by
  rw [shepherdVerify_chosen hrails hstep hf hl, State.verifyingByChoice, hc]
  rfl

/-- A flash boot tries slot B first where the boot mode says so, else slot A. -/
theorem shepherdVerify_boots (hc : s.bootChoice ≠ 1) :
    exec (.bootShepherdVerify v) s = .next (s.verifying.fuseOffPorts.raiseReports.flashBoot
      (if s.bootChoice = 2 then (1, v.slotB) else (0, v.slotA)) (if s.bootChoice = 2 then (0, v.slotA) else (1, v.slotB))) := by
  rw [shepherdVerify_chosen hrails hstep hf hl, State.verifyingByChoice, if_neg hc]
  by_cases h2 : s.bootChoice = 2
  · rw [h2]
    rfl
  · rw [if_neg h2, if_neg h2]
    split
    · next h => exact absurd h hc
    · next h => exact absurd h h2
    · rfl

end

/-! ### The host-stepped path (R422) -/

/-- BOOT_STEP_CTL as a request for step n with an argument leaves it. -/
def State.stepAsked (s : State) (n : Nat) (arg : Byte) : State :=
  { s with boot := { s.boot with ctlStep := BitVec.ofNat 8 n, ctlArg := arg } }

/-- The host-stepped path is open. -/
theorem hostPath_iff : Claims.hostPath s = true ↔
    s.railsUp = true ∧ s.boot.done.contains 3 = true ∧ s.boot.mode = 1 ∧ s.boot.mgmtOnly = false := by
  simp only [Claims.hostPath, Bool.and_eq_true, decide_eq_true_eq, Bool.not_eq_true', and_assoc]

theorem bootStepRequest2_eq (arg : Byte) (v : ShepherdVerdict) : exec (.bootStepRequest2 arg v) s =
    s.stepRequest 2 arg (s.atStep 2 [3] && decide (arg < 3)) fun s =>
      let s := s.raiseReports
      let img := if arg = 0 then v.slotA else if arg = 1 then v.slotB else v.host
      if !v.fusesOk then (s.stepToMgmt St.BOOT_FUSE).endStep []
      else if s.imageOk img then (s.useImage arg.toNat img).endStep [2] else (s.bootEvent St.BOOT_SLOT_BAD arg.toNat).failStep := rfl

theorem bootStepRequest4_eq (arg : Byte) (v : StackVerdict) (ok : Bool) : exec (.bootStepRequest4 arg v ok) s =
    s.stepRequest 4 arg (s.atStep 4 [2, 3]) fun s =>
      ((if (s.trainStacks v).boot.mgmtOnly then s.trainStacks v else (s.trainStacks v).clearStacks ok).endStep [4, 14]).tryReady := rfl

theorem bootStepRequest5_eq (arg : Byte) (v : WaveVerdict) : exec (.bootStepRequest5 arg v) s =
    s.stepRequest 5 arg (s.atStep 5 [2, 3] && decide (s.boot.waves = arg.toNat)) fun s => (s.powerWave arg.toNat v).endWave := rfl

theorem bootStepRequest6_eq (arg : Byte) (fs : List BistFailure) : exec (.bootStepRequest6 arg fs) s =
    s.stepRequest 6 arg (s.atStep 6 [5]) fun s => (s.runBist fs).endStep [6] := rfl

theorem bootStepRequest7_eq (arg : Byte) : exec (.bootStepRequest7 arg) s =
    s.stepRequest 7 arg (s.atStep 7 [6]) fun s => s.formDefects.endStep [7] := rfl

theorem bootStepRequest8_eq (arg : Byte) : exec (.bootStepRequest8 arg) s =
    s.stepRequest 8 arg (s.atStep 8 [7]) fun s => s.formColumns.endStep [8] := rfl

theorem bootStepRequest9_eq (arg : Byte) (v : FirmwareVerdict) : exec (.bootStepRequest9 arg v) s =
    s.stepRequest 9 arg (s.atStep 9 [8, 4]) fun s => ((s.runFirmware v).endStep [9]).tryReady := rfl

section
variable {c : Instr} {n : Nat} {arg : Byte} {inOrder : Bool} {run : State → State} (hc : exec c s = s.stepRequest n arg inOrder run)
include hc

theorem request_flash (hm : s.boot.mode = 0) : exec c s = .next s := hc.trans (if_pos (by simp [hm]))

/-- A request on the host-stepped path: refused in management-only mode, or out of order, or run. -/
theorem request_hostMode (hr : s.railsUp = true) (h3 : s.boot.done.contains 3 = true) (hm : s.boot.mode = 1) : exec c s =
    if s.boot.mgmtOnly then .next ((s.stepAsked n arg).bootEvent St.BOOT_MGMT_ONLY n)
    else if !inOrder then .next ((s.stepAsked n arg).bootEvent St.BOOT_STEP_ORDER n)
    else .next (run (Claims.atHostStep s n arg)) :=
  hc.trans (if_neg (by rw [hr, h3, hm]; decide))

theorem request_mgmtOnly (hr : s.railsUp = true) (h3 : s.boot.done.contains 3 = true) (hm : s.boot.mode = 1)
    (ho : s.boot.mgmtOnly = true) : exec c s = .next ((s.stepAsked n arg).bootEvent St.BOOT_MGMT_ONLY n) := by
  rw [request_hostMode hc hr h3 hm, if_pos ho]

theorem request_disordered (h : Claims.hostPath s = true) (ho : inOrder = false) :
    exec c s = .next ((s.stepAsked n arg).bootEvent St.BOOT_STEP_ORDER n) := by
  obtain ⟨hr, h3, hm, hmgmt⟩ := hostPath_iff.mp h
  rw [request_hostMode hc hr h3 hm, if_neg (Bool.eq_false_iff.mp hmgmt), if_pos (by rw [ho]; rfl)]

theorem request_runs (h : Claims.hostPath s = true) (ho : inOrder = true) {t : State} (ht : run (Claims.atHostStep s n arg) = t) :
    exec c s = .next t := by
  obtain ⟨hr, h3, hm, hmgmt⟩ := hostPath_iff.mp h
  rw [request_hostMode hc hr h3 hm, if_neg (Bool.eq_false_iff.mp hmgmt), if_neg (by rw [ho]; decide), ht]

end

/-- On the open path only the order of the steps decides whether bring-up is at one. -/
theorem atStep_hostPath (h : Claims.hostPath s = true) (n : Nat) (before : List Nat) :
    s.atStep n before = (before.all s.boot.done.contains && !s.boot.done.contains n) := by
  obtain ⟨hr, -, -, hmgmt⟩ := hostPath_iff.mp h
  simp only [State.atStep, hr, hmgmt, Bool.not_false, Bool.and_self, Bool.true_and]

/-! ### Readiness (R405) -/

/-- The package is ready, may not become it, or its last steps are not done. -/
def State.readyBarred (s : State) : Bool := s.boot.mgmtOnly || s.boot.ready || s.boot.ringFailed || !([9, 14].all s.boot.done.contains)

theorem tryReady_eq (s : State) : s.tryReady =
    if s.readyBarred then s else { s with boot := { s.boot with ready := true, everReady := true, crs := false, elapsedMs := s.sinceGood } } := rfl

theorem readyBarred_iff (s : State) : s.readyBarred = false ↔
    s.boot.ready = false ∧ s.boot.mgmtOnly = false ∧ s.boot.ringFailed = false ∧ 9 ∈ s.boot.done ∧ 14 ∈ s.boot.done := by
  simp only [State.readyBarred, Bool.or_eq_false_iff, Bool.not_eq_false', List.all_cons, List.all_nil, Bool.and_true, Bool.and_eq_true,
    List.contains_iff_mem]
  tauto

end Sys2Proof.Machine

namespace Sys2Proof.Settled
open Sys2Proof Sys2Proof.Machine

/-- Each step of a flash boot runs when its predecessors are done. -/
theorem flashBootSteps : Claims.FlashBootSteps := by
  intro sv ok w wv fs fv s
  refine ⟨fun h => if_pos h, fun h => if_pos h, fun h hok => ?_, fun h hw => if_pos ?_, fun h => if_pos h, fun h => if_pos h,
    fun h => if_pos h, fun h => if_pos h⟩
  · subst hok
    exact if_pos h
  · simp only [h, hw, decide_true, Bool.and_self]

/-- Step 2 by what the ROM finds of fuses, flash and slots, and step 3. -/
theorem firstBootSteps : Claims.FirstBootSteps := by
  intro v w s s1 s2 s3 x y
  refine ⟨imageOk_iff s w, fun hr h0 hf hl hc => ?slots, fun hr h0 hf hl hc => shepherdVerify_host hr h0 hf hl hc,
    fun hr h0 hf => shepherdVerify_fuse hr h0 hf, fun hr h0 hf hl => shepherdVerify_flash hr h0 hf hl, fun hr h0 h3 => ?step3⟩
  case slots =>
    rw [shepherdVerify_boots hr h0 hf hl hc]
    exact ⟨fun hx => congrArg _ (flashBoot_first hx), fun hx hy => congrArg _ (flashBoot_other hx hy),
      fun hx hy => congrArg _ (flashBoot_none hx hy)⟩
  case step3 =>
    have hdue : (s.railsUp && decide (s.boot.step ≠ 0) && !s.boot.done.contains 3) = true := by
      rw [hr, h3, decide_eq_true h0]
      rfl
    simp only [exec, execBootHifStart, hdue, Bool.not_true, Bool.false_eq_true, if_false]

/-- A request of the host by whether the path is open to it and its step is the next. -/
theorem hostSteppedPath : Claims.HostSteppedPath := by
  intro arg v sv ok wv fs fv s img run asked steps done
  have e2 := bootStepRequest2_eq (s := s) arg v
  have e4 := bootStepRequest4_eq (s := s) arg sv ok
  have e5 := bootStepRequest5_eq (s := s) arg wv
  have e6 := bootStepRequest6_eq (s := s) arg fs
  have e7 := bootStepRequest7_eq (s := s) arg
  have e8 := bootStepRequest8_eq (s := s) arg
  have e9 := bootStepRequest9_eq (s := s) arg fv
  refine ⟨fun hm => ?ignored, fun hr h3 hm ho => ?mgmtOnly, fun h => ?disordered, fun h => ?inOrder⟩
  case ignored =>
    simp only [steps, List.forall_mem_cons]
    exact ⟨request_flash e2 hm, request_flash e4 hm, request_flash e5 hm, request_flash e6 hm, request_flash e7 hm, request_flash e8 hm,
      request_flash e9 hm, nofun⟩
  case mgmtOnly =>
    simp only [steps, List.forall_mem_cons]
    exact ⟨request_mgmtOnly e2 hr h3 hm ho, request_mgmtOnly e4 hr h3 hm ho, request_mgmtOnly e5 hr h3 hm ho,
      request_mgmtOnly e6 hr h3 hm ho, request_mgmtOnly e7 hr h3 hm ho, request_mgmtOnly e8 hr h3 hm ho,
      request_mgmtOnly e9 hr h3 hm ho, nofun⟩
  case disordered =>
    simp only [steps, List.forall_mem_cons, done]
    refine ⟨fun hd => request_disordered e2 h ?_, fun hd => request_disordered e4 h ?_, fun hd => request_disordered e5 h ?_,
      fun hd => request_disordered e6 h ?_, fun hd => request_disordered e7 h ?_, fun hd => request_disordered e8 h ?_,
      fun hd => request_disordered e9 h ?_, nofun⟩
    all_goals
      rw [atStep_hostPath h]
      simp at hd ⊢
      tauto
  case inOrder =>
    obtain ⟨-, h3, -⟩ := hostPath_iff.mp h
    refine ⟨fun h2 ha hf hi => request_runs e2 h ?_ ?_, fun h2 ha hf hi => request_runs e2 h ?_ ?_,
      fun h2 h4 hm => request_runs e4 h ?_ ?_, fun h2 h5 hw => request_runs e5 h ?_ rfl, fun h5 h6 => request_runs e6 h ?_ rfl,
      fun h6 h7 => request_runs e7 h ?_ rfl, fun h7 h8 => request_runs e8 h ?_ rfl, fun h8 h4 h9 => request_runs e9 h ?_ rfl⟩
    case refine_2 => exact (if_neg (by rw [hf]; decide)).trans (if_pos hi)
    case refine_4 => exact (if_neg (by rw [hf]; decide)).trans (if_neg (by rw [hi]; decide))
    case refine_6 => exact congrArg (fun u : State => (u.endStep [4, 14]).tryReady) (if_neg (by rw [hm]; decide))
    all_goals simp only [atStep_hostPath h, List.all_cons, List.all_nil, Bool.and_true, Bool.not_false, decide_true, *]

/-- Becoming ready sets the boot state's own fields, once everything it waits for is there. -/
theorem readyAfterSteps9And4b : Claims.ReadyAfterSteps9And4b := by
  intro s
  have hbarred := readyBarred_iff s
  rw [tryReady_eq]
  split
  · next h =>
    rw [h] at hbarred
    refine ⟨?_, fun h0 h1 => absurd (h0.symm.trans h1) (by decide), rfl⟩
    cases hready : s.boot.ready <;> simp_all
  · next h => exact ⟨⟨fun _ => .inr (hbarred.mp (by simpa using h)).2, fun _ => rfl⟩, fun _ _ => rfl, rfl⟩

/-- Settles O26: the shepherd's steps, the two first ones, the host's requests, and readiness. -/
theorem bringUpSteps : Obligations.BringUpSteps := ⟨flashBootSteps, firstBootSteps, hostSteppedPath, readyAfterSteps9And4b⟩

end Sys2Proof.Settled
end

section
/-!
A reset of a virtual function's pasture whose program has a store image for a tile that is not the pasture's (R186, R380, R423): the reset writes
the images back to the tiles that they name, and nothing in the statement holds these to the pasture's own.
-/
namespace Sys2Proof.Machine

/-- Function 1's pasture is not enabled, so it has no tile, and its program has an image for tile (0, 0). -/
def imageElsewhere : State :=
  { boot := { everReady := true, done := [3] }, fns := [(1, { enabled := true })],
    pas := [(1, { program := some { images := [(tileKey 0 0, [(0, 1)])] } })] }

theorem imageElsewhere_notOwn : tileKey 0 0 ∉ imageElsewhere.ownTiles 1 := by decide +kernel

/-- The write of its page's reset register resets the pasture. -/
theorem registerWrite_resets_imageElsewhere :
    exec (.registerWrite 1 .bar0 0x140 1) imageElsewhere = .next (imageElsewhere.resetPasture 1 true) :=
  calc exec (.registerWrite 1 .bar0 0x140 1) imageElsewhere
    _ = imageElsewhere.writePage 1 1 true 0x140 1 := registerWrite_vf_bar0 1 rfl rfl (by decide) rfl (by decide)
    _ = exec (.pastureReset 1 1) imageElsewhere := writePage_reset_set _ _ _ _ _ rfl
    _ = .next (imageElsewhere.resetPasture 1 true) := rfl

/-- The store of tile (0, 0) was empty, and holds the image's word after the reset. -/
theorem imageElsewhere_store : (imageElsewhere.tile (tileKey 0 0)).store = [] ∧
    ((imageElsewhere.resetPasture 1 true).tile (tileKey 0 0)).store = [(0, 1)] := by decide +kernel

theorem store_eq_of_but_chans {t u : Tile} (h : { t with chans := u.chans } = u) : t.store = u.store := by rw [← h]

end Sys2Proof.Machine

namespace Sys2Proof.Settled
open Sys2Proof Sys2Proof.Machine

/-- Refutes O56: the reset of a function's pasture writes a tile that is not the function's, where the pasture's program names it; the statement's
premises do not exclude such a program. -/
theorem not_virtualFunctionsKeepToTheirPasture : ¬ Obligations.VirtualFunctionsKeepToTheirPasture := by
  intro h
  obtain ⟨-, htiles, -⟩ := h 1 .bar0 0x140 1 imageElsewhere _ (by decide) registerWrite_resets_imageElsewhere
  obtain ⟨hbefore, hafter⟩ := imageElsewhere_store
  have hsame : ((imageElsewhere.resetPasture 1 true).tile (tileKey 0 0)).store = (imageElsewhere.tile (tileKey 0 0)).store :=
    store_eq_of_but_chans (htiles (tileKey 0 0) imageElsewhere_notOwn)
  rw [hafter, hbefore] at hsame
  cases hsame

end Sys2Proof.Settled
end

section
/-!
Self-tests (R438 to R441): a request with nothing of its KIND and TARGET under way, and one that is under way.
-/
namespace Sys2Proof.Machine

variable {s : State}

/-- A request's test, as it is asked for. -/
def State.askedTest (s : State) (kind : SelfTestKind) (target : Byte) : SelfTest :=
  { kind := kind, target := target, since := s.now, seq := s.rel.testSeq }

/-- The state that has numbered a request of a KIND. -/
def State.testAsked (s : State) (kind : SelfTestKind) : State :=
  { s with rel := { s.rel with testSeq := s.rel.testSeq + 1, testLast := smapPut s.rel.testLast (testKindNum kind) s.rel.testSeq } }

/-- A request with nothing of its KIND and TARGET under way starts, is refused, or waits. -/
theorem requestTest_eq {kind : SelfTestKind} {target : Byte} (nowait : Bool) (h : s.testUnderWay kind target = none) :
    s.requestTest kind target nowait =
      let t := s.askedTest kind target
      let u := s.testAsked kind
      if s.testIdle t then u.startTest t
      else if nowait then u.endTest t St.BOOT_SELFTEST_BUSY
      else ({ u with rel := { u.rel with tests := s.rel.tests ++ [t] } }).noteTest t 1 := by
  have hnone : ((s.testAsked kind).testUnderWay kind target).isSome = false := by
    rw [show (s.testAsked kind).testUnderWay kind target = s.testUnderWay kind target from rfl, h]; rfl
  simp only [State.requestTest]
  exact if_neg (Bool.eq_false_iff.mp hnone)

section
variable {kind : SelfTestKind} {target : Byte} {t : SelfTest} (ht : s.testUnderWay kind target = some t)
include ht

theorem selftestStart_late (hlate : t.since + 1000 * msT < s.now) :
    exec (.selftestStart kind target) s = .next s := by
  simp only [exec, execSelftestStart, ht, hlate, decide_true, Bool.or_true, if_true]
  rfl

theorem selftestStart_starts (hr : t.running = false) (hidle : s.testIdle t = true) (hnow : s.now ≤ t.since + 1000 * msT) :
    exec (.selftestStart kind target) s = .next ({ s with rel := { s.rel with tests := s.rel.tests.erase t } }.startTest t) := by
  simp only [exec, execSelftestStart, ht, hr, hidle, decide_eq_false (Nat.not_lt.mpr hnow), Bool.not_true, Bool.or_self, Bool.false_eq_true,
    if_false]

theorem selftestDeferTimeout_ends (hr : t.running = false) (hlate : t.since + 1000 * msT ≤ s.now) :
    exec (.selftestDeferTimeout kind target) s = .next (s.endTest t St.BOOT_SELFTEST_BUSY) := by
  simp only [exec, execSelftestDeferTimeout, ht, hr, decide_eq_false (Nat.not_lt.mpr hlate), Bool.or_self, Bool.false_eq_true, if_false]

/-- A test that passes ends with ST_OK, and its pastures go on. -/
theorem selftestDone_passes {v : SelfTestVerdict} (hr : t.running = true) (hs : s.scrubbed t = true) (hf : s.testFailing t v = [])
    (hok : v.ok = true) : exec (.selftestDone kind target v) s =
      .next (((s.testPastures t).foldl (fun s p => s.leaveTest p) (s.endTest t St.OK)).startAwaiting) := by
  simp only [exec, execSelftestDone, ht, hr, hs, hf, hok, Bool.not_true, Bool.or_self, Bool.false_eq_true, if_false, List.foldl_nil,
    List.isEmpty_nil, Bool.true_or, Bool.and_self, if_true]

end

end Sys2Proof.Machine

namespace Sys2Proof.Settled
open Sys2Proof Sys2Proof.Machine

theorem selfTestRequests : Claims.SelfTestRequests := by
  intro p h st n nowait s hup
  refine ⟨if_pos hup, if_pos hup, if_pos hup, if_pos hup, if_pos hup, ?_⟩
  intro kind target hnone t asked
  rw [requestTest_eq nowait hnone]
  refine ⟨fun hidle => if_pos hidle, fun hbusy hw => ?_, fun hbusy hw => ?_⟩
  · exact (if_neg (Bool.eq_false_iff.mp hbusy)).trans (if_pos hw)
  · exact (if_neg (Bool.eq_false_iff.mp hbusy)).trans (if_neg (Bool.eq_false_iff.mp hw))

theorem selfTestEnds : Claims.SelfTestEnds := by
  intro kind target v s t ht ended
  exact ⟨fun _ => selftestStart_late ht, selftestStart_starts ht, selftestDeferTimeout_ends ht, selftestDone_passes ht⟩

/-- Settles O30: a request by whether its pastures are idle, and a test under way by its time and its verdict. -/
theorem selfTests : Obligations.SelfTests := ⟨selfTestRequests, selfTestEnds⟩

end Sys2Proof.Settled
end

section
/-!
The shepherd's restart, a failure of its ring, and the clearing of ALERT causes (R435, R437, R442, R443).
-/
namespace Sys2Proof.Machine

/-! ### A stop leaves bring-up alone, and adds an ALERT cause at most -/

section
variable (s : State)

/-- What the end of runs leaves alone: the boot state and the reliability state. -/
def State.upkeep (s : State) : Boot × Reliability := (s.boot, s.rel)

theorem upkeep_modPas (p : Nat) (f : Pasture → Pasture) : (s.modPas p f).upkeep = s.upkeep := rfl
theorem upkeep_modFn (n : Nat) (f : Fn → Fn) : (s.modFn n f).upkeep = s.upkeep := rfl
theorem upkeep_writeHost (a : Nat) (bs : List Byte) : (s.writeHost a bs).upkeep = s.upkeep := rfl
theorem upkeep_draw : s.draw.2.upkeep = s.upkeep := rfl

theorem upkeep_complete (fn : Nat) (c : Completion) : (s.complete fn c).upkeep = s.upkeep := by
  unfold State.complete State.writeCompletion
  extract_lets
  split
  · rw [State.signal, upkeep_modFn, upkeep_modFn]
    exact upkeep_writeHost ..
  · exact upkeep_modFn ..

theorem upkeep_failRun (p : Nat) (r : Run) (cause : Status) : (s.failRun p r cause).upkeep = s.upkeep := by
  obtain ⟨n, h⟩ := failRun_completes s p r cause
  rw [h, upkeep_complete, upkeep_modPas, State.stampFailed, upkeep_draw]
  exact upkeep_draw s

theorem upkeep_failRuns (p : Nat) (cause queued : Status) : (s.failRuns p cause queued).upkeep = s.upkeep := by
  rw [failRuns_eq, upkeep_modPas]
  refine foldl_keeps State.upkeep (fun s r => ?_) _ s
  unfold State.stopRun
  split
  · rfl
  · rfl
  · exact upkeep_failRun ..
  · exact upkeep_failRun ..
  · exact upkeep_failRun ..

/-- The causes of an alert are added to those there are. -/
theorem alert_keeps {i : Nat} (bit : Nat) (h : bitAt s.rel.alert i = true) : bitAt (s.alert bit).rel.alert i = true := by
  simp only [State.alert, bitAt, BitVec.getLsbD_or, Bool.or_eq_true]
  exact .inl h

theorem alert_sets {bit : Nat} (h : bit < 10) : bitAt (s.alert bit).rel.alert bit = true := by
  simp only [State.alert, bitAt, BitVec.getLsbD_or, BitVec.getLsbD_ofNat, h, decide_true, Nat.testBit_two_pow_self, Bool.and_self,
    Bool.or_true]

/-- The boot state and a pending ALERT cause. -/
def Pending (b : Boot) (i : Nat) (s : State) : Prop := s.boot = b ∧ bitAt s.rel.alert i = true

theorem pending_stopPasture {b : Boot} {i : Nat} {s : State} (p : Nat) (cause : Status) (h : Pending b i s) :
    Pending b i (s.stopPasture p cause) := by
  cases hs : (s.pasture p).stopped with
  | true => rwa [stopPasture_of_stopped s p cause hs]
  | false =>
    have hkept : (s.stopPasture p cause).upkeep = (s.stoppedAt p).upkeep := by
      rw [stopPasture_of_live s p cause hs, upkeep_failRuns]
    obtain ⟨hboot, hrel⟩ := Prod.mk.inj hkept
    exact ⟨hboot.trans h.1, hrel ▸ alert_keeps _ 0 h.2⟩

theorem pending_stopAll {b : Boot} {i : Nat} {s : State} (cause : Status) (h : Pending b i s) : Pending b i (s.stopAll cause) := by
  unfold State.stopAll
  generalize s.runningPas = ps
  induction ps generalizing s with
  | nil => exact h
  | cons p ps ih => exact ih (pending_stopPasture p cause h)

/-- A stop of all leaves every running pasture stopped, and no tile or port changed. -/
theorem stopAll_stops (cause : Status) : (∀ q ∈ s.runningPas, ((s.stopAll cause).pasture q).stopped = true) ∧
    (s.stopAll cause).tiles = s.tiles ∧ (s.stopAll cause).ports = s.ports := by
  have h : (s.stopAll cause).standing = _ := standing_stopPastures s.runningPas cause s
  refine ⟨fun q hq => ?_, congrArg Standing.tiles h, congrArg Standing.ports h⟩
  rw [show ((s.stopAll cause).pasture q).stopped = _ from congrFun (congrArg Standing.stopped h) q]
  simp only [hq, decide_true, Bool.or_true]

end

/-! ### The ring -/

variable {s : State}

/-- The state in which a ring flit's third resend has failed: the running pastures stop, and a package that was never ready is in
management-only mode. -/
def State.ringLost (s : State) : State :=
  let u := (s.alert 5).stopAll St.CNW_RING_FAIL
  if u.boot.everReady then u else u.enterMgmtOnly

theorem ringCrcFail_resends {resend : Fin 4} (hr : s.railsUp = true) (hf : s.boot.ringFailed = false) (h : resend.val < 3) :
    exec (.ringCrcFail resend) s = .next { s with rel := { s.rel with ringResends := satInc s.rel.ringResends } } := by
  simp only [exec, execRingCrcFail, hr, hf, h, Bool.not_true, Bool.or_self, Bool.false_eq_true, if_true, if_false]

theorem ringCrcFail_fails {resend : Fin 4} (hr : s.railsUp = true) (hf : s.boot.ringFailed = false) (h : resend.val = 3) :
    exec (.ringCrcFail resend) s = .next { s.ringLost with boot := { s.ringLost.boot with
      ringFailed := true, ready := false, downSince := some (s.ringLost.boot.downSince.getD s.ringLost.now) } } := by
  simp only [exec, execRingCrcFail, hr, hf, h, Nat.lt_irrefl, Bool.not_true, Bool.or_self, Bool.false_eq_true, if_false]
  rfl

/-- What a failed ring leaves: the mode by whether the package was ever ready, ALERT cause 5, and stopped pastures. -/
theorem ringLost_state (s : State) :
    s.ringLost.boot.mgmtOnly = (s.boot.mgmtOnly || !s.boot.everReady) ∧ bitAt s.ringLost.rel.alert 5 = true ∧
    (∀ q ∈ s.runningPas, (s.ringLost.pasture q).stopped = true) ∧ s.ringLost.tiles = s.tiles ∧ s.ringLost.ports = s.ports := by
  obtain ⟨hstopped, htiles, hports⟩ := stopAll_stops (s.alert 5) St.CNW_RING_FAIL
  obtain ⟨hboot, halert⟩ : Pending s.boot 5 ((s.alert 5).stopAll St.CNW_RING_FAIL) :=
    pending_stopAll _ ⟨rfl, alert_sets s (by decide)⟩
  unfold State.ringLost
  extract_lets u
  have hboot : u.boot = s.boot := hboot
  have halert : bitAt u.rel.alert 5 = true := halert
  split
  · next he => exact ⟨by rw [hboot] at he ⊢; simp [he], halert, hstopped, htiles, hports⟩
  · next he =>
    refine ⟨?_, alert_keeps _ 7 halert, hstopped, htiles, hports⟩
    rw [hboot] at he
    simp [State.enterMgmtOnly, State.alert, he]

/-! ### ALERT causes -/

theorem bitAt_alertsHeld (s : State) {i : Nat} (hi : i < 10) : bitAt s.alertsHeld i = s.alertHolds i := by
  have hfold (l : List Nat) (m : BitVec 10) : bitAt (l.foldl (fun m i => if s.alertHolds i then m ||| BitVec.twoPow 10 i else m) m) i =
      (bitAt m i || (decide (i ∈ l) && s.alertHolds i)) := by
    induction l generalizing m with
    | nil => simp
    | cons j l ih =>
      rw [List.foldl_cons, ih]
      by_cases hj : i = j
      · subst hj
        cases s.alertHolds i
        · simp
        · simp [bitAt, hi]
      · have hne : j ≠ i := Ne.symm hj
        split <;> simp [bitAt, BitVec.getLsbD_or, BitVec.getLsbD_twoPow, hj, hne]
  rw [State.alertsHeld, hfold]
  simp [bitAt, hi]

/-- A cause written 1 is what its condition is; the others stay. -/
theorem bitAt_clearAlerts (s : State) (value : BitVec 32) {i : Nat} (hi : i < 10) :
    bitAt (s.clearAlerts (value.setWidth 10)).rel.alert i = if bitAt value i then s.alertHolds i else bitAt s.rel.alert i := by
  have hheld : s.alertsHeld.getLsbD i = s.alertHolds i := bitAt_alertsHeld s hi
  simp only [State.clearAlerts, bitAt, BitVec.getLsbD_or, BitVec.getLsbD_and, BitVec.getLsbD_not, BitVec.getLsbD_setWidth, hheld, hi,
    decide_true, Bool.true_and]
  by_cases hv : value.getLsbD i = true <;> simp [hv]

end Sys2Proof.Machine

namespace Sys2Proof.Settled
open Sys2Proof Sys2Proof.Machine

/-- Settles O31: the restart as it is, a ring flit by its resend, and the causes bit by bit. -/
theorem shepherdRingAndAlert : Obligations.ShepherdRingAndAlert := by
  intro resend value s
  refine ⟨fun hup => if_pos hup, ringCrcFail_resends, fun hr hf h3 => ?_, fun hup => ?_⟩
  · exact ⟨_, ringCrcFail_fails hr hf h3, rfl, rfl, ringLost_state s⟩
  · exact ⟨_, if_pos hup, fun i hi => bitAt_clearAlerts s value hi, rfl⟩

end Sys2Proof.Settled
end

section
/-!
Security requests (R446 to R467): an entry of a KIND at a ring's head, the read of its request buffer, and what a signed command's checks decide.
-/
namespace Sys2Proof.Machine

section
variable {s : State} {fn : FnId} {ring : Fin 16} {id : EntryId} {e : List Byte} {kind : Nat} {mine : List Byte → Bool}
  {act : State → EntryId → List Byte → State}

/-- During a restart of the shepherd a security request waits. -/
theorem onSecurity_waits (h : s.restarting = true) : s.onSecurity fn ring kind mine act = .next s := if_pos h

theorem security_iff : Claims.security s fn ring id e kind = true ↔ s.restarting = false ∧ Claims.entry s fn ring id e = true ∧
    entOp e = 3 ∧ entKind e = kind ∧ securityRefusal fn e = none := by
  simp only [Claims.security, Bool.and_eq_true, Bool.not_eq_true', decide_eq_true_eq, Option.isNone_iff_eq_none, and_assoc]

theorem entKind_of_security (h : Claims.security s fn ring id e kind = true) : entKind e = kind := (security_iff.mp h).2.2.2.1

/-- A security request that no check of its entry refuses is handled. -/
theorem onSecurity_acts (h : Claims.security s fn ring id e kind = true) (hm : mine e = true) :
    s.onSecurity fn ring kind mine act = .next (act (s.fetched fn ring) id e) := by
  obtain ⟨hrun, hentry, hop, hkind, hrefusal⟩ := security_iff.mp h
  simp only [State.onSecurity, hrun, Bool.false_eq_true, if_false]
  rw [onEntry_acts hentry (by simp only [hop, hkind, hm, decide_true, Bool.and_self])]
  simp only [hrefusal]

end

section
variable {s : State} {id : EntryId} {e : List Byte}

/-! ### The request buffer -/

section
variable {act : State → List Byte → State}

theorem readBuffer_reads (h : (s.func id.fn).bufferFails = false) :
    s.readBuffer id e act = act s (s.readHost (entSrc e) (entLen e)) := if_neg (Bool.eq_false_iff.mp h)

theorem readBuffer_fails (h : (s.func id.fn).bufferFails = true) :
    s.readBuffer id e act = ((s.modFn id.fn fun f => { f with bufferFails := false }).noteDma id.fn).secDone id e St.HOST_DMA 0 := if_pos h

end

/-! ### Signed commands (R452) -/

section
variable {env : CommandOutcome} {own : Option Status} {act : State → List Byte → State} {kind : Nat} {st : Status}

theorem signedCommand_unread (hd : env.dmaOk = false) :
    s.signedCommand id e env own act = (s.noteDma id.fn.val).secDone id e St.HOST_DMA 0 := by
  simp only [State.signedCommand, hd, Bool.not_false, if_true, State.bufferFailed]

variable (hk : entKind e = kind) (hd : env.dmaOk = true)
include hk hd

theorem signedCommand_refused (h : s.cmdRefusal kind (s.readHost (entSrc e) (entLen e)) own = some st) :
    s.signedCommand id e env own act = s.secDone id e st 0 := by
  simp only [State.signedCommand, State.requestBuffer, hd, hk, h, Bool.not_true, Bool.false_eq_true, if_false]

variable (h : s.cmdRefusal kind (s.readHost (entSrc e) (entLen e)) own = none)
include h

theorem signedCommand_applies (hf : env.flashOk = true) :
    s.signedCommand id e env own act = (act s (s.readHost (entSrc e) (entLen e))).secDone id e St.OK 0 := by
  simp only [State.signedCommand, State.requestBuffer, hd, hk, h, hf, Bool.not_true, Bool.false_eq_true, if_true, if_false]

theorem signedCommand_flash (hf : env.flashOk = false) : s.signedCommand id e env own act = s.secDone id e St.SEC_FLASH 0 := by
  simp only [State.signedCommand, State.requestBuffer, hd, hk, h, hf, Bool.not_true, Bool.false_eq_true, if_false]

end

end

/-! ### Runs that see the debug port, and its lock (R459, R463) -/

/-- Only runs are marked. -/
theorem noteDebug_sec (s : State) : s.noteDebug.sec = s.sec := by
  unfold State.noteDebug
  split
  · rfl
  · exact foldl_keeps State.sec (fun s p => State.modPas_sec s p _) _ s

theorem draw_sec (s : State) : s.draw.2.sec = s.sec := rfl

theorem lockJtag_sec (s : State) : ∃ n, s.lockJtag.sec = { s.sec with scope := 0, unlockDigest := 0, challenge := n } := by
  have hkept : s.noteDebug.draw.2.sec = s.sec := (draw_sec s.noteDebug).trans (noteDebug_sec s)
  exact ⟨BitVec.ofNat 256 s.noteDebug.draw.1, congrArg
    (fun x : Security => { x with scope := 0, unlockDigest := 0, challenge := BitVec.ofNat 256 s.noteDebug.draw.1 }) hkept⟩

/-! ### Each command -/

section
variable {s : State} {fn : FnId} {ring : Fin 16} {id : EntryId} {e : List Byte}

/-- OWNER's commands, and SIGNERS, as the handlings of signed commands that they are. -/
theorem ownerTake_signed (env : CommandOutcome) (h : Claims.security s fn ring id e 5 = true)
    (hop : cmdOp (s.readHost (entSrc e) (entLen e)) = 0) :
    exec (.ownerTake fn ring env) s = .next ((s.fetched fn ring).signedCommand id e env
      (if (s.fetched fn ring).sec.owner.isSome then some St.SEC_OWNED else none) fun u c => u.setOwner c (some (cmdBody c))) :=
  onSecurity_acts h (by simp only [State.opIn, State.requestBuffer, hop, decide_true, Bool.true_or])

theorem ownerChange_signed (env : CommandOutcome) (h : Claims.security s fn ring id e 5 = true)
    (hop : cmdOp (s.readHost (entSrc e) (entLen e)) = 1) :
    exec (.ownerChange fn ring env) s = .next ((s.fetched fn ring).signedCommand id e env (s.fetched fn ring).sec.needsOwner
      fun u c => u.setOwner c (some (cmdBody c))) :=
  onSecurity_acts h (by simp only [State.opIn, State.requestBuffer, hop, decide_true])

/-- The state that has no owner and no signers, and whose debug port is locked. -/
def State.released (s : State) (c : List Byte) : State :=
  { (s.setOwner c none).lockJtag with sec := { (s.setOwner c none).lockJtag.sec with signers := [] } }

theorem ownerRelease_signed (env : CommandOutcome) (h : Claims.security s fn ring id e 5 = true)
    (hop : cmdOp (s.readHost (entSrc e) (entLen e)) = 2) :
    exec (.ownerRelease fn ring env) s =
      .next ((s.fetched fn ring).signedCommand id e env (s.fetched fn ring).sec.needsOwner State.released) :=
  onSecurity_acts h (by simp only [State.opIn, State.requestBuffer, hop, decide_true])

theorem signers_signed (env : CommandOutcome) (h : Claims.security s fn ring id e 6 = true) :
    exec (.signers fn ring env) s = .next ((s.fetched fn ring).signedCommand id e env (s.fetched fn ring).sec.needsOwner fun u c =>
      { u with sec := { u.sec with signers := signerKeys (cmdBody c), ownerSeq := BitVec.ofNat 64 (cmdSeq c) } }) :=
  onSecurity_acts h rfl

theorem released_sec (s : State) (c : List Byte) :
    (s.released c).sec.owner = none ∧ (s.released c).sec.signers = [] ∧ (s.released c).sec.scope = 0 ∧
    (s.released c).sec.ownerSeq = BitVec.ofNat 64 (cmdSeq c) ∧ (s.released c).sec.fwSvn = s.sec.fwSvn := by
  obtain ⟨n, hn⟩ := lockJtag_sec (s.setOwner c none)
  simp only [State.released, hn]
  exact ⟨rfl, trivial, trivial, rfl, rfl⟩

theorem unlock_unread (h : Claims.security s fn ring id e 7 = true) : exec (.unlock fn ring false) s =
    .next (((s.fetched fn ring).noteDma id.fn.val).secDone id e St.HOST_DMA 0) := onSecurity_acts h rfl

/-- An UNLOCK that its checks pass asks for the challenge last (R459). -/
theorem unlock_passes (h : Claims.security s fn ring id e 7 = true) {c : List Byte}
    (hc : (s.fetched fn ring).readHost (entSrc e) (entLen e) = c)
    (hr : (s.fetched fn ring).cmdRefusal 7 c (s.fetched fn ring).sec.needsOwner = none) : exec (.unlock fn ring true) s =
      .next (if digestOf (cmdBody c) ≠ (s.fetched fn ring).sec.challenge then (s.fetched fn ring).secDone id e St.SEC_CHALLENGE 0
        else { (s.fetched fn ring).noteDebug with sec := { (s.fetched fn ring).noteDebug.sec with
          scope := BitVec.ofNat 2 (leAt (cmdBody c) 32 1), unlockDigest := sm3 c } }.secDone id e St.OK 0) := by
  refine (onSecurity_acts h rfl).trans ?_
  simp only [State.requestBuffer, hc, hr, Bool.not_true, Bool.false_eq_true, if_false]

theorem relock_locks (h : Claims.security s fn ring id e 8 = true) :
    exec (.relock fn ring) s = .next ((s.fetched fn ring).lockJtag.secDone id e St.OK 0) := onSecurity_acts h rfl

/-- The version commit (R449, R450). -/
theorem svnCommit_eq (ok : Bool) (h : Claims.security s fn ring id e 9 = true) : exec (.svnCommit fn ring ok) s =
    let u := s.fetched fn ring
    .next (if u.boot.slot = 2 then u.secDone id e St.SEC_COMMIT_SOURCE 0
      else if u.sec.imageSvn ≤ u.sec.fwSvn then u.secDone id e St.OK 0
      else if !ok then u.secDone id e St.SEC_FLASH 0
      else { u with sec := { u.sec with fwSvn := u.sec.imageSvn } }.secDone id e St.OK 0) := onSecurity_acts h rfl

theorem attest_reads (h : Claims.security s fn ring id e 2 = true) : exec (.attest fn ring) s =
    .next ((s.fetched fn ring).readBuffer id e fun u c => u.respond id e (u.signed (u.report (slice c 0 32)))) := onSecurity_acts h rfl

theorem certs_responds (h : Claims.security s fn ring id e 3 = true) : exec (.certs fn ring) s =
    .next ((s.fetched fn ring).respond id e (s.fetched fn ring).facts.certsResponse) := onSecurity_acts h rfl

theorem chainSign_reads (h : Claims.security s fn ring id e 4 = true) : exec (.chainSign fn ring) s =
    .next ((s.fetched fn ring).readBuffer id e fun u c => match u.chainAnswer (entPas e) (leAt c 0 1) with
      | .inl st => u.secDone id e st 0
      | .inr bs => u.respond id e bs) := (onSecurity_acts h rfl).trans rfl

theorem periodicRecordSign_signs {p : PasId} {n : Word} {d : Digest} {t : Nat} (h : (s.pasture p).chain.signDue = some (n, d, t)) :
    exec (.periodicRecordSign p) s = .next (s.modPas p fun x =>
      { x with chain := { x.chain with signDue := none, periodic := some (s.chainRecord p (some n) d) } }) := by
  simp only [exec, execPeriodicRecordSign, h]

end

end Sys2Proof.Machine

namespace Sys2Proof.Settled
open Sys2Proof Sys2Proof.Machine

theorem attestationAndRecords : Claims.AttestationAndRecords := by
  intro fn ring p s id e bs st n d t s1 sel signedBytes read unread
  refine ⟨fun h => ⟨onSecurity_waits h, onSecurity_waits h, onSecurity_waits h⟩, fun hr => ?unread, fun hr h => ?attest, certs_responds,
    fun hr h ha => ?record, fun hr h ha => ?noRecord, periodicRecordSign_signs⟩
  case unread =>
    have hfails : (s1.func id.fn).bufferFails = true := by simpa [read] using hr
    exact ⟨fun h => (attest_reads h).trans (congrArg _ (readBuffer_fails hfails)),
      fun h => (chainSign_reads h).trans (congrArg _ (readBuffer_fails hfails))⟩
  case attest => exact (attest_reads h).trans (congrArg _ (readBuffer_reads hr))
  case record =>
    rw [chainSign_reads h, readBuffer_reads hr]
    simp only [show s1.chainAnswer (entPas e) (leAt (s1.readHost (entSrc e) (entLen e)) 0 1) = .inr bs from ha]
  case noRecord =>
    rw [chainSign_reads h, readBuffer_reads hr]
    simp only [show s1.chainAnswer (entPas e) (leAt (s1.readHost (entSrc e) (entLen e)) 0 1) = .inl st from ha]

theorem ownerCommands : Claims.OwnerCommands := by
  intro fn ring ok env s id e st s1 c seq done unread mayOwner
  refine ⟨fun h hop => ?take, fun h hr hd hf => ?change, fun h hr hd hf => ?signers, fun h hr hd => ?refused, fun h hr hd hf => ?flash,
    fun h hr => ?unlock, fun hd => ?unread, unlock_unread, fun h => ?relock, fun h hs hv => ?commit, fun h hs hv => ?committed,
    fun h hs => ?source⟩
  case take =>
    have hk := entKind_of_security h
    rw [ownerTake_signed env h hop]
    exact ⟨fun hr hd hf => congrArg _ (signedCommand_applies hk hd hr hf), fun hr hd => congrArg _ (signedCommand_refused hk hd hr),
      fun hr hd hf => congrArg _ (signedCommand_flash hk hd hr hf)⟩
  case change =>
    have hk := entKind_of_security h
    refine ⟨fun hop => ?_, fun hop => ⟨s1.released c, ?_, released_sec s1 c⟩⟩
    · rw [ownerChange_signed env h hop]
      exact congrArg _ (signedCommand_applies hk hd hr hf)
    · rw [ownerRelease_signed env h hop]
      exact congrArg _ (signedCommand_applies hk hd hr hf)
  case signers =>
    rw [signers_signed env h]
    exact congrArg _ (signedCommand_applies (entKind_of_security h) hd hr hf)
  case refused =>
    rw [signers_signed env h]
    exact congrArg _ (signedCommand_refused (entKind_of_security h) hd hr)
  case flash =>
    rw [signers_signed env h]
    exact congrArg _ (signedCommand_flash (entKind_of_security h) hd hr hf)
  case unlock =>
    rw [unlock_passes h rfl hr]
    exact ⟨fun hc => congrArg _ (if_neg (not_not.mpr hc)), fun hc => congrArg _ (if_pos hc)⟩
  case unread =>
    exact ⟨fun h hop => (ownerTake_signed env h hop).trans (congrArg _ (signedCommand_unread hd)),
      fun h hop => (ownerChange_signed env h hop).trans (congrArg _ (signedCommand_unread hd)),
      fun h hop => (ownerRelease_signed env h hop).trans (congrArg _ (signedCommand_unread hd)),
      fun h => (signers_signed env h).trans (congrArg _ (signedCommand_unread hd))⟩
  case relock =>
    obtain ⟨n, hn⟩ := lockJtag_sec s1
    exact ⟨relock_locks h, by rw [hn], by rw [hn]⟩
  case commit =>
    have hnew : ¬s1.sec.imageSvn ≤ s1.sec.fwSvn := BitVec.not_le.mpr hv
    exact ⟨(svnCommit_eq true h).trans (congrArg _ ((if_neg hs).trans (if_neg hnew))),
      (svnCommit_eq false h).trans (congrArg _ ((if_neg hs).trans (if_neg hnew)))⟩
  case committed => exact (svnCommit_eq ok h).trans (congrArg _ ((if_neg hs).trans (if_pos hv)))
  case source => exact (svnCommit_eq true h).trans (congrArg _ (if_pos hs))

/-- Settles O43: a request is handled at its ring's head, and its checks decide its answer. -/
theorem securityRequests : Obligations.SecurityRequests := ⟨attestationAndRecords, ownerCommands⟩

end Sys2Proof.Settled
end

section
/-!
Which commands stop (R399, 95_what_each_step_holds.md): every command but one runs on to a next state. The operations that many commands share run on
where what they are given does; the other commands are choices of next states.
-/
namespace Sys2Proof.Machine

/-- A command's outcome is a next state. -/
def Runs (o : Out) : Prop := ∃ t, o = .next t

theorem runs_next (t : State) : Runs (.next t) := ⟨t, rfl⟩
theorem runs_nothing (s : State) : Runs (nothing s) := ⟨s, rfl⟩

theorem runs_ite {p : Prop} [Decidable p] {a b : Out} (ha : Runs a) (hb : Runs b) : Runs (if p then a else b) := by
  split
  · exact ha
  · exact hb

/-! ### The operations that commands share -/

section
variable (s : State)

theorem runs_whileLive (k : Nat) {f : State → Out} (hf : ∀ u, Runs (f u)) : Runs (s.whileLive k f) := by
  obtain ⟨t, ht⟩ := hf (s.revived k)
  refine runs_ite (hf s) ?_
  rw [ht]
  exact runs_next _

theorem runs_issueDesc (k : Nat) (mine : List Word → Bool) {act : State → List Word → Out} (hact : ∀ u ws, Runs (act u ws)) :
    Runs (s.issueDesc k mine act) := by
  refine runs_ite (runs_whileLive s k fun u => ?_) (runs_nothing s)
  split
  · exact runs_next _
  · exact hact u _

theorem runs_issueImmediate (k op : Nat) (f : List Word → Tile → Tile) : Runs (s.issueImmediate k op f) :=
  runs_issueDesc s k _ fun _ _ => runs_next _

theorem runs_issueGo (k : Nat) (mine : List Word → Shadow → Bool) (op : Nat) (busy : Tile → Shadow → Option Status)
    (config : State → Job → Option Status) (fault : State → Job → Status → State) (start : Tile → Job → Tile) :
    Runs (s.issueGo k mine op busy config fault start) := by
  refine runs_issueDesc s k _ fun u ws => ?_
  dsimp only
  with_reducible repeat' (first | exact runs_next _ | split)

theorem runs_mvGo (vx : Vx) (vy : Vy) (op : Nat) (mine : Shadow → Bool) : Runs (s.mvGo vx vy op mine) := by
  rw [State.mvGo]
  exact runs_issueGo ..

theorem runs_stkGo (vx : Vx) (vy : Vy) (op : Nat) : Runs (s.stkGo vx vy op) := by
  rw [State.stkGo]
  exact runs_issueGo ..

theorem runs_vxGo (vx : Vx) (vy : Vy) (op : Nat) (mine : Shadow → Bool) : Runs (s.vxGo vx vy op mine) := by
  rw [State.vxGo]
  exact runs_issueGo ..

theorem runs_issueFlag (k a : Nat) (act : State → Nat → Nat → State) : Runs (s.issueFlag k a act) := by
  refine runs_issueDesc s k _ fun u ws => ?_
  dsimp only
  split
  · exact runs_next _
  · exact runs_nothing _

theorem runs_tryBeat (k : Nat) : Runs (s.tryBeat k) := by
  unfold State.tryBeat
  split
  · exact runs_nothing s
  · refine runs_ite (runs_nothing s) (runs_whileLive s k fun u => runs_ite (runs_ite (runs_nothing u) ?_) (runs_next _))
    split
    · exact runs_next _
    · exact runs_nothing u

theorem runs_onAction (k op : Nat) (f : HandlerRun → BitVec 32 → State) : Runs (s.onAction k op f) := by
  unfold State.onAction
  extract_lets
  split
  · exact runs_nothing s
  · exact runs_ite (runs_next _) (runs_nothing s)

theorem runs_onEntry (fn : FnId) (r : Fin 16) (mine : List Byte → Bool) (act : State → EntryId → List Byte → State) :
    Runs (s.onEntry fn r mine act) := by
  unfold State.onEntry
  split
  · exact runs_nothing s
  · refine runs_ite (runs_nothing s) ?_
    extract_lets
    split
    · exact runs_next _
    · exact runs_next _

theorem runs_onSecurity (fn : FnId) (ring : Fin 16) (kind : Nat) (mine : List Byte → Bool) (act : State → EntryId → List Byte → State) :
    Runs (s.onSecurity fn ring kind mine act) := runs_ite (runs_nothing s) (runs_onEntry ..)

theorem runs_stepRequest (n : Nat) (arg : Byte) (inOrder : Bool) (run : State → State) : Runs (s.stepRequest n arg inOrder run) :=
  runs_ite (runs_nothing s) (runs_ite (runs_next _) (runs_ite (runs_next _) (runs_next _)))

theorem runs_inputEvent (st : Status) : Runs (s.inputEvent st) := runs_ite (runs_next _) (runs_nothing s)

theorem runs_trip : Runs s.trip := runs_ite (runs_nothing s) (runs_next _)

end

/-! ### The commands -/

/-- Every command but a register write, which acts as other commands do, and the reset of function 0 as a virtual function runs on. -/
theorem exec_runs_of_not_registerWrite (s : State) {c : Instr} (hw : ∀ fn space off v, c ≠ .registerWrite fn space off v)
    (hf : c ≠ .flrVf 0) : Runs (exec c s) := by
  cases c
  case registerWrite fn space off v => exact absurd rfl (hw fn space off v)
  case flrVf fn =>
    have hfn : fn ≠ 0 := fun h => hf (h ▸ rfl)
    rw [show exec (.flrVf fn) s = execFlrVf fn s from rfl, execFlrVf, if_neg hfn]
    exact runs_ite (runs_nothing s) (runs_next _)
  case beatComplete => exact runs_tryBeat ..
  case itemArrival => exact runs_ite (runs_tryBeat ..) (runs_nothing s)
  case ctrset | ctradd | cmpset | overlay | halt =>
    dsimp only [exec, execCtrset, execCtradd, execCmpset, execOverlay, execHalt]
    exact runs_issueImmediate ..
  case descLoad => exact runs_issueDesc _ _ _ fun _ _ => runs_ite (runs_next _) (runs_next _)
  case nopb | loop | endloop | winopen | winclose | wait | fold =>
    dsimp only [exec, execNopb, execLoop, execEndloop, execWinopen, execWinclose, execWait, execFold]
    refine runs_issueDesc _ _ _ fun _ _ => ?_
    with_reducible repeat' (first | exact runs_next _ | exact runs_nothing _ | split)
  case matmul | conv | move | recv =>
    dsimp only [exec, execMatmul, execConv, execMove, execRecv]
    exact runs_issueGo ..
  case copy | tallyClear | gather | scatter =>
    dsimp only [exec, execCopy, execTallyClear, execGather, execScatter]
    exact runs_mvGo ..
  case stkrd | stkwr =>
    dsimp only [exec, execStkrd, execStkwr]
    exact runs_stkGo ..
  case vecopAdd | vecopSub | vecopMul | vecopFma | vecopMin | vecopMax | vecopAbs | vecopNeg | vecopCvt | vecopPairrot | vecopRsum | vecopRssq |
      vecopRmax | vecopRargmax | vecopExp2 | vecopLog2 | vecopRcp | vecopRsqrt | vecopTanh | vecopSigmoid | quant | quantDequantise | topk =>
    dsimp only [exec, execVecopAdd, execVecopSub, execVecopMul, execVecopFma, execVecopMin, execVecopMax, execVecopAbs, execVecopNeg, execVecopCvt,
      execVecopPairrot, execVecopRsum, execVecopRssq, execVecopRmax, execVecopRargmax, execVecopExp2, execVecopLog2, execVecopRcp, execVecopRsqrt,
      execVecopTanh, execVecopSigmoid, execQuant, execQuantDequantise, execTopk]
    exact runs_vxGo ..
  case flagSet | flagClear | flagHoldSet | flagHoldClear =>
    dsimp only [exec, execFlagSet, execFlagClear, execFlagHoldSet, execFlagHoldClear]
    exact runs_issueFlag ..
  case handlerWrite | handlerAdd | handlerBump | handlerFlagset | handlerFlagclr | handlerReply | handlerSend =>
    dsimp only [exec, execHandlerWrite, execHandlerAdd, execHandlerBump, execHandlerFlagset, execHandlerFlagclr, execHandlerReply, execHandlerSend]
    exact runs_onAction ..
  case run | abort | msg | cancelMsg | xfer | loadProgram | loadWeights =>
    dsimp only [exec, execRun, execAbort, execMsg, execCancelMsg, execXfer, execLoadProgram, execLoadWeights]
    exact runs_onEntry ..
  case attest | certs | chainSign | ownerTake | ownerChange | ownerRelease | signers | unlock | relock | svnCommit =>
    dsimp only [exec, execAttest, execCerts, execChainSign, execOwnerTake, execOwnerChange, execOwnerRelease, execSigners, execUnlock, execRelock,
      execSvnCommit]
    exact runs_onSecurity ..
  case bootStepRequest2 | bootStepRequest4 | bootStepRequest5 | bootStepRequest6 | bootStepRequest7 | bootStepRequest8 | bootStepRequest9 =>
    dsimp only [exec, execBootStepRequest2, execBootStepRequest4, execBootStepRequest5, execBootStepRequest6, execBootStepRequest7,
      execBootStepRequest8, execBootStepRequest9]
    exact runs_stepRequest ..
  case inputHigh | inputLow | inputOvercurrent => exact runs_inputEvent ..
  case efuseTrip | railOutOfRegulation => exact runs_trip ..
  -- Every other command chooses between next states.
  all_goals
    dsimp only [exec, execPaceGateOpen, execStackReread, execStallWatchdog, execWatchStart, execLateRefresh, execScrubVisit, execUnownedGroupMaint,
      execStackWriteRetry, execMsgRequestArrive, execHandlerDispatch, execHandlerEnd, execReplyArrive, execNakArrive, execFullBounce,
      execSpaceSignal, execSendWatchdog, execCancel, execChannelClose, execRegisterAccess, execTileWindowAccess, execFlitCheckFail,
      execFoldContribution, execFoldResult, execHaltNotice, execFlagChange, execFlagWaitArrive, execFlagRelease, execHostFlagSet, execHostFlagClr,
      execWaitArrive, execWaitRelease, execWptLate, execWptTimeout, execPacketForward, execOrdHoldExpiry, execOrdDrainExpiry, execRouteSwap,
      execRankSwap, execFlockStart, execFlockStop, execOrdReservationWrite, execData, execLandingNotice, execCreditReq, execCreditReturn,
      execTrackerAbandon, execCreditGrant, execNak, execDone, execDataAck, execCreditReqRepeat, execSendSourceDone, execDoneTimeout,
      execDroveTimeout, execLinkRetrain, execRetrainRequest, execLinkDetect, execLinkLanes, execLinkEqualise, execLinkWidth, execLinkIdentify,
      execLinkCompare, execPlanCommit, execPlanWaitExpiry, execLportWrite, execLinkNak, execAckTimeout, execLaneLost, execDegrade,
      execWidthProposal, execWidthAccept, execLaneHealthWindow, execCalibrationOpportunity, execLinkFlitReceive, execOwnershipWrite,
      execAutoEnable, execGroupXferWrite, execGroupClearDone, execPastureReset, execTileQuarantine, execWarmComputeReset, execFlrPf0, execPerstN,
      execHotReset, execPcieLinkDown, execSvcData, execSvcAck, execXferLinkTimeout, execDoorbell, execCompletionWrite, execDeadlineExpiry,
      execVectorFire, execRunIngress, execRunStart, execRunCompletion, execPastureStart, execPastureStop, execQosWrite, execLoadComplete,
      execPeriodicRecordSign, execBootShepherdVerify, execBootHifStart, execBootStackTrain, execBootStackClear, execBootWave, execBootBist,
      execBootDefectMap, execBootColumnMap, execBootTileFw, execPowerCapReached, execPaceLimitWrite, execHelmUpdate, execFloorBreach,
      execSextantReport, execStackTempReport, execStackHotRefresh, execParkHalf, execUnparkHalf, execUnparkDone, execPowerGood, execPowerLoss,
      execInputReversed, execInputOvervoltage, execEfuseRetry, execThermtrip, execShepherdWatchdog, execRingCrcFail, execSelftestTileBist,
      execSelftestSextant, execSelftestStackScrub, execSelftestEyeScan, execSelftestSlotCheck, execSelftestStart, execSelftestDeferTimeout,
      execSelftestDone, execAlertClear, execMgtDatagram, execMbxGo, execRead, execWrite, execIdentify, execPersistWrite, execLineCheck,
      execLineRecover, execNodeConflictRetry]
    with_reducible repeat' (first | exact runs_next _ | exact runs_nothing _ | split)

/-! ### Register writes, which act as other commands do (R14, R380) -/

section
variable (s : State)

/-- A command that a register write stands for. -/
theorem runs_command {c : Instr} (hw : ∀ fn space off v, c ≠ .registerWrite fn space off v := by nofun) (hf : c ≠ .flrVf 0 := by nofun) :
    Runs (exec c s) := exec_runs_of_not_registerWrite s hw hf

theorem runs_writeFlockReg (fn : FnId) (p : PasId) (v : Word) : Runs (s.writeFlockReg fn p v) :=
  runs_ite (runs_command (c := .flockStart fn p) _) (runs_ite (runs_command (c := .flockStop fn p) _) (runs_next _))

theorem runs_writeTblReg (fn : FnId) (p : PasId) (v : Word) : Runs (s.writeTblReg fn p v) :=
  runs_ite (runs_command (c := .rankSwap fn p) _) (runs_next _)

theorem runs_writePage (fn : FnId) (p : PasId) (own : Bool) (off : Nat) (v : Word) : Runs (s.writePage fn p own off v) := by
  refine runs_ite (runs_ite (runs_command (c := .pastureReset fn p) s) (runs_next _)) (runs_ite (runs_next _)
    (runs_ite (runs_writeFlockReg ..) (runs_ite (runs_writeTblReg ..) ?_)))
  split
  · exact runs_ite (runs_command (c := .doorbell fn _ _) s) (runs_next _)
  · exact runs_command (c := .hostFlagSet fn p _ v) s
  · exact runs_command (c := .hostFlagClr fn p _ v) s
  · exact runs_command (c := .ordReservationWrite fn p _ v) s
  · exact runs_next _

theorem runs_writeGeom (p : PasId) (v : Word) : Runs (s.writeGeom p v) := by
  refine runs_ite (runs_command (c := .pastureStart p _ _) s) ?_
  split
  · exact runs_next _
  · exact runs_ite (runs_command (c := .pastureStop p) s) (runs_next _)

theorem runs_writeLow (off : Nat) (v : Word) : Runs (s.writeLow off v) := by
  unfold State.writeLow
  split
  · exact runs_writeGeom ..
  · exact runs_command (c := .qosWrite _ _) s
  · exact runs_command (c := .ownershipWrite 0 _ v) s
  · exact runs_command (c := .lportWrite _ _) s
  · exact runs_next _
  · refine runs_ite ?computeReset (runs_ite ?quarantine (runs_ite ?auto (runs_ite ?plan (runs_ite ?link ?_))))
    case computeReset => exact runs_ite (runs_command (c := .warmComputeReset _) _) (runs_next _)
    case quarantine => exact runs_ite (runs_command (c := .tileQuarantine _ _) _) (runs_next _)
    case auto => exact runs_ite (runs_command (c := .autoEnable) s) (runs_next _)
    case plan => exact runs_ite (runs_command (c := .planCommit) s) (runs_next _)
    case link => exact runs_ite (runs_command (c := .linkRetrain _) _) (runs_next _)
    split
    · exact runs_next _
    · exact runs_next _

theorem runs_writeHigh (off : Nat) (v : Word) : Runs (s.writeHigh off v) := by
  refine runs_ite (runs_ite (runs_command (c := .routeSwap) _) (runs_next _)) ?_
  split <;> exact runs_next _

theorem runs_writeWindow (off : Nat) (v : Word) : Runs (s.writeWindow off v) :=
  runs_ite (runs_next _) (runs_command (c := .tileWindowAccess _ _ _ (some v)) s)

theorem runs_writeBar0 (off : Nat) (v : Word) : Runs (s.writeBar0 off v) :=
  runs_ite (runs_writePage ..) (runs_ite (runs_writeLow ..) (runs_ite (runs_writeHigh ..) (runs_writeWindow ..)))

theorem runs_writeBar2 (off : Nat) (v : Word) : Runs (s.writeBar2 off v) := by
  unfold State.writeBar2
  extract_lets
  split
  · exact runs_next _
  · exact runs_next _
  · split
    · exact runs_ite (runs_command (c := .mbxGo) s) (runs_next _)
    all_goals exact runs_next _

theorem runs_registerWrite (fn : FnId) (space : RegSpace) (off : BitVec 26) (v : Word) : Runs (exec (.registerWrite fn space off v) s) := by
  refine runs_ite (runs_nothing s) ?_
  cases space with
  | config => exact runs_ite (runs_nothing s) (runs_next _)
  | bar2 => exact runs_ite (runs_nothing s) (runs_writeBar2 ..)
  | bar0 => exact runs_ite (runs_writeBar0 ..) (runs_ite (runs_writePage ..) (runs_nothing s))

end

theorem exec_runs (s : State) {c : Instr} (hf : c ≠ .flrVf 0) : Runs (exec c s) := by
  by_cases hw : ∃ fn space off v, c = .registerWrite fn space off v
  · obtain ⟨fn, space, off, v, rfl⟩ := hw
    exact runs_registerWrite ..
  · exact exec_runs_of_not_registerWrite s (fun fn space off v h => hw ⟨fn, space, off, v, h⟩) hf

/-- Function 0 is no virtual function. -/
theorem flrVf_zero (s : State) : exec (.flrVf 0) s = .fault .illFormed := rfl

end Sys2Proof.Machine

namespace Sys2Proof.Settled
open Sys2Proof Sys2Proof.Machine

/-- Settles O6: every command but the reset of function 0 as a virtual function runs on, and that one is not well-formed. -/
theorem whichCommandsStop : Obligations.WhichCommandsStop := by
  refine ⟨fun c s hwf => exec_runs s ?_, fun c s => ⟨fun hfault => ?_, ?_⟩⟩
  · rintro rfl
    exact absurd hwf (by decide)
  · by_contra hc
    obtain ⟨t, ht⟩ := exec_runs s hc
    cases hfault.symm.trans ht
  · rintro rfl
    exact flrVf_zero s

end Sys2Proof.Settled
end
